-- ==== Sys2Proof/Word.lean ====
section
/-! DEFINITION. The words of the SJ-960: bytes, register words and the numbered units a command may name.
A unit number is a `Fin` of the number of units the device has (R11, R123, R187, R269), so that no command can name a unit that
does not exist. -/

namespace Sys2Proof

abbrev Byte := BitVec 8
abbrev Half := BitVec 16
abbrev Word32 := BitVec 32
abbrev Word := BitVec 64

/-- A physical address of 40 bits (R32). -/
abbrev PAddr := BitVec 40

abbrev CoreId := Fin 64
abbrev GroveId := Fin 64
abbrev LaneId := Fin 32
abbrev EngineId := Fin 32
abbrev ChannelId := Fin 16
abbrev FieldPort := Fin 72
abbrev HawserPort := Fin 6
abbrev TagId := Fin 65536
abbrev SlotId := Fin 256
abbrev SourceId := Fin 4096

end Sys2Proof
end

