-- ==== Sys2Proof/Syntax.lean ====
section
/-! DEFINITION. The commands of the block: every row of the table of operations and events is one constructor of `Instr`, with
the operands that the environment supplies. -/

namespace Sys2Proof

/-- Who makes a register or memory access: the requesters of R19. A core stands for all its contexts and levels; its grove,
level and running context are read from the state. -/
inductive Requester where
  | core (c : CoreId)
  | dma (e : EngineId) (ch : ChannelId)
  | host
  | heartwood
deriving DecidableEq, Repr

/-- What a Gather write brings to a slot (R130): a value with its timestamp and the quality the writer carries, or a quality. -/
inductive GatherOp where
  | value (data : Word) (ts : Word) (qual : Byte)
  | quality (qual : Byte)
deriving DecidableEq, Repr

/-- The writer of a Gather write, by the kinds of R123: a Receive Frame Map entry, a cascade subscription, a core or DMA channel of a
grove, a channel of the metrology enclave, the host. -/
inductive GatherWriter where
  | map (e : Fin 4096)
  | subscription (i : Fin 262144)
  | grove (g : GroveId)
  | enclave (ch : Fin 262144)
  | host
deriving DecidableEq, Repr

/-- A Gather write: who writes, and what it brings. -/
structure GatherAccess where
  writer : GatherWriter
  op     : GatherOp
deriving DecidableEq, Repr

/-- A frame arriving at a field port (R190, R194): its bytes from destination address to the last byte before the FCS, the instant at which
the octet after its start-frame delimiter passes the module lands, whether the FCS was right, whether a code error occurred, and whether
its copy on the other port of a CB pair completes its FCS on the same clock (R210). -/
structure RxFrame where
  bytes     : List Byte
  capture   : Word
  fcsOk     : Bool
  codeError : Bool
  tie       : Bool := false
deriving DecidableEq, Repr

/-- Where a change of Heartwood ends that its row begins or takes up (R444-R446): with its result, after the audit entry with the command
still in progress, or while its OTP cell is programmed, whose margin is then not clean. -/
inductive ChangeEnd where
  | whole
  | entry
  | cell
deriving DecidableEq, Repr

/-- The mailbox whose command makes a change, and where the change ends. -/
structure ChangeCommand where
  mailbox : Fin 2
  ends    : ChangeEnd
deriving DecidableEq, Repr

/-- How Heartwood's write of new firmware ends (R452): written and read back, cut short with the command still in progress, or failed
for the third time at an operation in a 64 KiB unit of the flash (R459). -/
inductive FwWrite where
  | done
  | cut
  | failed (unit : Fin 16)
deriving DecidableEq, Repr

/-- The mailbox whose command writes firmware, and how the write ends. -/
structure FwCommand where
  mailbox : Fin 2
  write   : FwWrite
deriving DecidableEq, Repr

/-- A valid Sync with its Follow_Up (R213): the source time at its transmission with all corrections up to the neighbour, the local
receive timestamp, and the measured frequency offset of the neighbour-corrected source in ppb. -/
structure SyncMsg where
  origin : Word
  rx     : Word
  freq   : Int
deriving DecidableEq, Repr

/-- A completed Pdelay exchange (R211): receipt of the request at the neighbour, transmission of its response, receipt here. -/
structure PdelayMsg where
  t2 : Word
  t3 : Word
  t4 : Word
deriving DecidableEq, Repr

/-- A Pdelay_Req that has arrived: its receive timestamp and the port identity that it names, clockIdentity and portNumber (R211). -/
structure PdelayArrival where
  rx    : Word
  clock : Word
  num   : Half
deriving DecidableEq, Repr

/-- A link frame arriving at a Hawser port (R224): the bytes of its blocks (8 for a start block without a cell, otherwise 88),
whether a code error occurred, and its timestamp in units of 2^-16 ns (R246). -/
structure LinkFrame where
  bytes     : List Byte
  codeError : Bool
  rx        : Nat
deriving DecidableEq, Repr

/-- What the error logic of a memory read finds (R398-R403): nothing, a GDDR7 error that one device's correction mends (`big`: more
than 16 bits of its contribution), an uncorrectable GDDR7 line, a line that fails its MAC, an on-die error that is corrected, and
one that is not, with the structure's code of `HWD_MEM_ERR_LAST.SRC`. -/
inductive MemFault where
  | none
  | corrected (dev : Fin 9) (big : Bool)
  | uncorrectable
  | mac
  | sramCorrected (src : Fin 9)
  | sramLost (src : Fin 9)
deriving DecidableEq, Repr

/-- A read of an agent without a cache: its class (R395), and what the error logic finds. -/
structure LineAccess where
  rt    : Bool
  fault : MemFault
deriving DecidableEq, Repr

/-- An invalidating write: its bytes, its class, and what the error logic finds in the line. -/
structure LineWrite where
  bytes : List Byte
  rt    : Bool
  fault : MemFault
deriving DecidableEq, Repr

/-- What the converters of a feeder have measured in an integration interval (R471, R473): per phase the sum of the products of
voltage sample and phase-corrected current sample, before the gains, as secondary energy in units of 2^-32 mWh, and the same with the
delayed voltage; secondary RMS voltages and currents, frequency and total power factor as binary32; the inputs that were beyond full
scale, by channel 0-5 of the feeder. -/
structure FeederInterval where
  act   : List Int
  react : List Int
  u     : List Word32
  i     : List Word32
  freq  : Word32
  pf    : Word32
  overs : Nat
deriving DecidableEq, Repr

/-- A load that executes ahead of its turn (R315, R322, R328): how many instructions beyond the oldest unretired one it stands, 1 to 127,
and the address that fetch and its operands have given it. -/
structure EarlyAccess where
  beyond : Fin 127
  va     : Word
deriving DecidableEq, Repr

/-- How a load runs: what the error logic finds, and whether it executes ahead of its turn instead of retiring. -/
structure LoadAccess where
  fault : MemFault
  early : Option EarlyAccess
deriving DecidableEq, Repr

/-- An access of the debug module through DMI, by what it does (R457, R535): halt, resume or step a core, access a register of a
halted core by its abstract number, run the two words of the program buffer on it, access memory over the system bus through a
core's port. -/
inductive DmiOp where
  | halt (c : CoreId)
  | resume (c : CoreId)
  | step (c : CoreId)
  | readReg (c : CoreId) (n : Half)
  | writeReg (c : CoreId) (n : Half) (v : Word)
  | progbuf (c : CoreId) (a b : Word32)
  | busRead (c : CoreId) (addr : PAddr) (size : Nat)
  | busWrite (c : CoreId) (addr : PAddr) (size : Nat) (v : Word)
deriving DecidableEq, Repr


/-- The commands of the block: one constructor per row of the table of operations and events, in its order. -/
inductive Instr where
  /-- `REGISTER_WRITE` (R12): A write to any device register that has no row of its own acts as its access codes state, including reserved offsets and encodings. -/
  | registerWrite (r : Requester) (addr : PAddr) (size : Nat) (v : Word)
  /-- `LOW_WORD_READ` (R19): A 32-bit read of the low word of a 64-bit register returns the live low word and latches the high word in the requester's shadow. -/
  | lowWordRead (r : Requester) (addr : PAddr)
  /-- `HIGH_WORD_READ` (R19): A 32-bit read of the high word returns and consumes the requester's shadow when it is tagged with that register, otherwise the live high word. -/
  | highWordRead (r : Requester) (addr : PAddr)
  /-- `LOW_WORD_WRITE` (R19): A 32-bit write of the low word is held in the requester's hold, tagged with the register, and discards any earlier hold. -/
  | lowWordWrite (r : Requester) (addr : PAddr) (v : Word32)
  /-- `HIGH_WORD_WRITE` (R19): A 32-bit write of the high word writes both halves in one operation when a matching hold exists, otherwise the high half alone. -/
  | highWordWrite (r : Requester) (addr : PAddr) (v : Word32)
  /-- `TRANSACTION_COMPLETE` (R30): An open transaction completes and frees tracking space, which releases a requester held at the 49,152-transaction limit. -/
  | transactionComplete (r : Requester)
  /-- `POWER_GOOD` (R65): Power good starts the Heartwood ROM, with the main side held in reset. -/
  | powerGood 
  /-- `ROM_SELF_TEST_COMPLETE` (R65): The ROM self-test and OTP read complete, and the ROM verifies the Heartwood firmware area. -/
  | romSelfTestComplete
  /-- `MAIN_SIDE_RELEASE` (R65): The main side is released from reset, its clocks lock, the wipe of SRAM and GDDR7 begins, and the boot pointer is read. -/
  | mainSideRelease 
  /-- `FLASH_READ_COMPLETE` (R60): A flash read ends; a failed read is retried twice, and a third failure fails step 2 of R59. -/
  | flashReadComplete (off : Word32) (ok : Bool)
  /-- `WIPE_COMPLETE` (R65): The wipe of all SRAM and GDDR7 completes, and the selected slot is read into the staging area. -/
  | wipeComplete 
  /-- `SLOT_READ_COMPLETE` (R65): The read of the slot completes, and steps 1 to 10 of R59 are decided. -/
  | slotReadComplete 
  /-- `SEMANTIC_CHECKS_COMPLETE` (R61): Steps 11 to 13 of R59 complete for the slot. -/
  | semanticChecksComplete 
  /-- `SECTIONS_LOADED` (R65): The sections are loaded into the Tag Store, Frame SRAM, grove memory and the port and cascade units, and the staging area is wiped. -/
  | sectionsLoaded 
  /-- `ADMISSION_CHECK_COMPLETE` (R62): The admission check completes and sets CFG_ADMIT; the slot passes or fails with cause 0x0E or 0x0F. -/
  | admissionCheckComplete 
  /-- `BOOT_POINTER_WRITE` (R51): Heartwood erases, programs and reads back the unused boot pointer copy, which becomes valid once its CRC word is programmed. -/
  | bootPointerWrite 
  /-- `STAGING_COMPLETE` (R72): A staging finishes its write and read-back; the boot pointer is written and PENDING is set when steps 1 to 12 pass. -/
  | stagingComplete 
  /-- `TICK` (R78): The frame controller fires tick T(n): the frame number and tick time update, gather closes and Evaluate and the fold begin. -/
  | tick 
  /-- `SWEEP_END` (R86): The sweep ends at E(n), and Compute begins on every lane and core together. -/
  | sweepEnd 
  /-- `BUDGET_EXPIRY` (R101): A task's budget timer reaches 0; the task is pre-empted and saved dormant, BUDGET_EXP is set and the doorbell is written. -/
  | budgetExpiry (c : CoreId)
  /-- `STAGING_END` (R96): A grove's commit staging ends at S(g); tracking transfer and any pending freeze point follow. -/
  | stagingEnd (g : GroveId)
  /-- `COMMIT_DEADLINE` (R105): At D(n), the overruns are decided, and each overrunning grove is stopped, counted and signalled. -/
  | commitDeadline 
  /-- `TEMPLATE_RELEASE` (R203): At T(n+1) plus the port offset, the staged frames of the port's due templates enter their TC queues. -/
  | templateRelease (p : FieldPort)
  /-- `RELEASE` (R108): A write of 1 to FRM_GRV_CTL.RELEASE arms the end of fail-safe. -/
  | release (r : Requester) (g : GroveId)
  /-- `FORCE_FS` (R109): A write of 1 to FRM_GRV_CTL.FORCE_FS puts the grove into fail-safe and clears RELEASE_ARMED. -/
  | forceFs (r : Requester) (g : GroveId)
  /-- `SNAP` (R78): FRM_CTL.SNAP latches TIME_NOW and FRM_NUMBER on one clock. -/
  | snap (r : Requester)
  /-- `OVR_CNT_CLR` (R105): FRM_CTL.OVR_CNT_CLR clears the device and grove overrun counters. -/
  | ovrCntClr (r : Requester)
  /-- `STATS_CLR` (R88): FRM_CTL.STATS_CLR resets FRM_SWEEP_MAX and FRM_SLACK_MIN. -/
  | statsClr (r : Requester)
  /-- `GATHER_WRITE` (R130): A Gather write is served at port B of a gather bank and updates the slot and status word of its frame half. -/
  | gatherWrite (tag : TagId) (w : GatherAccess)
  /-- `VALUE_WRITE` (R125): A value write to the Tag Store window is checked for ownership and becomes a Gather write or a Compute write under its order key. -/
  | valueWrite (r : Requester) (tag : TagId) (size : Nat) (v : Word)
  /-- `QUALITY_WRITE` (R125): A one-byte quality write by the tag's writer sets QUAL or the slot's QIN. -/
  | qualityWrite (r : Requester) (tag : TagId) (q : Byte)
  /-- `TUNING_WRITE` (R125): A tuning write by a core of the grove at S or E level changes an alarm or limit field from the tag's next sweep. -/
  | tuningWrite (r : Requester) (tag : TagId) (off : Fin 64) (size : Nat) (v : Word)
  /-- `CONFIGURATION_WRITE` (R125): An E-level write while no grove holds the tag's range writes the record bytes at once. -/
  | configurationWrite (r : Requester) (tag : TagId) (off : Fin 64) (size : Nat) (v : Word)
  /-- `ALARM_ENTRY_DRAIN` (R148): The alarm write buffer writes an entry into its grove's ring, preceded by a loss marker when needed, and tests the threshold. -/
  | alarmEntryDrain 
  /-- `AQ_TAIL_WRITE` (R147): A write to SE_AQ_TAILg moves the consumer index unless it lies outside [HEAD − SIZE, HEAD]. -/
  | aqTailWrite (r : Requester) (g : GroveId) (v : Word32)
  /-- `AQ_ENABLE` (R152): A write of EN 1 to SE_AQ_CFGg enables the ring unless its size or base is invalid. -/
  | aqEnable (r : Requester) (g : GroveId) (v : Word32)
  /-- `AQ_LOSS_CLEAR` (R148): A write of 1 to SE_AQ_STATg.LOSS clears it and clears SE_AQ_LOSTg. -/
  | aqLossClear (r : Requester) (g : GroveId)
  /-- `SE_CNT_CLR` (R127): SE_CTL.CNT_CLR clears the Signal Engine drop, order, supersede and gather-drop counters. -/
  | seCntClr (r : Requester)
  /-- `PID_ISA` (R175): The lane executes an ideal-form PID block. -/
  | pidIsa (l : LaneId)
  /-- `PID_PAR` (R176): The lane executes a parallel-form PID block. -/
  | pidPar (l : LaneId)
  /-- `PID_VEL` (R176): The lane executes a velocity-form PID block. -/
  | pidVel (l : LaneId)
  /-- `PID_EXT` (R176): The lane executes a PID block with an external reset filter. -/
  | pidExt (l : LaneId)
  /-- `PI_GAP` (R176): The lane executes a gap PI block. -/
  | piGap (l : LaneId)
  /-- `ONOFF` (R176): The lane executes an on-off block with hysteresis. -/
  | onoff (l : LaneId)
  /-- `LEADLAG` (R176): The lane executes a lead-lag block. -/
  | leadlag (l : LaneId)
  /-- `LAG1` (R176): The lane executes a first-order lag block. -/
  | lag1 (l : LaneId)
  /-- `LAG2` (R176): The lane executes a second-order lag block. -/
  | lag2 (l : LaneId)
  /-- `DEADTIME` (R176): The lane executes a dead-time delay-line block. -/
  | deadtime (l : LaneId)
  /-- `MAVG` (R176): The lane executes a moving-average block. -/
  | mavg (l : LaneId)
  /-- `DERIV` (R176): The lane executes a filtered derivative block. -/
  | deriv (l : LaneId)
  /-- `INTEG` (R176): The lane executes an integrator block with a binary64 accumulator. -/
  | integ (l : LaneId)
  /-- `TOTAL` (R176): The lane executes a totaliser block. -/
  | total (l : LaneId)
  /-- `RAMP` (R176): The lane executes a ramp block. -/
  | ramp (l : LaneId)
  /-- `RATELIM` (R176): The lane executes a rate-limit block. -/
  | ratelim (l : LaneId)
  /-- `LIMIT` (R176): The lane executes a limiter block. -/
  | limit (l : LaneId)
  /-- `CHAR` (R176): The lane executes a characteriser block on a curve of the curve table. -/
  | char (l : LaneId)
  /-- `LINEAR` (R176): The lane executes a linear block. -/
  | linear (l : LaneId)
  /-- `SPLIT` (R176): The lane executes a split-range block. -/
  | split (l : LaneId)
  /-- `SELHI` (R176): The lane executes a high-select block. -/
  | selhi (l : LaneId)
  /-- `SELLO` (R176): The lane executes a low-select block. -/
  | sello (l : LaneId)
  /-- `SELMID` (R176): The lane executes a median-select block. -/
  | selmid (l : LaneId)
  /-- `SELSW` (R176): The lane executes a switch-select block. -/
  | selsw (l : LaneId)
  /-- `SELAVG` (R176): The lane executes an average-select block. -/
  | selavg (l : LaneId)
  /-- `ADD` (R176): The lane executes an add block. -/
  | add (l : LaneId)
  /-- `MUL` (R176): The lane executes a multiply block. -/
  | mul (l : LaneId)
  /-- `DIV` (R176): The lane executes a divide block. -/
  | div (l : LaneId)
  /-- `SQRT` (R176): The lane executes a square-root block with a low cutoff. -/
  | sqrt (l : LaneId)
  /-- `ABS` (R176): The lane executes an absolute-value block. -/
  | abs (l : LaneId)
  /-- `AND` (R176): The lane executes a logical AND block. -/
  | and (l : LaneId)
  /-- `OR` (R176): The lane executes a logical OR block. -/
  | or (l : LaneId)
  /-- `XOR` (R176): The lane executes a logical XOR block. -/
  | xor (l : LaneId)
  /-- `NOT` (R176): The lane executes a logical NOT block. -/
  | not (l : LaneId)
  /-- `CMP` (R176): The lane executes a compare block with hysteresis. -/
  | cmp (l : LaneId)
  /-- `SRFF` (R176): The lane executes a reset-dominant flip-flop block. -/
  | srff (l : LaneId)
  /-- `EDGE` (R176): The lane executes an edge-detect block. -/
  | edge (l : LaneId)
  /-- `TON` (R176): The lane executes an on-delay timer block. -/
  | ton (l : LaneId)
  /-- `TOF` (R176): The lane executes an off-delay timer block. -/
  | tof (l : LaneId)
  /-- `TPULSE` (R176): The lane executes a pulse timer block. -/
  | tpulse (l : LaneId)
  /-- `CTU` (R176): The lane executes an up-counter block. -/
  | ctu (l : LaneId)
  /-- `MOVE` (R176): The lane executes a move block. -/
  | move (l : LaneId)
  /-- `SAMPLE` (R176): The lane executes a sample-and-hold block. -/
  | sample (l : LaneId)
  /-- `MANSTA` (R176): The lane executes a manual/auto station block. -/
  | mansta (l : LaneId)
  /-- `RATIO` (R176): The lane executes a ratio block. -/
  | ratio (l : LaneId)
  /-- `CALL` (R178): A CALL block publishes its arguments to its call slot, sets PENDING and writes the slot's doorbell. -/
  | call (l : LaneId)
  /-- `POLY3` (R176): The lane executes a cubic-polynomial block. -/
  | poly3 (l : LaneId)
  /-- `GASCOMP` (R176): The lane executes a gas-flow compensation block. -/
  | gascomp (l : LaneId)
  /-- `BARRIER_FLAG_SET` (R171): A flag is set 34 engine clocks after its setter block ends, which releases the blocks waiting on it. -/
  | barrierFlagSet (f : Fin 256)
  /-- `CALL_DONE` (R178): A write of 1 to LE_CALL_CTLs.DONE completes a pending call, and the block ends 20 clocks later with the returned values. -/
  | callDone (r : Requester) (n : SlotId) (qclass : Fin 4)
  /-- `CALL_TIMEOUT` (R179): A call not completed within BUDGET_NS clears PENDING and faults the strand. -/
  | callTimeout (n : SlotId)
  /-- `CALL_RET_WRITE` (R180): A write to LE_CALL_RETs by the slot's grove sets the return values; writes from other groves are dropped and counted. -/
  | callRetWrite (r : Requester) (n : SlotId) (v : Word)
  /-- `LE_TUNING_WRITE` (R181): A write to block instruction or state bytes is applied, held in the grove's tuning buffer, or dropped. -/
  | leTuningWrite (r : Requester) (addr : PAddr) (size : Nat) (v : Word)
  /-- `LE_CNT_CLR` (R183): LE_CTL.CNT_CLR clears the Loop Engine fault, arithmetic, late and drop counters. -/
  | leCntClr (r : Requester)
  /-- `FRAME_RECEIVED` (R194): A frame whose FCS has completed on a field port is checked, CB-eliminated, and applied to the matching map entries or passed to the non-real-time path. -/
  | frameReceived (p : FieldPort) (f : RxFrame)
  /-- `CB_HISTORY_RESET` (R209): A stream's history resets after four base periods without a frame. -/
  | cbHistoryReset (ix : Fin 1024)
  /-- `GATE_ENTRY_CHANGE` (R206): A gate-list interval ends and the next entry of the port's gate cycle comes into force. -/
  | gateEntryChange (p : FieldPort)
  /-- `QUEUE_TRANSMIT` (R207): A TC queue starts a frame when its gate is open and the frame fits before the gate closes. -/
  | queueTransmit (p : FieldPort) (tc : Fin 8)
  /-- `FIELD_LINK_DOWN` (R204): A field port loses link; receive stops and template frames are discarded or aborted. -/
  | fieldLinkDown (p : FieldPort)
  /-- `FIELD_LINK_UP` (R189): Training or auto-negotiation completes and a held port's link comes up. -/
  | fieldLinkUp (p : FieldPort)
  /-- `SYNC_RECEIVED` (R213): A valid Sync on the slave port steps the counter once or steers TIME_RATE. -/
  | syncReceived (p : FieldPort) (m : SyncMsg)
  /-- `SYNC_TRANSMIT` (R211): A master port sends Sync and Follow_Up at its sync interval. -/
  | syncTransmit (p : FieldPort)
  /-- `ANNOUNCE_TRANSMIT` (R211): A master port sends Announce once per second. -/
  | announceTransmit (p : FieldPort)
  /-- `PDELAY_REQ_TRANSMIT` (R211): The slave port sends Pdelay_Req once per second. -/
  | pdelayReqTransmit (p : FieldPort)
  /-- `PDELAY_REQ_RECEIVED` (R211): A master port answers a received Pdelay_Req. -/
  | pdelayReqReceived (p : FieldPort) (seq : Half) (rx : PdelayArrival)
  /-- `FIELD_PORT_TIME_SOURCE_LOST` (R214): No valid Sync for three intervals puts the timebase into holdover. -/
  | fieldPortTimeSourceLost 
  /-- `FP_CNT_CLR` (R194): FP_CTL.CNT_CLR clears every field-port counter. -/
  | fpCntClr (r : Requester)
  /-- `BLOCK_LOCK` (R229): All lanes reach block lock and deskew, and the port sends HELLO. -/
  | blockLock (p : HawserPort)
  /-- `KEY_DERIVATION_COMPLETE` (R231): Heartwood verifies the certificate and KEYX signature and derives the link keys. -/
  | keyDerivationComplete (p : HawserPort)
  /-- `BRINGUP_RETRY` (R233): After a retryable failure, bring-up begins again 100 ms later. -/
  | bringupRetry (p : HawserPort)
  /-- `HELD_HELLO_TRANSMIT` (R233): A held port sends HELLO once per second. -/
  | heldHelloTransmit (p : HawserPort)
  /-- `HAWSER_LINK_DOWN` (R242): A Hawser port loses lock or alignment; queued cells are discarded and routing detours. -/
  | hawserLinkDown (p : HawserPort)
  /-- `LINK_FRAME_RECEIVED` (R226): A link frame is authenticated, its LSEQ checked and its credits taken, and its cell is routed or delivered. -/
  | linkFrameReceived (p : HawserPort) (f : LinkFrame)
  /-- `LINK_FRAME_TRANSMIT` (R228): A transmitter sends the next cell it holds credit for, in strict class order. -/
  | linkFrameTransmit (p : HawserPort)
  /-- `HELLO` (R230): A received HELLO is checked against this device's settings and wiring, and the port keys or is held. -/
  | hello (p : HawserPort) (m : List Byte)
  /-- `CERT` (R231): A received CERT chunk carries part of the neighbour's device certificate. -/
  | cert (p : HawserPort) (m : List Byte)
  /-- `KEYX` (R231): A received KEYX chunk carries the neighbour's nonce, ephemeral point and signature. -/
  | keyx (p : HawserPort) (m : List Byte)
  /-- `CONFIRM` (R231): A received CONFIRM is checked under the new keys, and the port begins delay measurement. -/
  | confirm (p : HawserPort) (m : List Byte)
  /-- `DIAG_REQ` (R236): A received DIAG_REQ is answered with DIAG_RSP carrying its payload. -/
  | diagReq (p : HawserPort) (m : List Byte)
  /-- `DIAG_RSP` (R236): A received DIAG_RSP returns the payload of a diagnostic request. -/
  | diagRsp (p : HawserPort) (m : List Byte)
  /-- `CLOSE` (R234): A received CLOSE takes the link down with cause 0x0D. -/
  | close (p : HawserPort)
  /-- `DREQ_TRANSMIT` (R247): A port sends DREQ every second, and 16 times during bring-up. -/
  | dreqTransmit (p : HawserPort)
  /-- `DREQ` (R247): A received DREQ is answered with DRSP carrying its receipt and transmit timestamps. -/
  | dreq (p : HawserPort) (m : List Byte) (rx : Nat)
  /-- `DRSP` (R247): A received DRSP yields a delay sample that updates the link delay M. -/
  | drsp (p : HawserPort) (m : List Byte) (rx : Nat)
  /-- `BEAT` (R246): An accepted BEAT corrects CORR, is forwarded on the other up ports, and steps or steers the follower's counter. -/
  | beat (p : HawserPort) (m : List Byte) (rx : Nat)
  /-- `BEAT_MISS` (R250): No BEAT is accepted by T(m) + BEAT_WIN; the third consecutive miss enters holdover. -/
  | beatMiss 
  /-- `STARTUP_WAIT_EXPIRY` (R252): A standby with no BEAT within STARTUP_WAIT_S of start completion takes over as Taproot. -/
  | startupWaitExpiry 
  /-- `TAPROOT_START_DELAY` (R252): One second after start completion, the Taproot begins sending BEATs, or becomes a follower if it has accepted an epoch-1 BEAT. -/
  | taprootStartDelay 
  /-- `DATA` (R255): A DATA cell at its destination makes a gather write for each slot with a matching subscription, or discards it as late. -/
  | data (c : List Byte)
  /-- `MQ_TXHEAD_WRITE` (R259): Grove software advances CAS_MQ_TXHEAD to post message descriptors. -/
  | mqTxheadWrite (r : Requester) (g : GroveId) (v : Word32)
  /-- `MESSAGE_ISSUE` (R260): A descriptor obtains a free message tag and is issued as a REQ cell, or completes at once with NO_ROUTE or BAD_DESC. -/
  | messageIssue (g : GroveId)
  /-- `REQ` (R263): A received REQ is written into the destination grove's receive ring when possible, and a response with status is returned. -/
  | req (c : List Byte)
  /-- `RSP` (R262): A received response completes its descriptor when its tag is open and its GEN matches. -/
  | rsp (c : List Byte)
  /-- `MESSAGE_EXPIRY` (R263): At T(EXPIRY), an open descriptor completes with TIMEOUT and its tag closes. -/
  | messageExpiry (mtag : Fin 4096)
  /-- `MQ_DOORBELL_HOLDOFF_END` (R265): When the 10 µs holdoff ends, a deferred message doorbell is written once. -/
  | mqDoorbellHoldoffEnd (g : GroveId)
  /-- `MQ_RXTAIL_WRITE` (R259): A write to CAS_MQ_RXTAIL moves the consumer index unless it is out of range. -/
  | mqRxtailWrite (r : Requester) (g : GroveId) (v : Word32)
  /-- `CAS_CNT_CLR` (R241): CAS_CTL.CNT_CLR clears every cascade counter. -/
  | casCntClr (r : Requester)
  /-- `CREATE` (R280): The CREATE command checks the records, pools and admission and creates a HELD grove. -/
  | create (r : Requester) (g : GroveId)
  /-- `START` (R279): The START command makes a HELD grove RUNNING from the next tick, with its boot context. -/
  | start (r : Requester) (g : GroveId)
  /-- `RESET` (R288): The RESET command takes the grove to DRAINING and treats its outstanding work as R288 states. -/
  | reset (r : Requester) (g : GroveId)
  /-- `DESTROY` (R288): The DESTROY command drains and clears the grove and returns its units to their pools. -/
  | destroy (r : Requester) (g : GroveId)
  /-- `FREEZE` (R291): The FREEZE command sets a freeze point at the grove's next S(g). -/
  | freeze (r : Requester) (g : GroveId) (arg : Bool)
  /-- `THAW` (R291): The THAW command resumes a FROZEN grove from the next tick. -/
  | thaw (r : Requester) (g : GroveId)
  /-- `SAVE` (R293): The SAVE command writes the full freeze image to a buffer, or sends it to the partner. -/
  | save (r : Requester) (g : GroveId) (arg : Bool)
  /-- `RESTORE` (R293): The RESTORE command checks and loads a freeze image. -/
  | restore (r : Requester) (g : GroveId)
  /-- `SWITCH` (R301): The SWITCH command hands a primary grove over to its SYNCED standby. -/
  | switch (r : Requester) (g : GroveId)
  /-- `PROMOTE` (R301): The PROMOTE command makes a STANDBY grove active from the next tick. -/
  | promote (r : Requester) (g : GroveId)
  /-- `DRAIN_COMPLETE` (R289): A resetting grove's drain completes, and it enters CLEARING with its reset reported. -/
  | drainComplete (g : GroveId)
  /-- `CLEARING_COMPLETE` (R290): The grove's memory, tags and instances are cleared, and it becomes HELD or ABSENT. -/
  | clearingComplete (g : GroveId)
  /-- `FREEZE_COMPLETE` (R291): Contexts, DMA channels and message issue have stopped, and the grove is FROZEN. -/
  | freezeComplete (g : GroveId)
  /-- `SAVE_COMPLETE` (R293): The freeze image has been written or sent, and the SAVE command ends. -/
  | saveComplete (g : GroveId) (fail : Fin 6)
  /-- `XFER` (R296): A received XFER cell is placed in the standby's XBUF, or resolves the pair, deposes the primary or loads a saved image. -/
  | xfer (c : List Byte)
  /-- `TRACKING_APPLY_COMPLETE` (R296): The apply ends and SYNCED sets. -/
  | trackingApplyComplete (g : GroveId)
  /-- `PARTNER_LOST` (R299): A primary without an acknowledgement for three consecutive frames sets PARTNER_LOST. -/
  | partnerLost (g : GroveId)
  /-- `FIREWALL_ENTRY_WRITE` (R287): A write to GRV_FWg_i changes a firewall entry, which the checking points apply by the next FENCE.GROVE. -/
  | firewallEntryWrite (r : Requester) (g : GroveId) (ix : Fin 32) (v : Word)
  /-- `LOAD` (R321): A core load is translated, checked, forwarded from the store buffer or read from memory. -/
  | load (c : CoreId) (insn : Word32) (f : LoadAccess)
  /-- `LOAD_MISS_FILL` (R328): The data of a load or fetch that missed arrives and fills L1 or the shadow buffer. -/
  | loadMissFill (c : CoreId) (f : MemFault)
  /-- `STORE` (R320): A store takes a store-buffer entry and retires; it performs nothing outside the core before retirement. -/
  | store (c : CoreId) (insn : Word32)
  /-- `STORE_DRAIN` (R320): A retired store drains from the store buffer to L1 or the fabric in program order. -/
  | storeDrain (c : CoreId) (f : MemFault)
  /-- `ATOMIC` (R387): An AMO is performed near in L1D or far at the home, as the contention predictor decides. -/
  | atomic (c : CoreId) (insn : Word32) (f : MemFault)
  /-- `LR` (R305): LR loads a value and sets a reservation on its line. -/
  | lr (c : CoreId) (insn : Word32) (f : MemFault)
  /-- `SC` (R305): SC stores only when the reservation holds, and it clears the reservation. -/
  | sc (c : CoreId) (insn : Word32)
  /-- `FENCE` (R380): A FENCE orders normal and device-type-ordered accesses by its predecessor and successor sets. -/
  | fence (c : CoreId) (insn : Word32)
  /-- `FENCE_I` (R307): FENCE.I orders the core's stores before its later instruction fetches. -/
  | fenceI (c : CoreId) (insn : Word32)
  /-- `FRAME_WAIT` (R310): FRAME.WAIT ends a real-time task's frame, or stops fetch of another context until the next tick or an interrupt. -/
  | frameWait (c : CoreId) (insn : Word32)
  /-- `REGION_INV` (R365): REGION.INV invalidates the RLB entries that overlap a range once older stores have drained. -/
  | regionInv (c : CoreId) (insn : Word32)
  /-- `FENCE_GROVE` (R287): FENCE.GROVE, at E level, waits until every checking point has applied earlier firewall writes. -/
  | fenceGrove (c : CoreId) (insn : Word32)
  /-- `FENCE_GROVE_COMPLETE` (R287): Every checking point has applied the writes and old transactions have completed, so FENCE.GROVE retires. -/
  | fenceGroveComplete (c : CoreId)
  /-- `LOOP_SET` (R312): LOOP.SET sets up a zero-overhead loop, or skips the loop body when the count is 0. -/
  | loopSet (c : CoreId) (insn : Word32)
  /-- `ECALL` (R352): ECALL raises the environment-call trap of its level. -/
  | ecall (c : CoreId) (insn : Word32)
  /-- `EBREAK` (R352): EBREAK raises the breakpoint trap. -/
  | ebreak (c : CoreId) (insn : Word32)
  /-- `OTHER_INSTRUCTION` (R303): An integer, floating-point, branch or CSR instruction with no row of its own executes and retires. -/
  | otherInstruction (c : CoreId) (insn : Word32)
  /-- `WALK_PROBE_RESPONSE` (R360): A Region Overflow Table probe returns, and the walk continues, completes or faults. -/
  | walkProbeResponse (c : CoreId) (f : MemFault)
  /-- `CTX_SWITCH` (R345): A write to CTX_SWITCH saves the running context and loads the target, or raises the context-refused trap. -/
  | ctxSwitch (c : CoreId) (insn : Word32)
  /-- `S_RET` (R349): A write to S_RET performs a trap return from S. -/
  | sRet (c : CoreId) (insn : Word32)
  /-- `E_RET` (R349): A write to E_RET performs a trap return from E. -/
  | eRet (c : CoreId) (insn : Word32)
  /-- `INTERRUPT_TAKEN` (R415): A core takes an offered interrupt at a retirement boundary; the source becomes ACTIVE and is pushed onto its stack. -/
  | interruptTaken (c : CoreId)
  /-- `REGION_REGISTER_WRITE` (R357): A write to a Region Register, ROT_BASE or ROT_CNT takes effect for the next instruction and may invalidate the RLB. -/
  | regionRegisterWrite (c : CoreId) (insn : Word32)
  /-- `PRED_FLUSH` (R332): A write of 1 to PRED_CTL.FLUSH flushes the branch predictor. -/
  | predFlush (c : CoreId) (insn : Word32)
  /-- `PMC_OVERFLOW` (R336): A performance counter wraps; OVF sets, a chained counter increments, and the overflow doorbell may be written. -/
  | pmcOverflow (c : CoreId) (n : Fin 8)
  /-- `READ_SHARED` (R382): The home serves a ReadShared request for a load or fetch miss. -/
  | readShared (cl : Fin 4) (addr : PAddr) (fetch rt : Bool) (f : MemFault)
  /-- `READ_UNIQUE` (R382): The home serves a ReadUnique, invalidating every other copy. -/
  | readUnique (c : CoreId) (addr : PAddr) (rt : Bool) (f : MemFault)
  /-- `UPGRADE` (R382): The home serves an Upgrade of an S line, or a ReadUnique when the line is gone. -/
  | upgrade (c : CoreId) (addr : PAddr) (rt : Bool) (f : MemFault)
  /-- `READ_SPEC` (R370): The home serves a ReadSpec for a shadow buffer unless the line is held U elsewhere. -/
  | readSpec (c : CoreId) (addr : PAddr) (rt : Bool) (f : MemFault)
  /-- `WRITE_BACK` (R384): The home takes an evicted M line into L3, or into an open transaction awaiting DIF. -/
  | writeBack (cl : Fin 4) (addr : PAddr)
  /-- `EVICT` (R382): The home clears a cluster's presence for an evicted clean line. -/
  | evict (cl : Fin 4) (addr : PAddr)
  /-- `READ_CURRENT` (R390): The home serves a non-caching read without changing any holder's state. -/
  | readCurrent (r : Requester) (addr : PAddr) (size : Nat) (f : LineAccess)
  /-- `WRITE_INV` (R391): The home performs an invalidating write of a whole or partial line. -/
  | writeInv (r : Requester) (addr : PAddr) (bs : LineWrite)
  /-- `ATOMIC_FAR` (R388): The home invalidates every copy and performs the atomic in L3. -/
  | atomicFar (cl : Fin 4) (addr : PAddr) (f : MemFault)
  /-- `SNOOP_RECEIVED` (R382): A cluster answers SnpShared, SnpInv or SnpCurrent with Data, Ack or DIF. -/
  | snoopReceived (cl : Fin 4) (addr : PAddr) (evicting : Bool)
  /-- `COMPLETION_ACK` (R383): A requester's completion acknowledgement closes the line's transaction and unblocks the queue. -/
  | completionAck (addr : PAddr)
  /-- `RETRY_REISSUE` (R386): A retried request is reissued after its backoff, gaining a reservation where due. -/
  | retryReissue (cl : Fin 4) (addr : PAddr)
  /-- `WHEEL_TURN` (R395): A new 1 µs turn of the GDDR7 slot wheel begins, and the allowance counts restart. -/
  | wheelTurn 
  /-- `PATROL_PASS_COMPLETE` (R401): A patrol scrub pass completes and the per-device counts restart. -/
  | patrolPassComplete (found : List (PAddr × MemFault))
  /-- `SPARING_REBUILD_COMPLETE` (R402): The rebuild ends and the controller operates in the spared layout. -/
  | sparingRebuildComplete 
  /-- `RETENTION_WAKE_COMPLETE` (R376): A Frame SRAM bank woken from retention completes the access that woke it. -/
  | retentionWakeComplete (bank : Fin 28)
  /-- `SEALED_BANK_WIPE_COMPLETE` (R377): The wipe of the sealed bank ends and held accesses proceed. -/
  | sealedBankWipeComplete 
  /-- `MEM_CNT_CLR` (R401): HWD_MEM_CTL.CNT_CLR clears the memory integrity counters. -/
  | memCntClr (r : Requester)
  /-- `PULSE` (R407): A PULSE doorbell sets PENDING of an edge source. -/
  | pulse (r : Requester) (src : SourceId)
  /-- `ASSERT` (R408): An ASSERT doorbell sets LVL, and PENDING, of a level source. -/
  | assert (r : Requester) (src : SourceId)
  /-- `DEASSERT` (R408): A DEASSERT doorbell clears LVL, and PENDING, of a level source. -/
  | deassert (r : Requester) (src : SourceId)
  /-- `IRQ_EN_SET` (R409): Writing 1 bits to IRQ_EN_SETw enables the sources the writer may signal. -/
  | irqEnSet (r : Requester) (w : Fin 128) (v : Word32)
  /-- `IRQ_EN_CLR` (R409): Writing 1 bits to IRQ_EN_CLRw disables the sources the writer may signal. -/
  | irqEnClr (r : Requester) (w : Fin 128) (v : Word32)
  /-- `IRQ_PEND_SET` (R409): Writing 1 bits to IRQ_PEND_SETw sets PENDING. -/
  | irqPendSet (r : Requester) (w : Fin 128) (v : Word32)
  /-- `IRQ_PEND_CLR` (R409): Writing 1 bits to IRQ_PEND_CLRw clears PENDING. -/
  | irqPendClr (r : Requester) (w : Fin 128) (v : Word32)
  /-- `IRQ_CLAIM` (R418): A read of IRQ_CLAIM in compatibility mode accepts the core's offer, or returns NONE. -/
  | irqClaim (c : CoreId)
  /-- `IRQ_EOI` (R419): A write to IRQ_EOI pops the core's stack when it names the top source, and re-samples a level source. -/
  | irqEoi (c : CoreId) (v : Word32)
  /-- `COMPAT_WRITE` (R420): A write to IRQ_GRV_CFGg.COMPAT changes the delivery mode when no stack of the grove is non-empty. -/
  | compatWrite (r : Requester) (g : GroveId) (v : Word32)
  /-- `IRQ_CNT_CLR` (R406): IRQ_CTL.CNT_CLR clears IRQ_DROP_CNT. -/
  | irqCntClr (r : Requester)
  /-- `DMA_HEAD_WRITE` (R423): A write to DMA_CH_HEAD posts descriptors unless it passes DONE + ring size. -/
  | dmaHeadWrite (r : Requester) (e : EngineId) (ch : ChannelId) (v : Word32)
  /-- `DMA_START` (R423): DMA_CH_CTL.START sets RUN unless the engine's ERR is set. -/
  | dmaStart (r : Requester) (e : EngineId) (ch : ChannelId)
  /-- `DMA_STOP` (R436): DMA_CH_CTL.STOP stops the channel at its next descriptor boundary. -/
  | dmaStop (r : Requester) (e : EngineId) (ch : ChannelId)
  /-- `DMA_JOB_START` (R424): An idle engine selects the next ready channel and starts its job, latching HEAD. -/
  | dmaJobStart (e : EngineId)
  /-- `DMA_ELEMENT_COMPLETE` (R430): An element access completes and may raise the HALF or FULL event of its window. -/
  | dmaElementComplete (e : EngineId)
  /-- `DESCRIPTOR_COMPLETE` (R428): A descriptor's writes complete; status is written back, DONE advances and events and HALT follow. -/
  | descriptorComplete (e : EngineId)
  /-- `ENGINE_BUS_ERROR` (R438): A bus error stops every channel of the engine and records the failed access. -/
  | engineBusError (e : EngineId) (addr : PAddr) (wr desc failed : Bool) (ch : Option ChannelId)
  /-- `PORT_RECEIVE_JOB` (R434): A MODE 1 channel writes one received frame into one descriptor's buffer, truncating when needed. -/
  | portReceiveJob (e : EngineId) (ch : ChannelId)
  /-- `PORT_TRANSMIT_JOB` (R435): A MODE 2 channel copies one frame into its TC buffer for transmission. -/
  | portTransmitJob (e : EngineId) (ch : ChannelId)
  /-- `DMA_CNT_CLR` (R438): DMA_CTL.CNT_CLR clears the engine bus-error counters. -/
  | dmaCntClr (r : Requester)
  /-- `GET_INFO` (R459): The GET_INFO mailbox command returns the unsigned first bytes of a quote. -/
  | getInfo (m : Fin 2)
  /-- `GET_NONCE` (R448): The GET_NONCE mailbox command returns a fresh authorisation nonce. -/
  | getNonce (m : Fin 2)
  /-- `GET_IDENTITY` (R459): The GET_IDENTITY mailbox command returns the identity public key and the certificate in force. -/
  | getIdentity (m : Fin 2)
  /-- `ATTEST` (R461): The ATTEST mailbox command returns a signed quote. -/
  | attest (m : Fin 2)
  /-- `AUDIT_READ` (R455): The AUDIT_READ mailbox command returns audit entries from a SEQ. -/
  | auditRead (m : Fin 2)
  /-- `STAGE` (R71): The STAGE mailbox command writes an image into the slot that is not running. -/
  | stage (m : Fin 2)
  /-- `HWFW_UPDATE` (R452): The HWFW_UPDATE mailbox command checks new Heartwood firmware and writes it to the firmware area. -/
  | hwfwUpdate (m : FwCommand)
  /-- `LC_CHANGE` (R444): The LC_CHANGE mailbox command makes an authorised lifecycle transition. -/
  | lcChange (m : ChangeCommand)
  /-- `PROVISION` (R443): The PROVISION mailbox command installs the first owner key and certificate and enters PROVISIONED. -/
  | provision (m : ChangeCommand)
  /-- `KEY_ROTATE` (R449): The KEY_ROTATE mailbox command programs a new owner key digest, pending until the next start. -/
  | keyRotate (m : ChangeCommand)
  /-- `CERT_INSTALL` (R451): The CERT_INSTALL mailbox command replaces the certificate of the key in force or pending. -/
  | certInstall (m : Fin 2)
  /-- `IMAGE_KEY_INSTALL` (R450): The IMAGE_KEY_INSTALL mailbox command unwraps and installs the image key. -/
  | imageKeyInstall (m : Fin 2)
  /-- `DEBUG_OPEN` (R457): The DEBUG_OPEN mailbox command opens core debug. -/
  | debugOpen (m : Fin 2)
  /-- `DEBUG_CLOSE` (R457): The DEBUG_CLOSE mailbox command closes core debug. -/
  | debugClose (m : Fin 2)
  /-- `NONCE_LAPSE` (R448): An issued nonce lapses 600 s after issue. -/
  | nonceLapse 
  /-- `LIFECYCLE_CHANGE_RESET` (R444): One millisecond after the result, Heartwood holds the main side in reset, writes the new state and erases keys. -/
  | lifecycleChangeReset 
  /-- `TAMPER_CONDITION` (R453): A sensor condition arises and Heartwood applies ALERT, RESET or ZEROISE. -/
  | tamperCondition (k : Fin 8)
  /-- `SENSOR_HOLD_END` (R453): The condition has been absent for 100 ms, and the main side is released. -/
  | sensorHoldEnd 
  /-- `HEARTWOOD_RESTART` (R454): The zeroise condition has been absent for 1 s, and Heartwood restarts from its ROM. -/
  | heartwoodRestart 
  /-- `HEARTWOOD_CLOCK_SYNC` (R456): Every second while acquired, Heartwood sets its clock to TIME_NOW. -/
  | heartwoodClockSync 
  /-- `MRAM_REFRESH` (R523): Heartwood rewrites every MRAM block every 30 days. -/
  | mramRefresh 
  /-- `TAP_INSTRUCTION_LOAD` (R458): Loading a JTAG instruction takes effect; EXTEST, INTEST, CLAMP and HIGHZ hold the main side in reset. -/
  | tapInstructionLoad (code : Byte)
  /-- `DMI_ACCESS` (R535): A debug-module access through DMI halts, steps or reads a core, within the limits of R457. -/
  | dmiAccess (op : DmiOp)
  /-- `PUBLICATION_BOUNDARY` (R475): Every 10 ms the enclave stores to MRAM, publishes its channels, updates the read window and serves one command. -/
  | publicationBoundary 
  /-- `INTEGRATION_INTERVAL_END` (R473): An integration interval ends, and its energy moves to the register of the active tariff or quadrant. -/
  | integrationIntervalEnd (fs : List FeederInterval)
  /-- `PULSE_EDGE` (R474): A qualified rising edge on a pulse input increments its count. -/
  | pulseEdge (ix : Fin 8)
  /-- `ENCLAVE_POWER_FAIL` (R467): The power-fail line asserts, and the enclave stores within 1 ms and logs event 0x02. -/
  | enclavePowerFail 
  /-- `ENCLAVE_POWER_RECOVERED` (R467): Supply recovers before the converter stops, and event 0x03 is logged. -/
  | enclavePowerRecovered 
  /-- `ENCLAVE_CONVERTER_START` (R467): The enclave converter starts; the last complete store is restored and the checksum verified. -/
  | enclaveConverterStart (crc : Word32)
  /-- `ENCLAVE_WATCHDOG` (R488): The 100 ms watchdog expires and resets the enclave core as a converter start. -/
  | enclaveWatchdog (crc : Word32)
  /-- `CHECKSUM_CHECK` (R478): Every 24 h the enclave recomputes its code checksum. -/
  | checksumCheck (crc : Word32)
  /-- `CONVERTER_FAULT` (R476): A converter channel stops or fails its self-test, and its feeder stops accumulating. -/
  | converterFault (ch : Fin 24)
  /-- `CONVERTER_FAULT_END` (R476): The faulty channel works again, and event 0x32 is logged. -/
  | converterFaultEnd (ch : Fin 24)
  /-- `PARAMETER_REFRESH` (R523): The enclave rewrites its parameter copy in use every 365 days. -/
  | parameterRefresh 
  /-- `SEAL_ASSERTED` (R483): MET_SEAL_N going low opens a calibration session. -/
  | sealAsserted 
  /-- `SEAL_RELEASED` (R483): MET_SEAL_N going high discards the pending set and ends the session. -/
  | sealReleased 
  /-- `IDENT` (R481): The calibration command IDENT returns the version, checksum, event counter and serial. -/
  | ident 
  /-- `PARAM_READ` (R481): The calibration command PARAM_READ returns a committed parameter. -/
  | paramRead (ix : Byte)
  /-- `PARAM_WRITE` (R483): The calibration command PARAM_WRITE places a value in the pending set. -/
  | paramWrite (ix : Byte) (v : Word32)
  /-- `COMMIT` (R484): The calibration command COMMIT writes the pending set and consumes an OTP slot. -/
  | commit 
  /-- `ABORT` (R483): The calibration command ABORT discards the pending set. -/
  | abort 
  /-- `LOG_READ` (R481): The calibration command LOG_READ returns up to four log entries. -/
  | logRead (seq : Word32)
  /-- `MEASURE` (R481): The calibration command MEASURE returns secondary RMS values and power of a feeder. -/
  | measure (f : Byte)
  /-- `READ_SNAPSHOT` (R487): The MET_CMD command READ_SNAPSHOT copies the energy registers at the next boundary. -/
  | readSnapshot (r : Requester) (tag : Byte) (arg : Word32)
  /-- `READ_LOG` (R487): The MET_CMD command READ_LOG fills MET_LOG0 to MET_LOG15 at the next boundary. -/
  | readLog (r : Requester) (tag : Byte) (arg : Word32)
  /-- `TIME_SET` (R487): The MET_CMD command TIME_SET steps the enclave clock within the daily limit. -/
  | timeSet (r : Requester) (tag : Byte) (arg : Word32)
  /-- `TARIFF` (R487): The MET_CMD command TARIFF changes the active tariff from the next integration interval. -/
  | tariff (r : Requester) (tag : Byte) (arg : Word32)
  /-- `PCIE_LINK_UP` (R491): The PCIe link trains up. -/
  | pcieLinkUp (speed : Fin 4) (x8 : Bool)
  /-- `PCIE_LINK_DOWN` (R500): The PCIe link goes down; outbound requests fail and host-owned tags take quality bad/2. -/
  | pcieLinkDown 
  /-- `PCI_PERST` (R491): PCI_PERST_N resets the endpoint alone. -/
  | pciPerst 
  /-- `FUNCTION_LEVEL_RESET` (R491): A Function Level Reset returns one function's configuration, MSI-X table and indices to reset. -/
  | functionLevelReset (pf : Fin 2)
  /-- `HOST_VALUE_WRITE` (R499): A host tag command of KIND 1 makes a value write as writer kind 6. -/
  | hostValueWrite (tag : TagId) (v : Word)
  /-- `HOST_QUALITY_WRITE` (R499): A host tag command of KIND 2 makes a quality write as writer kind 6. -/
  | hostQualityWrite (tag : TagId) (q : Byte)
  /-- `HOST_VALUE_QUALITY_WRITE` (R499): A host tag command of KIND 3 makes a value write followed by a quality write. -/
  | hostValueQualityWrite (tag : TagId) (v : Word) (q : Byte)
  /-- `HOST_DOORBELL` (R497): A host write to PCI_DOORBELL is a host doorbell write to the Interrupt Router. -/
  | hostDoorbell (v : Word32)
  /-- `SNAPSHOT_COPY` (R501): At D(n) + 100 ns, the snapshot unit begins to copy the due windows into their buffers. -/
  | snapshotCopy 
  /-- `SNAPSHOT_COMPLETE` (R502): A snapshot buffer's writes complete, SEQ is written and PF1 vector 0 may be signalled. -/
  | snapshotComplete (w : Fin 4)
  /-- `SNAPSHOT_ENABLE` (R501): A write of EN 1 to PCI_SNAP_CFGw enables a window unless the copy limit or the base is broken. -/
  | snapshotEnable (r : Requester) (w : Fin 4) (v : Word)
  /-- `H2D_HEAD_WRITE` (R505): A host H2D_HEAD advance takes effect after earlier writes complete and writes the queue's doorbell. -/
  | h2dHeadWrite (q : Fin 16) (v : Half)
  /-- `D2H_HEAD_WRITE` (R505): A grove D2H_HEAD advance signals PF1 vector 2 + q. -/
  | d2hHeadWrite (r : Requester) (q : Fin 16) (v : Half)
  /-- `D2H_TAIL_WRITE` (R504): A host D2H_TAIL write moves the consumer index unless out of range. -/
  | d2hTailWrite (q : Fin 16) (v : Half)
  /-- `MQ_ENABLE` (R504): A write of EN 1 to PCI_MQ_CFGq enables a host queue unless its rings or source are invalid. -/
  | mqEnable (r : Requester) (q : Fin 16) (v : Word)
  /-- `OUTBOUND_READ_COMPLETE` (R507): An outbound read receives its completions, or fails on UR, CA or link loss. -/
  | outboundReadComplete (id : Nat) (ok : Bool) (v : Word)
  /-- `OUTBOUND_COMPLETION_TIMEOUT` (R507): An outbound read receives no completion within the timeout and fails. -/
  | outboundCompletionTimeout (id : Nat)
  /-- `HOST_IRQ` (R496): PCI_CTL.HOST_IRQ signals PF0 vector 2. -/
  | hostIrq (r : Requester)
  /-- `PCI_CNT_CLR` (R498): PCI_CTL.CNT_CLR clears the host interface counters. -/
  | pciCntClr (r : Requester)
  /-- `LOCKOUT_RELEASE` (R510): VIN rises through 35 V, and the always-on domain starts. -/
  | lockoutRelease (a b : Bool)
  /-- `POWER_FAIL_WARNING` (R512): VIN falls below 34 V, and the power-fail sequence begins. -/
  | powerFailWarning 
  /-- `POWER_FAIL_RELEASE` (R513): Each port sends every template once with fail-safe values. -/
  | powerFailRelease 
  /-- `POWER_FAIL_COLD_RESET` (R512): At w + 4.5 ms, the main side enters cold reset. -/
  | powerFailColdReset 
  /-- `LOCKOUT` (R510): VIN falls below 33 V, and every domain stops. -/
  | lockout 
  /-- `FEED_LOST` (R510): One feed changes state while the other stays good, and the change is reported. -/
  | feedLost (b : Bool) (good : Bool)
  /-- `HOLD_UP_STORE_NOT_CHARGED` (R511): The hold-up store does not reach 68 V within 300 ms, or falls below it. -/
  | holdUpStoreNotCharged 
  /-- `HOLD_UP_STORE_CHARGED` (R511): The hold-up store reaches 68 V and HOLD_OK sets. -/
  | holdUpStoreCharged 
  /-- `COLD_RESET` (R516): RST_N held low for 10 µs starts a cold reset; transmitters squelch and registers reset. -/
  | coldReset 
  /-- `WARM_RST` (R515): PWR_CTL.WARM_RST with KEY 0xA5 starts a warm reset of the main side. -/
  | warmRst (r : Requester) (key : Byte)
  /-- `RESET_RELEASE` (R516): Every reset cause has ended, and the main side leaves reset. -/
  | resetRelease 
  /-- `SPRINT_REQUEST` (R519): A write of REQ to PWR_SPRINT requests or withdraws sprint. -/
  | sprintRequest (r : Requester) (on : Bool)
  /-- `SPRINT_LIMIT_EXPIRY` (R520): The 30 s sprint limit expires, and the sprint ends at the tick, with cooldown beginning. -/
  | sprintLimitExpiry 
  /-- `COOLDOWN_END` (R520): The 270 s cooldown ends. -/
  | cooldownEnd 
  /-- `POWERED_LEDGER_UPDATE` (R521): Every 60 s, Heartwood adds powered time to the ledger. -/
  | poweredLedgerUpdate 
  /-- `RETENTION_WRITE` (R518): A write to PWR_RET places Frame SRAM banks in retention. -/
  | retentionWrite (r : Requester) (v : Word32)
  /-- `THERMAL_SAMPLE` (R522): Every 1 ms the nine sensors are read and their thresholds checked. -/
  | thermalSample (t : List Half)
  /-- `MAX_CLR` (R522): THM_CTL.MAX_CLR resets every THM_MAX. -/
  | maxClr (r : Requester)
  /-- `PPS_OUT` (R532): PPS_OUT rises at each whole second of TIME_NOW while acquired. -/
  | ppsOut 
  /-- `BLOCK_LOCK_TIMEOUT` (R234): A Hawser port in training that has no signal or has not reached block lock within 1 ms fails bring-up with cause 0x01 and retries after 100 ms. -/
  | blockLockTimeout (p : HawserPort)
  /-- `DELAY_RESPONSE_TIMEOUT` (R234): A port that receives no DRSP within 10 ms fails bring-up with cause 0x0C and retries after 100 ms. -/
  | delayResponseTimeout (p : HawserPort)
  /-- `PDELAY_RESP_RECEIVED` (R211): A Pdelay_Resp received on the slave port completes a peer delay measurement that corrects the neighbour's Sync time. -/
  | pdelayRespReceived (p : FieldPort) (m : PdelayMsg)
  /-- `SENSOR_CONDITION_ABSENT` (R453): A tamper-sensor condition ceases; its HWD_TAMPER.ACTIVE bit clears and the 100 ms or 1 s absence timer begins. -/
  | sensorConditionAbsent (k : Fin 8)
  /-- `FRAME_TRANSMISSION_END` (R435): A frame finishes leaving the transmit reference plane; its transmit timestamp is taken and a TS_REQ descriptor completes. -/
  | frameTransmissionEnd (p : FieldPort)
deriving DecidableEq, Repr

end Sys2Proof
end

