-- ==== Sys2Proof/Config.lean ====
section
/-! DEFINITION. What the spec leaves open, as constants without a body: no proof can see what they are, so a claim holds
whatever they are. Verdicts and values of cryptography come from published standards the spec only names (0.9, R23, R24). -/

namespace Sys2Proof.Config

/-- A fresh free word: applied to `State.freeCnt`, which the step advances (log 5). -/
opaque freeWord : Nat → Word

/-- Does a checking point still use the old value of a firewall entry whose write no FENCE.GROVE has completed: grove, entry, place
in the list of such writes, draw (R287, log 7). -/
opaque firewallStillOld : Nat → Nat → Nat → Nat → Bool

/-- Does a quotient whose rounding the spec does not state round up: numerator, denominator (log 12). -/
opaque roundsUp : Int → Nat → Bool

/-- Does the Heartwood firmware area (its bytes) verify against the ROM key and the device's OTP counter? (R452, log 6) -/
opaque firmwareVerifies : List Byte → Bool

/-- Does an ECDSA P-384 signature verify: key (48-byte x, 48-byte y, or a key digest), message, signature bytes r and s (R55, R448; log 6). -/
opaque signatureValid : List Byte → List Byte → List Byte → Bool

/-- AES-256-GCM decryption: key, IV, additional data, ciphertext, tag; none when the tag does not match (R56; log 6). -/
opaque gcmOpen : List Byte → List Byte → List Byte → List Byte → List Byte → Option (List Byte)

/-- AES-256-GCM encryption: key, IV, additional data, plaintext; the ciphertext and then the tag (R225; log 6). -/
opaque gcmSeal : List Byte → List Byte → List Byte → List Byte → List Byte

/-- A keyed or unkeyed cryptographic value of `n` bytes over some input bytes: digests, MACs, signatures, derived keys, each under
its own purpose number (R293, R448, R455, R461; log 6). -/
opaque cryptoBytes : Nat → List Byte → List Byte

/-- What a link adds to the tracking latency beyond what a device can know of it (R258, R295): device, partner, place of the link on
the route; in hundredths of ns (log 20). -/
opaque trackExtra : Nat → Nat → Nat → Nat

/-- The set of an L2, and of an L3 slice, to which a line belongs (R367; log 41). -/
opaque l2Index : Nat → Nat
opaque l3Index : Nat → Nat

/-- The training of the data prefetcher by a retired load of a line (R329; log 33). -/
opaque prefetchTrain : Word → Nat → Word

/-- AES-XTS-256 of a 64-byte line under a memory key: key number, line, plaintext (R397; log 6). -/
opaque lineCipher : Nat → Nat → List Byte → List Byte

/-- The 32-bit MAC of a line's ciphertext and physical address (R397; log 6). -/
opaque lineMac : Nat → List Byte → Nat → BitVec 32

/-- The symbol ECC over ciphertext and MAC, as the spare device holds it beside the MAC (R397, R398; log 6). -/
opaque lineEcc : List Byte → BitVec 32 → List Byte

end Sys2Proof.Config
end

