-- ==== Sys2Proof/Machine/Bits.lean ====
section
/-! DEFINITION. Bit fields, sign extension, byte order and small list helpers (R5, R7). Numbers are `Nat`; a field is read with
`bits` and written with `setBits`. -/

namespace Sys2Proof.Machine

/-- Bits [hi:lo] of `v` (R5). -/
def bits (v hi lo : Nat) : Nat := (v / 2 ^ lo) % 2 ^ (hi + 1 - lo)

/-- Bit `i` of `v`. -/
def bitOf (v i : Nat) : Bool := (v / 2 ^ i) % 2 == 1

/-- `v` with bits [hi:lo] replaced by the low bits of `x`. -/
def setBits (v hi lo x : Nat) : Nat :=
  v - bits v hi lo * 2 ^ lo + (x % 2 ^ (hi + 1 - lo)) * 2 ^ lo

def b2n (b : Bool) : Nat := if b then 1 else 0

/-- The two's-complement value of the low `w` bits of `v`. -/
def sext (w v : Nat) : Int :=
  let u := v % 2 ^ w
  if 2 * u < 2 ^ w then (u : Int) else (u : Int) - (2 ^ w : Nat)

/-- The low `w` bits of an integer in two's complement. -/
def ofInt (w : Nat) (x : Int) : Nat := (x % ((2 ^ w : Nat) : Int)).toNat

/-- An integer clamped to the two's-complement range of `w` bits and written in it (a saturating field). -/
def satInt (w : Nat) (x : Int) : Nat :=
  let top : Int := ((2 ^ (w - 1) : Nat) : Int)
  ofInt w (if x ≥ top then top - 1 else if x < -top then -top else x)

/-- Little-endian value of a list of bytes (R7). -/
def leNat : List Byte → Nat
  | [] => 0
  | b :: bs => b.toNat + 256 * leNat bs

/-- `n` bytes of `v`, little-endian (R7). -/
def leBytes : Nat → Nat → List Byte
  | 0, _ => []
  | n + 1, v => BitVec.ofNat 8 v :: leBytes n (v / 256)

/-- Value of a list of bytes, most significant first (Ethernet fields, R7). -/
def beNat (bs : List Byte) : Nat := leNat bs.reverse

/-- `n` bytes of `v`, most significant first. -/
def beBytes (n v : Nat) : List Byte := (leBytes n v).reverse

/-- `n` bytes of a list from offset `off`; bytes beyond its end are 0. -/
def sliceB (bs : List Byte) (off n : Nat) : List Byte :=
  let t := (bs.drop off).take n
  t ++ List.replicate (n - t.length) 0

/-- Little-endian field of `n` bytes at offset `off` of a record. -/
def fieldB (bs : List Byte) (off n : Nat) : Nat := leNat (sliceB bs off n)

/-- `bs` with the bytes from offset `off` replaced by `new`. -/
def overlayB (bs : List Byte) (off : Nat) (new : List Byte) : List Byte :=
  (bs ++ List.replicate (off - bs.length) 0).take off ++ new ++ bs.drop (off + new.length)

/-- Are all bytes of a record's range 0? (reserved bytes, R61) -/
def zeroB (bs : List Byte) (off n : Nat) : Bool := (sliceB bs off n).all (· == 0)

/-- Quotient rounded up. -/
def ceilDiv (a b : Nat) : Nat := (a + b - 1) / b

def roundUp (a b : Nat) : Nat := ceilDiv a b * b

/-- A counter of `w` bits that saturates at all ones. -/
def satAdd (w a b : Nat) : Nat := min (a + b) (2 ^ w - 1)

/-- Greatest element of a list, 0 when empty. -/
def maxL (l : List Nat) : Nat := l.foldl max 0

/-- The indices below `n` whose bit is set in the bitmap `v`. -/
def bitsSet (n v : Nat) : List Nat := (List.range n).filter (bitOf v)

/-- Insertion by a key, stable; with `isort` an insertion sort in ascending key order. -/
def insertBy {α : Type} (key : α → Nat) (a : α) : List α → List α
  | [] => [a]
  | b :: bs => if key a < key b then a :: b :: bs else b :: insertBy key a bs

def isort {α : Type} (key : α → Nat) (l : List α) : List α := l.foldl (fun acc a => insertBy key a acc) []

/-- One byte folded into a reflected CRC-32C register (polynomial 0x82F6_3B78; the CRC-32C of 0.9). -/
def crcBit (c : Nat) : Nat := if c % 2 == 1 then (c / 2) ^^^ 0x82F63B78 else c / 2

def crcByte (c : Nat) (b : Byte) : Nat :=
  let c := c ^^^ b.toNat
  crcBit (crcBit (crcBit (crcBit (crcBit (crcBit (crcBit (crcBit c)))))))

/-- CRC-32C of a byte string: initial value and final exclusive-or all ones. -/
def crc32c (bs : List Byte) : Nat := (bs.foldl crcByte 0xFFFFFFFF) ^^^ 0xFFFFFFFF

/-- Integer square root (the largest r with r² ≤ n), by the bits of r from bit `k - 1` down. -/
def isqrtAux (n : Nat) : Nat → Nat → Nat
  | 0, r => r
  | k + 1, r => let r' := r + 2 ^ k; isqrtAux n k (if r' * r' ≤ n then r' else r)

def isqrt (n : Nat) : Nat := isqrtAux n (n.log2 / 2 + 1) 0

end Sys2Proof.Machine
end

