-- ==== Sys2Proof/Machine/Map.lean ====
section
/-! DEFINITION. Finite maps as plain data: lists of (key, value) pairs with strictly rising keys, and byte memories as such lists
that list no byte equal to what an unlisted address reads as. Equal maps are equal data. -/

namespace Sys2Proof.Machine

/-- The value at a key, if listed. -/
def mapGet? {α : Type} : List (Nat × α) → Nat → Option α
  | [], _ => none
  | (k, v) :: t, i => if k == i then some v else mapGet? t i

/-- The value at a key, or the default an unlisted key reads as. -/
def mapGet {α : Type} (d : α) (m : List (Nat × α)) (i : Nat) : α := (mapGet? m i).getD d

/-- Remove a key. -/
def mapDel {α : Type} (m : List (Nat × α)) (i : Nat) : List (Nat × α) := m.filter fun e => e.1 != i

/-- Insert or replace a key, keeping the keys strictly rising. -/
def mapPut {α : Type} : List (Nat × α) → Nat → α → List (Nat × α)
  | [], i, x => [(i, x)]
  | (k, v) :: t, i, x =>
    if k < i then (k, v) :: mapPut t i x
    else if k == i then (i, x) :: t
    else (i, x) :: (k, v) :: t

/-- Set a key; the default value is not listed. -/
def mapSet {α : Type} [DecidableEq α] (d : α) (m : List (Nat × α)) (i : Nat) (x : α) : List (Nat × α) :=
  if x = d then mapDel m i else mapPut m i x

/-- Remove every key in [lo, hi). -/
def mapClear {α : Type} (m : List (Nat × α)) (lo hi : Nat) : List (Nat × α) :=
  m.filter (fun p => p.1 < lo || hi ≤ p.1)

/-- The keys listed in [lo, hi). -/
def mapKeys {α : Type} (m : List (Nat × α)) (lo hi : Nat) : List Nat :=
  (m.filter (fun p => lo ≤ p.1 && p.1 < hi)).map (·.1)

/-- Keys strictly rising and no value equal to the default: the canonical form of a map. -/
def mapWf {α : Type} [DecidableEq α] (d : α) : List (Nat × α) → Bool
  | [] => true
  | (_, v) :: [] => v != d
  | (k, v) :: (k', v') :: t => v != d && k < k' && mapWf d ((k', v') :: t)

/-- The byte at an address; an unlisted address reads as `d`. -/
def memByte (d : Byte) (m : List Host.Cell) (a : Nat) : Byte := mapGet d m a

/-- `n` bytes from an address. -/
def memBytes (d : Byte) (m : List Host.Cell) (a : Nat) : Nat → List Byte
  | 0 => []
  | n + 1 => memByte d m a :: memBytes d m (a + 1) n

/-- Write a list of bytes from an address. -/
def memPut (d : Byte) (m : List Host.Cell) (a : Nat) : List Byte → List Host.Cell
  | [] => m
  | b :: bs => memPut d (mapSet d m a b) (a + 1) bs

end Sys2Proof.Machine
end

