-- ==== Sys2Proof/Machine/Regs.lean ====
section
/-! DEFINITION. The device registers of the window at 0x20_0000_0000 (R12-R19, R36): the window offset of each register
(`Rg`) and the place of each of its fields (`Fd`), as the register tables of the chapters give them.
Indexed registers take their instance number; a register of two indices (a DMA engine and its channel, a grove and its firewall
entry, a port and its gate entry, a feeder and its tariff) takes both. -/

namespace Sys2Proof.Machine

/-- A field of a window register: the register's window offset and the field's bits [hi:lo] (R5). -/
structure Fld where
  off : Nat
  hi  : Nat
  lo  : Nat
deriving DecidableEq, Repr

/-- The access codes of R12. -/
inductive Access where
  | ro | rw | wo | w1c | w1s | rwl
deriving DecidableEq, Repr

/-- One field of the access table: bits [hi:lo] and access code. -/
structure FieldDesc where
  hi  : Nat
  lo  : Nat
  acc : Access
deriving DecidableEq, Repr

/-- One register of the access table: window offset of its first instance, the count and stride of its two indices, whether
it is 64 bits wide, whether it is a byte buffer whose 32-bit halves are accessed alone, and its fields. -/
structure RegDesc where
  base   : Nat
  n1     : Nat
  s1     : Nat
  n2     : Nat
  s2     : Nat
  wide   : Bool
  direct : Bool
  fields : List FieldDesc
deriving DecidableEq, Repr


/-- `CFG_STAT`: Start and image status (02_configuration_and_start.md). -/
def Rg.CFG_STAT : Nat := 0x28000000
def Fd.CFG_STAT.DONE : Fld := ⟨Rg.CFG_STAT, 0, 0⟩
def Fd.CFG_STAT.FALLBACK : Fld := ⟨Rg.CFG_STAT, 1, 1⟩
def Fd.CFG_STAT.SAFE_HOLD : Fld := ⟨Rg.CFG_STAT, 2, 2⟩
def Fd.CFG_STAT.SLOT : Fld := ⟨Rg.CFG_STAT, 3, 3⟩
def Fd.CFG_STAT.ALT : Fld := ⟨Rg.CFG_STAT, 4, 4⟩
def Fd.CFG_STAT.BP_INVALID : Fld := ⟨Rg.CFG_STAT, 5, 5⟩
def Fd.CFG_STAT.HWFW_RECOVERY : Fld := ⟨Rg.CFG_STAT, 6, 6⟩
def Fd.CFG_STAT.SLOW_FLASH : Fld := ⟨Rg.CFG_STAT, 7, 7⟩
/-- `CFG_CAUSE`: Slot rejection causes (64-bit) (02_configuration_and_start.md). -/
def Rg.CFG_CAUSE : Nat := 0x28000008
def Fd.CFG_CAUSE.CAUSE_A : Fld := ⟨Rg.CFG_CAUSE, 7, 0⟩
def Fd.CFG_CAUSE.DETAIL_A : Fld := ⟨Rg.CFG_CAUSE, 31, 8⟩
def Fd.CFG_CAUSE.CAUSE_B : Fld := ⟨Rg.CFG_CAUSE, 39, 32⟩
def Fd.CFG_CAUSE.DETAIL_B : Fld := ⟨Rg.CFG_CAUSE, 63, 40⟩
/-- `CFG_IMAGE_ID`: Identifier of the running image (64-bit) (02_configuration_and_start.md). -/
def Rg.CFG_IMAGE_ID : Nat := 0x28000010
def Fd.CFG_IMAGE_ID.IMAGE_ID : Fld := ⟨Rg.CFG_IMAGE_ID, 63, 0⟩
/-- `CFG_ARB`: Anti-rollback (02_configuration_and_start.md). -/
def Rg.CFG_ARB : Nat := 0x28000018
def Fd.CFG_ARB.VERSION : Fld := ⟨Rg.CFG_ARB, 8, 0⟩
def Fd.CFG_ARB.COUNTER : Fld := ⟨Rg.CFG_ARB, 24, 16⟩
/-- `CFG_ADMIT`: Admission result (64-bit) (02_configuration_and_start.md). -/
def Rg.CFG_ADMIT : Nat := 0x28000020
def Fd.CFG_ADMIT.MARGIN_NS : Fld := ⟨Rg.CFG_ADMIT, 31, 0⟩
def Fd.CFG_ADMIT.INDEX : Fld := ⟨Rg.CFG_ADMIT, 39, 32⟩
def Fd.CFG_ADMIT.KIND : Fld := ⟨Rg.CFG_ADMIT, 41, 40⟩
/-- `CFG_START_TIME`: Start completion time (64-bit) (02_configuration_and_start.md). -/
def Rg.CFG_START_TIME : Nat := 0x28000028
def Fd.CFG_START_TIME.TIME : Fld := ⟨Rg.CFG_START_TIME, 63, 0⟩
/-- `CFG_STAGE`: Update staging status (02_configuration_and_start.md). -/
def Rg.CFG_STAGE : Nat := 0x28000030
def Fd.CFG_STAGE.PENDING : Fld := ⟨Rg.CFG_STAGE, 0, 0⟩
def Fd.CFG_STAGE.SLOT : Fld := ⟨Rg.CFG_STAGE, 1, 1⟩
def Fd.CFG_STAGE.BUSY : Fld := ⟨Rg.CFG_STAGE, 2, 2⟩
def Fd.CFG_STAGE.RESULT : Fld := ⟨Rg.CFG_STAGE, 15, 8⟩
/-- `FRM_CTL`: Frame controller control (03_scan_frame.md). -/
def Rg.FRM_CTL : Nat := 0x0
def Fd.FRM_CTL.TICK_IRQ_EN : Fld := ⟨Rg.FRM_CTL, 0, 0⟩
def Fd.FRM_CTL.SNAP : Fld := ⟨Rg.FRM_CTL, 1, 1⟩
def Fd.FRM_CTL.OVR_CNT_CLR : Fld := ⟨Rg.FRM_CTL, 2, 2⟩
def Fd.FRM_CTL.STATS_CLR : Fld := ⟨Rg.FRM_CTL, 3, 3⟩
/-- `FRM_STAT`: Frame status (03_scan_frame.md). -/
def Rg.FRM_STAT : Nat := 0x4
def Fd.FRM_STAT.RUNNING : Fld := ⟨Rg.FRM_STAT, 0, 0⟩
def Fd.FRM_STAT.OVR_ANY : Fld := ⟨Rg.FRM_STAT, 1, 1⟩
def Fd.FRM_STAT.FS_ANY : Fld := ⟨Rg.FRM_STAT, 2, 2⟩
def Fd.FRM_STAT.PHASE : Fld := ⟨Rg.FRM_STAT, 6, 4⟩
def Fd.FRM_STAT.DUE : Fld := ⟨Rg.FRM_STAT, 11, 8⟩
/-- `FRM_PERIOD`: Base period (03_scan_frame.md). -/
def Rg.FRM_PERIOD : Nat := 0x8
def Fd.FRM_PERIOD.PERIOD_NS : Fld := ⟨Rg.FRM_PERIOD, 26, 0⟩
/-- `FRM_CLASS_DIV`: Class dividers (03_scan_frame.md). -/
def Rg.FRM_CLASS_DIV : Nat := 0xc
def Fd.FRM_CLASS_DIV.DIV1 : Fld := ⟨Rg.FRM_CLASS_DIV, 9, 0⟩
def Fd.FRM_CLASS_DIV.DIV2 : Fld := ⟨Rg.FRM_CLASS_DIV, 19, 10⟩
def Fd.FRM_CLASS_DIV.DIV3 : Fld := ⟨Rg.FRM_CLASS_DIV, 29, 20⟩
/-- `FRM_PHASE_OFS`: Commit guard (03_scan_frame.md). -/
def Rg.FRM_PHASE_OFS : Nat := 0x10
def Fd.FRM_PHASE_OFS.GUARD_NS : Fld := ⟨Rg.FRM_PHASE_OFS, 26, 0⟩
/-- `FRM_IRQ_SRC`: Interrupt sources (03_scan_frame.md). -/
def Rg.FRM_IRQ_SRC : Nat := 0x14
def Fd.FRM_IRQ_SRC.TICK_SRC : Fld := ⟨Rg.FRM_IRQ_SRC, 11, 0⟩
def Fd.FRM_IRQ_SRC.OVR_BASE : Fld := ⟨Rg.FRM_IRQ_SRC, 27, 16⟩
/-- `FRM_TICK_ORIGIN`: Tick grid origin (03_scan_frame.md). -/
def Rg.FRM_TICK_ORIGIN : Nat := 0x18
def Fd.FRM_TICK_ORIGIN.ORIGIN_NS : Fld := ⟨Rg.FRM_TICK_ORIGIN, 26, 0⟩
/-- `FRM_NUMBER`: Current frame number (64-bit) (03_scan_frame.md). -/
def Rg.FRM_NUMBER : Nat := 0x20
def Fd.FRM_NUMBER.NUMBER : Fld := ⟨Rg.FRM_NUMBER, 63, 0⟩
/-- `FRM_TICK_TIME`: Tick of the current frame (64-bit) (03_scan_frame.md). -/
def Rg.FRM_TICK_TIME : Nat := 0x28
def Fd.FRM_TICK_TIME.TICK : Fld := ⟨Rg.FRM_TICK_TIME, 63, 0⟩
/-- `FRM_SNAP_NUMBER`: Snapshot frame number (64-bit) (03_scan_frame.md). -/
def Rg.FRM_SNAP_NUMBER : Nat := 0x30
def Fd.FRM_SNAP_NUMBER.NUMBER : Fld := ⟨Rg.FRM_SNAP_NUMBER, 63, 0⟩
/-- `FRM_SNAP_TIME`: Snapshot time (64-bit) (03_scan_frame.md). -/
def Rg.FRM_SNAP_TIME : Nat := 0x38
def Fd.FRM_SNAP_TIME.TIME : Fld := ⟨Rg.FRM_SNAP_TIME, 63, 0⟩
/-- `FRM_OVR_CNT`: Device overrun count (03_scan_frame.md). -/
def Rg.FRM_OVR_CNT : Nat := 0x40
def Fd.FRM_OVR_CNT.COUNT : Fld := ⟨Rg.FRM_OVR_CNT, 31, 0⟩
/-- `FRM_SWEEP_MAX`: Longest sweep (03_scan_frame.md). -/
def Rg.FRM_SWEEP_MAX : Nat := 0x44
def Fd.FRM_SWEEP_MAX.NS : Fld := ⟨Rg.FRM_SWEEP_MAX, 31, 0⟩
/-- `FRM_SLACK_MIN`: Least slack (03_scan_frame.md). -/
def Rg.FRM_SLACK_MIN : Nat := 0x48
def Fd.FRM_SLACK_MIN.NS : Fld := ⟨Rg.FRM_SLACK_MIN, 31, 0⟩
/-- `FRM_GRV_CFG`: Grove overrun configuration (03_scan_frame.md). -/
def Rg.FRM_GRV_CFG (i : Nat) : Nat := 0x100 + 4 * i
def Fd.FRM_GRV_CFG.FS_COUNT (i : Nat) : Fld := ⟨(Rg.FRM_GRV_CFG i), 7, 0⟩
/-- `FRM_GRV_STAT`: Grove frame status (03_scan_frame.md). -/
def Rg.FRM_GRV_STAT (i : Nat) : Nat := 0x200 + 4 * i
def Fd.FRM_GRV_STAT.CONSEC (i : Nat) : Fld := ⟨(Rg.FRM_GRV_STAT i), 7, 0⟩
def Fd.FRM_GRV_STAT.FAILSAFE (i : Nat) : Fld := ⟨(Rg.FRM_GRV_STAT i), 8, 8⟩
def Fd.FRM_GRV_STAT.OVR (i : Nat) : Fld := ⟨(Rg.FRM_GRV_STAT i), 9, 9⟩
def Fd.FRM_GRV_STAT.BUDGET_EXP (i : Nat) : Fld := ⟨(Rg.FRM_GRV_STAT i), 10, 10⟩
def Fd.FRM_GRV_STAT.LANE_FAULT (i : Nat) : Fld := ⟨(Rg.FRM_GRV_STAT i), 11, 11⟩
def Fd.FRM_GRV_STAT.LATE_STAGE (i : Nat) : Fld := ⟨(Rg.FRM_GRV_STAT i), 12, 12⟩
def Fd.FRM_GRV_STAT.RELEASE_ARMED (i : Nat) : Fld := ⟨(Rg.FRM_GRV_STAT i), 13, 13⟩
/-- `FRM_GRV_CTL`: Grove frame control (03_scan_frame.md). -/
def Rg.FRM_GRV_CTL (i : Nat) : Nat := 0x300 + 4 * i
def Fd.FRM_GRV_CTL.RELEASE (i : Nat) : Fld := ⟨(Rg.FRM_GRV_CTL i), 0, 0⟩
def Fd.FRM_GRV_CTL.FORCE_FS (i : Nat) : Fld := ⟨(Rg.FRM_GRV_CTL i), 1, 1⟩
/-- `FRM_GRV_OVR_CNT`: Grove overrun count (03_scan_frame.md). -/
def Rg.FRM_GRV_OVR_CNT (i : Nat) : Nat := 0x400 + 4 * i
def Fd.FRM_GRV_OVR_CNT.COUNT (i : Nat) : Fld := ⟨(Rg.FRM_GRV_OVR_CNT i), 31, 0⟩
/-- `TIME_NOW`: Device time (64-bit) (03_scan_frame.md). -/
def Rg.TIME_NOW : Nat := 0x4000000
def Fd.TIME_NOW.NS : Fld := ⟨Rg.TIME_NOW, 63, 0⟩
/-- `TIME_STAT`: Timebase status (03_scan_frame.md). -/
def Rg.TIME_STAT : Nat := 0x4000008
def Fd.TIME_STAT.SOURCE : Fld := ⟨Rg.TIME_STAT, 1, 0⟩
def Fd.TIME_STAT.ACQUIRED : Fld := ⟨Rg.TIME_STAT, 2, 2⟩
def Fd.TIME_STAT.HOLDOVER : Fld := ⟨Rg.TIME_STAT, 3, 3⟩
/-- `TIME_RATE`: Rate steering (03_scan_frame.md). -/
def Rg.TIME_RATE : Nat := 0x400000c
def Fd.TIME_RATE.PPB : Fld := ⟨Rg.TIME_RATE, 31, 0⟩
/-- `SE_CTL`: Signal Engine control (04_signal_engine.md). -/
def Rg.SE_CTL : Nat := 0x8000000
def Fd.SE_CTL.CHANGED_ONLY : Fld := ⟨Rg.SE_CTL, 0, 0⟩
def Fd.SE_CTL.CNT_CLR : Fld := ⟨Rg.SE_CTL, 1, 1⟩
/-- `SE_STAT`: Signal Engine status (04_signal_engine.md). -/
def Rg.SE_STAT : Nat := 0x8000004
def Fd.SE_STAT.SWEEPING : Fld := ⟨Rg.SE_STAT, 0, 0⟩
def Fd.SE_STAT.CONFLICT : Fld := ⟨Rg.SE_STAT, 1, 1⟩
def Fd.SE_STAT.GATHER_DROP : Fld := ⟨Rg.SE_STAT, 2, 2⟩
def Fd.SE_STAT.AQ_LOSS : Fld := ⟨Rg.SE_STAT, 3, 3⟩
def Fd.SE_STAT.AQ_ERR : Fld := ⟨Rg.SE_STAT, 4, 4⟩
/-- `SE_STALE_LIMIT`: Stale limits per class (04_signal_engine.md). -/
def Rg.SE_STALE_LIMIT : Nat := 0x8000008
def Fd.SE_STALE_LIMIT.F0 : Fld := ⟨Rg.SE_STALE_LIMIT, 6, 0⟩
def Fd.SE_STALE_LIMIT.F1 : Fld := ⟨Rg.SE_STALE_LIMIT, 14, 8⟩
def Fd.SE_STALE_LIMIT.F2 : Fld := ⟨Rg.SE_STALE_LIMIT, 22, 16⟩
def Fd.SE_STALE_LIMIT.F3 : Fld := ⟨Rg.SE_STALE_LIMIT, 30, 24⟩
/-- `SE_IRQ_SRC`: Interrupt sources (04_signal_engine.md). -/
def Rg.SE_IRQ_SRC : Nat := 0x800000c
def Fd.SE_IRQ_SRC.CONFLICT_SRC : Fld := ⟨Rg.SE_IRQ_SRC, 11, 0⟩
def Fd.SE_IRQ_SRC.AQ_BASE : Fld := ⟨Rg.SE_IRQ_SRC, 27, 16⟩
/-- `SE_CONFLICT_CNT`: Dropped tag writes (04_signal_engine.md). -/
def Rg.SE_CONFLICT_CNT : Nat := 0x8000010
def Fd.SE_CONFLICT_CNT.COUNT : Fld := ⟨Rg.SE_CONFLICT_CNT, 31, 0⟩
/-- `SE_ORDER_CNT`: Compute writes not applied (04_signal_engine.md). -/
def Rg.SE_ORDER_CNT : Nat := 0x8000014
def Fd.SE_ORDER_CNT.COUNT : Fld := ⟨Rg.SE_ORDER_CNT, 31, 0⟩
/-- `SE_CONFLICT_LAST`: Last dropped tag write (64-bit) (04_signal_engine.md). -/
def Rg.SE_CONFLICT_LAST : Nat := 0x8000018
def Fd.SE_CONFLICT_LAST.TAG : Fld := ⟨Rg.SE_CONFLICT_LAST, 15, 0⟩
def Fd.SE_CONFLICT_LAST.W_KIND : Fld := ⟨Rg.SE_CONFLICT_LAST, 18, 16⟩
def Fd.SE_CONFLICT_LAST.REASON : Fld := ⟨Rg.SE_CONFLICT_LAST, 20, 19⟩
def Fd.SE_CONFLICT_LAST.W_INDEX : Fld := ⟨Rg.SE_CONFLICT_LAST, 41, 24⟩
/-- `SE_SUPERSEDE_CNT`: Gathered values replaced before sweep (04_signal_engine.md). -/
def Rg.SE_SUPERSEDE_CNT : Nat := 0x8000020
def Fd.SE_SUPERSEDE_CNT.COUNT : Fld := ⟨Rg.SE_SUPERSEDE_CNT, 31, 0⟩
/-- `SE_GATHER_DROP_CNT`: Diverted writes dropped (04_signal_engine.md). -/
def Rg.SE_GATHER_DROP_CNT : Nat := 0x8000024
def Fd.SE_GATHER_DROP_CNT.COUNT : Fld := ⟨Rg.SE_GATHER_DROP_CNT, 31, 0⟩
/-- `SE_SWEPT_LAST`: Size of the last sweep (04_signal_engine.md). -/
def Rg.SE_SWEPT_LAST : Nat := 0x8000028
def Fd.SE_SWEPT_LAST.COUNT : Fld := ⟨Rg.SE_SWEPT_LAST, 16, 0⟩
/-- `SE_AQ_BASE`: Ring base (64-bit) (04_signal_engine.md). -/
def Rg.SE_AQ_BASE (i : Nat) : Nat := 0x8000100 + 32 * i
def Fd.SE_AQ_BASE.BASE (i : Nat) : Fld := ⟨(Rg.SE_AQ_BASE i), 39, 6⟩
/-- `SE_AQ_CFG`: Ring configuration (04_signal_engine.md). -/
def Rg.SE_AQ_CFG (i : Nat) : Nat := 0x8000108 + 32 * i
def Fd.SE_AQ_CFG.EN (i : Nat) : Fld := ⟨(Rg.SE_AQ_CFG i), 0, 0⟩
def Fd.SE_AQ_CFG.LOG2 (i : Nat) : Fld := ⟨(Rg.SE_AQ_CFG i), 12, 8⟩
def Fd.SE_AQ_CFG.THRESH (i : Nat) : Fld := ⟨(Rg.SE_AQ_CFG i), 31, 16⟩
/-- `SE_AQ_HEAD`: Producer index (04_signal_engine.md). -/
def Rg.SE_AQ_HEAD (i : Nat) : Nat := 0x800010c + 32 * i
def Fd.SE_AQ_HEAD.HEAD (i : Nat) : Fld := ⟨(Rg.SE_AQ_HEAD i), 31, 0⟩
/-- `SE_AQ_TAIL`: Consumer index (04_signal_engine.md). -/
def Rg.SE_AQ_TAIL (i : Nat) : Nat := 0x8000110 + 32 * i
def Fd.SE_AQ_TAIL.TAIL (i : Nat) : Fld := ⟨(Rg.SE_AQ_TAIL i), 31, 0⟩
/-- `SE_AQ_LOST`: Entries lost (04_signal_engine.md). -/
def Rg.SE_AQ_LOST (i : Nat) : Nat := 0x8000114 + 32 * i
def Fd.SE_AQ_LOST.COUNT (i : Nat) : Fld := ⟨(Rg.SE_AQ_LOST i), 31, 0⟩
/-- `SE_AQ_STAT`: Ring status (04_signal_engine.md). -/
def Rg.SE_AQ_STAT (i : Nat) : Nat := 0x8000118 + 32 * i
def Fd.SE_AQ_STAT.LOSS (i : Nat) : Fld := ⟨(Rg.SE_AQ_STAT i), 0, 0⟩
def Fd.SE_AQ_STAT.FULL (i : Nat) : Fld := ⟨(Rg.SE_AQ_STAT i), 1, 1⟩
def Fd.SE_AQ_STAT.ERR (i : Nat) : Fld := ⟨(Rg.SE_AQ_STAT i), 2, 2⟩
/-- `LE_CTL`: Loop Engine control (05_loop_engine.md). -/
def Rg.LE_CTL : Nat := 0xc000000
def Fd.LE_CTL.CNT_CLR : Fld := ⟨Rg.LE_CTL, 0, 0⟩
/-- `LE_STAT`: Loop Engine status (05_loop_engine.md). -/
def Rg.LE_STAT : Nat := 0xc000004
def Fd.LE_STAT.ACTIVE : Fld := ⟨Rg.LE_STAT, 0, 0⟩
def Fd.LE_STAT.FAULT : Fld := ⟨Rg.LE_STAT, 1, 1⟩
def Fd.LE_STAT.ARITH : Fld := ⟨Rg.LE_STAT, 2, 2⟩
def Fd.LE_STAT.CALL_LATE : Fld := ⟨Rg.LE_STAT, 3, 3⟩
def Fd.LE_STAT.WDROP : Fld := ⟨Rg.LE_STAT, 4, 4⟩
/-- `LE_IRQ_SRC`: Interrupt sources (05_loop_engine.md). -/
def Rg.LE_IRQ_SRC : Nat := 0xc000008
def Fd.LE_IRQ_SRC.FAULT_SRC : Fld := ⟨Rg.LE_IRQ_SRC, 11, 0⟩
def Fd.LE_IRQ_SRC.CALL_BASE : Fld := ⟨Rg.LE_IRQ_SRC, 27, 16⟩
/-- `LE_FAULT_CNT`: Strand faults (05_loop_engine.md). -/
def Rg.LE_FAULT_CNT : Nat := 0xc00000c
def Fd.LE_FAULT_CNT.COUNT : Fld := ⟨Rg.LE_FAULT_CNT, 31, 0⟩
/-- `LE_ARITH_CNT`: Non-finite results (05_loop_engine.md). -/
def Rg.LE_ARITH_CNT : Nat := 0xc000010
def Fd.LE_ARITH_CNT.COUNT : Fld := ⟨Rg.LE_ARITH_CNT, 31, 0⟩
/-- `LE_CALL_LATE_CNT`: Late call-out replies (05_loop_engine.md). -/
def Rg.LE_CALL_LATE_CNT : Nat := 0xc000014
def Fd.LE_CALL_LATE_CNT.COUNT : Fld := ⟨Rg.LE_CALL_LATE_CNT, 31, 0⟩
/-- `LE_WDROP_CNT`: Dropped writes (05_loop_engine.md). -/
def Rg.LE_WDROP_CNT : Nat := 0xc000018
def Fd.LE_WDROP_CNT.COUNT : Fld := ⟨Rg.LE_WDROP_CNT, 31, 0⟩
/-- `LE_TUNE_PEND`: Held tuning writes (05_loop_engine.md). -/
def Rg.LE_TUNE_PEND : Nat := 0xc00001c
def Fd.LE_TUNE_PEND.COUNT : Fld := ⟨Rg.LE_TUNE_PEND, 12, 0⟩
/-- `LE_BARRIER`: Barrier flags (05_loop_engine.md). -/
def Rg.LE_BARRIER (i : Nat) : Nat := 0xc000020 + 4 * i
def Fd.LE_BARRIER.FLAGS (i : Nat) : Fld := ⟨(Rg.LE_BARRIER i), 31, 0⟩
/-- `LE_TUNE_FULL`: Full tuning buffers (05_loop_engine.md). -/
def Rg.LE_TUNE_FULL (i : Nat) : Nat := 0xc000040 + 4 * i
def Fd.LE_TUNE_FULL.FULL (i : Nat) : Fld := ⟨(Rg.LE_TUNE_FULL i), 31, 0⟩
/-- `LE_LANE_STAT`: Lane status (05_loop_engine.md). -/
def Rg.LE_LANE_STAT (i : Nat) : Nat := 0xc000100 + 16 * i
def Fd.LE_LANE_STAT.BUSY (i : Nat) : Fld := ⟨(Rg.LE_LANE_STAT i), 0, 0⟩
def Fd.LE_LANE_STAT.WAITING (i : Nat) : Fld := ⟨(Rg.LE_LANE_STAT i), 1, 1⟩
def Fd.LE_LANE_STAT.CALLING (i : Nat) : Fld := ⟨(Rg.LE_LANE_STAT i), 2, 2⟩
def Fd.LE_LANE_STAT.FAULT (i : Nat) : Fld := ⟨(Rg.LE_LANE_STAT i), 3, 3⟩
def Fd.LE_LANE_STAT.FCODE (i : Nat) : Fld := ⟨(Rg.LE_LANE_STAT i), 7, 4⟩
def Fd.LE_LANE_STAT.GROVE (i : Nat) : Fld := ⟨(Rg.LE_LANE_STAT i), 13, 8⟩
def Fd.LE_LANE_STAT.HELD (i : Nat) : Fld := ⟨(Rg.LE_LANE_STAT i), 14, 14⟩
/-- `LE_LANE_POS`: Current block (05_loop_engine.md). -/
def Rg.LE_LANE_POS (i : Nat) : Nat := 0xc000104 + 16 * i
def Fd.LE_LANE_POS.INSTANCE (i : Nat) : Fld := ⟨(Rg.LE_LANE_POS i), 17, 0⟩
/-- `LE_LANE_FINISH`: Lane finish (05_loop_engine.md). -/
def Rg.LE_LANE_FINISH (i : Nat) : Nat := 0xc000108 + 16 * i
def Fd.LE_LANE_FINISH.CLOCKS (i : Nat) : Fld := ⟨(Rg.LE_LANE_FINISH i), 31, 0⟩
/-- `LE_LANE_FAULT`: Last fault (05_loop_engine.md). -/
def Rg.LE_LANE_FAULT (i : Nat) : Nat := 0xc00010c + 16 * i
def Fd.LE_LANE_FAULT.INSTANCE (i : Nat) : Fld := ⟨(Rg.LE_LANE_FAULT i), 17, 0⟩
def Fd.LE_LANE_FAULT.FCODE (i : Nat) : Fld := ⟨(Rg.LE_LANE_FAULT i), 21, 18⟩
/-- `LE_CALL_ARGLO`: Arguments 0 and 1 (64-bit) (05_loop_engine.md). -/
def Rg.LE_CALL_ARGLO (i : Nat) : Nat := 0xc001000 + 32 * i
def Fd.LE_CALL_ARGLO.X0 (i : Nat) : Fld := ⟨(Rg.LE_CALL_ARGLO i), 31, 0⟩
def Fd.LE_CALL_ARGLO.X1 (i : Nat) : Fld := ⟨(Rg.LE_CALL_ARGLO i), 63, 32⟩
/-- `LE_CALL_ARGHI`: Arguments 2 and 3 (64-bit) (05_loop_engine.md). -/
def Rg.LE_CALL_ARGHI (i : Nat) : Nat := 0xc001008 + 32 * i
def Fd.LE_CALL_ARGHI.X2 (i : Nat) : Fld := ⟨(Rg.LE_CALL_ARGHI i), 31, 0⟩
def Fd.LE_CALL_ARGHI.X3 (i : Nat) : Fld := ⟨(Rg.LE_CALL_ARGHI i), 63, 32⟩
/-- `LE_CALL_RET`: Results (64-bit) (05_loop_engine.md). -/
def Rg.LE_CALL_RET (i : Nat) : Nat := 0xc001010 + 32 * i
def Fd.LE_CALL_RET.Y (i : Nat) : Fld := ⟨(Rg.LE_CALL_RET i), 31, 0⟩
def Fd.LE_CALL_RET.Z (i : Nat) : Fld := ⟨(Rg.LE_CALL_RET i), 63, 32⟩
/-- `LE_CALL_CTL`: Call completion (05_loop_engine.md). -/
def Rg.LE_CALL_CTL (i : Nat) : Nat := 0xc001018 + 32 * i
def Fd.LE_CALL_CTL.DONE (i : Nat) : Fld := ⟨(Rg.LE_CALL_CTL i), 0, 0⟩
def Fd.LE_CALL_CTL.QCLASS (i : Nat) : Fld := ⟨(Rg.LE_CALL_CTL i), 2, 1⟩
/-- `LE_CALL_STAT`: Call status (05_loop_engine.md). -/
def Rg.LE_CALL_STAT (i : Nat) : Nat := 0xc00101c + 32 * i
def Fd.LE_CALL_STAT.PENDING (i : Nat) : Fld := ⟨(Rg.LE_CALL_STAT i), 0, 0⟩
def Fd.LE_CALL_STAT.LATE (i : Nat) : Fld := ⟨(Rg.LE_CALL_STAT i), 1, 1⟩
def Fd.LE_CALL_STAT.QIN (i : Nat) : Fld := ⟨(Rg.LE_CALL_STAT i), 15, 8⟩
/-- `FP_CTL`: Field port control (06_field_ports.md). -/
def Rg.FP_CTL : Nat := 0x10000000
def Fd.FP_CTL.CNT_CLR : Fld := ⟨Rg.FP_CTL, 0, 0⟩
/-- `FP_STAT`: Field port status (06_field_ports.md). -/
def Rg.FP_STAT : Nat := 0x10000004
def Fd.FP_STAT.LINK_CHG : Fld := ⟨Rg.FP_STAT, 0, 0⟩
def Fd.FP_STAT.RX_ERR : Fld := ⟨Rg.FP_STAT, 1, 1⟩
def Fd.FP_STAT.TPL_DROP : Fld := ⟨Rg.FP_STAT, 2, 2⟩
def Fd.FP_STAT.SHORT : Fld := ⟨Rg.FP_STAT, 3, 3⟩
def Fd.FP_STAT.TIME_LOSS : Fld := ⟨Rg.FP_STAT, 4, 4⟩
/-- `FP_IRQ_SRC`: Interrupt sources (06_field_ports.md). -/
def Rg.FP_IRQ_SRC : Nat := 0x10000008
def Fd.FP_IRQ_SRC.LINK_SRC : Fld := ⟨Rg.FP_IRQ_SRC, 11, 0⟩
def Fd.FP_IRQ_SRC.TIME_SRC : Fld := ⟨Rg.FP_IRQ_SRC, 27, 16⟩
/-- `FP_TIME_CFG`: Field-port time configuration (06_field_ports.md). -/
def Rg.FP_TIME_CFG : Nat := 0x1000000c
def Fd.FP_TIME_CFG.SLAVE_PORT : Fld := ⟨Rg.FP_TIME_CFG, 6, 0⟩
def Fd.FP_TIME_CFG.AS_SOURCE : Fld := ⟨Rg.FP_TIME_CFG, 7, 7⟩
def Fd.FP_TIME_CFG.LOG_SYNC : Fld := ⟨Rg.FP_TIME_CFG, 11, 8⟩
def Fd.FP_TIME_CFG.PRIORITY1 : Fld := ⟨Rg.FP_TIME_CFG, 19, 12⟩
def Fd.FP_TIME_CFG.PRIORITY2 : Fld := ⟨Rg.FP_TIME_CFG, 27, 20⟩
/-- `FP_TIME_OFS`: Last measured offset (06_field_ports.md). -/
def Rg.FP_TIME_OFS : Nat := 0x10000010
def Fd.FP_TIME_OFS.OFS_NS : Fld := ⟨Rg.FP_TIME_OFS, 31, 0⟩
/-- `FP_MAC_BASE`: MAC address base (64-bit) (06_field_ports.md). -/
def Rg.FP_MAC_BASE : Nat := 0x10000018
def Fd.FP_MAC_BASE.MAC : Fld := ⟨Rg.FP_MAC_BASE, 47, 0⟩
/-- `FP_LINK`: Link bitmap (06_field_ports.md). -/
def Rg.FP_LINK (i : Nat) : Nat := 0x10000020 + 4 * i
def Fd.FP_LINK.UP (i : Nat) : Fld := ⟨(Rg.FP_LINK i), 31, 0⟩
/-- `FP_PORT_CFG`: Port configuration (06_field_ports.md). -/
def Rg.FP_PORT_CFG (i : Nat) : Nat := 0x10001000 + 128 * i
def Fd.FP_PORT_CFG.MODE (i : Nat) : Fld := ⟨(Rg.FP_PORT_CFG i), 2, 0⟩
def Fd.FP_PORT_CFG.AN (i : Nat) : Fld := ⟨(Rg.FP_PORT_CFG i), 3, 3⟩
def Fd.FP_PORT_CFG.CB (i : Nat) : Fld := ⟨(Rg.FP_PORT_CFG i), 4, 4⟩
def Fd.FP_PORT_CFG.MIRROR (i : Nat) : Fld := ⟨(Rg.FP_PORT_CFG i), 5, 5⟩
def Fd.FP_PORT_CFG.FEC (i : Nat) : Fld := ⟨(Rg.FP_PORT_CFG i), 6, 6⟩
def Fd.FP_PORT_CFG.PTP (i : Nat) : Fld := ⟨(Rg.FP_PORT_CFG i), 8, 7⟩
def Fd.FP_PORT_CFG.MAXLEN (i : Nat) : Fld := ⟨(Rg.FP_PORT_CFG i), 29, 16⟩
/-- `FP_PORT_STAT`: Port status (06_field_ports.md). -/
def Rg.FP_PORT_STAT (i : Nat) : Nat := 0x10001004 + 128 * i
def Fd.FP_PORT_STAT.LINK (i : Nat) : Fld := ⟨(Rg.FP_PORT_STAT i), 0, 0⟩
def Fd.FP_PORT_STAT.LINK_CHG (i : Nat) : Fld := ⟨(Rg.FP_PORT_STAT i), 1, 1⟩
def Fd.FP_PORT_STAT.HELD (i : Nat) : Fld := ⟨(Rg.FP_PORT_STAT i), 2, 2⟩
def Fd.FP_PORT_STAT.GROVE (i : Nat) : Fld := ⟨(Rg.FP_PORT_STAT i), 8, 3⟩
def Fd.FP_PORT_STAT.AN_DONE (i : Nat) : Fld := ⟨(Rg.FP_PORT_STAT i), 9, 9⟩
/-- `FP_PORT_OFS`: Output offset (06_field_ports.md). -/
def Rg.FP_PORT_OFS (i : Nat) : Nat := 0x10001008 + 128 * i
def Fd.FP_PORT_OFS.OFS_NS (i : Nat) : Fld := ⟨(Rg.FP_PORT_OFS i), 26, 0⟩
/-- `FP_PORT_LAT`: Reference plane corrections (06_field_ports.md). -/
def Rg.FP_PORT_LAT (i : Nat) : Nat := 0x1000100c + 128 * i
def Fd.FP_PORT_LAT.RX_EXT (i : Nat) : Fld := ⟨(Rg.FP_PORT_LAT i), 11, 0⟩
def Fd.FP_PORT_LAT.TX_EXT (i : Nat) : Fld := ⟨(Rg.FP_PORT_LAT i), 27, 16⟩
/-- `FP_PORT_GATE`: Gate list configuration (06_field_ports.md). -/
def Rg.FP_PORT_GATE (i : Nat) : Nat := 0x10001010 + 128 * i
def Fd.FP_PORT_GATE.CDIV (i : Nat) : Fld := ⟨(Rg.FP_PORT_GATE i), 4, 0⟩
def Fd.FP_PORT_GATE.GCL_COUNT (i : Nat) : Fld := ⟨(Rg.FP_PORT_GATE i), 14, 8⟩
def Fd.FP_PORT_GATE.ENTRY (i : Nat) : Fld := ⟨(Rg.FP_PORT_GATE i), 21, 16⟩
/-- `FP_PORT_RX_CNT`: Frames received (06_field_ports.md). -/
def Rg.FP_PORT_RX_CNT (i : Nat) : Nat := 0x10001014 + 128 * i
def Fd.FP_PORT_RX_CNT.COUNT (i : Nat) : Fld := ⟨(Rg.FP_PORT_RX_CNT i), 31, 0⟩
/-- `FP_PORT_RXERR_CNT`: Frames in error (06_field_ports.md). -/
def Rg.FP_PORT_RXERR_CNT (i : Nat) : Nat := 0x10001018 + 128 * i
def Fd.FP_PORT_RXERR_CNT.COUNT (i : Nat) : Fld := ⟨(Rg.FP_PORT_RXERR_CNT i), 31, 0⟩
/-- `FP_PORT_SHORT_CNT`: Map entries not applied (06_field_ports.md). -/
def Rg.FP_PORT_SHORT_CNT (i : Nat) : Nat := 0x1000101c + 128 * i
def Fd.FP_PORT_SHORT_CNT.COUNT (i : Nat) : Fld := ⟨(Rg.FP_PORT_SHORT_CNT i), 31, 0⟩
/-- `FP_PORT_NRT_DROP_CNT`: Non-real-time drops (06_field_ports.md). -/
def Rg.FP_PORT_NRT_DROP_CNT (i : Nat) : Nat := 0x10001020 + 128 * i
def Fd.FP_PORT_NRT_DROP_CNT.COUNT (i : Nat) : Fld := ⟨(Rg.FP_PORT_NRT_DROP_CNT i), 31, 0⟩
/-- `FP_PORT_TPL_DROP_CNT`: Template frames lost (06_field_ports.md). -/
def Rg.FP_PORT_TPL_DROP_CNT (i : Nat) : Nat := 0x10001024 + 128 * i
def Fd.FP_PORT_TPL_DROP_CNT.COUNT (i : Nat) : Fld := ⟨(Rg.FP_PORT_TPL_DROP_CNT i), 31, 0⟩
/-- `FP_PORT_CB_ELIM_CNT`: Copies eliminated (06_field_ports.md). -/
def Rg.FP_PORT_CB_ELIM_CNT (i : Nat) : Nat := 0x10001028 + 128 * i
def Fd.FP_PORT_CB_ELIM_CNT.COUNT (i : Nat) : Fld := ⟨(Rg.FP_PORT_CB_ELIM_CNT i), 31, 0⟩
/-- `FP_GCL`: Gate entry i of port p (06_field_ports.md). -/
def Rg.FP_GCL (i j : Nat) : Nat := 0x10004000 + 256 * i + 4 * j
def Fd.FP_GCL.GATES (i j : Nat) : Fld := ⟨(Rg.FP_GCL i j), 7, 0⟩
def Fd.FP_GCL.INTERVAL (i j : Nat) : Fld := ⟨(Rg.FP_GCL i j), 31, 8⟩
/-- `CAS_CTL`: Cascade control (07_cascade.md). -/
def Rg.CAS_CTL : Nat := 0x14000000
def Fd.CAS_CTL.CNT_CLR : Fld := ⟨Rg.CAS_CTL, 0, 0⟩
/-- `CAS_STAT`: Cascade status (07_cascade.md). -/
def Rg.CAS_STAT : Nat := 0x14000004
def Fd.CAS_STAT.LINK_CHG : Fld := ⟨Rg.CAS_STAT, 0, 0⟩
def Fd.CAS_STAT.REPL_LATE : Fld := ⟨Rg.CAS_STAT, 1, 1⟩
def Fd.CAS_STAT.AUTH : Fld := ⟨Rg.CAS_STAT, 2, 2⟩
def Fd.CAS_STAT.TIME_LOSS : Fld := ⟨Rg.CAS_STAT, 3, 3⟩
/-- `CAS_IRQ_SRC`: Interrupt sources (07_cascade.md). -/
def Rg.CAS_IRQ_SRC : Nat := 0x14000008
def Fd.CAS_IRQ_SRC.LINK_SRC : Fld := ⟨Rg.CAS_IRQ_SRC, 11, 0⟩
def Fd.CAS_IRQ_SRC.TIME_SRC : Fld := ⟨Rg.CAS_IRQ_SRC, 27, 16⟩
/-- `CAS_MQ_SRC`: Message interrupt sources (07_cascade.md). -/
def Rg.CAS_MQ_SRC : Nat := 0x1400000c
def Fd.CAS_MQ_SRC.MQ_BASE : Fld := ⟨Rg.CAS_MQ_SRC, 11, 0⟩
/-- `CAS_TIME_CFG`: Time configuration (07_cascade.md). -/
def Rg.CAS_TIME_CFG : Nat := 0x14000010
def Fd.CAS_TIME_CFG.BEAT_WIN_NS : Fld := ⟨Rg.CAS_TIME_CFG, 16, 0⟩
def Fd.CAS_TIME_CFG.STARTUP_WAIT_S : Fld := ⟨Rg.CAS_TIME_CFG, 31, 24⟩
/-- `CAS_TIME_STAT`: Time role and state (07_cascade.md). -/
def Rg.CAS_TIME_STAT : Nat := 0x14000014
def Fd.CAS_TIME_STAT.ROLE : Fld := ⟨Rg.CAS_TIME_STAT, 1, 0⟩
def Fd.CAS_TIME_STAT.EPOCH : Fld := ⟨Rg.CAS_TIME_STAT, 2, 2⟩
def Fd.CAS_TIME_STAT.LOCKED : Fld := ⟨Rg.CAS_TIME_STAT, 3, 3⟩
def Fd.CAS_TIME_STAT.DEMOTED : Fld := ⟨Rg.CAS_TIME_STAT, 4, 4⟩
def Fd.CAS_TIME_STAT.MISSES : Fld := ⟨Rg.CAS_TIME_STAT, 6, 5⟩
def Fd.CAS_TIME_STAT.SOURCE_DEV : Fld := ⟨Rg.CAS_TIME_STAT, 17, 8⟩
/-- `CAS_TIME_OFS`: Last offset (07_cascade.md). -/
def Rg.CAS_TIME_OFS : Nat := 0x14000018
def Fd.CAS_TIME_OFS.OFS : Fld := ⟨Rg.CAS_TIME_OFS, 31, 0⟩
/-- `CAS_LAT`: Replication latency (07_cascade.md). -/
def Rg.CAS_LAT : Nat := 0x1400001c
def Fd.CAS_LAT.MAX_LAT_NS : Fld := ⟨Rg.CAS_LAT, 23, 0⟩
def Fd.CAS_LAT.RESILIENCE : Fld := ⟨Rg.CAS_LAT, 24, 24⟩
/-- `CAS_PLAN_ID`: Plan identifier (64-bit) (07_cascade.md). -/
def Rg.CAS_PLAN_ID : Nat := 0x14000020
def Fd.CAS_PLAN_ID.PLAN_ID : Fld := ⟨Rg.CAS_PLAN_ID, 63, 0⟩
/-- `CAS_REPL_LATE_CNT`: Late slot writes (07_cascade.md). -/
def Rg.CAS_REPL_LATE_CNT : Nat := 0x14000028
def Fd.CAS_REPL_LATE_CNT.COUNT : Fld := ⟨Rg.CAS_REPL_LATE_CNT, 31, 0⟩
/-- `CAS_REPL_UNMATCHED_CNT`: Unmatched slots (07_cascade.md). -/
def Rg.CAS_REPL_UNMATCHED_CNT : Nat := 0x1400002c
def Fd.CAS_REPL_UNMATCHED_CNT.COUNT : Fld := ⟨Rg.CAS_REPL_UNMATCHED_CNT, 31, 0⟩
/-- `CAS_NOROUTE_CNT`: Cells without a route (07_cascade.md). -/
def Rg.CAS_NOROUTE_CNT : Nat := 0x14000030
def Fd.CAS_NOROUTE_CNT.COUNT : Fld := ⟨Rg.CAS_NOROUTE_CNT, 31, 0⟩
/-- `CAS_MSG_EXPIRED_CNT`: Expired message cells (07_cascade.md). -/
def Rg.CAS_MSG_EXPIRED_CNT : Nat := 0x14000034
def Fd.CAS_MSG_EXPIRED_CNT.COUNT : Fld := ⟨Rg.CAS_MSG_EXPIRED_CNT, 31, 0⟩
/-- `CAS_MSG_STALE_CNT`: Stale responses (07_cascade.md). -/
def Rg.CAS_MSG_STALE_CNT : Nat := 0x14000038
def Fd.CAS_MSG_STALE_CNT.COUNT : Fld := ⟨Rg.CAS_MSG_STALE_CNT, 31, 0⟩
/-- `CAS_MTAG_OPEN`: Open message tags (07_cascade.md). -/
def Rg.CAS_MTAG_OPEN : Nat := 0x1400003c
def Fd.CAS_MTAG_OPEN.COUNT : Fld := ⟨Rg.CAS_MTAG_OPEN, 12, 0⟩
/-- `CAS_PORT_CFG`: Port configuration (07_cascade.md). -/
def Rg.CAS_PORT_CFG (i : Nat) : Nat := 0x14000100 + 32 * i
def Fd.CAS_PORT_CFG.EN (i : Nat) : Fld := ⟨(Rg.CAS_PORT_CFG i), 0, 0⟩
def Fd.CAS_PORT_CFG.DETOUR (i : Nat) : Fld := ⟨(Rg.CAS_PORT_CFG i), 2, 1⟩
def Fd.CAS_PORT_CFG.SIDE (i : Nat) : Fld := ⟨(Rg.CAS_PORT_CFG i), 5, 3⟩
def Fd.CAS_PORT_CFG.ASYM_PS (i : Nat) : Fld := ⟨(Rg.CAS_PORT_CFG i), 31, 16⟩
/-- `CAS_PORT_STAT`: Port status (07_cascade.md). -/
def Rg.CAS_PORT_STAT (i : Nat) : Nat := 0x14000104 + 32 * i
def Fd.CAS_PORT_STAT.STATE (i : Nat) : Fld := ⟨(Rg.CAS_PORT_STAT i), 2, 0⟩
def Fd.CAS_PORT_STAT.LINK_CHG (i : Nat) : Fld := ⟨(Rg.CAS_PORT_STAT i), 3, 3⟩
def Fd.CAS_PORT_STAT.CAUSE (i : Nat) : Fld := ⟨(Rg.CAS_PORT_STAT i), 15, 8⟩
def Fd.CAS_PORT_STAT.NBR_DEV (i : Nat) : Fld := ⟨(Rg.CAS_PORT_STAT i), 25, 16⟩
def Fd.CAS_PORT_STAT.NBR_PORT (i : Nat) : Fld := ⟨(Rg.CAS_PORT_STAT i), 28, 26⟩
/-- `CAS_PORT_DELAY`: Incoming link delay (07_cascade.md). -/
def Rg.CAS_PORT_DELAY (i : Nat) : Nat := 0x14000108 + 32 * i
def Fd.CAS_PORT_DELAY.DELAY (i : Nat) : Fld := ⟨(Rg.CAS_PORT_DELAY i), 27, 0⟩
/-- `CAS_PORT_LOAD`: Declared load (07_cascade.md). -/
def Rg.CAS_PORT_LOAD (i : Nat) : Nat := 0x1400010c + 32 * i
def Fd.CAS_PORT_LOAD.LOAD_CELLS (i : Nat) : Fld := ⟨(Rg.CAS_PORT_LOAD i), 15, 0⟩
/-- `CAS_PORT_AUTH_FAIL_CNT`: Authentication failures (07_cascade.md). -/
def Rg.CAS_PORT_AUTH_FAIL_CNT (i : Nat) : Nat := 0x14000110 + 32 * i
def Fd.CAS_PORT_AUTH_FAIL_CNT.COUNT (i : Nat) : Fld := ⟨(Rg.CAS_PORT_AUTH_FAIL_CNT i), 31, 0⟩
/-- `CAS_PORT_GAP_CNT`: Lost link frames (07_cascade.md). -/
def Rg.CAS_PORT_GAP_CNT (i : Nat) : Nat := 0x14000114 + 32 * i
def Fd.CAS_PORT_GAP_CNT.COUNT (i : Nat) : Fld := ⟨(Rg.CAS_PORT_GAP_CNT i), 31, 0⟩
/-- `CAS_PORT_BRINGUP_CNT`: Bring-ups begun (07_cascade.md). -/
def Rg.CAS_PORT_BRINGUP_CNT (i : Nat) : Nat := 0x14000118 + 32 * i
def Fd.CAS_PORT_BRINGUP_CNT.COUNT (i : Nat) : Fld := ⟨(Rg.CAS_PORT_BRINGUP_CNT i), 31, 0⟩
/-- `CAS_MQ_TXBASE`: Send ring base (64-bit) (07_cascade.md). -/
def Rg.CAS_MQ_TXBASE (i : Nat) : Nat := 0x14001000 + 64 * i
def Fd.CAS_MQ_TXBASE.BASE (i : Nat) : Fld := ⟨(Rg.CAS_MQ_TXBASE i), 39, 6⟩
/-- `CAS_MQ_RXBASE`: Receive ring base (64-bit) (07_cascade.md). -/
def Rg.CAS_MQ_RXBASE (i : Nat) : Nat := 0x14001008 + 64 * i
def Fd.CAS_MQ_RXBASE.BASE (i : Nat) : Fld := ⟨(Rg.CAS_MQ_RXBASE i), 39, 6⟩
/-- `CAS_MQ_CFG`: Ring configuration (07_cascade.md). -/
def Rg.CAS_MQ_CFG (i : Nat) : Nat := 0x14001010 + 64 * i
def Fd.CAS_MQ_CFG.TX_EN (i : Nat) : Fld := ⟨(Rg.CAS_MQ_CFG i), 0, 0⟩
def Fd.CAS_MQ_CFG.RX_EN (i : Nat) : Fld := ⟨(Rg.CAS_MQ_CFG i), 1, 1⟩
def Fd.CAS_MQ_CFG.TX_LOG2 (i : Nat) : Fld := ⟨(Rg.CAS_MQ_CFG i), 11, 8⟩
def Fd.CAS_MQ_CFG.RX_LOG2 (i : Nat) : Fld := ⟨(Rg.CAS_MQ_CFG i), 15, 12⟩
/-- `CAS_MQ_TXHEAD`: Send producer index (07_cascade.md). -/
def Rg.CAS_MQ_TXHEAD (i : Nat) : Nat := 0x14001014 + 64 * i
def Fd.CAS_MQ_TXHEAD.HEAD (i : Nat) : Fld := ⟨(Rg.CAS_MQ_TXHEAD i), 31, 0⟩
/-- `CAS_MQ_TXDONE`: Send completion index (07_cascade.md). -/
def Rg.CAS_MQ_TXDONE (i : Nat) : Nat := 0x14001018 + 64 * i
def Fd.CAS_MQ_TXDONE.DONE (i : Nat) : Fld := ⟨(Rg.CAS_MQ_TXDONE i), 31, 0⟩
/-- `CAS_MQ_RXHEAD`: Receive producer index (07_cascade.md). -/
def Rg.CAS_MQ_RXHEAD (i : Nat) : Nat := 0x1400101c + 64 * i
def Fd.CAS_MQ_RXHEAD.HEAD (i : Nat) : Fld := ⟨(Rg.CAS_MQ_RXHEAD i), 31, 0⟩
/-- `CAS_MQ_RXTAIL`: Receive consumer index (07_cascade.md). -/
def Rg.CAS_MQ_RXTAIL (i : Nat) : Nat := 0x14001020 + 64 * i
def Fd.CAS_MQ_RXTAIL.TAIL (i : Nat) : Fld := ⟨(Rg.CAS_MQ_RXTAIL i), 31, 0⟩
/-- `CAS_MQ_STAT`: Ring status (07_cascade.md). -/
def Rg.CAS_MQ_STAT (i : Nat) : Nat := 0x14001024 + 64 * i
def Fd.CAS_MQ_STAT.RX_FULL (i : Nat) : Fld := ⟨(Rg.CAS_MQ_STAT i), 0, 0⟩
def Fd.CAS_MQ_STAT.ERR (i : Nat) : Fld := ⟨(Rg.CAS_MQ_STAT i), 1, 1⟩
def Fd.CAS_MQ_STAT.OPEN (i : Nat) : Fld := ⟨(Rg.CAS_MQ_STAT i), 14, 8⟩
/-- `GRV_CMD`: Command (08_groves.md). -/
def Rg.GRV_CMD : Nat := 0x18000000
def Fd.GRV_CMD.OP : Fld := ⟨Rg.GRV_CMD, 3, 0⟩
def Fd.GRV_CMD.GROVE : Fld := ⟨Rg.GRV_CMD, 13, 8⟩
def Fd.GRV_CMD.ARG : Fld := ⟨Rg.GRV_CMD, 16, 16⟩
/-- `GRV_CMD_ADDR`: Command address (64-bit) (08_groves.md). -/
def Rg.GRV_CMD_ADDR : Nat := 0x18000008
def Fd.GRV_CMD_ADDR.ADDR : Fld := ⟨Rg.GRV_CMD_ADDR, 39, 6⟩
/-- `GRV_CMD_STAT`: Command status (08_groves.md). -/
def Rg.GRV_CMD_STAT : Nat := 0x18000010
def Fd.GRV_CMD_STAT.BUSY : Fld := ⟨Rg.GRV_CMD_STAT, 0, 0⟩
def Fd.GRV_CMD_STAT.RESULT : Fld := ⟨Rg.GRV_CMD_STAT, 15, 8⟩
def Fd.GRV_CMD_STAT.DETAIL : Fld := ⟨Rg.GRV_CMD_STAT, 31, 16⟩
/-- `GRV_IRQ_SRC`: Interrupt sources (08_groves.md). -/
def Rg.GRV_IRQ_SRC : Nat := 0x18000014
def Fd.GRV_IRQ_SRC.CMD_SRC : Fld := ⟨Rg.GRV_IRQ_SRC, 11, 0⟩
def Fd.GRV_IRQ_SRC.PAIR_BASE : Fld := ⟨Rg.GRV_IRQ_SRC, 27, 16⟩
/-- `GRV_FREE_CORES`: Free cores (64-bit) (08_groves.md). -/
def Rg.GRV_FREE_CORES : Nat := 0x18000018
def Fd.GRV_FREE_CORES.CORES : Fld := ⟨Rg.GRV_FREE_CORES, 63, 0⟩
/-- `GRV_FREE_RES`: Free lanes and engines (64-bit) (08_groves.md). -/
def Rg.GRV_FREE_RES : Nat := 0x18000020
def Fd.GRV_FREE_RES.LANES : Fld := ⟨Rg.GRV_FREE_RES, 31, 0⟩
def Fd.GRV_FREE_RES.ENGINES : Fld := ⟨Rg.GRV_FREE_RES, 63, 32⟩
/-- `GRV_FREE_MEM`: Free memory (08_groves.md). -/
def Rg.GRV_FREE_MEM : Nat := 0x18000028
def Fd.GRV_FREE_MEM.GRAINS : Fld := ⟨Rg.GRV_FREE_MEM, 14, 0⟩
def Fd.GRV_FREE_MEM.SRAM : Fld := ⟨Rg.GRV_FREE_MEM, 20, 16⟩
/-- `GRV_FREE_PORTS`: Free ports (08_groves.md). -/
def Rg.GRV_FREE_PORTS (i : Nat) : Nat := 0x18000030 + 4 * i
def Fd.GRV_FREE_PORTS.PORTS (i : Nat) : Fld := ⟨(Rg.GRV_FREE_PORTS i), 31, 0⟩
/-- `GRV_STAT`: Grove state (08_groves.md). -/
def Rg.GRV_STAT (i : Nat) : Nat := 0x18001000 + 512 * i
def Fd.GRV_STAT.STATE (i : Nat) : Fld := ⟨(Rg.GRV_STAT i), 2, 0⟩
def Fd.GRV_STAT.ROLE (i : Nat) : Fld := ⟨(Rg.GRV_STAT i), 4, 3⟩
def Fd.GRV_STAT.SYNCED (i : Nat) : Fld := ⟨(Rg.GRV_STAT i), 5, 5⟩
def Fd.GRV_STAT.PARTNER_LOST (i : Nat) : Fld := ⟨(Rg.GRV_STAT i), 6, 6⟩
def Fd.GRV_STAT.TRACK_LOSS (i : Nat) : Fld := ⟨(Rg.GRV_STAT i), 7, 7⟩
def Fd.GRV_STAT.TAKEN (i : Nat) : Fld := ⟨(Rg.GRV_STAT i), 8, 8⟩
def Fd.GRV_STAT.DEPOSED (i : Nat) : Fld := ⟨(Rg.GRV_STAT i), 9, 9⟩
def Fd.GRV_STAT.FW_ERR (i : Nat) : Fld := ⟨(Rg.GRV_STAT i), 10, 10⟩
def Fd.GRV_STAT.MISMATCH (i : Nat) : Fld := ⟨(Rg.GRV_STAT i), 11, 11⟩
def Fd.GRV_STAT.FROZEN_FS (i : Nat) : Fld := ⟨(Rg.GRV_STAT i), 12, 12⟩
/-- `GRV_IMG_SIZE`: Full image size (08_groves.md). -/
def Rg.GRV_IMG_SIZE (i : Nat) : Nat := 0x18001004 + 512 * i
def Fd.GRV_IMG_SIZE.BYTES (i : Nat) : Fld := ⟨(Rg.GRV_IMG_SIZE i), 31, 0⟩
/-- `GRV_FRAME_SIZE`: Frame image size (08_groves.md). -/
def Rg.GRV_FRAME_SIZE (i : Nat) : Nat := 0x18001008 + 512 * i
def Fd.GRV_FRAME_SIZE.BYTES (i : Nat) : Fld := ⟨(Rg.GRV_FRAME_SIZE i), 31, 0⟩
/-- `GRV_TRACK_LOST_CNT`: Frames not applied (08_groves.md). -/
def Rg.GRV_TRACK_LOST_CNT (i : Nat) : Nat := 0x1800100c + 512 * i
def Fd.GRV_TRACK_LOST_CNT.COUNT (i : Nat) : Fld := ⟨(Rg.GRV_TRACK_LOST_CNT i), 31, 0⟩
/-- `GRV_FW_ERR`: Last refused access (64-bit) (08_groves.md). -/
def Rg.GRV_FW_ERR (i : Nat) : Nat := 0x18001010 + 512 * i
def Fd.GRV_FW_ERR.ADDR (i : Nat) : Fld := ⟨(Rg.GRV_FW_ERR i), 39, 0⟩
def Fd.GRV_FW_ERR.KIND (i : Nat) : Fld := ⟨(Rg.GRV_FW_ERR i), 42, 40⟩
def Fd.GRV_FW_ERR.REQ (i : Nat) : Fld := ⟨(Rg.GRV_FW_ERR i), 45, 44⟩
/-- `GRV_FW`: Firewall entry i (64-bit) (08_groves.md). -/
def Rg.GRV_FW (i j : Nat) : Nat := 0x18001100 + 512 * i + 8 * j
def Fd.GRV_FW.EN (i j : Nat) : Fld := ⟨(Rg.GRV_FW i j), 0, 0⟩
def Fd.GRV_FW.R (i j : Nat) : Fld := ⟨(Rg.GRV_FW i j), 1, 1⟩
def Fd.GRV_FW.W (i j : Nat) : Fld := ⟨(Rg.GRV_FW i j), 2, 2⟩
def Fd.GRV_FW.X (i j : Nat) : Fld := ⟨(Rg.GRV_FW i j), 3, 3⟩
def Fd.GRV_FW.BASE (i j : Nat) : Fld := ⟨(Rg.GRV_FW i j), 39, 12⟩
def Fd.GRV_FW.PAGES (i j : Nat) : Fld := ⟨(Rg.GRV_FW i j), 63, 40⟩
/-- `HWD_MEM_STAT`: Memory integrity status (11_memory_and_coherence.md). -/
def Rg.HWD_MEM_STAT : Nat := 0x24008000
def Fd.HWD_MEM_STAT.CE : Fld := ⟨Rg.HWD_MEM_STAT, 0, 0⟩
def Fd.HWD_MEM_STAT.UE : Fld := ⟨Rg.HWD_MEM_STAT, 1, 1⟩
def Fd.HWD_MEM_STAT.MAC : Fld := ⟨Rg.HWD_MEM_STAT, 2, 2⟩
def Fd.HWD_MEM_STAT.SRAM_CE : Fld := ⟨Rg.HWD_MEM_STAT, 3, 3⟩
def Fd.HWD_MEM_STAT.SRAM_UE : Fld := ⟨Rg.HWD_MEM_STAT, 4, 4⟩
def Fd.HWD_MEM_STAT.RT_OVER : Fld := ⟨Rg.HWD_MEM_STAT, 5, 5⟩
def Fd.HWD_MEM_STAT.SPARING : Fld := ⟨Rg.HWD_MEM_STAT, 6, 6⟩
def Fd.HWD_MEM_STAT.SPARED : Fld := ⟨Rg.HWD_MEM_STAT, 7, 7⟩
def Fd.HWD_MEM_STAT.SPARED_DEV : Fld := ⟨Rg.HWD_MEM_STAT, 11, 8⟩
def Fd.HWD_MEM_STAT.STORE_LOST : Fld := ⟨Rg.HWD_MEM_STAT, 12, 12⟩
/-- `HWD_MEM_CFG`: Memory interrupt and sparing configuration (11_memory_and_coherence.md). -/
def Rg.HWD_MEM_CFG : Nat := 0x24008004
def Fd.HWD_MEM_CFG.IRQ_SRC : Fld := ⟨Rg.HWD_MEM_CFG, 11, 0⟩
def Fd.HWD_MEM_CFG.IRQ_EN : Fld := ⟨Rg.HWD_MEM_CFG, 12, 12⟩
def Fd.HWD_MEM_CFG.SPARE_THRESH : Fld := ⟨Rg.HWD_MEM_CFG, 31, 16⟩
/-- `HWD_MEM_CE_CNT`: GDDR7 corrected errors (11_memory_and_coherence.md). -/
def Rg.HWD_MEM_CE_CNT : Nat := 0x24008008
def Fd.HWD_MEM_CE_CNT.COUNT : Fld := ⟨Rg.HWD_MEM_CE_CNT, 31, 0⟩
/-- `HWD_MEM_UE_CNT`: GDDR7 uncorrectable reads (11_memory_and_coherence.md). -/
def Rg.HWD_MEM_UE_CNT : Nat := 0x2400800c
def Fd.HWD_MEM_UE_CNT.COUNT : Fld := ⟨Rg.HWD_MEM_UE_CNT, 31, 0⟩
/-- `HWD_MEM_MAC_CNT`: GDDR7 MAC failures (11_memory_and_coherence.md). -/
def Rg.HWD_MEM_MAC_CNT : Nat := 0x24008010
def Fd.HWD_MEM_MAC_CNT.COUNT : Fld := ⟨Rg.HWD_MEM_MAC_CNT, 31, 0⟩
/-- `HWD_MEM_SRAM_CE_CNT`: On-die corrected errors (11_memory_and_coherence.md). -/
def Rg.HWD_MEM_SRAM_CE_CNT : Nat := 0x24008014
def Fd.HWD_MEM_SRAM_CE_CNT.COUNT : Fld := ⟨Rg.HWD_MEM_SRAM_CE_CNT, 31, 0⟩
/-- `HWD_MEM_SRAM_UE_CNT`: On-die uncorrectable errors (11_memory_and_coherence.md). -/
def Rg.HWD_MEM_SRAM_UE_CNT : Nat := 0x24008018
def Fd.HWD_MEM_SRAM_UE_CNT.COUNT : Fld := ⟨Rg.HWD_MEM_SRAM_UE_CNT, 31, 0⟩
/-- `HWD_MEM_STORE_LOST_CNT`: Discarded stores (11_memory_and_coherence.md). -/
def Rg.HWD_MEM_STORE_LOST_CNT : Nat := 0x2400801c
def Fd.HWD_MEM_STORE_LOST_CNT.COUNT : Fld := ⟨Rg.HWD_MEM_STORE_LOST_CNT, 31, 0⟩
/-- `HWD_MEM_ERR_LAST`: Last error (64-bit) (11_memory_and_coherence.md). -/
def Rg.HWD_MEM_ERR_LAST : Nat := 0x24008020
def Fd.HWD_MEM_ERR_LAST.ADDR : Fld := ⟨Rg.HWD_MEM_ERR_LAST, 39, 0⟩
def Fd.HWD_MEM_ERR_LAST.KIND : Fld := ⟨Rg.HWD_MEM_ERR_LAST, 43, 40⟩
def Fd.HWD_MEM_ERR_LAST.DEV : Fld := ⟨Rg.HWD_MEM_ERR_LAST, 47, 44⟩
def Fd.HWD_MEM_ERR_LAST.GROVE : Fld := ⟨Rg.HWD_MEM_ERR_LAST, 53, 48⟩
def Fd.HWD_MEM_ERR_LAST.MAINT : Fld := ⟨Rg.HWD_MEM_ERR_LAST, 54, 54⟩
def Fd.HWD_MEM_ERR_LAST.SRC : Fld := ⟨Rg.HWD_MEM_ERR_LAST, 59, 56⟩
/-- `HWD_MEM_CTL`: Counter control (11_memory_and_coherence.md). -/
def Rg.HWD_MEM_CTL : Nat := 0x24008028
def Fd.HWD_MEM_CTL.CNT_CLR : Fld := ⟨Rg.HWD_MEM_CTL, 0, 0⟩
/-- `HWD_MEM_PATROL`: Patrol passes (11_memory_and_coherence.md). -/
def Rg.HWD_MEM_PATROL : Nat := 0x2400802c
def Fd.HWD_MEM_PATROL.PASSES : Fld := ⟨Rg.HWD_MEM_PATROL, 31, 0⟩
/-- `HWD_MEM_DEV_CE`: Corrections per device (11_memory_and_coherence.md). -/
def Rg.HWD_MEM_DEV_CE (i : Nat) : Nat := 0x24008040 + 4 * i
def Fd.HWD_MEM_DEV_CE.COUNT (i : Nat) : Fld := ⟨(Rg.HWD_MEM_DEV_CE i), 15, 0⟩
/-- `HWD_MEM_SHARE`: Bandwidth share (11_memory_and_coherence.md). -/
def Rg.HWD_MEM_SHARE (i : Nat) : Nat := 0x24008100 + 8 * i
def Fd.HWD_MEM_SHARE.SHARE (i : Nat) : Fld := ⟨(Rg.HWD_MEM_SHARE i), 10, 0⟩
/-- `HWD_MEM_RT_OVER`: Demoted requests (11_memory_and_coherence.md). -/
def Rg.HWD_MEM_RT_OVER (i : Nat) : Nat := 0x24008104 + 8 * i
def Fd.HWD_MEM_RT_OVER.COUNT (i : Nat) : Fld := ⟨(Rg.HWD_MEM_RT_OVER i), 31, 0⟩
/-- `IRQ_DOORBELL`: Signal a source (12_interrupts.md). -/
def Rg.IRQ_DOORBELL : Nat := 0x1c000000
def Fd.IRQ_DOORBELL.SOURCE : Fld := ⟨Rg.IRQ_DOORBELL, 11, 0⟩
def Fd.IRQ_DOORBELL.OP : Fld := ⟨Rg.IRQ_DOORBELL, 13, 12⟩
/-- `IRQ_EOI`: End of interrupt (12_interrupts.md). -/
def Rg.IRQ_EOI : Nat := 0x1c000004
def Fd.IRQ_EOI.SOURCE : Fld := ⟨Rg.IRQ_EOI, 11, 0⟩
/-- `IRQ_CLAIM`: Claim in compatibility mode (12_interrupts.md). -/
def Rg.IRQ_CLAIM : Nat := 0x1c000008
def Fd.IRQ_CLAIM.SOURCE : Fld := ⟨Rg.IRQ_CLAIM, 11, 0⟩
def Fd.IRQ_CLAIM.PRIO : Fld := ⟨Rg.IRQ_CLAIM, 17, 12⟩
def Fd.IRQ_CLAIM.NONE : Fld := ⟨Rg.IRQ_CLAIM, 31, 31⟩
/-- `IRQ_CTL`: Router control (12_interrupts.md). -/
def Rg.IRQ_CTL : Nat := 0x1c00000c
def Fd.IRQ_CTL.DROP_SRC : Fld := ⟨Rg.IRQ_CTL, 11, 0⟩
def Fd.IRQ_CTL.CNT_CLR : Fld := ⟨Rg.IRQ_CTL, 12, 12⟩
/-- `IRQ_STAT`: Router status (12_interrupts.md). -/
def Rg.IRQ_STAT : Nat := 0x1c000010
def Fd.IRQ_STAT.DROP : Fld := ⟨Rg.IRQ_STAT, 0, 0⟩
/-- `IRQ_DROP_CNT`: Dropped doorbell writes (12_interrupts.md). -/
def Rg.IRQ_DROP_CNT : Nat := 0x1c000014
def Fd.IRQ_DROP_CNT.COUNT : Fld := ⟨Rg.IRQ_DROP_CNT, 31, 0⟩
/-- `IRQ_DROP_LAST`: Last dropped doorbell write (64-bit) (12_interrupts.md). -/
def Rg.IRQ_DROP_LAST : Nat := 0x1c000018
def Fd.IRQ_DROP_LAST.SOURCE : Fld := ⟨Rg.IRQ_DROP_LAST, 11, 0⟩
def Fd.IRQ_DROP_LAST.OP : Fld := ⟨Rg.IRQ_DROP_LAST, 13, 12⟩
def Fd.IRQ_DROP_LAST.REASON : Fld := ⟨Rg.IRQ_DROP_LAST, 14, 14⟩
def Fd.IRQ_DROP_LAST.HW : Fld := ⟨Rg.IRQ_DROP_LAST, 15, 15⟩
def Fd.IRQ_DROP_LAST.HOST : Fld := ⟨Rg.IRQ_DROP_LAST, 16, 16⟩
def Fd.IRQ_DROP_LAST.GROVE : Fld := ⟨Rg.IRQ_DROP_LAST, 22, 17⟩
/-- `IRQ_EN_SET`: Enable set (12_interrupts.md). -/
def Rg.IRQ_EN_SET (i : Nat) : Nat := 0x1c001000 + 4 * i
def Fd.IRQ_EN_SET.EN (i : Nat) : Fld := ⟨(Rg.IRQ_EN_SET i), 31, 0⟩
/-- `IRQ_EN_CLR`: Enable clear (12_interrupts.md). -/
def Rg.IRQ_EN_CLR (i : Nat) : Nat := 0x1c001200 + 4 * i
def Fd.IRQ_EN_CLR.EN (i : Nat) : Fld := ⟨(Rg.IRQ_EN_CLR i), 31, 0⟩
/-- `IRQ_PEND_SET`: Pending set (12_interrupts.md). -/
def Rg.IRQ_PEND_SET (i : Nat) : Nat := 0x1c001400 + 4 * i
def Fd.IRQ_PEND_SET.PEND (i : Nat) : Fld := ⟨(Rg.IRQ_PEND_SET i), 31, 0⟩
/-- `IRQ_PEND_CLR`: Pending clear (12_interrupts.md). -/
def Rg.IRQ_PEND_CLR (i : Nat) : Nat := 0x1c001600 + 4 * i
def Fd.IRQ_PEND_CLR.PEND (i : Nat) : Fld := ⟨(Rg.IRQ_PEND_CLR i), 31, 0⟩
/-- `IRQ_GRV_CFG`: Grove delivery mode (12_interrupts.md). -/
def Rg.IRQ_GRV_CFG (i : Nat) : Nat := 0x1c002000 + 64 * i
def Fd.IRQ_GRV_CFG.COMPAT (i : Nat) : Fld := ⟨(Rg.IRQ_GRV_CFG i), 0, 0⟩
/-- `IRQ_GRV_VBASE_S`: S-level vector base (64-bit) (12_interrupts.md). -/
def Rg.IRQ_GRV_VBASE_S (i : Nat) : Nat := 0x1c002008 + 64 * i
def Fd.IRQ_GRV_VBASE_S.BASE (i : Nat) : Fld := ⟨(Rg.IRQ_GRV_VBASE_S i), 47, 4⟩
/-- `IRQ_GRV_VBASE_E`: E-level vector base (64-bit) (12_interrupts.md). -/
def Rg.IRQ_GRV_VBASE_E (i : Nat) : Nat := 0x1c002010 + 64 * i
def Fd.IRQ_GRV_VBASE_E.BASE (i : Nat) : Fld := ⟨(Rg.IRQ_GRV_VBASE_E i), 47, 4⟩
/-- `IRQ_CORE_STAT`: Core delivery state (12_interrupts.md). -/
def Rg.IRQ_CORE_STAT (i : Nat) : Nat := 0x1c003000 + 16 * i
def Fd.IRQ_CORE_STAT.DEPTH (i : Nat) : Fld := ⟨(Rg.IRQ_CORE_STAT i), 6, 0⟩
def Fd.IRQ_CORE_STAT.RP (i : Nat) : Fld := ⟨(Rg.IRQ_CORE_STAT i), 12, 7⟩
def Fd.IRQ_CORE_STAT.TOP (i : Nat) : Fld := ⟨(Rg.IRQ_CORE_STAT i), 24, 13⟩
def Fd.IRQ_CORE_STAT.OFFER (i : Nat) : Fld := ⟨(Rg.IRQ_CORE_STAT i), 25, 25⟩
def Fd.IRQ_CORE_STAT.LINE (i : Nat) : Fld := ⟨(Rg.IRQ_CORE_STAT i), 26, 26⟩
def Fd.IRQ_CORE_STAT.EOI_ERR (i : Nat) : Fld := ⟨(Rg.IRQ_CORE_STAT i), 27, 27⟩
/-- `IRQ_SRC_CFG`: Source configuration and state (12_interrupts.md). -/
def Rg.IRQ_SRC_CFG (i : Nat) : Nat := 0x1c010000 + 4 * i
def Fd.IRQ_SRC_CFG.PRIO (i : Nat) : Fld := ⟨(Rg.IRQ_SRC_CFG i), 5, 0⟩
def Fd.IRQ_SRC_CFG.LEVEL (i : Nat) : Fld := ⟨(Rg.IRQ_SRC_CFG i), 6, 6⟩
def Fd.IRQ_SRC_CFG.HOST (i : Nat) : Fld := ⟨(Rg.IRQ_SRC_CFG i), 7, 7⟩
def Fd.IRQ_SRC_CFG.EN (i : Nat) : Fld := ⟨(Rg.IRQ_SRC_CFG i), 16, 16⟩
def Fd.IRQ_SRC_CFG.PENDING (i : Nat) : Fld := ⟨(Rg.IRQ_SRC_CFG i), 17, 17⟩
def Fd.IRQ_SRC_CFG.ACTIVE (i : Nat) : Fld := ⟨(Rg.IRQ_SRC_CFG i), 18, 18⟩
def Fd.IRQ_SRC_CFG.LVL (i : Nat) : Fld := ⟨(Rg.IRQ_SRC_CFG i), 19, 19⟩
def Fd.IRQ_SRC_CFG.CORE (i : Nat) : Fld := ⟨(Rg.IRQ_SRC_CFG i), 25, 20⟩
def Fd.IRQ_SRC_CFG.RR (i : Nat) : Fld := ⟨(Rg.IRQ_SRC_CFG i), 31, 26⟩
/-- `IRQ_SRC_TGT`: Target set (64-bit) (12_interrupts.md). -/
def Rg.IRQ_SRC_TGT (i : Nat) : Nat := 0x1c020000 + 8 * i
def Fd.IRQ_SRC_TGT.CORES (i : Nat) : Fld := ⟨(Rg.IRQ_SRC_TGT i), 63, 0⟩
/-- `DMA_CTL`: DMA control (13_dma.md). -/
def Rg.DMA_CTL : Nat := 0x20000000
def Fd.DMA_CTL.CNT_CLR : Fld := ⟨Rg.DMA_CTL, 0, 0⟩
/-- `DMA_ENG_CFG`: Engine interrupt (13_dma.md). -/
def Rg.DMA_ENG_CFG (i : Nat) : Nat := 0x20001000 + 4096 * i
def Fd.DMA_ENG_CFG.ERR_SRC (i : Nat) : Fld := ⟨(Rg.DMA_ENG_CFG i), 11, 0⟩
/-- `DMA_ENG_STAT`: Engine status (13_dma.md). -/
def Rg.DMA_ENG_STAT (i : Nat) : Nat := 0x20001004 + 4096 * i
def Fd.DMA_ENG_STAT.ERR (i : Nat) : Fld := ⟨(Rg.DMA_ENG_STAT i), 0, 0⟩
def Fd.DMA_ENG_STAT.BUSY (i : Nat) : Fld := ⟨(Rg.DMA_ENG_STAT i), 1, 1⟩
def Fd.DMA_ENG_STAT.CUR (i : Nat) : Fld := ⟨(Rg.DMA_ENG_STAT i), 5, 2⟩
def Fd.DMA_ENG_STAT.HELD (i : Nat) : Fld := ⟨(Rg.DMA_ENG_STAT i), 6, 6⟩
def Fd.DMA_ENG_STAT.GROVE (i : Nat) : Fld := ⟨(Rg.DMA_ENG_STAT i), 12, 7⟩
/-- `DMA_ENG_ERR`: Last bus error (64-bit) (13_dma.md). -/
def Rg.DMA_ENG_ERR (i : Nat) : Nat := 0x20001008 + 4096 * i
def Fd.DMA_ENG_ERR.ADDR (i : Nat) : Fld := ⟨(Rg.DMA_ENG_ERR i), 39, 0⟩
def Fd.DMA_ENG_ERR.WRITE (i : Nat) : Fld := ⟨(Rg.DMA_ENG_ERR i), 40, 40⟩
def Fd.DMA_ENG_ERR.DESC (i : Nat) : Fld := ⟨(Rg.DMA_ENG_ERR i), 41, 41⟩
def Fd.DMA_ENG_ERR.KIND (i : Nat) : Fld := ⟨(Rg.DMA_ENG_ERR i), 44, 42⟩
def Fd.DMA_ENG_ERR.CH (i : Nat) : Fld := ⟨(Rg.DMA_ENG_ERR i), 49, 45⟩
/-- `DMA_ENG_ERR_CNT`: Bus errors (13_dma.md). -/
def Rg.DMA_ENG_ERR_CNT (i : Nat) : Nat := 0x20001010 + 4096 * i
def Fd.DMA_ENG_ERR_CNT.COUNT (i : Nat) : Fld := ⟨(Rg.DMA_ENG_ERR_CNT i), 31, 0⟩
/-- `DMA_CH_BASE`: Ring base (64-bit) (13_dma.md). -/
def Rg.DMA_CH_BASE (i j : Nat) : Nat := 0x20001100 + 4096 * i + 64 * j
def Fd.DMA_CH_BASE.BASE (i j : Nat) : Fld := ⟨(Rg.DMA_CH_BASE i j), 39, 6⟩
/-- `DMA_CH_CFG`: Channel configuration (13_dma.md). -/
def Rg.DMA_CH_CFG (i j : Nat) : Nat := 0x20001108 + 4096 * i + 64 * j
def Fd.DMA_CH_CFG.MODE (i j : Nat) : Fld := ⟨(Rg.DMA_CH_CFG i j), 1, 0⟩
def Fd.DMA_CH_CFG.HALF_EN (i j : Nat) : Fld := ⟨(Rg.DMA_CH_CFG i j), 2, 2⟩
def Fd.DMA_CH_CFG.FULL_EN (i j : Nat) : Fld := ⟨(Rg.DMA_CH_CFG i j), 3, 3⟩
def Fd.DMA_CH_CFG.DONE_EN (i j : Nat) : Fld := ⟨(Rg.DMA_CH_CFG i j), 4, 4⟩
def Fd.DMA_CH_CFG.LOG2 (i j : Nat) : Fld := ⟨(Rg.DMA_CH_CFG i j), 11, 8⟩
def Fd.DMA_CH_CFG.IRQ_SRC (i j : Nat) : Fld := ⟨(Rg.DMA_CH_CFG i j), 27, 16⟩
/-- `DMA_CH_HEAD`: Producer index (13_dma.md). -/
def Rg.DMA_CH_HEAD (i j : Nat) : Nat := 0x2000110c + 4096 * i + 64 * j
def Fd.DMA_CH_HEAD.HEAD (i j : Nat) : Fld := ⟨(Rg.DMA_CH_HEAD i j), 31, 0⟩
/-- `DMA_CH_DONE`: Completion index (13_dma.md). -/
def Rg.DMA_CH_DONE (i j : Nat) : Nat := 0x20001110 + 4096 * i + 64 * j
def Fd.DMA_CH_DONE.DONE (i j : Nat) : Fld := ⟨(Rg.DMA_CH_DONE i j), 31, 0⟩
/-- `DMA_CH_CTL`: Channel control (13_dma.md). -/
def Rg.DMA_CH_CTL (i j : Nat) : Nat := 0x20001114 + 4096 * i + 64 * j
def Fd.DMA_CH_CTL.START (i j : Nat) : Fld := ⟨(Rg.DMA_CH_CTL i j), 0, 0⟩
def Fd.DMA_CH_CTL.STOP (i j : Nat) : Fld := ⟨(Rg.DMA_CH_CTL i j), 1, 1⟩
/-- `DMA_CH_STAT`: Channel status (13_dma.md). -/
def Rg.DMA_CH_STAT (i j : Nat) : Nat := 0x20001118 + 4096 * i + 64 * j
def Fd.DMA_CH_STAT.RUN (i j : Nat) : Fld := ⟨(Rg.DMA_CH_STAT i j), 0, 0⟩
def Fd.DMA_CH_STAT.ACTIVE (i j : Nat) : Fld := ⟨(Rg.DMA_CH_STAT i j), 1, 1⟩
def Fd.DMA_CH_STAT.DONE (i j : Nat) : Fld := ⟨(Rg.DMA_CH_STAT i j), 2, 2⟩
def Fd.DMA_CH_STAT.HALF (i j : Nat) : Fld := ⟨(Rg.DMA_CH_STAT i j), 3, 3⟩
def Fd.DMA_CH_STAT.FULL (i j : Nat) : Fld := ⟨(Rg.DMA_CH_STAT i j), 4, 4⟩
def Fd.DMA_CH_STAT.HALTED (i j : Nat) : Fld := ⟨(Rg.DMA_CH_STAT i j), 5, 5⟩
def Fd.DMA_CH_STAT.ERR_STOP (i j : Nat) : Fld := ⟨(Rg.DMA_CH_STAT i j), 6, 6⟩
def Fd.DMA_CH_STAT.BAD (i j : Nat) : Fld := ⟨(Rg.DMA_CH_STAT i j), 7, 7⟩
/-- `DMA_CH_CURSOR`: Circular cursor (64-bit) (13_dma.md). -/
def Rg.DMA_CH_CURSOR (i j : Nat) : Nat := 0x20001120 + 4096 * i + 64 * j
def Fd.DMA_CH_CURSOR.ADDR (i j : Nat) : Fld := ⟨(Rg.DMA_CH_CURSOR i j), 39, 0⟩
/-- `HWD_STAT`: Heartwood state (14_security_and_lifecycle.md). -/
def Rg.HWD_STAT : Nat := 0x24000000
def Fd.HWD_STAT.LC : Fld := ⟨Rg.HWD_STAT, 2, 0⟩
def Fd.HWD_STAT.DEBUG : Fld := ⟨Rg.HWD_STAT, 3, 3⟩
def Fd.HWD_STAT.KEY_PENDING : Fld := ⟨Rg.HWD_STAT, 4, 4⟩
def Fd.HWD_STAT.IMAGE_KEY : Fld := ⟨Rg.HWD_STAT, 5, 5⟩
def Fd.HWD_STAT.ZEROISED : Fld := ⟨Rg.HWD_STAT, 6, 6⟩
/-- `HWD_CNT`: Owner keys and limited changes (14_security_and_lifecycle.md). -/
def Rg.HWD_CNT : Nat := 0x24000004
def Fd.HWD_CNT.OWNER_INSTALLS : Fld := ⟨Rg.HWD_CNT, 3, 0⟩
def Fd.HWD_CNT.SERVICE_ENTRIES : Fld := ⟨Rg.HWD_CNT, 12, 8⟩
def Fd.HWD_CNT.KEY_INDEX : Fld := ⟨Rg.HWD_CNT, 18, 16⟩
def Fd.HWD_CNT.PENDING_INDEX : Fld := ⟨Rg.HWD_CNT, 22, 20⟩
/-- `HWD_FW`: Heartwood firmware version (14_security_and_lifecycle.md). -/
def Rg.HWD_FW : Nat := 0x24000008
def Fd.HWD_FW.VERSION : Fld := ⟨Rg.HWD_FW, 31, 0⟩
/-- `HWD_SERIAL_LO`: Serial number, low half (64-bit) (14_security_and_lifecycle.md). -/
def Rg.HWD_SERIAL_LO : Nat := 0x24000010
def Fd.HWD_SERIAL_LO.SERIAL : Fld := ⟨Rg.HWD_SERIAL_LO, 63, 0⟩
/-- `HWD_SERIAL_HI`: Serial number, high half (64-bit) (14_security_and_lifecycle.md). -/
def Rg.HWD_SERIAL_HI : Nat := 0x24000018
def Fd.HWD_SERIAL_HI.SERIAL : Fld := ⟨Rg.HWD_SERIAL_HI, 63, 0⟩
/-- `HWD_TIME`: Heartwood clock (64-bit) (14_security_and_lifecycle.md). -/
def Rg.HWD_TIME : Nat := 0x24000020
def Fd.HWD_TIME.NS : Fld := ⟨Rg.HWD_TIME, 63, 0⟩
/-- `HWD_AUDIT_SEQ`: Next audit sequence number (64-bit) (14_security_and_lifecycle.md). -/
def Rg.HWD_AUDIT_SEQ : Nat := 0x24000028
def Fd.HWD_AUDIT_SEQ.SEQ : Fld := ⟨Rg.HWD_AUDIT_SEQ, 63, 0⟩
/-- `HWD_TAMPER`: Tamper record (14_security_and_lifecycle.md). -/
def Rg.HWD_TAMPER : Nat := 0x24000030
def Fd.HWD_TAMPER.SEEN : Fld := ⟨Rg.HWD_TAMPER, 7, 0⟩
def Fd.HWD_TAMPER.ACTIVE : Fld := ⟨Rg.HWD_TAMPER, 15, 8⟩
/-- `HWD_TAMPER_CNT`: Tamper events (14_security_and_lifecycle.md). -/
def Rg.HWD_TAMPER_CNT : Nat := 0x24000034
def Fd.HWD_TAMPER_CNT.COUNT : Fld := ⟨Rg.HWD_TAMPER_CNT, 31, 0⟩
/-- `HWD_IRQ_SRC`: Interrupt sources (14_security_and_lifecycle.md). -/
def Rg.HWD_IRQ_SRC : Nat := 0x24000038
def Fd.HWD_IRQ_SRC.ALERT_SRC : Fld := ⟨Rg.HWD_IRQ_SRC, 11, 0⟩
def Fd.HWD_IRQ_SRC.ALERT_EN : Fld := ⟨Rg.HWD_IRQ_SRC, 12, 12⟩
def Fd.HWD_IRQ_SRC.MBX_SRC : Fld := ⟨Rg.HWD_IRQ_SRC, 27, 16⟩
def Fd.HWD_IRQ_SRC.MBX_EN : Fld := ⟨Rg.HWD_IRQ_SRC, 28, 28⟩
/-- `HWD_MBX_CTL`: Mailbox control (14_security_and_lifecycle.md). -/
def Rg.HWD_MBX_CTL (i : Nat) : Nat := 0x24001000 + 4096 * i
def Fd.HWD_MBX_CTL.GO (i : Nat) : Fld := ⟨(Rg.HWD_MBX_CTL i), 0, 0⟩
/-- `HWD_MBX_STAT`: Mailbox status (14_security_and_lifecycle.md). -/
def Rg.HWD_MBX_STAT (i : Nat) : Nat := 0x24001004 + 4096 * i
def Fd.HWD_MBX_STAT.BUSY (i : Nat) : Fld := ⟨(Rg.HWD_MBX_STAT i), 0, 0⟩
def Fd.HWD_MBX_STAT.QUEUED (i : Nat) : Fld := ⟨(Rg.HWD_MBX_STAT i), 1, 1⟩
def Fd.HWD_MBX_STAT.DONE (i : Nat) : Fld := ⟨(Rg.HWD_MBX_STAT i), 2, 2⟩
def Fd.HWD_MBX_STAT.LOCKED (i : Nat) : Fld := ⟨(Rg.HWD_MBX_STAT i), 3, 3⟩
def Fd.HWD_MBX_STAT.RESULT (i : Nat) : Fld := ⟨(Rg.HWD_MBX_STAT i), 15, 8⟩
def Fd.HWD_MBX_STAT.DETAIL (i : Nat) : Fld := ⟨(Rg.HWD_MBX_STAT i), 31, 16⟩
/-- `HWD_MBX_CMD`: Command (14_security_and_lifecycle.md). -/
def Rg.HWD_MBX_CMD (i : Nat) : Nat := 0x24001008 + 4096 * i
def Fd.HWD_MBX_CMD.CODE (i : Nat) : Fld := ⟨(Rg.HWD_MBX_CMD i), 15, 0⟩
def Fd.HWD_MBX_CMD.LEN (i : Nat) : Fld := ⟨(Rg.HWD_MBX_CMD i), 27, 16⟩
/-- `HWD_MBX_RESP`: Response length (14_security_and_lifecycle.md). -/
def Rg.HWD_MBX_RESP (i : Nat) : Nat := 0x2400100c + 4096 * i
def Fd.HWD_MBX_RESP.LEN (i : Nat) : Fld := ⟨(Rg.HWD_MBX_RESP i), 11, 0⟩
/-- `HWD_MBX_DATA`: Data buffer (14_security_and_lifecycle.md). -/
def Rg.HWD_MBX_DATA (i j : Nat) : Nat := 0x24001800 + 4096 * i + 8 * j
def Fd.HWD_MBX_DATA.DATA (i j : Nat) : Fld := ⟨(Rg.HWD_MBX_DATA i j), 63, 0⟩
/-- `MET_ID`: Enclave presence (15_metrology.md). -/
def Rg.MET_ID : Nat := 0x2c000000
def Fd.MET_ID.PRESENT : Fld := ⟨Rg.MET_ID, 0, 0⟩
def Fd.MET_ID.FORMAT : Fld := ⟨Rg.MET_ID, 15, 8⟩
/-- `MET_STAT`: Enclave status (15_metrology.md). -/
def Rg.MET_STAT : Nat := 0x2c000004
def Fd.MET_STAT.METERING : Fld := ⟨Rg.MET_STAT, 0, 0⟩
def Fd.MET_STAT.CLOCK_VALID : Fld := ⟨Rg.MET_STAT, 1, 1⟩
def Fd.MET_STAT.SEALED : Fld := ⟨Rg.MET_STAT, 2, 2⟩
def Fd.MET_STAT.CAL_EXHAUSTED : Fld := ⟨Rg.MET_STAT, 3, 3⟩
def Fd.MET_STAT.CHECKSUM_ERR : Fld := ⟨Rg.MET_STAT, 4, 4⟩
def Fd.MET_STAT.ADC_FAULT : Fld := ⟨Rg.MET_STAT, 5, 5⟩
def Fd.MET_STAT.TARIFF : Fld := ⟨Rg.MET_STAT, 7, 6⟩
def Fd.MET_STAT.CAL_USED : Fld := ⟨Rg.MET_STAT, 13, 8⟩
def Fd.MET_STAT.BACKUP : Fld := ⟨Rg.MET_STAT, 14, 14⟩
/-- `MET_SWID`: Software identification (64-bit) (15_metrology.md). -/
def Rg.MET_SWID : Nat := 0x2c000008
def Fd.MET_SWID.CHECKSUM : Fld := ⟨Rg.MET_SWID, 31, 0⟩
def Fd.MET_SWID.VERSION : Fld := ⟨Rg.MET_SWID, 47, 32⟩
/-- `MET_TIME`: Enclave clock (64-bit) (15_metrology.md). -/
def Rg.MET_TIME : Nat := 0x2c000010
def Fd.MET_TIME.NS : Fld := ⟨Rg.MET_TIME, 63, 0⟩
/-- `MET_SEQ`: Update sequence (15_metrology.md). -/
def Rg.MET_SEQ : Nat := 0x2c000018
def Fd.MET_SEQ.SEQ : Fld := ⟨Rg.MET_SEQ, 31, 0⟩
/-- `MET_EVENT_CNT`: Event counter (15_metrology.md). -/
def Rg.MET_EVENT_CNT : Nat := 0x2c00001c
def Fd.MET_EVENT_CNT.COUNT : Fld := ⟨Rg.MET_EVENT_CNT, 5, 0⟩
/-- `MET_LOG_NEXT`: Next log sequence number (15_metrology.md). -/
def Rg.MET_LOG_NEXT : Nat := 0x2c000020
def Fd.MET_LOG_NEXT.SEQ : Fld := ⟨Rg.MET_LOG_NEXT, 31, 0⟩
/-- `MET_CMD_STAT`: Command status (15_metrology.md). -/
def Rg.MET_CMD_STAT : Nat := 0x2c000024
def Fd.MET_CMD_STAT.BUSY : Fld := ⟨Rg.MET_CMD_STAT, 0, 0⟩
def Fd.MET_CMD_STAT.OP : Fld := ⟨Rg.MET_CMD_STAT, 7, 4⟩
def Fd.MET_CMD_STAT.RESULT : Fld := ⟨Rg.MET_CMD_STAT, 11, 8⟩
def Fd.MET_CMD_STAT.TAG : Fld := ⟨Rg.MET_CMD_STAT, 19, 12⟩
/-- `MET_TADJ`: Time adjustment used (15_metrology.md). -/
def Rg.MET_TADJ : Nat := 0x2c000028
def Fd.MET_TADJ.USED_MS : Fld := ⟨Rg.MET_TADJ, 12, 0⟩
/-- `MET_SNAP_SEQ`: Snapshot count (15_metrology.md). -/
def Rg.MET_SNAP_SEQ : Nat := 0x2c00002c
def Fd.MET_SNAP_SEQ.SEQ : Fld := ⟨Rg.MET_SNAP_SEQ, 31, 0⟩
/-- `MET_SNAP_TIME`: Snapshot time (64-bit) (15_metrology.md). -/
def Rg.MET_SNAP_TIME : Nat := 0x2c000030
def Fd.MET_SNAP_TIME.NS : Fld := ⟨Rg.MET_SNAP_TIME, 63, 0⟩
/-- `MET_IMP`: Active import, tariff t (64-bit) (15_metrology.md). -/
def Rg.MET_IMP (i j : Nat) : Nat := 0x2c000100 + 256 * i + 8 * j
def Fd.MET_IMP.MWH (i j : Nat) : Fld := ⟨(Rg.MET_IMP i j), 63, 0⟩
/-- `MET_EXP`: Active export, tariff t (64-bit) (15_metrology.md). -/
def Rg.MET_EXP (i j : Nat) : Nat := 0x2c000120 + 256 * i + 8 * j
def Fd.MET_EXP.MWH (i j : Nat) : Fld := ⟨(Rg.MET_EXP i j), 63, 0⟩
/-- `MET_VAR`: Reactive energy, quadrant q + 1 (64-bit) (15_metrology.md). -/
def Rg.MET_VAR (i j : Nat) : Nat := 0x2c000140 + 256 * i + 8 * j
def Fd.MET_VAR.MVARH (i j : Nat) : Fld := ⟨(Rg.MET_VAR i j), 63, 0⟩
/-- `MET_INST`: Instantaneous values (15_metrology.md). -/
def Rg.MET_INST (i j : Nat) : Nat := 0x2c000160 + 256 * i + 4 * j
def Fd.MET_INST.VALUE (i j : Nat) : Fld := ⟨(Rg.MET_INST i j), 31, 0⟩
/-- `MET_SNAP`: Snapshot of feeder f (15_metrology.md). -/
def Rg.MET_SNAP (i j : Nat) : Nat := 0x2c000500 + 128 * i + 8 * j
def Fd.MET_SNAP.WORD (i j : Nat) : Fld := ⟨(Rg.MET_SNAP i j), 63, 0⟩
/-- `MET_PCNT`: Pulse count (64-bit) (15_metrology.md). -/
def Rg.MET_PCNT (i : Nat) : Nat := 0x2c000800 + 16 * i
def Fd.MET_PCNT.COUNT (i : Nat) : Fld := ⟨(Rg.MET_PCNT i), 63, 0⟩
/-- `MET_PFREQ`: Pulse frequency (15_metrology.md). -/
def Rg.MET_PFREQ (i : Nat) : Nat := 0x2c000808 + 16 * i
def Fd.MET_PFREQ.HZ (i : Nat) : Fld := ⟨(Rg.MET_PFREQ i), 31, 0⟩
/-- `MET_LOG`: Log entry k (15_metrology.md). -/
def Rg.MET_LOG (i j : Nat) : Nat := 0x2c000c00 + 32 * i + 8 * j
def Fd.MET_LOG.WORD (i j : Nat) : Fld := ⟨(Rg.MET_LOG i j), 63, 0⟩
/-- `MET_CMD`: Command port (64-bit) (15_metrology.md). -/
def Rg.MET_CMD : Nat := 0x2c001000
def Fd.MET_CMD.OP : Fld := ⟨Rg.MET_CMD, 3, 0⟩
def Fd.MET_CMD.TAG : Fld := ⟨Rg.MET_CMD, 15, 8⟩
def Fd.MET_CMD.ARG : Fld := ⟨Rg.MET_CMD, 63, 32⟩
/-- `PCI_LINK`: Link state (16_host_interface.md). -/
def Rg.PCI_LINK : Nat := 0x30000000
def Fd.PCI_LINK.UP : Fld := ⟨Rg.PCI_LINK, 0, 0⟩
def Fd.PCI_LINK.SPEED : Fld := ⟨Rg.PCI_LINK, 2, 1⟩
def Fd.PCI_LINK.WIDTH : Fld := ⟨Rg.PCI_LINK, 6, 3⟩
/-- `PCI_STAT`: Status (16_host_interface.md). -/
def Rg.PCI_STAT : Nat := 0x30000004
def Fd.PCI_STAT.LINK_CHG : Fld := ⟨Rg.PCI_STAT, 0, 0⟩
def Fd.PCI_STAT.CPL_TO : Fld := ⟨Rg.PCI_STAT, 1, 1⟩
def Fd.PCI_STAT.WDROP : Fld := ⟨Rg.PCI_STAT, 2, 2⟩
/-- `PCI_CTL`: Control (16_host_interface.md). -/
def Rg.PCI_CTL : Nat := 0x30000008
def Fd.PCI_CTL.CNT_CLR : Fld := ⟨Rg.PCI_CTL, 0, 0⟩
def Fd.PCI_CTL.HOST_IRQ : Fld := ⟨Rg.PCI_CTL, 1, 1⟩
/-- `PCI_IRQ_SRC`: Interrupt source (16_host_interface.md). -/
def Rg.PCI_IRQ_SRC : Nat := 0x3000000c
def Fd.PCI_IRQ_SRC.LINK_SRC : Fld := ⟨Rg.PCI_IRQ_SRC, 11, 0⟩
/-- `PCI_OB_BASE`: Outbound base (64-bit) (16_host_interface.md). -/
def Rg.PCI_OB_BASE : Nat := 0x30000010
def Fd.PCI_OB_BASE.BASE : Fld := ⟨Rg.PCI_OB_BASE, 63, 12⟩
/-- `PCI_WDROP_CNT`: Counter (16_host_interface.md). -/
def Rg.PCI_WDROP_CNT : Nat := 0x30000018
def Fd.PCI_WDROP_CNT.COUNT : Fld := ⟨Rg.PCI_WDROP_CNT, 31, 0⟩
/-- `PCI_OB_DROP_CNT`: Counter (16_host_interface.md). -/
def Rg.PCI_OB_DROP_CNT : Nat := 0x3000001c
def Fd.PCI_OB_DROP_CNT.COUNT : Fld := ⟨Rg.PCI_OB_DROP_CNT, 31, 0⟩
/-- `PCI_CPL_TO_CNT`: Counter (16_host_interface.md). -/
def Rg.PCI_CPL_TO_CNT : Nat := 0x30000020
def Fd.PCI_CPL_TO_CNT.COUNT : Fld := ⟨Rg.PCI_CPL_TO_CNT, 31, 0⟩
/-- `PCI_HOST_STAT`: Host-visible device state (16_host_interface.md). -/
def Rg.PCI_HOST_STAT : Nat := 0x30000024
def Fd.PCI_HOST_STAT.STATE : Fld := ⟨Rg.PCI_HOST_STAT, 1, 0⟩
/-- `PCI_AQ_MIRROR`: Mirrored groves (64-bit) (16_host_interface.md). -/
def Rg.PCI_AQ_MIRROR : Nat := 0x30000028
def Fd.PCI_AQ_MIRROR.GROVES : Fld := ⟨Rg.PCI_AQ_MIRROR, 63, 0⟩
/-- `PCI_DOORBELL`: Host doorbell (16_host_interface.md). -/
def Rg.PCI_DOORBELL : Nat := 0x30000030
def Fd.PCI_DOORBELL.DATA : Fld := ⟨Rg.PCI_DOORBELL, 31, 0⟩
/-- `PCI_SNAP_CFG`: Snapshot window (64-bit) (16_host_interface.md). -/
def Rg.PCI_SNAP_CFG (i : Nat) : Nat := 0x30000100 + 16 * i
def Fd.PCI_SNAP_CFG.EN (i : Nat) : Fld := ⟨(Rg.PCI_SNAP_CFG i), 0, 0⟩
def Fd.PCI_SNAP_CFG.INT (i : Nat) : Fld := ⟨(Rg.PCI_SNAP_CFG i), 1, 1⟩
def Fd.PCI_SNAP_CFG.CLASS (i : Nat) : Fld := ⟨(Rg.PCI_SNAP_CFG i), 3, 2⟩
def Fd.PCI_SNAP_CFG.FIRST (i : Nat) : Fld := ⟨(Rg.PCI_SNAP_CFG i), 31, 16⟩
def Fd.PCI_SNAP_CFG.COUNT (i : Nat) : Fld := ⟨(Rg.PCI_SNAP_CFG i), 48, 32⟩
/-- `PCI_SNAP_BASE`: Snapshot base (64-bit) (16_host_interface.md). -/
def Rg.PCI_SNAP_BASE (i : Nat) : Nat := 0x30000108 + 16 * i
def Fd.PCI_SNAP_BASE.BASE (i : Nat) : Fld := ⟨(Rg.PCI_SNAP_BASE i), 39, 23⟩
/-- `PCI_SNAP_STAT`: Snapshot status (16_host_interface.md). -/
def Rg.PCI_SNAP_STAT (i : Nat) : Nat := 0x30000140 + 4 * i
def Fd.PCI_SNAP_STAT.LAST (i : Nat) : Fld := ⟨(Rg.PCI_SNAP_STAT i), 0, 0⟩
def Fd.PCI_SNAP_STAT.SKIP (i : Nat) : Fld := ⟨(Rg.PCI_SNAP_STAT i), 1, 1⟩
def Fd.PCI_SNAP_STAT.SEQ (i : Nat) : Fld := ⟨(Rg.PCI_SNAP_STAT i), 31, 8⟩
/-- `PCI_MQ_CFG`: Queue configuration (64-bit) (16_host_interface.md). -/
def Rg.PCI_MQ_CFG (i : Nat) : Nat := 0x30000200 + 32 * i
def Fd.PCI_MQ_CFG.EN (i : Nat) : Fld := ⟨(Rg.PCI_MQ_CFG i), 0, 0⟩
def Fd.PCI_MQ_CFG.GROVE (i : Nat) : Fld := ⟨(Rg.PCI_MQ_CFG i), 6, 1⟩
def Fd.PCI_MQ_CFG.H2D_LOG2 (i : Nat) : Fld := ⟨(Rg.PCI_MQ_CFG i), 11, 8⟩
def Fd.PCI_MQ_CFG.D2H_LOG2 (i : Nat) : Fld := ⟨(Rg.PCI_MQ_CFG i), 15, 12⟩
def Fd.PCI_MQ_CFG.SRC (i : Nat) : Fld := ⟨(Rg.PCI_MQ_CFG i), 27, 16⟩
/-- `PCI_MQ_H2D_BASE`: Ring base (16_host_interface.md). -/
def Rg.PCI_MQ_H2D_BASE (i : Nat) : Nat := 0x30000208 + 32 * i
def Fd.PCI_MQ_H2D_BASE.BASE (i : Nat) : Fld := ⟨(Rg.PCI_MQ_H2D_BASE i), 39, 6⟩
/-- `PCI_MQ_D2H_BASE`: Ring base (16_host_interface.md). -/
def Rg.PCI_MQ_D2H_BASE (i : Nat) : Nat := 0x30000210 + 32 * i
def Fd.PCI_MQ_D2H_BASE.BASE (i : Nat) : Fld := ⟨(Rg.PCI_MQ_D2H_BASE i), 39, 6⟩
/-- `PCI_MQ_IDX`: Queue indices (64-bit) (16_host_interface.md). -/
def Rg.PCI_MQ_IDX (i : Nat) : Nat := 0x30000218 + 32 * i
def Fd.PCI_MQ_IDX.H2D_HEAD (i : Nat) : Fld := ⟨(Rg.PCI_MQ_IDX i), 15, 0⟩
def Fd.PCI_MQ_IDX.H2D_TAIL (i : Nat) : Fld := ⟨(Rg.PCI_MQ_IDX i), 31, 16⟩
def Fd.PCI_MQ_IDX.D2H_HEAD (i : Nat) : Fld := ⟨(Rg.PCI_MQ_IDX i), 47, 32⟩
def Fd.PCI_MQ_IDX.D2H_TAIL (i : Nat) : Fld := ⟨(Rg.PCI_MQ_IDX i), 63, 48⟩
/-- `PWR_STAT`: Supply status (17_power_thermal_and_reset.md). -/
def Rg.PWR_STAT : Nat := 0x34000000
def Fd.PWR_STAT.FEED_A : Fld := ⟨Rg.PWR_STAT, 0, 0⟩
def Fd.PWR_STAT.FEED_B : Fld := ⟨Rg.PWR_STAT, 1, 1⟩
def Fd.PWR_STAT.HOLD_OK : Fld := ⟨Rg.PWR_STAT, 2, 2⟩
def Fd.PWR_STAT.HOLD_FAULT : Fld := ⟨Rg.PWR_STAT, 3, 3⟩
def Fd.PWR_STAT.PFW : Fld := ⟨Rg.PWR_STAT, 4, 4⟩
def Fd.PWR_STAT.FEED_CHG : Fld := ⟨Rg.PWR_STAT, 5, 5⟩
/-- `PWR_CTL`: Reset control (17_power_thermal_and_reset.md). -/
def Rg.PWR_CTL : Nat := 0x34000004
def Fd.PWR_CTL.WARM_RST : Fld := ⟨Rg.PWR_CTL, 0, 0⟩
def Fd.PWR_CTL.KEY : Fld := ⟨Rg.PWR_CTL, 15, 8⟩
/-- `PWR_IRQ_SRC`: Interrupt sources (17_power_thermal_and_reset.md). -/
def Rg.PWR_IRQ_SRC : Nat := 0x34000008
def Fd.PWR_IRQ_SRC.FEED_SRC : Fld := ⟨Rg.PWR_IRQ_SRC, 11, 0⟩
def Fd.PWR_IRQ_SRC.SPRINT_SRC : Fld := ⟨Rg.PWR_IRQ_SRC, 27, 16⟩
/-- `PWR_RST_CAUSE`: Last reset (17_power_thermal_and_reset.md). -/
def Rg.PWR_RST_CAUSE : Nat := 0x3400000c
def Fd.PWR_RST_CAUSE.KIND : Fld := ⟨Rg.PWR_RST_CAUSE, 2, 0⟩
def Fd.PWR_RST_CAUSE.SRC : Fld := ⟨Rg.PWR_RST_CAUSE, 7, 4⟩
/-- `PWR_SPRINT`: Sprint control (17_power_thermal_and_reset.md). -/
def Rg.PWR_SPRINT : Nat := 0x34000010
def Fd.PWR_SPRINT.REQ : Fld := ⟨Rg.PWR_SPRINT, 0, 0⟩
def Fd.PWR_SPRINT.ACTIVE : Fld := ⟨Rg.PWR_SPRINT, 1, 1⟩
def Fd.PWR_SPRINT.COOL : Fld := ⟨Rg.PWR_SPRINT, 2, 2⟩
def Fd.PWR_SPRINT.DISABLED : Fld := ⟨Rg.PWR_SPRINT, 3, 3⟩
def Fd.PWR_SPRINT.REFUSE : Fld := ⟨Rg.PWR_SPRINT, 7, 4⟩
/-- `PWR_COOL_END`: End of cooldown (64-bit) (17_power_thermal_and_reset.md). -/
def Rg.PWR_COOL_END : Nat := 0x34000018
def Fd.PWR_COOL_END.NS : Fld := ⟨Rg.PWR_COOL_END, 63, 0⟩
/-- `PWR_LEDGER_SPRINT`: Sprint ledger (64-bit) (17_power_thermal_and_reset.md). -/
def Rg.PWR_LEDGER_SPRINT : Nat := 0x34000020
def Fd.PWR_LEDGER_SPRINT.MS : Fld := ⟨Rg.PWR_LEDGER_SPRINT, 63, 0⟩
/-- `PWR_LEDGER_POWERED`: Powered time (64-bit) (17_power_thermal_and_reset.md). -/
def Rg.PWR_LEDGER_POWERED : Nat := 0x34000028
def Fd.PWR_LEDGER_POWERED.MS : Fld := ⟨Rg.PWR_LEDGER_POWERED, 63, 0⟩
/-- `PWR_RET`: Frame SRAM retention (17_power_thermal_and_reset.md). -/
def Rg.PWR_RET : Nat := 0x34000030
def Fd.PWR_RET.BANKS : Fld := ⟨Rg.PWR_RET, 27, 0⟩
/-- `PWR_VIN`: Input voltages (17_power_thermal_and_reset.md). -/
def Rg.PWR_VIN : Nat := 0x34000034
def Fd.PWR_VIN.VIN_A : Fld := ⟨Rg.PWR_VIN, 11, 0⟩
def Fd.PWR_VIN.VIN_B : Fld := ⟨Rg.PWR_VIN, 27, 16⟩
/-- `PWR_PIN`: Input power and store (17_power_thermal_and_reset.md). -/
def Rg.PWR_PIN : Nat := 0x34000038
def Fd.PWR_PIN.P_IN : Fld := ⟨Rg.PWR_PIN, 11, 0⟩
def Fd.PWR_PIN.VHOLD : Fld := ⟨Rg.PWR_PIN, 27, 16⟩
/-- `THM_TEMP`: Sensor k (17_power_thermal_and_reset.md). -/
def Rg.THM_TEMP (i : Nat) : Nat := 0x38000000 + 4 * i
def Fd.THM_TEMP.T (i : Nat) : Fld := ⟨(Rg.THM_TEMP i), 15, 0⟩
def Fd.THM_TEMP.VALID (i : Nat) : Fld := ⟨(Rg.THM_TEMP i), 16, 16⟩
/-- `THM_MAX`: Highest reading of sensor k (17_power_thermal_and_reset.md). -/
def Rg.THM_MAX (i : Nat) : Nat := 0x38000040 + 4 * i
def Fd.THM_MAX.T (i : Nat) : Fld := ⟨(Rg.THM_MAX i), 15, 0⟩
/-- `THM_CFG`: Thermal interrupt (17_power_thermal_and_reset.md). -/
def Rg.THM_CFG : Nat := 0x38000080
def Fd.THM_CFG.IRQ_SRC : Fld := ⟨Rg.THM_CFG, 11, 0⟩
def Fd.THM_CFG.IRQ_EN : Fld := ⟨Rg.THM_CFG, 12, 12⟩
/-- `THM_STAT`: Thermal status (17_power_thermal_and_reset.md). -/
def Rg.THM_STAT : Nat := 0x38000084
def Fd.THM_STAT.WARN : Fld := ⟨Rg.THM_STAT, 0, 0⟩
def Fd.THM_STAT.OVER : Fld := ⟨Rg.THM_STAT, 1, 1⟩
def Fd.THM_STAT.CASE_HIGH : Fld := ⟨Rg.THM_STAT, 2, 2⟩
/-- `THM_CTL`: Thermal control (17_power_thermal_and_reset.md). -/
def Rg.THM_CTL : Nat := 0x38000088
def Fd.THM_CTL.MAX_CLR : Fld := ⟨Rg.THM_CTL, 0, 0⟩

end Sys2Proof.Machine
end

