-- ==== Sys2Proof/Machine/Types.lean ====
section
/-! DEFINITION. The parts of the block's state, unit by unit, as plain data. Every type names the rules that give it.
Structured bytes that the spec places in addressed memory (tag records, gather slots, block instances, context records, rings)
are not here: they are bytes of `State.mem`. -/

namespace Sys2Proof.Machine

/-- A byte memory: (address, byte) pairs, addresses rising, no byte equal to what an unlisted address reads as. -/
abbrev Memory := List Host.Cell

/-- A sparse table by number: keys rising, no value equal to the default. -/
abbrev Table (α : Type) := List (Nat × α)

/-- What the last read or write gave back to its requester: data, in a word or as bytes where it is longer, a normal completion, or a bus
error (R18, R27). -/
inductive Response where
  | data (v : Word)
  | bytes (bs : List Byte)
  | ok
  | busError
deriving DecidableEq, Repr

/-- A held half of a 64-bit register, tagged with the register's window offset (R19). -/
structure HalfWord where
  reg : Nat
  v   : Word32
deriving DecidableEq, Repr

/-- Privilege levels of the cores (R340). -/
inductive Level where
  | u | s | e
deriving DecidableEq, Repr

/-! ### Start (chapter 2) -/

/-- How far the start sequence has come (the rows of R65). -/
inductive StartPhase where
  | unpowered       -- below lockout
  | rising          -- the always-on domain has started, power good is awaited
  | rom             -- power good: the ROM runs
  | romDone         -- firmware verified; the main side may be released
  | heldReset       -- Heartwood runs; the main side waits for every reset cause to end
  | abandoned       -- a power-fail warning came before start completed (R67)
  | wiping          -- main side released, wipe running
  | reading         -- the selected slot is being read
  | checked10       -- steps 1 to 10 passed
  | checked13       -- steps 11 to 13 passed
  | loaded          -- sections loaded
  | done            -- start complete
deriving DecidableEq, Repr

/-- The staging of an update (R71-R73). -/
structure Staging where
  slot : Nat
  image : List Byte
  mailbox : Nat
deriving DecidableEq, Repr

structure StartSt where
  phase      : StartPhase := .unpowered
  slot       : Nat := 0            -- slot being read or run, 0 A, 1 B
  named      : Nat := 0            -- slot the boot pointer named at start
  tried      : List Nat := []      -- slots already rejected in this start
  bpCopy     : Option Nat := none  -- boot pointer copy in use (R50)
  readOff    : Nat := 0            -- the flash read in progress, and its failures (R60)
  readFails  : Nat := 0
  badReads   : List Nat := []      -- offsets of reads that failed three times, newest first
  recovery   : Bool := false       -- the ROM's recovery firmware runs (R452)
  plain      : List Byte := []     -- the running or checked image, decrypted
  bpWrite    : Option Nat := none  -- a boot pointer write that is due: the slot it names
  staging    : Option Staging := none
deriving DecidableEq, Repr

/-! ### Groves (chapter 8) -/

/-- A grove record (R274). Unit sets are bitmaps. -/
structure GroveRec where
  exec      : Bool := false
  pmcUser   : Bool := false
  role      : Nat := 0
  partner   : Nat := 0
  budget    : Nat := 0
  cores     : Nat := 0
  lanes     : Nat := 0
  engines   : Nat := 0
  ports     : Nat := 0
  tagFirst  : Nat := 0
  tagCount  : Nat := 0
  ctxFirst  : Nat := 0
  ctxCount  : Nat := 0
  irqFirst  : Nat := 0
  irqCount  : Nat := 0
  sram      : Nat := 0
  bwShare   : Nat := 0
  mem       : List (Nat × Nat) := []    -- ranges of GDDR7 grains: first, count
  trackBase : Nat := 0
  trackBytes : Nat := 0
  xbufBase  : Nat := 0
  bootPc    : Nat := 0
  bootArg   : Nat := 0
  layoutId  : Nat := 0
deriving DecidableEq, Repr

/-- What a grove has asked of the next tick (R279, R299, R301). -/
inductive TickAsk where
  | none | start | thaw | promote | depose | handover
deriving DecidableEq, Repr

/-- A grove of the device: its record, its work in the current frame, its pair and freeze state. The visible state and flags
stand in `GRV_STATg` and `FRM_GRV_STATg`. -/
structure GroveSt where
  cfg        : GroveRec := {}
  ask        : TickAsk := .none
  -- the frame in progress (R85, R94-R96)
  cTime      : Option Nat := none      -- C(g)
  sTime      : Option Nat := none      -- S(g)
  computing  : Bool := false           -- the Compute interval is open
  staging    : Bool := false           -- commit staging runs
  faulted    : Bool := false           -- a strand faulted or a task expired: compute cannot complete
  relTime    : Option Nat := none      -- instant at which the first RELEASE since it was last armed was accepted (R108)
  noRelease  : Option Nat := none      -- took over at this frame's tick: its first release is at the next tick (R298)
  created    : Bool := false           -- made by CREATE (R280)
  fsFrom     : Option Nat := none      -- a freeze with ARG 1 enters fail-safe at this frame's tick (R291)
  fsAfter    : Option Nat := none      -- fail-safe was entered at this frame's D: its own releases are not yet in it (R107)
  fsLeft     : Option Nat := none      -- fail-safe ended in this frame: its own releases are still in it (R108)
  fwPending  : List (Nat × Word × Nat) := [] -- firewall writes not yet applied everywhere: entry, old value, place in the order of writes (R287)
  -- freeze (R291)
  freezeArg  : Option Nat := none      -- a freeze is pending, with its ARG
  freezeFrame : Nat := 0               -- frame of its freeze point
  freezeTick : Nat := 0                -- tick index of the last freeze point (R292)
  freezing   : Bool := false           -- the freeze point is reached, contexts are stopping
  -- drain and clear (R288-R290)
  destroying : Bool := false
  -- pair (R294-R301)
  xFrame     : Option Nat := none      -- tick index of the tracking frame being received
  xBytes     : List Nat := []          -- offsets (units of 40 bytes) that have arrived
  xEnd       : Option (Nat × Nat × Bool) := none  -- end cell: SIZE, CRC, OVERRUN
  xHandover  : Bool := false
  xApply     : Bool := false           -- an apply is running
  acksMissed : Nat := 0
  ackWait    : List Nat := []          -- frames whose end cell awaits its acknowledgement
  handover   : Bool := false           -- SWITCH: the next end cell carries HANDOVER
  switchAt   : Option Nat := none      -- standby: take over at the tick after this tick index
  saveRecv   : Table (List Byte) := [] -- a freeze image arriving by XFER: 40 bytes by OFFSET
  acked      : Bool := false           -- an end cell has been acknowledged since this grove became primary (log 22)
  relFrame   : Bool := false           -- SWITCH: frame j is still released after the grove is STANDBY (R301)
deriving DecidableEq, Repr

/-- The grove command in progress (R281). -/
structure GroveCmd where
  op    : Nat
  grove : Nat
  arg   : Nat
  addr  : Nat
deriving DecidableEq, Repr

/-! ### The scan frame (chapter 3) -/

/-- A task record (R113) and what the frame has made of it. -/
structure Task where
  grove  : Nat
  core   : Nat
  cls    : Nat
  order  : Nat
  ctx    : Nat
  budget : Nat
  entry  : Nat
  arg    : Nat
  waited : Bool := false    -- has executed FRAME.WAIT in this frame
  ranOut : Bool := false    -- its budget expired in this frame
  fresh  : Bool := true     -- has never been dispatched
deriving DecidableEq, Repr

structure FrameSt where
  m       : Nat := 0                  -- tick index of T(n) (R77)
  eTime   : Option Nat := none        -- E(n)
  sweepClk : Nat := 0                 -- engine clocks of the sweep in progress (R138)
  swept   : Nat := 0                  -- tags that occupy a pipe in it
  decided : Bool := false             -- D(n) has been decided
  tasks   : List Task := []
  afterReset : Bool := true           -- no tick since the main side's release: the counter may step once (R79)
  stopped : Bool := false             -- ticks stopped by the power-fail sequence (R512)
  abandoned : Bool := false           -- the power-fail sequence has abandoned the frame in progress (R512)
deriving DecidableEq, Repr

/-! ### The Signal Engine (chapter 4) -/

/-- The runtime entry of a tag (R141). -/
structure TagRt where
  prevValid : Bool := false
  prev      : Word := 0
  miss      : Nat := 0
  changed   : Bool := true
  swept     : Bool := false
  key       : Nat := 0
  keyFrame  : Option Nat := none      -- frame of the stored order key (R136)
deriving DecidableEq, Repr

/-- An entry of the alarm write buffer (R148): its grove, the frame of the sweep that produced it (R149), its 64 bytes. -/
structure AlarmItem where
  grove : Nat
  frame : Nat
  bytes : List Byte
deriving DecidableEq, Repr

structure SignalSt where
  rt         : Table TagRt := []
  curveCount : Nat := 0
  alarmBuf   : List AlarmItem := []      -- oldest first
  markers    : Table Nat := []           -- per ring: entries lost since the last marker (R148)
  ringTest   : List (Nat × Nat) := []    -- rings whose threshold test is due, and the frame of its sweep (R149)
  bellAt     : Table Nat := []           -- per ring: one more than the frame of its last doorbell (R149)
  mirrored   : Bool := false             -- this sweep has placed an entry in a mirrored ring (R503)
deriving DecidableEq, Repr

/-! ### The Loop Engine (chapter 5) -/

/-- A strand record (R184). -/
structure Strand where
  lane  : Nat
  cls   : Nat
  order : Nat
  first : Nat
  count : Nat
deriving DecidableEq, Repr

/-- A call slot (R177) and its pending call. -/
structure CallSlot where
  grove   : Nat
  budget  : Nat
  inst    : Nat                   -- the CALL instance that names the slot
  since   : Option Nat := none    -- TIME_NOW of the doorbell write of the pending call (R179)
deriving DecidableEq, Repr

/-- A lane register: binary32 bits and class (R157). -/
structure LVal where
  v : Nat := 0
  c : Nat := 2
deriving DecidableEq, Repr

/-- A lane (R153-R157, R169): the strand it runs, the next instance, its lane registers, its clock since E(n). -/
structure LaneSt where
  strands  : List Strand := []       -- strands still due in this frame, the running one first
  block    : Option Nat := none      -- instance that executes next
  regs     : Table LVal := []
  t        : Nat := 0                -- engine clocks since E(n)
  calling  : Bool := false           -- a CALL block waits for DONE
  stopped  : Bool := false           -- stopped for the rest of the frame (R105, R288)
  faultTold : Bool := false          -- the fault doorbell of this frame has been written
deriving DecidableEq, Repr

/-- A held tuning write (R182). -/
structure HeldWrite where
  who  : Nat      -- requester number
  addr : Nat
  size : Nat
  v    : Word
deriving DecidableEq, Repr

structure LoopSt where
  strands    : List Strand := []
  slots      : List CallSlot := []
  instances  : Nat := 0
  lanes      : Table LaneSt := []
  flagTime   : Table Nat := []             -- set time of each flag due or set, engine clocks since E(n)
  tuneBuf    : Table (List HeldWrite) := []   -- per grove, arrival order
deriving DecidableEq, Repr

/-! ### Field ports (chapter 6) -/

/-- A template field (R200, R201). -/
structure TplField where
  fmt    : Nat
  off    : Nat
  bitpos : Nat
  qact   : Nat
  tag    : Nat
  fs     : Nat
deriving DecidableEq, Repr

/-- A staged frame: the frame number of the commit and its bytes. -/
structure Staged where
  frame : Nat
  bytes : List Byte
deriving DecidableEq, Repr

/-- A transmit template (R199), its two staging buffers (R97) and its R-TAG sequence (R208). -/
structure Template where
  port    : Nat
  cls     : Nat
  tc      : Nat
  image   : List Byte
  fields  : List TplField
  filling : Option Staged := none     -- the buffer being filled
  prev    : Option Staged := none     -- the other buffer, until the next commit begins
  last    : Option Staged := none     -- the buffer of the last completed commit
  seq     : Nat := 0
deriving DecidableEq, Repr

/-- Where a queued frame came from. -/
inductive TxKind where
  | template (t : Nat)
  | software (e ch frame : Nat) (tsReq : Bool)
  | ptp (kind : Nat)
deriving DecidableEq, Repr

/-- A frame waiting or on the wire. -/
structure TxFrame where
  kind  : TxKind
  bytes : List Byte
deriving DecidableEq, Repr

/-- A receive stream of a CB pair (R209): its recovery state. -/
structure CbStream where
  pair    : Nat
  smac    : Nat
  vid     : Nat
  next    : Option Nat := none    -- last accepted sequence number (none: take any)
  history : Nat := 0              -- 32 bits, bit 0 the last accepted number
  last    : Nat := 0              -- when a frame of the stream last arrived
deriving DecidableEq, Repr

/-- A field port's queues and wire (R203-R207), its DMA channel (R215), its PTP state (R211). -/
structure PortSt where
  queues   : Table (List TxFrame) := []   -- by TC, in sending order
  wire     : Option TxFrame := none
  wireAt   : Nat := 0                     -- transmit timestamp of the frame on the wire
  dma      : Nat := 0                     -- engine * 16 + channel
  gateAt   : Option Nat := none           -- instant at which the gate entry in force began (R206)
  released : Option Nat := none           -- frame in which, or after which, this port has released its templates last (R203)
  pfReleased : Bool := false              -- the power-fail release has begun: the gate list is ignored (R513)
  syncSeq  : Nat := 0
  annSeq   : Nat := 0
  pdSeq    : Nat := 0
  pdT1     : Option Nat := none           -- transmit timestamp of the last Pdelay_Req
  pdelay   : Nat := 0                     -- measured peer delay, ns
  rxQueue  : List (Nat × RxFrame) := []   -- frames for the receive queues, oldest first
deriving DecidableEq, Repr

structure FieldSt where
  maps      : List (List Byte) := []      -- map entries, 32-byte records, in entry order (R193)
  templates : Table Template := []
  streams   : List CbStream := []
  ports     : Table PortSt := []
  stepped   : Bool := false               -- the first Sync has been taken (R213)
  goodSyncs : Nat := 0
  lastSync  : Option Nat := none          -- local time of the last valid Sync
  sent      : List (Nat × TxFrame) := []  -- frames that have left, newest first, with their port (an output)
deriving DecidableEq, Repr

/-! ### Cores and contexts (chapters 9 and 10) -/

/-- The architectural state of a loaded context (R344). CSRs are kept by number. -/
structure Ctx where
  x     : Table Word := []
  f     : Table Word := []
  pc    : Word := 0
  fcsr  : Nat := 0
  level : Level := .u
  csr   : Table Word := []
deriving DecidableEq, Repr

/-- An entry of the store buffer (R320). -/
structure StoreEntry where
  addr : Nat
  size : Nat
  v    : Word
  dev  : Bool        -- device type or uncached window: drains to the fabric
  nc   : Bool        -- normal non-cacheable: performed at the home
  rt   : Bool
  va   : Nat := 0    -- a device-ordered store retires at its drain (R400): its address and instruction length
  len  : Nat := 0
deriving DecidableEq, Repr

/-- An entry of the Region Lookaside Buffer (R363). -/
structure RlbEntry where
  vbase : Nat
  pbase : Nat
  pages : Nat
  attr  : Nat
deriving DecidableEq, Repr

/-- A walk in progress (R360): the address, what for (0 fetch, 1 load, 2 store or atomic), the remaining step, b, the entries
of the last line whose comparison held. -/
structure Walk where
  va    : Nat
  kind  : Nat
  step  : Nat
  b     : Nat
  line  : List Byte
deriving DecidableEq, Repr

/-- The result of a walk of an instruction that has not yet retired (R361): for a fetch or not; none: no entry. -/
structure Walked where
  va    : Nat
  fetch : Bool
  entry : Option RlbEntry
deriving DecidableEq, Repr

/-- State of a line in an L1D or an L2 (R370). -/
inductive LineState where
  | m | e | s
deriving DecidableEq, Repr

/-- What a miss is for (R328): a line of L1D or L1I, an entry of the shadow buffer, a fetch of non-cacheable memory. -/
inductive MissKind where
  | data | fetch | spec | nc
deriving DecidableEq, Repr

/-- An outstanding miss: its line, what it is for, its service class. -/
structure Miss where
  line : Nat
  kind : MissKind
  rt   : Bool
deriving DecidableEq, Repr

/-- A load of the load queue that executes ahead of its turn (R315, R322, R328): its place in program order (the number of
instructions the core retires before it), its bytes by part, whether it has executed, how often it has been re-executed. -/
structure EarlyLoad where
  age     : Nat
  parts   : List (Nat × Nat)
  ran     : Bool
  replays : Nat
deriving DecidableEq, Repr

/-- What an entry of the BTB is for (R331). -/
inductive BranchKind where
  | branch | jump | call | ret
deriving DecidableEq, Repr

/-- An entry of the BTB: its target and its kind. -/
structure BtbEntry where
  target : Nat
  kind   : BranchKind
deriving DecidableEq, Repr

/-- A far atomic sent to the home (R388): the instruction and the value of its rs2, its physical address, its service class, its virtual
address and length. -/
structure FarAtomic where
  insn : Nat
  v    : Nat
  addr : Nat
  rt   : Bool
  va   : Nat
  len  : Nat
deriving DecidableEq, Repr

/-- A core (R303-R366). -/
structure CoreSt where
  ctx       : Ctx := {}
  ctxId     : Option Nat := none       -- running context
  halted    : Bool := false            -- stopped by debug
  lastGrove : Option Nat := none
  cycle     : Word := 0
  instret   : Word := 0
  pcsr      : Table Word := []         -- PMC_CTL, PMC_STAT, PMC_EVTn, PMCn (per core)
  sb        : List StoreEntry := []    -- oldest first
  rsv       : Option Nat := none       -- reserved line (R305)
  rlb       : List RlbEntry := []      -- in fill order, oldest first
  walk      : Option Walk := none
  walked    : List Walked := []        -- finished walks of the instruction in progress
  partialWait : Bool := false          -- the load in progress has waited on a partial overlap (R321)
  far       : Option FarAtomic := none -- a far atomic at the home
  stepping  : Bool := false            -- halts again after the next instruction (debug)
  fwait     : Option Nat := none       -- FRAME.WAIT in a non-real-time context: its rd (R311)
  task      : Option Nat := none       -- running task, an index of `FrameSt.tasks`
  rtRd      : Table Nat := []          -- per task: rd + 1 of the FRAME.WAIT it is dormant in (R310)
  dispatch  : Nat := 0                 -- when its budget timer was loaded
  budget    : Nat := 0                 -- budget loaded at dispatch
  suspended : Option Nat := none       -- context suspended by a real-time dispatch
  suspCtx   : Ctx := {}                -- its state
  suspWait  : Option Nat := none       -- its FRAME.WAIT, if it was in one
  resume    : Bool := false            -- suspended by a freeze or stopped grove: resumes on THAW
  fence     : Option Nat := none       -- FENCE.GROVE in progress: firewall writes accepted before it began (R287)
  pht       : Table Nat := []          -- pattern table counters that differ from 0b01
  ghr       : Nat := 0
  btb       : Table BtbEntry := []     -- retired taken branches, by PC
  ras       : List Nat := []
  l1d       : List (Nat × LineState) := [] -- lines present, the last filled first
  l1i       : List Nat := []
  shadow    : List Nat := []           -- lines in the speculation shadow buffer
  misses    : List Miss := []          -- misses outstanding, oldest first
  lq        : List EarlyLoad := []     -- loads that execute ahead of their turn, in program order
  used      : List (Nat × Bool) := []  -- lines the instruction in progress takes from the shadow buffer, with fetch or not
  fetchEvs  : List Nat := []           -- events of the fetch of the instruction in progress (R335)
  fetchBuf  : List Nat := []           -- lines of non-cacheable memory fetched for it
  issued    : Bool := false            -- its device-ordered access has been issued to the fabric (R319)
  pmcAt     : Nat := 0                 -- core clock up to which its condition events are counted (R334)
  prefetch  : Word := 0                -- training of the data prefetcher, by retired loads alone (R329)
deriving DecidableEq, Repr

/-! ### Cascade (chapter 7) -/

/-- The System record (R58). -/
structure SystemRec where
  device   : Nat := 0
  sizeX    : Nat := 1
  sizeY    : Nat := 1
  sizeZ    : Nat := 1
  taproot  : Nat := 0
  standby  : Nat := 0
  systemId : Nat := 0
deriving DecidableEq, Repr

/-- A cell waiting at a Hawser port; a Replication cell remembers the grove and frame that published it. A cell on its way through this
device stands in the receive queue of the port it came by until it leaves (R227). -/
structure TxCell where
  bytes : List Byte
  pub   : Option (Nat × Nat) := none
  held  : Option (Nat × Nat) := none  -- the receiving port and queue that hold it
  rxT   : Option Nat := none        -- BEAT and DRSP: receive timestamp, units of 2^-16 ns (R246, R247)
deriving DecidableEq, Repr

/-- A link frame that has been sent (an output): port, transmit timestamp in 2^-16 ns, the bytes of its blocks, and the cell before
encryption (none: a start block that only returns credits). -/
structure SentFrame where
  port  : Nat
  at_   : Nat
  bytes : List Byte
  cell  : Option (List Byte)
deriving DecidableEq, Repr

/-- A Hawser port (R220-R247). The visible state stands in `CAS_PORT_STATp`. -/
structure HawserSt where
  began     : Nat := 0                   -- when the bring-up in progress began (R229)
  retry     : Option Nat := none         -- when bring-up begins again after a failure (R233)
  keys      : Option (List Byte) := none -- the 72 bytes of keys and salts of R231 while the link is keyed
  txSeq     : Nat := 0                   -- LSEQ of the last link frame sent (R225)
  rxSeq     : Nat := 0                   -- extended LSEQ of the last accepted frame (R226)
  queues    : Table (List TxCell) := []  -- cells waiting, by 3 * class + VC
  spent     : Table Nat := []            -- credits spent at the neighbour, of 32 by queue (R227)
  owed      : Table Nat := []            -- credits to return, by queue
  turn      : Table Nat := []            -- VC whose turn is next, by class (R228)
  sinceMgmt : Nat := 0                   -- link frames since the last Management cell
  authTimes : List Nat := []             -- times of recent authentication failures, newest first
  helloRx   : Option (List Byte) := none -- HELLO payload received in this bring-up
  helloTx   : List Byte := []            -- HELLO payload sent in this bring-up
  certRx    : Table (List Byte) := []    -- CERT and KEYX chunks received, by CHUNK
  keyxRx    : Table (List Byte) := []
  keyxTx    : List Byte := []            -- this side's nonce, point and signature
  mgmtTx    : List Byte := []            -- Management cells of this bring-up, sent and received (R231)
  mgmtRx    : List Byte := []
  dreqSeq   : Nat := 0
  dreqT1    : Option Nat := none         -- transmit timestamp of the outstanding DREQ, 2^-16 ns
  samples   : List Int := []             -- delay samples of the bring-up, 2^-16 ns
  mean      : Int := 0                   -- M (R247), 2^-16 ns
  ready     : Bool := false              -- measured: up at the next tick (R229)
  diag      : Option (List Byte) := none -- payload returned by the last DIAG_RSP
deriving DecidableEq, Repr

/-- A message tag (R260). -/
structure MTag where
  isOpen : Bool := false
  gen    : Nat := 0
  grove  : Nat := 0
  desc   : Option Nat := none   -- descriptor index; none: a transfer of the freeze unit
  expiry : Nat := 0             -- tick index of T(EXPIRY)
  squashed : Bool := false      -- its grove was reset (R288)
deriving DecidableEq, Repr

/-- The message doorbell of a grove (R265): when it was last written, and whether one is deferred. -/
structure MsgBell where
  last     : Option Nat := none
  deferred : Bool := false
deriving DecidableEq, Repr

structure CascadeSt where
  sys       : SystemRec := {}
  ports     : Table HawserSt := []
  publish   : List (List Byte) := []     -- publish records (R266)
  subscribe : List (List Byte) := []     -- subscribe records
  resilience : Nat := 0
  loads     : Table Nat := []            -- LOAD_CELLS by port (R266)
  seen      : List (Nat × Nat) := []     -- tick index and epoch of the BEATs accepted or sent, newest first (R246)
  missTick  : Option Nat := none         -- tick index of the last miss counted (R250)
  epochSeen : Nat := 0                   -- highest epoch accepted
  prevBeat  : Option (Int × Int) := none -- r and a of the previous BEAT, 2^-16 ns (R248)
  goodRun   : Nat := 0                   -- consecutive BEATs with |o| at most 4 ns, up to 16
  missArmed : Bool := false              -- three misses: the standby takes over at the next tick (R251)
  sending   : Bool := false              -- this device sends BEATs (R244)
  startedAt : Nat := 0                   -- when start completed (R252)
  startHold : Bool := false              -- the Taproot's first second after start completion (R252)
  mtags     : Table MTag := []
  bells     : Table MsgBell := []
  issued    : Table Nat := []            -- per grove: next descriptor to issue
  completed : Table (List Nat) := []     -- per grove: descriptors completed out of order
  sent      : List SentFrame := []       -- link frames sent, newest first (an output)
deriving DecidableEq, Repr

/-! ### Caches, coherence and main memory (chapter 11) -/

/-- A directory entry (R370, R385): U or S, presence bits of the four clusters, the order of its allocation, its way. -/
structure DirEntry where
  unique   : Bool
  presence : Nat
  age      : Nat
  way      : Nat
deriving DecidableEq, Repr

/-- The request kinds of R382. -/
inductive ReqKind where
  | readShared (fetch : Bool) | readUnique | upgrade | readSpec | writeBack | evict | readCurrent | writeInv | atomicFar
deriving DecidableEq, Repr

/-- A request at a home: kind, cluster or none for a non-caching agent, line, service class; the retries so far, whether it holds a
reservation, and the way held for it (R386); a non-caching agent's number, address, bytes to write or size to read. -/
structure HomeReq where
  kind     : ReqKind
  cluster  : Option Nat
  line     : Nat
  rt       : Bool
  retries  : Nat := 0
  reserved : Bool := false
  way      : Option Nat := none
  core     : Nat := 0            -- the core of a ReadSpec, an AtomicFar or a request of a core's own row
  own      : Bool := false       -- a request of a core's own row, which presents it again itself (log 35)
  queued   : Bool := false       -- another AtomicFar for the line was queued when this one arrived (R389)
  who      : Nat := 0
  addr     : Nat := 0
  size     : Nat := 0
  bytes    : List Byte := []
deriving DecidableEq, Repr

/-- An open transaction of a line (R383): the request, the clusters whose snoop response is awaited, whether the data has gone to the
requester, so that only its acknowledgement is awaited. -/
structure OpenTx where
  req       : HomeReq
  snoops    : Nat := 0          -- bitmap of clusters still to answer
  snooped   : Bool := false     -- a holder had to be snooped (R389)
  dif       : Option Nat := none  -- waits for the crossing WriteBack of this cluster (R384)
  finished  : Bool := false
  way       : Option Nat := none  -- the directory way of its entry (R386)
deriving DecidableEq, Repr

structure CohSt where
  dir      : Table DirEntry := []          -- by line number
  dirSeq   : Nat := 0
  l2       : Table (List (Nat × LineState)) := [] -- by cluster: lines present, most recent first
  wbPending : Table (List Nat) := []       -- write-backs sent and not acknowledged, by cluster
  l3       : List (Nat × Bool) := []       -- lines present, most recent first, and whether they are newer than GDDR7
  opened   : Table OpenTx := []            -- by line
  waiting  : List HomeReq := []            -- requests waiting for a blocked line, arrival order
  retry    : List HomeReq := []            -- requests answered Retry, oldest first
  contention : Table (Table Nat) := []     -- contention predictors, by core (R389)
  failed   : List Nat := []                -- failed lines (R399)
  macFailed : List Nat := []               -- those of them that fail their MAC
  stale    : Bool := false                 -- GDDR7 holds lines of destroyed memory keys: they fail their MAC (R441)
  fresh    : List Nat := []                -- lines written whole since
  poisoned : List Nat := []                -- poisoned 8-byte words of Frame SRAM and Tag Store (R374)
  rtTurn   : Table Nat := []               -- accounted real-time accesses of the turn, by grove (R395)
  rtRecent : List (Nat × Nat) := []        -- times and groves of real-time accesses of the last 250 ns
  waking   : List Nat := []                -- Frame SRAM banks waking from retention
  wiping   : Bool := false                 -- a wipe of the sealed bank runs (R377)
  rebuild  : Option Nat := none            -- the device that a rebuild in progress spares (R402)
  fwSeq    : Nat := 0                      -- firewall writes accepted so far (R287)
deriving DecidableEq, Repr

/-! ### Power, thermal limits and reset (chapter 17) -/

structure PowerSt where
  sprintSince : Option Nat := none   -- time at which the sprint in progress began (R519)
  clkAdj      : Int := 0             -- core clock cycles beyond 2.0 GHz gained in earlier sprints, less the steps of the time counter (R79)
  sprintHot   : Bool := false        -- a junction sensor has read 101 °C or more in it (R520)
  warnedAt    : Nat := 0             -- w of the power-fail sequence in progress (R512)
  rstHeld     : List Nat := []       -- reset causes still present, by `PWR_RST_CAUSE.SRC` (R516, R517)
  feedA       : Bool := false        -- feed A, feed B at or above 35 V (R510): the facts that `PWR_STAT` shows
  feedB       : Bool := false
  holdOk      : Bool := false        -- the hold-up store at or above 68 V; not charged (R511)
  holdFault   : Bool := false
  disarmed    : Bool := false        -- a warning has come and VIN has not risen above 35 V since (R510)
deriving DecidableEq, Repr

/-- Output lands whose level is no register (R532, R534): the last edge of each. -/
structure PinSt where
  tickOut : Option Nat := none   -- `TICK_OUT`, high for 1 µs from it
  ppsOut  : Option Nat := none   -- `PPS_OUT`, high for 100 µs from it
  xspiReset : Option Nat := none -- `XSPI_RESET_N`, low for 10 µs from it: the last start of the always-on domain
deriving DecidableEq, Repr

/-! ### DMA engines (chapter 13) -/

/-- What a descriptor that completes is written back with (R425). -/
structure WriteBack where
  status : Nat
  queue  : Nat
  xlen   : Nat
  tstamp : Nat
deriving DecidableEq, Repr

/-- The job an engine runs (R424): its channel, the latched HEAD, the bytes of the descriptor in progress, the next element; a
transmit job waits for its frame to leave (R435). -/
structure DmaJob where
  ch    : Nat
  latch : Nat
  desc  : Option (List Byte) := none
  elem  : Nat := 0
  moved : Nat := 0                 -- bytes moved
  buf   : Option (List Byte) := none -- the element has been read and waits to be written
  sent  : Option Nat := none       -- MODE 2 with TS_REQ: the number of its frame, which is in its TC buffer
  ended : Option WriteBack := none -- the descriptor is complete but for its write-back, which waits
deriving DecidableEq, Repr

/-- An engine: the channel it served last, the frames it has put into TC buffers, and its job. -/
structure DmaEng where
  last : Option Nat := none
  frames : Nat := 0
  job  : Option DmaJob := none
deriving DecidableEq, Repr

/-- A channel: a stop that waits for a descriptor boundary (R436), and RUN as a freeze found it (R291). -/
structure DmaCh where
  stop   : Bool := false
  frozen : Bool := false
deriving DecidableEq, Repr

structure DmaSt where
  engines  : Table DmaEng := []
  channels : Table DmaCh := []     -- by 16 * engine + channel
deriving DecidableEq, Repr

/-! ### Host interface (chapter 16) -/

/-- An outbound read that waits for its completions, or whose result its requester has not yet taken (R507). -/
structure ObRead where
  req    : Nat                           -- requester number
  addr   : Nat
  size   : Nat
  result : Option (Option Nat) := none   -- some none: it failed
deriving DecidableEq, Repr

/-- A snapshot window: snapshots begun, and whether the writes of the last are in progress (R502). -/
structure SnapSt where
  k       : Nat := 0
  writing : Bool := false
deriving DecidableEq, Repr

/-- The MSI-X state of a function (R496). -/
structure MsixSt where
  enabled : Bool := false
  masked  : Nat := 0
  pending : Nat := 0
deriving DecidableEq, Repr

structure PciSt where
  msix     : Table MsixSt := []
  signals  : List (Nat × Nat) := []      -- function and vector signalled, newest first (an output)
  reads    : Table ObRead := []
  nextRead : Nat := 0
  writes   : List (Nat × List Byte) := []  -- outbound writes posted, newest first: host address, bytes (an output)
  snaps    : Table SnapSt := []
  copied   : Option Nat := none          -- frame whose snapshots have been taken
  retryTo  : Nat := 0                    -- configuration requests get Retry Status until then (R491)
deriving DecidableEq, Repr

/-! ### The metrology enclave (chapter 15) -/

/-- What the enclave stores at every publication boundary (R467): the energy registers by number (import 4f + t, export 16 + 4f + t,
reactive 32 + 4f + q), their residues in units of 2^-32 mWh (R473), the pulse counts, the active tariff. -/
structure MetAcc where
  energy  : Table Nat := []
  residue : Table Nat := []
  pulses  : Table Nat := []
  tariff  : Nat := 0
deriving DecidableEq, Repr

/-- A command on the command link (R487). -/
structure MetCmd where
  op  : Nat
  tag : Nat
  arg : Nat
deriving DecidableEq, Repr

/-- The parameters at manufacture (R482): gains 1.0 stand for the factory calibration, which no rule gives (log 4). -/
def metFactory : Table Nat :=
  ([(0x00, 12), (0x20, 12), (0x60, 4), (0x80, 4), (0xA0, 8)] : List (Nat × Nat)).flatMap fun e =>
    (List.range e.2).map fun i => (e.1 + i, 0x3F800000)

/-- The enclave's own state; the `MET_` registers are the main side's window (R464, R485). -/
structure MetSt where
  running   : Bool := false                -- the converter is on and the core runs
  backup    : Bool := false                -- a cell is connected to `MET_VBAT` (R468); no command changes it
  version   : Nat := 0                     -- VERSION and the expected CHECKSUM (R478), programmed at manufacture
  expected  : Nat := 0
  checksum  : Nat := 0                     -- CHECKSUM last computed
  checkErr  : Bool := false
  acc       : MetAcc := {}
  stored    : MetAcc := {}                 -- the last complete store and its enclave time
  storedAt  : Nat := 0
  clockOfs  : Int := 0                     -- enclave clock less device time (R468)
  clockValid : Bool := false
  sealed    : Bool := false                -- `MET_SEAL_N` is low (R483)
  pfStored  : Bool := false                -- the power-fail store has been made (R467)
  faults    : Nat := 0                     -- converter channels at fault, a mask
  inst      : Table Nat := []              -- instantaneous values 10f + j, binary32
  second    : Table Nat := []              -- secondary values 7f + j of MEASURE: U, I of the phases, p
  overs     : Table Nat := []              -- inputs beyond full scale in the last interval, by feeder
  gateN     : Nat := 0                     -- boundaries of the 1 s gate so far (R474)
  gateCnt   : Table Nat := []              -- edges in it
  pfreq     : Table Nat := []              -- edges of the last complete gate
  slots     : List (Nat × Nat) := []       -- consumed OTP slots, oldest first: commit time, CRC (R479)
  copyA     : Table Nat := metFactory      -- parameter copies (R470), by ID
  copyB     : Table Nat := []
  useB      : Bool := false                -- the copy in use
  params    : Table Nat := metFactory      -- the committed set
  active    : Table Nat := metFactory      -- the set the interval in progress uses (R484 step 5)
  useTariff : Nat := 0                     -- the tariff of the interval in progress (R487)
  pendSet   : Option (Table Nat) := none   -- the pending set of a session, and how many values have been written
  written   : Nat := 0
  log       : List (List Byte) := []       -- newest first, at most 1,024
  logNext   : Nat := 0
  cmd       : Option MetCmd := none        -- a command that awaits its boundary
  lastCmd   : MetCmd := { op := 0, tag := 0, arg := 0 }
  lastResult : Nat := 0
  adjusts   : List (Nat × Nat) := []       -- accepted adjustments: enclave time, magnitude in ms, newest first
  snapSeq   : Nat := 0
  snapTime  : Nat := 0
  snap      : Table Nat := []              -- energy registers of the last snapshot
  logOut    : List (List Byte) := []       -- entries of the last READ_LOG
  seq       : Nat := 0                     -- `MET_SEQ`
  calOut    : Option (List Byte) := none   -- the last response on `MET_CAL_TX` (an output)
deriving DecidableEq, Repr

/-! ### Security (chapter 14) -/

/-- An owner key slot in OTP (R447): the digest programmed, if any, and its valid marker. -/
structure OwnerSlot where
  digest : List Byte
  valid  : Bool
deriving DecidableEq, Repr

/-- A lifecycle change, a limited change or both (R443, R446), from its audit entry to the end of its step 2. -/
structure Change where
  seq     : Nat                              -- SEQ of the audit entry that R445 follows up
  mailbox : Nat
  lc      : Option Nat                       -- the state a lifecycle change goes to
  counter : Option Nat                       -- the OTP counter it steps, as in `copies`
  key     : Option (Nat × List Byte × List Byte)   -- an owner key install: slot, digest, certificate
deriving DecidableEq, Repr

/-- A mailbox (R448, R459, R460): request or response data, the command in progress, the nonce. -/
structure MailboxSt where
  nonce  : Option (List Byte × Nat) := none   -- value and time of issue
  fails  : Nat := 0                           -- consecutive AUTH or NONCE results
deriving DecidableEq, Repr

/-- Heartwood: OTP, MRAM and the mailboxes. -/
structure SecSt where
  copies    : Table Nat := []             -- the MRAM copies of the OTP counters (R446): 0 owner installs, 1 SERVICE entries, 2 anti-rollback
  margin    : List Nat := []              -- counters whose next cell was left with a margin that is not clean (R446)
  change    : Option Change := none       -- a change whose audit entry is written and whose step 2 is not done (R444, R445)
  fwWriting : Option (Nat × List Byte) := none   -- an HWFW_UPDATE whose write is cut: its mailbox and the firmware (R452)
  fwBad     : Bool := false               -- the firmware area is invalid: a write of it was interrupted or failed (R452)
  boundary  : BitVec 39 := 0              -- the boundary register of the TAP, the cell nearest `TDO` lowest (R535)
  idPub     : List Byte := List.replicate 97 0
  owners    : Table OwnerSlot := []       -- slots 0-7
  cert      : List Byte := []             -- certificate of the key in force; empty: none
  certPend  : List Byte := []             -- certificate of the pending key
  imageKey  : Option (List Byte) := none
  fwHighest : Nat := 0                    -- highest firmware VERSION that has run
  audit     : List (List Byte) := []      -- newest first, at most 16,384
  boxes     : Table MailboxSt := []
  queue     : List Nat := []              -- mailboxes whose GO waits or runs, in order
  epochs    : Nat := 0                    -- epoch nonces drawn: the present one is the free word of this number
  memKeys   : Nat := 0                    -- memory keys drawn since manufacture
  spared    : Option Nat := none          -- the spared GDDR7 device that MRAM records (R402)
  wipePending : Bool := false
  active    : Nat := 0                    -- tamper conditions present, by bit
  absentAt  : Table Nat := []             -- when a condition that is absent ended, by bit
  lcTo      : Option Nat := none          -- an accepted lifecycle change whose reset is still due (R444)
  pfHeld    : Bool := false               -- the power-fail sequence runs: Heartwood accepts no mailbox command (R512)
  tapInstr  : Nat := 0x01                 -- the TAP instruction loaded: IDCODE when the TAP starts (log 77)
  macFails  : List Nat := []              -- times of the last 64 line MAC failures, newest first (R453)
  hwClock   : Int := 0                    -- `HWD_TIME` less the device time
deriving DecidableEq, Repr

end Sys2Proof.Machine
end

