-- ==== Sys2Proof/Machine/State.lean ====
section
/-! DEFINITION. The state of the block: every register, memory, queue and pin the spec gives it, as plain data, and the commands
that wait. `State.reset` is the module with its supply just applied, before the always-on domain has started. -/

namespace Sys2Proof.Machine

/-- The reasons a step could fault. Every command of the table has an effect in the spec, so no meaning raises one; an access the
spec refuses is answered with a bus error to its requester (R18, R27), which is a next state. -/
inductive Fault where
  /-- Raised by no meaning: kept because the host's outcome type has a fault. Safe. -/
  | none
deriving DecidableEq, Repr

/-- The reasons a step could be refused. -/
inductive Refusal where
  /-- A command without a meaning yet, by its mnemonic; raised by an arm of `exec` alone. Safe: nothing is claimed of it. -/
  | notModelled (mnemonic : String)
deriving DecidableEq, Repr

/-- The state of the block. -/
structure State where
  /-- the device time `TIME_NOW`, TAI ns (R8, R41) -/
  now     : Nat
  /-- the module is an SJ-960-MX (R1, R3); no command changes it -/
  mx      : Bool
  /-- the registers of the window (R12), by window offset; an unlisted register holds 0 -/
  regs    : Table Word
  /-- GDDR7, Frame SRAM and Tag Store (R32), by physical address; an unlisted byte reads 0 -/
  mem     : Memory
  /-- the configuration flash (R45, R47), by flash offset; an unlisted byte reads 0xFF -/
  flash   : Memory
  /-- the capacity of that flash in bytes (R45), and whether it has no usable 8D-8D-8D Fast Read (R46); no command changes them -/
  flashBytes : Nat
  flashSlow : Bool
  /-- the commands that wait, first in, first out -/
  pending : List Instr
  /-- what the last access gave back to its requester -/
  resp    : Option Response
  /-- free values drawn so far (the model's own field; log 5) -/
  freeCnt : Nat
  /-- read shadows and write holds, by requester (R19) -/
  shadows : Table HalfWord
  holds   : Table HalfWord
  /-- open transactions of each requester, and requesters held at the limit, in order of arrival (R30) -/
  openTrans : Table Nat
  heldTrans : List Nat
  start   : StartSt
  frame   : FrameSt
  signal  : SignalSt
  loop    : LoopSt
  field   : FieldSt
  cascade : CascadeSt
  /-- groves that are not ABSENT, by number (R278) -/
  groves  : Table GroveSt
  /-- the grove command in progress (R281) -/
  gcmd    : Option GroveCmd
  /-- the cores, by number -/
  cores   : Table CoreSt
  /-- running-priority stacks of the cores, top first: source and the PRIO it was accepted with (R411) -/
  runStacks : Table (List (Nat × Nat))
  coh     : CohSt
  power   : PowerSt
  pins    : PinSt
  met     : MetSt
  sec     : SecSt
  dma     : DmaSt
  pci     : PciSt
deriving DecidableEq, Repr

/-- The registers whose reset value is not 0 (R15 and the Reset columns; log 4 for those the spec leaves to MRAM, OTP and the
variant). -/
def resetRegs : Table Word :=
  [ (0x48, 0xffffffff) /- FRM_SLACK_MIN -/,
    (0x10000018, 0x20000000000) /- FP_MAC_BASE -/,
    (0x1c000008, 0x80000000) /- IRQ_CLAIM -/,
    (0x24000000, 0x1) /- HWD_STAT -/,
    (0x24008000, 0xf00) /- HWD_MEM_STAT -/,
    (0x24008004, 0x400000) /- HWD_MEM_CFG -/,
    (0x2c000000, 0x101) /- MET_ID -/,
    (0x38000040, 0x8000) /- THM_MAX -/,
    (0x38000044, 0x8000) /- THM_MAX -/,
    (0x38000048, 0x8000) /- THM_MAX -/,
    (0x3800004c, 0x8000) /- THM_MAX -/,
    (0x38000050, 0x8000) /- THM_MAX -/,
    (0x38000054, 0x8000) /- THM_MAX -/,
    (0x38000058, 0x8000) /- THM_MAX -/,
    (0x3800005c, 0x8000) /- THM_MAX -/,
    (0x38000060, 0x8000) /- THM_MAX -/ ]

/-- The module right after its supply is applied: no domain has started. -/
def State.reset : State where
  now := 0
  mx := true
  regs := resetRegs
  mem := []
  flash := []
  flashBytes := 0x200_0000
  flashSlow := false
  pending := []
  resp := none
  freeCnt := 0
  shadows := []
  holds := []
  openTrans := []
  heldTrans := []
  start := {}
  frame := {}
  signal := {}
  loop := {}
  field := {}
  cascade := {}
  groves := []
  gcmd := none
  cores := []
  runStacks := []
  coh := {}
  power := {}
  pins := {}
  met := {}
  sec := {}
  dma := {}
  pci := {}

end Sys2Proof.Machine
end

