-- ==== Sys2Proof/Machine/Ops.lean ====
section
/-! DEFINITION. The named operations over the state: registers and fields, counters, addressed memory, unit tables, free values,
and the answer of an access. Every meaning is written over these. -/

namespace Sys2Proof.Machine

/-! ### Registers and fields (R5, R12, R15) -/

/-- The register at a window offset, as hardware sees it. -/
def State.reg (s : State) (off : Nat) : Nat := (mapGet 0 s.regs off).toNat

def State.setReg (s : State) (off v : Nat) : State :=
  { s with regs := mapSet 0 s.regs off (BitVec.ofNat 64 v) }

/-- A field of a register. -/
def State.get (s : State) (f : Fld) : Nat := bits (s.reg f.off) f.hi f.lo

/-- A field written by hardware. -/
def State.set (s : State) (f : Fld) (v : Nat) : State := s.setReg f.off (setBits (s.reg f.off) f.hi f.lo v)

/-- A field that is not 0. -/
def State.on (s : State) (f : Fld) : Bool := s.get f != 0

/-- Set a flag. -/
def State.raise (s : State) (f : Fld) : State := s.set f 1

/-- Clear a field. -/
def State.lower (s : State) (f : Fld) : State := s.set f 0

def State.setIf (s : State) (c : Bool) (f : Fld) (v : Nat) : State := if c then s.set f v else s

/-- A counter rises by `n`, saturating at all ones of its field. -/
def State.count (s : State) (f : Fld) (n : Nat) : State := s.set f (satAdd (f.hi + 1 - f.lo) (s.get f) n)

/-- A counter rises by 1. -/
def State.inc (s : State) (f : Fld) : State := s.count f 1

/-- A high-water mark. -/
def State.setMax (s : State) (f : Fld) (v : Nat) : State := s.set f (max (s.get f) (min v (2 ^ (f.hi + 1 - f.lo) - 1)))

/-- A field of instance `i` of a register repeated with `stride` bytes. -/
def Fld.at (f : Fld) (i stride : Nat) : Fld := { f with off := f.off + i * stride }

/-! ### Addressed memory (R32-R34) -/

def gddrSize : Nat := 0x8_0000_0000
def sramBase : Nat := 0x10_0000_0000
def sramSize : Nat := 0x200_0000
def sealedBase : Nat := 0x10_01C0_0000
def tagBase : Nat := 0x10_4000_0000
def tagSize : Nat := 0x40_0000
def winBase : Nat := 0x20_0000_0000
def winSize : Nat := 0x4000_0000
def pcieBase : Nat := 0x40_0000_0000
def pcieEnd : Nat := 0x80_0000_0000
/-- Gather buffer and exchange area: banks 0-3 (R33). -/
def gatherEnd : Nat := 0x10_0020_0000
/-- Loop Engine strands and block state: banks 4-35 (R33). -/
def leBase : Nat := 0x10_0020_0000
def leEnd : Nat := 0x10_0120_0000

/-- The record of a tag (R34). -/
def tagAddr (i : Nat) : Nat := tagBase + 64 * i

def State.byte (s : State) (a : Nat) : Byte := memByte 0 s.mem a

/-- `n` bytes from physical address `a`. -/
def State.rdB (s : State) (a n : Nat) : List Byte := memBytes 0 s.mem a n

/-- `n` bytes from `a`, little-endian (R7). -/
def State.rd (s : State) (a n : Nat) : Nat := leNat (s.rdB a n)

def State.wrB (s : State) (a : Nat) (bs : List Byte) : State := { s with mem := memPut 0 s.mem a bs }

def State.wr (s : State) (a n v : Nat) : State := s.wrB a (leBytes n v)

/-- Every byte in [lo, hi) becomes 0. -/
def State.clearMem (s : State) (lo hi : Nat) : State := { s with mem := mapClear s.mem lo hi }

/-- Configuration flash (R45): an unlisted byte reads 0xFF. -/
def State.flashB (s : State) (off n : Nat) : List Byte := memBytes 0xFF s.flash off n

/-- Program flash bytes: a program operation after the erase of the sectors concerned. -/
def State.flashPut (s : State) (off : Nat) (bs : List Byte) : State := { s with flash := memPut 0xFF s.flash off bs }

/-- Erase flash: every byte in [lo, hi) becomes 0xFF. -/
def State.flashErase (s : State) (lo hi : Nat) : State := { s with flash := mapClear s.flash lo hi }

/-! ### Unit tables -/

def State.grv? (s : State) (g : Nat) : Option GroveSt := mapGet? s.groves g

/-- A grove's entry; an absent grove has the empty one. -/
def State.grv (s : State) (g : Nat) : GroveSt := mapGet {} s.groves g

def State.setGrv (s : State) (g : Nat) (x : GroveSt) : State := { s with groves := mapPut s.groves g x }

/-- Change a grove's entry; a grove that is absent stays so. -/
def State.modGrv (s : State) (g : Nat) (f : GroveSt → GroveSt) : State :=
  match s.grv? g with
  | some x => s.setGrv g (f x)
  | none => s

def State.core (s : State) (c : Nat) : CoreSt := mapGet {} s.cores c
def State.setCore (s : State) (c : Nat) (x : CoreSt) : State := { s with cores := mapSet {} s.cores c x }
def State.modCore (s : State) (c : Nat) (f : CoreSt → CoreSt) : State := s.setCore c (f (s.core c))

def State.modCtx (s : State) (c : Nat) (f : Ctx → Ctx) : State := s.modCore c (fun x => { x with ctx := f x.ctx })

def State.lane (s : State) (l : Nat) : LaneSt := mapGet {} s.loop.lanes l
def State.setLane (s : State) (l : Nat) (x : LaneSt) : State :=
  { s with loop := { s.loop with lanes := mapSet {} s.loop.lanes l x } }
def State.modLane (s : State) (l : Nat) (f : LaneSt → LaneSt) : State := s.setLane l (f (s.lane l))

def State.port (s : State) (p : Nat) : PortSt := mapGet {} s.field.ports p
def State.setPort (s : State) (p : Nat) (x : PortSt) : State :=
  { s with field := { s.field with ports := mapSet {} s.field.ports p x } }
def State.modPort (s : State) (p : Nat) (f : PortSt → PortSt) : State := s.setPort p (f (s.port p))

def State.hawser (s : State) (p : Nat) : HawserSt := mapGet {} s.cascade.ports p
def State.setHawser (s : State) (p : Nat) (x : HawserSt) : State :=
  { s with cascade := { s.cascade with ports := mapSet {} s.cascade.ports p x } }
def State.modHawser (s : State) (p : Nat) (f : HawserSt → HawserSt) : State := s.setHawser p (f (s.hawser p))

def State.modFrame (s : State) (f : FrameSt → FrameSt) : State := { s with frame := f s.frame }
def State.modStart (s : State) (f : StartSt → StartSt) : State := { s with start := f s.start }
def State.modSignal (s : State) (f : SignalSt → SignalSt) : State := { s with signal := f s.signal }
def State.modLoop (s : State) (f : LoopSt → LoopSt) : State := { s with loop := f s.loop }
def State.modField (s : State) (f : FieldSt → FieldSt) : State := { s with field := f s.field }
def State.modCas (s : State) (f : CascadeSt → CascadeSt) : State := { s with cascade := f s.cascade }
def State.modCoh (s : State) (f : CohSt → CohSt) : State := { s with coh := f s.coh }

/-- The runtime entry of a tag (R141). -/
def State.rt (s : State) (t : Nat) : TagRt := mapGet {} s.signal.rt t
def State.setRt (s : State) (t : Nat) (x : TagRt) : State := s.modSignal fun g => { g with rt := mapSet {} g.rt t x }

/-- The window of time reached by a timed event: `TIME_NOW` never runs backwards. -/
def State.atTime (s : State) (t : Nat) : State := { s with now := max s.now t }

/-- The time counter steps (R79): core clocks, the Heartwood clock and the enclave clock go on as they were. -/
def State.setTime (s : State) (t : Nat) : State :=
  let d : Int := (t : Int) - s.now
  { s with
    now := t
    power := { s.power with clkAdj := s.power.clkAdj - 2 * d }
    sec := { s.sec with hwClock := s.sec.hwClock - d }
    met := { s.met with clockOfs := s.met.clockOfs - d } }

/-- The state as an outcome. -/
def done (s : State) : Host.Outcome State Fault Refusal := .next s

/-! ### Answers and free values -/

def State.answer (s : State) (r : Response) : State := { s with resp := some r }

/-- The fresh free word of this draw, and the state in which it is used up (log 5). -/
def State.free (s : State) : Word := Config.freeWord s.freeCnt
def State.drawn (s : State) : State := { s with freeCnt := s.freeCnt + 1 }

/-- A quotient rounded down or up, as the hardware may: the spec states no rounding (log 12). -/
def quotFree (n : Int) (d : Nat) : Int := n / d + (if n % d != 0 && Config.roundsUp n d then 1 else 0)

/-- A value within `k` of `v`, the error being free (R190, R246; log 5). -/
def State.near (s : State) (v : Nat) (k : Nat) : Nat := v + s.free.toNat % (2 * k + 1) - k

/-- Apply an operation to every element of a list, in order. -/
def State.each {α : Type} (s : State) (l : List α) (f : State → α → State) : State := l.foldl f s

/-- Apply an operation when a condition holds. -/
def State.iff (s : State) (c : Bool) (f : State → State) : State := if c then f s else s

def State.modPci (s : State) (f : PciSt → PciSt) : State := { s with pci := f s.pci }

/-! ### MSI-X (R496) -/

/-- A vector's event: signalled, or its pending bit set while it is masked or MSI-X is disabled. -/
def State.msix (s : State) (f v : Nat) : State :=
  let x := mapGet {} s.pci.msix f
  if x.enabled && !bitOf x.masked v then s.modPci fun p => { p with signals := (f, v) :: p.signals }
  else s.modPci fun p => { p with msix := mapSet {} p.msix f { x with pending := setBits x.pending v v 1 } }

end Sys2Proof.Machine
end

