-- ==== Sys2Proof/Machine/Operands.lean ====
section
/-! DEFINITION. The operand forms of commands: who makes an access, which target an address lies in, and which paths the fabrics
open (R11, R19, R27, R32, R33). -/

namespace Sys2Proof.Machine

/-- The number of a requester, for its read shadow, its write hold and its open transactions (R19). -/
def reqNo : Requester → Nat
  | .core c => c.val
  | .dma e ch => 64 + 16 * e.val + ch.val
  | .host => 576
  | .heartwood => 577

/-- The cluster of a core (R11). -/
def clusterOf (c : Nat) : Nat := c / 16

/-- The level a core runs at (R340). -/
def State.level (s : State) (c : Nat) : Level := (s.core c).ctx.level

/-- A core at E level. -/
def State.isE (s : State) : Requester → Bool
  | .core c => s.level c.val == .e
  | _ => false

/-- A core at S or E level. -/
def State.isSE (s : State) : Requester → Bool
  | .core c => s.level c.val != .u
  | _ => false

/-- The targets of the physical address map (R32, R33). -/
inductive Target where
  | gddr | sram | sealed | tags | window | pcie | hole
deriving DecidableEq, Repr

def targetOf (a : Nat) : Target :=
  if a < gddrSize then .gddr
  else if sramBase ≤ a && a < sealedBase then .sram
  else if sealedBase ≤ a && a < sramBase + sramSize then .sealed
  else if tagBase ≤ a && a < tagBase + tagSize then .tags
  else if winBase ≤ a && a < winBase + winSize then .window
  else if pcieBase ≤ a && a < pcieEnd then .pcie
  else .hole

/-- The paths of R27 for cores, DMA engines and Heartwood; `hwdBlock` says whether a window offset lies in the blocks Heartwood
reaches. The host's paths run through its BARs (R493, R499). -/
def pathOpen (s : State) (r : Requester) (a : Nat) : Bool :=
  match r, targetOf a with
  | _, .hole => false
  | .core c, .sealed => s.level c.val == .e
  | .core _, _ => true
  | .dma _ _, .sealed => false
  | .dma _ _, .window => false
  | .dma _ _, _ => true
  | .heartwood, .gddr => true
  | .heartwood, .sram => true
  | .heartwood, .sealed => true
  | .heartwood, .window =>
    let b := (a - winBase) / 0x400_0000
    b == 9 || b == 10 || b == 13
  | .heartwood, _ => false
  | .host, _ => false

end Sys2Proof.Machine
end

