-- ==== Sys2Proof/Machine/RegTable.lean ====
section
/-! DEFINITION. The access table of the register window (R12, R16, R18): for every register its place, its width, and the
access code of each field. Bits that no field covers are reserved (R16). Built block by block from the register tables. -/

namespace Sys2Proof.Machine

/-- The registers of the `CFG_` block. -/
def regsCfg : List RegDesc :=
  [ ⟨0x28000000, 1, 4, 1, 4, false, false, [⟨0, 0, .ro⟩, ⟨1, 1, .ro⟩, ⟨2, 2, .ro⟩, ⟨3, 3, .ro⟩, ⟨4, 4, .ro⟩, ⟨5, 5, .ro⟩, ⟨6, 6, .ro⟩, ⟨7, 7, .ro⟩]⟩ ] ++
  [ ⟨0x28000008, 1, 8, 1, 8, true, false, [⟨7, 0, .ro⟩, ⟨31, 8, .ro⟩, ⟨39, 32, .ro⟩, ⟨63, 40, .ro⟩]⟩ ] ++
  [ ⟨0x28000010, 1, 8, 1, 8, true, false, [⟨63, 0, .ro⟩]⟩ ] ++
  [ ⟨0x28000018, 1, 4, 1, 4, false, false, [⟨8, 0, .ro⟩, ⟨24, 16, .ro⟩]⟩ ] ++
  [ ⟨0x28000020, 1, 8, 1, 8, true, false, [⟨31, 0, .ro⟩, ⟨39, 32, .ro⟩, ⟨41, 40, .ro⟩]⟩ ] ++
  [ ⟨0x28000028, 1, 8, 1, 8, true, false, [⟨63, 0, .ro⟩]⟩ ] ++
  [ ⟨0x28000030, 1, 4, 1, 4, false, false, [⟨0, 0, .ro⟩, ⟨1, 1, .ro⟩, ⟨2, 2, .ro⟩, ⟨15, 8, .ro⟩]⟩ ]

/-- The registers of the `FRM_` block. -/
def regsFrm : List RegDesc :=
  [ ⟨0x0, 1, 4, 1, 4, false, false, [⟨0, 0, .rw⟩, ⟨1, 1, .wo⟩, ⟨2, 2, .wo⟩, ⟨3, 3, .wo⟩]⟩ ] ++
  [ ⟨0x4, 1, 4, 1, 4, false, false, [⟨0, 0, .ro⟩, ⟨1, 1, .w1c⟩, ⟨2, 2, .ro⟩, ⟨6, 4, .ro⟩, ⟨11, 8, .ro⟩]⟩ ] ++
  [ ⟨0x8, 1, 4, 1, 4, false, false, [⟨26, 0, .rwl⟩]⟩ ] ++
  [ ⟨0xc, 1, 4, 1, 4, false, false, [⟨9, 0, .rwl⟩, ⟨19, 10, .rwl⟩, ⟨29, 20, .rwl⟩]⟩ ] ++
  [ ⟨0x10, 1, 4, 1, 4, false, false, [⟨26, 0, .rwl⟩]⟩ ] ++
  [ ⟨0x14, 1, 4, 1, 4, false, false, [⟨11, 0, .rwl⟩, ⟨27, 16, .rwl⟩]⟩ ] ++
  [ ⟨0x18, 1, 4, 1, 4, false, false, [⟨26, 0, .rwl⟩]⟩ ] ++
  [ ⟨0x20, 1, 8, 1, 8, true, false, [⟨63, 0, .ro⟩]⟩ ] ++
  [ ⟨0x28, 1, 8, 1, 8, true, false, [⟨63, 0, .ro⟩]⟩ ] ++
  [ ⟨0x30, 1, 8, 1, 8, true, false, [⟨63, 0, .ro⟩]⟩ ] ++
  [ ⟨0x38, 1, 8, 1, 8, true, false, [⟨63, 0, .ro⟩]⟩ ] ++
  [ ⟨0x40, 1, 4, 1, 4, false, false, [⟨31, 0, .ro⟩]⟩ ] ++
  [ ⟨0x44, 1, 4, 1, 4, false, false, [⟨31, 0, .ro⟩]⟩ ] ++
  [ ⟨0x48, 1, 4, 1, 4, false, false, [⟨31, 0, .ro⟩]⟩ ] ++
  [ ⟨0x100, 64, 4, 1, 4, false, false, [⟨7, 0, .rw⟩]⟩ ] ++
  [ ⟨0x200, 64, 4, 1, 4, false, false, [⟨7, 0, .ro⟩, ⟨8, 8, .ro⟩, ⟨9, 9, .w1c⟩, ⟨10, 10, .w1c⟩, ⟨11, 11, .w1c⟩, ⟨12, 12, .w1c⟩, ⟨13, 13, .ro⟩]⟩ ] ++
  [ ⟨0x300, 64, 4, 1, 4, false, false, [⟨0, 0, .wo⟩, ⟨1, 1, .wo⟩]⟩ ] ++
  [ ⟨0x400, 64, 4, 1, 4, false, false, [⟨31, 0, .ro⟩]⟩ ]

/-- The registers of the `TIME_` block. -/
def regsTime : List RegDesc :=
  [ ⟨0x4000000, 1, 8, 1, 8, true, false, [⟨63, 0, .ro⟩]⟩ ] ++
  [ ⟨0x4000008, 1, 4, 1, 4, false, false, [⟨1, 0, .ro⟩, ⟨2, 2, .ro⟩, ⟨3, 3, .ro⟩]⟩ ] ++
  [ ⟨0x400000c, 1, 4, 1, 4, false, false, [⟨31, 0, .ro⟩]⟩ ]

/-- The registers of the `SE_` block. -/
def regsSe : List RegDesc :=
  [ ⟨0x8000000, 1, 4, 1, 4, false, false, [⟨0, 0, .rwl⟩, ⟨1, 1, .wo⟩]⟩ ] ++
  [ ⟨0x8000004, 1, 4, 1, 4, false, false, [⟨0, 0, .ro⟩, ⟨1, 1, .w1c⟩, ⟨2, 2, .w1c⟩, ⟨3, 3, .w1c⟩, ⟨4, 4, .w1c⟩]⟩ ] ++
  [ ⟨0x8000008, 1, 4, 1, 4, false, false, [⟨6, 0, .rwl⟩, ⟨14, 8, .rwl⟩, ⟨22, 16, .rwl⟩, ⟨30, 24, .rwl⟩]⟩ ] ++
  [ ⟨0x800000c, 1, 4, 1, 4, false, false, [⟨11, 0, .rwl⟩, ⟨27, 16, .rwl⟩]⟩ ] ++
  [ ⟨0x8000010, 1, 4, 1, 4, false, false, [⟨31, 0, .ro⟩]⟩ ] ++
  [ ⟨0x8000014, 1, 4, 1, 4, false, false, [⟨31, 0, .ro⟩]⟩ ] ++
  [ ⟨0x8000018, 1, 8, 1, 8, true, false, [⟨15, 0, .ro⟩, ⟨18, 16, .ro⟩, ⟨20, 19, .ro⟩, ⟨41, 24, .ro⟩]⟩ ] ++
  [ ⟨0x8000020, 1, 4, 1, 4, false, false, [⟨31, 0, .ro⟩]⟩ ] ++
  [ ⟨0x8000024, 1, 4, 1, 4, false, false, [⟨31, 0, .ro⟩]⟩ ] ++
  [ ⟨0x8000028, 1, 4, 1, 4, false, false, [⟨16, 0, .ro⟩]⟩ ] ++
  [ ⟨0x8000100, 64, 32, 1, 32, true, false, [⟨39, 6, .rw⟩]⟩ ] ++
  [ ⟨0x8000108, 64, 32, 1, 32, false, false, [⟨0, 0, .rw⟩, ⟨12, 8, .rw⟩, ⟨31, 16, .rw⟩]⟩ ] ++
  [ ⟨0x800010c, 64, 32, 1, 32, false, false, [⟨31, 0, .ro⟩]⟩ ] ++
  [ ⟨0x8000110, 64, 32, 1, 32, false, false, [⟨31, 0, .rw⟩]⟩ ] ++
  [ ⟨0x8000114, 64, 32, 1, 32, false, false, [⟨31, 0, .ro⟩]⟩ ] ++
  [ ⟨0x8000118, 64, 32, 1, 32, false, false, [⟨0, 0, .w1c⟩, ⟨1, 1, .ro⟩, ⟨2, 2, .w1c⟩]⟩ ]

/-- The registers of the `LE_` block. -/
def regsLe : List RegDesc :=
  [ ⟨0xc000000, 1, 4, 1, 4, false, false, [⟨0, 0, .wo⟩]⟩ ] ++
  [ ⟨0xc000004, 1, 4, 1, 4, false, false, [⟨0, 0, .ro⟩, ⟨1, 1, .w1c⟩, ⟨2, 2, .w1c⟩, ⟨3, 3, .w1c⟩, ⟨4, 4, .w1c⟩]⟩ ] ++
  [ ⟨0xc000008, 1, 4, 1, 4, false, false, [⟨11, 0, .rwl⟩, ⟨27, 16, .rwl⟩]⟩ ] ++
  [ ⟨0xc00000c, 1, 4, 1, 4, false, false, [⟨31, 0, .ro⟩]⟩ ] ++
  [ ⟨0xc000010, 1, 4, 1, 4, false, false, [⟨31, 0, .ro⟩]⟩ ] ++
  [ ⟨0xc000014, 1, 4, 1, 4, false, false, [⟨31, 0, .ro⟩]⟩ ] ++
  [ ⟨0xc000018, 1, 4, 1, 4, false, false, [⟨31, 0, .ro⟩]⟩ ] ++
  [ ⟨0xc00001c, 1, 4, 1, 4, false, false, [⟨12, 0, .ro⟩]⟩ ] ++
  [ ⟨0xc000020, 8, 4, 1, 4, false, false, [⟨31, 0, .ro⟩]⟩ ] ++
  [ ⟨0xc000040, 2, 4, 1, 4, false, false, [⟨31, 0, .ro⟩]⟩ ] ++
  [ ⟨0xc000100, 32, 16, 1, 16, false, false, [⟨0, 0, .ro⟩, ⟨1, 1, .ro⟩, ⟨2, 2, .ro⟩, ⟨3, 3, .w1c⟩, ⟨7, 4, .ro⟩, ⟨13, 8, .ro⟩, ⟨14, 14, .ro⟩]⟩ ] ++
  [ ⟨0xc000104, 32, 16, 1, 16, false, false, [⟨17, 0, .ro⟩]⟩ ] ++
  [ ⟨0xc000108, 32, 16, 1, 16, false, false, [⟨31, 0, .ro⟩]⟩ ] ++
  [ ⟨0xc00010c, 32, 16, 1, 16, false, false, [⟨17, 0, .ro⟩, ⟨21, 18, .ro⟩]⟩ ] ++
  [ ⟨0xc001000, 256, 32, 1, 32, true, false, [⟨31, 0, .ro⟩, ⟨63, 32, .ro⟩]⟩ ] ++
  [ ⟨0xc001008, 256, 32, 1, 32, true, false, [⟨31, 0, .ro⟩, ⟨63, 32, .ro⟩]⟩ ] ++
  [ ⟨0xc001010, 256, 32, 1, 32, true, false, [⟨31, 0, .rw⟩, ⟨63, 32, .rw⟩]⟩ ] ++
  [ ⟨0xc001018, 256, 32, 1, 32, false, false, [⟨0, 0, .wo⟩, ⟨2, 1, .wo⟩]⟩ ] ++
  [ ⟨0xc00101c, 256, 32, 1, 32, false, false, [⟨0, 0, .ro⟩, ⟨1, 1, .w1c⟩, ⟨15, 8, .ro⟩]⟩ ]

/-- The registers of the `FP_` block. -/
def regsFp : List RegDesc :=
  [ ⟨0x10000000, 1, 4, 1, 4, false, false, [⟨0, 0, .wo⟩]⟩ ] ++
  [ ⟨0x10000004, 1, 4, 1, 4, false, false, [⟨0, 0, .w1c⟩, ⟨1, 1, .w1c⟩, ⟨2, 2, .w1c⟩, ⟨3, 3, .w1c⟩, ⟨4, 4, .w1c⟩]⟩ ] ++
  [ ⟨0x10000008, 1, 4, 1, 4, false, false, [⟨11, 0, .rwl⟩, ⟨27, 16, .rwl⟩]⟩ ] ++
  [ ⟨0x1000000c, 1, 4, 1, 4, false, false, [⟨6, 0, .rwl⟩, ⟨7, 7, .rwl⟩, ⟨11, 8, .rwl⟩, ⟨19, 12, .rwl⟩, ⟨27, 20, .rwl⟩]⟩ ] ++
  [ ⟨0x10000010, 1, 4, 1, 4, false, false, [⟨31, 0, .ro⟩]⟩ ] ++
  [ ⟨0x10000018, 1, 8, 1, 8, true, false, [⟨47, 0, .ro⟩]⟩ ] ++
  [ ⟨0x10000020, 3, 4, 1, 4, false, false, [⟨31, 0, .ro⟩]⟩ ] ++
  [ ⟨0x10001000, 72, 128, 1, 128, false, false, [⟨2, 0, .rwl⟩, ⟨3, 3, .rwl⟩, ⟨4, 4, .rwl⟩, ⟨5, 5, .rwl⟩, ⟨6, 6, .rwl⟩, ⟨8, 7, .rwl⟩, ⟨29, 16, .rwl⟩]⟩ ] ++
  [ ⟨0x10001004, 72, 128, 1, 128, false, false, [⟨0, 0, .ro⟩, ⟨1, 1, .w1c⟩, ⟨2, 2, .ro⟩, ⟨8, 3, .ro⟩, ⟨9, 9, .ro⟩]⟩ ] ++
  [ ⟨0x10001008, 72, 128, 1, 128, false, false, [⟨26, 0, .rwl⟩]⟩ ] ++
  [ ⟨0x1000100c, 72, 128, 1, 128, false, false, [⟨11, 0, .rwl⟩, ⟨27, 16, .rwl⟩]⟩ ] ++
  [ ⟨0x10001010, 72, 128, 1, 128, false, false, [⟨4, 0, .rwl⟩, ⟨14, 8, .rwl⟩, ⟨21, 16, .ro⟩]⟩ ] ++
  [ ⟨0x10001014, 72, 128, 1, 128, false, false, [⟨31, 0, .ro⟩]⟩ ] ++
  [ ⟨0x10001018, 72, 128, 1, 128, false, false, [⟨31, 0, .ro⟩]⟩ ] ++
  [ ⟨0x1000101c, 72, 128, 1, 128, false, false, [⟨31, 0, .ro⟩]⟩ ] ++
  [ ⟨0x10001020, 72, 128, 1, 128, false, false, [⟨31, 0, .ro⟩]⟩ ] ++
  [ ⟨0x10001024, 72, 128, 1, 128, false, false, [⟨31, 0, .ro⟩]⟩ ] ++
  [ ⟨0x10001028, 72, 128, 1, 128, false, false, [⟨31, 0, .ro⟩]⟩ ] ++
  [ ⟨0x10004000, 72, 256, 64, 4, false, false, [⟨7, 0, .rwl⟩, ⟨31, 8, .rwl⟩]⟩ ]

/-- The registers of the `CAS_` block. -/
def regsCas : List RegDesc :=
  [ ⟨0x14000000, 1, 4, 1, 4, false, false, [⟨0, 0, .wo⟩]⟩ ] ++
  [ ⟨0x14000004, 1, 4, 1, 4, false, false, [⟨0, 0, .w1c⟩, ⟨1, 1, .w1c⟩, ⟨2, 2, .w1c⟩, ⟨3, 3, .w1c⟩]⟩ ] ++
  [ ⟨0x14000008, 1, 4, 1, 4, false, false, [⟨11, 0, .rwl⟩, ⟨27, 16, .rwl⟩]⟩ ] ++
  [ ⟨0x1400000c, 1, 4, 1, 4, false, false, [⟨11, 0, .rwl⟩]⟩ ] ++
  [ ⟨0x14000010, 1, 4, 1, 4, false, false, [⟨16, 0, .rwl⟩, ⟨31, 24, .rwl⟩]⟩ ] ++
  [ ⟨0x14000014, 1, 4, 1, 4, false, false, [⟨1, 0, .ro⟩, ⟨2, 2, .ro⟩, ⟨3, 3, .ro⟩, ⟨4, 4, .ro⟩, ⟨6, 5, .ro⟩, ⟨17, 8, .ro⟩]⟩ ] ++
  [ ⟨0x14000018, 1, 4, 1, 4, false, false, [⟨31, 0, .ro⟩]⟩ ] ++
  [ ⟨0x1400001c, 1, 4, 1, 4, false, false, [⟨23, 0, .rwl⟩, ⟨24, 24, .rwl⟩]⟩ ] ++
  [ ⟨0x14000020, 1, 8, 1, 8, true, false, [⟨63, 0, .rwl⟩]⟩ ] ++
  [ ⟨0x14000028, 1, 4, 1, 4, false, false, [⟨31, 0, .ro⟩]⟩ ] ++
  [ ⟨0x1400002c, 1, 4, 1, 4, false, false, [⟨31, 0, .ro⟩]⟩ ] ++
  [ ⟨0x14000030, 1, 4, 1, 4, false, false, [⟨31, 0, .ro⟩]⟩ ] ++
  [ ⟨0x14000034, 1, 4, 1, 4, false, false, [⟨31, 0, .ro⟩]⟩ ] ++
  [ ⟨0x14000038, 1, 4, 1, 4, false, false, [⟨31, 0, .ro⟩]⟩ ] ++
  [ ⟨0x1400003c, 1, 4, 1, 4, false, false, [⟨12, 0, .ro⟩]⟩ ] ++
  [ ⟨0x14000100, 6, 32, 1, 32, false, false, [⟨0, 0, .rwl⟩, ⟨2, 1, .rwl⟩, ⟨5, 3, .rwl⟩, ⟨31, 16, .rwl⟩]⟩ ] ++
  [ ⟨0x14000104, 6, 32, 1, 32, false, false, [⟨2, 0, .ro⟩, ⟨3, 3, .w1c⟩, ⟨15, 8, .ro⟩, ⟨25, 16, .ro⟩, ⟨28, 26, .ro⟩]⟩ ] ++
  [ ⟨0x14000108, 6, 32, 1, 32, false, false, [⟨27, 0, .ro⟩]⟩ ] ++
  [ ⟨0x1400010c, 6, 32, 1, 32, false, false, [⟨15, 0, .rwl⟩]⟩ ] ++
  [ ⟨0x14000110, 6, 32, 1, 32, false, false, [⟨31, 0, .ro⟩]⟩ ] ++
  [ ⟨0x14000114, 6, 32, 1, 32, false, false, [⟨31, 0, .ro⟩]⟩ ] ++
  [ ⟨0x14000118, 6, 32, 1, 32, false, false, [⟨31, 0, .ro⟩]⟩ ] ++
  [ ⟨0x14001000, 64, 64, 1, 64, true, false, [⟨39, 6, .rw⟩]⟩ ] ++
  [ ⟨0x14001008, 64, 64, 1, 64, true, false, [⟨39, 6, .rw⟩]⟩ ] ++
  [ ⟨0x14001010, 64, 64, 1, 64, false, false, [⟨0, 0, .rw⟩, ⟨1, 1, .rw⟩, ⟨11, 8, .rw⟩, ⟨15, 12, .rw⟩]⟩ ] ++
  [ ⟨0x14001014, 64, 64, 1, 64, false, false, [⟨31, 0, .rw⟩]⟩ ] ++
  [ ⟨0x14001018, 64, 64, 1, 64, false, false, [⟨31, 0, .ro⟩]⟩ ] ++
  [ ⟨0x1400101c, 64, 64, 1, 64, false, false, [⟨31, 0, .ro⟩]⟩ ] ++
  [ ⟨0x14001020, 64, 64, 1, 64, false, false, [⟨31, 0, .rw⟩]⟩ ] ++
  [ ⟨0x14001024, 64, 64, 1, 64, false, false, [⟨0, 0, .w1c⟩, ⟨1, 1, .w1c⟩, ⟨14, 8, .ro⟩]⟩ ]

/-- The registers of the `GRV_` block. -/
def regsGrv : List RegDesc :=
  [ ⟨0x18000000, 1, 4, 1, 4, false, false, [⟨3, 0, .wo⟩, ⟨13, 8, .wo⟩, ⟨16, 16, .wo⟩]⟩ ] ++
  [ ⟨0x18000008, 1, 8, 1, 8, true, false, [⟨39, 6, .rw⟩]⟩ ] ++
  [ ⟨0x18000010, 1, 4, 1, 4, false, false, [⟨0, 0, .ro⟩, ⟨15, 8, .ro⟩, ⟨31, 16, .ro⟩]⟩ ] ++
  [ ⟨0x18000014, 1, 4, 1, 4, false, false, [⟨11, 0, .rwl⟩, ⟨27, 16, .rwl⟩]⟩ ] ++
  [ ⟨0x18000018, 1, 8, 1, 8, true, false, [⟨63, 0, .ro⟩]⟩ ] ++
  [ ⟨0x18000020, 1, 8, 1, 8, true, false, [⟨31, 0, .ro⟩, ⟨63, 32, .ro⟩]⟩ ] ++
  [ ⟨0x18000028, 1, 4, 1, 4, false, false, [⟨14, 0, .ro⟩, ⟨20, 16, .ro⟩]⟩ ] ++
  [ ⟨0x18000030, 3, 4, 1, 4, false, false, [⟨31, 0, .ro⟩]⟩ ] ++
  [ ⟨0x18001000, 64, 512, 1, 512, false, false, [⟨2, 0, .ro⟩, ⟨4, 3, .ro⟩, ⟨5, 5, .ro⟩, ⟨6, 6, .ro⟩, ⟨7, 7, .w1c⟩, ⟨8, 8, .ro⟩, ⟨9, 9, .w1c⟩, ⟨10, 10, .w1c⟩, ⟨11, 11, .w1c⟩, ⟨12, 12, .ro⟩]⟩ ] ++
  [ ⟨0x18001004, 64, 512, 1, 512, false, false, [⟨31, 0, .ro⟩]⟩ ] ++
  [ ⟨0x18001008, 64, 512, 1, 512, false, false, [⟨31, 0, .ro⟩]⟩ ] ++
  [ ⟨0x1800100c, 64, 512, 1, 512, false, false, [⟨31, 0, .ro⟩]⟩ ] ++
  [ ⟨0x18001010, 64, 512, 1, 512, true, false, [⟨39, 0, .ro⟩, ⟨42, 40, .ro⟩, ⟨45, 44, .ro⟩]⟩ ] ++
  [ ⟨0x18001100, 64, 512, 32, 8, true, false, [⟨0, 0, .rw⟩, ⟨1, 1, .rw⟩, ⟨2, 2, .rw⟩, ⟨3, 3, .rw⟩, ⟨39, 12, .rw⟩, ⟨63, 40, .rw⟩]⟩ ]

/-- The registers of the `HWD_` block. -/
def regsHwd : List RegDesc :=
  [ ⟨0x24008000, 1, 4, 1, 4, false, false, [⟨0, 0, .w1c⟩, ⟨1, 1, .w1c⟩, ⟨2, 2, .w1c⟩, ⟨3, 3, .w1c⟩, ⟨4, 4, .w1c⟩, ⟨5, 5, .w1c⟩, ⟨6, 6, .ro⟩, ⟨7, 7, .ro⟩, ⟨11, 8, .ro⟩, ⟨12, 12, .w1c⟩]⟩ ] ++
  [ ⟨0x24008004, 1, 4, 1, 4, false, false, [⟨11, 0, .rw⟩, ⟨12, 12, .rw⟩, ⟨31, 16, .rw⟩]⟩ ] ++
  [ ⟨0x24008008, 1, 4, 1, 4, false, false, [⟨31, 0, .ro⟩]⟩ ] ++
  [ ⟨0x2400800c, 1, 4, 1, 4, false, false, [⟨31, 0, .ro⟩]⟩ ] ++
  [ ⟨0x24008010, 1, 4, 1, 4, false, false, [⟨31, 0, .ro⟩]⟩ ] ++
  [ ⟨0x24008014, 1, 4, 1, 4, false, false, [⟨31, 0, .ro⟩]⟩ ] ++
  [ ⟨0x24008018, 1, 4, 1, 4, false, false, [⟨31, 0, .ro⟩]⟩ ] ++
  [ ⟨0x2400801c, 1, 4, 1, 4, false, false, [⟨31, 0, .ro⟩]⟩ ] ++
  [ ⟨0x24008020, 1, 8, 1, 8, true, false, [⟨39, 0, .ro⟩, ⟨43, 40, .ro⟩, ⟨47, 44, .ro⟩, ⟨53, 48, .ro⟩, ⟨54, 54, .ro⟩, ⟨59, 56, .ro⟩]⟩ ] ++
  [ ⟨0x24008028, 1, 4, 1, 4, false, false, [⟨0, 0, .wo⟩]⟩ ] ++
  [ ⟨0x2400802c, 1, 4, 1, 4, false, false, [⟨31, 0, .ro⟩]⟩ ] ++
  [ ⟨0x24008040, 9, 4, 1, 4, false, false, [⟨15, 0, .ro⟩]⟩ ] ++
  [ ⟨0x24008100, 64, 8, 1, 8, false, false, [⟨10, 0, .ro⟩]⟩ ] ++
  [ ⟨0x24008104, 64, 8, 1, 8, false, false, [⟨31, 0, .ro⟩]⟩ ] ++
  [ ⟨0x24000000, 1, 4, 1, 4, false, false, [⟨2, 0, .ro⟩, ⟨3, 3, .ro⟩, ⟨4, 4, .ro⟩, ⟨5, 5, .ro⟩, ⟨6, 6, .ro⟩]⟩ ] ++
  [ ⟨0x24000004, 1, 4, 1, 4, false, false, [⟨3, 0, .ro⟩, ⟨12, 8, .ro⟩, ⟨18, 16, .ro⟩, ⟨22, 20, .ro⟩]⟩ ] ++
  [ ⟨0x24000008, 1, 4, 1, 4, false, false, [⟨31, 0, .ro⟩]⟩ ] ++
  [ ⟨0x24000010, 1, 8, 1, 8, true, false, [⟨63, 0, .ro⟩]⟩ ] ++
  [ ⟨0x24000018, 1, 8, 1, 8, true, false, [⟨63, 0, .ro⟩]⟩ ] ++
  [ ⟨0x24000020, 1, 8, 1, 8, true, false, [⟨63, 0, .ro⟩]⟩ ] ++
  [ ⟨0x24000028, 1, 8, 1, 8, true, false, [⟨63, 0, .ro⟩]⟩ ] ++
  [ ⟨0x24000030, 1, 4, 1, 4, false, false, [⟨7, 0, .w1c⟩, ⟨15, 8, .ro⟩]⟩ ] ++
  [ ⟨0x24000034, 1, 4, 1, 4, false, false, [⟨31, 0, .ro⟩]⟩ ] ++
  [ ⟨0x24000038, 1, 4, 1, 4, false, false, [⟨11, 0, .rw⟩, ⟨12, 12, .rw⟩, ⟨27, 16, .rw⟩, ⟨28, 28, .rw⟩]⟩ ] ++
  [ ⟨0x24001000, 2, 4096, 1, 4096, false, false, [⟨0, 0, .wo⟩]⟩ ] ++
  [ ⟨0x24001004, 2, 4096, 1, 4096, false, false, [⟨0, 0, .ro⟩, ⟨1, 1, .ro⟩, ⟨2, 2, .w1c⟩, ⟨3, 3, .ro⟩, ⟨15, 8, .ro⟩, ⟨31, 16, .ro⟩]⟩ ] ++
  [ ⟨0x24001008, 2, 4096, 1, 4096, false, false, [⟨15, 0, .rw⟩, ⟨27, 16, .rw⟩]⟩ ] ++
  [ ⟨0x2400100c, 2, 4096, 1, 4096, false, false, [⟨11, 0, .ro⟩]⟩ ] ++
  [ ⟨0x24001800, 2, 4096, 256, 8, true, true, [⟨63, 0, .rw⟩]⟩ ]

/-- The registers of the `IRQ_` block. -/
def regsIrq : List RegDesc :=
  [ ⟨0x1c000000, 1, 4, 1, 4, false, false, [⟨11, 0, .wo⟩, ⟨13, 12, .wo⟩]⟩ ] ++
  [ ⟨0x1c000004, 1, 4, 1, 4, false, false, [⟨11, 0, .wo⟩]⟩ ] ++
  [ ⟨0x1c000008, 1, 4, 1, 4, false, false, [⟨11, 0, .ro⟩, ⟨17, 12, .ro⟩, ⟨31, 31, .ro⟩]⟩ ] ++
  [ ⟨0x1c00000c, 1, 4, 1, 4, false, false, [⟨11, 0, .rw⟩, ⟨12, 12, .wo⟩]⟩ ] ++
  [ ⟨0x1c000010, 1, 4, 1, 4, false, false, [⟨0, 0, .w1c⟩]⟩ ] ++
  [ ⟨0x1c000014, 1, 4, 1, 4, false, false, [⟨31, 0, .ro⟩]⟩ ] ++
  [ ⟨0x1c000018, 1, 8, 1, 8, true, false, [⟨11, 0, .ro⟩, ⟨13, 12, .ro⟩, ⟨14, 14, .ro⟩, ⟨15, 15, .ro⟩, ⟨16, 16, .ro⟩, ⟨22, 17, .ro⟩]⟩ ] ++
  [ ⟨0x1c001000, 128, 4, 1, 4, false, false, [⟨31, 0, .w1s⟩]⟩ ] ++
  [ ⟨0x1c001200, 128, 4, 1, 4, false, false, [⟨31, 0, .w1c⟩]⟩ ] ++
  [ ⟨0x1c001400, 128, 4, 1, 4, false, false, [⟨31, 0, .w1s⟩]⟩ ] ++
  [ ⟨0x1c001600, 128, 4, 1, 4, false, false, [⟨31, 0, .w1c⟩]⟩ ] ++
  [ ⟨0x1c002000, 64, 64, 1, 64, false, false, [⟨0, 0, .rw⟩]⟩ ] ++
  [ ⟨0x1c002008, 64, 64, 1, 64, true, false, [⟨47, 4, .rw⟩]⟩ ] ++
  [ ⟨0x1c002010, 64, 64, 1, 64, true, false, [⟨47, 4, .rw⟩]⟩ ] ++
  [ ⟨0x1c003000, 64, 16, 1, 16, false, false, [⟨6, 0, .ro⟩, ⟨12, 7, .ro⟩, ⟨24, 13, .ro⟩, ⟨25, 25, .ro⟩, ⟨26, 26, .ro⟩, ⟨27, 27, .w1c⟩]⟩ ] ++
  [ ⟨0x1c010000, 4096, 4, 1, 4, false, false, [⟨5, 0, .rw⟩, ⟨6, 6, .rw⟩, ⟨7, 7, .rw⟩, ⟨16, 16, .ro⟩, ⟨17, 17, .ro⟩, ⟨18, 18, .ro⟩, ⟨19, 19, .ro⟩, ⟨25, 20, .ro⟩, ⟨31, 26, .ro⟩]⟩ ] ++
  [ ⟨0x1c020000, 4096, 8, 1, 8, true, false, [⟨63, 0, .rw⟩]⟩ ]

/-- The registers of the `DMA_` block. -/
def regsDma : List RegDesc :=
  [ ⟨0x20000000, 1, 4, 1, 4, false, false, [⟨0, 0, .wo⟩]⟩ ] ++
  [ ⟨0x20001000, 32, 4096, 1, 4096, false, false, [⟨11, 0, .rw⟩]⟩ ] ++
  [ ⟨0x20001004, 32, 4096, 1, 4096, false, false, [⟨0, 0, .w1c⟩, ⟨1, 1, .ro⟩, ⟨5, 2, .ro⟩, ⟨6, 6, .ro⟩, ⟨12, 7, .ro⟩]⟩ ] ++
  [ ⟨0x20001008, 32, 4096, 1, 4096, true, false, [⟨39, 0, .ro⟩, ⟨40, 40, .ro⟩, ⟨41, 41, .ro⟩, ⟨44, 42, .ro⟩, ⟨49, 45, .ro⟩]⟩ ] ++
  [ ⟨0x20001010, 32, 4096, 1, 4096, false, false, [⟨31, 0, .ro⟩]⟩ ] ++
  [ ⟨0x20001100, 32, 4096, 16, 64, true, false, [⟨39, 6, .rw⟩]⟩ ] ++
  [ ⟨0x20001108, 32, 4096, 16, 64, false, false, [⟨1, 0, .ro⟩, ⟨2, 2, .rw⟩, ⟨3, 3, .rw⟩, ⟨4, 4, .rw⟩, ⟨11, 8, .rw⟩, ⟨27, 16, .rw⟩]⟩ ] ++
  [ ⟨0x2000110c, 32, 4096, 16, 64, false, false, [⟨31, 0, .rw⟩]⟩ ] ++
  [ ⟨0x20001110, 32, 4096, 16, 64, false, false, [⟨31, 0, .ro⟩]⟩ ] ++
  [ ⟨0x20001114, 32, 4096, 16, 64, false, false, [⟨0, 0, .wo⟩, ⟨1, 1, .wo⟩]⟩ ] ++
  [ ⟨0x20001118, 32, 4096, 16, 64, false, false, [⟨0, 0, .ro⟩, ⟨1, 1, .ro⟩, ⟨2, 2, .w1c⟩, ⟨3, 3, .w1c⟩, ⟨4, 4, .w1c⟩, ⟨5, 5, .w1c⟩, ⟨6, 6, .w1c⟩, ⟨7, 7, .w1c⟩]⟩ ] ++
  [ ⟨0x20001120, 32, 4096, 16, 64, true, false, [⟨39, 0, .ro⟩]⟩ ]

/-- The registers of the `MET_` block. -/
def regsMet : List RegDesc :=
  [ ⟨0x2c000000, 1, 4, 1, 4, false, false, [⟨0, 0, .ro⟩, ⟨15, 8, .ro⟩]⟩ ] ++
  [ ⟨0x2c000004, 1, 4, 1, 4, false, false, [⟨0, 0, .ro⟩, ⟨1, 1, .ro⟩, ⟨2, 2, .ro⟩, ⟨3, 3, .ro⟩, ⟨4, 4, .ro⟩, ⟨5, 5, .ro⟩, ⟨7, 6, .ro⟩, ⟨13, 8, .ro⟩, ⟨14, 14, .ro⟩]⟩ ] ++
  [ ⟨0x2c000008, 1, 8, 1, 8, true, false, [⟨31, 0, .ro⟩, ⟨47, 32, .ro⟩]⟩ ] ++
  [ ⟨0x2c000010, 1, 8, 1, 8, true, false, [⟨63, 0, .ro⟩]⟩ ] ++
  [ ⟨0x2c000018, 1, 4, 1, 4, false, false, [⟨31, 0, .ro⟩]⟩ ] ++
  [ ⟨0x2c00001c, 1, 4, 1, 4, false, false, [⟨5, 0, .ro⟩]⟩ ] ++
  [ ⟨0x2c000020, 1, 4, 1, 4, false, false, [⟨31, 0, .ro⟩]⟩ ] ++
  [ ⟨0x2c000024, 1, 4, 1, 4, false, false, [⟨0, 0, .ro⟩, ⟨7, 4, .ro⟩, ⟨11, 8, .ro⟩, ⟨19, 12, .ro⟩]⟩ ] ++
  [ ⟨0x2c000028, 1, 4, 1, 4, false, false, [⟨12, 0, .ro⟩]⟩ ] ++
  [ ⟨0x2c00002c, 1, 4, 1, 4, false, false, [⟨31, 0, .ro⟩]⟩ ] ++
  [ ⟨0x2c000030, 1, 8, 1, 8, true, false, [⟨63, 0, .ro⟩]⟩ ] ++
  [ ⟨0x2c000100, 4, 256, 4, 8, true, false, [⟨63, 0, .ro⟩]⟩ ] ++
  [ ⟨0x2c000120, 4, 256, 4, 8, true, false, [⟨63, 0, .ro⟩]⟩ ] ++
  [ ⟨0x2c000140, 4, 256, 4, 8, true, false, [⟨63, 0, .ro⟩]⟩ ] ++
  [ ⟨0x2c000160, 4, 256, 10, 4, false, false, [⟨31, 0, .ro⟩]⟩ ] ++
  [ ⟨0x2c000500, 4, 128, 12, 8, true, false, [⟨63, 0, .ro⟩]⟩ ] ++
  [ ⟨0x2c000800, 8, 16, 1, 16, true, false, [⟨63, 0, .ro⟩]⟩ ] ++
  [ ⟨0x2c000808, 8, 16, 1, 16, false, false, [⟨31, 0, .ro⟩]⟩ ] ++
  [ ⟨0x2c000c00, 16, 32, 4, 8, true, true, [⟨63, 0, .ro⟩]⟩ ] ++
  [ ⟨0x2c001000, 1, 8, 1, 8, true, false, [⟨3, 0, .wo⟩, ⟨15, 8, .wo⟩, ⟨63, 32, .wo⟩]⟩ ]

/-- The registers of the `PCI_` block. -/
def regsPci : List RegDesc :=
  [ ⟨0x30000000, 1, 4, 1, 4, false, false, [⟨0, 0, .ro⟩, ⟨2, 1, .ro⟩, ⟨6, 3, .ro⟩]⟩ ] ++
  [ ⟨0x30000004, 1, 4, 1, 4, false, false, [⟨0, 0, .w1c⟩, ⟨1, 1, .w1c⟩, ⟨2, 2, .w1c⟩]⟩ ] ++
  [ ⟨0x30000008, 1, 4, 1, 4, false, false, [⟨0, 0, .wo⟩, ⟨1, 1, .wo⟩]⟩ ] ++
  [ ⟨0x3000000c, 1, 4, 1, 4, false, false, [⟨11, 0, .rw⟩]⟩ ] ++
  [ ⟨0x30000010, 1, 8, 1, 8, true, false, [⟨63, 12, .rw⟩]⟩ ] ++
  [ ⟨0x30000018, 1, 4, 1, 4, false, false, [⟨31, 0, .ro⟩]⟩ ] ++
  [ ⟨0x3000001c, 1, 4, 1, 4, false, false, [⟨31, 0, .ro⟩]⟩ ] ++
  [ ⟨0x30000020, 1, 4, 1, 4, false, false, [⟨31, 0, .ro⟩]⟩ ] ++
  [ ⟨0x30000024, 1, 4, 1, 4, false, false, [⟨1, 0, .ro⟩]⟩ ] ++
  [ ⟨0x30000028, 1, 8, 1, 8, true, false, [⟨63, 0, .rw⟩]⟩ ] ++
  [ ⟨0x30000030, 1, 4, 1, 4, false, false, [⟨31, 0, .wo⟩]⟩ ] ++
  [ ⟨0x30000100, 4, 16, 1, 16, true, false, [⟨0, 0, .rw⟩, ⟨1, 1, .rw⟩, ⟨3, 2, .rw⟩, ⟨31, 16, .rw⟩, ⟨48, 32, .rw⟩]⟩ ] ++
  [ ⟨0x30000108, 4, 16, 1, 16, true, false, [⟨39, 23, .rw⟩]⟩ ] ++
  [ ⟨0x30000140, 4, 4, 1, 4, false, false, [⟨0, 0, .ro⟩, ⟨1, 1, .w1c⟩, ⟨31, 8, .ro⟩]⟩ ] ++
  [ ⟨0x30000200, 16, 32, 1, 32, true, false, [⟨0, 0, .rw⟩, ⟨6, 1, .rw⟩, ⟨11, 8, .rw⟩, ⟨15, 12, .rw⟩, ⟨27, 16, .rw⟩]⟩ ] ++
  [ ⟨0x30000208, 16, 32, 1, 32, true, false, [⟨39, 6, .rw⟩]⟩ ] ++
  [ ⟨0x30000210, 16, 32, 1, 32, true, false, [⟨39, 6, .rw⟩]⟩ ] ++
  [ ⟨0x30000218, 16, 32, 1, 32, true, false, [⟨15, 0, .ro⟩, ⟨31, 16, .rw⟩, ⟨47, 32, .rw⟩, ⟨63, 48, .ro⟩]⟩ ]

/-- The registers of the `PWR_` block. -/
def regsPwr : List RegDesc :=
  [ ⟨0x34000000, 1, 4, 1, 4, false, false, [⟨0, 0, .ro⟩, ⟨1, 1, .ro⟩, ⟨2, 2, .ro⟩, ⟨3, 3, .ro⟩, ⟨4, 4, .ro⟩, ⟨5, 5, .w1c⟩]⟩ ] ++
  [ ⟨0x34000004, 1, 4, 1, 4, false, false, [⟨0, 0, .wo⟩, ⟨15, 8, .wo⟩]⟩ ] ++
  [ ⟨0x34000008, 1, 4, 1, 4, false, false, [⟨11, 0, .rw⟩, ⟨27, 16, .rw⟩]⟩ ] ++
  [ ⟨0x3400000c, 1, 4, 1, 4, false, false, [⟨2, 0, .ro⟩, ⟨7, 4, .ro⟩]⟩ ] ++
  [ ⟨0x34000010, 1, 4, 1, 4, false, false, [⟨0, 0, .rw⟩, ⟨1, 1, .ro⟩, ⟨2, 2, .ro⟩, ⟨3, 3, .ro⟩, ⟨7, 4, .ro⟩]⟩ ] ++
  [ ⟨0x34000018, 1, 8, 1, 8, true, false, [⟨63, 0, .ro⟩]⟩ ] ++
  [ ⟨0x34000020, 1, 8, 1, 8, true, false, [⟨63, 0, .ro⟩]⟩ ] ++
  [ ⟨0x34000028, 1, 8, 1, 8, true, false, [⟨63, 0, .ro⟩]⟩ ] ++
  [ ⟨0x34000030, 1, 4, 1, 4, false, false, [⟨27, 0, .rw⟩]⟩ ] ++
  [ ⟨0x34000034, 1, 4, 1, 4, false, false, [⟨11, 0, .ro⟩, ⟨27, 16, .ro⟩]⟩ ] ++
  [ ⟨0x34000038, 1, 4, 1, 4, false, false, [⟨11, 0, .ro⟩, ⟨27, 16, .ro⟩]⟩ ]

/-- The registers of the `THM_` block. -/
def regsThm : List RegDesc :=
  [ ⟨0x38000000, 9, 4, 1, 4, false, false, [⟨15, 0, .ro⟩, ⟨16, 16, .ro⟩]⟩ ] ++
  [ ⟨0x38000040, 9, 4, 1, 4, false, false, [⟨15, 0, .ro⟩]⟩ ] ++
  [ ⟨0x38000080, 1, 4, 1, 4, false, false, [⟨11, 0, .rw⟩, ⟨12, 12, .rw⟩]⟩ ] ++
  [ ⟨0x38000084, 1, 4, 1, 4, false, false, [⟨0, 0, .w1c⟩, ⟨1, 1, .w1c⟩, ⟨2, 2, .w1c⟩]⟩ ] ++
  [ ⟨0x38000088, 1, 4, 1, 4, false, false, [⟨0, 0, .wo⟩]⟩ ]

/-- The registers of one 64 MiB block of the window, by block number (R36); block 15 is reserved. -/
def regsOfBlock : Nat → List RegDesc
  | 0 => regsFrm
  | 1 => regsTime
  | 2 => regsSe
  | 3 => regsLe
  | 4 => regsFp
  | 5 => regsCas
  | 6 => regsGrv
  | 7 => regsIrq
  | 8 => regsDma
  | 9 => regsHwd
  | 10 => regsCfg
  | 11 => regsMet
  | 12 => regsPci
  | 13 => regsPwr
  | 14 => regsThm
  | _ => []

end Sys2Proof.Machine
end

