-- ==== Sys2Proof/Machine/Flags.lean ====
section
/-! DEFINITION. The access codes of register fields: what a read returns and what a write leaves (R12-R17). -/

namespace Sys2Proof.Machine

/-- The registers of the block a window offset lies in (R36): fifteen blocks of 64 MiB, the sixteenth reserved. -/
def RegDesc.offsets (d : RegDesc) (off : Nat) : Bool :=
  d.base ≤ off &&
    (let k := off - d.base
     let size := if d.wide then 8 else 4
     -- the two instance numbers that put the register at this offset, the second index inside the first
     if d.n2 ≤ 1 then k / d.s1 < d.n1 && k % d.s1 < size
     else if d.s1 ≥ d.s2 then k / d.s1 < d.n1 && (k % d.s1) / d.s2 < d.n2 && (k % d.s1) % d.s2 < size
     else k / d.s2 < d.n2 && (k % d.s2) / d.s1 < d.n1 && (k % d.s2) % d.s1 < size)

/-- The first byte of the register that holds a window offset. -/
def RegDesc.start (d : RegDesc) (off : Nat) : Nat :=
  off - (off - d.base) % (if d.n2 ≤ 1 then d.s1 else min d.s1 d.s2)

/-- The register at a window offset, if any: its description and its own offset. -/
def regAt (off : Nat) : Option (RegDesc × Nat) :=
  match (regsOfBlock (off / 0x400_0000)).find? (fun d => d.offsets off) with
  | some d => some (d, d.start off)
  | none => none

/-- The bits of a field. -/
def FieldDesc.mask (f : FieldDesc) : Nat := 2 ^ (f.hi + 1) - 2 ^ f.lo

/-- Old value, written value: the field after the write, by its access code (R12); `locked` once start has completed (R13). -/
def FieldDesc.after (locked : Bool) (f : FieldDesc) (old new : Nat) : Nat :=
  match f.acc with
  | .ro => bits old f.hi f.lo
  | .rw => bits new f.hi f.lo
  | .wo => bits old f.hi f.lo
  | .w1c => bits old f.hi f.lo - (bits old f.hi f.lo &&& bits new f.hi f.lo)
  | .w1s => bits old f.hi f.lo ||| bits new f.hi f.lo
  | .rwl => if locked then bits old f.hi f.lo else bits new f.hi f.lo

/-- The bits of `new` where `mask` has 1, those of `old` elsewhere. -/
def merge (mask old new : Nat) : Nat := (old &&& (2 ^ 64 - 1 - mask)) ||| (new &&& mask)

/-- The register after a write of `new` over the bits of `mask` (a 32-bit half of a 64-bit register writes its own bits);
bits that no field covers stay 0 (R16). -/
def RegDesc.after (d : RegDesc) (locked : Bool) (mask old new : Nat) : Nat :=
  d.fields.foldl (fun acc f =>
    let seen := match f.acc with
      | .w1c => new &&& mask
      | .w1s => new &&& mask
      | _ => merge mask old new
    setBits acc f.hi f.lo (f.after locked old seen)) old

/-- What a read returns of a register's stored value: WO fields read 0 (R12). -/
def RegDesc.seen (d : RegDesc) (v : Nat) : Nat :=
  d.fields.foldl (fun acc f => if f.acc == .wo then setBits acc f.hi f.lo 0 else acc) v

end Sys2Proof.Machine
end

