-- ==== Sys2Proof/Machine/Lines.lean ====
section
/-! DEFINITION. The caches, the home directory and the failed lines of GDDR7 (11.1, 11.5-11.7, 11.9): where a line is held, how it
comes and goes. Bytes stand in `State.mem`, which is what a coherent read returns; a cache is the list of the lines it holds. -/

namespace Sys2Proof.Machine

/-! ### Lines -/

/-- The lines that `n` bytes from `a` touch. -/
def linesOf (a n : Nat) : List Nat := if n == 0 then [] else (List.range ((a + n - 1) / 64 - a / 64 + 1)).map (a / 64 + ·)

/-- Does a write cover a line whole? -/
def covers (a n line : Nat) : Bool := a ≤ 64 * line && 64 * line + 64 ≤ a + n

/-- A line comes to the front of a set-associative structure with LRU replacement; the entry that gives way, if its set is full
(R367). -/
def lruPut {α : Type} (ways : Nat) (set : Nat → Nat) (line : Nat) (x : α) (l : List (Nat × α)) : List (Nat × α) × Option (Nat × α) :=
  let rest := l.filter fun e => e.1 != line
  if rest.length < ways then ((line, x) :: rest, none)
  else
    let same := rest.filter fun e => set e.1 == set line
    if same.length < ways then ((line, x) :: rest, none)
    else match same.getLast? with
      | some v => ((line, x) :: rest.filter (fun e => e.1 != v.1), some v)
      | none => ((line, x) :: rest, none)

/-- A use of a line that is present makes it the most recent. -/
def lruTouch {α : Type} (line : Nat) (l : List (Nat × α)) : List (Nat × α) :=
  match mapGet? l line with
  | some x => (line, x) :: l.filter fun e => e.1 != line
  | none => l

/-- A line's state changes where it stands. -/
def lineSet {α : Type} (line : Nat) (x : α) (l : List (Nat × α)) : List (Nat × α) :=
  l.map fun e => if e.1 == line then (line, x) else e

/-- The home slice of a line (R368). -/
def homeSlice (line : Nat) : Nat :=
  let a := 64 * line
  bits a 9 6 ^^^ bits a 13 10 ^^^ bits a 17 14 ^^^ bits a 21 18

/-- The home slice of a line and its directory set in one number (R368). -/
def dirSet (line : Nat) : Nat := homeSlice line * 2048 + bits (64 * line) 20 10

/-- The set of a line in an L2 and in its L3 slice: 4,096 each by R367; which line goes to which set is free (log 41). -/
def l2Set (line : Nat) : Nat := Config.l2Index line % 4096
def l3Set (line : Nat) : Nat := homeSlice line * 4096 + Config.l3Index line % 4096

/-! ### Failed lines (R399, R441) -/

/-- Is a line failed as GDDR7 holds it: by its own error, or as a line written under memory keys that are destroyed? -/
def State.isFailed (s : State) (line : Nat) : Bool :=
  s.coh.failed.contains line || (s.coh.stale && !s.coh.fresh.contains line)

/-- Does a failed line fail by its MAC? -/
def State.macBad (s : State) (line : Nat) : Bool :=
  s.coh.macFailed.contains line || !s.coh.failed.contains line

/-- A line becomes failed: uncorrectable, or failing its MAC. -/
def State.failLine (s : State) (line : Nat) (mac : Bool) : State :=
  if s.isFailed line then s else s.modCoh fun c => { c with
    failed := line :: c.failed, macFailed := if mac then line :: c.macFailed else c.macFailed }

/-- A line is written whole to GDDR7. -/
def State.mendLine (s : State) (line : Nat) : State :=
  if s.isFailed line then s.modCoh fun c => { c with
    failed := c.failed.filter (· != line), macFailed := c.macFailed.filter (· != line),
    fresh := if c.stale then line :: c.fresh.filter (· != line) else c.fresh } else s

/-! ### Poisoned words (R374, R375) -/

/-- Does some poisoned 8-byte word overlap `n` bytes from `a`? -/
def State.poisonedIn (s : State) (a n : Nat) : Bool := s.coh.poisoned.any fun w => a ≤ w * 8 + 7 && w * 8 < a + n

/-- An 8-byte word becomes poisoned. -/
def State.poison (s : State) (a : Nat) : State :=
  if s.coh.poisoned.contains (a / 8) then s else s.modCoh fun c => { c with poisoned := a / 8 :: c.poisoned }

/-- Is a tag poisoned? -/
def State.tagPoisoned (s : State) (tag : Nat) : Bool := s.poisonedIn (tagAddr tag) 64

/-! ### L3 and what a read finds -/

/-- A line comes to L3 as its most recent, `dirty` with data that GDDR7 does not have yet; a dirty line that gives way is written to
GDDR7 whole. -/
def State.toL3 (s : State) (line : Nat) (dirty : Bool) : State :=
  let was := (mapGet? s.coh.l3 line).getD false
  let (l, out) := lruPut 16 l3Set line (dirty || was) s.coh.l3
  let s := s.modCoh fun c => { c with l3 := l }
  match out with
  | some (v, true) => s.mendLine v
  | _ => s

/-- A line leaves L3 without being written. -/
def State.dropL3 (s : State) (line : Nat) : State := s.modCoh fun c => { c with l3 := c.l3.filter fun e => e.1 != line }

def State.inL3 (s : State) (line : Nat) : Bool := (mapGet? s.coh.l3 line).isSome

def State.l2 (s : State) (cl : Nat) : List (Nat × LineState) := mapGet [] s.coh.l2 cl

/-- The state of a line in a cluster's L2; none: invalid. -/
def State.l2State (s : State) (cl line : Nat) : Option LineState := mapGet? (s.l2 cl) line

/-- Does a cluster own a line: E or M in its L2? -/
def State.clOwns (s : State) (cl line : Nat) : Bool :=
  match s.l2State cl line with
  | some .m => true
  | some .e => true
  | _ => false

/-- Does some L2 hold a line in M? -/
def State.dirty (s : State) (line : Nat) : Bool := (List.range 4).any fun cl => s.l2State cl line == some .m

/-- Is a line in L3 or some L2, so that a read of it does not reach GDDR7? -/
def State.cached (s : State) (line : Nat) : Bool := s.inL3 line || (List.range 4).any fun cl => (s.l2State cl line).isSome

/-- Does a read of a line fail: it reaches GDDR7, where the line is failed? -/
def State.fails (s : State) (line : Nat) : Bool := s.isFailed line && !s.cached line

/-! ### Losing a line -/

/-- The first of the loads that executed on a line of the shadow buffer is re-executed, and every younger one with it (R322, R328). -/
def replayFrom (age : Nat) (l : List EarlyLoad) : List EarlyLoad :=
  (l.filter fun e => e.age ≤ age).map fun e => if e.age == age then { e with ran := false, replays := e.replays + 1 } else e

/-- A core's shadow-buffer entry of a line is invalidated. -/
def CoreSt.dropShadow (k : CoreSt) (line : Nat) : CoreSt :=
  if !k.shadow.contains line then k
  else
    let k := { k with shadow := k.shadow.filter (· != line) }
    match k.lq.find? fun e => e.ran && e.parts.any fun p => p.1 / 64 == line with
    | some e => { k with lq := replayFrom e.age k.lq }
    | none => k

/-- A line leaves a core's L1I and L1D, and the reservation with it (R305). -/
def CoreSt.dropL1 (k : CoreSt) (line : Nat) : CoreSt :=
  { k with
    l1d := k.l1d.filter fun e => e.1 != line
    l1i := k.l1i.filter (· != line)
    rsv := if k.rsv == some line then none else k.rsv }

/-- A core loses every copy of a line. -/
def CoreSt.dropLine (k : CoreSt) (line : Nat) : CoreSt := (k.dropL1 line).dropShadow line

/-- The cores that have an entry, and those of them in a cluster. -/
def State.coreList (s : State) : List Nat := s.cores.map (·.1)
def State.coresOf (s : State) (cl : Nat) : List Nat := s.coreList.filter fun c => clusterOf c == cl

/-- The record an L2 keeps of the lines in its cores' shadow buffers, and of those on their way there (R369). -/
def State.specHeld (s : State) (cl line : Nat) : Bool :=
  (s.coresOf cl).any fun c => (s.core c).shadow.contains line || (s.core c).misses.any fun m => m.line == line && m.kind == .spec

def State.l2Drop (s : State) (cl line : Nat) : State :=
  s.modCoh fun c => { c with l2 := mapSet [] c.l2 cl ((mapGet [] c.l2 cl).filter fun e => e.1 != line) }

/-- A cluster invalidates a line: its L2, the L1s and the shadow buffers of its cores; a miss for a shadow buffer that is on its way
goes with it (R328, R369). -/
def State.dropAt (s : State) (cl line : Nat) : State :=
  (s.l2Drop cl line).each (s.coresOf cl) fun s c => s.modCore c fun k =>
    let k := k.dropLine line
    { k with misses := k.misses.filter fun m => !(m.line == line && m.kind == .spec) }

/-- Is a line blocked by an open transaction at its home (R383)? -/
def State.blocked (s : State) (line : Nat) : Bool := (mapGet? s.coh.opened line).isSome

/-- Change a line's directory entry; an entry that no cluster holds goes, unless its line's transaction is open. -/
def State.dirMod (s : State) (line : Nat) (f : DirEntry → DirEntry) : State :=
  match mapGet? s.coh.dir line with
  | none => s
  | some e =>
    let e := f e
    if e.presence == 0 && !s.blocked line then s.modCoh fun c => { c with dir := mapDel c.dir line }
    else s.modCoh fun c => { c with dir := mapPut c.dir line e }

/-- A cluster's presence goes. -/
def State.clearPresence (s : State) (cl line : Nat) : State := s.dirMod line fun e => { e with presence := setBits e.presence cl cl 0 }

/-- Every cluster but one invalidates a line, and the directory forgets them; the entry stays for the one that is kept (R385). -/
def State.dropOthers (s : State) (line : Nat) (keep : Option Nat) : State :=
  let s := s.each ((List.range 4).filter fun cl => keep != some cl) fun s cl => s.dropAt cl line
  match keep with
  | none => s.dirMod line fun e => { e with presence := 0 }
  | some cl => s.modCoh fun c => match mapGet? c.dir line with
    | some e => { c with dir := mapPut c.dir line { e with presence := e.presence &&& 2 ^ cl } }
    | none => c

/-- An invalidating write (R391): every copy goes and reservations with them; L3 is updated if it holds the line; a whole line mends
a failed one (R399). -/
def State.invalidatingWrite (s : State) (a : Nat) (bs : List Byte) : State :=
  let s := s.each (linesOf a bs.length) fun s line =>
    let whole := covers a bs.length line || s.cached line
    let s := (s.dropOthers line none).iff whole (·.mendLine line)
    s.modCoh fun c => { c with l3 := lineSet line false c.l3 }
  s.wrB a bs

/-! ### Write-backs and evictions of an L2 (R369, R382, R384) -/

/-- Has a cluster sent a WriteBack of a line that is not acknowledged? -/
def State.wbPendingAt (s : State) (cl line : Nat) : Bool := (mapGet [] s.coh.wbPending cl).contains line
def State.setWb (s : State) (cl line : Nat) (on : Bool) : State :=
  s.modCoh fun c =>
    let l := (mapGet [] c.wbPending cl).filter (· != line)
    { c with wbPending := mapSet [] c.wbPending cl (if on then line :: l else l) }

/-- A request of a cluster. -/
def clusterReq (kind : ReqKind) (cl line : Nat) (rt : Bool) : HomeReq := { kind := kind, cluster := some cl, line := line, rt := rt }

/-- A line leaves an L2 that needs its place: its L1 copies go first, the cluster's shadow-buffer copies with them as its presence is
cleared (log 41), and a WriteBack or an Evict reaches the home, or waits there for the line's open transaction. -/
def State.evictL2 (s : State) (cl line : Nat) (st : LineState) : State :=
  let s := s.dropAt cl line
  if s.blocked line then
    let kind := if st == .m then ReqKind.writeBack else ReqKind.evict
    let waiting : Bool := match mapGet? s.coh.opened line with
      | some t => bitOf t.snoops cl && st == .m
      | none => false
    let s := s.iff (st == .m) (·.setWb cl line true)
    if waiting then s else s.modCoh fun c => { c with waiting := c.waiting ++ [clusterReq kind cl line false] }
  else (s.toL3 line (st == .m)).clearPresence cl line

/-- A line comes to an L2, or changes its state there; it is the most recent. -/
def State.fillL2 (s : State) (cl line : Nat) (st : LineState) : State :=
  let (l, out) := lruPut 16 l2Set line st (s.l2 cl)
  let s := s.modCoh fun c => { c with l2 := mapSet [] c.l2 cl l }
  match out with
  | some (v, vst) => s.evictL2 cl v vst
  | none => s

/-- An L2 line changes its state where it stands, and its cluster's L1D copies become S with it when it goes to S. -/
def State.setL2 (s : State) (cl line : Nat) (st : LineState) : State :=
  let s := s.modCoh fun c => { c with l2 := mapSet [] c.l2 cl (lineSet line st (mapGet [] c.l2 cl)) }
  if st == .s then s.each (s.coresOf cl) fun s c => s.modCore c fun k => { k with l1d := lineSet line .s k.l1d } else s

/-! ### The directory (R368, R370, R385) -/

/-- Where the entry of a line goes: it has one; a free way; the way of an entry that is evicted; nowhere (R385, R386). -/
inductive Room where
  | entry
  | way (w : Nat)
  | evict (w victim : Nat)
  | full
deriving DecidableEq, Repr

/-- The room for a line's entry: ways 0-3 are for real-time requests alone, a way held for a reservation for its holder. -/
def State.dirRoom (s : State) (line : Nat) (rt : Bool) (own : Option Nat) : Room :=
  if (mapGet? s.coh.dir line).isSome then .entry
  else
    let set := dirSet line
    let inSet := s.coh.dir.filter fun e => dirSet e.1 == set
    let held := s.coh.retry.filterMap fun q => if dirSet q.line == set then q.way else none
    let ways := match own with
      | some w => [w]
      | none => (List.range 16).filter fun w => (rt || 4 ≤ w) && !held.contains w
    match ways.find? fun w => !inSet.any fun e => e.2.way == w with
    | some w => .way w
    | none =>
      match (isort (fun e => e.2.age) (inSet.filter fun e => ways.contains e.2.way && !s.blocked e.1)).head? with
      | some e => .evict e.2.way e.1
      | none => .full

/-- Write a line's entry, allocating it where there is room: an evicted entry's holders are invalidated, dirty data goes to L3. -/
def State.dirPut (s : State) (line : Nat) (rt : Bool) (own : Option Nat) (unique : Bool) (presence : Nat) : State :=
  let put (s : State) (w : Nat) : State := s.modCoh fun c => { c with
    dir := mapPut c.dir line { unique := unique, presence := presence, age := c.dirSeq, way := w }, dirSeq := c.dirSeq + 1 }
  match s.dirRoom line rt own with
  | .entry => s.modCoh fun c => match mapGet? c.dir line with
    | some e => { c with dir := mapPut c.dir line { e with unique := unique, presence := presence } }
    | none => c
  | .way w => put s w
  | .evict w v => put ((s.iff (s.dirty v) (·.toL3 v true)).dropOthers v none) w
  | .full => s

/-- The clusters that a line's entry records, but one. -/
def State.otherHolders (s : State) (cl line : Nat) : Nat :=
  match mapGet? s.coh.dir line with
  | some e => setBits e.presence cl cl 0
  | none => 0

/-! ### A core's own requests (R385, R386) -/

/-- The retried request of a core's own row for a line, if any. -/
def State.ownRetry (s : State) (c line : Nat) : Option HomeReq := s.coh.retry.find? fun q => q.own && q.core == c && q.line == line

/-- The way held for a core's request for a line. -/
def State.ownWay (s : State) (c line : Nat) : Option Nat :=
  match s.ownRetry c line with
  | some q => q.way
  | none => none

/-- A request that is answered Retry: a real-time one gains a reservation at its first retry, a bulk one at its fourth (R386). -/
def HomeReq.retried (q : HomeReq) : HomeReq :=
  { q with retries := q.retries + 1, reserved := q.reserved || q.rt || 4 ≤ q.retries + 1 }

/-- A core's request reaches its line's home: it is served now (true), waits for the line's open transaction, or is answered
Retry. -/
def State.ask (s : State) (c line : Nat) (rt : Bool) : Bool × State :=
  if s.blocked line then (false, s)
  else if s.dirRoom line rt (s.ownWay c line) != .full then (true, s)
  else match s.ownRetry c line with
    | some q => (false, s.modCoh fun x => { x with retry := x.retry.map fun o => if o = q then q.retried else o })
    | none =>
      let q := { clusterReq .readUnique (clusterOf c) line rt with core := c, own := true }
      (false, s.modCoh fun x => { x with retry := x.retry ++ [q.retried] })

/-- A core's request for a line is served or dropped: its retries end. -/
def State.asked (s : State) (c line : Nat) : State :=
  if (s.ownRetry c line).isSome then s.modCoh fun x => { x with retry := x.retry.filter fun q => !(q.own && q.core == c && q.line == line) } else s

/-- Every retried request of a core's instruction in progress is dropped; those of its retired stores and its misses stay. -/
def State.dropAsked (s : State) (c : Nat) : State :=
  let k := s.core c
  if s.coh.retry.any fun q => q.own && q.core == c then s.modCoh fun x => { x with retry := x.retry.filter fun q =>
    !(q.own && q.core == c && !(k.misses.any fun m => m.line == q.line) && !(k.sb.any fun e => e.len == 0 && e.addr / 64 == q.line)) } else s

/-! ### L1 (R328, R367, R369, R370) -/

/-- A list of lines after a fill: in a full set a way of free choice gives way, as the pseudo-LRU order of hits, discarded ones among
them, is not the model's (log 5). -/
def l1Fill {α : Type} (ways sets pick line : Nat) (key : α → Nat) (x : α) (l : List α) : List α :=
  let same := l.filter fun o => key o % sets == line % sets && key o != line
  let l := l.filter fun o => key o != line
  if same.length < ways then x :: l
  else match same[pick % ways]? with
    | some v => x :: l.filter fun o => key o != key v
    | none => x :: l

/-- A line enters a core's L1I, or its L1D in a state; a line that leaves L1D takes the reservation with it (R305). -/
def State.fillL1I (s : State) (c line : Nat) : State :=
  let pick := s.free.toNat
  (s.modCore c fun k => { k with l1i := l1Fill 4 256 pick line id line k.l1i }).drawn

def State.fillL1D (s : State) (c line : Nat) (st : LineState) : State :=
  let pick := s.free.toNat
  (s.modCore c fun k =>
    let l := l1Fill 8 128 pick line Prod.fst (line, st) k.l1d
    { k with l1d := l, rsv := match k.rsv with
        | some r => if (mapGet? l r).isSome then some r else none
        | none => none }).drawn

/-- The state of a line in a core's L1D. -/
def State.l1dState (s : State) (c line : Nat) : Option LineState := mapGet? (s.core c).l1d line

/-- Does a core's L1D hold a line in E or M? -/
def State.ownsLine (s : State) (c line : Nat) : Bool :=
  match s.l1dState c line with
  | some .m => true
  | some .e => true
  | _ => false

/-- Does another cluster hold a line, in its L2 or in a shadow buffer of its cores? -/
def State.othersHold (s : State) (c line : Nat) : Bool :=
  (List.range 4).any fun cl => cl != clusterOf c && ((s.l2State cl line).isSome || s.specHeld cl line)

/-- The cluster of a core comes to own a line, in E or M: every other copy goes, other cores' reservations too (ReadUnique, Upgrade;
R382, R387). A line that the cluster owns already moves inside it. -/
def State.takeL2 (s : State) (c line : Nat) (rt : Bool) (st : LineState) : State :=
  let cl := clusterOf c
  let st := if s.l2State cl line == some .m then .m else st
  if s.clOwns cl line then s.fillL2 cl line st
  else
    let s := (s.iff (!s.cached line) (·.toL3 line false)).iff (s.dirty line) (·.toL3 line true)
    (((s.dropOthers line (some cl)).dirPut line rt (s.ownWay c line) true (2 ^ cl)).asked c line).fillL2 cl line st

/-- A line comes to a core's L1D to be written (M), or read by LR (E). -/
def State.takeLine (s : State) (c line : Nat) (rt : Bool) (st : LineState) : State :=
  let s := s.takeL2 c line rt st
  let s := s.each ((s.coresOf (clusterOf c)).filter (· != c)) fun s d => s.modCore d (·.dropLine line)
  let s := s.modCore c fun k => { k with l1i := k.l1i.filter (· != line), shadow := k.shadow.filter (· != line) }
  match s.l1dState c line with
  | some .m => s
  | some _ => s.modCore c fun k => { k with l1d := lineSet line st k.l1d }
  | none => s.fillL1D c line st

/-- A cluster obtains a line to read it: E when no other cluster holds it and it is no fetch, else S; another cluster's owner goes to
S, its dirty data to L3 (R370, R382). -/
def State.shareL2 (s : State) (cl line : Nat) (rt fetch : Bool) (own : Option Nat) : State :=
  match s.l2State cl line with
  | some st => s.fillL2 cl line st
  | none =>
    let others := s.otherHolders cl line
    let alone := others == 0 && !fetch
    let s := (s.iff (!s.cached line) (·.toL3 line false)).iff (s.dirty line) (·.toL3 line true)
    let s := s.each ((List.range 4).filter fun d => d != cl && (s.l2State d line).isSome) fun s d => s.setL2 d line .s
    (s.dirPut line rt own alone (setBits others cl cl 1)).fillL2 cl line (if alone then .e else .s)

/-- A line of the core's cluster comes to its L1: an L1D alone in an owning cluster has it in E, else it and the other L1Ds in S. -/
def State.shareL1 (s : State) (c line : Nat) (fetch : Bool) : State :=
  if fetch then s.fillL1I c line
  else
    let cl := clusterOf c
    let peers := (s.coresOf cl).filter fun d => d != c && (s.l1dState d line).isSome
    if s.clOwns cl line && peers.isEmpty then s.fillL1D c line .e
    else (s.each peers fun s d => s.modCore d fun k => { k with l1d := lineSet line .s k.l1d }).fillL1D c line .s

/-- A miss is filled: the line comes to L2 and L1. -/
def State.shareLine (s : State) (c line : Nat) (rt fetch : Bool) : State :=
  (((s.shareL2 (clusterOf c) line rt fetch (s.ownWay c line)).asked c line)).shareL1 c line fetch

/-- A line of the shadow buffer that a retired instruction used goes to L1 and L2, where its directory entry already names the
cluster (R328, R330). -/
def State.promote (s : State) (c line : Nat) (fetch : Bool) : State :=
  if !(s.core c).shadow.contains line then s
  else
    let s := s.modCore c fun k => { k with shadow := k.shadow.filter (· != line) }
    (s.shareL2 (clusterOf c) line false true none).shareL1 c line fetch

/-- A unit's write to GDDR7 at the home of its lines (R391), by units that cannot wait: alarm and message rings are offered again while
a line is blocked (log 35). -/
def State.linesFree (s : State) (a n : Nat) : Bool := (linesOf a n).all fun line => !s.blocked line

end Sys2Proof.Machine
end

