-- ==== Sys2Proof/Machine/CoreOps.lean ====
section
/-! DEFINITION. The groves' holdings and the architectural state of the cores: which grove holds a unit (R269-R272), the levels
(R340), registers and CSRs of the running context (R344), the predictor (R331, R332), the context records and the switch
(R308, R343-R346). -/

namespace Sys2Proof.Machine

/-! ### Holdings -/

/-- The grove, if any, whose record satisfies a condition. -/
def State.groveWith (s : State) (p : GroveRec → Bool) : Option Nat :=
  match s.groves.find? (fun e => p e.2.cfg) with
  | some (g, _) => some g
  | none => none

def inRange (first count i : Nat) : Bool := first ≤ i && i < first + count

def State.groveOfCore (s : State) (c : Nat) : Option Nat := s.groveWith fun r => bitOf r.cores c
def State.groveOfLane (s : State) (l : Nat) : Option Nat := s.groveWith fun r => bitOf r.lanes l
def State.groveOfEngine (s : State) (e : Nat) : Option Nat := s.groveWith fun r => bitOf r.engines e
def State.groveOfPort (s : State) (p : Nat) : Option Nat := s.groveWith fun r => bitOf r.ports p
def State.groveOfTag (s : State) (t : Nat) : Option Nat := s.groveWith fun r => inRange r.tagFirst r.tagCount t
def State.groveOfSource (s : State) (i : Nat) : Option Nat := s.groveWith fun r => inRange r.irqFirst r.irqCount i
def State.groveOfCtx (s : State) (i : Nat) : Option Nat := s.groveWith fun r => inRange r.ctxFirst r.ctxCount i

/-- Size of a GDDR7 or Frame SRAM grain (R269, R270). -/
def grain : Nat := 0x20_0000

/-- Frame SRAM grain i (R270). -/
def sramGrain (i : Nat) : Nat := 0x10_0120_0000 + i * grain

/-- The ranges of grove memory as (start, end) (R270). -/
def GroveRec.memory (r : GroveRec) : List (Nat × Nat) :=
  (r.mem.filter fun e => e.2 != 0).map (fun e => (e.1 * grain, (e.1 + e.2) * grain)) ++
    (bitsSet 5 r.sram).map (fun i => (sramGrain i, sramGrain i + grain))

/-- Does a range of bytes lie wholly in a union of ranges? Each step drops the part that the first range covers. -/
def coveredBy (ranges : List (Nat × Nat)) : Nat → Nat → Nat → Bool
  | 0, _, _ => false
  | k + 1, lo, hi =>
    if hi ≤ lo then true
    else match ranges.find? (fun r => r.1 ≤ lo && lo < r.2) with
      | some r => coveredBy ranges k r.2 hi
      | none => false

def within (ranges : List (Nat × Nat)) (lo n : Nat) : Bool := coveredBy ranges (ranges.length + 1) lo (lo + n)

/-- Does a grove's memory hold all of `n` bytes from `lo`? -/
def GroveRec.holds (r : GroveRec) (lo n : Nat) : Bool := within r.memory lo n

/-! ### Cores -/

/-- Do the cores of a grove run: RUNNING or STANDBY, and no freeze point reached (R278, R291)? -/
def State.coresRun (s : State) (g : Nat) : Bool :=
  (s.get (Fd.GRV_STAT.STATE g) == 2 || s.get (Fd.GRV_STAT.STATE g) == 4) && !(mapGet {} s.groves g).freezing

/-- A core that has a running context, in a grove whose cores run, and is not stopped by debug. -/
def State.runs (s : State) (c : Nat) : Bool :=
  (s.core c).ctxId.isSome && !(s.core c).halted && (match s.groveOfCore c with
    | some g => s.coresRun g
    | none => false)

/-- The top level of a core is E when its grove has EXEC (R340). -/
def State.topE (s : State) (c : Nat) : Bool :=
  match s.groveOfCore c with
  | some g => (s.grv g).cfg.exec
  | none => false

def levelNo : Level → Nat
  | .u => 0
  | .s => 1
  | .e => 2

def levelOf : Nat → Level
  | 0 => .u
  | 2 => .e
  | _ => .s

def State.pc (s : State) (c : Nat) : Nat := (s.core c).ctx.pc.toNat
def State.setPc (s : State) (c pc : Nat) : State := s.modCtx c fun k => { k with pc := BitVec.ofNat 64 pc }
def State.setLevel (s : State) (c : Nat) (l : Level) : State := s.modCtx c fun k => { k with level := l }

/-- Integer register i; x0 reads 0 and discards writes. -/
def State.x (s : State) (c i : Nat) : Nat := if i == 0 then 0 else (mapGet 0 (s.core c).ctx.x i).toNat
def State.setX (s : State) (c i v : Nat) : State :=
  if i == 0 then s else s.modCtx c fun k => { k with x := mapSet 0 k.x i (BitVec.ofNat 64 v) }

def State.fr (s : State) (c i : Nat) : Nat := (mapGet 0 (s.core c).ctx.f i).toNat
def State.setFr (s : State) (c i v : Nat) : State :=
  s.modCtx c fun k => { k with f := mapSet 0 k.f i (BitVec.ofNat 64 v) }

/-- A CSR of the running context, by number (R366). -/
def State.csr (s : State) (c n : Nat) : Nat := (mapGet 0 (s.core c).ctx.csr n).toNat
def State.setCsr (s : State) (c n v : Nat) : State :=
  s.modCtx c fun k => { k with csr := mapSet 0 k.csr n (BitVec.ofNat 64 v) }

/-- A CSR of the core itself: the performance counters (R338). -/
def State.pcsr (s : State) (c n : Nat) : Nat := (mapGet 0 (s.core c).pcsr n).toNat
def State.setPcsr (s : State) (c n v : Nat) : State :=
  s.modCore c fun k => { k with pcsr := mapSet 0 k.pcsr n (BitVec.ofNat 64 v) }

/-- CSR numbers of the trap registers of a handler level (R366): S at 0x1xx, E at 0x3xx. -/
def hBase : Level → Nat
  | .e => 0x300
  | _ => 0x100
def hStatus (h : Level) : Nat := hBase h
def hTvec (h : Level) : Nat := hBase h + 5
def hScratch (h : Level) : Nat := hBase h + 0x40
def hEpc (h : Level) : Nat := hBase h + 0x41
def hCause (h : Level) : Nat := hBase h + 0x42
def hTval (h : Level) : Nat := hBase h + 0x43
def csrDeleg : Nat := 0x302
def csrRotBase : Nat := 0x180
def csrRotCnt : Nat := 0x181
def csrRgnBase (n : Nat) : Nat := 0x5A0 + n
def csrRgnCfg (n : Nat) : Nat := 0x5B0 + n
def csrPredCtl : Nat := 0x5C0
def csrPmcCtl : Nat := 0x5C1
def csrPmcStat : Nat := 0x5C2
def csrPmcEvt (n : Nat) : Nat := 0x5C8 + n
def csrPmc (n : Nat) : Nat := 0x5D0 + n
def csrLoopStart : Nat := 0x800
def csrLoopExit : Nat := 0x801
def csrLoopCount : Nat := 0x802
def csrLoopCfg : Nat := 0x803

def State.isolated (s : State) (c : Nat) : Bool := bitOf (s.csr c csrPredCtl) 0

/-- A predictor flush (R332): every counter 0b01 (the default of `pht`), history, BTB and return stack empty. -/
def State.flushPredictor (s : State) (c : Nat) : State :=
  s.modCore c fun k => { k with pht := [], ghr := 0, btb := [], ras := [] }

/-- The handler level of an interrupt (R347). -/
def State.intLevel (s : State) (c : Nat) : Level :=
  if s.topE c && !(s.level c != .e && bitOf (s.csr c csrDeleg) 16) then .e else .s

/-- The handler level of an exception with a code (R347); CODE 0x10 is never delegated (10.9). -/
def State.excLevel (s : State) (c code : Nat) : Level :=
  if s.topE c && !(s.level c != .e && code < 16 && bitOf (s.csr c csrDeleg) code) then .e else .s

/-- Would an interrupt at the core's interrupt level be deliverable (R350)? -/
def State.intDeliverable (s : State) (c : Nat) : Bool :=
  let h := s.intLevel c
  s.runs c && (levelNo (s.level c) < levelNo h ||
    (s.level c == h && bitOf (s.csr c (hStatus h)) 0))

/-- Core clock cycles since time 0: 2.0 GHz, and 2.4 GHz for the time spent in sprint (R40; a step of the time counter takes no cycle). -/
def State.clk (s : State) : Nat :=
  (2 * (s.now : Int) + s.power.clkAdj + (match s.power.sprintSince with
   | some t => (((s.now - t) * 2 / 5 : Nat) : Int)
   | none => 0)).toNat

/-- The instructions fetched ahead of the oldest unretired one are discarded (R318, R328, R329): their loads, and with them the shadow
buffer, all of whose entries only they have used, and the misses for it. -/
def CoreSt.squash (k : CoreSt) : CoreSt :=
  { k with shadow := [], lq := [], misses := k.misses.filter fun m => m.kind != .spec }

/-- What is in progress of the oldest unretired instruction is discarded with them (R319, R329, R361); misses of retired loads go on. -/
def CoreSt.discard (k : CoreSt) : CoreSt :=
  { k.squash with
    walk := none, walked := [], far := none, partialWait := false, fence := none, sb := k.sb.filter (·.len == 0)
    used := [], fetchEvs := [], fetchBuf := [], issued := false
    misses := k.misses.filter fun m => m.kind == .data }

/-! ### Condition events (R334, R335) -/

/-- Is an event a condition event? -/
def pmcCond (ev : Nat) : Bool := ev == 0x01 || (0x20 ≤ ev && ev ≤ 0x24)

/-- Does a performance counter count a condition event, at its level bits' `lv`? -/
def CoreSt.pmcTimed (k : CoreSt) (n lv : Nat) : Bool :=
  let e := (mapGet 0 k.pcsr (csrPmcEvt n)).toNat
  bitOf (mapGet 0 k.pcsr csrPmcCtl).toNat n && pmcCond (bits e 7 0) && bitOf e (9 + lv) && !(n % 2 == 1 && bitOf e 12)

/-- How often a condition event counts in `d` cycles: exactly where the state determines the condition, otherwise a free number of
cycles or of rising edges among them (log 5). -/
def condCount (ev : Nat) (edge waiting : Bool) (d free : Nat) : Nat :=
  if ev == 0x01 then (if edge then 0 else d)
  else if ev == 0x24 then (if waiting && !edge then d else 0)
  else if waiting then (if ev == 0x20 && !edge then d else 0)
  else if edge then free % ((d + 1) / 2 + 1) else free % (d + 1)

/-- The condition events of the cycles since they were last counted are added at the level the core has run at; a counter that
passes its end keeps the excess until it is carried. -/
def State.pmcAccrue (s : State) (c : Nat) : State :=
  let k := s.core c
  let d := s.clk - k.pmcAt
  if d == 0 then s
  else
    let s := s.modCore c fun k => { k with pmcAt := s.clk }
    if k.ctxId.isNone || k.halted then s
    else s.each ((List.range 8).filter fun n => k.pmcTimed n (levelNo k.ctx.level)) fun s n =>
      let e := s.pcsr c (csrPmcEvt n)
      let x := condCount (bits e 7 0) (bitOf e 8) k.fwait.isSome d s.free.toNat
      (s.setPcsr c (csrPmc n) (s.pcsr c (csrPmc n) + x)).drawn

/-- A Region Lookaside Buffer after a fill: overlapping entries go, the oldest of 128 is replaced (R363). -/
def rlbFill (l : List RlbEntry) (e : RlbEntry) : List RlbEntry :=
  let l := l.filter fun o => !(o.vbase < e.vbase + 4096 * e.pages && e.vbase < o.vbase + 4096 * o.pages)
  (if l.length < 128 then l else l.drop 1) ++ [e]

/-- The walks of an instruction that retires enter the RLB (R361). -/
def CoreSt.commitWalks (k : CoreSt) : CoreSt :=
  { k with
    rlb := (k.walked.filterMap (·.entry)).foldl rlbFill k.rlb
    walked := [] }

/-! ### Context records (R343, R344) -/

/-- The physical address of a context's record in its grove's context area (R343). -/
def GroveRec.ctxAddr (r : GroveRec) (id : Nat) : Nat :=
  (match r.mem with
   | e :: _ => e.1 * grain
   | [] => 0) + 1024 * (id - r.ctxFirst)

def State.ctxAddr (s : State) (id : Nat) : Nat :=
  match s.groveOfCtx id with
  | some g => (s.grv g).cfg.ctxAddr id
  | none => 0

/-- The CSRs of a record, by byte offset (R344). -/
def recordCsrs : List (Nat × Nat) :=
  [(0x218, 0x100), (0x220, 0x105), (0x228, 0x141), (0x230, 0x142), (0x238, 0x143), (0x240, 0x140),
   (0x248, 0x300), (0x250, 0x305), (0x258, 0x341), (0x260, 0x342), (0x268, 0x343), (0x270, 0x340), (0x278, 0x302),
   (0x280, 0x800), (0x288, 0x801), (0x290, 0x802), (0x298, 0x803), (0x2A0, 0x180), (0x2A8, 0x181)] ++
  (List.range 16).map (fun n => (0x300 + 8 * n, csrRgnBase n)) ++
  (List.range 16).map (fun n => (0x380 + 8 * n, csrRgnCfg n))

/-- The bits of a context CSR that exist (10.9, 9.9): the others read 0. -/
def csrMask (n : Nat) : Nat :=
  if n == 0x100 then 0x1F
  else if n == 0x300 then 0x0F
  else if n == 0x105 || n == 0x305 then 0xFFFF_FFFF_FFFC
  else if n == 0x140 || n == 0x340 || n == 0x143 || n == 0x343 then 2 ^ 64 - 1
  else if n == 0x141 || n == 0x341 then 2 ^ 64 - 2
  else if n == 0x142 || n == 0x342 then 0x8000_0000_FFFF_00FF
  else if n == 0x302 then 0x1BBFE
  else if n == 0x180 then 0xFF_FFFF_FFC0
  else if n == 0x181 then 0x1FFF
  else if n == 0x800 || n == 0x801 then 2 ^ 64 - 2
  else if n == 0x802 then 0xFFFF_FFFF
  else if n == 0x803 then 3
  else if n == csrPredCtl then 1
  else if 0x5A0 ≤ n && n < 0x5B0 then 0xFFFF_FFFF_F000
  else if 0x5B0 ≤ n && n < 0x5C0 then 0xF_FFFF_FF03_F1FF
  else 0

/-- Is a CSR value free of reserved encodings (10.9, R17)? -/
def csrLegal (n v : Nat) : Bool :=
  if n == 0x100 then bits v 3 2 < 2
  else if n == 0x300 then bits v 3 2 < 3
  else if n == 0x181 then bits v 12 0 ≤ 4096
  else if 0x5B0 ≤ n && n < 0x5C0 then bits v 7 6 != 3 && 12 ≤ bits v 17 12 && bits v 17 12 ≤ 40
  else true

/-- A CSR value as a record load takes it: a field that holds a reserved encoding loads as 0 (R344). -/
def csrLoad (n v : Nat) : Nat :=
  let v := v &&& csrMask n
  if n == 0x100 && 2 ≤ bits v 3 2 then setBits v 3 2 0
  else if n == 0x300 && bits v 3 2 == 3 then setBits v 3 2 0
  else if n == 0x181 && 4096 < v then 0
  else if 0x5B0 ≤ n && n < 0x5C0 then
    let v := if bits v 7 6 == 3 then setBits v 7 6 0 else v
    if bits v 17 12 < 12 || 40 < bits v 17 12 then setBits v 17 12 0 else v
  else v

/-- The 1,024 bytes of a context's record (R344). -/
def Ctx.record (k : Ctx) (running : Bool) : List Byte :=
  let reg (m : Table Word) (n : Nat) : Nat := (mapGet 0 m n).toNat
  let isol := bitOf (reg k.csr csrPredCtl) 0
  let base := (List.range 32).flatMap (fun i => leBytes 8 (if i == 0 then 0 else reg k.x i)) ++
    (List.range 32).flatMap (fun i => leBytes 8 (reg k.f i)) ++
    leBytes 8 k.pc.toNat ++ leBytes 8 (k.fcsr % 256) ++
    leBytes 8 (levelNo k.level + 4 * b2n isol + 8 * b2n running) ++ List.replicate 488 0
  recordCsrs.foldl (fun bs e => overlayB bs e.1 (leBytes 8 (reg k.csr e.2))) base

/-- `fcsr` as a record load takes it: a reserved rounding mode loads as 0 (R344). -/
def fcsrLoad (v : Nat) : Nat := if 5 ≤ bits v 7 5 then setBits v 7 5 0 else v

/-- A context loaded from its record's bytes, in a grove with or without EXEC (R344). -/
def Ctx.ofRecord (bs : List Byte) (exec : Bool) : Ctx :=
  let w (off : Nat) : Word := BitVec.ofNat 64 (fieldB bs off 8)
  let lv := bits (fieldB bs 0x210 8) 1 0
  let lv := if lv == 3 || (lv == 2 && !exec) then 1 else lv
  let isol := bitOf (fieldB bs 0x210 8) 2
  let regs (off : Nat) (first : Nat) : Table Word :=
    ((List.range 32).filter (first ≤ ·)).foldl (fun m i => mapSet 0 m i (w (off + 8 * i))) []
  let csr := recordCsrs.foldl (fun m e =>
      let v := csrLoad e.2 (fieldB bs e.1 8)
      if !exec && 0x300 ≤ e.2 && e.2 < 0x400 then m else mapSet 0 m e.2 (BitVec.ofNat 64 v)) []
  { x := regs 0 1
    f := regs 0x100 0
    pc := w 0x200
    fcsr := fcsrLoad (fieldB bs 0x208 1)
    level := levelOf lv
    csr := mapSet 0 csr csrPredCtl (if isol then 1 else 0) }

/-- Is a context's record marked RUNNING? -/
def State.ctxRunning (s : State) (id : Nat) : Bool := bitOf (s.rd (s.ctxAddr id + 0x210) 1) 3

/-- Set or clear RUNNING in a record. A switch writes records as a unit without a cache does: every copy and reservation of their lines
goes (R305; log 44). -/
def State.markRunning (s : State) (id : Nat) (r : Bool) : State :=
  let a := s.ctxAddr id + 0x210
  s.invalidatingWrite a (leBytes 1 (setBits (s.rd a 1) 3 3 (b2n r)))

/-- Save the core's context into the record of its identity; `running` is the record's RUNNING afterwards. -/
def State.saveCtx (s : State) (c : Nat) (running : Bool) : State :=
  match (s.core c).ctxId with
  | some id => s.invalidatingWrite (s.ctxAddr id) ((s.core c).ctx.record running)
  | none => s

/-- What a grove switch clears before the new grove's first instruction (R308, R389). -/
def State.groveSwitch (s : State) (c : Nat) : State :=
  (((s.flushPredictor c).modCoh fun x => { x with contention := mapDel x.contention c }).modCore c fun k => { k with
      shadow := [], cycle := BitVec.ofNat 64 s.clk, instret := 0, pcsr := [], pmcAt := s.clk }).modCtx c fun k => { k with
      csr := mapClear k.csr csrLoopStart (csrLoopCfg + 1) }

/-- Load a context onto a core: its record, RUNNING set, the RLB invalid, the reservation gone, the predictor flushed when the
leaving or the entering context is isolated, and the grove switch when the grove differs (R305, R308, R332, R345, R364). -/
def State.loadCtx (s : State) (c id : Nat) (leftIsolated : Bool) : State :=
  let g := s.groveOfCtx id
  let exec := match g with
    | some g => (s.grv g).cfg.exec
    | none => false
  let k := Ctx.ofRecord (s.rdB (s.ctxAddr id) 1024) exec
  let s := s.pmcAccrue c
  let s := (s.modCore c fun x => { x.discard with ctx := k, ctxId := some id, rlb := [], rsv := none, fwait := none }).markRunning id true
  let s := s.iff (leftIsolated || s.isolated c) (·.flushPredictor c)
  let s := s.iff ((s.core c).lastGrove != g) (·.groveSwitch c)
  s.modCore c fun x => { x with lastGrove := g }

/-- The boot context of a grove on its lowest core (R277, R346): every field 0 but the pc, a0, the level and S BARE. -/
def bootCtx (r : GroveRec) : Ctx :=
  { x := mapSet 0 [] 10 (BitVec.ofNat 64 r.bootArg)
    pc := BitVec.ofNat 64 r.bootPc
    level := if r.exec then .e else .s
    csr := if r.exec then [] else [(0x100, 0x10)] }

def State.bootGrove (s : State) (g : Nat) : State :=
  let r := (s.grv g).cfg
  match bitsSet 64 r.cores with
  | [] => s
  | c :: _ =>
    let s := s.invalidatingWrite (r.ctxAddr r.ctxFirst) ((bootCtx r).record false)
    s.loadCtx c r.ctxFirst false

end Sys2Proof.Machine
end

