-- ==== Sys2Proof/Machine/Irq.lean ====
section
/-! DEFINITION. The Interrupt Router (chapter 12): doorbells, pending and enable bits, offers, acceptance, end of interrupt; and
what cores do with them: retirement, performance counters, trap entry and return (R313, R334-R336, R347-R352, R417-R420). -/

namespace Sys2Proof.Machine

/-! ### Doorbells -/

/-- Who writes a doorbell (R406). -/
inductive Writer where
  | hw
  | core (c : Nat)
  | host
deriving DecidableEq, Repr

/-- Does R406 admit a writer's use of a source? -/
def State.maySignal (s : State) (w : Writer) (src op : Nat) : Bool :=
  match w with
  | .hw => op == 0
  | .core c => s.level c == .e ||
      (match s.groveOfCore c with
       | some g => s.groveOfSource src == some g
       | none => false)
  | .host => s.on (Fd.IRQ_SRC_CFG.HOST src)

/-- Does the OP fit the source's type (R407, R408)? -/
def State.opFits (s : State) (src op : Nat) : Bool :=
  if s.on (Fd.IRQ_SRC_CFG.LEVEL src) then op == 1 || op == 2 else op == 0

/-- The effect of an admitted doorbell on its source (R407, R408). -/
def State.signalSource (s : State) (src op : Nat) : State :=
  let active := s.on (Fd.IRQ_SRC_CFG.ACTIVE src)
  if op == 0 then s.raise (Fd.IRQ_SRC_CFG.PENDING src)
  else if op == 1 then
    let was := s.on (Fd.IRQ_SRC_CFG.LVL src)
    (s.raise (Fd.IRQ_SRC_CFG.LVL src)).setIf (!was && !active) (Fd.IRQ_SRC_CFG.PENDING src) 1
  else (s.lower (Fd.IRQ_SRC_CFG.LVL src)).setIf (!active) (Fd.IRQ_SRC_CFG.PENDING src) 0

/-- Count and record a dropped doorbell write (R406). -/
def State.recordDrop (s : State) (w : Writer) (src op : Nat) (reason : Nat) : State :=
  let grove := match w with
    | .core c => (s.groveOfCore c).getD 0
    | _ => 0
  ((s.inc Fd.IRQ_DROP_CNT.COUNT).setReg Rg.IRQ_DROP_LAST
    (src + op * 2 ^ 12 + reason * 2 ^ 14 + b2n (w == .hw) * 2 ^ 15 + b2n (w == .host) * 2 ^ 16 + grove * 2 ^ 17)).raise
      Fd.IRQ_STAT.DROP

/-- The reason a doorbell write is dropped: 0 the writer, 1 the OP; none when it is admitted. -/
def State.dropReason (s : State) (w : Writer) (src op : Nat) : Option Nat :=
  if !s.maySignal w src op then some 0
  else if !s.opFits src op then some 1
  else none

/-- A doorbell write (R406), before any waiting core is woken; OP 3 is reserved and ignored (R17). On the first drop the
router's own doorbell is written, unless the dropped write was to that source. -/
def State.ring (s : State) (w : Writer) (src op : Nat) : State :=
  if op == 3 then s
  else match s.dropReason w src op with
    | none => s.signalSource src op
    | some why =>
      let was := s.on Fd.IRQ_STAT.DROP
      let s := s.recordDrop w src op why
      let ds := s.get Fd.IRQ_CTL.DROP_SRC
      if was || ds == src then s
      else match s.dropReason .hw ds 0 with
        | none => s.signalSource ds 0
        | some why => s.recordDrop .hw ds 0 why

/-! ### Running priority and offers (R411, R413, R414) -/

/-- A core's running-priority stack, top first: each source with the PRIO it was accepted with. -/
def State.stack (s : State) (c : Nat) : List (Nat × Nat) := mapGet [] s.runStacks c
def State.setStack (s : State) (c : Nat) (l : List (Nat × Nat)) : State := { s with runStacks := mapSet [] s.runStacks c l }

def State.prio (s : State) (src : Nat) : Nat := s.get (Fd.IRQ_SRC_CFG.PRIO src)

/-- One more than a core's running priority; 0 when its stack is empty. -/
def State.rank (s : State) (c : Nat) : Nat :=
  match s.stack c with
  | [] => 0
  | e :: _ => e.2 + 1

/-- Is a core eligible for a pending source (R413)? -/
def State.eligible (s : State) (src c : Nat) : Bool :=
  s.on (Fd.IRQ_SRC_CFG.EN src) &&
  bitOf (s.get (Fd.IRQ_SRC_TGT.CORES src)) c &&
  (match s.groveOfSource src with
   | some g => bitOf (s.grv g).cfg.cores c
   | none => false) &&
  s.rank c < s.prio src + 1 &&
  s.intDeliverable c

/-- The pending, enabled, not active sources in the order of R414: descending PRIO, ascending number. -/
def State.candidates (s : State) : List Nat :=
  let base := Rg.IRQ_SRC_CFG 0
  let srcs := ((mapKeys s.regs base (base + 0x4000)).filter (· % 4 == 0)).map fun off => (off - base) / 4
  isort (fun i => (63 - s.prio i) * 4096 + i)
    (srcs.filter fun i => s.on (Fd.IRQ_SRC_CFG.PENDING i) && s.on (Fd.IRQ_SRC_CFG.EN i) && !s.on (Fd.IRQ_SRC_CFG.ACTIVE i))

/-- The core a source goes to among those without an offer: the lowest running priority, then the first at or after the
round-robin pointer. -/
def State.choose (s : State) (taken : List (Nat × Nat)) (src : Nat) : Option Nat :=
  let rr := s.get (Fd.IRQ_SRC_CFG.RR src)
  let cs := (List.range 64).filter fun c => s.eligible src c && !taken.any (·.1 == c)
  (isort (fun c => s.rank c * 64 + (c + 64 - rr) % 64) cs).head?

/-- The offers of this clock: (core, source) (R414). -/
def State.offers (s : State) : List (Nat × Nat) :=
  s.candidates.foldl (fun acc src =>
    match s.choose acc src with
    | some c => (c, src) :: acc
    | none => acc) []

/-- The source offered to a core, if any. -/
def State.offerOf (s : State) (c : Nat) : Option Nat := (s.offers.find? (·.1 == c)).map (·.2)

/-- Acceptance of a source at a core (R415). -/
def State.accept (s : State) (c src : Nat) : State :=
  ((((s.lower (Fd.IRQ_SRC_CFG.PENDING src)).raise (Fd.IRQ_SRC_CFG.ACTIVE src)).set (Fd.IRQ_SRC_CFG.CORE src) c).set
    (Fd.IRQ_SRC_CFG.RR src) ((c + 1) % 64)).setStack c ((src, s.prio src) :: s.stack c)

/-- Is the grove that holds a source in compatibility mode (R418)? -/
def State.compatSource (s : State) (src : Nat) : Bool :=
  match s.groveOfSource src with
  | some g => s.on (Fd.IRQ_GRV_CFG.COMPAT g)
  | none => false

/-! ### Performance counters (R334-R338) -/

/-- The level bit of `PMC_EVTn` for a level. -/
def evtLevelBit : Level → Nat
  | .u => 9
  | .s => 10
  | .e => 11

/-- A counter has passed 0xFFFF_FFFF: it wraps, its OVF sets, and it writes its doorbell unless its pair is chained (R336). -/
def State.pmcWrap (s : State) (c n : Nat) : State :=
  let v := s.pcsr c (csrPmc n)
  if v < 2 ^ 32 then s
  else
    let s := (s.setPcsr c (csrPmc n) (v % 2 ^ 32)).setPcsr c csrPmcStat (s.pcsr c csrPmcStat ||| 2 ^ n)
    if n % 2 == 0 && bitOf (s.pcsr c (csrPmcEvt (n + 1))) 12 then s
    else if bitOf (s.pcsr c (csrPmcEvt n)) 13 then s.ring (.core c) (bits (s.pcsr c csrPmcCtl) 19 8) 0
    else s

/-- A counter rises by `k`. -/
def State.pmcAdd (s : State) (c n k : Nat) : State := (s.setPcsr c (csrPmc n) (s.pcsr c (csrPmc n) + k)).pmcWrap c n

/-- A counter rises by `k` and carries into a chained partner, which counts only while its own EN bit is 1 (R334, R336). -/
def State.pmcBump (s : State) (c n k : Nat) : State :=
  let wraps := (s.pcsr c (csrPmc n) + k) / 2 ^ 32
  let s := s.pmcAdd c n k
  if wraps != 0 && n % 2 == 0 && bitOf (s.pcsr c (csrPmcEvt (n + 1))) 12 && bitOf (s.pcsr c csrPmcCtl) (n + 1) then s.pmcAdd c (n + 1) wraps else s

/-- The condition events are brought up to now, and every counter that has passed its end wraps. -/
def State.pmcSync (s : State) (c : Nat) : State :=
  let s := s.pmcAccrue c
  if (List.range 8).any fun n => 2 ^ 32 ≤ s.pcsr c (csrPmc n) then s.each (List.range 8) fun s n => s.pmcBump c n 0 else s

/-- A retired event at a level (R334, R335). -/
def State.eventAt (s : State) (c : Nat) (lv : Level) (ev : Nat) : State :=
  if s.pcsr c csrPmcCtl % 256 == 0 then s
  else s.each (List.range 8) fun s n =>
    let e := s.pcsr c (csrPmcEvt n)
    if bitOf (s.pcsr c csrPmcCtl) n && bits e 7 0 == ev && bitOf e (evtLevelBit lv) && !(n % 2 == 1 && bitOf e 12)
    then s.pmcBump c n 1 else s

/-- A retired event at the core's present level. -/
def State.event (s : State) (c ev : Nat) : State := s.eventAt c (s.level c) ev

/-- Several of them, at a level. -/
def State.events (s : State) (c : Nat) (lv : Level) (evs : List Nat) : State := s.each evs fun s ev => s.eventAt c lv ev

/-- A condition begins to hold: a counter of its rising edges counts it (EDGE; R334). -/
def State.condEdge (s : State) (c ev : Nat) : State :=
  s.each ((List.range 8).filter fun n => (s.core c).pmcTimed n (levelNo (s.level c))) fun s n =>
    let e := s.pcsr c (csrPmcEvt n)
    if bits e 7 0 == ev && bitOf e 8 then s.pmcBump c n 1 else s

/-! ### Retirement (R313, R334) -/

/-- A core whose oldest instruction retires: its walks enter the RLB, what was in progress of it ends. -/
def CoreSt.retired (k : CoreSt) : CoreSt :=
  { k.commitWalks with
    instret := k.instret + 1, partialWait := false, halted := k.halted || k.stepping, stepping := false
    used := [], fetchEvs := [], fetchBuf := [], issued := false, lq := k.lq.filter fun e => k.instret.toNat < e.age }

/-- An instruction retires: its walks enter the RLB, the lines it took from the shadow buffer go to L1 (R328), and its events count:
its own, those of its fetch, its walks and the promotions. -/
def State.counted (s : State) (c : Nat) : State :=
  let k := s.core c
  let used := k.used.filter fun e => k.shadow.contains e.1
  let walks (fetch : Bool) : List Nat := if k.walked.any (·.fetch == fetch) then [0x0F] else []
  let evs := 0x02 :: k.fetchEvs ++ walks true ++ walks false ++ used.map fun _ => 0x0E
  let s := s.modCore c (·.retired)
  (s.each used fun s e => s.promote c e.1 e.2).events c (s.level c) evs

/-- An instruction of `len` bytes that is no taken branch or jump retires: the next one follows, or the loop goes back (R313). -/
def State.retire (s : State) (c len : Nat) : State :=
  let s := s.counted c
  let next := (s.pc c + len) % 2 ^ 64
  let cfg := s.csr c csrLoopCfg
  if bitOf cfg 0 && s.csr c csrLoopExit == next then
    let n := s.csr c csrLoopCount
    if n > 1 then ((s.setCsr c csrLoopCount (n - 1)).setPc c (s.csr c csrLoopStart)).event c 0x11
    else if n == 1 then ((s.setCsr c csrLoopCount 0).setCsr c csrLoopCfg (setBits cfg 0 0 0)).setPc c next
    else s.setPc c next
  else s.setPc c next

/-- A taken branch or jump retires (R313). -/
def State.retireTo (s : State) (c target : Nat) : State := (s.counted c).setPc c target

/-- The next tick or a deliverable interrupt ends a FRAME.WAIT outside a real-time task (R311). -/
def State.endWait (s : State) (c : Nat) : State :=
  match (s.core c).fwait with
  | some rd => (((s.pmcSync c).modCore c fun k => { k with fwait := none }).setX c rd (s.reg Rg.FRM_NUMBER)).retire c 4
  | none => s

/-- Wake the waiting cores that hold an offer, one at a time, as an overflow doorbell of one may wake another. -/
def State.wakeAux : Nat → State → State
  | 0, s => s
  | k + 1, s =>
    let os := s.offers
    match (mapKeys s.cores 0 64).find? (fun c => (s.core c).fwait.isSome && os.any (·.1 == c)) with
    | some c => State.wakeAux k (s.endWait c)
    | none => s

/-- Let every waiting core see what the router now offers (R311, R416). -/
def State.settle (s : State) : State :=
  if s.cores.any (fun e => e.2.fwait.isSome) then State.wakeAux 64 s else s

/-- A doorbell write and what it wakes. -/
def State.doorbell (s : State) (w : Writer) (src op : Nat) : State := (s.ring w src op).settle

/-- A hardware block's PULSE. -/
def State.pulse (s : State) (src : Nat) : State := s.doorbell .hw src 0

/-! ### Traps (R347-R352) -/

/-- Trap entry at a level, without the events of the router: epc, cause, value, status, level, loop state, predictor (R348, R314,
R332); an entry ends the reservation (R305). -/
def State.trapEntry (s : State) (c : Nat) (h : Level) (cause tval target : Nat) : State :=
  let st := s.csr c (hStatus h)
  let cfg := s.csr c csrLoopCfg
  let s' := (s.pmcSync c).setCsr c (hEpc h) (s.pc c)
  let s' := (s'.setCsr c (hCause h) cause).setCsr c (hTval h) tval
  let s' := s'.setCsr c (hStatus h) (setBits (setBits (setBits st 1 1 (bits st 0 0)) 0 0 0) 3 2 (levelNo (s.level c)))
  let s' := s'.setCsr c csrLoopCfg (2 * bits cfg 0 0)
  let s' := s'.iff (s.isolated c) (·.flushPredictor c)
  let s' := s'.event c 0x14
  (((s'.modCore c fun k => { k.discard with
    rsv := none, halted := k.halted || k.stepping, stepping := false }).dropAsked c).setLevel c h).setPc c target

/-- An exception: CODE, SYND and value at its handler level (R347, R348, R352). -/
def State.trap (s : State) (c code synd tval : Nat) : State :=
  let h := s.excLevel c code
  s.trapEntry c h (code + synd % 2 ^ 16 * 2 ^ 16) tval (s.csr c (hTvec h))

/-- The vector address of a source in native mode (R417). -/
def State.vector (s : State) (h : Level) (src : Nat) : Nat :=
  match s.groveOfSource src with
  | some g =>
    let base := match h with
      | .e => s.get (Fd.IRQ_GRV_VBASE_E.BASE g) * 16
      | _ => s.get (Fd.IRQ_GRV_VBASE_S.BASE g) * 16
    base + 16 * (src - (s.grv g).cfg.irqFirst)
  | none => 0

/-- The core takes the interrupt it is offered (R319, R348, R415-R418): in compatibility mode nothing is accepted yet. -/
def State.takeInterrupt (s : State) (c src : Nat) : State :=
  let h := s.intLevel c
  if s.compatSource src then (s.event c 0x15).trapEntry c h (2 ^ 63) 0 (s.csr c (hTvec h))
  else
    let target := s.vector h src
    ((s.accept c src).event c 0x15).trapEntry c h (2 ^ 63 + src * 2 ^ 16) 0 target

/-- A trap return from level H (R349, R314, R332); the reservation goes (R305). -/
def State.trapReturn (s : State) (c : Nat) (h : Level) : State :=
  let st := s.csr c (hStatus h)
  let cfg := s.csr c csrLoopCfg
  let s' := (s.pmcSync c).setCsr c (hStatus h) (setBits (setBits (setBits st 0 0 (bits st 1 1)) 1 1 1) 3 2 0)
  let s' := s'.setCsr c csrLoopCfg (bits cfg 1 1 * 3)
  let s' := s'.iff (s.isolated c) (·.flushPredictor c)
  ((s'.modCore c fun k => { k.squash with rsv := none }).setLevel c (levelOf (bits st 3 2))).setPc c (s.csr c (hEpc h))

/-! ### Enable and pending banks, claim, end of interrupt -/

/-- Which bank a write of R409 goes to. -/
inductive Bank where
  | enSet | enClr | pendSet | pendClr
deriving DecidableEq, Repr

/-- One bit of a bank write. -/
def State.bankBit (s : State) (b : Bank) (src : Nat) : State :=
  match b with
  | .enSet => s.raise (Fd.IRQ_SRC_CFG.EN src)
  | .enClr => s.lower (Fd.IRQ_SRC_CFG.EN src)
  | .pendSet => s.raise (Fd.IRQ_SRC_CFG.PENDING src)
  | .pendClr => s.lower (Fd.IRQ_SRC_CFG.PENDING src)

/-- A write to a word of a bank: only the sources the writer may signal (R409); a requester that is no core changes none. -/
def State.bankWrite (s : State) (r : Requester) (b : Bank) (w v : Nat) : State :=
  match r with
  | .core c =>
    (s.each ((bitsSet 32 v).map (32 * w + ·)) fun s src =>
      if s.maySignal (.core c.val) src 1 then s.bankBit b src else s).settle
  | _ => s

/-- A word of a bank as it reads: the current bits (R409). -/
def State.bankRead (s : State) (en : Bool) (w : Nat) : Nat :=
  (List.range 32).foldl (fun acc j =>
    let f := if en then Fd.IRQ_SRC_CFG.EN (32 * w + j) else Fd.IRQ_SRC_CFG.PENDING (32 * w + j)
    acc + s.get f * 2 ^ j) 0

/-- A read of `IRQ_CLAIM` (R418): the value, and the state after the acceptance. -/
def State.claim (s : State) (c : Nat) : Nat × State :=
  if s.level c == .u then (2 ^ 31, s)
  else match s.offerOf c with
    | some src =>
      if s.compatSource src then (src + s.prio src * 2 ^ 12, s.accept c src) else (2 ^ 31, s)
    | none => (2 ^ 31, s)

/-- A source ceases to be ACTIVE and a level source is re-sampled (R408, R419). -/
def State.endActive (s : State) (src : Nat) : State :=
  (s.lower (Fd.IRQ_SRC_CFG.ACTIVE src)).setIf (s.on (Fd.IRQ_SRC_CFG.LEVEL src) && s.on (Fd.IRQ_SRC_CFG.LVL src))
    (Fd.IRQ_SRC_CFG.PENDING src) 1

/-- A write to `IRQ_EOI` by a core (R419). -/
def State.eoi (s : State) (c src : Nat) : State :=
  match s.stack c with
  | top :: rest =>
    if top.1 == src && s.level c != .u then ((s.endActive src).setStack c rest).settle
    else s.raise (Fd.IRQ_CORE_STAT.EOI_ERR c)
  | [] => s.raise (Fd.IRQ_CORE_STAT.EOI_ERR c)

/-- A core's delivery state as it reads. -/
def State.coreStat (s : State) (c : Nat) : Nat :=
  let (top, rp) := match s.stack c with
    | e :: _ => e
    | [] => (0, 0)
  let (offer, line) := match s.offerOf c with
    | some src => (true, s.compatSource src)
    | none => (false, false)
  (s.stack c).length + rp * 2 ^ 7 + top * 2 ^ 13 + b2n offer * 2 ^ 25 + b2n line * 2 ^ 26 +
    s.get (Fd.IRQ_CORE_STAT.EOI_ERR c) * 2 ^ 27

/-- May a requester write the configuration of a source: a core of the holding grove at S or E level, any core at E (12.5)? -/
def State.mayConfigSource (s : State) (r : Requester) (src : Nat) : Bool :=
  match r with
  | .core c => s.level c.val == .e ||
      (s.level c.val == .s &&
        (match s.groveOfCore c.val with
         | some g => s.groveOfSource src == some g
         | none => false))
  | _ => false

/-- A write to a source's configuration (12.5): HOST at E level only; LEVEL is fixed while ACTIVE. -/
def State.configSource (s : State) (r : Requester) (src v : Nat) : State :=
  if !s.mayConfigSource r src then s
  else if bits v 6 6 != s.get (Fd.IRQ_SRC_CFG.LEVEL src) && s.on (Fd.IRQ_SRC_CFG.ACTIVE src) then s
  else
    let s' := (s.set (Fd.IRQ_SRC_CFG.PRIO src) (bits v 5 0)).set (Fd.IRQ_SRC_CFG.LEVEL src) (bits v 6 6)
    (s'.setIf (s.isE r) (Fd.IRQ_SRC_CFG.HOST src) (bits v 7 7)).settle

/-- May a requester write the delivery registers of a grove (12.5)? -/
def State.mayConfigGrove (s : State) (r : Requester) (g : Nat) : Bool :=
  match r with
  | .core c => s.level c.val == .e || (s.level c.val == .s && s.groveOfCore c.val == some g)
  | _ => false

/-- A write to a grove's delivery mode (R420). -/
def State.compatWrite (s : State) (r : Requester) (g v : Nat) : State :=
  if s.mayConfigGrove r g && (bitsSet 64 (s.grv g).cfg.cores).all (fun c => (s.stack c).isEmpty)
  then (s.set (Fd.IRQ_GRV_CFG.COMPAT g) (bits v 0 0)).settle else s

end Sys2Proof.Machine
end

