-- ==== Sys2Proof/Machine/Audit.lean ====
section
/-! DEFINITION. Cryptographic values by purpose and the audit log of Heartwood (R231, R455). -/

namespace Sys2Proof.Machine

/-- A cryptographic value of exactly `n` bytes (log 6). Purposes: 1 audit chain digest, 2 link keys, 3 digest of a bring-up,
4 ephemeral nonce and point, 5 signature by the identity key, 6 freeze image MAC, 7 nonces, 8 unwrapped image key, 9 digest. -/
def cryptoN (purpose n : Nat) (input : List Byte) : List Byte := sliceB (Config.cryptoBytes purpose input) 0 n

def State.modSec (s : State) (f : SecSt → SecSt) : State := { s with sec := f s.sec }

/-- `HWD_TIME`: the Heartwood clock (R456). -/
def State.hwTime (s : State) : Nat := ((s.now : Int) + s.sec.hwClock).toNat

/-- The CHAIN value the next entry carries (R455): zeros before the first entry. -/
def State.auditChain (s : State) : List Byte :=
  match s.sec.audit with
  | e :: _ => cryptoN 1 16 e
  | [] => List.replicate 16 0

/-- An audit entry (R455). -/
def State.auditEntry (s : State) (event arg0 arg1 : Nat) (data : List Byte) : List Byte :=
  leBytes 8 (s.get Fd.HWD_AUDIT_SEQ.SEQ) ++ leBytes 8 s.hwTime ++ leBytes 2 event ++ leBytes 1 (s.get Fd.HWD_STAT.LC) ++
    leBytes 1 0 ++ leBytes 4 arg0 ++ leBytes 8 arg1 ++ sliceB data 0 16 ++ s.auditChain

/-- Write an audit entry; the oldest of 16,384 is overwritten. -/
def State.audit (s : State) (event arg0 arg1 : Nat) (data : List Byte := []) : State :=
  (s.modSec fun x => { x with audit := (s.auditEntry event arg0 arg1 data :: x.audit).take 16384 }).set Fd.HWD_AUDIT_SEQ.SEQ
    (s.get Fd.HWD_AUDIT_SEQ.SEQ + 1)

/-- The owner key slot in force: the highest-numbered one with a valid marker (R447). -/
def State.ownerIndex (s : State) : Option Nat :=
  ((s.sec.owners.filter fun e => e.2.valid).map (·.1)).getLast?

def State.ownerDigest (s : State) (k : Nat) : List Byte :=
  match mapGet? s.sec.owners k with
  | some o => o.digest
  | none => []

end Sys2Proof.Machine
end

