-- ==== Sys2Proof/Machine/Float.lean ====
section
/-! DEFINITION. IEEE 754 arithmetic on bit patterns (0.8: round to nearest even unless a rounding mode is given): exact on
integers, then rounded once. Shared by the Signal Engine (R139, R144), the Loop Engine (R160-R165) and the cores (R303).
Exception flags are those of the RISC-V `fflags`: NX 1, UF 2, OF 4, DZ 8, NV 16. A NaN result is the canonical NaN (PRESUMED, log 8). -/

namespace Sys2Proof.Machine

/-- A binary interchange format: exponent bits and mantissa bits. -/
structure FloatFmt where
  eb : Nat
  mb : Nat
deriving DecidableEq, Repr

def f16 : FloatFmt := ⟨5, 10⟩
def f32 : FloatFmt := ⟨8, 23⟩
def f64 : FloatFmt := ⟨11, 52⟩

/-- The value of a bit pattern: a NaN (signalling or quiet), an infinity, or (−1)^neg · m · 2^e. -/
inductive FVal where
  | nan (signalling : Bool)
  | inf (neg : Bool)
  | fin (neg : Bool) (m : Nat) (e : Int)
deriving DecidableEq, Repr

/-- A result: its bits and the exception flags it raises. -/
structure FRes where
  bits  : Nat
  flags : Nat
deriving DecidableEq, Repr

/-- Rounding modes of RISC-V: to nearest even, toward zero, down, up, to nearest with ties away. -/
inductive FRnd where
  | rne | rtz | rdn | rup | rmm
deriving DecidableEq, Repr

def fWidth (f : FloatFmt) : Nat := 1 + f.eb + f.mb
def fBias (f : FloatFmt) : Nat := 2 ^ (f.eb - 1) - 1
def fExpMax (f : FloatFmt) : Nat := 2 ^ f.eb - 1
/-- Exponent of the least significant bit of a subnormal. -/
def fEmin (f : FloatFmt) : Int := 1 - (fBias f : Int) - (f.mb : Int)

def fInf (f : FloatFmt) (neg : Bool) : Nat := b2n neg * 2 ^ (f.eb + f.mb) + fExpMax f * 2 ^ f.mb
def fNaN (f : FloatFmt) : Nat := fExpMax f * 2 ^ f.mb + 2 ^ (f.mb - 1)
def fZero (f : FloatFmt) (neg : Bool) : Nat := b2n neg * 2 ^ (f.eb + f.mb)

def fNeg (f : FloatFmt) (v : Nat) : Bool := bitOf v (f.eb + f.mb)
def fExp (f : FloatFmt) (v : Nat) : Nat := bits v (f.eb + f.mb - 1) f.mb
def fMan (f : FloatFmt) (v : Nat) : Nat := v % 2 ^ f.mb

def fIsNaN (f : FloatFmt) (v : Nat) : Bool := fExp f v == fExpMax f && fMan f v != 0
def fIsInf (f : FloatFmt) (v : Nat) : Bool := fExp f v == fExpMax f && fMan f v == 0
def fFinite (f : FloatFmt) (v : Nat) : Bool := fExp f v != fExpMax f
def fIsZero (f : FloatFmt) (v : Nat) : Bool := fExp f v == 0 && fMan f v == 0

/-- The value of a bit pattern. -/
def fVal (f : FloatFmt) (v : Nat) : FVal :=
  if fExp f v == fExpMax f then
    if fMan f v == 0 then .inf (fNeg f v) else .nan (!bitOf v (f.mb - 1))
  else if fExp f v == 0 then .fin (fNeg f v) (fMan f v) (fEmin f)
  else .fin (fNeg f v) (fMan f v + 2 ^ f.mb) (fEmin f + (fExp f v : Int) - 1)

/-- Should a magnitude with quotient `q`, remainder `r` of `2 ^ sh` be rounded up? -/
def fRoundUp (rm : FRnd) (neg : Bool) (q r sh : Nat) : Bool :=
  if r == 0 then false else
  match rm with
  | .rne => 2 * r > 2 ^ sh || (2 * r == 2 ^ sh && q % 2 == 1)
  | .rmm => 2 * r ≥ 2 ^ sh
  | .rtz => false
  | .rdn => neg
  | .rup => !neg

/-- Round (−1)^neg · m · 2^e to the format; `m` carries a sticky low bit when the caller's result was inexact. -/
def fRound (f : FloatFmt) (rm : FRnd) (neg : Bool) (m : Nat) (e : Int) : FRes :=
  if m == 0 then ⟨fZero f neg, 0⟩ else
  let p := f.mb + 1
  let len := m.log2 + 1
  let lsb : Int := max (e + (len : Int) - (p : Int)) (fEmin f)
  let sh := (lsb - e).toNat
  let q := if lsb ≤ e then m * 2 ^ (e - lsb).toNat else m / 2 ^ sh
  let r := if lsb ≤ e then 0 else m % 2 ^ sh
  let q' := if fRoundUp rm neg q r sh then q + 1 else q
  let body := (lsb - fEmin f).toNat * 2 ^ f.mb + q'
  let inexact := r != 0
  if body ≥ fExpMax f * 2 ^ f.mb then
    let big := match rm with
      | .rne => true | .rmm => true | .rtz => false | .rdn => neg | .rup => !neg
    ⟨b2n neg * 2 ^ (f.eb + f.mb) + (if big then fExpMax f * 2 ^ f.mb else fExpMax f * 2 ^ f.mb - 1), 5⟩
  else
    -- tininess is detected after rounding with an unbounded exponent
    let ulsb : Int := e + (len : Int) - (p : Int)
    let ush := (ulsb - e).toNat
    let uq := if ulsb ≤ e then m else m / 2 ^ ush
    let ur := if ulsb ≤ e then 0 else m % 2 ^ ush
    let carry := ulsb > e && fRoundUp rm neg uq ur ush && uq + 1 == 2 ^ p
    let top : Int := e + (len : Int) - 1 + (if carry then 1 else 0)
    let tiny := top < 1 - (fBias f : Int)
    ⟨b2n neg * 2 ^ (f.eb + f.mb) + body, (if inexact then 1 else 0) + (if inexact && tiny then 2 else 0)⟩

/-- A NaN operand or an invalid operation: the canonical NaN, NV when `inv`. -/
def fInvalid (f : FloatFmt) (inv : Bool) : FRes := ⟨fNaN f, if inv then 16 else 0⟩

def FVal.sig : FVal → Bool
  | .nan b => b
  | _ => false

/-- Exact signed sum of two finite values, with the smaller exponent. -/
def fSumExact (n1 : Bool) (m1 : Nat) (e1 : Int) (n2 : Bool) (m2 : Nat) (e2 : Int) : Int × Int :=
  let e := min e1 e2
  let a : Int := (m1 * 2 ^ (e1 - e).toNat : Nat)
  let b : Int := (m2 * 2 ^ (e2 - e).toNat : Nat)
  ((if n1 then -a else a) + (if n2 then -b else b), e)

/-- Sum of two values (with the sign rule of IEEE 754 for an exact zero). -/
def fAddV (f : FloatFmt) (rm : FRnd) (a b : FVal) : FRes :=
  match a, b with
  | .nan _, _ => fInvalid f (a.sig || b.sig)
  | _, .nan _ => fInvalid f (a.sig || b.sig)
  | .inf x, .inf y => if x == y then ⟨fInf f x, 0⟩ else fInvalid f true
  | .inf x, _ => ⟨fInf f x, 0⟩
  | _, .inf y => ⟨fInf f y, 0⟩
  | .fin n1 m1 e1, .fin n2 m2 e2 =>
    let (x, e) := fSumExact n1 m1 e1 n2 m2 e2
    if x == 0 then
      let neg := if m1 == 0 && m2 == 0 && n1 == n2 then n1 else rm == .rdn
      ⟨fZero f neg, 0⟩
    else fRound f rm (x < 0) x.natAbs e

def fNegV : FVal → FVal
  | .nan b => .nan b
  | .inf n => .inf (!n)
  | .fin n m e => .fin (!n) m e

def fAddR (f : FloatFmt) (rm : FRnd) (a b : Nat) : FRes := fAddV f rm (fVal f a) (fVal f b)
def fSubR (f : FloatFmt) (rm : FRnd) (a b : Nat) : FRes := fAddV f rm (fVal f a) (fNegV (fVal f b))

def fMulR (f : FloatFmt) (rm : FRnd) (a b : Nat) : FRes :=
  match fVal f a, fVal f b with
  | .nan x, y => fInvalid f (x || y.sig)
  | x, .nan y => fInvalid f (x.sig || y)
  | .inf x, .inf y => ⟨fInf f (x != y), 0⟩
  | .inf x, .fin n m _ => if m == 0 then fInvalid f true else ⟨fInf f (x != n), 0⟩
  | .fin n m _, .inf y => if m == 0 then fInvalid f true else ⟨fInf f (n != y), 0⟩
  | .fin n1 m1 e1, .fin n2 m2 e2 => fRound f rm (n1 != n2) (m1 * m2) (e1 + e2)

def fDivR (f : FloatFmt) (rm : FRnd) (a b : Nat) : FRes :=
  match fVal f a, fVal f b with
  | .nan x, y => fInvalid f (x || y.sig)
  | x, .nan y => fInvalid f (x.sig || y)
  | .inf _, .inf _ => fInvalid f true
  | .inf x, .fin n _ _ => ⟨fInf f (x != n), 0⟩
  | .fin n _ _, .inf y => ⟨fZero f (n != y), 0⟩
  | .fin n1 m1 e1, .fin n2 m2 e2 =>
    if m2 == 0 then (if m1 == 0 then fInvalid f true else ⟨fInf f (n1 != n2), 8⟩)
    else if m1 == 0 then ⟨fZero f (n1 != n2), 0⟩
    else
      let k := f.mb + 4 + m2.log2
      let num := m1 * 2 ^ k
      let q := num / m2
      let st := if num % m2 == 0 then 0 else 1
      fRound f rm (n1 != n2) (2 * q + st) (e1 - e2 - (k : Int) - 1)

def fSqrtR (f : FloatFmt) (rm : FRnd) (a : Nat) : FRes :=
  match fVal f a with
  | .nan x => fInvalid f x
  | .inf n => if n then fInvalid f true else ⟨fInf f false, 0⟩
  | .fin n m e =>
    if m == 0 then ⟨fZero f n, 0⟩
    else if n then fInvalid f true
    else
      let k := 2 * (f.mb + 4) + (if e % 2 == 0 then 0 else 1)
      let x := m * 2 ^ k
      let r := isqrt x
      let st := if r * r == x then 0 else 1
      fRound f rm false (2 * r + st) ((e - (k : Int)) / 2 - 1)

/-- a · b + c with one rounding. -/
def fFmaR (f : FloatFmt) (rm : FRnd) (a b c : Nat) (negProd negC : Bool) : FRes :=
  let va := fVal f a
  let vb := fVal f b
  let vc := if negC then fNegV (fVal f c) else fVal f c
  match va, vb with
  | .nan x, y => fInvalid f (x || y.sig || vc.sig || (match y with | .inf _ => false | _ => false))
  | x, .nan y => fInvalid f (x.sig || y || vc.sig)
  | .inf _, .fin _ 0 _ => fInvalid f true
  | .fin _ 0 _, .inf _ => fInvalid f true
  | .inf x, .inf y => fAddV f rm (.inf ((x != y) != negProd)) vc
  | .inf x, .fin n _ _ => fAddV f rm (.inf ((x != n) != negProd)) vc
  | .fin n _ _, .inf y => fAddV f rm (.inf ((n != y) != negProd)) vc
  | .fin n1 m1 e1, .fin n2 m2 e2 => fAddV f rm (.fin ((n1 != n2) != negProd) (m1 * m2) (e1 + e2)) vc

/-- Round-to-nearest-even arithmetic, value only. -/
def fAdd (f : FloatFmt) (a b : Nat) : Nat := (fAddR f .rne a b).bits
def fSub (f : FloatFmt) (a b : Nat) : Nat := (fSubR f .rne a b).bits
def fMul (f : FloatFmt) (a b : Nat) : Nat := (fMulR f .rne a b).bits
def fDiv (f : FloatFmt) (a b : Nat) : Nat := (fDivR f .rne a b).bits
def fSqrt (f : FloatFmt) (a : Nat) : Nat := (fSqrtR f .rne a).bits
def fNegate (f : FloatFmt) (a : Nat) : Nat := if fNeg f a then a - 2 ^ (f.eb + f.mb) else a + 2 ^ (f.eb + f.mb)
def fAbs (f : FloatFmt) (a : Nat) : Nat := a % 2 ^ (f.eb + f.mb)

/-- Numeric order of two values that are not NaN. -/
def fLtV : FVal → FVal → Bool
  | .inf x, .inf y => x && !y
  | .inf x, .fin .. => x
  | .fin .., .inf y => !y
  | .fin n1 m1 e1, .fin n2 m2 e2 => (fSumExact n1 m1 e1 (!n2) m2 e2).1 < 0
  | _, _ => false

def fLt (f : FloatFmt) (a b : Nat) : Bool := !fIsNaN f a && !fIsNaN f b && fLtV (fVal f a) (fVal f b)
def fLe (f : FloatFmt) (a b : Nat) : Bool := !fIsNaN f a && !fIsNaN f b && !fLtV (fVal f b) (fVal f a)
def fEq (f : FloatFmt) (a b : Nat) : Bool := fLe f a b && fLe f b a

/-- Convert an integer (round to the format). -/
def fOfIntR (f : FloatFmt) (rm : FRnd) (x : Int) : FRes :=
  if x == 0 then ⟨0, 0⟩ else fRound f rm (x < 0) x.natAbs 0

def fOfInt (f : FloatFmt) (x : Int) : Nat := (fOfIntR f .rne x).bits
def fOfNat (f : FloatFmt) (x : Nat) : Nat := (fOfIntR f .rne x).bits

/-- Convert between formats. -/
def fCvtR (src dst : FloatFmt) (rm : FRnd) (a : Nat) : FRes :=
  match fVal src a with
  | .nan x => fInvalid dst x
  | .inf n => ⟨fInf dst n, 0⟩
  | .fin n m e => if m == 0 then ⟨fZero dst n, 0⟩ else fRound dst rm n m e

def fCvt (src dst : FloatFmt) (a : Nat) : Nat := (fCvtR src dst .rne a).bits

/-- The integer a finite value rounds to, and whether it was inexact. -/
def fIntOf (rm : FRnd) (n : Bool) (m : Nat) (e : Int) : Int × Bool :=
  if e ≥ 0 then
    let x : Int := (m * 2 ^ e.toNat : Nat)
    (if n then -x else x, false)
  else
    let sh := (-e).toNat
    let q := m / 2 ^ sh
    let r := m % 2 ^ sh
    let q := if fRoundUp rm n q r sh then q + 1 else q
    (if n then -(q : Int) else (q : Int), r != 0)

/-- Convert to an integer in [lo, hi], saturating with NV as RISC-V does (a NaN converts to `hi`). -/
def fToIntR (f : FloatFmt) (rm : FRnd) (lo hi : Int) (a : Nat) : Int × Nat :=
  match fVal f a with
  | .nan _ => (hi, 16)
  | .inf n => (if n then lo else hi, 16)
  | .fin n m e =>
    let (x, ix) := fIntOf rm n m e
    if x < lo then (lo, 16) else if x > hi then (hi, 16) else (x, if ix then 1 else 0)

/-- The exact ratio of two naturals rounded once to the format. -/
def fOfRatio (f : FloatFmt) (a b : Nat) : Nat :=
  if b == 0 then fNaN f else if a == 0 then 0 else
  let k := f.mb + 4 + b.log2
  let num := a * 2 ^ k
  (fRound f .rne false (2 * (num / b) + (if num % b == 0 then 0 else 1)) (-(k : Int) - 1)).bits

end Sys2Proof.Machine
end

