-- ==== Sys2Proof/Machine/Firewall.lean ====
section
/-! DEFINITION. The physical-bounds firewall of a grove (R284-R287), and the states of groves (R278). -/

namespace Sys2Proof.Machine

/-! ### Grove states (R278) -/

def stAbsent : Nat := 0
def stHeld : Nat := 1
def stRunning : Nat := 2
def stFrozen : Nat := 3
def stStandby : Nat := 4
def stDraining : Nat := 5
def stClearing : Nat := 6

def State.gstate (s : State) (g : Nat) : Nat := s.get (Fd.GRV_STAT.STATE g)
def State.setGstate (s : State) (g st : Nat) : State := s.set (Fd.GRV_STAT.STATE g) st
def State.grunning (s : State) (g : Nat) : Bool := s.gstate g == stRunning

/-- The groves that are not ABSENT, in ascending order. -/
def State.groveList (s : State) : List Nat := s.groves.map (·.1)

def State.runningGroves (s : State) : List Nat := s.groveList.filter (s.grunning ·)

/-! ### Firewall -/

/-- The value of a firewall entry that a checking point uses now: the register's, or an older one that a write not yet fenced
superseded (R287). -/
def State.fwEntry (s : State) (g i : Nat) : Nat :=
  let olds := (s.grv g).fwPending
  let pick := (List.range olds.length).find? fun k =>
    match olds[k]? with
    | some (j, _, _) => j == i && Config.firewallStillOld g i k s.freeCnt
    | none => false
  match pick with
  | some k => match olds[k]? with
    | some (_, v, _) => v.toNat
    | none => s.reg (Rg.GRV_FW g i)
  | none => s.reg (Rg.GRV_FW g i)

/-- The kinds of access the firewall grants, with the code of `GRV_FW_ERRg.KIND`. -/
inductive FwKind where
  | read | write | fetch | atomic
deriving DecidableEq, Repr

def FwKind.code : FwKind → Nat
  | .read => 1
  | .write => 2
  | .fetch => 3
  | .atomic => 4

/-- Does a firewall word in force grant a kind of access (R284, R285)? -/
def fwGrants (k : FwKind) (e : Nat) : Bool :=
  bitOf e 0 &&
  match k with
  | .read => bitOf e 1
  | .write => bitOf e 2
  | .fetch => bitOf e 3
  | .atomic => bitOf e 1 && bitOf e 2

/-- The ranges of physical addresses a grove's firewall opens to a kind of access. -/
def State.fwRanges (s : State) (g : Nat) (k : FwKind) : List (Nat × Nat) :=
  (((List.range 32).map (s.fwEntry g)).filter (fwGrants k)).map fun e =>
    (bits e 39 12 * 4096, (bits e 39 12 + bits e 63 40) * 4096)

/-- An access passes when every byte lies in some entry that grants it (R285). -/
def State.fwPass (s : State) (g : Nat) (k : FwKind) (a n : Nat) : Bool := within (s.fwRanges g k) a n

/-- The first byte that no entry admits. -/
def State.fwFirstBad (s : State) (g : Nat) (k : FwKind) (a n : Nat) : Nat :=
  let rs := s.fwRanges g k
  match (List.range n).find? (fun i => !rs.any (fun r => r.1 ≤ a + i && a + i < r.2)) with
  | some i => a + i
  | none => a

/-- Requesters in `GRV_FW_ERRg.REQ`. -/
def reqCore : Nat := 0
def reqDma : Nat := 1
def reqHawser : Nat := 2
def reqSignal : Nat := 3

/-- A refused access is recorded (R286). -/
def State.fwRefuse (s : State) (g : Nat) (k : FwKind) (req a n : Nat) : State :=
  (s.raise (Fd.GRV_STAT.FW_ERR g)).setReg (Rg.GRV_FW_ERR g) (s.fwFirstBad g k a n + k.code * 2 ^ 40 + req * 2 ^ 44)

/-- The draw of a check is used up while a write of the grove's firewall is still unfenced (R287). -/
def State.fwDrawn (s : State) (g : Nat) : State := if (s.grv g).fwPending.isEmpty then s else s.drawn

/-- A checked access of a unit on a grove's behalf: whether it passes, and the state with the refusal recorded. -/
def State.fwCheck (s : State) (g : Nat) (k : FwKind) (req a n : Nat) : Bool × State :=
  if s.fwPass g k a n then (true, s.fwDrawn g) else (false, (s.fwRefuse g k req a n).fwDrawn g)

end Sys2Proof.Machine
end

