-- ==== Sys2Proof/WellFormed.lean ====
section
/-! DEFINITION. Which commands are well formed: operands whose sizes fit what the spec gives the row. A command that is not well
formed is no event the environment can send; `exec` is total on it all the same. -/

namespace Sys2Proof

/-- The sizes of an access (R18, R129, R181). -/
def sizeOk (n : Nat) : Bool := n == 1 || n == 2 || n == 4 || n == 8

/-- An access of one of the four sizes whose value fits in it. -/
def accessOk (size : Nat) (v : Word) : Bool := sizeOk size && v.toNat < 2 ^ (8 * size)

/-- Three phases of a feeder (R471). -/
def feederOk (f : FeederInterval) : Bool :=
  f.act.length == 3 && f.react.length == 3 && f.u.length == 3 && f.i.length == 3 && decide (f.overs < 64)

/-- A bus access of the debug module has one of the four sizes. -/
def dmiOk : DmiOp → Bool
  | .busRead _ _ size => sizeOk size
  | .busWrite _ _ size v => accessOk size v
  | .halt _ => true
  | .resume _ => true
  | .step _ => true
  | .readReg _ _ => true
  | .writeReg _ _ _ => true
  | .progbuf _ _ _ => true

/-- Cells have 64 bytes (R235), link frames 8 or 88 (R224), and an invalidating write brings 1 to 64 bytes (R391). -/
def Instr.wf : Instr → Bool
  | .registerWrite _ _ size v => accessOk size v
  | .valueWrite _ _ size v => accessOk size v
  | .tuningWrite _ _ _ size v => accessOk size v
  | .configurationWrite _ _ _ size v => accessOk size v
  | .leTuningWrite _ _ size v => accessOk size v
  | .linkFrameReceived _ f => f.bytes.length == 8 || f.bytes.length == 88
  | .hello _ m => m.length == 64
  | .cert _ m => m.length == 64
  | .keyx _ m => m.length == 64
  | .confirm _ m => m.length == 64
  | .diagReq _ m => m.length == 64
  | .diagRsp _ m => m.length == 64
  | .dreq _ m _ => m.length == 64
  | .drsp _ m _ => m.length == 64
  | .beat _ m _ => m.length == 64
  | .data c => c.length == 64
  | .req c => c.length == 64
  | .rsp c => c.length == 64
  | .xfer c => c.length == 64
  | .readCurrent _ addr size _ => decide (0 < size) && decide (addr.toNat % 64 + size ≤ 64)
  | .writeInv _ addr w => decide (addr.toNat % 64 + w.bytes.length ≤ 64) && w.bytes != []
  | .dmiAccess op => dmiOk op
  | .integrationIntervalEnd fs => fs.all feederOk
  | .thermalSample t => t.length == 9
  | .lowWordRead _ _ | .highWordRead _ _ | .lowWordWrite _ _ _ | .highWordWrite _ _ _ | .transactionComplete _ | .powerGood
  | .romSelfTestComplete | .mainSideRelease | .flashReadComplete _ _ | .wipeComplete | .slotReadComplete
  | .semanticChecksComplete | .sectionsLoaded | .admissionCheckComplete | .bootPointerWrite | .stagingComplete | .tick
  | .sweepEnd | .budgetExpiry _ | .stagingEnd _ | .commitDeadline | .templateRelease _ | .release _ _ | .forceFs _ _ | .snap _
  | .ovrCntClr _ | .statsClr _ | .gatherWrite _ _ | .qualityWrite _ _ _ | .alarmEntryDrain | .aqTailWrite _ _ _ | .aqEnable _ _ _
  | .aqLossClear _ _ | .seCntClr _ | .pidIsa _ | .pidPar _ | .pidVel _ | .pidExt _ | .piGap _ | .onoff _ | .leadlag _ | .lag1 _
  | .lag2 _ | .deadtime _ | .mavg _ | .deriv _ | .integ _ | .total _ | .ramp _ | .ratelim _ | .limit _ | .char _ | .linear _
  | .split _ | .selhi _ | .sello _ | .selmid _ | .selsw _ | .selavg _ | .add _ | .mul _ | .div _ | .sqrt _ | .abs _ | .and _
  | .or _ | .xor _ | .not _ | .cmp _ | .srff _ | .edge _ | .ton _ | .tof _ | .tpulse _ | .ctu _ | .move _ | .sample _ | .mansta _
  | .ratio _ | .call _ | .poly3 _ | .gascomp _ | .barrierFlagSet _ | .callDone _ _ _ | .callTimeout _ | .callRetWrite _ _ _
  | .leCntClr _ | .frameReceived _ _ | .cbHistoryReset _ | .gateEntryChange _ | .queueTransmit _ _ | .fieldLinkDown _
  | .fieldLinkUp _ | .syncReceived _ _ | .syncTransmit _ | .announceTransmit _ | .pdelayReqTransmit _ | .pdelayReqReceived _ _ _
  | .fieldPortTimeSourceLost | .fpCntClr _ | .blockLock _ | .keyDerivationComplete _ | .bringupRetry _ | .heldHelloTransmit _
  | .hawserLinkDown _ | .linkFrameTransmit _ | .close _ | .dreqTransmit _ | .beatMiss | .startupWaitExpiry | .taprootStartDelay
  | .mqTxheadWrite _ _ _ | .messageIssue _ | .messageExpiry _ | .mqDoorbellHoldoffEnd _ | .mqRxtailWrite _ _ _ | .casCntClr _
  | .create _ _ | .start _ _ | .reset _ _ | .destroy _ _ | .freeze _ _ _ | .thaw _ _ | .save _ _ _ | .restore _ _ | .switch _ _
  | .promote _ _ | .drainComplete _ | .clearingComplete _ | .freezeComplete _ | .saveComplete _ _ | .trackingApplyComplete _
  | .partnerLost _ | .firewallEntryWrite _ _ _ _ | .load _ _ _ | .loadMissFill _ _ | .store _ _ | .storeDrain _ _ | .atomic _ _ _
  | .lr _ _ _ | .sc _ _ | .fence _ _ | .fenceI _ _ | .frameWait _ _ | .regionInv _ _ | .fenceGrove _ _ | .fenceGroveComplete _
  | .loopSet _ _ | .ecall _ _ | .ebreak _ _ | .otherInstruction _ _ | .walkProbeResponse _ _ | .ctxSwitch _ _ | .sRet _ _
  | .eRet _ _ | .interruptTaken _ | .regionRegisterWrite _ _ | .predFlush _ _ | .pmcOverflow _ _ | .readShared _ _ _ _ _
  | .readUnique _ _ _ _ | .upgrade _ _ _ _ | .readSpec _ _ _ _ | .writeBack _ _ | .evict _ _ | .atomicFar _ _ _
  | .snoopReceived _ _ _ | .completionAck _ | .retryReissue _ _ | .wheelTurn | .patrolPassComplete _ | .sparingRebuildComplete
  | .retentionWakeComplete _ | .sealedBankWipeComplete | .memCntClr _ | .pulse _ _ | .assert _ _ | .deassert _ _
  | .irqEnSet _ _ _ | .irqEnClr _ _ _ | .irqPendSet _ _ _ | .irqPendClr _ _ _ | .irqClaim _ | .irqEoi _ _ | .compatWrite _ _ _
  | .irqCntClr _ | .dmaHeadWrite _ _ _ _ | .dmaStart _ _ _ | .dmaStop _ _ _ | .dmaJobStart _ | .dmaElementComplete _
  | .descriptorComplete _ | .engineBusError _ _ _ _ _ _ | .portReceiveJob _ _ | .portTransmitJob _ _ | .dmaCntClr _ | .getInfo _
  | .getNonce _ | .getIdentity _ | .attest _ | .auditRead _ | .stage _ | .hwfwUpdate _ | .lcChange _ | .provision _
  | .keyRotate _ | .certInstall _ | .imageKeyInstall _ | .debugOpen _ | .debugClose _ | .nonceLapse | .lifecycleChangeReset
  | .tamperCondition _ | .sensorHoldEnd | .heartwoodRestart | .heartwoodClockSync | .mramRefresh | .tapInstructionLoad _
  | .publicationBoundary | .pulseEdge _ | .enclavePowerFail | .enclavePowerRecovered | .enclaveConverterStart _
  | .enclaveWatchdog _ | .checksumCheck _ | .converterFault _ | .converterFaultEnd _ | .parameterRefresh | .sealAsserted
  | .sealReleased | .ident | .paramRead _ | .paramWrite _ _ | .commit | .abort | .logRead _ | .measure _ | .readSnapshot _ _ _
  | .readLog _ _ _ | .timeSet _ _ _ | .tariff _ _ _ | .pcieLinkUp _ _ | .pcieLinkDown | .pciPerst | .functionLevelReset _
  | .hostValueWrite _ _ | .hostQualityWrite _ _ | .hostValueQualityWrite _ _ _ | .hostDoorbell _ | .snapshotCopy
  | .snapshotComplete _ | .snapshotEnable _ _ _ | .h2dHeadWrite _ _ | .d2hHeadWrite _ _ _ | .d2hTailWrite _ _ | .mqEnable _ _ _
  | .outboundReadComplete _ _ _ | .outboundCompletionTimeout _ | .hostIrq _ | .pciCntClr _ | .lockoutRelease _ _
  | .powerFailWarning | .powerFailRelease | .powerFailColdReset | .lockout | .feedLost _ _ | .holdUpStoreNotCharged
  | .holdUpStoreCharged | .coldReset | .warmRst _ _ | .resetRelease | .sprintRequest _ _ | .sprintLimitExpiry | .cooldownEnd
  | .poweredLedgerUpdate | .retentionWrite _ _ | .maxClr _ | .ppsOut | .blockLockTimeout _ | .delayResponseTimeout _
  | .pdelayRespReceived _ _ | .sensorConditionAbsent _ | .frameTransmissionEnd _ => true

end Sys2Proof
end

