-- ==== Sys2Proof/Machine/FrameOps.lean ====
section
/-! DEFINITION. The tick grid, the frame classes and the halves of the gather buffer (R76-R82, R89, R91). -/

namespace Sys2Proof.Machine

/-- P (R76). -/
def State.period (s : State) : Nat := s.get Fd.FRM_PERIOD.PERIOD_NS
/-- G (R85). -/
def State.guardNs (s : State) : Nat := s.get Fd.FRM_PHASE_OFS.GUARD_NS
def State.origin (s : State) : Nat := s.get Fd.FRM_TICK_ORIGIN.ORIGIN_NS
/-- Frame 0 has begun. -/
def State.frameRunning (s : State) : Bool := s.on Fd.FRM_STAT.RUNNING
/-- n and T(n) of the current frame (R78). -/
def State.frameNo (s : State) : Nat := s.reg Rg.FRM_NUMBER
def State.tickTime (s : State) : Nat := s.reg Rg.FRM_TICK_TIME
/-- D(n) (R85). -/
def State.deadline (s : State) : Nat := s.tickTime + s.period - s.guardNs

/-- Mk from the three dividers; 0 for a class that is not used (R81). -/
def multOf (d1 d2 d3 : Nat) : Nat → Nat
  | 0 => 1
  | 1 => d1
  | 2 => d1 * d2
  | 3 => d1 * d2 * d3
  | _ => 0

def State.classMult (s : State) (k : Nat) : Nat :=
  multOf (s.get Fd.FRM_CLASS_DIV.DIV1) (s.get Fd.FRM_CLASS_DIV.DIV2) (s.get Fd.FRM_CLASS_DIV.DIV3) k

/-- Is class k due at tick index m (R82)? -/
def State.dueAt (s : State) (m k : Nat) : Bool := s.classMult k != 0 && m % s.classMult k == 0

/-- Is class k due in the current frame? -/
def State.due (s : State) (k : Nat) : Bool := bitOf (s.get Fd.FRM_STAT.DUE) k

/-- The tick index of a grid instant, and the first grid instant after a time (R77). -/
def State.tickIndex (s : State) (t : Nat) : Nat := (t - s.origin) / s.period
def State.nextGrid (s : State) (t : Nat) : Nat :=
  if t < s.origin then s.origin else s.origin + ((t - s.origin) / s.period + 1) * s.period

/-- The half of the gather buffer that a value written now goes into: that of the next frame (R89, R91). -/
def State.gatherHalf (s : State) : Nat := if s.frameRunning then (s.frameNo + 1) % 2 else 0

/-- Engine clocks (1.2 GHz) to nanoseconds, rounded up. -/
def clocksNs (n : Nat) : Nat := ceilDiv (n * 5) 6

/-- Engine clocks in a span of nanoseconds, rounded down. -/
def nsClocks (t : Nat) : Nat := t * 6 / 5

/-! ### Fail-safe (R107-R109) -/

def State.failsafe (s : State) (g : Nat) : Bool := s.on (Fd.FRM_GRV_STAT.FAILSAFE g)

/-- Some grove is in fail-safe: `FRM_STAT.FS_ANY` follows the groves' own bits. -/
def State.fsAny (s : State) : State :=
  s.set Fd.FRM_STAT.FS_ANY (b2n ((List.range 64).any fun g => s.failsafe g))

/-- A grove enters fail-safe from the next release of its templates; what was armed is armed no more (R107-R109). -/
def State.enterFailsafe (s : State) (g : Nat) : State :=
  (((s.raise (Fd.FRM_GRV_STAT.FAILSAFE g)).lower (Fd.FRM_GRV_STAT.RELEASE_ARMED g)).fsAny).modGrv g fun x => { x with relTime := none }

/-- Fail-safe ends (R108). -/
def State.leaveFailsafe (s : State) (g : Nat) : State :=
  (((s.lower (Fd.FRM_GRV_STAT.FAILSAFE g)).lower (Fd.FRM_GRV_STAT.RELEASE_ARMED g)).fsAny).modGrv g fun x => { x with relTime := none }

end Sys2Proof.Machine
end

