-- ==== Sys2Proof/Machine/Integrity.lean ====
section
/-! DEFINITION. GDDR7 service and memory integrity (11.3, 11.8-11.10): what a line is stored as, the accounting of accesses, the
allowance of real-time requests, what the error logic finds and reports. -/

namespace Sys2Proof.Machine

/-! ### What a line is stored as (R397) -/

/-- A line as the nine devices hold it: ciphertext, MAC, ECC symbols. -/
structure StoredLine where
  cipher : List Byte
  mac    : BitVec 32
  ecc    : List Byte
deriving DecidableEq, Repr

/-- A write of a line: encrypted under AES-XTS-256, its MAC computed over ciphertext and address, both encoded by the ECC. -/
def encodeLine (key line : Nat) (plain : List Byte) : StoredLine :=
  let c := Config.lineCipher key line plain
  let m := Config.lineMac key c (64 * line)
  { cipher := c, mac := m, ecc := Config.lineEcc c m }

/-- What GDDR7 holds for a line: its encoding under the memory key in force; a failed line holds one whose ECC names no word, or whose
MAC never verifies. -/
def State.stored (s : State) (line : Nat) : StoredLine :=
  let l := encodeLine s.sec.memKeys line (s.rdB (64 * line) 64)
  if !s.isFailed line then l
  else if s.macBad line then { l with mac := l.mac + 1, ecc := Config.lineEcc l.cipher (l.mac + 1) }
  else { l with ecc := 0 :: Config.lineEcc l.cipher l.mac }

/-- The outcome of reading a stored line: in the order ECC, MAC, decryption. -/
inductive LineRead where
  | plain
  | uncorrectable
  | macMismatch
deriving DecidableEq, Repr

def StoredLine.read (l : StoredLine) (key line : Nat) : LineRead :=
  if l.ecc != Config.lineEcc l.cipher l.mac then .uncorrectable
  else if l.mac != Config.lineMac key l.cipher (64 * line) then .macMismatch
  else .plain

/-! ### Accounting and reports (R394; 11.10) -/

/-- The grove to which an access is accounted (R394): the holder of the grain; none: the maintenance reserve. -/
def State.acct (s : State) (a : Nat) : Option Nat := s.groveWith fun r => r.memory.any fun e => e.1 ≤ a && a < e.2

/-- The doorbell of `HWD_MEM_CFG`. -/
def State.memBell (s : State) : State := if s.on Fd.HWD_MEM_CFG.IRQ_EN then s.pulse (s.get Fd.HWD_MEM_CFG.IRQ_SRC) else s

/-- A status bit that reports with that doorbell on its 0-to-1 change. -/
def State.memRaise (s : State) (f : Fld) : State :=
  let was := s.on f
  (s.raise f).iff (!was) (·.memBell)

/-- `HWD_MEM_ERR_LAST`; `maint`: the access is the scrub's, accounted to the maintenance reserve. -/
def State.memErr (s : State) (a kind dev src : Nat) (maint : Bool) : State :=
  let a := if src < 7 then a / 64 * 64 else a / 8 * 8
  let (g, maint) := if maint then (0, true) else match s.acct a with
    | some g => (g, false)
    | none => (0, true)
  s.setReg Rg.HWD_MEM_ERR_LAST (a + kind * 2 ^ 40 + dev * 2 ^ 44 + g * 2 ^ 48 + b2n maint * 2 ^ 54 + src * 2 ^ 56)

/-- A device is failing: the rebuild into the spared layout begins, once for the module (R402), and MRAM records it (DEDUCED: from
here on, log 77). -/
def State.spare (s : State) (dev : Nat) : State :=
  if s.on Fd.HWD_MEM_STAT.SPARED || s.on Fd.HWD_MEM_STAT.SPARING then s
  else ((((s.modCoh fun c => { c with rebuild := some dev }).raise Fd.HWD_MEM_STAT.SPARING).audit 0x0041 dev 0).modSec fun x => { x with
    spared := some dev }).memBell

/-- A read meets a failed line (card "GDDR7 failed line"): nothing is recorded of the line, so every read reports again (R399); MAC failures
go to Heartwood as well (R453). -/
def State.meetFailed (s : State) (line : Nat) (maint : Bool) : State :=
  if s.macBad line then
    let s := s.modSec fun x => { x with macFails := (s.now :: x.macFails).take 64 }
    ((s.inc Fd.HWD_MEM_MAC_CNT.COUNT).memErr (64 * line) 3 0xF 0 maint).memRaise Fd.HWD_MEM_STAT.MAC
  else ((s.inc Fd.HWD_MEM_UE_CNT.COUNT).memErr (64 * line) 2 0xF 0 maint).memRaise Fd.HWD_MEM_STAT.UE

/-- A corrected GDDR7 error (card "GDDR7 corrected error"); in the spared layout it is uncorrectable instead (R402). -/
def State.corrected (s : State) (a dev : Nat) (big maint : Bool) : State :=
  if s.on Fd.HWD_MEM_STAT.SPARED then s.failLine (a / 64) false
  else
  let s := ((s.inc Fd.HWD_MEM_CE_CNT.COUNT).inc (Fd.HWD_MEM_DEV_CE.COUNT dev)).raise Fd.HWD_MEM_STAT.CE
  let s := s.memErr a 1 dev 0 maint
  if big || s.get Fd.HWD_MEM_CFG.SPARE_THRESH ≤ s.get (Fd.HWD_MEM_DEV_CE.COUNT dev) then s.spare dev else s

/-- A read of a poisoned word (R374; card "On-die SRAM uncorrectable error"). -/
def State.meetPoison (s : State) (a : Nat) : State :=
  ((s.inc Fd.HWD_MEM_SRAM_UE_CNT.COUNT).memErr a 2 0xF (if a < tagBase then 7 else 8) false).memRaise Fd.HWD_MEM_STAT.SRAM_UE

/-- An on-die error that is corrected, or counted as corrected (R403). -/
def State.sramCorrected (s : State) (a src : Nat) : State :=
  ((s.inc Fd.HWD_MEM_SRAM_CE_CNT.COUNT).raise Fd.HWD_MEM_STAT.SRAM_CE).memErr a 1 0xF src false

/-- An on-die error that is not corrected is reported. -/
def State.sramLost (s : State) (a src : Nat) : State :=
  ((s.inc Fd.HWD_MEM_SRAM_UE_CNT.COUNT).memErr a 2 0xF src false).memRaise Fd.HWD_MEM_STAT.SRAM_UE

/-! ### On-die errors (R403) -/

/-- The only copy of a dirty line is lost: it is written back with a MAC that never verifies. -/
def State.loseLine (s : State) (line a src : Nat) : State :=
  (((s.dropOthers line none).dropL3 line).failLine line true).sramLost a src

/-- An uncorrectable error of a line in a cluster's L2. -/
def State.lostL2 (s : State) (cl line a : Nat) : State :=
  match s.l2State cl line with
  | some .m => s.loseLine line a 4
  | some _ => ((s.dropAt cl line).clearPresence cl line).sramCorrected a 4
  | none => s

/-- An uncorrectable on-die error in the structure of code `src` that a read of `a` uses; `at_`: the core that reads. -/
def State.sramError (s : State) (at_ : Option Nat) (a src : Nat) : State :=
  let line := a / 64
  match src, at_ with
  | 1, some c => if (s.core c).l1i.contains line then (s.modCore c fun k => { k with l1i := k.l1i.filter (· != line) }).sramCorrected a 1 else s
  | 2, some c =>
    match s.l1dState c line with
    | some .m => s.loseLine line a 2
    | some _ => (s.modCore c fun k => { k with
        l1d := k.l1d.filter fun e => e.1 != line, rsv := if k.rsv == some line then none else k.rsv }).sramCorrected a 2
    | none => s
  | 3, some c => if (s.core c).shadow.contains line then (s.modCore c (·.dropShadow line)).sramCorrected a 3 else s
  | 4, some c => s.lostL2 (clusterOf c) line a
  | 4, none =>
    match (List.range 4).find? fun cl => (s.l2State cl line).isSome with
    | some cl => s.lostL2 cl line a
    | none => s
  | 5, _ =>
    match mapGet? s.coh.l3 line with
    | some true => ((s.dropL3 line).failLine line true).sramLost a 5
    | some false => (s.dropL3 line).sramCorrected a 5
    | none => s
  | 6, _ =>
    let lines := (s.coh.dir.map (·.1)).filter fun l => dirSet l == dirSet line
    (s.each lines fun s l => (s.iff (s.dirty l) (·.toL3 l true)).dropOthers l none).sramLost a 6
  | 7, _ => s.iff (targetOf a == .sram || targetOf a == .sealed) (·.poison a)
  | 8, _ => s.iff (targetOf a == .tags) (·.poison a)
  | _, _ => s

/-- What the error logic finds when `a` is read: effects before the data is taken. A GDDR7 error meets only a read that reaches
GDDR7. -/
def State.memFault (s : State) (at_ : Option Nat) (a : Nat) (f : MemFault) : State :=
  let line := a / 64
  let gddr := targetOf a == .gddr && !s.cached line && !s.isFailed line
  match f with
  | .none => s
  | .corrected dev big => s.iff gddr (·.corrected a dev.val big false)
  | .uncorrectable => s.iff gddr (·.failLine line false)
  | .mac => s.iff gddr (·.failLine line true)
  | .sramCorrected src => if src.val == 0 || src.val == 1 || src.val == 3 then s else s.sramCorrected a src.val
  | .sramLost src => s.sramError at_ a src.val

/-- What the patrol finds in a line of GDDR7, whatever the caches hold of it (R401): corrected and rewritten, or reported and left. -/
def State.patrolFind (s : State) (a : Nat) (f : MemFault) : State :=
  if targetOf a != .gddr || s.isFailed (a / 64) then s
  else match f with
    | .corrected dev big => s.corrected a dev.val big true
    | .uncorrectable => s.failLine (a / 64) false
    | .mac => s.failLine (a / 64) true
    | _ => s

/-! ### Real-time allowance (R394, R395) -/

/-- An accounted real-time access: whether it is within its grove's allowance, and the state with it counted. -/
def State.rtAccess (s : State) (a : Nat) : Bool × State :=
  match s.acct a with
  | none => (true, s)
  | some g =>
    let share := (s.grv g).cfg.bwShare
    let recent := (s.now, g) :: s.coh.rtRecent.filter fun e => s.now < e.1 + 250
    let turn := mapGet 0 s.coh.rtTurn g + 1
    let s := s.modCoh fun c => { c with rtTurn := mapSet 0 c.rtTurn g turn, rtRecent := recent }
    let ok := turn ≤ 11 * share && (recent.filter fun e => e.2 == g).length ≤ ceilDiv (11 * share) 4 + 16 && share != 0
    if ok then (true, s)
    else (false, (s.inc (Fd.HWD_MEM_RT_OVER.COUNT g)).memRaise Fd.HWD_MEM_STAT.RT_OVER)

/-- A read of a line takes its place on the slot wheel when it reaches GDDR7. -/
def State.rtTouch (s : State) (line : Nat) (rt : Bool) : State := if rt && !s.cached line then (s.rtAccess (64 * line)).2 else s

/-- A write of a line to GDDR7 does so in any case. -/
def State.rtWrite (s : State) (line : Nat) (rt : Bool) : State := if rt then (s.rtAccess (64 * line)).2 else s

/-! ### Frame SRAM and Tag Store (11.3) -/

def bankOf (a : Nat) : Nat := (a - sramBase) / 0x8_0000

/-- Is an access held: a bank in retention (R376), or the sealed bank under a wipe (R377)? -/
def State.held (s : State) (a : Nat) : Bool :=
  match targetOf a with
  | .sram => 36 ≤ bankOf a && bitOf (s.get Fd.PWR_RET.BANKS) (bankOf a - 36)
  | .sealed => bitOf (s.get Fd.PWR_RET.BANKS) (bankOf a - 36) || s.coh.wiping
  | _ => false

/-- A held access wakes its bank. -/
def State.wake (s : State) (a : Nat) : State :=
  if bitOf (s.get Fd.PWR_RET.BANKS) (bankOf a - 36) && !s.coh.waking.contains (bankOf a)
  then s.modCoh fun c => { c with waking := bankOf a :: c.waking } else s

/-- An access of a unit that goes on inside its own command wakes a bank in retention at once: the bank stays awake (R376; log 35). -/
def State.wakeNow (s : State) (a : Nat) : State :=
  match targetOf a with
  | .sram =>
    if 36 ≤ bankOf a && bitOf (s.get Fd.PWR_RET.BANKS) (bankOf a - 36)
    then (s.set Fd.PWR_RET.BANKS (setBits (s.get Fd.PWR_RET.BANKS) (bankOf a - 36) (bankOf a - 36) 0)).modCoh fun c => { c with
      waking := c.waking.filter (· != bankOf a) }
    else s
  | _ => s

/-- A write into a word of the Frame SRAM or Tag Store: an aligned write of 8 bytes replaces a poisoned word, a narrower one is
not performed and reports the error again (R374). -/
def State.wordWrite (s : State) (a : Nat) (bs : List Byte) : Bool × State :=
  if !s.poisonedIn a bs.length then (true, s.wrB a bs)
  else if a % 8 == 0 && bs.length % 8 == 0 then
    (true, (s.wrB a bs).modCoh fun c => { c with poisoned := c.poisoned.filter fun w => !(a ≤ w * 8 && w * 8 < a + bs.length) })
  else (false, s.meetPoison a)

/-- The same for a unit that carries no report of its own. -/
def State.wordPut (s : State) (a : Nat) (bs : List Byte) : State := (s.wordWrite a bs).2

/-! ### Unit accesses to GDDR7 (R390, R391) -/

/-- A read by a unit without a cache fails: some line of it fails. -/
def State.unitFails (s : State) (a n : Nat) : Option Nat := (linesOf a n).find? (s.fails ·)

/-- A unit's write at the home of its lines: an invalidating write; one that covers a failed line in part is not performed and is
reported (R391, R399). -/
def State.unitWrite (s : State) (a : Nat) (bs : List Byte) (rt : Bool) : Bool × State :=
  match (linesOf a bs.length).find? fun l => s.fails l && !covers a bs.length l with
  | some l => (false, s.meetFailed l false)
  | none => (true, (s.each (linesOf a bs.length) fun s l => s.rtWrite l rt).invalidatingWrite a bs)

/-- A unit's read at the home: its bytes, or the report of a failed line (ReadCurrent; R390, R399). -/
def State.unitRead (s : State) (a n : Nat) (rt : Bool) : Option (List Byte) × State :=
  let s := s.each (linesOf a n) fun s l => s.rtTouch l rt
  match s.unitFails a n with
  | some l => (none, s.meetFailed l false)
  | none => (some (s.rdB a n), s)

/-- The one-line parts of a write: their addresses and bytes. -/
def lineParts (a : Nat) (bs : List Byte) : List (Nat × List Byte) :=
  (linesOf a bs.length).map fun l =>
    let lo := max a (64 * l)
    let hi := min (a + bs.length) (64 * l + 64)
    (lo, sliceB bs (lo - a) (hi - lo))

/-- A posted write of unit `who`: performed now, or waiting at the home of its lines while an open transaction blocks one (R383). -/
def State.homeWrite (s : State) (who a : Nat) (bs : List Byte) : State :=
  if s.linesFree a bs.length then (s.unitWrite a bs false).2
  else s.modCoh fun c => { c with waiting := c.waiting ++ (lineParts a bs).map fun p =>
    { kind := .writeInv, cluster := none, line := p.1 / 64, rt := false, who := who, addr := p.1, size := p.2.length, bytes := p.2 } }

/-! ### Open transactions (R30) -/

/-- Requester numbers beyond those of `reqNo`: the Hawser interface for messages, the four clusters for their requests at homes. -/
def hawserReq : Nat := 1000
def clusterReqNo (cl : Nat) : Nat := 1001 + cl

/-- The open message tags (R260). -/
def State.tagsOpen (s : State) : Nat := (s.cascade.mtags.filter fun e => e.2.isOpen).length

/-- Transactions open across the device: those that memory and DMA accesses have left open, messages of the cascade that await their
response, and the transactions open at the homes. -/
def State.openCount (s : State) : Nat :=
  s.openTrans.foldl (fun n e => n + e.2) 0 + s.tagsOpen + s.coh.opened.length

/-- A requester's own open transactions. -/
def State.ownOpen (s : State) (r : Nat) : Nat :=
  mapGet 0 s.openTrans r + (if r == hawserReq then s.tagsOpen else 0) +
    (s.coh.opened.filter fun e => match e.2.req.cluster with
      | some cl => r == clusterReqNo cl
      | none => r == e.2.req.who).length

/-- A requester's `n` new transactions begin (true), or the requester is held at the limit of 49,152 until one of its own completes; one
with none open goes on when there is room (log 66). -/
def State.transTake (s : State) (r n : Nat) : Bool × State :=
  if n == 0 then (true, s)
  else if s.heldTrans.contains r && s.ownOpen r != 0 then (false, s)
  else if s.openCount + n ≤ 49152 then (true, { s with heldTrans := s.heldTrans.filter (· != r) })
  else (false, { s with heldTrans := if s.heldTrans.contains r then s.heldTrans else s.heldTrans ++ [r] })

/-- Transactions that stay open beyond their row are counted by their requester. -/
def State.transCount (s : State) (r n : Nat) : State :=
  if n == 0 then s else { s with openTrans := mapSet 0 s.openTrans r (mapGet 0 s.openTrans r + n) }

/-- A requester's new transaction that stays open beyond its row begins, if the limit allows. -/
def State.transBegin (s : State) (r : Nat) : Bool × State :=
  match s.transTake r 1 with
  | (true, s) => (true, s.transCount r 1)
  | (false, s) => (false, s)

/-- One of a requester's own open transactions has completed. -/
def State.transDone (s : State) (r : Nat) : State :=
  if s.heldTrans.contains r then { s with heldTrans := s.heldTrans.filter (· != r) } else s

end Sys2Proof.Machine
end

