-- ==== Sys2Proof/Machine/Signal.lean ====
section
/-! DEFINITION. The Signal Engine and the Tag Directory (chapter 4): the tag record, gather slots, tag writes and their ownership,
the fold, the sweep, alarms and the Alarm Queues. -/

namespace Sys2Proof.Machine

/-! ### The tag record (R118-R121) -/

/-- A tag record's fields. -/
structure Tag where
  value  : Nat
  ts     : Nat
  raw    : Nat
  bind   : Nat
  qual   : Nat
  mode   : Nat
  almEn  : Nat
  almSt  : Nat
  gslot  : Nat
  devRef : Nat
  p0     : Nat
  p1     : Nat
  lim    : Nat → Nat   -- HH, H, L, LL by alarm bit
  hyst   : Nat
  db     : Nat
  roc    : Nat
  dev    : Nat

/-- Width in bytes of a value write (R125). -/
def valueSize (vtype : Nat) : Nat := if vtype == 1 || vtype == 3 then 8 else 4

/-- The fields of 64 record bytes (R118); VALUE bytes that the type does not use read 0 (R120). -/
def Tag.of (bs : List Byte) : Tag where
  value := fieldB bs 0 (valueSize (bits (fieldB bs 0x19 1) 2 0))
  ts := fieldB bs 8 8
  raw := fieldB bs 0x10 4
  bind := fieldB bs 0x14 4
  qual := fieldB bs 0x18 1
  mode := fieldB bs 0x19 1
  almEn := fieldB bs 0x1A 1
  almSt := fieldB bs 0x1B 1
  gslot := fieldB bs 0x1C 2
  devRef := fieldB bs 0x1E 2
  p0 := fieldB bs 0x20 4
  p1 := fieldB bs 0x24 4
  lim := fun k => fieldB bs (0x28 + 4 * k) 4
  hyst := fieldB bs 0x38 2
  db := fieldB bs 0x3A 2
  roc := fieldB bs 0x3C 2
  dev := fieldB bs 0x3E 2

def Tag.wIndex (t : Tag) : Nat := bits t.bind 17 0
def Tag.grove (t : Tag) : Nat := bits t.bind 23 18
def Tag.wKind (t : Tag) : Nat := bits t.bind 26 24
def Tag.pri (t : Tag) : Nat := bits t.bind 28 27
def Tag.publish (t : Tag) : Bool := bitOf t.bind 29
def Tag.rawFmt (t : Tag) : Nat := bits t.bind 31 30
def Tag.vtype (t : Tag) : Nat := bits t.mode 2 0
def Tag.cls (t : Tag) : Nat := bits t.mode 4 3
def Tag.scale (t : Tag) : Nat := bits t.mode 6 5
def Tag.slotEn (t : Tag) : Bool := bitOf t.gslot 15
def Tag.slot (t : Tag) : Nat := bits t.gslot 14 0

def State.tag (s : State) (i : Nat) : Tag := Tag.of (s.rdB (tagAddr i) 64)

/-- A byte of the Tag Store window as it reads: VALUE bytes that the type does not use read 0 (R120). -/
def State.tagByte (s : State) (a : Nat) : Byte :=
  let i := (a - tagBase) / 64
  let off := (a - tagBase) % 64
  if off < 8 && valueSize (bits (s.byte (tagAddr i + 0x19)).toNat 2 0) ≤ off then 0 else s.byte a

/-- `n` bytes of the Tag Store window. -/
def State.tagBytes (s : State) (a n : Nat) : List Byte := (List.range n).map fun i => s.tagByte (a + i)

/-- A CLASS as read: 3 is bad (R122). -/
def qclass (q : Nat) : Nat := if q % 4 == 3 then 0 else q % 4

/-- A quality code reserved under R121. -/
def qualReserved (q : Nat) : Bool :=
  let sub := bits q 5 2
  match q % 4 with
  | 0 => sub > 5
  | 1 => sub > 5
  | 2 => sub > 1
  | _ => true

/-- The quality of class and SUB with LIM 0. -/
def mkQual (cls sub : Nat) : Nat := cls + 4 * sub

/-- The combination of R122. -/
def combineQual (qin : Nat) (qd : Option Nat) : Nat :=
  let qin := if qin % 4 == 3 then 0 else if qualReserved qin then qin % 4 else qin
  match qd with
  | none => qin
  | some d => if d % 4 ≤ qin % 4 then d else qin

/-- The alarm kinds a VTYPE may use (R120). -/
def almAllowed (vtype : Nat) : Nat :=
  match vtype with
  | 0 => 0xBF
  | 1 => 0xBF
  | 2 => 0xC0
  | 4 => 0xC0
  | 3 => 0x80
  | _ => 0

/-- Slot data to the value encoding (R120). -/
def convertRaw (vtype rawFmt data : Nat) : Nat :=
  match vtype with
  | 0 =>
    let d := data % 2 ^ 32
    if rawFmt == 0 then fOfNat f32 d else if rawFmt == 1 then fOfInt f32 (sext 32 d) else d
  | 2 => data % 2
  | 4 => data % 2 ^ 16
  | _ => data % 2 ^ 64

/-- Is the value encoding a NaN or an infinity? -/
def valueNonFinite (vtype v : Nat) : Bool :=
  (vtype == 0 && !fFinite f32 (v % 2 ^ 32)) || (vtype == 1 && !fFinite f64 v)

/-- The tags that are used (W_KIND not 0), in ascending index: byte 0x17 of a record holds W_KIND in its low bits (R119). -/
def State.usedTags (s : State) : List Nat :=
  ((s.mem.filter fun e => tagBase ≤ e.1 && e.1 < tagBase + tagSize && (e.1 - tagBase) % 64 == 0x17 && e.2.toNat % 8 != 0).map
    fun e => (e.1 - tagBase) / 64)

/-! ### Gather slots (R128-R130) -/

def slotAddr (half i : Nat) : Nat := sramBase + half * 0x8_0000 + 16 * i
def statusAddr (half i : Nat) : Nat := sramBase + 0x10_0000 + half * 0x2_0000 + 4 * i

def statusWord (count qin : Nat) (qset : Bool) : Nat := count + qin * 2 ^ 8 + b2n qset * 2 ^ 16

/-- A value write to a slot (R130); its words are written as R374 has it. -/
def State.slotValue (s : State) (half i data ts q : Nat) : State :=
  let st := s.rd (statusAddr half i) 4
  ((s.wordPut (slotAddr half i) (leBytes 8 data)).wordPut (slotAddr half i + 8) (leBytes 8 ts)).wordPut (statusAddr half i)
    (leBytes 4 (statusWord (satAdd 8 (bits st 7 0) 1) q true))

/-- A quality write to a slot (R130). -/
def State.slotQual (s : State) (half i q : Nat) : State :=
  let st := s.rd (statusAddr half i) 4
  s.wordPut (statusAddr half i) (leBytes 4 (statusWord (bits st 7 0) q true))

def State.clearSlot (s : State) (half i : Nat) : State :=
  (s.wordPut (slotAddr half i) (List.replicate 16 0)).wordPut (statusAddr half i) (List.replicate 4 0)

/-- A diverted write without a slot, or a write into banks 0-3 (R129, R132). -/
def State.gatherDrop (s : State) : State :=
  let was := s.on Fd.SE_STAT.GATHER_DROP
  let s := (s.inc Fd.SE_GATHER_DROP_CNT.COUNT).raise Fd.SE_STAT.GATHER_DROP
  if was then s else s.pulse (s.get Fd.SE_IRQ_SRC.CONFLICT_SRC)

/-! ### Ownership and tag writes (R123-R127, R136) -/

/-- A tag write that is dropped (R125). -/
def State.tagConflict (s : State) (tag kind reason windex : Nat) : State :=
  let was := s.on Fd.SE_STAT.CONFLICT
  let s := ((s.inc Fd.SE_CONFLICT_CNT.COUNT).setReg Rg.SE_CONFLICT_LAST
    (tag + kind * 2 ^ 16 + reason * 2 ^ 19 + windex * 2 ^ 24)).raise Fd.SE_STAT.CONFLICT
  if was then s else s.pulse (s.get Fd.SE_IRQ_SRC.CONFLICT_SRC)

/-- The kind and the index of a Gather writer, as `SE_CONFLICT_LAST` records them. -/
def gwKind : GatherWriter → Nat
  | .map _ => 1
  | .subscription _ => 2
  | .grove _ => 4
  | .enclave _ => 5
  | .host => 6

def gwIndex : GatherWriter → Nat
  | .map e => e.val
  | .subscription i => i.val
  | .grove g => g.val
  | .enclave ch => ch.val
  | .host => 0

/-- Is it the writer that BIND names (R123, R124)? -/
def gwOwns (w : GatherWriter) (t : Tag) : Bool :=
  t.wKind == gwKind w && (match w with
    | .grove g => t.grove == g.val
    | .host => true
    | _ => t.wIndex == gwIndex w)

/-- A Gather write (R89, R91, R124, R130): dropped when BIND names another writer or the tag is poisoned (R375). One by the tag's
writer to a tag without a slot, which a configuration write may leave, is dropped as R132 drops one of kind 4 (log 9). -/
def State.gather (s : State) (w : GatherWriter) (tag : Nat) (op : GatherOp) : State :=
  let t := s.tag tag
  if !gwOwns w t || s.tagPoisoned tag then s.tagConflict tag (gwKind w) 0 (gwIndex w)
  else if !t.slotEn then s.gatherDrop
  else match op with
    | .value data ts q => s.slotValue s.gatherHalf t.slot data.toNat ts.toNat q.toNat
    | .quality q => s.slotQual s.gatherHalf t.slot q.toNat

/-- The grove number a requester's transactions carry (1.3); the host and Heartwood carry none. -/
def State.groveOfReq (s : State) : Requester → Option Nat
  | .core c => s.groveOfCore c.val
  | .dma e _ => s.groveOfEngine e.val
  | _ => none

/-- Is a requester the tag's writer (R124)? -/
def State.isWriter (s : State) (r : Requester) (t : Tag) : Bool :=
  match r with
  | .host => t.wKind == 6
  | .heartwood => false
  | _ => t.wKind == 4 && s.groveOfReq r == some t.grove

/-- May a requester tune the tag: a core of GROVE at S or E level (R125)? -/
def State.mayTune (s : State) (r : Requester) (t : Tag) : Bool := s.isSE r && s.groveOfReq r == some t.grove

/-- May a configuration write be made: a core at E level while no grove holds the tag's index range (R125), or while the grove
that holds it is HELD (R283)? -/
def State.mayConfigTag (s : State) (r : Requester) (tag : Nat) : Bool :=
  s.isE r && (match s.groveOfTag tag with
    | some g => s.gstate g == stHeld
    | none => true)

def formValue (t : Tag) (off size : Nat) : Bool := off == 0 && size == valueSize t.vtype
def formQual (off size : Nat) : Bool := off == 0x18 && size == 1
def formTune (off size : Nat) : Bool :=
  (off == 0x1A && size == 1) || (size == 4 && off % 4 == 0 && 0x28 ≤ off && off < 0x38) ||
    (size == 2 && off % 2 == 0 && 0x38 ≤ off && off < 0x40)
def formConfig (off size : Nat) : Bool := sizeOk size && off % size == 0 && off + size ≤ 64

/-- Does a tag's deviation reference satisfy R145? -/
def State.devRefOk (s : State) (t : Tag) : Bool :=
  let r := s.tag t.devRef
  (r.wKind == 3 || (r.wKind == 4 && !r.slotEn)) && r.grove == t.grove

/-- A non-negative binary16 that is no NaN. -/
def half16Ok (v : Nat) : Bool := !fIsNaN f16 v && (!fNeg f16 v || fIsZero f16 v)

/-- Does a tuning write's encoding pass R125? -/
def State.tuneOk (s : State) (t : Tag) (off v : Nat) : Bool :=
  if off == 0x1A then (v &&& almAllowed t.vtype) == v && (!bitOf v 5 || s.devRefOk t)
  else if off < 0x38 then !fIsNaN f32 v
  else half16Ok v

/-- Is a record free of the reserved encodings of R125? -/
def Tag.legal (t : Tag) : Bool :=
  t.vtype < 5 && t.wKind != 7 && t.rawFmt != 3 && (t.rawFmt == 0 || t.vtype == 0) && !bitOf t.mode 7 && !qualReserved t.qual

/-- The order key of a core's Compute write (R136). -/
def State.orderKey (s : State) (c : Nat) : Nat :=
  match (s.core c).task with
  | some i => match s.frame.tasks[i]? with
    | some t => 1 + 64 * t.order + c
    | none => 0
  | none => 0

/-- The changed bit of a tag (R138). -/
def State.markChanged (s : State) (tag : Nat) : State := s.setRt tag { s.rt tag with changed := true }

/-- Does a Compute write with a key apply (R136)? -/
def State.keyPasses (s : State) (tag key : Nat) : Bool :=
  let r := s.rt tag
  (if r.keyFrame == some s.frameNo then r.key else 0) ≤ key

/-- A Compute write's effect under its order key (R126, R127, R136). -/
def State.computeWrite (s : State) (tag key : Nat) (f : State → State) : State :=
  if s.keyPasses tag key then
    let s := f s
    s.setRt tag { s.rt tag with key := key, keyFrame := some s.frameNo, changed := true }
  else s.inc Fd.SE_ORDER_CNT.COUNT

/-- A Compute value write: VALUE converted as though RAW_FMT were 2, TIMESTAMP T(n), the quality given (R120, R125, R127). -/
def State.computeValue (s : State) (tag key v q : Nat) : State :=
  let t := s.tag tag
  s.computeWrite tag key fun s =>
    ((s.wr (tagAddr tag) 8 (convertRaw t.vtype 2 v)).wr (tagAddr tag + 8) 8 s.tickTime).wr (tagAddr tag + 0x18) 1 q

def State.computeQual (s : State) (tag key q : Nat) : State :=
  s.computeWrite tag key fun s => s.wr (tagAddr tag + 0x18) 1 q

/-- Does an admitted value or quality write reach the Tag Store as a Compute write (R92, R93)? -/
def State.inCompute (s : State) (r : Requester) : Bool :=
  match r with
  | .core c => (match s.groveOfCore c.val with
    | some g => (s.grv g).computing
    | none => false)
  | _ => false

/-- An admitted value or quality write: Compute or Gather, and the drop of R132. -/
def State.ownWrite (s : State) (r : Requester) (tag : Nat) (isValue : Bool) (v : Nat) : State :=
  let t := s.tag tag
  match r, s.inCompute r with
  | .core c, true => if isValue then s.computeValue tag (s.orderKey c.val) v 0x02 else s.computeQual tag (s.orderKey c.val) v
  | _, _ =>
    if !t.slotEn then s.gatherDrop
    else if isValue then s.slotValue s.gatherHalf t.slot v s.now 0x02
    else s.slotQual s.gatherHalf t.slot v

/-- What a write to the Tag Store window is (R125). -/
inductive TagWrite where
  | config | value | qual | tune
  | dropped (reason : Nat)
deriving DecidableEq, Repr

/-- May a tag have a W_KIND: in a grove made by CREATE no map entry, subscription or enclave channel is its writer (R280; log 9)? -/
def State.kindOk (s : State) (tag k : Nat) : Bool :=
  match s.groveOfTag tag with
  | some g => !(s.grv g).created || !(k == 1 || k == 2 || k == 5)
  | none => true

/-- The classification of R125. A write whose form and requester are permitted but whose encoding is refused has reason 1 (log 9). -/
def State.classify (s : State) (r : Requester) (tag off size v : Nat) : TagWrite :=
  let t := s.tag tag
  let writer := s.isWriter r t
  let tuner := s.mayTune r t
  let own := formValue t off size || formQual off size
  if s.mayConfigTag r tag then
    let rec' := Tag.of (overlayB (s.rdB (tagAddr tag) 64) off (leBytes size v))
    if formConfig off size && rec'.legal && s.kindOk tag rec'.wKind then .config
    else if own && !writer then .dropped 0
    else if formTune off size && !tuner then .dropped 2
    else .dropped 1
  else if formValue t off size && writer then .value
  else if formQual off size && writer && !qualReserved v then .qual
  else if formTune off size && tuner && s.tuneOk t off v then .tune
  else if own && !writer then .dropped 0
  else if formTune off size && !tuner then .dropped 2
  else if s.isE r && formConfig off size && !own && !formTune off size then .dropped 3
  else .dropped 1

/-- The kind and index of the writer that issued a dropped write, as `SE_CONFLICT_LAST` records them. -/
def State.conflictWho (s : State) (r : Requester) : Nat × Nat :=
  match r with
  | .host => (6, 0)
  | _ => (4, (s.groveOfReq r).getD 0)

/-- A write of `size` bytes at offset `off` of a tag's record (R29, R125). -/
def State.tagWrite (s : State) (r : Requester) (tag off size v : Nat) : State :=
  match s.classify r tag off size v with
  | .config => (s.wr (tagAddr tag + off) size v).markChanged tag
  | .value => s.ownWrite r tag true v
  | .qual => s.ownWrite r tag false v
  | .tune => (s.wr (tagAddr tag + off) size v).markChanged tag
  | .dropped reason => s.tagConflict tag (s.conflictWho r).1 reason (s.conflictWho r).2

/-! ### The fold (R133, R134) -/

/-- Merge one slot of half h into the other half. -/
def State.foldSlot (s : State) (h i : Nat) : State :=
  let o := 1 - h
  let st := s.rd (statusAddr h i) 4
  let so := s.rd (statusAddr o i) 4
  if bits st 7 0 == 0 && !bitOf st 16 then s
  else
    let toc := bits so 7 0
    let qin := if bitOf so 16 then bits so 15 8 else bits st 15 8
    let qset := bitOf so 16 || bitOf st 16
    let s := if toc == 0
      then s.wordPut (slotAddr o i) (s.rdB (slotAddr h i) 16)
      else s.count Fd.SE_SUPERSEDE_CNT.COUNT (bits st 7 0)
    (s.wordPut (statusAddr o i) (leBytes 4 (statusWord (satAdd 8 toc (bits st 7 0)) qin qset))).clearSlot h i

/-- The fold of frame n: the slots of tags whose class is not due. -/
def State.fold (s : State) (tags : List Nat) : State :=
  s.each (tags.filter fun i => (s.tag i).slotEn && !s.due (s.tag i).cls) fun s i => s.foldSlot (s.frameNo % 2) (s.tag i).slot

/-! ### Alarms (R143-R146) -/

/-- The tag's float format, if its VTYPE is a float. -/
def floatOf : Nat → Option FloatFmt
  | 0 => some f32
  | 1 => some f64
  | _ => none

def widen (src : FloatFmt) (dst : FloatFmt) (v : Nat) : Nat := fCvt src dst v

/-- Δt of a class in the tag's precision (R144). -/
def State.classDt (s : State) (f : FloatFmt) (k : Nat) : Nat := fOfRatio f (s.classMult k * s.period) 1000000000

/-- What the evaluation of one alarm kind gives: the new bit, LIMIT, and MEASURE (none where the spec gives no value). -/
structure AlarmOut where
  active  : Bool
  limit   : Nat
  measure : Option Nat

/-- One alarm kind of a swept tag (R143, R144): `was` its bit, `av` the value, `q` the quality after the sweep. Two points are the model's
(DESIGN CHOICE, log 10): a reference of another VTYPE brings its VALUE to the tag's precision by one rounding, or as raw bits when it is
no float; and where a configuration write has left an enable that R120 does not allow, OFFNORM compares any VALUE with P1[15:0], and
the limit, ROC and DEV kinds of a tag that is no float are not active. -/
def State.alarmKind (s : State) (t : Tag) (rt : TagRt) (k : Nat) (was : Bool) (av : Option Nat) (q : Nat) : AlarmOut :=
  let en := bitOf t.almEn k
  let qbad := qclass q == 0
  if k == 7 then ⟨en && qbad, 0, some 0⟩
  else if k == 6 then
    let n := if t.vtype == 2 then t.p1 % 2 else t.p1 % 2 ^ 16
    let act := match av with
      | some v => if qbad then was else v != n
      | none => was
    ⟨en && act, n, some 0⟩
  else match floatOf t.vtype with
    | none => ⟨false, 0, some 0⟩
    | some f =>
      let hyst := widen f16 f t.hyst
      let decide (raise clear : Bool) : Bool := if !en then false else if was then !clear else raise
      if k < 4 then
        let l := widen f32 f (t.lim k)
        let out := widen f32 f64 (t.lim k)
        match av with
        | none => ⟨en && was, out, some 0⟩
        | some v =>
          if qbad then ⟨en && was, out, some 0⟩
          else if k < 2 then ⟨decide (fLe f l v) (fLt f v (fSub f l hyst)), out, some 0⟩
          else ⟨decide (fLe f v l) (fLt f (fAdd f l hyst) v), out, some 0⟩
      else if k == 4 then
        let thr := fMul f (widen f16 f t.roc) (s.classDt f t.cls)
        let out := widen f f64 thr
        match av with
        | none => ⟨en && was, out, none⟩
        | some v =>
          if !rt.prevValid then ⟨en && was, out, none⟩
          else
            let d := fAbs f (fSub f v rt.prev.toNat)
            let m := some (widen f f64 d)
            if qbad then ⟨en && was, out, m⟩ else ⟨decide (fLt f thr d) (fLe f d thr), out, m⟩
      else
        let r := s.tag t.devRef
        let out := widen f16 f64 t.dev
        let dev := widen f16 f t.dev
        match av with
        | none => ⟨en && was, out, none⟩
        | some v =>
          let rv := match floatOf r.vtype with
            | some fr => widen fr f r.value
            | none => r.value
          let d := fAbs f (fSub f v rv)
          let m := some (widen f f64 d)
          if qbad || qclass r.qual == 0 then ⟨en && was, out, m⟩
          else ⟨decide (fLe f dev d) (fLt f d (fSub f dev hyst)), out, m⟩

/-- The 64 bytes of an entry before SEQ and CHECK, which its ring index settles (R146). -/
def alarmBytes (time tick gtag kind event pri grove value limit q vtype measure : Nat) : List Byte :=
  leBytes 8 time ++ leBytes 8 tick ++ leBytes 4 gtag ++ leBytes 1 kind ++ leBytes 1 event ++ leBytes 1 pri ++ leBytes 1 grove ++
    leBytes 8 value ++ leBytes 8 limit ++ leBytes 1 q ++ leBytes 1 vtype ++ leBytes 2 0 ++ leBytes 4 0 ++ leBytes 8 measure ++
    leBytes 8 0

/-- An entry with its ring index and its check word. -/
def sealAlarm (bs : List Byte) (seq : Nat) : List Byte :=
  let b := overlayB bs 0x2C (leBytes 4 seq)
  overlayB b 0x3C (leBytes 4 (crc32c (b.take 0x3C)))

/-! ### Alarm Queues (R147-R149) -/

def State.aqSize (s : State) (g : Nat) : Nat := 2 ^ s.get (Fd.SE_AQ_CFG.LOG2 g)
def State.aqUsed (s : State) (g : Nat) : Nat :=
  (s.get (Fd.SE_AQ_HEAD.HEAD g) + 2 ^ 32 - s.get (Fd.SE_AQ_TAIL.TAIL g)) % 2 ^ 32

/-- An entry is lost (R148). -/
def State.aqLose (s : State) (g : Nat) : State :=
  let s := ((s.inc (Fd.SE_AQ_LOST.COUNT g)).raise (Fd.SE_AQ_STAT.LOSS g)).raise Fd.SE_STAT.AQ_LOSS
  s.modSignal fun x => { x with markers := mapSet 0 x.markers g (mapGet 0 x.markers g + 1) }

/-- An entry enters the alarm write buffer, of 4,096 entries, or is lost (R148); a disabled ring receives nothing. -/
def State.aqEnter (s : State) (g : Nat) (bs : List Byte) : State :=
  if !s.on (Fd.SE_AQ_CFG.EN g) then s
  else
    let n := s.frameNo
    let s := s.modSignal fun x => { x with ringTest := if x.ringTest.contains (g, n) then x.ringTest else x.ringTest ++ [(g, n)] }
    if s.signal.alarmBuf.length ≥ 4096 then s.aqLose g
    else s.modSignal fun x => { x with alarmBuf := x.alarmBuf ++ [{ grove := g, frame := n, bytes := bs }] }

/-- The address of a ring's index. -/
def State.aqAddr (s : State) (g i : Nat) : Nat := s.get (Fd.SE_AQ_BASE.BASE g) * 64 + 64 * (i % s.aqSize g)

/-- One entry written at HEAD, at real-time service class (R148, R391). -/
def State.aqPut (s : State) (g : Nat) (bs : List Byte) : State :=
  let h := s.get (Fd.SE_AQ_HEAD.HEAD g)
  let s := ((s.unitWrite (s.aqAddr g h) (sealAlarm bs h) true).2).set (Fd.SE_AQ_HEAD.HEAD g) (h + 1)
  if bitOf (s.get Fd.PCI_AQ_MIRROR.GROVES) g then s.modSignal fun x => { x with mirrored := true } else s

/-- May the ring be written at an index: in GDDR7 and within the firewall (R27, R28)? -/
def State.aqReach (s : State) (g i : Nat) : Bool :=
  s.aqAddr g i + 64 ≤ gddrSize && s.fwPass g .write (s.aqAddr g i) 64

/-- A refused ring write disables the ring (card "Alarm Queue write refused"). -/
def State.aqRefuse (s : State) (g a : Nat) : State :=
  let s := if a + 64 ≤ gddrSize then s.fwRefuse g .write reqSignal a 64 else s
  ((((s.lower (Fd.SE_AQ_CFG.EN g)).raise (Fd.SE_AQ_STAT.ERR g)).raise Fd.SE_STAT.AQ_ERR)).pulse (s.get Fd.SE_IRQ_SRC.AQ_BASE + g)

/-- An entry leaves the buffer for its ring, with its loss marker when one is due (R148). -/
def State.aqWrite (s : State) (g : Nat) (bs : List Byte) : State :=
  let lost := mapGet 0 s.signal.markers g
  let need := if lost == 0 then 1 else 2
  let h := s.get (Fd.SE_AQ_HEAD.HEAD g)
  if !s.on (Fd.SE_AQ_CFG.EN g) then s
  else if s.aqUsed g + need > s.aqSize g then s.aqLose g
  else if !s.aqReach g h then s.aqRefuse g (s.aqAddr g h)
  else if need == 1 then s.aqPut g bs
  else
    let marker := alarmBytes 0 (fieldB bs 8 8) 0 0xFF 3 0 g 0 lost 0 0 0
    let s := (s.aqPut g marker).modSignal fun x => { x with markers := mapSet 0 x.markers g 0 }
    if s.aqReach g ((h + 1) % 2 ^ 32) then s.aqPut g bs else s.aqRefuse g (s.aqAddr g ((h + 1) % 2 ^ 32))

/-- The threshold test of a ring for the sweep of frame `n`, once that sweep's entries are all written or lost; its doorbell is written
at most once per frame (R149). -/
def State.aqTest (s : State) (g n : Nat) : State :=
  if s.signal.ringTest.contains (g, n) && !s.signal.alarmBuf.any fun e => e.grove == g && e.frame == n then
    let s := s.modSignal fun x => { x with ringTest := x.ringTest.filter (· != (g, n)) }
    let th := s.get (Fd.SE_AQ_CFG.THRESH g)
    if th != 0 && th ≤ s.aqUsed g && mapGet 0 s.signal.bellAt g != s.frameNo + 1 then
      (s.modSignal fun x => { x with bellAt := mapPut x.bellAt g (s.frameNo + 1) }).pulse (s.get Fd.SE_IRQ_SRC.AQ_BASE + g)
    else s
  else s

/-- `SE_AQ_STATg.FULL` follows the indices (R147). -/
def State.aqFull (s : State) (g : Nat) : State := s.set (Fd.SE_AQ_STAT.FULL g) (b2n (s.aqUsed g == s.aqSize g))

/-- PF1 vector 1, once a sweep has ended and its entries are all written, if one went to a mirrored ring (R503). -/
def State.mirrorSignal (s : State) : State :=
  if s.signal.mirrored && s.signal.alarmBuf.isEmpty && s.frame.eTime.isSome then
    (s.modSignal fun x => { x with mirrored := false }).msix 1 1
  else s

/-- The oldest entry of the alarm write buffer drains (R148, R149). While a line it would write is blocked at its home, the entry waits
(R383; log 35). -/
def State.alarmDrain (s : State) : State :=
  match s.signal.alarmBuf with
  | [] => s
  | e :: rest =>
    let h := s.get (Fd.SE_AQ_HEAD.HEAD e.grove)
    if !(s.linesFree (s.aqAddr e.grove h) 64 && s.linesFree (s.aqAddr e.grove ((h + 1) % 2 ^ 32)) 64) then s
    else
      let s := s.modSignal fun x => { x with alarmBuf := rest }
      (((s.fwDrawn e.grove).aqWrite e.grove e.bytes |>.aqTest e.grove e.frame).aqFull e.grove).mirrorSignal

/-! ### The sweep (R138-R142) -/

def State.staleLimit (s : State) (k : Nat) : Nat := bits (s.reg Rg.SE_STALE_LIMIT) (8 * k + 6) (8 * k)

def curveBase : Nat := 0x10_0014_0000

/-- Interpolation on a curve of sixteen points (R139): the value and the quality derived. -/
def curveAt (xs ys : Nat → Nat) (x : Nat) : Nat × Option Nat :=
  if fLt f32 x (xs 0) then (ys 0, some (mkQual 1 4 + 0x40))
  else if fLt f32 (xs 15) x then (ys 15, some (mkQual 1 4 + 0x80))
  else
    let j := (List.range 15).foldl (fun acc j => if fLe f32 (xs j) x then j else acc) 0
    (fAdd f32 (ys j) (fMul f32 (fSub f32 x (xs j)) (fDiv f32 (fSub f32 (ys (j + 1)) (ys j)) (fSub f32 (xs (j + 1)) (xs j)))), none)

/-- Scaling (R139): none when the record's curve is not one that was loaded. -/
def State.scaleValue (s : State) (t : Tag) (x : Nat) : Option (Nat × Option Nat) :=
  if t.vtype != 0 || t.wKind != 1 then some (x, none)
  else match t.scale with
    | 1 => some (fAdd f32 (fMul f32 t.p0 x) t.p1, none)
    | 2 =>
      if t.p0 / 1024 != 0 || s.signal.curveCount ≤ t.p0 % 1024 then none
      else
        let a := curveBase + 128 * (t.p0 % 1024)
        some (curveAt (fun j => s.rd (a + 4 * j) 4) (fun j => s.rd (a + 64 + 4 * j) 4) x)
    | 3 => some (if fLt f32 x t.p1 then 0 else fMul f32 t.p0 (fSqrt f32 x), none)
    | _ => some (x, none)

/-- What the slot of a swept tag gives (R140). -/
structure Taken where
  qd     : Option Nat := none
  qin    : Nat
  v      : Option Nat := none
  ts     : Nat := 0
  raw    : Option Nat := none
  miss   : Nat
  extra  : Nat := 0      -- superseded values

/-- Take the slot of a tag (R140). -/
def State.takeSlot (s : State) (t : Tag) (miss half : Nat) : Taken :=
  let st := s.rd (statusAddr half t.slot) 4
  let count := bits st 7 0
  let qin := if bitOf st 16 then bits st 15 8 else t.qual
  if count > 0 then
    let data := s.rd (slotAddr half t.slot) 8
    let ts := s.rd (slotAddr half t.slot + 8) 8
    let x := convertRaw t.vtype t.rawFmt data
    let base : Taken := { qin := qin, ts := ts, raw := some (data % 2 ^ 32), miss := 0, extra := count - 1 }
    if valueNonFinite t.vtype x then { base with qd := some (mkQual 0 4) }
    else match s.scaleValue t x with
      | none => { base with qd := some (mkQual 0 4) }
      | some (v, qd) =>
        if valueNonFinite t.vtype v then { base with qd := some (mkQual 0 4) } else { base with qd := qd, v := some v }
  else if !bitOf st 16 && (t.wKind == 1 || t.wKind == 2 || t.wKind == 5) then
    let miss := min (miss + 1) 127
    let qd := if miss ≥ s.staleLimit t.cls then some (mkQual 0 2)
      else if qclass t.qual != 0 then some (mkQual 1 1) else none
    { qd := qd, qin := qin, miss := miss }
  else { qin := qin, miss := miss }

/-- Does the deadband keep VALUE (R140)? -/
def inDeadband (t : Tag) (v q : Nat) : Bool :=
  q == t.qual &&
  match floatOf t.vtype with
  | some f => fLe f (fAbs f (fSub f v (t.value % 2 ^ fWidth f))) (widen f16 f t.db)
  | none => false

/-- One alarm kind of a sweep: its bit set or cleared, and its entry when it changes (R143, R146). -/
def State.sweepAlarm (s : State) (i : Nat) (t : Tag) (rt : TagRt) (av : Option Nat) (value ts q : Nat) (acc : Nat) (k : Nat) :
    Nat × State :=
  let was := bitOf t.almSt k
  let o := s.alarmKind t rt k was av q
  let acc := acc + b2n o.active * 2 ^ k
  if o.active == was then (acc, s)
  else
    let (m, s) := match o.measure with
      | some m => (m, s)
      | none => (s.free.toNat, s.drawn)
    (acc, s.aqEnter t.grove (alarmBytes ts s.tickTime (s.cascade.sys.device * 65536 + i) k (if o.active then 1 else 2) t.pri t.grove
      value o.limit q t.vtype m))

/-- Sweep one due tag of a running grove (R140). -/
def State.sweepTag (s : State) (i : Nat) : State :=
  let t := s.tag i
  let rt := s.rt i
  let half := s.frameNo % 2
  let tk : Taken := if t.slotEn then s.takeSlot t rt.miss half else { qin := t.qual, miss := rt.miss }
  let s := if t.slotEn then (s.count Fd.SE_SUPERSEDE_CNT.COUNT tk.extra).clearSlot half t.slot else s
  let q := combineQual tk.qin tk.qd
  let (value, ts) := match tk.v with
    | some v => if inDeadband t v q then (t.value, t.ts) else (v, tk.ts)
    | none => (t.value, t.ts)
  let av := match tk.v with
    | some v => some v
    | none => if t.slotEn then none else some t.value
  let (st, s) := (List.range 8).foldl (fun (p : Nat × State) k => p.2.sweepAlarm i t rt av value ts q p.1 k) (0, s)
  let a := tagAddr i
  let s := ((((s.wr a 8 value).wr (a + 8) 8 ts).wr (a + 0x10) 4 (tk.raw.getD t.raw)).wr (a + 0x18) 1 q).wr (a + 0x1B) 1 st
  s.setRt i { s.rt i with
    miss := tk.miss, changed := false, swept := true
    prev := if av.isSome then BitVec.ofNat 64 value else rt.prev
    prevValid := av.isSome || rt.prevValid }

/-- Is a due tag of a running grove skipped under CHANGED_ONLY (R138)? -/
def State.sweepSkips (s : State) (i : Nat) : Bool :=
  let t := s.tag i
  let rt := s.rt i
  s.on Fd.SE_CTL.CHANGED_ONLY && !t.slotEn && !rt.changed && !bitOf t.almEn 5 && !bitOf t.almSt 4 && rt.swept

/-- Does a due tag occupy its pipe for six clocks (R138)? A poisoned one is skipped (R375). -/
def State.sweepOccupies (s : State) (i : Nat) : Bool :=
  !s.tagPoisoned i && (if s.grunning (s.tag i).grove then !s.sweepSkips i else (s.tag i).slotEn)

/-- The due tags of this frame. -/
def State.dueTags (s : State) (tags : List Nat) : List Nat := tags.filter fun i => s.due (s.tag i).cls

/-- The clocks of a sweep (R138): over the pipes, the greatest of min(6·S + ⌈(N − S)/256⌉, 6·N). -/
def sweepClocks (due occupied : List Nat) : Nat :=
  maxL ((List.range 16).map fun p =>
    let n := (due.filter (· % 16 == p)).length
    let k := (occupied.filter (· % 16 == p)).length
    min (6 * k + ceilDiv (n - k) 256) (6 * n))

/-- The fold and the sweep of the frame that begins (R133, R138): SWEPT_LAST takes its value at the sweep's end. -/
def State.sweep (s : State) : State :=
  let tags := s.usedTags
  let s := s.fold tags
  let s := s.each (s.dueTags tags) fun s i =>
    if !s.sweepOccupies i then s
    else if s.grunning (s.tag i).grove then s.sweepTag i else s.clearSlot (s.frameNo % 2) (s.tag i).slot
  s.each s.signal.ringTest fun s e => s.aqTest e.1 e.2

/-! ### Registers of the Signal Engine (4.11) -/

/-- A write to `SE_AQ_TAILg` (R147). -/
def State.aqTail (s : State) (g v : Nat) : State :=
  let h := s.get (Fd.SE_AQ_HEAD.HEAD g)
  if (h + 2 ^ 32 - v % 2 ^ 32) % 2 ^ 32 ≤ s.aqSize g then (s.set (Fd.SE_AQ_TAIL.TAIL g) v).aqFull g else s

/-- A write to `SE_AQ_CFGg` (R152): one that sets EN is ignored when LOG2 is reserved or the ring of that size at BASE is not aligned or
not in GDDR7; LOG2 with EN 0 is not checked. While the ring is enabled, a write that changes LOG2 is ignored. -/
def State.aqConfig (s : State) (g v : Nat) : State :=
  let log2 := bits v 12 8
  let base := s.get (Fd.SE_AQ_BASE.BASE g) * 64
  let size := 64 * 2 ^ log2
  if s.on (Fd.SE_AQ_CFG.EN g) && log2 != s.get (Fd.SE_AQ_CFG.LOG2 g) then s
  else if bitOf v 0 && (log2 < 6 || 20 < log2 || base % size != 0 || gddrSize < base + size) then s
  else (((s.set (Fd.SE_AQ_CFG.EN g) (bits v 0 0)).set (Fd.SE_AQ_CFG.LOG2 g) log2).set (Fd.SE_AQ_CFG.THRESH g) (bits v 31 16)).aqFull g

/-- A write to `SE_AQ_BASEg`: ignored while the ring is enabled when it changes BASE. -/
def State.aqBase (s : State) (g v : Nat) : State :=
  if s.on (Fd.SE_AQ_CFG.EN g) && bits v 39 6 != s.get (Fd.SE_AQ_BASE.BASE g) then s else s.set (Fd.SE_AQ_BASE.BASE g) (bits v 39 6)

/-- A write to `SE_AQ_STATg`: LOSS takes `SE_AQ_LOSTg` with it. -/
def State.aqStat (s : State) (g v : Nat) : State :=
  let s := if bitOf v 0 then (s.lower (Fd.SE_AQ_STAT.LOSS g)).lower (Fd.SE_AQ_LOST.COUNT g) else s
  if bitOf v 2 then s.lower (Fd.SE_AQ_STAT.ERR g) else s

/-- `SE_CTL.CNT_CLR`. -/
def State.seCntClr (s : State) : State :=
  (((s.lower Fd.SE_CONFLICT_CNT.COUNT).lower Fd.SE_ORDER_CNT.COUNT).lower Fd.SE_SUPERSEDE_CNT.COUNT).lower Fd.SE_GATHER_DROP_CNT.COUNT

end Sys2Proof.Machine
end

