-- ==== Sys2Proof/Machine/Cascade.lean ====
section
/-! DEFINITION. Cascade and the Hawser links (chapter 7): cells and their routing, the link layer, bring-up, system time, splices
and messages. Timestamps, CORR and delays are kept in units of 2^-16 ns (R246). -/

namespace Sys2Proof.Machine

/-! ### Cells (R235-R237) -/

/-- A cell's routing header and class field. -/
def cellHdr (c : List Byte) : Nat := fieldB c 0 8
def cellField (c : List Byte) : Nat := fieldB c 8 8
def setHdr (c : List Byte) (h : Nat) : List Byte := overlayB c 0 (leBytes 8 h)
def hClass (h : Nat) : Nat := bits h 1 0
def hVc (h : Nat) : Nat := bits h 3 2
def hKind (h : Nat) : Nat := bits h 7 4
def hLocal (h : Nat) : Bool := bitOf h 8
def hDest (h : Nat) : Nat := bits h 18 9
def hSrc (h : Nat) : Nat := bits h 28 19
def hHops (h : Nat) : Nat := bits h 33 29
def hFh1 (h : Nat) : Nat := bits h 36 34
def hFh2 (h : Nat) : Nat := bits h 39 37
def hFcount (h : Nat) : Nat := bits h 41 40
def hRev (h : Nat) : Bool := bitOf h 42
def hRdim (h : Nat) : Nat := bits h 44 43

/-- A routing header of VC 0, no hops, no forced hop. -/
def mkHdr (cls kind : Nat) (isLocal : Bool) (dest src : Nat) : Nat :=
  cls + kind * 2 ^ 4 + b2n isLocal * 2 ^ 8 + dest * 2 ^ 9 + src * 2 ^ 19

/-- A 64-byte cell. -/
def mkCell (hdr cf : Nat) (payload : List Byte) : List Byte := leBytes 8 hdr ++ leBytes 8 cf ++ sliceB payload 0 48

/-- Message class fields (R236). -/
def mMtag (f : Nat) : Nat := bits f 11 0
def mGen (f : Nat) : Nat := bits f 15 12
def mExpiry (f : Nat) : Nat := bits f 31 16
def mOp (f : Nat) : Nat := bits f 39 32
def mLen (f : Nat) : Nat := bits f 45 40
def mSgrove (f : Nat) : Nat := bits f 51 46
def mDgrove (f : Nat) : Nat := bits f 57 52
def mStatus (f : Nat) : Nat := bits f 63 58

/-- Is a cell free of reserved classes, kinds and encodings (R235, R236)? -/
def cellLegal (c : List Byte) : Bool :=
  let h := cellHdr c
  let f := cellField c
  c.length == 64 && hVc h != 3 && hRdim h != 3 && hFcount h != 3 && hFh1 h < 6 && hFh2 h < 6 &&
  match hClass h with
  | 0 => hKind h < 3 && hLocal h == (hKind h != 0)
  | 1 => hKind h == 0 && !hLocal h
  | 2 => (hKind h == 0 && (mOp f == 1 || mOp f == 2) || hKind h == 1 && (mOp f == 0x81 || mOp f == 0x82)) && mLen f ≤ 48 && !hLocal h
  | _ => 1 ≤ hKind h && hKind h ≤ 7 && hLocal h

/-! ### Topology and routing (R220-R222, R238-R241) -/

def State.device (s : State) : Nat := s.cascade.sys.device
def coordOf (d dim : Nat) : Nat := if dim == 0 then bits d 9 7 else if dim == 1 then bits d 6 4 else bits d 3 0
def SystemRec.size (y : SystemRec) (dim : Nat) : Nat := if dim == 0 then y.sizeX else if dim == 1 then y.sizeY else y.sizeZ
def SystemRec.single (y : SystemRec) : Bool := y.sizeX == 1 && y.sizeY == 1 && y.sizeZ == 1
/-- Does a device number lie in the system? -/
def SystemRec.holds (y : SystemRec) (d : Nat) : Bool :=
  d < 1024 && (List.range 3).all fun k => coordOf d k < y.size k

/-- The device that R221 places on port p. -/
def State.expected (s : State) (p : Nat) : Nat :=
  let y := s.cascade.sys
  let c (k : Nat) : Nat :=
    let x := coordOf y.device k
    let n := max 1 (y.size k)
    if k == p / 2 then (if p % 2 == 0 then (x + 1) % n else (x + n - 1) % n) else x
  c 0 * 128 + c 1 * 16 + c 2

def State.hwState (s : State) (p : Nat) : Nat := s.get (Fd.CAS_PORT_STAT.STATE p)
def State.hwUp (s : State) (p : Nat) : Bool := s.hwState p == 5

/-- Is a port enabled (R222, R26)? In Safe Hold every port trains (R69, log 15). -/
def State.hwEnabled (s : State) (p : Nat) : Bool :=
  s.on Fd.CFG_STAT.SAFE_HOLD || (s.on (Fd.CAS_PORT_CFG.EN p) && 1 < s.cascade.sys.size (p / 2))

/-- What routing decides of a cell: no route, this device, or a port and the header it leaves with. -/
inductive Route where
  | noRoute
  | here
  | out (p hdr : Nat)
deriving DecidableEq, Repr

/-- The header of a cell that leaves on a port: VC by R239 and one more link crossed. -/
def State.hop (s : State) (h p : Nat) (dimIn : Option Nat) : Route :=
  if 31 < hHops h + 1 then .noRoute
  else
    let dim := p / 2
    let x := coordOf s.device dim
    let wraps := (p % 2 == 0 && x + 1 == s.cascade.sys.size dim) || (p % 2 == 1 && x == 0)
    let vc := if hVc h == 2 then 2
      else if wraps then 1
      else match dimIn with
        | some k => if k == dim then hVc h else 0
        | none => hVc h
    .out p (setBits (setBits h 33 29 (hHops h + 1)) 3 2 vc)

/-- R240 at a port that is not up. -/
def State.detour (s : State) (h d : Nat) : Route :=
  if hVc h == 2 then .noRoute
  else match s.get (Fd.CAS_PORT_CFG.DETOUR d) with
    | 1 =>
      let side := s.get (Fd.CAS_PORT_CFG.SIDE d)
      let opp := if side % 2 == 0 then side + 1 else side - 1
      if s.hwUp side then
        s.hop (setBits (setBits (setBits (setBits h 36 34 d) 39 37 opp) 41 40 2) 3 2 2) side none
      else .noRoute
    | 2 =>
      let opp := if d % 2 == 0 then d + 1 else d - 1
      if s.hwUp opp then s.hop (setBits (setBits (setBits h 42 42 1) 44 43 (d / 2)) 3 2 2) opp none
      else .noRoute
    | _ => .noRoute

/-- The direction of R238 in a dimension. -/
def State.direction (s : State) (h dim : Nat) : Nat :=
  let n := max 1 (s.cascade.sys.size dim)
  let delta := (coordOf (hDest h) dim + n - coordOf s.device dim) % n
  let plus := 2 * delta ≤ n
  2 * dim + (if plus != (hRev h && hRdim h == dim) then 0 else 1)

/-- Route a cell that is not link-local (R238-R241). -/
def State.route (s : State) (h : Nat) (dimIn : Option Nat) : Route :=
  let h := if hRev h && coordOf s.device (hRdim h) == coordOf (hDest h) (hRdim h) then setBits h 42 42 0 else h
  if 0 < hFcount h then
    let d := hFh1 h
    if s.hwUp d then s.hop (setBits (setBits h 36 34 (hFh2 h)) 41 40 (hFcount h - 1)) d dimIn else .noRoute
  else match (List.range 3).find? fun k => coordOf s.device k != coordOf (hDest h) k with
    | none => .here
    | some dim =>
      let d := s.direction h dim
      if s.hwUp d then s.hop h d dimIn else s.detour h d

/-- A cell enters a port's queue of its class and VC. -/
def State.queueCell (s : State) (p : Nat) (c : TxCell) : State :=
  let q := 3 * hClass (cellHdr c.bytes) + hVc (cellHdr c.bytes)
  s.modHawser p fun x => { x with queues := mapSet [] x.queues q (mapGet [] x.queues q ++ [c]) }

/-- A cell without a route is discarded (R241). -/
def State.noRoute (s : State) (n : Nat) : State := if n == 0 then s else s.count Fd.CAS_NOROUTE_CNT.COUNT n

/-! ### Management cells and bring-up (R229-R237) -/

/-- A Management cell is queued; those of a bring-up enter its transcript (R231). -/
def State.sendMgmt (s : State) (p kind cf : Nat) (payload : List Byte) : State :=
  let c := mkCell (mkHdr 3 kind true 0 s.device) cf payload
  (s.queueCell p { bytes := c }).modHawser p fun x =>
    { x with mgmtTx := if kind ≤ 3 then x.mgmtTx ++ c else x.mgmtTx }

/-- This device's HELLO payload (R237). -/
def State.helloPayload (s : State) (p : Nat) : List Byte :=
  let y := s.cascade.sys
  leBytes 2 y.device ++ leBytes 1 y.sizeX ++ leBytes 1 y.sizeY ++ leBytes 1 y.sizeZ ++ leBytes 1 p ++
    leBytes 1 (b2n (s.on Fd.CFG_STAT.SAFE_HOLD) + 2 * s.get Fd.CAS_TIME_STAT.EPOCH) ++ leBytes 1 0 ++
    leBytes 8 y.systemId ++ leBytes 8 (s.get Fd.CAS_PLAN_ID.PLAN_ID) ++ leBytes 4 s.period ++ leBytes 4 s.origin ++
    leBytes 2 (s.get Fd.FRM_CLASS_DIV.DIV1) ++ leBytes 2 (s.get Fd.FRM_CLASS_DIV.DIV2) ++ leBytes 2 (s.get Fd.FRM_CLASS_DIV.DIV3) ++
    leBytes 2 y.taproot ++ leBytes 2 y.standby ++ List.replicate 6 0

def State.sendHello (s : State) (p : Nat) : State :=
  (s.sendMgmt p 1 0 (s.helloPayload p)).modHawser p fun x => { x with helloTx := s.helloPayload p }

/-- The cause of R230 that a received HELLO gives; 0 when it agrees. -/
def State.helloCause (s : State) (p : Nat) (m : List Byte) : Nat :=
  let own := s.helloPayload p
  let same (off n : Nat) : Bool := sliceB m off n == sliceB own off n
  if s.on Fd.CFG_STAT.SAFE_HOLD || bitOf (fieldB m 6 1) 0 then 0x0A
  else if !same 0x08 8 then 0x03
  else if !(same 0x18 4 && same 0x1C 4 && same 0x20 6) then 0x05
  else if !(same 2 3 && same 0x26 4) then 0x06
  else if !same 0x10 8 then 0x04
  else if !(fieldB m 0 2 == s.expected p && fieldB m 5 1 == (if p % 2 == 0 then p + 1 else p - 1)) then 0x07
  else 0

/-- STATE changes; a change to or from 5 reports LINK_CHG (7.10, log 16). -/
def State.setHw (s : State) (p st : Nat) : State :=
  let was := s.hwState p
  let s := s.set (Fd.CAS_PORT_STAT.STATE p) st
  if (was == 5) != (st == 5) then
    ((s.raise (Fd.CAS_PORT_STAT.LINK_CHG p)).raise Fd.CAS_STAT.LINK_CHG).pulse (s.get Fd.CAS_IRQ_SRC.LINK_SRC)
  else s

/-- The credits of cells that leave a port's queues are owed again at the receive queues that held them (R227). -/
def State.releaseHeld (s : State) (cells : List TxCell) : State :=
  s.each cells fun s c => match c.held with
    | some (p, q) => s.modHawser p fun x => { x with owed := mapSet 0 x.owed q (mapGet 0 x.owed q + 1) }
    | none => s

/-- The cells that stand in receive queue `q` of a port: up to 32, as its credits allow (R227). -/
def State.rxQueue (s : State) (p q : Nat) : List TxCell :=
  (List.range 6).flatMap fun o => ((s.hawser o).queues.flatMap (·.2)).filter fun c => c.held == some (p, q)

/-- Bring-up begins (R229, R233): the receive queues of the link begin empty. -/
def State.bringUp (s : State) (p : Nat) : State :=
  let s := s.each (List.range 6) fun s o => s.modHawser o fun x => { x with queues := x.queues.map fun e =>
    (e.1, e.2.map fun c => match c.held with
      | some (r, _) => if r == p then { c with held := none } else c
      | none => c) }
  let x := s.hawser p
  let s := s.setHawser p { began := s.now, mean := x.mean, diag := x.diag, authTimes := x.authTimes }
  (s.inc (Fd.CAS_PORT_BRINGUP_CNT.COUNT p)).setHw p 1

/-- Cells waiting at a port. -/
def HawserSt.waiting (x : HawserSt) : Nat := x.queues.foldl (fun n e => n + e.2.length) 0

/-- A port leaves its bring-up or its link: queued cells are discarded and counted, keys forgotten, bring-up due again after
100 ms (R233, R242; the STATE of the delay: log 17). -/
def State.hwFail (s : State) (p : Nat) : State :=
  let n := (s.hawser p).waiting
  ((((s.releaseHeld ((s.hawser p).queues.flatMap (·.2)))).noRoute n).modHawser p fun x =>
    { x with queues := [], keys := none, ready := false, dreqT1 := none, retry := some (s.now + 100000000) }).setHw p 1

/-- A failure with a cause that is retried. -/
def State.hwFailCause (s : State) (p cause : Nat) : State := (s.set (Fd.CAS_PORT_STAT.CAUSE p) cause).hwFail p

/-- A port is held (card "Port held"). -/
def State.hwHold (s : State) (p cause : Nat) : State :=
  ((s.set (Fd.CAS_PORT_STAT.CAUSE p) cause).setHw p 6).pulse (s.get Fd.CAS_IRQ_SRC.LINK_SRC)

/-- All lanes have lock and deskew: STATE 2 and HELLO (R229). -/
def State.blockLock (s : State) (p : Nat) : State :=
  if s.hwState p == 1 && (s.hawser p).retry.isNone then (s.setHw p 2).sendHello p else s

/-- No lock within 1 ms (R234). -/
def State.blockLockTimeout (s : State) (p : Nat) : State :=
  if s.hwState p == 1 && (s.hawser p).retry.isNone
  then (s.atTime ((s.hawser p).began + 1000000)).hwFailCause p 0x01 else s

/-- The retry delay ends (R233). -/
def State.bringUpRetry (s : State) (p : Nat) : State :=
  match (s.hawser p).retry with
  | some t => (s.atTime t).bringUp p
  | none => s

/-- A held port sends HELLO once per second (R233). -/
def State.heldHello (s : State) (p : Nat) : State := if s.hwState p == 6 then s.sendHello p else s

/-- Loss of lock or alignment (7.10): R234's cause for a bring-up that has not reached STATE 5; in Safe Hold a held port stays
held. -/
def State.hawserDown (s : State) (p : Nat) : State :=
  let st := s.hwState p
  if st == 0 || (s.hawser p).retry.isSome then s
  else if st == 6 && s.on Fd.CFG_STAT.SAFE_HOLD then s
  else if st == 5 then s.hwFail p
  else s.hwFailCause p (if st == 1 then 0x02 else 0x01)

/-- The chunks of CERT and KEYX (R236). -/
def chunksOf (bs : List Byte) : List (List Byte) :=
  (List.range (ceilDiv bs.length 48)).map fun i => sliceB bs (48 * i) 48

def State.sendChunks (s : State) (p kind : Nat) (bs : List Byte) : State :=
  let cs := chunksOf bs
  s.each (List.range cs.length) fun s i => s.sendMgmt p kind (i + cs.length * 2 ^ 16) (sliceB bs (48 * i) 48)

/-- What a KEYX signature covers: nonce, point and the two HELLO payloads, "+" side first (R231). -/
def keyxMessage (keyx plusHello minusHello : List Byte) : List Byte := sliceB keyx 0 129 ++ plusHello ++ minusHello

def HawserSt.hellos (x : HawserSt) (p : Nat) : List Byte × List Byte :=
  let rx := x.helloRx.getD []
  if p % 2 == 0 then (x.helloTx, rx) else (rx, x.helloTx)

/-- CERT and KEYX go out with a new nonce, ephemeral point and signature (R231). -/
def State.sendKeying (s : State) (p : Nat) : State :=
  let x := s.hawser p
  let np := cryptoN 4 129 (leBytes 8 s.freeCnt)
  let (a, b) := x.hellos p
  let keyx := np ++ cryptoN 5 96 (keyxMessage np a b)
  ((s.drawn.sendChunks p 2 s.sec.cert).sendChunks p 3 keyx).modHawser p fun x => { x with keyxTx := keyx }

/-- A received HELLO (R230, R233); the receivers of a port that is off or not locked are ignored (R222). -/
def State.helloIn (s : State) (p : Nat) (c : List Byte) : State :=
  if s.hwState p < 2 then s else
  let m := sliceB c 16 48
  let s := (s.set (Fd.CAS_PORT_STAT.NBR_DEV p) (fieldB m 0 2)).set (Fd.CAS_PORT_STAT.NBR_PORT p) (fieldB m 5 1)
  let cause := s.helloCause p m
  if s.hwState p == 2 then
    let s := s.modHawser p fun x => { x with helloRx := some m, mgmtRx := x.mgmtRx ++ c }
    if cause == 0 then (s.setHw p 3).sendKeying p else s.hwHold p cause
  else if s.hwState p == 6 && cause == 0 && (s.hawser p).retry.isNone then s.bringUp p
  else s

/-- A received CERT or KEYX chunk. -/
def State.chunkIn (s : State) (p : Nat) (keyx : Bool) (c : List Byte) : State :=
  if s.hwState p != 3 then s
  else
    let i := bits (cellField c) 15 0
    s.modHawser p fun x =>
      let x := { x with mgmtRx := x.mgmtRx ++ c }
      if keyx then { x with keyxRx := mapPut x.keyxRx i (sliceB c 16 48) } else { x with certRx := mapPut x.certRx i (sliceB c 16 48) }

/-- The bytes of `n` chunks, when all have arrived. -/
def joinChunks (t : Table (List Byte)) (n : Nat) : Option (List Byte) :=
  if (List.range n).all (fun i => (mapGet? t i).isSome) then some ((List.range n).flatMap fun i => mapGet [] t i) else none

/-- Is the neighbour's certificate valid under the owner key in force (R231, R451)? -/
def State.certOk (s : State) (cert : List Byte) : Bool :=
  match s.ownerIndex with
  | none => false
  | some k => fieldB cert 0 4 == 0x54435748 && fieldB cert 4 2 == 1 && fieldB cert 6 1 == k &&
      Config.signatureValid (s.ownerDigest k) (sliceB cert 0 0xA0) (sliceB cert 0xA0 96)

/-- The 72 bytes of keys and salts of a bring-up (R231): the shared secret is a function of both KEYX messages. -/
def State.linkKeys (s : State) (p : Nat) (own other : List Byte) : List Byte :=
  let y := s.cascade.sys
  let nbr := s.expected p
  let (plus, minus) := if p % 2 == 0 then (own, other) else (other, own)
  let (dp, dm) := if p % 2 == 0 then (y.device, nbr) else (nbr, y.device)
  cryptoN 2 72 (sliceB plus 32 97 ++ sliceB minus 32 97 ++ leBytes 8 y.systemId ++ leBytes 2 dp ++ leBytes 2 dm ++ leBytes 1 (p / 2) ++
    sliceB plus 0 32 ++ sliceB minus 0 32)

/-- The digest a CONFIRM carries: every Management cell of the bring-up, "+" side first (R231). -/
def HawserSt.confirm (x : HawserSt) (p : Nat) : List Byte :=
  cryptoN 3 48 (if p % 2 == 0 then x.mgmtTx ++ x.mgmtRx else x.mgmtRx ++ x.mgmtTx)

/-- Heartwood has verified the neighbour and derived the keys, or fails with cause 0x08 (R229, R231). -/
def State.keysDerived (s : State) (p : Nat) : State :=
  let x := s.hawser p
  match joinChunks x.certRx 6, joinChunks x.keyxRx 5 with
  | some cert, some keyx =>
    if s.hwState p != 3 || x.keys.isSome then s
    else
      let (a, b) := x.hellos p
      if s.certOk cert && Config.signatureValid (sliceB cert 0x20 97) (keyxMessage keyx a b) (sliceB keyx 129 96) then
        let s := s.modHawser p fun x => { x with keys := some (s.linkKeys p x.keyxTx keyx), txSeq := 0, rxSeq := 0 }
        s.sendMgmt p 4 0 (x.confirm p)
      else s.hwHold p 0x08
  | _, _ => s

/-- Key confirmation fails (R231, R233, card "Port held"): cause 0x09, retried after 100 ms. -/
def State.confirmFail (s : State) (p : Nat) : State :=
  (s.hwHold p 0x09).modHawser p fun x => { x with keys := none, retry := some (s.now + 100000000) }

/-- A received CONFIRM (R229, R231). -/
def State.confirmIn (s : State) (p : Nat) (c : List Byte) : State :=
  let x := s.hawser p
  if s.hwState p != 3 || x.keys.isNone then s
  else if sliceB c 16 48 == x.confirm p then s.setHw p 4
  else s.confirmFail p

/-- DIAG_REQ is answered with its payload from STATE 2 on (R234, R236). -/
def State.diagReqIn (s : State) (p : Nat) (c : List Byte) : State :=
  if s.hwState p < 2 then s else s.sendMgmt p 6 (bits (cellField c) 15 0) (sliceB c 16 48)

def State.diagRspIn (s : State) (p : Nat) (c : List Byte) : State := if s.hwState p < 2 then s else s.modHawser p fun x => { x with diag := some (sliceB c 16 48) }

/-- A received CLOSE takes the link down with cause 0x0D (R234); in Safe Hold a held port stays held (7.10). -/
def State.closeIn (s : State) (p : Nat) : State :=
  if s.hwState p < 2 || (s.hwState p == 6 && s.on Fd.CFG_STAT.SAFE_HOLD) then s else s.hwFailCause p 0x0D

/-! ### Link delay and system time (R244-R252) -/

/-- d_in of R247. -/
def State.delayIn (s : State) (p : Nat) : Int :=
  (s.hawser p).mean + quotFree (sext 16 (s.get (Fd.CAS_PORT_CFG.ASYM_PS p)) * 65536) 2000

def State.showDelay (s : State) (p : Nat) : State :=
  s.set (Fd.CAS_PORT_DELAY.DELAY p) (ofInt 28 (quotFree (s.delayIn p) 4096))

/-- DREQ is queued; t1 is recorded when it is sent (R247). -/
def State.dreqOut (s : State) (p : Nat) : State :=
  if s.hwState p != 4 && s.hwState p != 5 then s
  else
    let q := ((s.hawser p).dreqSeq + 1) % 2 ^ 16
    (s.queueCell p { bytes := mkCell (mkHdr 0 1 true 0 s.device) q [] }).modHawser p fun x => { x with dreqSeq := q, dreqT1 := none }

/-- A DREQ is answered; T3 is inserted at transmission (R247). -/
def State.dreqIn (s : State) (p : Nat) (c : List Byte) (rx : Nat) : State :=
  if s.hwState p != 4 && s.hwState p != 5 then s
  else
    let body := leBytes 8 (rx / 65536) ++ leBytes 8 0 ++ leBytes 2 (rx % 65536) ++ leBytes 2 0
    s.queueCell p { bytes := mkCell (mkHdr 0 2 true 0 s.device) (bits (cellField c) 15 0) body, rxT := some rx }

/-- A DRSP gives a delay sample (R247); the sixteenth of a bring-up ends it (R229). -/
def State.drspIn (s : State) (p : Nat) (c : List Byte) (rx : Nat) : State :=
  let x := s.hawser p
  match x.dreqT1 with
  | none => s
  | some t1 =>
    if bits (cellField c) 15 0 != x.dreqSeq then s
    else
      let t2 : Int := (fieldB c 0x10 8 * 65536 + fieldB c 0x20 2 : Nat)
      let t3 : Int := (fieldB c 0x18 8 * 65536 + fieldB c 0x22 2 : Nat)
      let m := quotFree (((rx : Int) - t1) - (t3 - t2)) 2
      if s.hwState p == 5 then
        (s.modHawser p fun x => { x with dreqT1 := none, mean := x.mean + quotFree (m - x.mean) 16 }).showDelay p
      else if s.hwState p == 4 then
        let l := x.samples ++ [m]
        if l.length < 16 then s.modHawser p fun x => { x with dreqT1 := none, samples := l }
        else (s.modHawser p fun x =>
          { x with dreqT1 := none, samples := [], mean := quotFree (l.foldl (· + ·) 0) 16, ready := true }).showDelay p
      else s

/-- No DRSP within 10 ms (R234). -/
def State.delayTimeout (s : State) (p : Nat) : State :=
  match (s.hawser p).dreqT1 with
  | some t1 => if s.hwState p == 4 then (s.atTime (t1 / 65536 + 10000000)).hwFailCause p 0x0C else s
  | none => s

def State.role (s : State) : Nat := s.get Fd.CAS_TIME_STAT.ROLE
def State.epoch (s : State) : Nat := s.get Fd.CAS_TIME_STAT.EPOCH

/-- A BEAT goes out on every port that is up but one; the residence is added when it is sent (R246). -/
def State.floodBeat (s : State) (from? : Option Nat) (c : List Byte) (rx : Nat) : State :=
  if 31 < hHops (cellHdr c) + 1 then s.noRoute 1
  else
    let c := setHdr c (setBits (cellHdr c) 33 29 (hHops (cellHdr c) + 1))
    s.each ((List.range 6).filter fun q => s.hwUp q && from? != some q) fun s q => s.queueCell q { bytes := c, rxT := some rx }

/-- The BEAT of tick index m from this device, whose instant is t (R244). -/
def State.sendBeat (s : State) (m t : Nat) : State :=
  let c := mkCell (mkHdr 0 0 false 0 s.device) (m % 2 ^ 32 + s.epoch * 2 ^ 32) (leBytes 8 t ++ leBytes 8 0)
  (s.floodBeat none c (t * 65536)).modCas fun x => { x with seen := (m, s.epoch) :: x.seen }

/-- The full tick index of a BEAT: that of its ORIGIN, nearest to which the 32 bits of TICK are extended (R244). -/
def State.beatIndex (s : State) (origin low : Nat) : Nat :=
  let i := s.tickIndex origin
  ((i : Int) + sext 32 (low + 2 ^ 32 - i % 2 ^ 32)).toNat

/-- The counter steps by −`o`, in 2^-16 ns (R79, R248): the receive timestamp becomes ORIGIN + CORR, and the timestamps of cells and
exchanges that wait move with the counter. -/
def State.stepTime (s : State) (o : Int) : State :=
  let move (t : Nat) : Nat := ((t : Int) - o).toNat
  let s := s.setTime ((s.now : Int) - quotFree o 65536).toNat
  s.each (List.range 6) fun s p => s.modHawser p fun x => { x with
    dreqT1 := x.dreqT1.map move
    queues := x.queues.map fun e => (e.1, e.2.map fun c => { c with rxT := c.rxT.map move }) }

/-- A quotient of integers whose divisor is not 0, rounded as the hardware may (log 12). -/
def quotInt (n d : Int) : Int := if 0 < d then quotFree n d.toNat else quotFree (-n) (-d).toNat

/-- The steering of R248 on a BEAT: `r` its receive timestamp, `a` the Taproot's time at receipt. With a equal to the last a the formula
divides by 0: the change is free (log 5). A Taproot whose first Sync has stepped the counter and that then follows without having
acquired is stepped by its first BEAT as well: R79 has one step, R248 the other (DESIGN CHOICE, log 72). -/
def State.steer (s : State) (r a : Int) : State :=
  let o := r - a
  let s := (s.set Fd.CAS_TIME_OFS.OFS (satInt 32 (quotFree o 4096))).set Fd.TIME_STAT.SOURCE 1
  let good := o.natAbs ≤ 4 * 65536
  let n := if good then min 16 (s.cascade.goodRun + 1) else 0
  match s.cascade.prevBeat with
  | none =>
    if s.on Fd.TIME_STAT.ACQUIRED then s.modCas fun x => { x with prevBeat := some (r, a), goodRun := n }
    else (s.stepTime o).modCas fun x => { x with prevBeat := some (a, a), goodRun := n }
  | some (rp, ap) =>
    let da := a - ap
    let p16 : Int := 16 * ((s.period * 65536 : Nat) : Int)
    let num := -(1000000000 * ((r - rp) - da) * p16) - 1000000000 * o * da
    let rate := sext 32 (s.get Fd.TIME_RATE.PPB)
    let change := if da != 0 then quotInt num (da * p16) else sext 32 s.free.toNat
    let s := if da != 0 then s else s.drawn
    let x := rate + change
    let x := if x > 100000 then 100000 else if x < -100000 then -100000 else x
    let s := s.set Fd.TIME_RATE.PPB (ofInt 32 x)
    let s := s.set Fd.CAS_TIME_STAT.LOCKED (b2n (n == 16))
    let s := s.modCas fun x => { x with prevBeat := some (r, a), goodRun := n }
    s.iff (n == 16) (·.raise Fd.TIME_STAT.ACQUIRED)

/-- This device becomes a follower (R251, R252). -/
def State.becomeFollower (s : State) (demoted : Bool) : State :=
  ((s.set Fd.CAS_TIME_STAT.ROLE 0).setIf demoted Fd.CAS_TIME_STAT.DEMOTED 1).modCas fun x => { x with sending := false }

/-- Is a BEAT accepted: the first of its tick index and epoch, of no lower epoch than one accepted (R246)? -/
def State.beatFresh (s : State) (m e : Nat) : Bool := s.cascade.epochSeen ≤ e && !s.cascade.seen.any (· == (m, e))

/-- A received BEAT (R246, R248, R250, R251). -/
def State.beatIn (s : State) (p : Nat) (c : List Byte) (rx : Nat) : State :=
  let e := bits (cellField c) 32 32
  let m := s.beatIndex (fieldB c 0x10 8) (bits (cellField c) 31 0)
  if !s.hwUp p || !s.beatFresh m e then s
  else
    let corr := sext 64 (fieldB c 0x18 8) + s.delayIn p
    let c := overlayB c 0x18 (leBytes 8 (ofInt 64 corr))
    let s := s.floodBeat (some p) c rx
    let s := s.modCas fun x => { x with seen := (m, e) :: x.seen, epochSeen := e, missArmed := false }
    let s := s.iff (s.cascade.sending && s.epoch < e) (·.becomeFollower true)
    let s := (s.set Fd.CAS_TIME_STAT.SOURCE_DEV (hSrc (cellHdr c))).lower Fd.CAS_TIME_STAT.MISSES
    if s.role == 1 then s
    else ((s.set Fd.CAS_TIME_STAT.EPOCH e).lower Fd.TIME_STAT.HOLDOVER).steer rx (fieldB c 0x10 8 * 65536 + corr)

/-- A BEAT that has not been accepted by T(m) + BEAT_WIN (R250). Misses count once a first BEAT has been accepted (log 18). -/
def State.beatMiss (s : State) : State :=
  let m := s.tickIndex s.now
  if s.role == 1 || s.cascade.seen.isEmpty || s.cascade.seen.any (·.1 == m) || s.cascade.missTick == some m then s
  else
    let s := s.atTime (s.origin + m * s.period + s.get Fd.CAS_TIME_CFG.BEAT_WIN_NS)
    let n := min 3 (s.get Fd.CAS_TIME_STAT.MISSES + 1)
    let s := (s.set Fd.CAS_TIME_STAT.MISSES n).modCas fun x => { x with missTick := some m }
    if n < 3 then s
    else
      let s := s.modCas fun x => { x with missArmed := s.role == 2 }
      if s.on Fd.TIME_STAT.HOLDOVER then s
      else ((s.raise Fd.TIME_STAT.HOLDOVER).raise Fd.CAS_STAT.TIME_LOSS).pulse (s.get Fd.CAS_IRQ_SRC.TIME_SRC)

/-- The standby becomes Taproot of epoch 1 (R251, R252); it keeps the time it has, without a step (R245), and `TIME_RATE` its value, "as
steered until then", SOURCE 0 beside R79's zero steering (DESIGN CHOICE, log 72). -/
def State.timeTakeover (s : State) : State :=
  let s := (s.set Fd.CAS_TIME_STAT.ROLE 1).set Fd.CAS_TIME_STAT.EPOCH 1
  let s := (s.set Fd.TIME_STAT.SOURCE (if s.on Fd.FP_TIME_CFG.AS_SOURCE then 2 else 0)).raise Fd.TIME_STAT.ACQUIRED
  (s.modCas fun x => { x with sending := true, epochSeen := 1, missArmed := false }).modField fun f => { f with stepped := true }

/-- A standby without a BEAT since start (R252). -/
def State.startupWait (s : State) : State :=
  if s.role == 2 && s.cascade.seen.isEmpty && s.on Fd.CFG_STAT.DONE
  then (s.atTime (s.cascade.startedAt + s.get Fd.CAS_TIME_CFG.STARTUP_WAIT_S * 1000000000)).timeTakeover else s

/-- One second after start the Taproot begins to send, or follows (R252). -/
def State.taprootStart (s : State) : State :=
  if !s.cascade.startHold then s
  else
    let s := (s.atTime (s.cascade.startedAt + 1000000000)).modCas fun x => { x with startHold := false }
    if s.cascade.epochSeen == 1 then s.becomeFollower false else s.modCas fun x => { x with sending := true }

/-- What a tick does for the links and the time: measured ports come up, an armed standby takes over, a Taproot that has acquired
sends its BEAT (R229, R232, R244, R251). -/
def State.cascadeTick (s : State) (m t : Nat) : State :=
  let s := s.each ((List.range 6).filter fun p => (s.hawser p).ready) fun s p =>
    (s.modHawser p fun x => { x with ready := false }).setHw p 5
  let s := s.iff s.cascade.missArmed (·.timeTakeover)
  s.iff (s.cascade.sending && s.on Fd.TIME_STAT.ACQUIRED) (·.sendBeat m t)

/-! ### Link frames (R224-R228) -/

/-- Key and salt of a direction: from the "+" side or from the "−" side (R231). -/
def linkKey (ks : List Byte) (fromPlus : Bool) : List Byte := if fromPlus then sliceB ks 0 32 else sliceB ks 32 32
def linkSalt (ks : List Byte) (fromPlus : Bool) : List Byte := if fromPlus then sliceB ks 64 4 else sliceB ks 68 4

/-- The start block: type byte, LSEQ, CQ, CN (R224). -/
def startBlock (seq cq cn : Nat) : List Byte := leBytes 1 0xB3 ++ leBytes 7 (seq % 2 ^ 48 + cq * 2 ^ 48 + cn * 2 ^ 52)

/-- The classes that may cross in a STATE (R229, R230). -/
def classCrosses (st cls : Nat) : Bool :=
  if cls == 3 then 2 ≤ st else if cls == 0 then st == 4 || st == 5 else st == 5

/-- May queue q send: a cell waits and a credit is held (R227)? -/
def State.mayTx (s : State) (p q : Nat) : Bool :=
  let x := s.hawser p
  classCrosses (s.hwState p) (q / 3) && !(mapGet [] x.queues q).isEmpty && mapGet 0 x.spent q < 32

/-- The queue that sends next (R228): a Management cell at least once in 1,024 link frames, otherwise strict class order and
round-robin among the VCs of a class. -/
def State.nextQueue (s : State) (p : Nat) : Option Nat :=
  let x := s.hawser p
  let inClass (k : Nat) : Option Nat :=
    ((List.range 3).map fun i => 3 * k + (mapGet 0 x.turn k + i) % 3).find? (s.mayTx p)
  if 1023 ≤ x.sinceMgmt && (inClass 3).isSome then inClass 3
  else ((List.range 4).find? fun k => (inClass k).isSome).bind inClass

/-- The queue whose credit is returned next: which of those owed is the transmitter's choice (log 5). -/
def State.creditOut (s : State) (p : Nat) : Nat × Nat :=
  let l := (s.hawser p).owed
  match l[s.free.toNat % max 1 l.length]? with
  | some (q, n) => (q, min n 15)
  | none => (0, 0)

/-- What transmission inserts in a Time cell: T3 of a DRSP, the residence of a BEAT (R246, R247). -/
def stampCell (c : TxCell) (t : Nat) : List Byte :=
  let h := cellHdr c.bytes
  if hClass h == 0 && hKind h == 2 then overlayB (overlayB c.bytes 0x18 (leBytes 8 (t / 65536))) 0x22 (leBytes 2 (t % 65536))
  else if hClass h == 0 && hKind h == 0 then
    match c.rxT with
    | some rx => overlayB c.bytes 0x18 (leBytes 8 (ofInt 64 (sext 64 (fieldB c.bytes 0x18 8) + ((t : Int) - rx))))
    | none => c.bytes
  else c.bytes

/-- The blocks of a link frame that carries a cell: encrypted once keyed, otherwise with its CRC (R224, R225). -/
def HawserSt.blocks (x : HawserSt) (p : Nat) (head cell : List Byte) (seq : Nat) : List Byte :=
  match x.keys with
  | some ks =>
    let plus := p % 2 == 0
    head ++ sliceB (Config.gcmSeal (linkKey ks plus) (linkSalt ks plus ++ leBytes 8 seq) head cell) 0 80
  | none => head ++ cell ++ leBytes 4 (crc32c (head ++ cell)) ++ List.replicate 12 0

/-- Record a frame as sent; before keying its LSEQ is not stated (log 5). -/
def State.emitFrame (s : State) (p cq cn : Nat) (cell : Option TxCell) : State :=
  let x := s.hawser p
  let t := s.now * 65536 + bits s.free.toNat 47 32
  let seq := if x.keys.isSome then x.txSeq + 1 else bits s.free.toNat 31 0
  let head := startBlock seq cq cn
  let owed := mapSet 0 x.owed cq (mapGet 0 x.owed cq - cn)
  match cell with
  | none =>
    (s.drawn.setHawser p { x with owed := owed }).modCas fun y =>
      { y with sent := { port := p, at_ := t, bytes := startBlock x.txSeq cq cn, cell := none } :: y.sent }
  | some c =>
    let bs := stampCell c t
    let isDreq := hClass (cellHdr bs) == 0 && hKind (cellHdr bs) == 1
    (s.drawn.setHawser p { x with
        owed := owed
        txSeq := if x.keys.isSome then x.txSeq + 1 else x.txSeq
        sinceMgmt := if hClass (cellHdr bs) == 3 then 0 else x.sinceMgmt + 1
        dreqT1 := if isDreq then some t else x.dreqT1 }).modCas fun y =>
      { y with sent := { port := p, at_ := t, bytes := x.blocks p head bs seq, cell := some bs } :: y.sent }

/-- The transmitter of a port sends its next cell, or a start block that returns credits when it has none to send. -/
def State.linkTransmit (s : State) (p : Nat) : State :=
  if s.hwState p < 2 then s
  else
    let x := s.hawser p
    let (cq, cn) := s.creditOut p
    match s.nextQueue p with
    | none => if x.owed.isEmpty then s else s.emitFrame p cq cn none
    | some q =>
      match mapGet [] x.queues q with
      | [] => s
      | c :: rest =>
        let s := s.setHawser p { x with
          queues := mapSet [] x.queues q rest
          spent := mapSet 0 x.spent q (mapGet 0 x.spent q + 1)
          turn := mapSet 0 x.turn (q / 3) ((q % 3 + 1) % 3) }
        (s.emitFrame p cq cn (some c)).releaseHeld [c]

/-- Extend LSEQ to 64 bits (R226). -/
def extendSeq (last low : Nat) : Nat :=
  let up := last / 2 ^ 48
  let up := if 2 ^ 47 < last % 2 ^ 48 - low then up + 1 else up
  up * 2 ^ 48 + low

def State.gap (s : State) (p n : Nat) : State := if n == 0 then s else s.count (Fd.CAS_PORT_GAP_CNT.COUNT p) n

/-- An authentication failure (7.10): the 16th within any 1 s closes the link. CLOSE is sent while a credit of its queue is held
(R227). -/
def State.authFail (s : State) (p : Nat) : State :=
  let ts := s.now :: ((s.hawser p).authTimes.filter fun t => s.now < t + 1000000000)
  let s := ((s.inc (Fd.CAS_PORT_AUTH_FAIL_CNT.COUNT p)).raise Fd.CAS_STAT.AUTH).modHawser p fun x => { x with authTimes := ts }
  if ts.length < 16 then s
  else
    let close := mkCell (mkHdr 3 7 true 0 s.device) 0 (leBytes 1 0x0B)
    let credit : Bool := mapGet 0 (s.hawser p).spent 9 < 32
    let s := (s.iff credit (·.emitFrame p 0 0 (some { bytes := close }))).audit 0x0040 p (s.get (Fd.CAS_PORT_STAT.NBR_DEV p))
    (s.modHawser p fun x => { x with authTimes := [] }).hwFailCause p 0x0B

/-- Credits that a start block returns (R227). -/
def State.takeCredits (s : State) (p w : Nat) : State :=
  let q := bits w 51 48
  s.modHawser p fun x => { x with spent := mapSet 0 x.spent q (mapGet 0 x.spent q - bits w 55 52) }

/-- The receive queue of a cell. -/
def rxQueueNo (c : List Byte) : Nat := 3 * hClass (cellHdr c) + hVc (cellHdr c)

/-- A cell leaves its receive queue: its credit is owed (R227). -/
def State.cellTaken (s : State) (p : Nat) (c : List Byte) : State :=
  if hVc (cellHdr c) == 3 then s else s.releaseHeld [{ bytes := c, held := some (p, rxQueueNo c) }]

/-- Authenticate a received link frame (R225-R227): the cell, if one is accepted, and the state after it. -/
def State.linkAccept (s : State) (p : Nat) (f : LinkFrame) : Option (List Byte) × State :=
  let x := s.hawser p
  let w := fieldB f.bytes 1 7
  if s.hwState p == 0 then (none, s)
  else if f.codeError then (none, s.gap p 1)
  else if f.bytes.length == 8 then (none, s.takeCredits p w)
  else match x.keys with
    | none =>
      let body := sliceB f.bytes 0 72
      if sliceB f.bytes 72 16 == leBytes 4 (crc32c body) ++ List.replicate 12 0 then
        let c := sliceB f.bytes 8 64
        (some c, s.takeCredits p w)
      else (none, s.gap p 1)
    | some ks =>
      let seq := extendSeq x.rxSeq (bits w 47 0)
      let plus := p % 2 == 1
      match Config.gcmOpen (linkKey ks plus) (linkSalt ks plus ++ leBytes 8 seq) (sliceB f.bytes 0 8) (sliceB f.bytes 8 64) (sliceB f.bytes 72 16) with
      | none =>
        -- the first cell under the new keys is the CONFIRM (R231; log 73)
        let s := (s.gap p 1).authFail p
        (none, s.iff (s.hwState p == 3) (·.confirmFail p))
      | some c =>
        if seq ≤ x.rxSeq then (none, s.authFail p)
        else
          let s := s.gap p (seq - x.rxSeq - 1)
          let c := sliceB c 0 64
          (some c, (s.modHawser p fun x => { x with rxSeq := seq }).takeCredits p w)

/-! ### Splices (R253-R257, R266) -/

def recSplice (r : List Byte) : Nat := fieldB r 2 2
def recDev (r : List Byte) : Nat := fieldB r 4 2
def recPos (r : List Byte) : Nat := fieldB r 6 2
def recTag (r : List Byte) : Nat := fieldB r 8 2
def recClass (r : List Byte) : Nat := fieldB r 1 1

/-- The publish records of a splice cell, grouped in record order. -/
def cellGroups : List (List Byte) → List (List (List Byte))
  | [] => []
  | r :: rs =>
    match cellGroups rs with
    | (r' :: g) :: gs =>
      if recSplice r == recSplice r' && recPos r / 3 == recPos r' / 3 then (r :: r' :: g) :: gs else [r] :: (r' :: g) :: gs
    | gs => [r] :: gs

/-- The DATA cell of a group, read from the Tag Store now (R236, R254). A grove that has taken over publishes as its partner (R297). -/
def State.dataCell (s : State) (src : Nat) (rs : List (List Byte)) : List Byte :=
  match rs with
  | [] => []
  | r :: _ =>
    let t (k : Nat) : Option Tag := (rs.find? fun x => recPos x % 3 == k).map fun x => s.tag (recTag x)
    let q (k : Nat) : Nat := match t k with | some x => x.qual | none => 0
    let body (k : Nat) : List Byte := match t k with
      | some x => leBytes 8 x.value ++ leBytes 8 x.ts
      | none => List.replicate 16 0
    mkCell (mkHdr 1 0 false (recDev r) src)
      (recSplice r + recPos r / 3 * 2 ^ 12 + s.frame.m % 2 ^ 16 * 2 ^ 24 + q 0 * 2 ^ 40 + q 1 * 2 ^ 48 + q 2 * 2 ^ 56)
      (body 0 ++ body 1 ++ body 2)

/-- Send a cell this device originates, unless it has no route. -/
def State.originate (s : State) (c : List Byte) (pub : Option (Nat × Nat)) : State :=
  match s.route (cellHdr c) none with
  | .out p h => s.queueCell p { bytes := setHdr c h, pub := pub }
  | .here => s
  | .noRoute => s.noRoute 1

/-- The splice staging of a grove's commit (R254, R257). -/
def State.stageSplices (s : State) (g : Nat) : State :=
  let src := if s.on (Fd.GRV_STAT.TAKEN g) then (s.grv g).cfg.partner else s.device
  let mine := s.cascade.publish.filter fun r => s.groveOfTag (recTag r) == some g && s.due (recClass r)
  s.each (cellGroups mine) fun s rs => s.originate (s.dataCell src rs) (some (g, s.frameNo))

/-- The cells of a frame that a grove staged and no port has sent are withdrawn (R105). -/
def State.withdraw (s : State) (g n : Nat) : State :=
  s.each (List.range 6) fun s p => s.modHawser p fun x => { x with
    queues := (x.queues.map fun e => (e.1, e.2.filter fun c => c.pub != some (g, n))).filter fun e => !e.2.isEmpty }

/-- A slot write that arrives too late (R256). -/
def State.replLate (s : State) : State :=
  let was := s.on Fd.CAS_STAT.REPL_LATE
  let s := (s.inc Fd.CAS_REPL_LATE_CNT.COUNT).raise Fd.CAS_STAT.REPL_LATE
  if was then s else s.pulse (s.get Fd.CAS_IRQ_SRC.LINK_SRC)

/-- One slot of a DATA cell (R255, R256). -/
def State.dataSlot (s : State) (c : List Byte) (k : Nat) : State :=
  let h := cellHdr c
  let f := cellField c
  let pos := 3 * bits f 23 12 + k
  match s.cascade.subscribe.findIdx? fun r => recDev r == hSrc h && recSplice r == bits f 11 0 && recPos r == pos with
  | none => s.inc Fd.CAS_REPL_UNMATCHED_CNT.COUNT
  | some i =>
    let r := (s.cascade.subscribe[i]?).getD []
    if s.tickIndex s.now % 2 ^ 16 != bits f 39 24 then s.replLate
    else s.gather (.subscription (Fin.ofNat _ i)) (recTag r) (.value (BitVec.ofNat 64 (fieldB c (16 + 16 * k) 8)) (BitVec.ofNat 64 (fieldB c (24 + 16 * k) 8))
      (BitVec.ofNat 8 (bits f (47 + 8 * k) (40 + 8 * k))))

/-- A DATA cell at its destination. -/
def State.dataIn (s : State) (c : List Byte) : State := s.each (List.range 3) fun s k => s.dataSlot c k

/-! ### Messages (R259-R265) -/

/-- The message doorbell of a grove (R265). -/
def State.msgBell (s : State) (g : Nat) : State :=
  let b := mapGet {} s.cascade.bells g
  let put (s : State) (b : MsgBell) : State := s.modCas fun x => { x with bells := mapSet {} x.bells g b }
  match b.last with
  | some t => if s.now < t + 10000 then put s { b with deferred := true }
      else (put s { last := some s.now }).pulse (s.get Fd.CAS_MQ_SRC.MQ_BASE + g)
  | none => (put s { last := some s.now }).pulse (s.get Fd.CAS_MQ_SRC.MQ_BASE + g)

/-- The 10 µs of R265 end. -/
def State.msgBellEnd (s : State) (g : Nat) : State :=
  let b := mapGet {} s.cascade.bells g
  match b.last, b.deferred with
  | some t, true =>
    let s := s.atTime (t + 10000)
    (s.modCas fun x => { x with bells := mapSet {} x.bells g { last := some s.now } }).pulse (s.get Fd.CAS_MQ_SRC.MQ_BASE + g)
  | _, _ => s

/-- A ring access is refused: the ring is disabled (card "Message ring access refused"). -/
def State.ringRefuse (s : State) (g : Nat) (tx : Bool) : State :=
  ((s.lower (if tx then Fd.CAS_MQ_CFG.TX_EN g else Fd.CAS_MQ_CFG.RX_EN g)).raise (Fd.CAS_MQ_STAT.ERR g)).msgBell g

/-- May the Hawser unit make a ring access (R28, R259)? -/
def State.ringAccess (s : State) (g : Nat) (k : FwKind) (a n : Nat) : Bool × State :=
  if a + n ≤ gddrSize && (s.grv g).cfg.holds a n then s.fwCheck g k reqHawser a n else (false, s)

/-- A ring write of the Hawser unit, at the home of its line (R391). -/
def State.ringWrite (s : State) (a : Nat) (bs : List Byte) : State := s.homeWrite hawserReq a bs

def State.txEntry (s : State) (g i : Nat) : Nat :=
  s.get (Fd.CAS_MQ_TXBASE.BASE g) * 64 + i % 2 ^ s.get (Fd.CAS_MQ_CFG.TX_LOG2 g) * 64
def State.rxEntry (s : State) (g i : Nat) : Nat :=
  s.get (Fd.CAS_MQ_RXBASE.BASE g) * 64 + i % 2 ^ s.get (Fd.CAS_MQ_CFG.RX_LOG2 g) * 64

def State.txDone (s : State) (g : Nat) : Nat := s.get (Fd.CAS_MQ_TXDONE.DONE g)

/-- Move TXDONE over the descriptors that have completed in order. -/
def advanceDone (l : List Nat) : Nat → Nat → Nat
  | 0, i => i
  | k + 1, i => if l.contains i then advanceDone l k ((i + 1) % 2 ^ 32) else i

/-- A descriptor completes with a STATUS (R259, R264, R265). -/
def State.descDone (s : State) (g i status : Nat) : State :=
  let a := s.txEntry g i + 5
  let (ok, s) := s.ringAccess g .write a 1
  let s := if ok then s.ringWrite a (leBytes 1 status) else s.ringRefuse g true
  let l := i :: mapGet [] s.cascade.completed g
  let d := advanceDone l l.length (s.txDone g)
  let rest := l.filter fun j => (j + 2 ^ 32 - s.txDone g) % 2 ^ 32 ≥ (d + 2 ^ 32 - s.txDone g) % 2 ^ 32
  ((s.set (Fd.CAS_MQ_TXDONE.DONE g) d).modCas fun x => { x with completed := mapSet [] x.completed g rest }).msgBell g

def State.mtag (s : State) (t : Nat) : MTag := mapGet {} s.cascade.mtags t

/-- The counts of open tags that follow the tags. -/
def State.showTags (s : State) (g : Nat) : State :=
  let l := s.cascade.mtags.filter fun e => e.2.isOpen
  (s.set Fd.CAS_MTAG_OPEN.COUNT l.length).set (Fd.CAS_MQ_STAT.OPEN g) (l.filter fun e => e.2.grove == g).length

def State.setMtag (s : State) (t : Nat) (x : MTag) : State :=
  (s.modCas fun c => { c with mtags := mapSet {} c.mtags t x }).showTags x.grove

/-- A tag closes and its GEN rises (R260). -/
def State.closeTag (s : State) (t : Nat) : State :=
  let x := s.mtag t
  (s.setMtag t { gen := (x.gen + 1) % 16, grove := x.grove }).transDone hawserReq

/-- A free message tag for a grove (R260): which of the free ones is not stated (log 5). -/
def State.freeTag (s : State) (g : Nat) : Option Nat :=
  if 64 ≤ (s.cascade.mtags.filter fun e => e.2.isOpen && e.2.grove == g).length then none
  else
    let k := s.free.toNat % 4096
    ((List.range 4096).map fun i => (k + i) % 4096).find? fun t => !(s.mtag t).isOpen

/-- A tag opens (R260): EXPIRY is j + 3, T(j) the last tick at or before now. -/
def State.openTag (s : State) (t g : Nat) (desc : Option Nat) : State :=
  s.setMtag t { isOpen := true, gen := (s.mtag t).gen, grove := g, desc := desc, expiry := s.tickIndex s.now + 3 }

/-- Has a Message cell expired (R261)? -/
def State.msgExpired (s : State) (c : List Byte) : Bool :=
  (s.tickIndex s.now % 2 ^ 16 + 2 ^ 16 - mExpiry (cellField c)) % 2 ^ 16 < 2 ^ 15

/-- A request reaches the receive ring of its grove (R263, R264): the STATUS, and the state after it. -/
def State.reqRing (s : State) (c : List Byte) : Nat × State :=
  let f := cellField c
  let g := mDgrove f
  if s.gstate g == stAbsent || s.gstate g == stDraining || s.gstate g == stClearing || !s.on (Fd.CAS_MQ_CFG.RX_EN g) then (2, s)
  else
    let head := s.get (Fd.CAS_MQ_RXHEAD.HEAD g)
    if (head + 2 ^ 32 - s.get (Fd.CAS_MQ_RXTAIL.TAIL g)) % 2 ^ 32 == 2 ^ s.get (Fd.CAS_MQ_CFG.RX_LOG2 g) then
      (1, s.raise (Fd.CAS_MQ_STAT.RX_FULL g))
    else
      let a := s.rxEntry g head
      let (ok, s) := s.ringAccess g .write a 64
      if !ok then (2, s.ringRefuse g false)
      else
        let e := leBytes 2 (hSrc (cellHdr c)) ++ leBytes 1 (mSgrove f) ++ leBytes 1 (mLen f) ++ leBytes 4 0 ++ leBytes 8 s.now ++
          sliceB c 16 48
        (0, ((s.ringWrite a e).set (Fd.CAS_MQ_RXHEAD.HEAD g) (head + 1)).msgBell g)

/-- The response to a request (R236). -/
def State.rspCell (s : State) (c : List Byte) (status : Nat) : List Byte :=
  let f := cellField c
  mkCell (mkHdr 2 1 false (hSrc (cellHdr c)) s.device) (setBits (setBits f 39 32 (mOp f + 0x80)) 63 58 status) []

/-- A paired grove's end cell is acknowledged (R294, R299). -/
def State.xferAck (s : State) (g : Nat) : State :=
  (s.lower (Fd.GRV_STAT.PARTNER_LOST g)).modGrv g fun x => { x with acked := true, acksMissed := 0, ackWait := [] }

/-- A response is accepted: its descriptor completes and its tag closes (R262). A squashed one is stale (R288). -/
def State.rspTake (s : State) (c : List Byte) : State :=
  let f := cellField c
  let t := mMtag f
  let x := s.mtag t
  if !x.isOpen || x.gen != mGen f || x.squashed then s.inc Fd.CAS_MSG_STALE_CNT.COUNT
  else
    let s := s.closeTag t
    match x.desc with
    | some i => s.descDone x.grove i (mStatus f)
    | none => s.xferAck x.grove

/-- Issue the next descriptor of a grove's send ring (R259, R260, R264). The ring is read as ReadCurrent at its home (R390): while the
line is blocked, no tag is free or the limit of R30 holds the unit, nothing is issued; a failed line is a refused access (log 73). -/
def State.msgIssue (s : State) (g : Nat) : State :=
  let i := mapGet 0 s.cascade.issued g
  let a := s.txEntry g i
  if !s.on (Fd.CAS_MQ_CFG.TX_EN g) || i == s.get (Fd.CAS_MQ_TXHEAD.HEAD g) || s.gstate g == stFrozen || (s.grv g).freezing ||
    !s.linesFree a 64 then s
  else
    let (ok, s) := s.ringAccess g .read a 64
    if !ok then s.ringRefuse g true
    else match s.unitRead a 64 false with
    | (none, s) => s.ringRefuse g true
    | (some d, s) =>
      let dest := fieldB d 0 2
      let dg := fieldB d 2 1
      let len := fieldB d 3 1
      let op := fieldB d 4 1
      let next (s : State) : State := s.modCas fun x => { x with issued := mapSet 0 x.issued g ((i + 1) % 2 ^ 32) }
      if len == 0 || 48 < len || op != 1 || !s.cascade.sys.holds dest then (next s).descDone g i 5
      else
        let hdr := mkHdr 2 0 false dest s.device
        match s.route hdr none, s.freeTag g, s.transTake hawserReq 1 with
        | .noRoute, _, _ => (((next s).noRoute 1)).descDone g i 3
        | _, none, _ => s
        | _, _, (false, s) => s
        | rt, some t, (true, s) =>
          let (ok, s) := (s.drawn).ringAccess g .write (a + 6) 2
          if !ok then s.ringRefuse g true
          else
            let gen := (s.mtag t).gen
            let cf := t + gen * 2 ^ 12 + (s.tickIndex s.now + 3) % 2 ^ 16 * 2 ^ 16 + op * 2 ^ 32 + len * 2 ^ 40 + g * 2 ^ 46 + dg % 64 * 2 ^ 52
            let c := mkCell hdr cf (sliceB d 16 len)
            let s := (next (s.ringWrite (a + 6) (leBytes 2 (t + gen * 2 ^ 12)))).openTag t g (some i)
            match rt with
            | .out p h => s.queueCell p { bytes := setHdr c h }
            | _ =>
              let (status, s) := s.reqRing c
              s.rspTake (s.rspCell c status)

/-- T(EXPIRY) of an open tag (R260, R263). -/
def State.msgExpire (s : State) (t : Nat) : State :=
  let x := s.mtag t
  if !x.isOpen then s
  else
    let s := (s.atTime (s.origin + x.expiry * s.period)).closeTag t
    match x.desc, x.squashed with
    | some i, false => s.descDone x.grove i 4
    | _, _ => s

/-- A write of `CAS_MQ_TXHEADg` (R259). -/
def State.txHeadWrite (s : State) (g v : Nat) : State :=
  if 2 ^ s.get (Fd.CAS_MQ_CFG.TX_LOG2 g) < (v + 2 ^ 32 - s.txDone g) % 2 ^ 32 then s else s.set (Fd.CAS_MQ_TXHEAD.HEAD g) v

/-- A write of `CAS_MQ_RXTAILg` (7.11). -/
def State.rxTailWrite (s : State) (g v : Nat) : State :=
  if 2 ^ s.get (Fd.CAS_MQ_CFG.RX_LOG2 g) < (s.get (Fd.CAS_MQ_RXHEAD.HEAD g) + 2 ^ 32 - v) % 2 ^ 32 then s else s.set (Fd.CAS_MQ_RXTAIL.TAIL g) v

/-- A write of `CAS_MQ_CFGg` or of a base: a change of a LOG2 or a base under an enabled ring is ignored (7.11). -/
def State.ringCfgOk (s : State) (g v : Nat) : Bool :=
  !((s.on (Fd.CAS_MQ_CFG.TX_EN g) && bits v 11 8 != s.get (Fd.CAS_MQ_CFG.TX_LOG2 g)) ||
    (s.on (Fd.CAS_MQ_CFG.RX_EN g) && bits v 15 12 != s.get (Fd.CAS_MQ_CFG.RX_LOG2 g)))

/-- `CAS_CTL.CNT_CLR`. -/
def State.casCntClr (s : State) : State :=
  let s := s.each [Fd.CAS_REPL_LATE_CNT.COUNT, Fd.CAS_REPL_UNMATCHED_CNT.COUNT, Fd.CAS_NOROUTE_CNT.COUNT,
    Fd.CAS_MSG_EXPIRED_CNT.COUNT, Fd.CAS_MSG_STALE_CNT.COUNT] fun s f => s.lower f
  s.each (List.range 6) fun s p =>
    ((s.lower (Fd.CAS_PORT_AUTH_FAIL_CNT.COUNT p)).lower (Fd.CAS_PORT_GAP_CNT.COUNT p)).lower (Fd.CAS_PORT_BRINGUP_CNT.COUNT p)

end Sys2Proof.Machine
end

