-- ==== Sys2Proof/Machine/Blocks.lean ====
section
/-! DEFINITION. The 48 block types of the Loop Engine as functions of their inputs, immediate and state (R163-R166, R175, R176).
Values are binary32 patterns; every operator is one operation rounded to nearest even. -/

namespace Sys2Proof.Machine

/-- What a block reads: inputs with class and use, K, dt, its state words (32-bit, by index), the curve reader of CHAR, and the
entry under the delay line of DEADTIME and MAVG. -/
structure BIn where
  x     : Nat → Nat
  c     : Nat → Nat
  used  : Nat → Bool
  nIn   : Nat
  k     : Nat
  dt    : Nat
  st    : Nat → Nat
  curve : Nat → Nat → Nat × Option Nat
  line  : Nat → Nat × Nat

/-- What a block gives: y and z with their classes (none: not written), the accumulator a binary64 tag takes, the quality code of y when
the type states one, the state words by kind (binary32 and unsigned by word index, binary64 by word index of its low half), and the
entry of the delay line that is written. -/
structure BOut where
  y    : Option (Nat × Nat) := none
  z    : Option (Nat × Nat) := none
  y64  : Option Nat := none
  yq   : Option Nat := none
  st   : List (Nat × Nat) := []
  stU  : List (Nat × Nat) := []
  stD  : List (Nat × Nat) := []
  line : Option (Nat × Nat × Nat) := none

namespace Blk

def add (a b : Nat) : Nat := fAdd f32 a b
def sub (a b : Nat) : Nat := fSub f32 a b
def mul (a b : Nat) : Nat := fMul f32 a b
def div (a b : Nat) : Nat := fDiv f32 a b
def neg (a : Nat) : Nat := fNegate f32 a
def lt (a b : Nat) : Bool := fLt f32 a b
def le (a b : Nat) : Bool := fLe f32 a b
def eq (a b : Nat) : Bool := fEq f32 a b
/-- a ≠ b; a comparison with a NaN is false (R164, log 10). -/
def ne (a b : Nat) : Bool := lt a b || lt b a
def one : Nat := 0x3F800000
def c0125 : Nat := 0x3E000000
def c075 : Nat := 0x3F400000
def c025 : Nat := 0x3E800000
def c05 : Nat := 0x3F000000
def c100 : Nat := 0x42C80000
def c16777216 : Nat := 0x4B800000
def t (x : Nat) : Bool := ne x 0
def truth (b : Bool) : Nat := if b then one else 0
def clamp (x lo hi : Nat) : Nat := if lt hi x then hi else if lt x lo then lo else x
def fmin (a b : Nat) : Nat := if lt b a then b else a
/-- The smaller (worse) of two classes, each read under R122. -/
def worse (a b : Nat) : Nat := min (qclass a) (qclass b)

end Blk

open Blk

/-- The worst class among the used inputs; good when none is used (R163). The inputs of a block are those its type names: an operand that
stands in a position beyond them is no used input (DESIGN CHOICE, log 71). -/
def BIn.worst (b : BIn) : Nat :=
  ((List.range b.nIn).filter b.used).foldl (fun acc i => min acc (qclass (b.c i))) 2

/-- Output y alone, with the class of R163. -/
def BIn.outY (b : BIn) (y : Nat) (st : List (Nat × Nat)) : BOut := { y := some (y, b.worst), st := st }

/-- Outputs y and z, both with the class of R163. -/
def BIn.outYZ (b : BIn) (y z : Nat) (st : List (Nat × Nat)) : BOut := { y := some (y, b.worst), z := some (z, b.worst), st := st }

/-- Is PV or SP bad, so that the block holds its output YP (R175)? -/
def BIn.holds (b : BIn) : Bool := qclass (b.c 0) == 0 || qclass (b.c 1) == 0

/-- The held output: state unchanged, OUT1 not written. -/
def BIn.hold (b : BIn) (yp : Nat) : BOut := { y := some (yp, b.worst) }

/-- The conditional integration of R175: u, y and the integral kept. -/
def pidClamp (ke inew d i ol oh : Nat) : Nat × Nat :=
  let u := add (add ke inew) d
  let y := clamp u ol oh
  (y, if eq u y || (lt oh u && lt ke 0) || (lt u ol && lt 0 ke) then inew else i)

/-- PID_ISA (R175). -/
def blkPidIsa (b : BIn) : BOut :=
  let ti := b.st 0; let td := b.st 1; let oh := b.st 2; let ol := b.st 3
  let i := b.st 4; let d := b.st 5; let lpv := b.st 6
  if b.holds then b.hold (b.st 7)
  else
    let pv := b.x 0
    let e := sub (b.x 1) pv
    let ke := mul b.k e
    let (y, i, d) :=
      if t (b.x 3) then
        let y := clamp (b.x 2) ol oh
        (y, sub y ke, 0)
      else
        let tf := mul td c0125
        let d := sub (mul (div tf (add tf b.dt)) d) (mul (div (mul b.k td) (add tf b.dt)) (sub pv lpv))
        let inew := if lt 0 ti then add i (mul (div (mul b.k b.dt) ti) e) else i
        let (y, i) := pidClamp ke inew d i ol oh
        (y, i, d)
    b.outYZ y e [(4, i), (5, d), (6, pv), (7, y)]

/-- PID_PAR (R176). -/
def blkPidPar (b : BIn) : BOut :=
  let ki := b.st 0; let kd := b.st 1; let oh := b.st 2; let ol := b.st 3
  let i := b.st 4; let d := b.st 5; let lpv := b.st 6
  if b.holds then b.hold (b.st 7)
  else
    let pv := b.x 0
    let e := sub (b.x 1) pv
    let ke := mul b.k e
    let (y, i, d) :=
      if t (b.x 3) then
        let y := clamp (b.x 2) ol oh
        (y, sub y ke, 0)
      else
        let d := sub (mul c075 d) (mul (div (mul kd c025) b.dt) (sub pv lpv))
        let inew := if lt 0 ki then add i (mul (mul ki b.dt) e) else i
        let (y, i) := pidClamp ke inew d i ol oh
        (y, i, d)
    b.outYZ y e [(4, i), (5, d), (6, pv), (7, y)]

/-- PID_VEL (R176). -/
def blkPidVel (b : BIn) : BOut :=
  let ti := b.st 0; let td := b.st 1; let oh := b.st 2; let ol := b.st 3
  let e1 := b.st 4; let p1 := b.st 5; let p2 := b.st 6
  if b.holds then b.hold (b.st 7)
  else
    let pv := b.x 0
    let fb := b.x 2
    let e := sub (b.x 1) pv
    let y :=
      if t (b.x 3) then clamp fb ol oh
      else
        let it := if eq ti 0 then 0 else mul (div b.dt ti) e
        let dterm := mul (div td b.dt) (sub (sub pv p1) (sub p1 p2))
        clamp (add fb (mul b.k (sub (add (sub e e1) it) dterm))) ol oh
    b.outYZ y e [(4, e), (5, pv), (6, p1), (7, y)]

/-- PID_EXT (R176). -/
def blkPidExt (b : BIn) : BOut :=
  let ti := b.st 0; let td := b.st 1; let oh := b.st 2; let ol := b.st 3
  let f := b.st 4; let d := b.st 5; let lpv := b.st 6
  if b.holds then b.hold (b.st 7)
  else
    let pv := b.x 0
    let rf := b.x 2
    let e := sub (b.x 1) pv
    let ke := mul b.k e
    let (y, f, d) :=
      if t (b.x 3) then
        let y := clamp rf ol oh
        (y, sub y ke, 0)
      else
        let tf := mul td c0125
        let d := sub (mul (div tf (add tf b.dt)) d) (mul (div (mul b.k td) (add tf b.dt)) (sub pv lpv))
        let f := add f (mul (div b.dt (add ti b.dt)) (sub rf f))
        (clamp (add (add ke f) d) ol oh, f, d)
    b.outYZ y e [(4, f), (5, d), (6, pv), (7, y)]

/-- PI_GAP (R176). -/
def blkPiGap (b : BIn) : BOut :=
  let ti := b.st 0; let gap := b.st 1; let gf := b.st 2; let oh := b.st 3; let ol := b.st 4; let i := b.st 5
  if b.holds then b.hold (b.st 6)
  else
    let e := sub (b.x 1) (b.x 0)
    let e := if le (fAbs f32 e) gap then mul e gf else e
    let ke := mul b.k e
    let (y, i) :=
      if t (b.x 3) then
        let y := clamp (b.x 2) ol oh
        (y, sub y ke)
      else
        let inew := if lt 0 ti then add i (mul (div (mul b.k b.dt) ti) e) else i
        pidClamp ke inew 0 i ol oh
    b.outYZ y e [(5, i), (6, y)]

/-- ONOFF (R176). -/
def blkOnoff (b : BIn) : BOut :=
  let hys := b.st 0
  let st := if le (b.x 0) (sub (b.x 1) hys) then one else if le (add (b.x 1) hys) (b.x 0) then 0 else b.st 1
  b.outY (if le 0 b.k then st else sub one st) [(1, st)]

def blkLeadlag (b : BIn) : BOut :=
  let tld := b.st 0; let tlg := b.st 1; let xp := b.st 2; let yp := b.st 3
  let w := mul b.k (b.x 0)
  let y := div (sub (add (mul tlg yp) (mul (add tld b.dt) w)) (mul tld xp)) (add tlg b.dt)
  b.outY y [(2, w), (3, y)]

def blkLag1 (b : BIn) : BOut :=
  let y := add (b.st 1) (mul (div b.dt (add (b.st 0) b.dt)) (sub (mul b.k (b.x 0)) (b.st 1)))
  b.outY y [(1, y)]

def blkLag2 (b : BIn) : BOut :=
  let y1 := add (b.st 2) (mul (div b.dt (add (b.st 0) b.dt)) (sub (mul b.k (b.x 0)) (b.st 2)))
  let y2 := add (b.st 3) (mul (div b.dt (add (b.st 1) b.dt)) (sub y1 (b.st 3)))
  b.outYZ y2 y1 [(2, y1), (3, y2)]

/-- DEADTIME (R176): N and W unsigned; the line entry under W gives y and takes X. -/
def blkDeadtime (b : BIn) : BOut :=
  let n := b.st 0
  let w := b.st 1 % n
  let (v, c) := b.line w
  { y := some (v, c), stU := [(1, (w + 1) % n)], line := some (w, b.x 0, b.c 0) }

/-- MAVG (R176): S binary64 in words 2 and 3. -/
def blkMavg (b : BIn) : BOut :=
  let n := b.st 0
  let w := b.st 1 % n
  let (old, _) := b.line w
  let s := b.st 2 + b.st 3 * 2 ^ 32
  let s := fAdd f64 (fSub f64 s (fCvt f32 f64 old)) (fCvt f32 f64 (b.x 0))
  let y := fCvt f64 f32 (fDiv f64 s (fOfNat f64 n))
  { y := some (y, b.worst), stU := [(1, (w + 1) % n)], stD := [(2, s)], line := some (w, b.x 0, b.c 0) }

def blkDeriv (b : BIn) : BOut :=
  let tt := b.st 0
  let y := div (add (mul tt (b.st 2)) (mul b.k (sub (b.x 0) (b.st 1)))) (add tt b.dt)
  b.outY y [(1, b.x 0), (2, y)]

/-- (K·X)·dt in binary64. -/
def accStep (b : BIn) (x : Nat) : Nat := fMul f64 (fMul f64 (fCvt f32 f64 b.k) (fCvt f32 f64 x)) (fCvt f32 f64 b.dt)

def blkInteg (b : BIn) : BOut :=
  let a := b.st 0 + b.st 1 * 2 ^ 32
  let a := if t (b.x 2) then fCvt f32 f64 (b.x 3) else if t (b.x 1) then a else fAdd f64 a (accStep b (b.x 0))
  let hi := fCvt f32 f64 (b.st 2)
  let lo := fCvt f32 f64 (b.st 3)
  let a := if fLt f64 hi a then hi else if fLt f64 a lo then lo else a
  { y := some (fCvt f64 f32 a, b.worst), y64 := some a, stD := [(0, a)] }

def blkTotal (b : BIn) : BOut :=
  let a := b.st 0 + b.st 1 * 2 ^ 32
  let a := if t (b.x 2) then 0 else if t (b.x 1) then a else if lt (b.st 2) (b.x 0) then fAdd f64 a (accStep b (b.x 0)) else a
  { y := some (fCvt f64 f32 a, b.worst), z := some (truth (fLe f64 (fCvt f32 f64 (b.st 3)) a), b.worst), y64 := some a
    stD := [(0, a)] }

def blkRamp (b : BIn) : BOut :=
  let step := mul (b.st 0) b.dt
  let y0 := b.st 1
  let y := if t (b.x 3) then b.x 2
    else if t (b.x 1) then add y0 (clamp (sub (b.x 0) y0) (neg step) step) else y0
  b.outYZ y (truth (eq y (b.x 0))) [(1, y)]

def blkRatelim (b : BIn) : BOut :=
  let y0 := b.st 2
  let y := add y0 (clamp (sub (b.x 0) y0) (neg (mul (b.st 1) b.dt)) (mul (b.st 0) b.dt))
  b.outY y [(2, y)]

def blkLimit (b : BIn) : BOut :=
  let y := clamp (b.x 0) (b.st 1) (b.st 0)
  b.outYZ y (truth (ne y (b.x 0))) []

/-- CHAR (R176): at a clamp the class is no better than uncertain, written as 0x51 or 0x91. -/
def blkChar (b : BIn) : BOut :=
  let (y, q) := b.curve (b.st 0) (b.x 0)
  let c := b.worst
  match q with
  | none => { y := some (y, c), z := some (0, c) }
  | some q =>
    let cy := min c 1
    { y := some (y, cy), z := some (one, c), yq := if cy == 1 then some q else none }

def blkLinear (b : BIn) : BOut := b.outY (add (mul (b.st 0) (b.x 0)) (b.st 1)) []

def blkSplit (b : BIn) : BOut :=
  let x1 := b.st 0
  let y := clamp (div (mul c100 (b.x 0)) x1) 0 c100
  let z := clamp (div (mul c100 (sub (b.x 0) x1)) (sub c100 x1)) 0 c100
  b.outYZ y z []

/-- The eligible inputs of a selection: used and not bad, or every used one when all are bad. -/
def BIn.eligible (b : BIn) : List Nat :=
  let u := (List.range b.nIn).filter b.used
  let e := u.filter fun i => qclass (b.c i) != 0
  if e.isEmpty then u else e

def BIn.anyNaN (b : BIn) (l : List Nat) : Bool := l.any fun i => fIsNaN f32 (b.x i)

/-- The first of a list that no other beats. -/
def bestOf (better : Nat → Nat → Bool) : List Nat → Option Nat
  | [] => none
  | i :: l => match bestOf better l with
    | some j => if better j i then some j else some i
    | none => some i

/-- The selected input's value, number and class; with none used, zeros of class good. -/
def BIn.selected (b : BIn) (i : Option Nat) : BOut :=
  match i with
  | some i => { y := some (b.x i, qclass (b.c i)), z := some (fOfNat f32 i, qclass (b.c i)) }
  | none => { y := some (0, 2), z := some (0, 2) }

/-- A NaN result, which falls under R165. -/
def nanOut : BOut := { y := some (fNaN f32, 0), z := some (0, 0) }

def blkSelhi (b : BIn) : BOut :=
  let e := b.eligible
  if b.anyNaN e then nanOut else b.selected (bestOf (fun j i => lt (b.x i) (b.x j)) e)

def blkSello (b : BIn) : BOut :=
  let e := b.eligible
  if b.anyNaN e then nanOut else b.selected (bestOf (fun j i => lt (b.x j) (b.x i)) e)

/-- SELMID: the median of three, the mean of two, or the one input. -/
def blkSelmid (b : BIn) : BOut :=
  let e := b.eligible
  if b.anyNaN e then nanOut
  else match e with
    | [i, j] =>
      let c := worse (b.c i) (b.c j)
      { y := some (mul (add (b.x i) (b.x j)) c05, c), z := some (fOfNat f32 3, c) }
    | [i, j, k] =>
      -- the median is a value that some input is not above and some input is not below
      let l := [i, j, k]
      b.selected (l.find? fun m =>
        (l.filter fun n => lt (b.x n) (b.x m)).length ≤ 1 && (l.filter fun n => lt (b.x m) (b.x n)).length ≤ 1)
    | _ => b.selected e.head?

def blkSelsw (b : BIn) : BOut :=
  let i := if t (b.x 2) then 1 else 0
  { y := some (b.x i, worse (b.c i) (b.c 2)) }

def blkSelavg (b : BIn) : BOut :=
  let e := b.eligible
  if b.anyNaN e then nanOut
  else match e with
    | [] => { y := some (0, 2), z := some (0, 2) }
    | i :: l =>
      let sum := l.foldl (fun acc j => add acc (b.x j)) (b.x i)
      let mx := l.foldl (fun acc j => if lt acc (b.x j) then b.x j else acc) (b.x i)
      let mn := l.foldl (fun acc j => if lt (b.x j) acc then b.x j else acc) (b.x i)
      let c := l.foldl (fun acc j => worse acc (b.c j)) (qclass (b.c i))
      { y := some (div sum (fOfNat f32 e.length), c), z := some (truth (lt (b.st 0) (sub mx mn)), c) }

def blkAdd (b : BIn) : BOut :=
  match (List.range 4).filter b.used with
  | [] => b.outY b.k []
  | i :: l => b.outY (add (l.foldl (fun acc j => add acc (b.x j)) (b.x i)) b.k) []

def blkMul (b : BIn) : BOut := b.outY (mul (mul (b.x 0) (b.x 1)) b.k) []
def blkDiv (b : BIn) : BOut := b.outY (div (mul b.k (b.x 0)) (b.x 1)) []
def blkSqrt (b : BIn) : BOut := b.outY (if le (b.st 0) (b.x 0) then mul b.k (fSqrt f32 (b.x 0)) else 0) []
def blkAbs (b : BIn) : BOut := b.outYZ (fAbs f32 (b.x 0)) (truth (lt (b.x 0) 0)) []
def blkAnd (b : BIn) : BOut := b.outY (truth (((List.range 4).filter b.used).all fun i => t (b.x i))) []
def blkOr (b : BIn) : BOut := b.outY (truth (((List.range 4).filter b.used).any fun i => t (b.x i))) []
def blkXor (b : BIn) : BOut := b.outY (truth (t (b.x 0) != t (b.x 1))) []
def blkNot (b : BIn) : BOut := b.outY (truth (!t (b.x 0))) []

def blkCmp (b : BIn) : BOut :=
  let st := if lt (b.x 1) (b.x 0) then one else if lt (b.x 0) (sub (b.x 1) (b.st 0)) then 0 else b.st 1
  b.outY st [(1, st)]

def blkSrff (b : BIn) : BOut :=
  let st := if t (b.x 1) then 0 else if t (b.x 0) then one else b.st 0
  b.outY st [(0, st)]

def blkEdge (b : BIn) : BOut :=
  let x := t (b.x 0)
  let lp := t (b.st 0)
  b.outYZ (truth (x && !lp)) (truth (lp && !x)) [(0, truth x)]

def blkTon (b : BIn) : BOut :=
  let x := t (b.x 0)
  let et := if x then fmin (add (b.st 1) b.dt) (b.st 0) else 0
  b.outYZ (truth (x && le (b.st 0) et)) et [(1, et)]

def blkTof (b : BIn) : BOut :=
  let x := t (b.x 0)
  let et := if x then 0 else fmin (add (b.st 1) b.dt) (b.st 0)
  b.outYZ (if x then one else truth (lt et (b.st 0))) et [(1, et)]

def blkTpulse (b : BIn) : BOut :=
  let x := t (b.x 0)
  let (et, st) :=
    if x && !t (b.st 2) && eq (b.st 3) 0 then (0, one)
    else if eq (b.st 3) one then
      let et := fmin (add (b.st 1) b.dt) (b.st 0)
      (et, if le (b.st 0) et then 0 else b.st 3)
    else (b.st 1, b.st 3)
  b.outYZ st et [(1, et), (2, truth x), (3, st)]

def blkCtu (b : BIn) : BOut :=
  let x := t (b.x 0)
  let cv := if t (b.x 1) then 0 else if x && !t (b.st 2) then fmin (add (b.st 1) one) c16777216 else b.st 1
  b.outYZ cv (truth (le (b.st 0) cv)) [(1, cv), (2, truth x)]

def blkMove (b : BIn) : BOut := { y := some (b.x 0, qclass (b.c 0)), z := some (b.x 1, qclass (b.c 1)) }

/-- SAMPLE (R176): YP and QP, a QP of 3 or more read as bad (R122). -/
def blkSample (b : BIn) : BOut :=
  let (yp, qp) := if t (b.x 1) then (b.x 0, worse (b.c 0) (b.c 1)) else (b.st 0, b.st 1)
  { y := some (yp, if 3 ≤ qp then 0 else qp), st := [(0, yp)], stU := [(1, qp)] }

def blkMansta (b : BIn) : BOut :=
  let auto := t (b.x 2)
  let yp := b.st 1
  let step := mul (b.st 0) b.dt
  let y := if !auto then b.x 1
    else if eq (b.st 0) 0 then b.x 0 else add yp (clamp (sub (b.x 0) yp) (neg step) step)
  { y := some (y, worse (b.c 2) (b.c (if auto then 0 else 1))), z := some (truth auto, qclass (b.c 2)), st := [(1, y)] }

def blkRatio (b : BIn) : BOut := b.outY (add (mul (b.x 0) (clamp (b.x 1) (b.st 0) (b.st 1))) (b.x 2)) []

def blkPoly3 (b : BIn) : BOut :=
  let x := b.x 0
  b.outY (add (mul (add (mul (add (mul (b.st 3) x) (b.st 2)) x) (b.st 1)) x) (b.st 0)) []

def blkGascomp (b : BIn) : BOut :=
  let num := mul (add (b.x 1) (b.st 2)) (b.st 1)
  let den := mul (add (b.x 2) (b.st 3)) (b.st 0)
  b.outY (mul b.k (mul (b.x 0) (fSqrt f32 (div num den)))) []

/-- Inputs of a type, and its cost in clocks (R176; CALL's cost is without its wait). -/
def blockInfo (op : Nat) : Nat × Nat :=
  match op with
  | 0x01 => (4, 56) | 0x02 => (4, 52) | 0x03 => (4, 48) | 0x04 => (4, 56) | 0x05 => (4, 44) | 0x06 => (2, 12)
  | 0x07 => (1, 32) | 0x08 => (1, 20) | 0x09 => (1, 32) | 0x0A => (1, 24) | 0x0B => (1, 28) | 0x0C => (1, 24)
  | 0x0D => (4, 24) | 0x0E => (3, 28) | 0x0F => (4, 20) | 0x10 => (1, 20) | 0x11 => (1, 12) | 0x12 => (1, 28)
  | 0x13 => (1, 14) | 0x14 => (1, 22) | 0x15 => (4, 14) | 0x16 => (4, 14) | 0x17 => (3, 16) | 0x18 => (3, 10)
  | 0x19 => (4, 28) | 0x1A => (4, 14) | 0x1B => (2, 12) | 0x1C => (2, 28) | 0x1D => (1, 28) | 0x1E => (1, 10)
  | 0x1F => (4, 10) | 0x20 => (4, 10) | 0x21 => (2, 10) | 0x22 => (1, 10) | 0x23 => (2, 12) | 0x24 => (2, 10)
  | 0x25 => (1, 10) | 0x26 => (1, 14) | 0x27 => (1, 14) | 0x28 => (1, 14) | 0x29 => (2, 12) | 0x2A => (2, 10)
  | 0x2B => (2, 12) | 0x2C => (3, 16) | 0x2D => (3, 18) | 0x2E => (4, 40) | 0x2F => (1, 22) | 0x30 => (3, 44)
  | _ => (0, 0)

def blockInputs (op : Nat) : Nat := (blockInfo op).1
def blockCost (op : Nat) : Nat := (blockInfo op).2

/-- Does a block give a NaN or an infinity in an output or a state word (R165)? `wide`: OUT0 is a tag of VTYPE 1, which takes the binary64
accumulator where there is one (R162). For the two delay lines X itself counts, which is written to the line. -/
def BOut.nonFinite (o : BOut) (wide : Bool) : Bool :=
  let bad32 (v : Nat) : Bool := !fFinite f32 v
  (match o.y, o.y64 with
    | some _, some a => if wide then !fFinite f64 a else (match o.y with | some (v, _) => bad32 v | none => false)
    | some (v, _), none => bad32 v
    | none, _ => false) ||
  (match o.z with | some (v, _) => bad32 v | none => false) ||
  o.st.any (fun e => bad32 e.2) || o.stD.any (fun e => !fFinite f64 e.2) ||
  (match o.line with | some (_, v, _) => bad32 v | none => false)

end Sys2Proof.Machine
end

