-- ==== Sys2Proof/Machine/Loop.lean ====
section
/-! DEFINITION. The Loop Engine's lanes (chapter 5): strands, the execution of one block with its operands, outputs, faults and
timing, barrier flags, call-outs, and tuning writes. -/

namespace Sys2Proof.Machine

/-! ### Instances and operands (R154, R159, R160) -/

def instrAddr (b : Nat) : Nat := leBase + 32 * b
def stateAddr (b : Nat) : Nat := leBase + 0x80_0000 + 32 * b
def exchBase : Nat := 0x10_0016_0000
def exchCount : Nat := 81920
def exchAddr (e : Nat) : Nat := exchBase + 8 * e

/-- An operand word's meaning (R160). -/
inductive Opnd where
  | none
  | tag (i : Nat) (qsrc : Bool)
  | lane (r : Nat)
  | exch (e : Nat)
deriving DecidableEq, Repr

/-- The operand a word names; none when the word is a reserved encoding (R160). -/
def opnd? (w : Nat) : Option Opnd :=
  let rest := w % 2 ^ 30
  match w / 2 ^ 30 with
  | 0 => if rest == 0 then some .none else none
  | 1 => if bits rest 29 17 == 0 then some (.tag (bits rest 15 0) (bitOf rest 16)) else none
  | 2 => if rest < 64 then some (.lane rest) else none
  | _ => if rest < exchCount then some (.exch rest) else none

/-- Word i of an instruction: IN0-IN3 at 1-4, OUT0 and OUT1 at 5 and 6, K at 7. -/
def instrWord (bs : List Byte) (i : Nat) : Nat := fieldB bs (4 * i) 4
def instrOp (bs : List Byte) : Nat := fieldB bs 0 1
def instrCtl (bs : List Byte) : Nat := fieldB bs 1 1
def instrOpnd (bs : List Byte) (i : Nat) : Option Opnd := opnd? (instrWord bs (i + 1))

/-- A reserved OP (R159). -/
def opReserved (op : Nat) : Bool := op == 0 || op > 0x30

/-- BAD_INSTR: reserved encodings, QSRC in an output, and a delay line that is no exchange entry (R183, log 11). -/
def badInstr (bs : List Byte) : Bool :=
  opReserved (instrOp bs) || instrCtl bs > 3 ||
  (List.range 6).any (fun i => (instrOpnd bs i).isNone) ||
  [4, 5].any (fun i => match instrOpnd bs i with
    | some (.tag _ q) => q
    | _ => false) ||
  ((instrOp bs == 0x0A || instrOp bs == 0x0B) && (match instrOpnd bs 5 with
    | some (.exch _) => false
    | _ => true))

/-- The exchange entry that OUT1 of a delay line names. -/
def lineBase (bs : List Byte) : Nat :=
  match instrOpnd bs 5 with
  | some (.exch e) => e
  | _ => 0

def State.slotOfInst (s : State) (b : Nat) : Option Nat := s.loop.slots.findIdx? (·.inst == b)

/-- BAD_STATE: a state word out of range (R183). -/
def State.badState (s : State) (b : Nat) (bs : List Byte) : Bool :=
  let w0 := s.rd (stateAddr b) 4
  match instrOp bs with
  | 0x0A => w0 == 0 || w0 > 4096 || lineBase bs + w0 > exchCount
  | 0x0B => w0 == 0 || w0 > 4096 || lineBase bs + w0 > exchCount
  | 0x12 => s.signal.curveCount ≤ w0
  | 0x2E => s.slotOfInst b != some w0
  | _ => false

/-! ### Reading and writing operands (R161-R163, R165) -/

/-- A tag's VALUE as binary32 (R161). -/
def tagF32 (t : Tag) : Nat :=
  match t.vtype with
  | 0 => t.value % 2 ^ 32
  | 1 => fCvt f64 f32 t.value
  | 2 => if t.value % 2 == 1 then Blk.one else 0
  | _ => fOfNat f32 t.value

/-- The address of an input whose read meets a poisoned word: the VALUE or the quality of a tag, an exchange entry (R374). -/
def State.opndPoison (s : State) (o : Option Opnd) : Option Nat :=
  match o with
  | some (.tag i q) =>
    if !q && s.poisonedIn (tagAddr i) 8 then some (tagAddr i)
    else if s.poisonedIn (tagAddr i + 0x18) 8 then some (tagAddr i + 0x18) else none
  | some (.exch e) => if s.poisonedIn (exchAddr e) 8 then some (exchAddr e) else none
  | _ => none

/-- An input's value and class; one that meets a poisoned word reads +0.0 with class bad (R374). -/
def State.readOpnd (s : State) (l : Nat) (o : Option Opnd) : Nat × Nat :=
  if (s.opndPoison o).isSome then (0, 0) else
  match o with
  | some (.tag i q) =>
    let t := s.tag i
    if q then (fOfNat f32 (qclass t.qual), t.qual % 4) else (tagF32 t, t.qual % 4)
  | some (.lane r) =>
    let v := mapGet {} (s.lane l).regs r
    (v.v, v.c)
  | some (.exch e) =>
    let w := s.rd (exchAddr e) 8
    (w % 2 ^ 32, bits w 33 32)
  | _ => (0, 2)

/-- A binary32 result in a tag's encoding (R162). INTEG and TOTAL give tags of VTYPE 2, 3 and 4 their y, rounded to binary32, as R162 has
the accumulator written for VTYPE 1 alone (DESIGN CHOICE, log 71). -/
def outEncode (vtype v : Nat) (y64 : Option Nat) : Nat :=
  match vtype with
  | 0 => v
  | 1 => y64.getD (fCvt f32 f64 v)
  | 2 => b2n (Blk.ne v 0)
  | 3 => (fToIntR f32 .rtz 0 (2 ^ 64 - 1) v).1.toNat
  | _ => (fToIntR f32 .rtz 0 65535 v).1.toNat

/-- Is block b the writer of a tag (R123)? -/
def writtenBy (t : Tag) (b : Nat) : Bool := t.wKind == 3 && t.wIndex == b

def State.laneReg (s : State) (l r v c : Nat) : State :=
  s.modLane l fun x => { x with regs := mapSet {} x.regs r { v := v, c := c } }

/-- An exchange entry is written, 8 bytes, which heals a poisoned one (R374). -/
def State.exchPut (s : State) (e v c : Nat) : State := s.wordPut (exchAddr e) (leBytes 8 (v + c * 2 ^ 32))

/-- Is a tag output dropped: BIND names another writer (R124), or the tag is poisoned (R375)? -/
def State.outDropped (s : State) (b i : Nat) : Bool := !writtenBy (s.tag i) b || s.tagPoisoned i

/-- Write one output (R162): to a tag a value write, then a quality write when the class is not good. -/
def State.writeOut (s : State) (l b : Nat) (o : Option Opnd) (v c : Nat) (y64 yq : Option Nat) : State :=
  match o with
  | some (.tag i _) =>
    let t := s.tag i
    if s.outDropped b i then s.tagConflict i 3 0 b
    else
      let s := s.computeValue i 0 (outEncode t.vtype v y64) 0x02
      if c == 2 then s else s.computeQual i 0 (yq.getD (if c == 1 then 0x01 else 0x00))
  | some (.lane r) => s.laneReg l r v c
  | some (.exch e) => s.exchPut e v c
  | _ => s

/-- An output of a block with a non-finite result (R165). -/
def State.writeBad (s : State) (l b : Nat) (o : Option Opnd) : State :=
  match o with
  | some (.tag i _) => if s.outDropped b i then s.tagConflict i 3 0 b else s.computeQual i 0 0x10
  | some (.lane r) => s.laneReg l r 0 0
  | some (.exch e) => s.exchPut e 0 0
  | _ => s

/-! ### Lane progress (R155-R157, R167-R173) -/

/-- The lane's status registers follow its state; `LE_STAT.ACTIVE` follows the lanes. -/
def State.laneShow (s : State) (l : Nat) : State :=
  let x := s.lane l
  let waits := match x.block with
    | some b =>
      let bs := s.rdB (instrAddr b) 32
      bitOf (instrCtl bs) 0 && !bitOf (s.reg (Rg.LE_BARRIER (fieldB bs 2 1 / 32))) (fieldB bs 2 1 % 32)
    | none => false
  let s := ((s.set (Fd.LE_LANE_STAT.BUSY l) (b2n x.block.isSome)).set (Fd.LE_LANE_STAT.WAITING l) (b2n waits)).set
    (Fd.LE_LANE_STAT.CALLING l) (b2n x.calling)
  s.set Fd.LE_STAT.ACTIVE (b2n ((List.range 32).any fun i => s.on (Fd.LE_LANE_STAT.BUSY i)))

/-- Begin the lane's first remaining strand, 40 clocks on, with every lane register +0.0 good; or finish the lane (R157, R169). -/
def State.beginStrand (s : State) (l : Nat) : State :=
  let x := s.lane l
  match x.strands with
  | st :: _ => (s.setLane l { x with block := some st.first, regs := [], t := x.t + 40 }).laneShow l
  | [] => ((s.setLane l { x with block := none, regs := [] }).set (Fd.LE_LANE_FINISH.CLOCKS l) x.t).laneShow l

/-- Go on after block b: its successor in the strand, or the next strand (R155, R156). -/
def State.nextBlock (s : State) (l b : Nat) : State :=
  let x := s.lane l
  match x.strands with
  | st :: rest =>
    if b + 1 < st.first + st.count then (s.setLane l { x with block := some (b + 1) }).laneShow l
    else (s.setLane l { x with strands := rest, block := none }).beginStrand l
  | [] => s

/-- A strand fault (R183). -/
def State.strandFault (s : State) (l b code : Nat) : State :=
  let x := s.lane l
  let s := ((s.raise (Fd.LE_LANE_STAT.FAULT l)).set (Fd.LE_LANE_STAT.FCODE l) code)
  let s := (s.setReg (Rg.LE_LANE_FAULT l) (b + code * 2 ^ 18)).inc Fd.LE_FAULT_CNT.COUNT
  let s := s.raise Fd.LE_STAT.FAULT
  let s := match s.groveOfLane l with
    | some g => (s.raise (Fd.FRM_GRV_STAT.LANE_FAULT g)).modGrv g fun y => { y with faulted := true }
    | none => s
  let s := if x.faultTold then s else s.pulse (s.get Fd.LE_IRQ_SRC.FAULT_SRC)
  (s.setLane l { s.lane l with strands := x.strands.drop 1, block := none, calling := false, faultTold := true }).beginStrand l

def State.flagSet (s : State) (f : Nat) : Bool := bitOf (s.reg (Rg.LE_BARRIER (f / 32))) (f % 32)

/-- Set time of a flag, in clocks since E(n). -/
def State.flagTime (s : State) (f : Nat) : Nat := mapGet 0 s.loop.flagTime f

/-- May the lane's next block begin now, as a block with code `op` (or one whose OP is reserved, which faults)? Then its instance,
its instruction and the clock at which it begins (R169, R172). -/
def State.blockReady (s : State) (l op : Nat) : Option (Nat × List Byte × Nat) :=
  let x := s.lane l
  match x.block with
  | none => none
  | some b =>
    let bs := s.rdB (instrAddr b) 32
    if x.calling || x.stopped || !(instrOp bs == op || opReserved (instrOp bs)) then none
    else if bitOf (instrCtl bs) 0 then
      let f := fieldB bs 2 1
      if s.flagSet f then some (b, bs, max x.t (s.flagTime f) + 40) else none
    else some (b, bs, x.t)

/-- dt of the lane's strand (R164). -/
def State.strandDt (s : State) (l : Nat) : Nat :=
  match (s.lane l).strands with
  | st :: _ => s.classDt f32 st.cls
  | [] => 0

/-- The entry of the delay line that DEADTIME or MAVG reads (R176). -/
def State.lineEntry (s : State) (b : Nat) (bs : List Byte) : Option Opnd :=
  if instrOp bs == 0x0A || instrOp bs == 0x0B
  then some (.exch (lineBase bs + s.rd (stateAddr b + 4) 4 % s.rd (stateAddr b) 4)) else none

/-- The reports of the poisoned words that block b's reads meet (R374). -/
def State.blockReports (s : State) (b : Nat) (bs : List Byte) : State :=
  s.each ((List.range (blockInputs (instrOp bs))).map (instrOpnd bs) ++ [s.lineEntry b bs]) fun s o => match s.opndPoison o with
    | some a => s.meetPoison a
    | none => s

/-- The poisoned word of block b's instruction or state, which it reads first (R183). -/
def State.blockPoison (s : State) (b : Nat) : Option Nat :=
  if s.poisonedIn (instrAddr b) 32 then some (instrAddr b)
  else if s.poisonedIn (stateAddr b) 32 then some (stateAddr b) else none

/-- What block b reads (R161, R163, R164). -/
def State.blockIn (s : State) (l b : Nat) (bs : List Byte) : BIn :=
  let ins := (List.range 4).map fun i => s.readOpnd l (instrOpnd bs i)
  let inp (i : Nat) : Nat × Nat := (ins[i]?).getD (0, 2)
  let sb := s.rdB (stateAddr b) 32
  { x := fun i => (inp i).1
    c := fun i => (inp i).2
    used := fun i => instrWord bs (i + 1) / 2 ^ 30 != 0
    nIn := blockInputs (instrOp bs)
    k := instrWord bs 7
    dt := s.strandDt l
    st := fun i => fieldB sb (4 * i) 4
    curve := fun c x =>
      let a := curveBase + 128 * c
      curveAt (fun j => s.rd (a + 4 * j) 4) (fun j => s.rd (a + 64 + 4 * j) 4) x
    line := fun w => s.readOpnd l (some (.exch (lineBase bs + w))) }

/-- A non-finite result: no state; every output bad (R165). For the delay lines OUT1 is no output. -/
def State.blockArith (s : State) (l b : Nat) (bs : List Byte) (o : BOut) : State :=
  let s := s.writeBad l b (instrOpnd bs 4)
  let s := if o.z.isSome then s.writeBad l b (instrOpnd bs 5) else s
  (s.inc Fd.LE_ARITH_CNT.COUNT).raise Fd.LE_STAT.ARITH

/-- Write a block's state words and its delay-line entry; a block whose state holds a poisoned word has faulted before. -/
def State.blockState (s : State) (b : Nat) (bs : List Byte) (o : BOut) : State :=
  let a := stateAddr b
  let s := s.each o.st fun s e => s.wr (a + 4 * e.1) 4 e.2
  let s := s.each o.stU fun s e => s.wr (a + 4 * e.1) 4 e.2
  let s := s.each o.stD fun s e => s.wr (a + 4 * e.1) 8 e.2
  match o.line with
  | some (w, v, c) => s.exchPut (lineBase bs + w) v (qclass c)
  | none => s

/-- A block's results: state, OUT0 before OUT1 (R162), or R165. -/
def State.blockResults (s : State) (l b : Nat) (bs : List Byte) (o : BOut) : State :=
  let wide := match instrOpnd bs 4 with
    | some (.tag i _) => (s.tag i).vtype == 1
    | _ => false
  if o.nonFinite wide then s.blockArith l b bs o
  else
    let s := s.blockState b bs o
    let s := match o.y with
      | some (v, c) => s.writeOut l b (instrOpnd bs 4) v c o.y64 o.yq
      | none => s
    match o.z with
    | some (v, c) => s.writeOut l b (instrOpnd bs 5) v c none none
    | none => s

/-- The time of a lane's clock (R169). -/
def State.laneTime (s : State) (t : Nat) : Nat := (s.frame.eTime.getD s.now) + t * 5 / 6

/-- A block ends at clock t: its flag falls due 34 clocks later, and the lane goes on (R169, R171). -/
def State.blockEnd (s : State) (l b : Nat) (bs : List Byte) (t : Nat) : State :=
  let s := (s.modLane l fun x => { x with t := t }).atTime (s.laneTime t)
  let s := if bitOf (instrCtl bs) 1
    then s.modLoop fun x => { x with flagTime := mapPut x.flagTime (fieldB bs 3 1) (t + 34) } else s
  s.nextBlock l b

/-- The fault a block meets before it computes (R183). -/
def State.blockFault (s : State) (b : Nat) (bs : List Byte) : Option Nat :=
  if (s.blockPoison b).isSome then some 2
  else if badInstr bs then some 4
  else if s.badState b bs then some 3
  else none

/-- A block of lane l faults at clock t: SRAM_ERR reports the word it met. -/
def State.blockFaulted (s : State) (l b t : Nat) : State :=
  let s := s.modLane l fun x => { x with t := t }
  match s.blockPoison b with
  | some a => s.meetPoison a
  | none => s

/-- Execute the lane's next block, of code `op` and function `f`; a lane not ready for such a block does nothing. -/
def State.blockRun (s : State) (l op : Nat) (f : BIn → BOut) : State :=
  match s.blockReady l op with
  | none => s
  | some (b, bs, t) =>
    let s := s.set (Fd.LE_LANE_POS.INSTANCE l) b
    match s.blockFault b bs with
    | some code => (s.blockFaulted l b t).strandFault l b code
    | none => ((s.blockReports b bs).blockResults l b bs (f (s.blockIn l b bs))).blockEnd l b bs (t + blockCost op)

/-- A barrier flag is set, 34 clocks after its setter's end (R171). -/
def State.setFlag (s : State) (f : Nat) : State :=
  match mapGet? s.loop.flagTime f with
  | none => s
  | some t =>
    let w := Rg.LE_BARRIER (f / 32)
    let s := ((s.atTime (s.laneTime t)).setReg w (s.reg w ||| 2 ^ (f % 32)))
    s.each (List.range 32) fun s l => if (s.lane l).block.isSome then s.laneShow l else s

/-! ### Call-outs (R177-R180) -/

/-- A CALL block begins: its arguments stand, PENDING sets, its doorbell is written (R178). -/
def State.callBegin (s : State) (l : Nat) : State :=
  match s.blockReady l 0x2E with
  | none => s
  | some (b, bs, t) =>
    let s := s.set (Fd.LE_LANE_POS.INSTANCE l) b
    match s.blockFault b bs with
    | some code => (s.blockFaulted l b t).strandFault l b code
    | none =>
      let n := s.rd (stateAddr b) 4
      let i := s.blockIn l b bs
      let s := s.blockReports b bs
      let s := s.setReg (Rg.LE_CALL_ARGLO n) (i.x 0 + i.x 1 * 2 ^ 32)
      let s := s.setReg (Rg.LE_CALL_ARGHI n) (i.x 2 + i.x 3 * 2 ^ 32)
      let s := s.set (Fd.LE_CALL_STAT.QIN n) (i.c 0 + i.c 1 * 4 + i.c 2 * 16 + i.c 3 * 64)
      let s := s.raise (Fd.LE_CALL_STAT.PENDING n)
      let s := s.atTime (s.laneTime (t + 20))
      let s := s.modLoop fun x => { x with slots := x.slots.modify n fun c => { c with since := some s.now } }
      let s := (s.modLane l fun x => { x with calling := true, t := t + 20 }).laneShow l
      s.pulse (s.get Fd.LE_IRQ_SRC.CALL_BASE + n)

/-- The lane whose CALL block waits on slot n, with its instance. -/
def State.callLane (s : State) (n : Nat) : Option (Nat × Nat) :=
  match s.loop.slots[n]? with
  | none => none
  | some c => (s.loop.lanes.find? fun e => e.2.calling && e.2.block == some c.inst).map fun e => (e.1, c.inst)

/-- A pending call is over. -/
def State.callClear (s : State) (n : Nat) : State :=
  (s.lower (Fd.LE_CALL_STAT.PENDING n)).modLoop fun x => { x with slots := x.slots.modify n fun c => { c with since := none } }

/-- A write to a call slot dropped (R180). -/
def State.leDrop (s : State) : State := (s.inc Fd.LE_WDROP_CNT.COUNT).raise Fd.LE_STAT.WDROP

/-- Does a requester's grove own a call slot (R180)? -/
def State.ownsSlot (s : State) (r : Requester) (n : Nat) : Bool :=
  match s.loop.slots[n]? with
  | some c => s.groveOfReq r == some c.grove
  | none => false

/-- DONE accepted: the block ends 20 clocks later with the returned values, both of class `q`, under R165 (R178). -/
def State.callFinish (s : State) (n q : Nat) : State :=
  match s.callLane n with
  | none => s.callClear n
  | some (l, b) =>
    let bs := s.rdB (instrAddr b) 32
    let ret := s.reg (Rg.LE_CALL_RET n)
    let o : BOut := { y := some (ret % 2 ^ 32, q), z := some (ret / 2 ^ 32, q) }
    let t := max (s.lane l).t (nsClocks (s.now - s.frame.eTime.getD s.now)) + 20
    let s := (s.callClear n).modLane l fun x => { x with calling := false }
    (s.blockResults l b bs o).blockEnd l b bs t

/-- A late DONE (R180). -/
def State.callLate (s : State) (n : Nat) : State :=
  ((s.raise (Fd.LE_CALL_STAT.LATE n)).raise Fd.LE_STAT.CALL_LATE).inc Fd.LE_CALL_LATE_CNT.COUNT

/-- A write of DONE with a class (R178, R180); class 3 is reserved (R17). -/
def State.callDone (s : State) (r : Requester) (n q : Nat) : State :=
  if !s.ownsSlot r n then s.leDrop
  else if q == 3 then s
  else if s.on (Fd.LE_CALL_STAT.PENDING n) then s.callFinish n q
  else s.callLate n

/-- A call's budget runs out (R179): the lane goes on from the clock of the fault, the wait measured (R170). -/
def State.callTimeout (s : State) (n : Nat) : State :=
  match s.loop.slots[n]? with
  | some c =>
    (match c.since, s.callLane n with
     | some t0, some (l, b) =>
       let s := (s.atTime (t0 + c.budget)).callClear n
       let t := nsClocks (t0 + c.budget - s.frame.eTime.getD s.now)
       (s.modLane l fun x => { x with t := max x.t t }).strandFault l b 1
     | _, _ => s)
  | none => s

/-- A write to `LE_CALL_RETs` (R180). -/
def State.callRet (s : State) (r : Requester) (n v : Nat) : State :=
  if s.ownsSlot r n then s.setReg (Rg.LE_CALL_RET n) v else s.leDrop

/-! ### Tuning writes (R181, R182) -/

/-- The grove whose lane runs the strand of an instance. -/
def State.groveOfInst (s : State) (b : Nat) : Option Nat :=
  match s.loop.strands.find? (fun st => inRange st.first st.count b) with
  | some st => s.groveOfLane st.lane
  | none => none

/-- May instruction bytes 0x00-0x1B of instance b be written (R181, R283)? -/
def State.mayWriteInstr (s : State) (r : Requester) (b : Nat) : Bool :=
  s.isE r && (match s.groveOfInst b with
    | some g => s.gstate g == stHeld
    | none => true)

/-- May K and the state of instance b be written (R181)? -/
def State.mayTuneInst (s : State) (r : Requester) (b : Nat) : Bool :=
  s.isE r || (s.isSE r && (match s.groveOfInst b with
    | some g => s.groveOfReq r == some g
    | none => false))

/-- Is a write to banks 4-35 one that R181 performs? -/
def State.leWriteOk (s : State) (r : Requester) (a size : Nat) : Bool :=
  let off := (a - leBase) % 0x80_0000
  let b := off / 32
  let k := off % 32
  (size == 4 || size == 8) && a % size == 0 &&
    (if a < leBase + 0x80_0000 then
       (if k < 0x1C then s.mayWriteInstr r b else true) && (if 0x1C < k + size then s.mayTuneInst r b else true)
     else s.mayTuneInst r b)

/-- `LE_TUNE_PEND` and `LE_TUNE_FULL` follow the buffers. -/
def State.tuneShow (s : State) : State :=
  let bufs := s.loop.tuneBuf
  let full (w : Nat) : Nat := bufs.foldl (fun acc e => if e.1 / 32 == w && e.2.length ≥ 64 then acc + 2 ^ (e.1 % 32) else acc) 0
  ((s.set Fd.LE_TUNE_PEND.COUNT (bufs.foldl (fun acc e => acc + e.2.length) 0)).setReg (Rg.LE_TUNE_FULL 0) (full 0)).setReg
    (Rg.LE_TUNE_FULL 1) (full 1)

/-- Is a write to banks 4-35 held at its requester: permitted, for a grove in its Compute interval whose buffer is full (R182)? -/
def State.leHeld (s : State) (r : Requester) (a size : Nat) : Bool :=
  s.leWriteOk r a size &&
  match s.groveOfInst (((a - leBase) % 0x80_0000) / 32) with
  | none => false
  | some g => (s.grv g).computing && 64 ≤ (mapGet [] s.loop.tuneBuf g).length

/-- A permitted write, applied or held in the grove's buffer (R182). -/
def State.leApply (s : State) (who a size v : Nat) : State :=
  let b := ((a - leBase) % 0x80_0000) / 32
  match s.groveOfInst b with
  | none => s.wordPut a (leBytes size v)
  | some g =>
    if !(s.grv g).computing then s.wordPut a (leBytes size v)
    else
      let w : HeldWrite := { who := who, addr := a, size := size, v := BitVec.ofNat 64 v }
      (s.modLoop fun x => { x with tuneBuf := mapSet [] x.tuneBuf g (mapGet [] x.tuneBuf g ++ [w]) }).tuneShow

/-- A write to banks 4-35 that is not held at its requester (R181). -/
def State.leWrite (s : State) (r : Requester) (a size v : Nat) : State :=
  if s.leWriteOk r a size then s.leApply (reqNo r) a size v else s.leDrop

/-- The held writes of a grove are applied in arrival order (R182). -/
def State.applyTune (s : State) (g : Nat) : State :=
  let s := s.each (mapGet [] s.loop.tuneBuf g) fun s w => s.wordPut w.addr (leBytes w.size w.v.toNat)
  (s.modLoop fun x => { x with tuneBuf := mapDel x.tuneBuf g }).tuneShow

/-- `LE_CTL.CNT_CLR`. -/
def State.leCntClr (s : State) : State :=
  (((s.lower Fd.LE_FAULT_CNT.COUNT).lower Fd.LE_ARITH_CNT.COUNT).lower Fd.LE_CALL_LATE_CNT.COUNT).lower Fd.LE_WDROP_CNT.COUNT

end Sys2Proof.Machine
end

