-- ==== Sys2Proof/Machine/Fabric.lean ====
section
/-! DEFINITION. Accesses to the memory targets by requesters without a cache for them (1.4, 11.3, 11.7), and the PCIe outbound
window (R507). Register accesses stand in RegAccess. -/

namespace Sys2Proof.Machine

/-! ### Outbound window (R507) -/

def State.hostAddr (s : State) (a : Nat) : Nat := (s.get Fd.PCI_OB_BASE.BASE * 4096 + (a - pcieBase)) % 2 ^ 64

/-- An outbound read has failed (card "Outbound completion timeout"). -/
def State.obFail (s : State) : State := (s.inc Fd.PCI_CPL_TO_CNT.COUNT).raise Fd.PCI_STAT.CPL_TO

/-- What an access gives: data, a bus error of the target, an uncorrectable error, or nothing yet. -/
inductive MemRes where
  | ok (bs : List Byte)
  | bus
  | dataError
  | wait
deriving DecidableEq, Repr

/-- An outbound read of a requester: it is issued once, and its result is taken when the completions have arrived. -/
def State.obRead (s : State) (who a n : Nat) : MemRes × State :=
  match s.pci.reads.find? fun e => e.2.req == who && e.2.addr == a && e.2.size == n with
  | some (id, r) =>
    match r.result with
    | none => (.wait, s)
    | some res =>
      let s := s.modPci fun p => { p with reads := mapDel p.reads id }
      match res with
      | some v => (.ok (leBytes n v), s)
      | none => (.bus, s)
  | none =>
    if !s.on Fd.PCI_LINK.UP then (.bus, s.obFail)
    else match s.transBegin who with
      | (false, s) => (.wait, s)
      | (true, s) => (.wait, s.modPci fun p => { p with
        reads := mapPut p.reads p.nextRead { req := who, addr := a, size := n }
        nextRead := p.nextRead + 1 })

/-- An outbound write: posted, or discarded and counted while the link is down. -/
def State.obWrite (s : State) (a : Nat) (bs : List Byte) : State :=
  if s.on Fd.PCI_LINK.UP then s.modPci fun p => { p with writes := (s.hostAddr a, bs) :: p.writes }
  else s.inc Fd.PCI_OB_DROP_CNT.COUNT

/-! ### Reads and writes of memory targets -/

/-- A read of a poisoned word of an on-die memory is an error (R374). -/
def State.wordRead (s : State) (a n : Nat) (bs : List Byte) : MemRes × State :=
  if s.poisonedIn a n then (.dataError, s.meetPoison a) else (.ok bs, s)

/-- A write into words of an on-die memory. -/
def State.wordStore (s : State) (a : Nat) (bs : List Byte) : MemRes × State :=
  match s.wordWrite a bs with
  | (true, s) => (.ok [], s)
  | (false, s) => (.dataError, s)

/-- A read of `n` bytes at a target that is not the register window (R32, R374, R390, R399). A read of GDDR7 is a ReadCurrent at the home:
it waits for an open transaction of its line (R383). -/
def State.memRead (s : State) (who a n : Nat) (rt : Bool) : MemRes × State :=
  match targetOf a with
  | .gddr =>
    if !s.linesFree a n then (.wait, s)
    else match s.unitRead a n rt with
      | (some bs, s) => (.ok bs, s)
      | (none, s) => (.dataError, s)
  | .sram => if s.held a then (.wait, s.wake a) else s.wordRead a n (s.rdB a n)
  | .sealed => if s.held a then (.wait, s.wake a) else s.wordRead a n (s.rdB a n)
  | .tags => s.wordRead a n (s.tagBytes a n)
  | .pcie => s.obRead who a n
  | .window => (.bus, s)
  | .hole => (.bus, s)

/-- A write into the Tag Store window (R29, R375): a poisoned tag takes configuration writes alone. -/
def State.tagStore (s : State) (r : Requester) (a n v : Nat) : MemRes × State :=
  let tag := (a - tagBase) / 64
  let off := (a - tagBase) % 64
  if !s.tagPoisoned tag then (.ok [], s.tagWrite r tag off n v)
  else match s.classify r tag off n v with
    | .config =>
      match s.wordWrite a (leBytes n v) with
      | (true, s) => (.ok [], s.markChanged tag)
      | (false, s) => (.dataError, s)
    | .tune => match s.wordWrite a (leBytes n v) with
      | (true, s) => (.ok [], s.markChanged tag)
      | (false, s) => (.dataError, s)
    | .dropped _ => (.ok [], s.tagWrite r tag off n v)
    | _ => (.ok [], s.tagConflict tag (s.conflictWho r).1 0 (s.conflictWho r).2)

/-- A write of `n` bytes at a target that is not the register window, by a requester without a cache for it. A write of GDDR7 is a WriteInv
at the home (R391). -/
def State.memWrite (s : State) (r : Requester) (a n v : Nat) (rt : Bool) : MemRes × State :=
  let bs := leBytes n v
  match targetOf a with
  | .gddr =>
    if !s.linesFree a n then (.wait, s)
    else match s.unitWrite a bs rt with
      | (true, s) => (.ok [], s)
      | (false, s) => (.dataError, s)
  | .sram =>
    if a < gatherEnd then (.ok [], s.gatherDrop)
    else if a < leEnd then (if s.leHeld r a n then (.wait, s) else (.ok [], s.leWrite r a n v))
    else if s.held a then (.wait, s.wake a)
    else s.wordStore a bs
  | .sealed => if s.held a then (.wait, s.wake a) else s.wordStore a bs
  | .tags => s.tagStore r a n v
  | .pcie => (.ok [], s.obWrite a bs)
  | .window => (.bus, s)
  | .hole => (.bus, s)

end Sys2Proof.Machine
end

