-- ==== Sys2Proof/Machine/Access.lean ====
section
/-! DEFINITION. Which accesses reach their target: the paths of R27, the firewall (R28, R285), the host's windows (R493, R498). A
row of the table that is a write by a requester takes effect only through these. -/

namespace Sys2Proof.Machine

/-- The window offsets the host may write: `PCI_DOORBELL` and mailbox 1 (R493, R497). -/
def hostWrites (off : Nat) : Bool := off == Rg.PCI_DOORBELL || (Rg.HWD_MBX_CTL 1 ≤ off && off < Rg.HWD_MBX_CTL 2)

/-- The window offsets the host may read: the blocks of BAR0 (R493). -/
def hostReads (off : Nat) : Bool :=
  match off / 0x400_0000 with
  | 12 => true
  | 0 => true
  | 1 => true
  | 10 => true
  | 6 => true
  | 9 => off % 0x400_0000 < 0x1_0000
  | 11 => off % 0x400_0000 < 0x1000
  | _ => false

/-- Does an access of `n` bytes at `a` reach its target (R27, R28, R493)? -/
def State.reaches (s : State) (r : Requester) (k : FwKind) (a n : Nat) : Bool :=
  match r with
  | .host => targetOf a == .window && (if k == .read then hostReads (a - winBase) else hostWrites (a - winBase))
  | .heartwood => pathOpen s r a
  | .core c => pathOpen s r a && (s.level c.val == .e || (match s.groveOfCore c.val with
    | some g => s.fwPass g k a n
    | none => false))
  | .dma e _ => pathOpen s r a && (match s.groveOfEngine e.val with
    | some g => s.fwPass g k a n
    | none => false)

/-- An inbound write that is not admitted (R498). -/
def State.hostDrop (s : State) : State := (s.inc Fd.PCI_WDROP_CNT.COUNT).raise Fd.PCI_STAT.WDROP

/-- The draw of a firewall check is used up (R287). -/
def State.fwUsed (s : State) (r : Requester) : State :=
  match s.groveOfReq r with
  | some g => s.fwDrawn g
  | none => s

/-- An access that does not reach its target: a firewall refusal is recorded (R286), the host's write is discarded and counted, any
other requester gets a bus error (R27). -/
def State.turnAway (s : State) (r : Requester) (k : FwKind) (a n : Nat) : State :=
  match r with
  | .host => if k == .read then s.answer (.data 0) else s.hostDrop
  | .heartwood => s.answer .busError
  | _ =>
    let s' := match s.groveOfReq r, pathOpen s r a with
      | some g, true => s.fwRefuse g k (match r with
        | .dma _ _ => reqDma
        | _ => reqCore) a n
      | _, _ => s
    (s'.fwUsed r).answer .busError

/-- Can a requester issue an access: the host, while the PCIe link is up? -/
def State.present (s : State) (r : Requester) : Bool := r != .host || s.on Fd.PCI_LINK.UP

/-- A write by a requester at a physical address: its effect, once it reaches its target. -/
def State.writeAt (s : State) (r : Requester) (a n : Nat) (f : State → State) : State :=
  if !s.present r then s
  else if s.reaches r .write a n then f ((s.fwUsed r).answer .ok) else s.turnAway r .write a n

/-- A write to the register at a window offset. -/
def State.regWriteAt (s : State) (r : Requester) (off n : Nat) (f : State → State) : State := s.writeAt r (winBase + off) n f

end Sys2Proof.Machine
end

