-- ==== Sys2Proof/Machine/Ports.lean ====
section
/-! DEFINITION. The field ports (chapter 6): receive frame maps, transmit templates, gates and queues, replication and elimination,
time synchronisation, and links. -/

namespace Sys2Proof.Machine

/-! ### Ports -/

def State.portMode (s : State) (p : Nat) : Nat := s.get (Fd.FP_PORT_CFG.MODE p)
def State.portUp (s : State) (p : Nat) : Bool := s.on (Fd.FP_PORT_STAT.LINK p)
def State.portCb (s : State) (p : Nat) : Bool := s.on (Fd.FP_PORT_CFG.CB p)
def State.portMac (s : State) (p : Nat) : Nat := s.get Fd.FP_MAC_BASE.MAC + p

/-- The port whose number map entries of a port's frames carry: the even port of a CB pair (R209). -/
def State.mapPort (s : State) (p : Nat) : Nat := if s.portCb p then p / 2 * 2 else p

/-- Line rate in Mb/s (R187). -/
def lineRate (mode : Nat) : Nat :=
  match mode with
  | 1 => 1000
  | 2 => 1000
  | 3 => 2500
  | _ => 10000

/-- Nanoseconds, rounded up, that `n` bytes take on a port. -/
def State.wireNs (s : State) (p n : Nat) : Nat := ceilDiv (n * 8 * 1000) (lineRate (s.portMode p))

/-- Bytes a frame occupies on the wire: preamble, frame, FCS and gap (R207). -/
def wireBytes (bs : List Byte) : Nat := 8 + bs.length + 4 + 12

/-! ### Received frames (R188, R191-R198) -/

/-- The parsed head of a frame: addresses, C-tag, R-TAG, EtherType and payload. -/
structure FrameHead where
  dmac    : Nat
  smac    : Nat
  vid     : Option Nat
  pcp     : Nat
  rtag    : Option Nat
  etype   : Nat
  payload : List Byte

def parseFrame (bs : List Byte) : FrameHead :=
  let be (off n : Nat) : Nat := beNat (sliceB bs off n)
  let tagged := be 12 2 == 0x8100
  let o := if tagged then 16 else 12
  let r := be o 2 == 0xF1C1
  let o' := if r then o + 6 else o
  { dmac := be 0 6
    smac := be 6 6
    vid := if tagged then some (be 14 2 % 4096) else none
    pcp := if tagged then be 14 2 / 2 ^ 13 else 0
    rtag := if r then some (be (o + 4) 2) else none
    etype := be o' 2
    payload := bs.drop (o' + 2) }

/-- Size, big-endian, signed of an integer or float format (R195); BIT has size 1. -/
def fmtSize (f : Nat) : Nat :=
  if f ≤ 2 || f == 17 then 1 else if f ≤ 6 then 2 else if f ≤ 12 then 4 else 8
def fmtBig (f : Nat) : Bool := [3, 4, 7, 8, 11, 13, 15].contains f
def fmtSigned (f : Nat) : Bool := [2, 4, 6, 8, 10].contains f
def fmtValid (f : Nat) : Bool := 1 ≤ f && f ≤ 17

/-- The slot DATA a format extracts (R195). -/
def extract (fmt off bitpos : Nat) (payload : List Byte) : Nat :=
  let raw := sliceB payload off (fmtSize fmt)
  let v := if fmtBig fmt then beNat raw else leNat raw
  if fmt == 17 then b2n (bitOf v bitpos)
  else if fmtSigned fmt then ofInt 64 (sext (8 * fmtSize fmt) v)
  else v

/-- A map entry's fields (R217). -/
def mePort (e : List Byte) : Nat := fieldB e 1 1
def meFlags (e : List Byte) : Nat := fieldB e 2 1
def meFmt (e : List Byte) : Nat := fieldB e 3 1
def meSmac (e : List Byte) : Nat := beNat (sliceB e 4 6)
def meVid (e : List Byte) : Nat := fieldB e 0x0A 2 % 4096
def meEtype (e : List Byte) : Nat := fieldB e 0x0C 2
def meOff (e : List Byte) : Nat := fieldB e 0x0E 2
def meBit (e : List Byte) : Nat := fieldB e 0x10 1
def meQmode (e : List Byte) : Nat := fieldB e 0x11 1
def meQofs (e : List Byte) : Nat := fieldB e 0x12 2
def meQbit (e : List Byte) : Nat := fieldB e 0x14 1
def meTag (e : List Byte) : Nat := fieldB e 0x16 2
def meIdofs (e : List Byte) : Nat := fieldB e 0x18 2
def meId (e : List Byte) : Nat := fieldB e 0x1A 2

/-- Does an entry's key match a frame on a map port (R193)? -/
def keyMatches (e : List Byte) (port : Nat) (h : FrameHead) : Bool :=
  mePort e == port && meEtype e == h.etype &&
  (!bitOf (meFlags e) 0 || meSmac e == h.smac) &&
  (!bitOf (meFlags e) 1 || h.vid == some (meVid e)) &&
  (!bitOf (meFlags e) 2 || (meIdofs e + 2 ≤ h.payload.length && beNat (sliceB h.payload (meIdofs e) 2) == meId e))

/-- The payload bytes an entry reads end here (R197). -/
def meEnd (e : List Byte) : Nat :=
  let x := meOff e + fmtSize (meFmt e)
  if meQmode e == 0 then x else max x (meQofs e + 1)

/-- The quality a map write carries (R196). -/
def meQuality (e : List Byte) (payload : List Byte) : Nat :=
  let b := fieldB payload (meQofs e) 1
  match meQmode e with
  | 1 => if b % 4 == 3 then 0 else if qualReserved b then b % 4 else b
  | 2 => if bitOf b (meQbit e) then 0x02 else 0x0C
  | _ => 0x02

/-- An entry or frame not fully applied (R194, R197). -/
def State.shortCount (s : State) (p : Nat) : State := (s.inc (Fd.FP_PORT_SHORT_CNT.COUNT p)).raise Fd.FP_STAT.SHORT

/-- Apply map entry `i` (R195-R198). -/
def State.applyMap (s : State) (p : Nat) (h : FrameHead) (capture : Nat) (e : List Byte) (i : Nat) : State :=
  if h.payload.length < meEnd e then s.shortCount p
  else s.gather (.map (Fin.ofNat _ i)) (meTag e) (.value (BitVec.ofNat 64 (extract (meFmt e) (meOff e) (meBit e) h.payload)) (BitVec.ofNat 64 capture)
    (BitVec.ofNat 8 (meQuality e h.payload)))

/-- The vector recovery of IEEE 802.1CB with a history of 32 (R209, log 13): whether the copy passes, and the stream after it. -/
def recover (st : CbStream) (seq : Nat) : Bool × CbStream :=
  match st.next with
  | none => (true, { st with next := some seq, history := 1 })
  | some last =>
    let d := sext 16 (seq + 2 ^ 16 - last)
    if d ≥ 32 || d ≤ -32 then (false, st)
    else if d ≤ 0 then
      let i := (-d).toNat
      if bitOf st.history i then (false, st) else (true, { st with history := st.history ||| 2 ^ i })
    else (true, { st with next := some seq, history := (st.history * 2 ^ d.toNat + 1) % 2 ^ 32 })

/-- The stream of a frame of a CB pair: the pair of source MAC and VID of the lowest map entry whose enabled address parts it matches
(R209; log 13). -/
def State.streamOf (s : State) (p : Nat) (h : FrameHead) : Option (Nat × Nat) :=
  (s.field.maps.find? fun e => mePort e == p / 2 * 2 &&
    (!bitOf (meFlags e) 0 || meSmac e == h.smac) && (!bitOf (meFlags e) 1 || h.vid == some (meVid e))).map fun e => (meSmac e, meVid e)

/-- Elimination on a CB pair (R209, R210): whether the copy passes. Of two copies that complete their FCS on one clock that of the even port
passes, whichever the queue of commands presents first. -/
def State.eliminate (s : State) (p : Nat) (h : FrameHead) (tie : Bool) : Bool × State :=
  match h.rtag with
  | none => (true, s)
  | some seq =>
    match (if s.portCb p then s.streamOf p h else none) with
    | none => (true, s)
    | some (smac, vid) =>
      if tie && p % 2 == 1 then (false, s.inc (Fd.FP_PORT_CB_ELIM_CNT.COUNT p))
      else
      let same (x : CbStream) : Bool := x.pair == p / 2 && x.smac == smac && x.vid == vid
      let st := (s.field.streams.find? same).getD { pair := p / 2, smac := smac, vid := vid }
      let (ok, st) := recover st seq
      let st := { st with last := s.now }
      let put (l : List CbStream) : List CbStream :=
        if l.any same then l.map (fun x => if same x then st else x) else l ++ [st]
      let s := s.modField fun f => { f with streams := put f.streams }
      (ok, if ok then s else s.inc (Fd.FP_PORT_CB_ELIM_CNT.COUNT p))

/-- A PAUSE or PFC frame (R188): MAC Control, EtherType 0x8808 after the source address, of opcode 0x0001 or 0x0101 (IEEE 802.3; PRESUMED,
log 14). -/
def isPause (h : FrameHead) : Bool :=
  h.etype == 0x8808 && h.vid.isNone && h.rtag.isNone && (beNat (h.payload.take 2) == 0x0001 || beNat (h.payload.take 2) == 0x0101)

/-- A group address has the low bit of its first octet set. -/
def isGroup (mac : Nat) : Bool := bitOf mac 40

/-- Is a frame in error: FCS, code error, length (R194, card "Receive frame discarded")? -/
def State.rxError (s : State) (p : Nat) (f : RxFrame) : Bool :=
  !f.fcsOk || f.codeError || f.bytes.length + 4 > s.get (Fd.FP_PORT_CFG.MAXLEN p) || f.bytes.length + 4 < 64

def State.nrtDrop (s : State) (p : Nat) : State := s.inc (Fd.FP_PORT_NRT_DROP_CNT.COUNT p)

/-- Pass a frame to receive queue PCP/2 (R215). -/
def State.nrtQueue (s : State) (p : Nat) (h : FrameHead) (f : RxFrame) : State :=
  s.modPort p fun x => { x with rxQueue := x.rxQueue ++ [(h.pcp / 2, f)] }

/-- The matching entries of a frame, in ascending entry number (R194). -/
def State.matching (s : State) (p : Nat) (h : FrameHead) : List (List Byte × Nat) :=
  s.field.maps.zipIdx.filter fun e => keyMatches e.1 (s.mapPort p) h

/-- Apply the first 64 matching entries (R194). -/
def State.applyMaps (s : State) (p : Nat) (h : FrameHead) (capture : Nat) (es : List (List Byte × Nat)) : State :=
  let s := s.each (es.take 64) fun s e => s.applyMap p h capture e.1 e.2
  if es.length > 64 then s.shortCount p else s

/-- Error bound of a timestamp in ns (R190). -/
def State.stampError (s : State) (p : Nat) : Nat := if lineRate (s.portMode p) == 10000 then 2 else 8

/-- The capture timestamp of a frame whose start passes the module lands at `t`: that of the receive reference plane, `RX_EXT` before it, to
within the error of R190. -/
def State.captureStamp (s : State) (p t : Nat) : Nat := s.near (t - s.get (Fd.FP_PORT_LAT.RX_EXT p)) (s.stampError p)

/-- A frame has been received on a port with link (R188, R190, R191, R194, R209, R215). -/
def State.receiveFrame (s : State) (p : Nat) (f : RxFrame) : State :=
  if s.portMode p == 0 || !s.portUp p then s
  else if s.rxError p f then (s.inc (Fd.FP_PORT_RXERR_CNT.COUNT p)).raise Fd.FP_STAT.RX_ERR
  else
    let h := parseFrame f.bytes
    if isPause h then s.nrtDrop p
    else
      let es := s.matching p h
      if es.isEmpty && !(h.dmac == s.portMac p || isGroup h.dmac) then s
      else
        let stamp := s.captureStamp p f.capture.toNat
        let f := { f with capture := BitVec.ofNat 64 stamp }
        let s := (s.drawn).inc (Fd.FP_PORT_RX_CNT.COUNT p)
        let (pass, s) := s.eliminate p h f.tie
        if !pass then s
        else
          let s := s.applyMaps p h stamp es
          if es.isEmpty || s.on (Fd.FP_PORT_CFG.MIRROR p) then s.nrtQueue p h f else s

/-- A stream's history resets when no frame of it has arrived for four base periods (R209). -/
def State.cbReset (s : State) (i : Nat) : State :=
  match s.field.streams[i]? with
  | none => s
  | some st => (s.atTime (st.last + 4 * s.period)).modField fun f =>
      { f with streams := f.streams.set i { st with next := none, history := 0 } }

/-! ### Transmit templates (R199-R204) -/

/-- A tag's value as an integer rounded to nearest even within [lo, hi]; NaN gives 0 (R200). -/
def tagInt (t : Tag) (lo hi : Int) : Int :=
  let sat (x : Int) : Int := if x < lo then lo else if x > hi then hi else x
  match t.vtype with
  | 0 => if fIsNaN f32 (t.value % 2 ^ 32) then 0 else (fToIntR f32 .rne lo hi (t.value % 2 ^ 32)).1
  | 1 => if fIsNaN f64 t.value then 0 else (fToIntR f64 .rne lo hi t.value).1
  | _ => sat t.value

/-- The bits a field writes from its tag, in its format (R200). -/
def fieldBits (fmt : Nat) (t : Tag) : Nat :=
  if fmt == 17 then
    b2n (match floatOf t.vtype with
      | some f => !fIsZero f (t.value % 2 ^ fWidth f)
      | none => t.value != 0)
  else if fmt == 11 || fmt == 12 then (if t.vtype == 1 then fCvt f64 f32 t.value else t.value % 2 ^ 32)
  else if fmt == 13 || fmt == 14 then (if t.vtype == 1 then t.value else fCvt f32 f64 (t.value % 2 ^ 32))
  else
    let w := 8 * fmtSize fmt
    let (lo, hi) : Int × Int := if fmtSigned fmt then (-((2 ^ (w - 1) : Nat) : Int), ((2 ^ (w - 1) : Nat) : Int) - 1)
      else (0, ((2 ^ w : Nat) : Int) - 1)
    ofInt w (tagInt t lo hi)

/-- Place a field's bits in a frame image (R200, R201). -/
def putField (bs : List Byte) (f : TplField) (v : Nat) : List Byte :=
  if f.fmt == 17 then overlayB bs f.off (leBytes 1 (setBits (fieldB bs f.off 1) f.bitpos f.bitpos (v % 2)))
  else
    let n := fmtSize f.fmt
    overlayB bs f.off (if fmtBig f.fmt then beBytes n v else leBytes n v)

/-- The bits a field writes at staging: its tag's, or FS_VALUE by QACT (R200, R201). -/
def State.stageField (s : State) (f : TplField) : Nat :=
  let t := s.tag f.tag
  let c := qclass t.qual
  if (f.qact == 1 && c == 0) || (f.qact == 2 && c != 2) then f.fs else fieldBits f.fmt t

/-- The frame a template stages (R200). -/
def State.stageTemplate (s : State) (t : Template) : List Byte :=
  t.fields.foldl (fun bs f => putField bs f (s.stageField f)) t.image

/-- The frame a template sends in fail-safe (R107, R201). -/
def failsafeFrame (t : Template) : List Byte := t.fields.foldl (fun bs f => putField bs f f.fs) t.image

/-- The templates of a grove: those of the ports it holds (R199). -/
def State.templatesOf (s : State) (g : Nat) : List (Nat × Template) :=
  s.field.templates.filter fun e => s.groveOfPort e.2.port == some g

/-- Staging work of a template, in units (R202). -/
def templateWork (t : Template) : Nat := 32 + 2 * t.fields.length

def State.setTemplate (s : State) (i : Nat) (t : Template) : State :=
  s.modField fun f => { f with templates := mapPut f.templates i t }

/-- The template staging of a grove's commit: its due templates fill their free buffer (R96, R97, R200). -/
def State.stageTemplates (s : State) (g : Nat) : State :=
  s.each ((s.templatesOf g).filter fun e => s.due e.2.cls) fun s e =>
    s.setTemplate e.1 { e.2 with prev := none, filling := some { frame := s.frameNo, bytes := s.stageTemplate e.2 } }

/-- The grove's buffers complete, or are abandoned (R97, R105). -/
def State.endTemplates (s : State) (g : Nat) (ok : Bool) : State :=
  s.each (s.templatesOf g) fun s e =>
    match e.2.filling with
    | none => s
    | some b => s.setTemplate e.1 { e.2 with
        filling := none, prev := if ok then e.2.last else none, last := if ok then some b else e.2.last }

/-- A template frame is lost (R204). -/
def State.tplDrop (s : State) (p n : Nat) : State :=
  if n == 0 then s else (s.count (Fd.FP_PORT_TPL_DROP_CNT.COUNT p) n).raise Fd.FP_STAT.TPL_DROP

/-- A frame enters a TC queue of a port. -/
def State.enqueue (s : State) (p tc : Nat) (f : TxFrame) : State :=
  s.modPort p fun x => { x with queues := mapSet [] x.queues tc (mapGet [] x.queues tc ++ [f]) }

/-- The frame with an R-TAG after its source address and C-tag (R208). -/
def insertRtag (bs : List Byte) (seq : Nat) : List Byte :=
  let o := if beNat (sliceB bs 12 2) == 0x8100 then 16 else 12
  bs.take o ++ beBytes 2 0xF1C1 ++ beBytes 2 0 ++ beBytes 2 seq ++ bs.drop o

/-- Release one frame of a template on one port, or lose it when the link is down (R203, R204). -/
def State.releaseOn (s : State) (p i tc : Nat) (bs : List Byte) : State :=
  if s.portUp p then s.enqueue p tc { kind := .template i, bytes := bs } else s.tplDrop p 1

/-- Are the releases of frame `k` in fail-safe: it was entered before this frame's D, or ended in this frame (R107, R108)? -/
def State.fsRelease (s : State) (g k : Nat) : Bool :=
  (s.failsafe g && (s.grv g).fsAfter != some k) || (s.grv g).fsLeft == some k

/-- The buffer a release of frame `k` sends: that of the last commit completed before it (R97). -/
def committed (k : Nat) (t : Template) : Option (List Byte) :=
  match t.last, t.prev with
  | some b, p => if b.frame < k then some b.bytes else p.map (·.bytes)
  | none, _ => none

/-- What a template sends at a release, by the state of its grove (R97, R107, R110, R278); nothing after a takeover until the next tick
(R298), and nothing once the grove has heard that it is deposed (R299). -/
def State.releaseBytes (s : State) (k : Nat) (t : Template) : Option (List Byte) :=
  match s.groveOfPort t.port with
  | none => none
  | some g =>
    let st := s.gstate g
    if (st == stStandby && !(s.grv g).relFrame) || (s.grv g).ask == .depose || (s.grv g).noRelease == some k then none
    else if st == stStandby || st == stRunning || st == stFrozen
      then (if s.fsRelease g k then some (failsafeFrame t) else committed k t)
    else some (failsafeFrame t)

/-- Release one template: on its port, or on both ports of a CB pair with one sequence number (R203, R208). -/
def State.sendTemplate (s : State) (i tc : Nat) (t : Template) (bs : List Byte) : State :=
  if s.portCb t.port then
    let k := t.port / 2 * 2
    let bs := insertRtag bs t.seq
    ((s.releaseOn k i tc bs).releaseOn (k + 1) i tc bs).setTemplate i { t with seq := (t.seq + 1) % 2 ^ 16 }
  else s.releaseOn t.port i tc bs

def State.releaseTemplate (s : State) (k i : Nat) (t : Template) : State :=
  match s.releaseBytes k t with
  | none => s
  | some bs => s.sendTemplate i t.tc t bs

/-- The frame whose tick the next release follows, with the instant of that tick and the tick index of the frame released: after
the power-fail sequence has stopped the ticks, T(n+1) has come without a frame n+1 (R512, R513). -/
def State.releaseFrame (s : State) : Nat × Nat × Nat :=
  if s.frame.stopped && !s.frameRunning then (s.frameNo + 1, s.tickTime + s.period, s.frame.m)
  else (s.frameNo, s.tickTime, s.frame.m - 1)

/-- Is a normal release of a port still to come? In the power-fail sequence only by w + 4 ms, and not of an abandoned frame. -/
def State.releaseDue (s : State) (p : Nat) : Bool :=
  let (k, t, _) := s.releaseFrame
  (s.frameRunning || (s.frame.stopped && !s.frame.abandoned && s.period != 0)) && k != 0 && (s.port p).released != some k &&
    (!s.frame.stopped || t + s.get (Fd.FP_PORT_OFS.OFS_NS p) ≤ s.power.warnedAt + 4000000)

/-- The release instant of a port: T(n+1) plus its offset, for the templates due in frame n (R203). -/
def State.templateRelease (s : State) (p : Nat) : State :=
  if !s.releaseDue p then s
  else
    let (k, t, m) := s.releaseFrame
    let s := (s.atTime (t + s.get (Fd.FP_PORT_OFS.OFS_NS p))).modPort p fun x => { x with released := some k }
    s.each (s.field.templates.filter fun e => e.2.port == p && s.dueAt m e.2.cls) fun s e => s.releaseTemplate k e.1 e.2

/-- Is the normal release of frame n still to come at T(n+1), before the power-fail release (R513)? -/
def State.lastRelease (s : State) (p : Nat) : Bool :=
  s.frameRunning && !s.frame.abandoned && s.tickTime + s.period + s.get (Fd.FP_PORT_OFS.OFS_NS p) ≤ s.power.warnedAt + 4000000

/-- The power-fail release of a port: every template once with its fail-safe values, in ascending number, after the normal release
and what it queued (R513). -/
def State.powerFailRelease (s : State) (p : Nat) : State :=
  let busy := [6, 7].any fun tc => !(mapGet [] (s.port p).queues tc).isEmpty
  if s.portMode p == 0 || (s.port p).pfReleased || s.releaseDue p || s.lastRelease p || (busy && s.portUp p) then s
  else
    let s := s.modPort p fun x => { x with pfReleased := true }
    let s := s.iff (s.portCb p) fun s => s.modPort (p / 2 * 2 + 1 - p % 2) fun x => { x with pfReleased := true }
    s.each (s.field.templates.filter fun e => e.2.port == p || (s.portCb p && e.2.port / 2 == p / 2)) fun s e =>
      s.sendTemplate e.1 7 e.2 (failsafeFrame e.2)

/-! ### Gates and queues (R205-R207) -/

def State.gateMask (s : State) (p i : Nat) : Nat := bits (s.reg (Rg.FP_GCL p i)) 7 0
def State.gateNs (s : State) (p i : Nat) : Nat := bits (s.reg (Rg.FP_GCL p i)) 31 8 * 8
def State.gateEntry (s : State) (p : Nat) : Nat := s.get (Fd.FP_PORT_GATE.ENTRY p)

/-- The entry in force ends and the next comes into force; the first begins with the first gate cycle (R206). -/
def State.gateChange (s : State) (p : Nat) : State :=
  let n := s.get (Fd.FP_PORT_GATE.GCL_COUNT p)
  if n == 0 || !s.frameRunning then s
  else match (s.port p).gateAt with
    | none =>
      let t := s.tickTime + s.get (Fd.FP_PORT_OFS.OFS_NS p)
      ((s.set (Fd.FP_PORT_GATE.ENTRY p) 0).modPort p fun x => { x with gateAt := some t }).atTime t
    | some t0 =>
      let i := s.gateEntry p
      let t := t0 + s.gateNs p i
      ((s.set (Fd.FP_PORT_GATE.ENTRY p) ((i + 1) % n)).modPort p fun x => { x with gateAt := some t }).atTime t

/-- The instant at which an open gate closes, looking at most `k` entries ahead; none when it never does. -/
def State.gateCloses (s : State) (p tc : Nat) : Nat → Nat → Nat → Option Nat
  | 0, _, _ => none
  | k + 1, i, t =>
    if bitOf (s.gateMask p i) tc then
      s.gateCloses p tc k ((i + 1) % max 1 (s.get (Fd.FP_PORT_GATE.GCL_COUNT p))) (t + s.gateNs p i)
    else some t

/-- May a queue start a frame now (R207)? Before the first gate cycle entry 0 is in force and does not end; the power-fail release
ignores the gate list (R513). -/
def State.mayStart (s : State) (p tc : Nat) (f : TxFrame) : Bool :=
  let i := s.gateEntry p
  (s.port p).pfReleased ||
  bitOf (s.gateMask p i) tc &&
  match (s.port p).gateAt with
  | none => true
  | some t0 =>
    match s.gateCloses p tc (s.get (Fd.FP_PORT_GATE.GCL_COUNT p)) i t0 with
    | none => true
    | some close => s.now + s.wireNs p (wireBytes f.bytes) ≤ close

/-- An 802.1AS message of a port (R192, R211; its bytes are the standard's, log 14). -/
def State.ptpFrame (s : State) (p msg seq logInt flags : Nat) (body : List Byte) : List Byte :=
  let mac := s.portMac p
  let clock := beBytes 3 (mac / 2 ^ 24) ++ beBytes 2 0xFFFE ++ beBytes 3 (mac % 2 ^ 24)
  let control := if msg == 0 then 0 else if msg == 8 then 2 else 5
  let b := beBytes 6 0x0180C200000E ++ beBytes 6 mac ++ beBytes 2 0x88F7 ++
    beBytes 1 (0x10 + msg) ++ beBytes 1 0x02 ++ beBytes 2 (34 + body.length) ++ beBytes 2 0 ++ beBytes 2 flags ++ beBytes 8 0 ++
    beBytes 4 0 ++ clock ++ beBytes 2 (p + 1) ++ beBytes 2 seq ++ beBytes 1 control ++ beBytes 1 (logInt % 256) ++ body
  b ++ List.replicate (60 - b.length) 0

/-- A PTP timestamp: 48-bit seconds and 32-bit nanoseconds. -/
def ptpTime (ns : Nat) : List Byte := beBytes 6 (ns / 1000000000) ++ beBytes 4 (ns % 1000000000)

/-- The sequenceId of a message, and the requestingPortIdentity of a Pdelay_Resp. -/
def ptpSeq (bs : List Byte) : Nat := beNat (sliceB bs 44 2)
def ptpRequester (bs : List Byte) : List Byte := sliceB bs 58 10

/-- A gPTP message enters TC 5 (R205). -/
def State.ptpSend (s : State) (p msg : Nat) (bs : List Byte) : State := s.enqueue p 5 { kind := .ptp msg, bytes := bs }

/-- `LOG_SYNC` as the signed byte of a message. -/
def State.logSync (s : State) : Nat := s.get Fd.FP_TIME_CFG.LOG_SYNC + (if s.get Fd.FP_TIME_CFG.LOG_SYNC ≥ 8 then 240 else 0)

/-- What the transmit timestamp of an event message is for (R192, R211): the Follow_Up of a Sync, the Pdelay_Resp_Follow_Up of a Pdelay_Resp,
the start of a peer delay measurement. -/
def State.ptpSent (s : State) (p : Nat) (f : TxFrame) (stamp : Nat) : State :=
  match f.kind with
  | .ptp 0 =>
    let tlv := beBytes 2 3 ++ beBytes 2 28 ++ beBytes 3 0x0080C2 ++ beBytes 3 1 ++ List.replicate 22 0
    s.ptpSend p 8 (s.ptpFrame p 8 (ptpSeq f.bytes) s.logSync 0x0008 (ptpTime stamp ++ tlv))
  | .ptp 2 => s.modPort p fun x => { x with pdT1 := some stamp }
  | .ptp 3 => s.ptpSend p 10 (s.ptpFrame p 10 (ptpSeq f.bytes) 0x7F 0x0008 (ptpTime stamp ++ ptpRequester f.bytes))
  | _ => s

/-- A TC queue starts its first frame (R203, R207): its transmit timestamp is that of the octet after the start-frame delimiter at
the reference plane, to within the error of R190. -/
def State.queueTransmit (s : State) (p tc : Nat) : State :=
  let x := s.port p
  match mapGet [] x.queues tc, x.wire with
  | f :: rest, none =>
    if s.portUp p && s.mayStart p tc f then
      let stamp := s.near (s.now + s.wireNs p 8 + s.get (Fd.FP_PORT_LAT.TX_EXT p)) (s.stampError p)
      ((s.drawn).modPort p fun y => { y with queues := mapSet [] y.queues tc rest, wire := some f, wireAt := stamp }).ptpSent p f stamp
    else s
  | _, _ => s

/-! ### Links (R189, R204) -/

/-- LINK changes: the port's flag, the bitmap, the change flags and the doorbell (card "Link down"). -/
def State.linkChange (s : State) (p : Nat) (up : Bool) : State :=
  let s := (s.set (Fd.FP_PORT_STAT.LINK p) (b2n up)).raise (Fd.FP_PORT_STAT.LINK_CHG p)
  let w := Rg.FP_LINK (p / 32)
  let s := s.setReg w (setBits (s.reg w) (p % 32) (p % 32) (b2n up))
  (s.raise Fd.FP_STAT.LINK_CHG).pulse (s.get Fd.FP_IRQ_SRC.LINK_SRC)

def isTemplateFrame (f : TxFrame) : Bool :=
  match f.kind with
  | .template _ => true
  | _ => false

/-- A port loses link: waiting and cut-off template frames are lost (R204). -/
def State.fieldDown (s : State) (p : Nat) : State :=
  if !s.portUp p then s
  else
    let x := s.port p
    let waiting := x.queues.foldl (fun acc e => acc + (e.2.filter isTemplateFrame).length) 0
    let cut := match x.wire with
      | some f => b2n (isTemplateFrame f)
      | none => 0
    let s := s.modPort p fun y => { y with
      queues := (y.queues.map fun e => (e.1, e.2.filter fun f => !isTemplateFrame f)).filter (fun e => !e.2.isEmpty)
      wire := none }
    ((s.lower (Fd.FP_PORT_STAT.AN_DONE p)).tplDrop p (waiting + cut)).linkChange p false

/-- A held port's link comes up (R189); auto-negotiation is an option of MODE 1 and 2 and part of MODE 5 (R187). -/
def State.fieldUp (s : State) (p : Nat) : State :=
  if s.portUp p || s.portMode p == 0 || (s.groveOfPort p).isNone || !s.on Fd.CFG_STAT.DONE || s.on Fd.CFG_STAT.SAFE_HOLD then s
  else
    (s.set (Fd.FP_PORT_STAT.AN_DONE p) (b2n (s.portMode p == 5 || ((s.portMode p == 1 || s.portMode p == 2) && s.on (Fd.FP_PORT_CFG.AN p))))).linkChange p true

/-! ### Time synchronisation (R211-R214) -/

def State.ptpRole (s : State) (p : Nat) : Nat := s.get (Fd.FP_PORT_CFG.PTP p)

/-- The sync interval in ns: 2^LOG_SYNC s, LOG_SYNC −3 to 0. -/
def State.syncNs (s : State) : Nat := 1000000000 / 2 ^ ((16 - s.get Fd.FP_TIME_CFG.LOG_SYNC) % 16)

/-- Clamp to ±100,000 ppb. -/
def clampRate (x : Int) : Int := if x > 100000 then 100000 else if x < -100000 then -100000 else x

/-- The step of the counter at the first valid Sync (R79, R213). -/
def State.stepSync (s : State) (o : Int) : State := s.setTime ((s.now : Int) - o).toNat

/-- A valid Sync on the slave port of a device whose time source it is (R212-R214); only a device that acts as Taproot takes time
from it (R245). -/
def State.syncReceived (s : State) (p : Nat) (m : SyncMsg) : State :=
  if s.ptpRole p != 2 || !s.on Fd.FP_TIME_CFG.AS_SOURCE || !s.portUp p || s.get Fd.CAS_TIME_STAT.ROLE != 1 then s
  else
    let o : Int := (m.rx.toNat : Int) - (m.origin.toNat + (s.port p).pdelay : Nat)
    let s := s.set Fd.TIME_STAT.SOURCE 2
    if !s.field.stepped then
      let s := s.stepSync o
      s.modField fun f => { f with stepped := true, lastSync := some s.now }
    else
      let good := o.natAbs ≤ 100
      let n := if good then s.field.goodSyncs + 1 else 0
      let s := s.set Fd.FP_TIME_OFS.OFS_NS (satInt 32 o)
      let s := s.set Fd.TIME_RATE.PPB (ofInt 32 (clampRate (quotFree (8 * m.freq - o) 8)))
      let s := s.lower Fd.TIME_STAT.HOLDOVER
      let s := s.modField fun f => { f with goodSyncs := min n 8, lastSync := some s.now }
      if 8 ≤ n then s.raise Fd.TIME_STAT.ACQUIRED else s

/-- No valid Sync for three intervals after acquisition (R214). -/
def State.fieldTimeLost (s : State) : State :=
  match s.field.lastSync with
  | none => s
  | some t =>
    if !s.on Fd.FP_TIME_CFG.AS_SOURCE || !s.on Fd.TIME_STAT.ACQUIRED || s.on Fd.TIME_STAT.HOLDOVER then s
    else
      let s := (s.atTime (t + 3 * s.syncNs)).raise Fd.TIME_STAT.HOLDOVER
      (s.raise Fd.FP_STAT.TIME_LOSS).pulse (s.get Fd.FP_IRQ_SRC.TIME_SRC)

def State.isMaster (s : State) (p : Nat) : Bool := s.ptpRole p == 1 && s.portUp p

/-- Sync of a master port (R211); its Follow_Up goes out with its transmit timestamp. -/
def State.syncTransmit (s : State) (p : Nat) : State :=
  if !s.isMaster p then s
  else
    let q := (s.port p).syncSeq
    let s := s.ptpSend p 0 (s.ptpFrame p 0 q s.logSync 0x0208 (List.replicate 10 0))
    s.modPort p fun x => { x with syncSeq := (q + 1) % 2 ^ 16 }

/-- Announce of a master port: clockClass 6 while time is acquired from a source (R211). -/
def State.announceTransmit (s : State) (p : Nat) : State :=
  if !s.isMaster p then s
  else
    let q := (s.port p).annSeq
    let mac := s.portMac p
    let clock := beBytes 3 (mac / 2 ^ 24) ++ beBytes 2 0xFFFE ++ beBytes 3 (mac % 2 ^ 24)
    let cc := if s.on Fd.TIME_STAT.ACQUIRED && s.on Fd.TIME_STAT.SOURCE then 6 else 248
    let body := List.replicate 10 0 ++ beBytes 2 0 ++ beBytes 1 0 ++ beBytes 1 (s.get Fd.FP_TIME_CFG.PRIORITY1) ++ beBytes 1 cc ++
      beBytes 1 0xFE ++ beBytes 2 0xFFFF ++ beBytes 1 (s.get Fd.FP_TIME_CFG.PRIORITY2) ++ clock ++ beBytes 2 0 ++ beBytes 1 0xA0 ++
      beBytes 2 8 ++ beBytes 2 8 ++ clock
    (s.ptpSend p 11 (s.ptpFrame p 11 q 0 0x0008 body)).modPort p fun x => { x with annSeq := (q + 1) % 2 ^ 16 }

/-- Pdelay_Req of the slave port (R211); t1 is its transmit timestamp. -/
def State.pdelayReq (s : State) (p : Nat) : State :=
  if s.ptpRole p != 2 || !s.portUp p then s
  else
    let q := ((s.port p).pdSeq + 1) % 2 ^ 16
    (s.ptpSend p 2 (s.ptpFrame p 2 q 0 0x0008 (List.replicate 20 0))).modPort p fun x => { x with pdSeq := q, pdT1 := none }

/-- A master port answers a Pdelay_Req of a port with identity `clock`, `num` (R211): the Pdelay_Resp names it, and its Follow_Up goes out with
its transmit timestamp. -/
def State.pdelayAnswer (s : State) (p seq rx clock num : Nat) : State :=
  if !s.isMaster p then s
  else s.ptpSend p 3 (s.ptpFrame p 3 seq 0x7F 0x0208 (ptpTime rx ++ beBytes 8 clock ++ beBytes 2 num))

/-- A Pdelay_Resp completes a peer delay measurement (R211). -/
def State.pdelayDone (s : State) (p : Nat) (m : PdelayMsg) : State :=
  match (s.port p).pdT1 with
  | none => s
  | some t1 =>
    if s.ptpRole p != 2 then s
    else
      let d : Int := ((m.t4.toNat : Int) - t1) - ((m.t3.toNat : Int) - m.t2.toNat)
      s.modPort p fun x => { x with pdT1 := none, pdelay := (quotFree d 2).toNat }

/-- `FP_CTL.CNT_CLR`. -/
def State.fpCntClr (s : State) : State :=
  { s with regs := s.regs.filter fun e =>
      !(Rg.FP_PORT_RX_CNT 0 ≤ e.1 && e.1 < Rg.FP_PORT_RX_CNT 72 && 0x14 ≤ e.1 % 128 && e.1 % 128 < 0x2C) }

end Sys2Proof.Machine
end

