-- ==== Sys2Proof/Machine/Image.lean ====
section
/-! DEFINITION. The configuration image (2.3): header, directory, sections and records, and the checks of R59 that look at its form
(steps 3 to 12). The records of each section are read by the accessors here and by the semantic and admission checks. -/

namespace Sys2Proof.Machine

/-! ### Header, directory, trailer (R52-R57) -/

def imgMagic (b : List Byte) : Nat := fieldB b 0 4
def imgFormat (b : List Byte) : Nat := fieldB b 4 2
def imgEnc (b : List Byte) : Bool := bitOf (fieldB b 6 2) 0
def imgLength (b : List Byte) : Nat := fieldB b 8 4
def imgArb (b : List Byte) : Nat := fieldB b 0x0C 2
def imgId (b : List Byte) : Nat := fieldB b 0x18 8
def imgKey (b : List Byte) : Nat := fieldB b 0x20 1

/-- Step 5: LENGTH, NSECT, FLAGS and the reserved bytes of the header (R52). -/
def headerOk (cap : Nat) (b : List Byte) : Bool :=
  imgLength b % 64 == 0 && 0x200 ≤ imgLength b && imgLength b ≤ cap && fieldB b 0x0E 2 == 8 && fieldB b 6 2 < 2 && zeroB b 0x21 31

/-- Directory entry i: TYPE, OFFSET, SIZE, CRC (R53). -/
def dirType (b : List Byte) (i : Nat) : Nat := fieldB b (0x40 + 16 * i) 1
def dirOff (b : List Byte) (i : Nat) : Nat := fieldB b (0x44 + 16 * i) 4
def dirSize (b : List Byte) (i : Nat) : Nat := fieldB b (0x48 + 16 * i) 4
def dirCrc (b : List Byte) (i : Nat) : Nat := fieldB b (0x4C + 16 * i) 4

/-- The record size of a section type (R57). -/
def recSize (ty : Nat) : Nat :=
  match ty with
  | 1 => 32
  | 2 => 256
  | 3 => 64
  | 4 => 64
  | 5 => 32
  | 6 => 32
  | 7 => 16
  | _ => 1

/-- The section header at an offset agrees with the entry (R57). -/
def sectionHeadOk (b : List Byte) (ty off size : Nat) : Bool :=
  let h := sliceB b off 16
  fieldB h 0 4 == recSize ty && fieldB h 8 2 == 1 && zeroB h 10 6 && size == roundUp (16 + fieldB h 0 4 * fieldB h 4 4) 16

/-- Directory entry i is valid by itself and after the entries before it (R53, R57). -/
def dirOk (b : List Byte) (i : Nat) : Bool :=
  let off := dirOff b i
  let size := dirSize b i
  1 ≤ dirType b i && dirType b i ≤ 8 && zeroB b (0x41 + 16 * i) 3 && off % 64 == 0 && 0x100 ≤ off && size % 16 == 0 && 16 ≤ size &&
    off + size ≤ imgLength b - 128 && !(List.range i).any (fun j => dirType b j == dirType b i) &&
    (i == 0 || dirOff b (i - 1) + dirSize b (i - 1) ≤ off) && sectionHeadOk b (dirType b i) off size

/-- The bytes of a section of a plain image. -/
def sectionBytes (b : List Byte) (ty : Nat) : List Byte :=
  match (List.range 8).find? fun i => dirType b i == ty with
  | some i => sliceB b (dirOff b i) (dirSize b i)
  | none => []

/-- Step 12: the first section, in ascending type, whose CRC is wrong. -/
def badCrc (b : List Byte) : Option Nat :=
  (List.range 8).map (· + 1) |>.find? fun ty =>
    (List.range 8).any fun i => dirType b i == ty && crc32c (sectionBytes b ty) != dirCrc b i

/-- `n` records of `size` bytes. -/
def chunk (size : Nat) : Nat → List Byte → List (List Byte)
  | 0, _ => []
  | n + 1, bs => sliceB bs 0 size :: chunk size n (bs.drop size)

/-- The records of a section. -/
def sectionRecs (b : List Byte) (ty : Nat) : List (List Byte) :=
  let s := sectionBytes b ty
  chunk (recSize ty) (fieldB s 4 4) (s.drop 16)

/-! ### The records of an image -/

/-- The records of the eight sections. -/
structure Img where
  sys     : List (List Byte)
  groves  : List (List Byte)
  frames  : List (List Byte)
  tags    : List (List Byte)
  strands : List (List Byte)
  maps    : List (List Byte)
  splices : List (List Byte)
  code    : List Byte

def Img.of (b : List Byte) : Img where
  sys := sectionRecs b 1
  groves := sectionRecs b 2
  frames := sectionRecs b 3
  tags := sectionRecs b 4
  strands := sectionRecs b 5
  maps := sectionRecs b 6
  splices := sectionRecs b 7
  code := let s := sectionBytes b 8; (s.drop 16).take (fieldB s 4 4)

/-- A list with the index of each element. -/
def indexed {α : Type} (l : List α) : List (Nat × α) := (List.range l.length).zip l

def recAt (l : List (List Byte)) (i : Nat) : List Byte := (l[i]?).getD []

/-! System (R58) -/

def SystemRec.of (r : List Byte) : SystemRec where
  device := fieldB r 0 2
  sizeX := fieldB r 2 1
  sizeY := fieldB r 3 1
  sizeZ := fieldB r 4 1
  taproot := fieldB r 6 2
  standby := fieldB r 8 2
  systemId := fieldB r 0x10 8

/-! Groves (R274, R275) -/

def groveNo (r : List Byte) : Nat := fieldB r 0 1

def GroveRec.of (r : List Byte) : GroveRec where
  exec := bitOf (fieldB r 1 1) 0
  pmcUser := bitOf (fieldB r 1 1) 1
  role := bits (fieldB r 1 1) 3 2
  partner := fieldB r 2 2
  budget := fieldB r 4 4
  cores := fieldB r 8 8
  lanes := fieldB r 0x10 4
  engines := fieldB r 0x14 4
  ports := fieldB r 0x18 16
  tagFirst := fieldB r 0x28 4
  tagCount := fieldB r 0x2C 4
  ctxFirst := fieldB r 0x30 2
  ctxCount := fieldB r 0x32 2
  irqFirst := fieldB r 0x34 2
  irqCount := fieldB r 0x36 2
  sram := fieldB r 0x38 1
  bwShare := fieldB r 0x3A 2
  mem := (List.range 8).map fun i => (fieldB r (0x40 + 4 * i) 4 % 2 ^ 14, bits (fieldB r (0x40 + 4 * i) 4) 29 16)
  trackBase := fieldB r 0x60 8
  trackBytes := fieldB r 0x68 4
  xbufBase := fieldB r 0x70 8
  bootPc := fieldB r 0x78 8
  bootArg := fieldB r 0x80 8
  layoutId := fieldB r 0x88 8

/-- The groves of the image with the index of their grove record. -/
def Img.groveRecs (x : Img) : List (Nat × List Byte) :=
  (indexed x.groves).filter fun e => e.1 % 2 == 1

def Img.groveList (x : Img) : List (Nat × GroveRec) := x.groveRecs.map fun e => (groveNo e.2, GroveRec.of e.2)

/-- A code segment: its header, the grove, the address and the bytes, and whether it lies whole in the stream with its padding of zeros. -/
structure Segment where
  head  : List Byte
  grove : Nat
  addr  : Nat
  bytes : List Byte
  whole : Bool
deriving DecidableEq, Repr

/-- The segments of the code stream (R275); the fuel is the length of the stream. -/
def segments : Nat → List Byte → List Segment
  | 0, _ => []
  | k + 1, bs =>
    if bs.isEmpty then []
    else
      let n := fieldB bs 4 4
      { head := sliceB bs 0 32, grove := fieldB bs 0 1, addr := fieldB bs 8 8, bytes := sliceB bs 32 n,
        whole := 32 + roundUp n 16 ≤ bs.length && zeroB bs (32 + n) (roundUp n 16 - n) } ::
        segments k (bs.drop (32 + roundUp n 16))

def Img.segments (x : Img) : List Segment := Machine.segments x.code.length x.code

/-! Frames (R111-R113) -/

def frmKind (r : List Byte) : Nat := fieldB r 0 1
def Img.timing (x : Img) : List Byte := (x.frames.find? fun r => frmKind r == 1).getD []
def Img.period (x : Img) : Nat := fieldB x.timing 4 4
def Img.guard (x : Img) : Nat := fieldB x.timing 0x10 4
def Img.originNs (x : Img) : Nat := fieldB x.timing 0x14 4
def Img.div (x : Img) (k : Nat) : Nat := fieldB x.timing (6 + 2 * k) 2
def Img.mult (x : Img) (k : Nat) : Nat := multOf (x.div 1) (x.div 2) (x.div 3) k

def Task.of (r : List Byte) : Task where
  grove := fieldB r 1 1
  core := fieldB r 2 1
  cls := fieldB r 3 1
  order := fieldB r 4 2
  ctx := fieldB r 6 2
  budget := fieldB r 8 4
  entry := fieldB r 0x10 8
  arg := fieldB r 0x18 8

def Img.tasks (x : Img) : List (Nat × List Byte) := (indexed x.frames).filter fun e => frmKind e.2 == 3

/-! Tags (R150) -/

def Img.tagDesc (x : Img) : List Byte := recAt x.tags 0
def Img.tagCount (x : Img) : Nat := fieldB x.tagDesc 0 4
def Img.curveCount (x : Img) : Nat := fieldB x.tagDesc 4 2
/-- The record of a tag; an index beyond TAG_COUNT is a zero record. -/
def Img.tagRec (x : Img) (k : Nat) : List Byte := if k < x.tagCount then recAt x.tags (1 + k) else []
def Img.tag (x : Img) (k : Nat) : Tag := Tag.of (sliceB (x.tagRec k) 0 64)

/-! Strands (R184) -/

def Img.strandDesc (x : Img) : List Byte := recAt x.strands 0
def Img.strandCount (x : Img) : Nat := fieldB x.strandDesc 0 4
def Img.instanceCount (x : Img) : Nat := fieldB x.strandDesc 4 4
def Img.callCount (x : Img) : Nat := fieldB x.strandDesc 8 2

def Strand.of (r : List Byte) : Strand where
  lane := fieldB r 0 1
  cls := fieldB r 1 1
  order := fieldB r 2 2
  first := fieldB r 4 4
  count := fieldB r 8 4

def Img.strandRecs (x : Img) : List (List Byte) := (x.strands.drop 1).take x.strandCount
def Img.slotRecs (x : Img) : List (List Byte) := (x.strands.drop (1 + x.strandCount)).take x.callCount
/-- Record index of the first instruction record and of the first state record. -/
def Img.instrBase (x : Img) : Nat := 1 + x.strandCount + x.callCount
def Img.stateBase (x : Img) : Nat := x.instrBase + x.instanceCount
def Img.instrs (x : Img) : List (List Byte) := (x.strands.drop x.instrBase).take x.instanceCount
def Img.states (x : Img) : List (List Byte) := (x.strands.drop x.stateBase).take x.instanceCount
def Img.strandList (x : Img) : List Strand := x.strandRecs.map Strand.of

/-! Port maps (R217) -/

def pmKind (r : List Byte) : Nat := fieldB r 0 1
def Img.pmOf (x : Img) (k : Nat) : List (Nat × List Byte) := (indexed x.maps).filter fun e => pmKind e.2 == k
def prMode (r : List Byte) : Nat := fieldB r 2 1
def prFlags (r : List Byte) : Nat := fieldB r 3 1
def prCb (r : List Byte) : Bool := bitOf (prFlags r) 1
def prPtp (r : List Byte) : Nat := bits (prFlags r) 5 4
def prOffset (r : List Byte) : Nat := fieldB r 4 4
def prMaxlen (r : List Byte) : Nat := fieldB r 8 2
def prCdiv (r : List Byte) : Nat := fieldB r 0x0A 1
def prGcl (r : List Byte) : Nat := fieldB r 0x0B 1
def prDma (r : List Byte) : Nat := fieldB r 0x10 2
def prPort (r : List Byte) : Nat := fieldB r 1 1
/-- The port record of a port. -/
def Img.portRec (x : Img) (p : Nat) : Option (Nat × List Byte) := (x.pmOf 5).find? fun e => prPort e.2 == p
/-- The gate entries of a port in ascending INDEX: mask and interval in ns. -/
def Img.gates (x : Img) (p : Nat) : List (Nat × Nat) :=
  (isort (fun e => fieldB e.2 2 1) ((x.pmOf 6).filter fun e => prPort e.2 == p)).map fun e => (fieldB e.2 3 1, fieldB e.2 4 4 * 8)

/-- A template of the image: the index of its header, its data records and its field records. -/
structure ImgTpl where
  idx    : Nat
  head   : List Byte
  data   : List (Nat × List Byte)
  fields : List (Nat × List Byte)

def tplLen (r : List Byte) : Nat := fieldB r 4 2

/-- The templates: each header with the data and field records that follow it. -/
def imgTpls : List (Nat × List Byte) → List ImgTpl
  | [] => []
  | (i, r) :: rest =>
    let body := rest.takeWhile fun e => pmKind e.2 == 3 || pmKind e.2 == 4
    let ts := imgTpls rest
    if pmKind r == 2 then { idx := i, head := r, data := body.filter fun e => pmKind e.2 == 3, fields := body.filter fun e => pmKind e.2 == 4 } :: ts
    else ts

def Img.tpls (x : Img) : List ImgTpl := imgTpls (indexed x.maps)

def TplField.of (r : List Byte) : TplField where
  fmt := fieldB r 1 1
  off := fieldB r 4 2
  bitpos := fieldB r 6 1
  qact := fieldB r 7 1
  tag := fieldB r 8 2
  fs := fieldB r 0x10 8

/-- The template of its records. -/
def ImgTpl.template (t : ImgTpl) : Template where
  port := fieldB t.head 1 1
  cls := fieldB t.head 6 1
  tc := fieldB t.head 7 1
  image := sliceB (t.data.foldl (fun bs e => overlayB bs (fieldB e.2 4 2) (sliceB e.2 8 24)) []) 0 (tplLen t.head)
  fields := t.fields.map fun e => TplField.of e.2

def ImgTpl.number (t : ImgTpl) : Nat := fieldB t.head 2 2

/-! Splice lists (R266) -/

def spKind (r : List Byte) : Nat := fieldB r 0 1
def Img.spOf (x : Img) (k : Nat) : List (Nat × List Byte) := (indexed x.splices).filter fun e => spKind e.2 == k
def Img.spDescA (x : Img) : List Byte := recAt x.splices 0
def Img.spDescB (x : Img) : List Byte := recAt x.splices 1
def Img.planId (x : Img) : Nat := fieldB x.spDescA 8 8
def Img.maxLat (x : Img) : Nat := fieldB x.spDescB 4 4
def Img.publish (x : Img) : List (Nat × List Byte) := x.spOf 3
def Img.subscribe (x : Img) : List (Nat × List Byte) := x.spOf 4
def spPort (r : List Byte) : Nat := fieldB r 1 1
def spEn (r : List Byte) : Bool := bitOf (fieldB r 2 1) 0
def spDetour (r : List Byte) : Nat := bits (fieldB r 2 1) 2 1
def spSide (r : List Byte) : Nat := bits (fieldB r 2 1) 5 3
def spAsym (r : List Byte) : Nat := fieldB r 4 2
def spLoad (r : List Byte) : Nat := fieldB r 6 2
def Img.hawserRec (x : Img) (p : Nat) : List Byte :=
  match (x.spOf 2).find? fun e => spPort e.2 == p with
  | some e => e.2
  | none => []

/-! ### Groves, instances and sizes, for an image and for a running device alike -/

/-- The exchange entries an instance writes: its outputs, or the line of a delay block (R292). -/
def exchWritten (instr state : List Byte) : List Nat :=
  let line := instrOp instr == 0x0A || instrOp instr == 0x0B
  let outs := (if line then [4] else [4, 5]).flatMap fun i => match instrOpnd instr i with
    | some (.exch e) => [e]
    | _ => []
  outs ++ (if line then (List.range (min 4096 (fieldB state 0 4))).map (lineBase instr + ·) else [])

/-- The exchange entries an instance reads. -/
def exchRead (instr state : List Byte) : List Nat :=
  let line := instrOp instr == 0x0A || instrOp instr == 0x0B
  ((List.range 4).flatMap fun i => match instrOpnd instr i with
    | some (.exch e) => [e]
    | _ => []) ++
  (if line then (List.range (min 4096 (fieldB state 0 4))).map (lineBase instr + ·) else [])

/-- Keep one of each. -/
def nub (l : List Nat) : List Nat := l.foldl (fun acc a => if acc.contains a then acc else acc ++ [a]) []

/-- The strands of a grove's lanes. -/
def strandsOf (r : GroveRec) (l : List Strand) : List Strand := l.filter fun st => bitOf r.lanes st.lane

/-- The instances of a grove's strands, in ascending order (R292). -/
def instancesOf (r : GroveRec) (l : List Strand) : List Nat :=
  isort id ((strandsOf r l).flatMap fun st => (List.range st.count).map (st.first + ·))

/-- F of R292. -/
def frameSize (r : GroveRec) (instances exchange : Nat) : Nat :=
  192 + 32 * r.tagCount + 32 * instances + 8 * exchange + r.trackBytes

/-- The size of the full image (R292). -/
def fullSize (r : GroveRec) (instances exchange : Nat) : Nat :=
  frameSize r instances exchange + 1024 * r.ctxCount + 1024 * (bitsSet 32 r.engines).length + 4 * r.irqCount +
    256 * (bitsSet 64 r.cores).length + grain * (bitsSet 5 r.sram).length

end Sys2Proof.Machine
end

