-- ==== Sys2Proof/Machine/Checks.lean ====
section
/-! DEFINITION. The semantic checks of step 13 (R61, R114, R151, R185, R218, R245, R267, R276, R343, R433, R477): each section's
function gives the record indices that fail, and R542 picks the one that is reported. -/

namespace Sys2Proof.Machine

/-- The index of a record that breaks a check. -/
def bad (c : Bool) (i : Nat) : List Nat := if c then [i] else []

def overlaps (a n b m : Nat) : Bool := a < b + m && b < a + n && n != 0 && m != 0

/-- Wrong number of records: the first one too many, or one beyond the last (R542). -/
def countBad (have_ want : Nat) : List Nat := if have_ == want then [] else [min have_ want]

/-- Is class k in use (R81)? -/
def Img.clsOk (x : Img) (k : Nat) : Bool := k < 4 && x.mult k != 0

/-! ### Interrupt sources of the image -/

/-- (section, first source, count). -/
def Img.sources (x : Img) : List (Nat × Nat × Nat) :=
  let g := recAt x.groves 0
  [(2, fieldB g 2 2, 1), (2, fieldB g 4 2, 64), (3, fieldB x.timing 0x18 2, 1), (3, fieldB x.timing 0x1A 2, 128),
   (4, fieldB x.tagDesc 0x0C 2, 1), (4, fieldB x.tagDesc 0x0E 2, 64),
   (5, fieldB x.strandDesc 0x0A 2, 1), (5, fieldB x.strandDesc 0x0C 2, x.callCount),
   (6, fieldB (recAt x.maps 0) 2 2, 1), (6, fieldB (recAt x.maps 0) 4 2, 1),
   (7, fieldB x.spDescA 2 2, 1), (7, fieldB x.spDescA 4 2, 1), (7, fieldB x.spDescA 6 2, 64)]

/-- Does a source of a section coincide with another source of the image? Each section's check is charged to its own descriptor
(R542, log 19). -/
def Img.clash (x : Img) (ty : Nat) : Bool :=
  let l := indexed x.sources
  l.any fun a => a.2.1 == ty && l.any fun b => a.1 != b.1 && overlaps a.2.2.1 a.2.2.2 b.2.2.1 b.2.2.2

/-! ### System and groves -/

def failSystem (x : Img) : List Nat :=
  let r := recAt x.sys 0
  let y := SystemRec.of r
  countBad x.sys.length 1 ++
  bad (!(1 ≤ y.sizeX && y.sizeX ≤ 8 && 1 ≤ y.sizeY && y.sizeY ≤ 8 && 1 ≤ y.sizeZ && y.sizeZ ≤ 16 && zeroB r 5 1 && zeroB r 0x0A 6 &&
    zeroB r 0x18 8 && y.holds y.device && y.holds y.taproot && y.holds y.standby)) 0

/-- Do two groves share a unit (R269)? -/
def sharesUnit (a b : GroveRec) : Bool :=
  a.cores &&& b.cores != 0 || a.lanes &&& b.lanes != 0 || a.engines &&& b.engines != 0 || a.ports &&& b.ports != 0 ||
  a.sram &&& b.sram != 0 || overlaps a.tagFirst a.tagCount b.tagFirst b.tagCount ||
  overlaps a.ctxFirst a.ctxCount b.ctxFirst b.ctxCount || overlaps a.irqFirst a.irqCount b.irqFirst b.irqCount ||
  a.mem.any fun e => b.mem.any fun f => overlaps e.1 e.2 f.1 f.2

/-- The context area of a grove: start and size (R343). -/
def GroveRec.ctxArea (r : GroveRec) : Nat × Nat :=
  ((match r.mem with
    | e :: _ => e.1 * grain
    | [] => 0), 1024 * r.ctxCount)

/-- The fields of a grove record that need no other record (R274, R276); `created` for a record of CREATE. -/
def groveFields (y : SystemRec) (period guard : Nat) (created : Bool) (r : List Byte) : Bool :=
  let g := GroveRec.of r
  groveNo r < 64 && fieldB r 1 1 < 16 && g.role < 3 && zeroB r 0x39 1 && zeroB r 0x6C 4 && zeroB r 0x90 112 &&
  (created || zeroB r 0x3C 4) &&
  (if g.role == 0 then g.partner == 0 else y.holds g.partner && g.partner != y.device && !g.exec) &&
  (!created || (g.role == 0 && !g.exec)) &&
  g.budget ≤ period - guard && g.cores != 0 && g.ports < 2 ^ 72 &&
  g.tagFirst % 16 == 0 && g.tagCount % 16 == 0 && g.tagFirst + g.tagCount ≤ 65536 &&
  g.ctxFirst % 16 == 0 && g.ctxCount % 16 == 0 && 16 ≤ g.ctxCount && g.ctxFirst + g.ctxCount ≤ 16384 &&
  g.irqFirst % 16 == 0 && g.irqCount % 16 == 0 && g.irqFirst + g.irqCount ≤ 4096 &&
  g.sram < 32 && g.bwShare ≤ 1024 &&
  (List.range 8).all (fun i =>
    let w := fieldB r (0x40 + 4 * i) 4
    bits w 15 14 == 0 && bits w 31 30 == 0 && (bits w 29 16 == 0 || bits w 13 0 + bits w 29 16 ≤ 16256)) &&
  g.trackBase % 64 == 0 && g.trackBytes % 64 == 0 && g.trackBytes ≤ 0x40_0000 && (g.xbufBase == 0 || g.role == 2)

/-- What a grove record says of its own memory (R276, R343), with its frame image size F. -/
def groveMemory (period guard f : Nat) (g : GroveRec) : Bool :=
  let (ca, cn) := g.ctxArea
  g.holds g.bootPc 1 && !overlaps g.bootPc 1 ca cn &&
  (g.trackBytes == 0 || (g.holds g.trackBase g.trackBytes && !overlaps g.trackBase g.trackBytes ca cn)) &&
  (match g.mem with
   | e :: _ => cn ≤ e.2 * grain
   | [] => false) &&
  (g.role != 2 || (g.holds g.xbufBase (2 * f) && !overlaps g.xbufBase (2 * f) g.trackBase g.trackBytes &&
    ceilDiv f 32 * 5 ≤ (period - guard) * 6))

/-- A firewall word (R284). -/
def fwWordOk (w : Nat) : Bool :=
  bits w 11 4 == 0 && (!bitOf w 0 || (bits w 63 40 != 0 && bits w 39 12 * 4096 + bits w 63 40 * 4096 ≤ 2 ^ 40))

def fwRecordOk (r : List Byte) : Bool := (List.range 32).all fun i => fwWordOk (fieldB r (8 * i) 8)

/-- The instances of a grove of the image, with the exchange entries they write. -/
def Img.instancesOf (x : Img) (g : GroveRec) : List Nat := Machine.instancesOf g x.strandList
def Img.exchOf (x : Img) (g : GroveRec) : List Nat :=
  nub ((x.instancesOf g).flatMap fun b => exchWritten (recAt x.instrs b) (recAt x.states b))

/-- The failing records of the Groves section. Where no grove has EXEC the last grove record is charged (DESIGN CHOICE, log 75). -/
def failGroves (x : Img) : List Nat :=
  let d := recAt x.groves 0
  let n := fieldB d 0 1
  let y := SystemRec.of (recAt x.sys 0)
  let gs := x.groveRecs
  let execs := gs.filter fun e => (GroveRec.of e.2).exec
  bad (!(1 ≤ n && n ≤ 64 && zeroB d 1 1 && fieldB d 2 2 < 4096 && fieldB d 4 2 ≤ 4032 && zeroB d 6 250) || x.clash 2) 0 ++
  countBad x.groves.length (1 + 2 * n) ++
  (if execs.isEmpty then (gs.getLast?.map (·.1)).toList else (execs.drop 1).map (·.1)) ++
  (indexed gs).flatMap fun (k, i, r) =>
    let g := GroveRec.of r
    let earlier := gs.take k
    let f := frameSize g (x.instancesOf g).length (x.exchOf g).length
    let ca := g.ctxArea
    bad (!groveFields y x.period x.guard false r ||
      earlier.any (fun e => groveNo r ≤ groveNo e.2 || sharesUnit (GroveRec.of e.2) g) ||
      1024 < (earlier.map fun e => (GroveRec.of e.2).bwShare).foldl (· + ·) g.bwShare ||
      !groveMemory x.period x.guard f g ||
      x.segments.any (fun sg => sg.grove == groveNo r && overlaps sg.addr sg.bytes.length ca.1 ca.2)) i ++
    bad (!fwRecordOk (recAt x.groves (i + 1))) (i + 1)

def Img.groveRec (x : Img) (g : Nat) : Option GroveRec := (x.groveList.find? (·.1 == g)).map (·.2)
def Img.groveOfLane (x : Img) (l : Nat) : Option Nat := (x.groveList.find? fun e => bitOf e.2.lanes l).map (·.1)
def Img.groveOfPort (x : Img) (p : Nat) : Option Nat := (x.groveList.find? fun e => bitOf e.2.ports p).map (·.1)
def Img.inGrove (x : Img) (g tag : Nat) : Bool := (x.groveRec g).any fun r => inRange r.tagFirst r.tagCount tag

/-! ### Frames -/

/-- A task record by itself and in its grove (R113). -/
def taskOk (g : Option GroveRec) (cls : Nat → Bool) (period guard : Nat) (r : List Byte) : Bool :=
  let t := Task.of r
  frmKind r == 3 && zeroB r 0x0C 4 && zeroB r 0x20 32 && cls t.cls && 1000 ≤ t.budget && t.budget ≤ period - guard && t.ctx < 16384 &&
  match g with
  | some g => t.core < 64 && bitOf g.cores t.core && inRange g.ctxFirst g.ctxCount t.ctx
  | none => false

def timingOk (r : List Byte) : Bool :=
  let p := fieldB r 4 4
  let d (k : Nat) : Nat := fieldB r (6 + 2 * k) 2
  let tick := fieldB r 0x18 2
  let ovr := fieldB r 0x1A 2
  let divOk (k : Nat) : Bool := d k == 0 || (2 ≤ d k && d k ≤ 1000)
  zeroB r 1 3 && zeroB r 0x0E 2 && zeroB r 0x1C 36 && 100000 ≤ p && p ≤ 100000000 && p % 1000 == 0 && fieldB r 0x10 4 < p &&
  fieldB r 0x14 4 < p && divOk 1 && divOk 2 && divOk 3 && !(d 1 == 0 && (d 2 != 0 || d 3 != 0)) && !(d 2 == 0 && d 3 != 0) &&
  tick < 4096 && ovr ≤ 3968 && !overlaps tick 1 ovr 128

def failFrames (x : Img) : List Nat :=
  let l := indexed x.frames
  let n := x.frames.length
  let grovesSeen := l.filter fun e => frmKind e.2 == 2
  bad (!(x.frames.any fun r => frmKind r == 1)) n ++
  bad (x.groveList.any fun e => !grovesSeen.any fun r => fieldB r.2 1 1 == e.1) n ++
  l.flatMap fun (i, r) =>
    let before := l.take i
    let t := Task.of r
    let tasks := before.filter fun e => frmKind e.2 == 3
    match frmKind r with
    | 1 => bad (!timingOk r || before.any (fun e => frmKind e.2 == 1)) i
    | 2 => bad (!zeroB r 3 61 || fieldB r 2 1 == 0 || (x.groveRec (fieldB r 1 1)).isNone ||
        before.any (fun e => frmKind e.2 == 2 && fieldB e.2 1 1 == fieldB r 1 1)) i
    | 3 => bad (!taskOk (x.groveRec t.grove) x.clsOk x.period x.guard r ||
        tasks.any (fun e => (Task.of e.2).ctx == t.ctx || ((Task.of e.2).core == t.core && (Task.of e.2).order == t.order)) ||
        64 ≤ (tasks.filter fun e => (Task.of e.2).core == t.core).length) i
    | _ => [i]

/-! ### Tags -/

/-- The VTYPE and RAW_FMT of a metrology channel; none when it is reserved (R475). -/
def metChannel (c : Nat) : Option (Nat × Nat) :=
  if c < 128 then
    let k := c % 32
    if k < 12 then some (1, 0) else if k < 22 then some (0, 2) else none
  else if c < 144 then (if c % 2 == 0 then some (3, 0) else some (0, 2))
  else if c == 144 then some (4, 0)
  else if c == 145 then some (3, 0)
  else none

/-- Does the writer that BIND names exist and name this tag (R61, R151)? -/
def Img.writerOk (x : Img) (mx : Bool) (k : Nat) (t : Tag) : Bool :=
  match t.wKind with
  | 1 => match (x.pmOf 1)[t.wIndex]? with
    | some (_, m) => meTag m == k && x.groveOfPort (mePort m) == some t.grove
    | none => false
  | 2 => match x.subscribe[t.wIndex]? with
    | some (_, r) => recTag r == k
    | none => false
  | 3 => t.wIndex < x.instanceCount &&
      (x.strandList.find? fun st => inRange st.first st.count t.wIndex).any (fun st => x.groveOfLane st.lane == some t.grove) &&
      [4, 5].any fun i => match instrOpnd (recAt x.instrs t.wIndex) i with
        | some (.tag j _) => j == k
        | _ => false
  | 5 => mx && (metChannel t.wIndex).isSome
  | _ => t.wIndex == 0

def slotRule (t : Tag) : Bool :=
  match t.wKind with
  | 0 => !t.slotEn
  | 3 => !t.slotEn
  | 4 => true
  | _ => t.slotEn

/-- The checks of R151 that every record passes, unused ones included. -/
def Img.tagForm (x : Img) (t : Tag) : Bool :=
  t.legal && x.clsOk t.cls && t.almSt == 0 && (t.wKind != 0 || (t.wIndex == 0 && !t.slotEn))

def Img.tagOk (x : Img) (mx : Bool) (k : Nat) (t : Tag) : Bool :=
  (t.scale == 0 || (t.vtype == 0 && t.wKind == 1)) && (t.almEn &&& almAllowed t.vtype) == t.almEn && x.inGrove t.grove k &&
  x.writerOk mx k t && slotRule t &&
  (List.range 4).all (fun j => !fIsNaN f32 (t.lim j)) && half16Ok t.hyst && half16Ok t.db && half16Ok t.roc && half16Ok t.dev &&
  (match t.scale with
   | 1 => !fIsNaN f32 t.p0 && !fIsNaN f32 t.p1
   | 2 => t.p0 / 1024 == 0 && t.p0 < x.curveCount
   | 3 => !fIsNaN f32 t.p0 && !fIsNaN f32 t.p1 && !(fNeg f32 t.p1 && !fIsZero f32 t.p1)
   | _ => true) &&
  (!bitOf t.almEn 5 || (let r := x.tag t.devRef; (r.wKind == 3 || (r.wKind == 4 && !r.slotEn)) && r.grove == t.grove)) &&
  (t.publish || !x.publish.any fun e => recTag e.2 == k) &&
  (t.wKind != 5 || (metChannel t.wIndex == some (t.vtype, t.rawFmt) && 20000000 ≤ x.mult t.cls * x.period))

def failTags (mx : Bool) (x : Img) : List Nat :=
  let d := x.tagDesc
  let tags := (List.range x.tagCount).map fun k => (k, x.tag k)
  let used := tags.filter fun e => e.2.wKind != 0
  bad (!(1 ≤ x.tagCount && x.tagCount ≤ 65536 && x.curveCount ≤ 1024 && fieldB d 6 1 < 2 && zeroB d 7 1 &&
    (List.range 4).all (fun k => 1 ≤ fieldB d (8 + k) 1 && fieldB d (8 + k) 1 ≤ 127) && fieldB d 0x0C 2 < 4096 &&
    fieldB d 0x0E 2 ≤ 4032 && zeroB d 0x10 48) || x.clash 4) 0 ++
  countBad x.tags.length (1 + x.tagCount + 2 * x.curveCount) ++
  tags.flatMap (fun (k, t) =>
    bad (!x.tagForm t || (t.wKind != 0 && (!x.tagOk mx k t ||
      (t.slotEn && used.any fun e => e.1 < k && e.2.slotEn && e.2.slot == t.slot) ||
      (t.wKind == 5 && used.any fun e => e.1 < k && e.2.wKind == 5 && e.2.wIndex == t.wIndex)))) (1 + k)) ++
  (List.range x.curveCount).flatMap fun c =>
    let r := recAt x.tags (1 + x.tagCount + 2 * c)
    bad (!(List.range 15).all fun j => Blk.lt (fieldB r (4 * j) 4) (fieldB r (4 * j + 4) 4)) (1 + x.tagCount + 2 * c)

/-! ### Strands -/

/-- What the words of a block type's state hold (5.6): 0 reserved, 1 binary32, 2 unsigned, 3 the two words of a binary64. -/
def stateWords (op : Nat) : List Nat :=
  match op with
  | 0x01 => [1, 1, 1, 1, 1, 1, 1, 1]
  | 0x02 => [1, 1, 1, 1, 1, 1, 1, 1]
  | 0x03 => [1, 1, 1, 1, 1, 1, 1, 1]
  | 0x04 => [1, 1, 1, 1, 1, 1, 1, 1]
  | 0x05 => [1, 1, 1, 1, 1, 1, 1]
  | 0x06 => [1, 1]
  | 0x07 => [1, 1, 1, 1]
  | 0x08 => [1, 1]
  | 0x09 => [1, 1, 1, 1]
  | 0x0A => [2, 2]
  | 0x0B => [2, 2, 3, 3]
  | 0x0C => [1, 1, 1]
  | 0x0D => [3, 3, 1, 1]
  | 0x0E => [3, 3, 1, 1]
  | 0x0F => [1, 1]
  | 0x10 => [1, 1, 1]
  | 0x11 => [1, 1]
  | 0x12 => [2]
  | 0x13 => [1, 1]
  | 0x14 => [1]
  | 0x19 => [1]
  | 0x1D => [1]
  | 0x23 => [1, 1]
  | 0x24 => [1]
  | 0x25 => [1]
  | 0x26 => [1, 1]
  | 0x27 => [1, 1]
  | 0x28 => [1, 1, 1, 1]
  | 0x29 => [1, 1, 1]
  | 0x2B => [1, 2]
  | 0x2C => [1, 1]
  | 0x2D => [1, 1]
  | 0x2E => [2]
  | 0x2F => [1, 1, 1, 1]
  | 0x30 => [1, 1, 1, 1]
  | _ => []

/-- The words that must not be negative: TI, TD, HYS, GAP, RATE, RUP, RDN, PT and the time constants (R185). -/
def nonNegWords (op : Nat) : List Nat :=
  match op with
  | 0x01 => [0, 1]
  | 0x03 => [0, 1]
  | 0x04 => [0, 1]
  | 0x05 => [0, 1]
  | 0x06 => [0]
  | 0x07 => [0, 1]
  | 0x08 => [0]
  | 0x09 => [0, 1]
  | 0x0C => [0]
  | 0x0F => [0]
  | 0x10 => [0, 1]
  | 0x23 => [0]
  | 0x26 => [0]
  | 0x27 => [0]
  | 0x28 => [0]
  | 0x2C => [0]
  | _ => []

/-- The words OH and OL of a type that clamps. -/
def limitWords (op : Nat) : Option (Nat × Nat) :=
  match op with
  | 0x01 => some (2, 3)
  | 0x02 => some (2, 3)
  | 0x03 => some (2, 3)
  | 0x04 => some (2, 3)
  | 0x05 => some (3, 4)
  | 0x0D => some (2, 3)
  | _ => none

/-- A state record of the image against its instruction (R185). -/
def stateOk (curves calls : Nat) (instr state : List Byte) : Bool :=
  let op := instrOp instr
  let ws := stateWords op
  let w (i : Nat) : Nat := fieldB state (4 * i) 4
  (List.range 8).all (fun i => match ws[i]? with
    | some 1 => !fIsNaN f32 (w i)
    | some _ => true
    | none => w i == 0) &&
  (List.range 7).all (fun i => !(ws[i]? == some 3 && i % 2 == 0) || !fIsNaN f64 (w i + w (i + 1) * 2 ^ 32)) &&
  (nonNegWords op).all (fun i => !Blk.lt (w i) 0) &&
  (match limitWords op with
   | some (oh, ol) => !Blk.lt (w oh) (w ol)
   | none => true) &&
  (match op with
   | 0x0A => 1 ≤ w 0 && w 0 ≤ 4096 && lineBase instr + w 0 ≤ exchCount
   | 0x0B => 1 ≤ w 0 && w 0 ≤ 4096 && lineBase instr + w 0 ≤ exchCount
   | 0x12 => w 0 < curves
   | 0x14 => Blk.lt 0 (w 0) && Blk.lt (w 0) Blk.c100
   | 0x2E => w 0 < calls
   | _ => true)

def instrWait (r : List Byte) : Option Nat := if bitOf (instrCtl r) 0 then some (fieldB r 2 1) else none
def instrSet (r : List Byte) : Option Nat := if bitOf (instrCtl r) 1 then some (fieldB r 3 1) else none

/-- The destinations of an instruction: its two output words, a delay line's buffer left out. -/
def outDests (r : List Byte) : List (Option Opnd) :=
  if instrOp r == 0x0A || instrOp r == 0x0B then [instrOpnd r 4] else [instrOpnd r 4, instrOpnd r 5]

/-- An instruction record by itself (R159, R160, R185). -/
def instrForm (r : List Byte) : Bool :=
  !badInstr r && (bitOf (instrCtl r) 0 || fieldB r 2 1 == 0) && (bitOf (instrCtl r) 1 || fieldB r 3 1 == 0) &&
  (instrWord r 5 == 0 || instrWord r 5 != instrWord r 6)

/-- What a lane does in a frame, step by step (R169). -/
inductive LaneItem where
  | start
  | block (inst : Nat) (wait set : Option Nat) (cost : Nat)
deriving DecidableEq, Repr

/-- The cost of a block in admission: a CALL waits its whole budget (R170). -/
def blockCostMax (slots : List CallSlot) (instr state : List Byte) : Nat :=
  if instrOp instr == 0x2E then 40 + (match slots[fieldB state 0 4]? with
    | some c => ceilDiv (c.budget * 6) 5
    | none => 0)
  else blockCost (instrOp instr)

/-- A lane runs until it waits on a flag that is not yet set. -/
def runLane (flags : List (Nat × Nat)) (t : Nat) : List LaneItem → Nat × List LaneItem × List (Nat × Nat)
  | [] => (t, [], flags)
  | .start :: rest => runLane flags (t + 40) rest
  | .block b w st cost :: rest =>
    match w with
    | none =>
      let e := t + cost
      runLane (match st with
        | some f => (f, e + 34) :: flags
        | none => flags) e rest
    | some f =>
      match flags.find? (·.1 == f) with
      | none => (t, .block b w st cost :: rest, flags)
      | some (_, ft) =>
        let e := max t ft + 40 + cost
        runLane (match st with
          | some g => (g, e + 34) :: flags
          | none => flags) e rest

/-- Every lane in turn, once: (lane, clock, what remains). -/
def runLanes (flags : List (Nat × Nat)) : List (Nat × Nat × List LaneItem) → List (Nat × Nat × List LaneItem) × List (Nat × Nat)
  | [] => ([], flags)
  | (l, t, items) :: rest =>
    let (t', items', flags') := runLane flags t items
    let (rest', flags'') := runLanes flags' rest
    ((l, t', items') :: rest', flags'')

/-- R169 for all lanes together: rounds until nothing moves. -/
def schedule : Nat → List (Nat × Nat) → List (Nat × Nat × List LaneItem) → List (Nat × Nat × List LaneItem)
  | 0, _, ls => ls
  | k + 1, flags, ls =>
    let (ls', flags') := runLanes flags ls
    if ls'.all (fun e => e.2.2.isEmpty) then ls' else schedule k flags' ls'

/-- The work of a lane in a frame in which every class is due. -/
def laneItems (strands : List Strand) (slots : List CallSlot) (instr state : Nat → List Byte) (l : Nat) : List LaneItem :=
  (isort (·.order) (strands.filter fun st => st.lane == l)).flatMap fun st =>
    LaneItem.start :: (List.range st.count).map fun j =>
      let b := st.first + j
      .block b (instrWait (instr b)) (instrSet (instr b)) (blockCostMax slots (instr b) (state b))

/-- The lanes at the end of R169: those with work left wait for ever. -/
def finishLanes (strands : List Strand) (slots : List CallSlot) (instr state : Nat → List Byte) : List (Nat × Nat × List LaneItem) :=
  let ls := (List.range 32).map fun l => (l, 0, laneItems strands slots instr state l)
  schedule (ls.foldl (fun n e => n + e.2.2.length) 1) [] ls

def CallSlot.of (inst : Nat) (r : List Byte) : CallSlot := { grove := fieldB r 0 1, budget := fieldB r 4 4, inst := inst }

/-- The CALL instances whose SLOT is s. -/
def Img.callers (x : Img) (s : Nat) : List Nat :=
  (List.range x.instanceCount).filter fun b => instrOp (recAt x.instrs b) == 0x2E && fieldB (recAt x.states b) 0 4 == s

def Img.slots (x : Img) : List CallSlot :=
  (indexed x.slotRecs).map fun e => CallSlot.of ((x.callers e.1).headD 0) e.2

/-- The grove of an instance: that of its strand's lane. -/
def Img.groveOfInst (x : Img) (b : Nat) : Option Nat :=
  match x.strandList.find? fun st => inRange st.first st.count b with
  | some st => x.groveOfLane st.lane
  | none => none

def Img.strandOf (x : Img) (b : Nat) : Option Strand := x.strandList.find? fun st => inRange st.first st.count b

/-- The tag operands of an instance lie in its grove, and its outputs name tags that name it (R185). -/
def Img.tagOpnds (x : Img) (b : Nat) (r : List Byte) : Bool :=
  (List.range 6).all (fun i => match instrOpnd r i with
    | some (.tag k _) => (match x.groveOfInst b with
      | some g => x.inGrove g k
      | none => true)
    | _ => true) &&
  (outDests r).all fun o => match o with
    | some (.tag k _) => (x.tag k).wKind == 3 && (x.tag k).wIndex == b
    | _ => true

/-- A wait on a flag (R171, R173). -/
def Img.waitOk (x : Img) (b : Nat) (r : List Byte) : Bool :=
  match instrWait r, x.strandOf b with
  | some f, some st =>
    (List.range x.instanceCount).any fun c => instrSet (recAt x.instrs c) == some f && (x.strandOf c).any fun sc =>
      x.groveOfLane sc.lane == x.groveOfLane st.lane && sc.cls ≤ st.cls
  | _, _ => true

/-- A strand of the image: its lane, class, order, place and the other strands (R154, R185). -/
def strandOk (cls : Nat → Bool) (laneOk : Nat → Bool) (instances : Nat) (before : List Strand) (r : List Byte) : Bool :=
  let st := Strand.of r
  st.lane < 32 && laneOk st.lane && cls st.cls && 1 ≤ st.count && st.first + st.count ≤ instances && zeroB r 0x0C 20 &&
  !before.any (fun o => (o.lane == st.lane && o.order == st.order) || overlaps o.first o.count st.first st.count) &&
  (before.filter fun o => o.lane == st.lane).length < 256

/-- The failing records of the Strands section. Barrier waits that never end are charged to the instruction that waits in each lane that is
stuck; R542 reports the lowest of them (DESIGN CHOICE, log 75). -/
def failStrands (x : Img) : List Nat :=
  let d := x.strandDesc
  let instr (b : Nat) : List Byte := recAt x.instrs b
  let state (b : Nat) : List Byte := recAt x.states b
  bad (!(x.strandCount ≤ 4096 && x.instanceCount ≤ 262144 && x.callCount ≤ 256 && fieldB d 0x0A 2 < 4096 && fieldB d 0x0C 2 ≤ 3840 &&
    zeroB d 0x0E 18) || x.clash 5) 0 ++
  countBad x.strands.length (1 + x.strandCount + x.callCount + 2 * x.instanceCount) ++
  (indexed x.strandRecs).flatMap (fun (i, r) =>
    bad (!strandOk x.clsOk (fun l => (x.groveOfLane l).isSome) x.instanceCount (x.strandList.take i) r) (1 + i)) ++
  (indexed x.slotRecs).flatMap (fun (s, r) =>
    let c := CallSlot.of 0 r
    bad (!(zeroB r 1 3 && zeroB r 8 24 && 1000 ≤ c.budget && c.budget ≤ x.period - x.guard && (x.groveRec c.grove).isSome &&
      (match x.callers s with
       | [b] => x.groveOfInst b == some c.grove
       | _ => false))) (1 + x.strandCount + s)) ++
  (List.range x.instanceCount).flatMap (fun b =>
    let r := instr b
    let earlier := List.range b
    let mine := exchWritten r (state b)
    let touched := mine ++ exchRead r (state b)
    bad (!instrForm r || !x.tagOpnds b r || !x.waitOk b r ||
      ((instrSet r).isSome && earlier.any fun c => instrSet (instr c) == instrSet r) ||
      earlier.any (fun c =>
        let theirs := exchWritten (instr c) (state c)
        theirs.any mine.contains ||
        (x.groveOfInst c != x.groveOfInst b && (x.groveOfInst c).isSome && (x.groveOfInst b).isSome &&
          (theirs ++ exchRead (instr c) (state c)).any touched.contains))) (x.instrBase + b) ++
    bad (!stateOk x.curveCount x.callCount r (state b)) (x.stateBase + b)) ++
  (finishLanes x.strandList x.slots instr state).flatMap fun e =>
    match e.2.2 with
    | .block b _ _ _ :: _ => [x.instrBase + b]
    | _ => []

/-! ### Port maps -/

/-- The place of a kind in the order of R217. -/
def pmRank (k : Nat) : Nat :=
  match k with
  | 0 => 0
  | 5 => 1
  | 6 => 2
  | 1 => 3
  | _ => 4

/-- Does R195 permit a format for a tag? -/
def fmtOk (fmt : Nat) (t : Tag) : Bool :=
  let small := t.vtype == 0 && t.rawFmt == 0 || t.vtype == 3 || t.vtype == 4
  let wide := t.vtype == 0 && t.rawFmt == 0 || t.vtype == 3
  let signed := t.vtype == 0 && t.rawFmt == 1
  match fmt with
  | 1 => small
  | 2 => signed
  | 3 => small
  | 4 => signed
  | 5 => small
  | 6 => signed
  | 7 => wide
  | 8 => signed
  | 9 => wide
  | 10 => signed
  | 11 => t.vtype == 0 && t.rawFmt == 2
  | 12 => t.vtype == 0 && t.rawFmt == 2
  | 13 => t.vtype == 1
  | 14 => t.vtype == 1
  | 15 => t.vtype == 3
  | 16 => t.vtype == 3
  | 17 => t.vtype == 2
  | _ => false

/-- A port record by itself (R187, R217, R218, R433): AN is an option of MODE 1 and 2 (log 74). -/
def portOk (period : Nat) (held : Bool) (r : List Byte) : Bool :=
  prPort r < 72 && prMode r < 6 && prFlags r < 64 && (!prCb r || prPort r % 2 == 0) && (!bitOf (prFlags r) 3 || prMode r == 5) &&
  (!bitOf (prFlags r) 0 || prMode r == 1 || prMode r == 2) &&
  prPtp r < 3 && (prPtp r == 0 || held) && prOffset r < period && 64 ≤ prMaxlen r && prMaxlen r ≤ 9216 && 1 ≤ prCdiv r && prCdiv r ≤ 16 &&
  1 ≤ prGcl r && prGcl r ≤ 64 && fieldB r 0x0C 2 < 4096 && fieldB r 0x0E 2 < 4096 && zeroB r 0x12 14 &&
  (prMode r == 0 || (bits (prDma r) 10 4 == 0 && prDma r % 2 == 0))

/-- A gate list sums to P/CDIV, which is a whole number of units of 8 ns (R205, R218). -/
def gatesOk (period : Nat) (r : List Byte) (gates : List (Nat × Nat)) : Bool :=
  gates.length == prGcl r && prCdiv r != 0 && period % prCdiv r == 0 && period / prCdiv r % 8 == 0 &&
  (gates.map (·.2)).foldl (· + ·) 0 == period / prCdiv r

/-- The gate entries of one base frame as (start, end, mask), ns from the release. -/
def gateSegs (gates : List (Nat × Nat)) : Nat → Nat → List (Nat × Nat × Nat)
  | 0, _ => []
  | k + 1, t =>
    let (segs, t') := gates.foldl (fun (p : List (Nat × Nat × Nat) × Nat) g => (p.1 ++ [(p.2, p.2 + g.2, g.1)], p.2 + g.2)) ([], t)
    segs ++ gateSegs gates k t'

/-- The open intervals of a queue: adjoining entries that keep its gate open are one. -/
def openRuns (tc : Nat) (segs : List (Nat × Nat × Nat)) : List (Nat × Nat) :=
  (segs.foldl (fun (acc : List (Nat × Nat)) s =>
    if !bitOf s.2.2 tc then acc
    else match acc with
      | (a, b) :: rest => if b == s.1 then (a, s.2.1) :: rest else (s.1, s.2.1) :: acc
      | [] => [(s.1, s.2.1)]) []).reverse

/-- May a frame of TC 0 to 5 be on the wire at t: such a gate is open just before and at t. -/
def nrtAt (segs : List (Nat × Nat × Nat)) (last t : Nat) : Bool :=
  let openAt (u : Nat) : Bool := segs.any fun s => s.1 ≤ u && u < s.2.1 && s.2.2 % 64 != 0
  openAt t && openAt (if t == 0 then last - 1 else t - 1)

/-- R203 shown: the template frames, sent in order under the gate list behind at most one other frame wherever the port has been
idle under an open gate of another queue, have left before the period ends (a template of another TC breaks its own record, R205). -/
def fitsAux (segs : List (Nat × Nat × Nat)) (period block : Nat) : Nat → Nat → List (Nat × Nat) → Bool
  | 0, _, q => q.isEmpty
  | k + 1, now, q =>
    if q.isEmpty then now ≤ period
    else
      -- the head of TC 7 or TC 6 that can start first; TC 7 on a tie
      let cand (tc : Nat) : Option (Nat × Nat) := (q.find? (·.1 == tc)).bind fun h =>
        (openRuns tc segs).findSome? fun r =>
          let a := max r.1 now
          let a := if (now < a || now == 0) && nrtAt segs period a then a + block else a
          if a + h.2 ≤ r.2 then some (a, h.2) else none
      let pick := match cand 7, cand 6 with
        | some a, some b => if b.1 < a.1 then some (6, b) else some (7, a)
        | some a, none => if q.any (·.1 == 6) then none else some (7, a)
        | none, some b => if q.any (·.1 == 7) then none else some (6, b)
        | none, none => none
      match pick with
      | none => false
      | some (tc, a, dur) => fitsAux segs period block k (a + dur) (q.eraseP (·.1 == tc))

def wireTime (mode bytes : Nat) : Nat := ceilDiv (bytes * 8 * 1000) (lineRate mode)

def Img.portFits (x : Img) (p : Nat) (r : List Byte) (gates : List (Nat × Nat)) : Bool :=
  let pair := match x.portRec (p / 2 * 2) with
    | some e => prCb e.2
    | none => false
  let mine := x.tpls.filter fun t =>
    let q := fieldB t.head 1 1
    let tc := fieldB t.head 7 1
    (tc == 6 || tc == 7) && (q == p || (pair && q / 2 == p / 2))
  if mine.isEmpty then true
  else if prMode r == 0 then false
  else
    let q := (isort ImgTpl.number mine).map fun t =>
      (fieldB t.head 7 1, wireTime (prMode r) (24 + tplLen t.head + if pair then 6 else 0))
    let segs := gateSegs gates (prCdiv r) 0
    fitsAux segs x.period (wireTime (prMode r) (prMaxlen r + 20)) (q.length + 1) 0 q

/-- The highest payload offset that a map entry reads, plus 1: the value, its quality byte and its ID. -/
def mapReach (e : List Byte) : Nat :=
  maxL [meOff e + fmtSize (meFmt e), if meQmode e == 0 then 0 else meQofs e + 1, if bitOf (meFlags e) 2 then meIdofs e + 2 else 0]

def mapOk (x : Img) (j : Nat) (e : List Byte) : Bool :=
  let t := x.tag (meTag e)
  meFlags e < 8 && 1 ≤ meFmt e && meFmt e ≤ 17 && fieldB e 0x0A 2 < 4096 && meOff e < 9200 && meBit e < 8 && meQmode e < 3 && meQbit e < 8 &&
  zeroB e 0x15 1 && zeroB e 0x1C 4 && (x.groveOfPort (mePort e)).isSome && t.wKind == 1 && t.wIndex == j && fmtOk (meFmt e) t &&
  (match x.portRec (mePort e) with
   | some (_, r) => mapReach e ≤ prMaxlen r - (if bitOf (meFlags e) 1 then 22 else 18)
   | none => false) &&
  (match x.portRec (mePort e / 2 * 2) with
   | some (_, r) => !prCb r || mePort e % 2 == 0
   | none => true)

/-- The key of a map entry, disabled parts left out. -/
def mapKey (e : List Byte) : List Nat :=
  [mePort e, meFlags e % 8, if bitOf (meFlags e) 0 then meSmac e else 0, if bitOf (meFlags e) 1 then meVid e else 0, meEtype e,
   if bitOf (meFlags e) 2 then meIdofs e else 0, if bitOf (meFlags e) 2 then meId e else 0]

/-- The failing records of one template (R199, R217, R218); a missing data or field record is charged to the section's record count
(R542). -/
def failTpl (x : Img) (before : List ImgTpl) (t : ImgTpl) : List Nat :=
  let tp := t.template
  let g := x.groveOfPort tp.port
  let nd := ceilDiv (tplLen t.head) 24
  let nf := fieldB t.head 8 2
  let fieldsBefore := (before.map fun o => o.fields.length).foldl (· + ·) 0
  bad (!(zeroB t.head 0x0A 22 && t.number < 1024 && 60 ≤ tplLen t.head && tplLen t.head ≤ 1518 && x.clsOk tp.cls && (tp.tc == 6 || tp.tc == 7) &&
      nf ≤ 256 && g.isSome && (x.portRec tp.port).isSome && !before.any fun o => o.number == t.number)) t.idx ++
  (indexed t.data).flatMap (fun (k, i, r) =>
    bad (!(k < nd && zeroB r 1 1 && zeroB r 6 2 && fieldB r 2 2 == t.number && fieldB r 4 2 % 24 == 0 && fieldB r 4 2 < tplLen t.head &&
      zeroB r (8 + (tplLen t.head - fieldB r 4 2)) (24 - (tplLen t.head - fieldB r 4 2)) && i == t.idx + 1 + k &&
      !(t.data.take k).any fun o => fieldB o.2 4 2 == fieldB r 4 2)) i) ++
  (indexed t.fields).flatMap (fun (k, i, r) =>
    let f := TplField.of r
    bad (!(k < nf && zeroB r 0x0A 6 && zeroB r 0x18 8 && fieldB r 2 2 == t.number && f.bitpos < 8 && f.qact < 3 && fmtOk f.fmt (x.tag f.tag) &&
      f.off + fmtSize f.fmt ≤ tplLen t.head && (g.any fun g => x.inGrove g f.tag) && fieldsBefore + k < 16384)) i) ++
  bad (t.data.length < nd || t.fields.length < nf) x.maps.length

/-- The failing records of the Port maps section. The DMA channel of a port belongs to the port's grove (R215). A CB pair whose odd port
has no record is charged to the even port's record (DESIGN CHOICE, log 75). -/
def failMaps (x : Img) : List Nat :=
  let d := recAt x.maps 0
  let y := SystemRec.of (recAt x.sys 0)
  let l := indexed x.maps
  let ports := x.pmOf 5
  let entries := x.pmOf 1
  let tpls := x.tpls
  let cbPair (p : Nat) : Bool := match x.portRec (p / 2 * 2) with
    | some e => prCb e.2
    | none => false
  bad (!(pmKind d == 0 && zeroB d 1 1 && fieldB d 2 2 < 4096 && fieldB d 4 2 < 4096 && fieldB d 6 1 < 2 &&
    -3 ≤ sext 8 (fieldB d 7 1) && sext 8 (fieldB d 7 1) ≤ 0 && zeroB d 0x0A 22) || x.clash 6 ||
    (fieldB d 6 1 == 1 && !y.single && y.device != y.taproot && y.device != y.standby)) 0 ++
  l.flatMap (fun (i, r) => bad (6 < pmKind r || (i != 0 && (pmKind r == 0 || pmRank (pmKind r) < pmRank (pmKind (recAt x.maps (i - 1))) ||
    ((pmKind r == 3 || pmKind r == 4) && pmRank (pmKind (recAt x.maps (i - 1))) < 4)))) i) ++
  (indexed ports).flatMap (fun (k, i, r) =>
    let before := ports.take k
    let gates := x.gates (prPort r)
    bad (!portOk x.period (x.groveOfPort (prPort r)).isSome r || before.any (fun e => prPort e.2 == prPort r) ||
      (prPtp r == 2 && before.any fun e => prPtp e.2 == 2) ||
      (prMode r != 0 && before.any fun e => prMode e.2 != 0 && prDma e.2 / 2 == prDma r / 2) ||
      (prMode r != 0 && (match x.groveOfPort (prPort r) with
        | some g => !(x.groveRec g).any fun q => bitOf q.engines (prDma r / 2 ^ 11)
        | none => false)) ||
      !gatesOk x.period r gates || !x.portFits (prPort r) r gates ||
      (cbPair (prPort r) && before.any fun e => prPort e.2 / 2 == prPort r / 2 &&
        !(prMode e.2 == prMode r && prOffset e.2 == prOffset r && prCdiv e.2 == prCdiv r && x.gates (prPort e.2) == gates)) ||
      (prCb r && !ports.any fun e => prPort e.2 == prPort r + 1)) i) ++
  (indexed (x.pmOf 6)).flatMap (fun (k, i, r) =>
    bad (!zeroB r 8 24 || fieldB r 4 4 == 0 || (match x.portRec (prPort r) with
        | some (_, pr) => prGcl pr ≤ fieldB r 2 1
        | none => true) ||
      ((x.pmOf 6).take k).any fun e => prPort e.2 == prPort r && fieldB e.2 2 1 == fieldB r 2 1) i) ++
  (indexed entries).flatMap (fun (j, i, e) =>
    let before := entries.take j
    let streams := nub ((before.filter fun o => cbPair (mePort o.2)).map fun o => (mePort o.2 / 2 * 2 ^ 48 + meSmac o.2) * 4096 + meVid o.2)
    let own := (mePort e / 2 * 2 ^ 48 + meSmac e) * 4096 + meVid e
    bad (!mapOk x j e || 4096 ≤ j || 64 ≤ (before.filter fun o => mapKey o.2 == mapKey e).length ||
      (cbPair (mePort e) && !streams.contains own && 1024 ≤ streams.length)) i) ++
  (indexed tpls).flatMap fun (k, t) => failTpl x (tpls.take k) t

/-! ### Splice lists and code -/

/-- R238 and R240 with this device's enabled ports up and the others down (R267): the port a cell leaves on. -/
def Img.firstPort (x : Img) (y : SystemRec) (dest : Nat) : Option Nat :=
  match (List.range 3).find? fun k => coordOf y.device k != coordOf dest k with
  | none => none
  | some dim =>
    let n := max 1 (y.size dim)
    let delta := (coordOf dest dim + n - coordOf y.device dim) % n
    let d := 2 * dim + (if 2 * delta ≤ n then 0 else 1)
    let r := x.hawserRec d
    if spEn r then some d
    else if spDetour r == 1 && spEn (x.hawserRec (spSide r)) then some (spSide r)
    else
      let opp := if d % 2 == 0 then d + 1 else d - 1
      if spDetour r == 2 && spEn (x.hawserRec opp) then some opp else none

/-- Links of the fault-free route. -/
def hopsTo (y : SystemRec) (dest : Nat) : Nat :=
  ((List.range 3).map fun k =>
    let n := max 1 (y.size k)
    let delta := (coordOf dest k + n - coordOf y.device k) % n
    min delta (n - delta)).foldl (· + ·) 0

def failSplices (x : Img) : List Nat :=
  let a := x.spDescA
  let b := x.spDescB
  let y := SystemRec.of (recAt x.sys 0)
  let l := indexed x.splices
  let ports := x.spOf 2
  let pubs := x.publish
  let subs := x.subscribe
  let n := x.splices.length
  bad (n == 0) 0 ++ bad (n == 1) 1 ++
  bad (!(spKind a == 0 && fieldB a 1 1 < 2 && fieldB a 2 2 < 4096 && fieldB a 4 2 < 4096 && fieldB a 6 2 ≤ 4032 && x.planId != 0) ||
    x.clash 7) 0 ++
  bad (!(spKind b == 1 && 1 ≤ fieldB b 1 1 && zeroB b 2 2 && 1000 ≤ fieldB b 8 4 && fieldB b 8 4 ≤ 100000 && 2 * fieldB b 8 4 ≤ x.period &&
    zeroB b 0x0C 4 && pubs.all fun e => 60 + 166 * hopsTo y (recDev e.2) ≤ x.maxLat)) 1 ++
  l.flatMap (fun (i, r) => bad (4 < spKind r || (2 ≤ i && (spKind r < 2 || spKind r < spKind (recAt x.splices (i - 1))))) i) ++
  (indexed ports).flatMap (fun (k, i, r) =>
    bad (!(spPort r < 6 && fieldB r 2 1 < 64 && spDetour r < 3 && spSide r < 6 && zeroB r 3 1 && zeroB r 8 8 &&
      -20000 ≤ sext 16 (spAsym r) && sext 16 (spAsym r) ≤ 20000 && !(spEn r && y.size (spPort r / 2) == 1) &&
      !(spDetour r == 1 && (spSide r / 2 == spPort r / 2 || y.size (spSide r / 2) == 1))) ||
      (ports.take k).any fun e => spPort r ≤ spPort e.2) i) ++
  (indexed pubs).flatMap (fun (k, i, r) =>
    let before := pubs.take k
    let same := before.filter fun e => recSplice e.2 == recSplice r
    let t := x.tag (recTag r)
    let port := x.firstPort y (recDev r)
    let cells := ((pubs.take (k + 1)).filter fun e => recPos e.2 % 3 == 0 && x.firstPort y (recDev e.2) == port).length
    bad (!(recClass r < 4 && recSplice r < 4096 && recPos r < 12288 && zeroB r 0x0A 6 && k < 16384 && recPos r == same.length &&
      before.all (fun e => recSplice e.2 ≤ recSplice r) && same.all (fun e => recDev e.2 == recDev r && recClass e.2 == recClass r &&
        (x.tag (recTag e.2)).grove == t.grove) &&
      t.publish && t.cls == recClass r && y.holds (recDev r) && recDev r != y.device &&
      (match port with
       | some p => recPos r % 3 != 0 || cells ≤ spLoad (x.hawserRec p)
       | none => false))) i) ++
  (indexed subs).flatMap fun (k, i, r) =>
    let t := x.tag (recTag r)
    bad (!(zeroB r 1 1 && zeroB r 0x0A 6 && recSplice r < 4096 && recPos r < 12288 && k < 65536 && y.holds (recDev r) && recDev r != y.device &&
      t.wKind == 2 && t.wIndex == k) ||
      (subs.take k).any fun e => recDev e.2 == recDev r && recSplice e.2 == recSplice r && recPos e.2 == recPos r) i

def failCode (x : Img) : List Nat :=
  let segs := x.segments
  (indexed segs).flatMap fun (i, sg) =>
    bad (!(sg.whole && 1 ≤ sg.bytes.length && zeroB sg.head 1 3 && zeroB sg.head 0x10 16 &&
      (x.groveRec sg.grove).any (fun g => g.holds sg.addr sg.bytes.length)) ||
      (segs.take i).any fun o => overlaps o.addr o.bytes.length sg.addr sg.bytes.length) i

/-- Step 13 (R61, R542): the section type and the record index that are reported; none when the image passes. -/
def semanticFail (mx : Bool) (x : Img) : Option (Nat × Nat) :=
  let all := [failSystem x, failGroves x, failFrames x, failTags mx x, failStrands x, failMaps x, failSplices x, failCode x]
  (indexed all).findSome? fun (i, l) => (isort id l).head?.map fun k => (i + 1, k)

end Sys2Proof.Machine
end

