-- ==== Sys2Proof/Machine/Admit.lean ====
section
/-! DEFINITION. The admission check (R62, R63, R170, R202, R254, R295), over what is loaded; CREATE repeats it with the new grove's
work included (R280). -/

namespace Sys2Proof.Machine

/-! ### The instances and the image size of a grove that is loaded (R292) -/

def State.instancesOf (s : State) (g : Nat) : List Nat := Machine.instancesOf (s.grv g).cfg s.loop.strands

def State.instr (s : State) (b : Nat) : List Byte := s.rdB (instrAddr b) 32
def State.blockStateB (s : State) (b : Nat) : List Byte := s.rdB (stateAddr b) 32

/-- The exchange entries that a grove's instances write, ascending. -/
def State.exchOf (s : State) (g : Nat) : List Nat :=
  isort id (nub ((s.instancesOf g).flatMap fun b => exchWritten (s.instr b) (s.blockStateB b)))

/-- F (R292). -/
def State.frameBytes (s : State) (g : Nat) : Nat := frameSize (s.grv g).cfg (s.instancesOf g).length (s.exchOf g).length

def State.fullBytes (s : State) (g : Nat) : Nat := fullSize (s.grv g).cfg (s.instancesOf g).length (s.exchOf g).length

/-! ### Costs -/

/-- e: the sweep bound over the 16 pipes, ns. -/
def State.sweepBound (s : State) : Nat :=
  let ts := s.usedTags
  maxL ((List.range 16).map fun p => (ts.filter (· % 16 == p)).length) * 5

/-- k: the commit staging bound, ns (R202, R254). -/
def State.stagingBound (s : State) : Nat :=
  let work := (s.field.templates.map fun e => templateWork e.2).foldl (· + ·) 0
  clocksNs (ceilDiv work 4 + (cellGroups s.cascade.publish).length)

/-- c of every lane, ns: R169 with every call at its whole budget. -/
def State.laneBounds (s : State) : List (Nat × Nat) :=
  (finishLanes s.loop.strands s.loop.slots s.instr s.blockStateB).map fun e => (e.1, clocksNs e.2.1)

/-- The budgets of a core's tasks in a frame in which every class is due. -/
def State.coreWork (s : State) (c : Nat) : Nat := ((s.frame.tasks.filter (·.core == c)).map (·.budget)).foldl (· + ·) 0

/-- The first port of the route to a device, every link up (R238). -/
def State.firstPort (s : State) (d : Nat) : Nat :=
  match (List.range 3).find? fun k => coordOf s.device k != coordOf d k with
  | some dim => s.direction (d * 2 ^ 9) dim
  | none => 0

/-- A grove's role: that of its record until start is complete, then the one it has now (R295). -/
def State.pairRole (s : State) (g : Nat) : Nat := if s.on Fd.CFG_STAT.DONE then s.get (Fd.GRV_STAT.ROLE g) else (s.grv g).cfg.role

/-- L_track of a grove, ns rounded up (R258, R295): of its first link the device knows LOAD_CELLS and its own transfers; what the
links add beyond that is free (log 20). -/
def State.trackLatency (s : State) (g : Nat) : Nat :=
  let prt := (s.grv g).cfg.partner
  let p := s.firstPort prt
  let own := (s.groves.filter fun e => s.pairRole e.1 == 1 && s.firstPort e.2.cfg.partner == p).map fun e => ceilDiv (s.frameBytes e.1) 40
  let cells := mapGet 0 s.cascade.loads p + own.foldl (· + ·) 0
  let h := hopsTo s.cascade.sys prt
  ceilDiv (6000 + 16000 * h + 704 * cells + ((List.range h).map fun i => Config.trackExtra s.device prt i).foldl (· + ·) 0) 100

def State.trackOf (s : State) (g : Option Nat) : Nat :=
  match g with
  | some g => if s.pairRole g == 1 then s.trackLatency g else 0
  | none => 0

/-! ### The check (R62, R63) -/

/-- What the check finds. -/
structure Admission where
  slack     : Int
  kind      : Nat
  index     : Nat
  demandOk  : Bool
  /-- the grove that fails its budget worst, with its margin -/
  groveFail : Option (Nat × Int)
deriving DecidableEq, Repr

/-- Work beyond e and k: (kind, index, work in ns), lanes before cores. -/
def State.workItems (s : State) : List (Nat × Nat × Nat) :=
  s.laneBounds.map (fun e => (0, e.1, e.2 + s.trackOf (s.groveOfLane e.1))) ++
    (List.range 64).map fun c => (1, c, s.coreWork c + s.trackOf (s.groveOfCore c))

/-- The first of the greatest. -/
def greatest : List (Nat × Nat × Nat) → Nat × Nat × Nat
  | [] => (0, 0, 0)
  | a :: l => let b := greatest l; if l.isEmpty || b.2.2 ≤ a.2.2 then a else b

/-- The largest demand − e − k of a grove's lanes and cores. -/
def groveWork (r : GroveRec) (work : List (Nat × Nat × Nat)) : Nat :=
  maxL ((work.filter fun w => if w.1 == 0 then bitOf r.lanes w.2.1 else bitOf r.cores w.2.1).map (·.2.2))

/-- The least of (grove, margin), the lowest grove on a tie. -/
def leastMargin : List (Nat × Int) → Option (Nat × Int)
  | [] => none
  | a :: l => match leastMargin l with
    | some b => if b.2 < a.2 then some b else some a
    | none => some a

def State.admission (s : State) : Admission :=
  let e := s.sweepBound
  let k := s.stagingBound
  let work := s.workItems
  let top := greatest work
  let slack : Int := ((s.period : Int) - s.guardNs) - ((e + top.2.2 + k : Nat) : Int)
  let fails := (s.groves.map fun g => (g.1, (g.2.cfg.budget : Int) - (groveWork g.2.cfg work : Int))).filter fun m => m.2 < 0
  { slack := slack, kind := top.1, index := top.2.1, demandOk := decide (0 ≤ slack), groveFail := leastMargin fails }

/-- Do the demands and the grove budgets pass? -/
def Admission.passes (a : Admission) : Bool := a.demandOk && a.groveFail.isNone

/-- KIND, INDEX and MARGIN_NS of `CFG_ADMIT` (R63). -/
def Admission.report (a : Admission) : Nat × Nat × Int :=
  match a.demandOk, a.groveFail with
  | true, some (g, m) => (2, g, m)
  | _, _ => (a.kind, a.index, a.slack)

/-- The detail of cause 0x0E (R74). -/
def Admission.detail (a : Admission) : Nat := a.report.1 * 256 + a.report.2.1

/-- The guard that the check requires (R63, R258). -/
def State.guardNeeded (s : State) : Nat := max 5000 (s.get Fd.CAS_LAT.MAX_LAT_NS)

def State.showAdmission (s : State) (a : Admission) : State :=
  ((s.set Fd.CFG_ADMIT.MARGIN_NS (satInt 32 a.report.2.2)).set Fd.CFG_ADMIT.INDEX a.report.2.1).set Fd.CFG_ADMIT.KIND a.report.1

end Sys2Proof.Machine
end

