-- ==== Sys2Proof/Machine/Dma.lean ====
section
/-! DEFINITION. The DMA engines (chapter 13): channels, jobs, descriptors, packet channels, stopping and bus errors. -/

namespace Sys2Proof.Machine

def State.modDma (s : State) (f : DmaSt → DmaSt) : State := { s with dma := f s.dma }
def State.eng (s : State) (e : Nat) : DmaEng := mapGet {} s.dma.engines e
def State.setEng (s : State) (e : Nat) (x : DmaEng) : State := s.modDma fun d => { d with engines := mapSet {} d.engines e x }
def State.chan (s : State) (e c : Nat) : DmaCh := mapGet {} s.dma.channels (16 * e + c)
def State.setChan (s : State) (e c : Nat) (x : DmaCh) : State :=
  s.modDma fun d => { d with channels := mapSet {} d.channels (16 * e + c) x }

def State.chRun (s : State) (e c : Nat) : Bool := s.on (Fd.DMA_CH_STAT.RUN e c)
def State.chHead (s : State) (e c : Nat) : Nat := s.get (Fd.DMA_CH_HEAD.HEAD e c)
def State.chDone (s : State) (e c : Nat) : Nat := s.get (Fd.DMA_CH_DONE.DONE e c)
def State.chMode (s : State) (e c : Nat) : Nat := s.get (Fd.DMA_CH_CFG.MODE e c)

/-- May a requester write the registers of an engine (R422)? -/
def State.mayWriteEngine (s : State) (r : Requester) (e : Nat) : Bool :=
  s.isE r || (s.isSE r && s.groveOfReq r == s.groveOfEngine e && (s.groveOfEngine e).isSome)

/-- The port that a packet channel serves (R433). -/
def State.chPort (s : State) (e c : Nat) : Option Nat :=
  let k := if s.chMode e c == 2 then c - 1 else c
  (List.range 72).find? fun p => s.portMode p != 0 && (s.port p).dma == 16 * e + k

/-! ### Events (R431) -/

def State.chBell (s : State) (e c : Nat) : State := s.pulse (s.get (Fd.DMA_CH_CFG.IRQ_SRC e c))

def State.chEvent (s : State) (e c : Nat) (f : Fld) (bell : Bool) : State :=
  let s := s.raise f
  if bell then s.chBell e c else s

/-- A channel stops: RUN clears and a pending stop is spent. -/
def State.chHalt (s : State) (e c : Nat) : State :=
  (s.lower (Fd.DMA_CH_STAT.RUN e c)).setChan e c { s.chan e c with stop := false }

/-- The job of an engine ends. -/
def State.jobEnd (s : State) (e : Nat) : State :=
  match (s.eng e).job with
  | some j => ((s.lower (Fd.DMA_ENG_STAT.BUSY e)).lower (Fd.DMA_CH_STAT.ACTIVE e j.ch)).setEng e { s.eng e with job := none }
  | none => s

/-- An engine-wide bus error (R438): KIND 1 path or hole, 2 firewall, 3 target, 4 failed line; a failed read's channel is not known. -/
def State.engError (s : State) (e a : Nat) (wr desc : Bool) (kind ch : Nat) : State :=
  let s := s.jobEnd e
  let s := s.each (List.range 16) fun s c => (s.chHalt e c).chEvent e c (Fd.DMA_CH_STAT.ERR_STOP e c) true
  let s := (s.setReg (Rg.DMA_ENG_ERR e) (a % 2 ^ 40 + b2n wr * 2 ^ 40 + b2n desc * 2 ^ 41 + kind * 2 ^ 42 +
    (if wr then ch else 0x1F) * 2 ^ 45)).inc (Fd.DMA_ENG_ERR_CNT.COUNT e)
  (s.raise (Fd.DMA_ENG_STAT.ERR e)).pulse (s.get (Fd.DMA_ENG_CFG.ERR_SRC e))

/-- The result of an engine's access. -/
inductive DmaRes where
  | ok (bs : List Byte)
  | wait
  | err (kind : Nat)
deriving DecidableEq, Repr

/-- The path and firewall checks of an engine's access (R27, R28, R285). -/
def State.dmaCheck (s : State) (e c : Nat) (k : FwKind) (a n : Nat) : Option Nat × State :=
  let r := Requester.dma (Fin.ofNat 32 e) (Fin.ofNat 16 c)
  if !(pathOpen s r a && targetOf (a + n - 1) == targetOf a) then (some 1, s)
  else match s.groveOfEngine e with
    | none => (some 2, s)
    | some g =>
      let (ok, s) := s.fwCheck g k reqDma a n
      (if ok then none else some 2, s)

def resKind (a : Nat) (r : MemRes) : DmaRes :=
  match r with
  | .ok bs => .ok bs
  | .wait => .wait
  | .bus => .err 3
  | .dataError => .err (if a < gddrSize then 4 else 3)

/-- An engine's access is issued unless the limit of R30 holds it; an outbound read counts where it stays open. -/
def State.dmaIssue (s : State) (e c a : Nat) (f : State → MemRes × State) : DmaRes × State :=
  let (ok, s) := if targetOf a == .pcie then (true, s) else s.transTake (64 + 16 * e + c) 1
  if !ok then (.wait, s)
  else
    let (r, s) := f s
    (resKind a r, s)

/-- A read of `n` bytes in a service class (R422, R427, R432). -/
def State.dmaRead (s : State) (e c a n : Nat) (rt : Bool) : DmaRes × State :=
  match s.dmaCheck e c .read a n with
  | (some k, s) => (.err k, s)
  | (none, s) => s.dmaIssue e c a (·.memRead (64 + 16 * e + c) a n rt)

/-- A write in a service class. -/
def State.dmaWrite (s : State) (e c a : Nat) (bs : List Byte) (rt : Bool) : DmaRes × State :=
  match s.dmaCheck e c .write a bs.length with
  | (some k, s) => (.err k, s)
  | (none, s) => s.dmaIssue e c a (·.memWrite (.dma (Fin.ofNat 32 e) (Fin.ofNat 16 c)) a bs.length (leNat bs) rt)

/-! ### Descriptors (R425, R426) -/

def dSrc (d : List Byte) : Nat := fieldB d 0 8
def dDst (d : List Byte) : Nat := fieldB d 8 8
def dCount (d : List Byte) : Nat := fieldB d 0x10 4
def dSstride (d : List Byte) : Nat := fieldB d 0x14 4
def dDstride (d : List Byte) : Nat := fieldB d 0x18 4
def dCtl (d : List Byte) : Nat := fieldB d 0x1C 2
def dTc (d : List Byte) : Nat := fieldB d 0x1E 1
def dElemCode (d : List Byte) : Nat := bits (dCtl d) 2 0
/-- Bytes of an element. -/
def dElem (d : List Byte) : Nat := if dElemCode d == 4 then 64 else 2 ^ dElemCode d
def dRt (d : List Byte) : Bool := bitOf (dCtl d) 3
def dIrq (d : List Byte) : Bool := bitOf (dCtl d) 4
def dCirc (d : List Byte) : Nat := bits (dCtl d) 6 5
def dTsReq (d : List Byte) : Bool := bitOf (dCtl d) 7
def dHalt (d : List Byte) : Bool := bitOf (dCtl d) 8
def dWrap (d : List Byte) : Nat := bits (dCtl d) 13 9
def dCont (d : List Byte) : Bool := bitOf (dCtl d) 14

/-- Does a descriptor break R426? -/
def State.badDesc (s : State) (mode port : Nat) (d : List Byte) : Bool :=
  let n := dElem d
  (bitOf (dCtl d) 15 || 4 < dElemCode d || dCirc d == 3 || !zeroB d 0x1F 1 || !zeroB d 0x38 8) ||
  (match mode with
   | 0 => dCount d == 0 || dTc d != 0
   | 1 => dCount d < 64 || dTc d != 0
   | _ => dCount d < 14 || s.get (Fd.FP_PORT_CFG.MAXLEN port) - 4 < dCount d || 5 < dTc d) ||
  (mode == 0 && (dSrc d % n != 0 || dDst d % n != 0 || dSstride d % n != 0 || dDstride d % n != 0)) ||
  (mode != 2 && dTsReq d) ||
  (mode != 0 && (dCirc d != 0 || dCont d || dSstride d != 0 || dDstride d != 0)) ||
  (dCirc d != 0 && (dWrap d < 6 || 31 < dWrap d || (if dCirc d == 1 then dDstride d else dSstride d) != n)) ||
  (dCont d && dCirc d == 0)

def State.descAddr (s : State) (e c i : Nat) : Nat :=
  s.get (Fd.DMA_CH_BASE.BASE e c) * 64 + 64 * (i % 2 ^ s.get (Fd.DMA_CH_CFG.LOG2 e c))

/-- The window and start of the circular side (R429). -/
def State.circStart (s : State) (e c : Nat) (d : List Byte) : Nat × Nat :=
  let own := if dCirc d == 1 then dDst d else dSrc d
  let w := own / 2 ^ dWrap d * 2 ^ dWrap d
  let cur := s.get (Fd.DMA_CH_CURSOR.ADDR e c)
  (w, if !dCont d then own else if w ≤ cur && cur < w + 2 ^ dWrap d then cur else w)

/-- The addresses of element i (R427, R429). -/
def State.elemAddr (s : State) (e c : Nat) (d : List Byte) (i : Nat) : Nat × Nat :=
  let (w, st) := s.circStart e c d
  let circ := w + (st - w + i * dElem d) % 2 ^ dWrap d
  (if dCirc d == 2 then circ else dSrc d + i * dSstride d, if dCirc d == 1 then circ else dDst d + i * dDstride d)

/-- A descriptor completes (R428, R436): write-back, DONE, events, stops. The job goes on or ends. A write-back that waits is made again at
the engine's next row. -/
def State.descEnd (s : State) (e : Nat) (j : DmaJob) (d : List Byte) (status queue xlen tstamp : Nat) : State :=
  let c := j.ch
  let i := s.chDone e c
  let a := s.descAddr e c i + 0x20
  match s.dmaWrite e c a (leBytes 1 status ++ leBytes 1 queue ++ leBytes 2 0 ++ leBytes 4 xlen ++ leBytes 8 tstamp) (dRt d) with
  | (.err k, s) => s.engError e a true true k c
  | (.wait, s) => s.setEng e { s.eng e with job := some { j with
      desc := some d, ended := some { status := status, queue := queue, xlen := xlen, tstamp := tstamp } } }
  | (.ok _, s) =>
    let s := s.set (Fd.DMA_CH_DONE.DONE e c) (i + 1)
    let s := if status != 4 && dCirc d != 0 && s.chMode e c == 0 then
        let (x, y) := s.elemAddr e c d (dCount d)
        s.set (Fd.DMA_CH_CURSOR.ADDR e c) (if dCirc d == 1 then y else x)
      else s
    let s := s.iff (dIrq d && s.on (Fd.DMA_CH_CFG.DONE_EN e c)) fun s => s.chEvent e c (Fd.DMA_CH_STAT.DONE e c) true
    let s := s.iff (status == 4) fun s => s.chEvent e c (Fd.DMA_CH_STAT.BAD e c) true
    let s := s.iff (dHalt d) fun s => (s.chHalt e c).chEvent e c (Fd.DMA_CH_STAT.HALTED e c) true
    let s := s.iff (s.chan e c).stop fun s => s.chHalt e c
    if s.chMode e c == 0 && s.chRun e c && s.chDone e c != j.latch then
      s.setEng e { s.eng e with job := some { ch := c, latch := j.latch } }
    else s.jobEnd e

/-- The write-back of a descriptor is made again, if one waits. -/
def State.descRetry (s : State) (e : Nat) : State :=
  match (s.eng e).job with
  | none => s
  | some j => match j.desc, j.ended with
    | some d, some w => s.descEnd e { j with ended := none } d w.status w.queue w.xlen w.tstamp
    | _, _ => s

/-- Does a write-back wait? -/
def State.descWaits (s : State) (e : Nat) : Bool := (s.eng e).job.any fun j => j.ended.isSome

/-- Read the descriptor at DONE, in bulk class: a bus error, a refused descriptor (which completes, and the next one follows), or one to execute. -/
def State.descRead (s : State) (e : Nat) : Nat → State
  | 0 => s
  | k + 1 =>
    match (s.eng e).job with
    | none => s
    | some j =>
      match j.desc with
      | some _ => s
      | none =>
        let a := s.descAddr e j.ch (s.chDone e j.ch)
        match s.dmaRead e j.ch a 64 false with
        | (.err kind, s) => s.engError e a false true kind j.ch
        | (.wait, s) => s
        | (.ok d, s) =>
          if s.badDesc (s.chMode e j.ch) ((s.chPort e j.ch).getD 0) d then State.descRead (s.descEnd e j d 4 0 0 0) e k
          else s.setEng e { s.eng e with job := some { j with desc := some d } }

/-! ### Jobs (R424) -/

/-- Bytes that wait in a TC buffer of a port. -/
def State.tcBytes (s : State) (p tc : Nat) : Nat :=
  ((mapGet [] (s.port p).queues tc).filter fun f => match f.kind with
    | .software .. => true
    | _ => false).foldl (fun n f => n + f.bytes.length) 0

/-- Is a channel ready (R424)? A transmit descriptor that R426 refuses needs no room. -/
def State.chReady (s : State) (e c : Nat) : Bool :=
  s.chRun e c && s.chHead e c != s.chDone e c &&
  match s.chMode e c, s.chPort e c with
  | 0, _ => true
  | 1, some p => !(s.port p).rxQueue.isEmpty
  | 2, some p =>
    let d := s.rdB (s.descAddr e c (s.chDone e c)) 64
    s.badDesc 2 p d || s.tcBytes p (dTc d) + max 60 (dCount d) ≤ 16384
  | _, _ => false

/-- The channel an idle engine serves next. -/
def State.nextChannel (s : State) (e : Nat) : Option Nat :=
  let from_ := match (s.eng e).last with
    | some c => c + 1
    | none => 0
  ((List.range 16).map fun i => (from_ + i) % 16).find? (s.chReady e)

/-- Start a job on a channel. -/
def State.jobBegin (s : State) (e c : Nat) : State :=
  let s := ((s.raise (Fd.DMA_ENG_STAT.BUSY e)).set (Fd.DMA_ENG_STAT.CUR e) c).raise (Fd.DMA_CH_STAT.ACTIVE e c)
  s.setEng e { s.eng e with last := some c, job := some { ch := c, latch := s.chHead e c } }

def State.jobStart (s : State) (e : Nat) : State :=
  if (s.eng e).job.isSome then s
  else match s.nextChannel e with
    | some c => (s.jobBegin e c).descRead e 4096
    | none => s

/-- Does an element's access include a window offset (R430)? -/
def includes (a n off : Nat) : Bool := a ≤ off && off < a + n

/-- One element of a memory job is read and written (R427). -/
def State.elemRun (s : State) (e : Nat) : State :=
  match (s.eng e).job with
  | none => s
  | some j =>
    match j.desc with
    | none => s.descRead e 4096
    | some d =>
      let c := j.ch
      if s.chMode e c != 0 || dCount d ≤ j.elem || j.ended.isSome then s
      else
        let (src, dst) := s.elemAddr e c d j.elem
        let n := dElem d
        let (r, s) := match j.buf with
          | some bs => (DmaRes.ok bs, s)
          | none => s.dmaRead e c src n (dRt d)
        match r with
        | .err k => s.engError e src false false k c
        | .wait => s
        | .ok bs =>
          match s.dmaWrite e c dst bs (dRt d) with
          | (.err k, s) => s.engError e dst true false k c
          | (.wait, s) => s.setEng e { s.eng e with job := some { j with buf := some bs } }
          | (.ok _, s) =>
            let s := s.setEng e { s.eng e with job := some { j with elem := j.elem + 1, moved := j.moved + n, buf := none } }
            if dCirc d == 0 then s
            else
              let a := (if dCirc d == 1 then dst else src) % 2 ^ dWrap d
              let s := s.iff (includes a n (2 ^ (dWrap d - 1) - 1)) fun s =>
                s.chEvent e c (Fd.DMA_CH_STAT.HALF e c) (s.on (Fd.DMA_CH_CFG.HALF_EN e c))
              s.iff (includes a n (2 ^ dWrap d - 1)) fun s =>
                s.chEvent e c (Fd.DMA_CH_STAT.FULL e c) (s.on (Fd.DMA_CH_CFG.FULL_EN e c))

/-- A memory descriptor whose elements are all written completes, and the next of the job is read (R428); a write-back that waits is made
again. -/
def State.descComplete (s : State) (e : Nat) : State :=
  if s.descWaits e then
    let s := s.descRetry e
    if s.descWaits e then s else s.descRead e 4096
  else match (s.eng e).job with
  | none => s
  | some j =>
    match j.desc with
    | none => s.descRead e 4096
    | some d =>
      if s.chMode e j.ch != 0 || j.elem < dCount d then s else (s.descEnd e j d 1 0 j.moved 0).descRead e 4096

/-! ### Packet channels (R433-R435) -/

/-- The frame a receive channel takes next: from the highest non-empty queue, in arrival order. -/
def PortSt.nextRx (x : PortSt) : Option (Nat × RxFrame) :=
  [3, 2, 1, 0].findSome? fun q => x.rxQueue.find? fun e => e.1 == q

/-- Remove the first frame of a receive queue. -/
def dropRx (q : Nat) : List (Nat × RxFrame) → List (Nat × RxFrame)
  | [] => []
  | e :: l => if e.1 == q then l else e :: dropRx q l

/-- A frame has come to the head of receive queue `q`: while the ring is empty or RUN is 0 it is discarded, and with it each that comes to
the head after it (R434). -/
def State.rxSettle (s : State) (p q : Nat) : State :=
  let e := (s.port p).dma / 16
  let c := (s.port p).dma % 16
  if s.chRun e c && s.chHead e c != s.chDone e c then s
  else
    let n := ((s.port p).rxQueue.filter fun e => e.1 == q).length
    if n == 0 then s
    else (s.count (Fd.FP_PORT_NRT_DROP_CNT.COUNT p) n).modPort p fun x => { x with rxQueue := x.rxQueue.filter fun e => e.1 != q }

/-- The frame that has come to a receive queue last: beyond its 32 KiB it is discarded; at once at the head, the ring decides (R434). -/
def State.rxArrive (s : State) (p : Nat) : State :=
  match (s.port p).rxQueue.getLast? with
  | none => s
  | some (q, _) =>
    let queue := (s.port p).rxQueue.filter fun e => e.1 == q
    if 32768 < queue.foldl (fun n e => n + e.2.bytes.length) 0 then
      (s.nrtDrop p).modPort p fun x => { x with rxQueue := x.rxQueue.dropLast }
    else if queue.length == 1 then s.rxSettle p q else s

/-- A frame arrives at a port (R194, R215, R434). -/
def State.frameIn (s : State) (p : Nat) (f : RxFrame) : State :=
  let t := s.receiveFrame p f
  if (t.port p).rxQueue.length == (s.port p).rxQueue.length then t else t.rxArrive p

/-- Is an engine in the job of a packet channel that has not sent its frame, or idle with that channel next (R424)? -/
def State.packetTurn (s : State) (e c : Nat) : Bool :=
  match (s.eng e).job with
  | some j => j.ch == c && j.sent.isNone
  | none => s.nextChannel e == some c

/-- The job of a packet channel, begun unless it has been, with its descriptor. -/
def State.packetJob (s : State) (e c : Nat) : State :=
  (if (s.eng e).job.isSome then s else s.jobBegin e c).descRead e 1

/-- One received frame into one descriptor (R434). -/
def State.rxJob (s : State) (e c : Nat) : State :=
  if !s.packetTurn e c || s.chMode e c != 1 then s
  else if s.descWaits e then s.descRetry e
  else
    let s := s.packetJob e c
    match (s.eng e).job, s.chPort e c with
    | some j, some p =>
      match j.desc, (s.port p).nextRx with
      | some d, some (q, f) =>
        let len := f.bytes.length
        let bs := f.bytes.take (dCount d)
        match s.dmaWrite e c (dDst d) bs (dRt d) with
        | (.err k, s) => s.engError e (dDst d) true false k c
        | (.wait, s) => s
        | (.ok _, s) =>
          let s := s.modPort p fun x => { x with rxQueue := dropRx q x.rxQueue }
          (s.descEnd e j d (if dCount d < len then 2 else 1) q len f.capture.toNat).rxSettle p q
      | _, _ => s
    | _, _ => s

/-- One frame from one descriptor into its TC buffer (R435). -/
def State.txJob (s : State) (e c : Nat) : State :=
  if !s.packetTurn e c || s.chMode e c != 2 then s
  else if s.descWaits e then s.descRetry e
  else
    let s := s.packetJob e c
    match (s.eng e).job, s.chPort e c with
    | some j, some p =>
      match j.desc with
      | none => s
      | some d =>
        match s.dmaRead e c (dSrc d) (dCount d) (dRt d) with
        | (.err k, s) => s.engError e (dSrc d) false false k c
        | (.wait, s) => s
        | (.ok bs, s) =>
          let bs := bs ++ List.replicate (60 - bs.length) 0
          let k := (s.eng e).frames
          let s := (s.enqueue p (dTc d) { kind := .software e c k (dTsReq d), bytes := bs }).setEng e { s.eng e with frames := k + 1 }
          if dTsReq d then s.setEng e { s.eng e with job := some { j with sent := some k, moved := dCount d } }
          else s.descEnd e j d 1 0 (dCount d) 0
    | _, _ => s

/-- A TS_REQ transmit descriptor completes (R435): OK with its timestamp, or LINK_DOWN. -/
def State.txDone? (s : State) (k : TxKind) (status stamp : Nat) : State :=
  match k with
  | .software e _ k true =>
    match (s.eng e).job with
    | some j => match j.desc with
      | some d => if j.sent == some k then s.descEnd e { j with sent := none } d status 0 (if status == 1 then j.moved else 0) stamp else s
      | none => s
    | none => s
  | _ => s

/-- The frame on a port's wire has left. -/
def State.transmissionEnd (s : State) (p : Nat) : State :=
  let x := s.port p
  match x.wire with
  | none => s
  | some f =>
    let s := (s.modPort p fun y => { y with wire := none }).modField fun y => { y with sent := (p, f) :: y.sent }
    s.txDone? f.kind 1 x.wireAt

/-- A port loses link: its templates' frames as R204 states, software's frames as R435 states. -/
def State.fieldLinkDown (s : State) (p : Nat) : State :=
  let x := s.port p
  let wire := match x.wire with
    | some f => [f]
    | none => []
  let soft (f : TxFrame) : Bool := match f.kind with
    | .software .. => true
    | _ => false
  let lost := (wire ++ x.queues.flatMap (·.2)).filter soft
  if !s.portUp p then s
  else
    let s := s.modPort p fun y => { y with queues := (y.queues.map fun e => (e.1, e.2.filter fun f => !soft f)).filter fun e => !e.2.isEmpty }
    (s.each lost fun s f => s.txDone? f.kind 3 0).fieldDown p

/-! ### Control (R423, R436, R437) -/

def State.dmaHead (s : State) (r : Requester) (e c v : Nat) : State :=
  if !s.mayWriteEngine r e || 2 ^ s.get (Fd.DMA_CH_CFG.LOG2 e c) < (v + 2 ^ 32 - s.chDone e c) % 2 ^ 32 then s
  else s.set (Fd.DMA_CH_HEAD.HEAD e c) v

def State.dmaStart (s : State) (r : Requester) (e c : Nat) : State :=
  if !s.mayWriteEngine r e || s.on (Fd.DMA_ENG_STAT.ERR e) || s.chRun e c then s else s.raise (Fd.DMA_CH_STAT.RUN e c)

/-- A channel stops at its next descriptor boundary, or at once when it is in no job. -/
def State.chStop (s : State) (e c : Nat) : State :=
  if !s.chRun e c then s
  else match (s.eng e).job with
    | some j => if j.ch == c then s.setChan e c { s.chan e c with stop := true } else s.chHalt e c
    | none => s.chHalt e c

def State.dmaStop (s : State) (r : Requester) (e c : Nat) : State := if s.mayWriteEngine r e then s.chStop e c else s

/-- A freeze stops every channel of a grove's engines (R291, R437). -/
def State.dmaFreeze (s : State) (g : Nat) : State :=
  s.each (bitsSet 32 (s.grv g).cfg.engines) fun s e => s.each (List.range 16) fun s c =>
    if s.chRun e c then (s.setChan e c { s.chan e c with frozen := true }).chStop e c else s

def State.dmaThaw (s : State) (g : Nat) : State :=
  s.each (bitsSet 32 (s.grv g).cfg.engines) fun s e => s.each (List.range 16) fun s c =>
    if (s.chan e c).frozen then (s.setChan e c { s.chan e c with frozen := false }).raise (Fd.DMA_CH_STAT.RUN e c) else s

/-- Have a grove's engines come to rest? -/
def State.dmaQuiet (s : State) (g : Nat) : Bool := (bitsSet 32 (s.grv g).cfg.engines).all fun e => (s.eng e).job.isNone

/-- RESET and DESTROY abort descriptors at once (R288). -/
def State.dmaAbort (s : State) (g : Nat) : State :=
  s.each (bitsSet 32 (s.grv g).cfg.engines) fun s e =>
    (s.jobEnd e).each (List.range 16) fun s c => (s.chHalt e c).setChan e c {}

/-- `DMA_CTL.CNT_CLR`, E level only. -/
def State.dmaCntClr (s : State) (r : Requester) : State :=
  if s.isE r then s.each (List.range 32) fun s e => s.lower (Fd.DMA_ENG_ERR_CNT.COUNT e) else s

end Sys2Proof.Machine
end

