-- ==== Sys2Proof/Machine/FreezeImage.lean ====
section
/-! DEFINITION. Freeze images (R292, R293): the parts in their order, and how an image is loaded. Beyond the table of R292 and the
header, the layout of a part is internal to the device; the one here is the model's (log 23). -/

namespace Sys2Proof.Machine

def padTo (n : Nat) (bs : List Byte) : List Byte := sliceB bs 0 n

/-! ### The parts -/

/-- The banks of Frame SRAM that `n` bytes from `a` touch wake (R376). -/
def State.wakeRange (s : State) (a n : Nat) : State :=
  if targetOf a != .sram || n == 0 then s
  else s.each (List.range (bankOf (a + n - 1) - bankOf a + 1)) fun s i => s.wakeNow (a + i * 0x8_0000)

/-- The header (R292): KIND is 0 full, 1 frame; TICK is the tick index of the freeze point, in a frame image that of its frame. -/
def State.imgHead (s : State) (g kind size tick : Nat) : List Byte :=
  padTo 64 (leBytes 4 0x5A465247 ++ leBytes 2 1 ++ leBytes 1 g ++ leBytes 1 kind ++ leBytes 4 size ++ leBytes 4 0 ++
    leBytes 8 tick ++ leBytes 8 (s.grv g).cfg.layoutId ++ leBytes 8 (s.get Fd.CAS_PLAN_ID.PLAN_ID) ++ leBytes 2 s.device)

/-- A tag's 32 bytes: VALUE, TIMESTAMP, RAW, QUAL, ALM_ST, runtime entry. -/
def State.imgTag (s : State) (i : Nat) : List Byte :=
  let a := tagAddr i
  let r := s.rt i
  s.rdB a 16 ++ s.rdB (a + 0x10) 4 ++ s.rdB (a + 0x18) 1 ++ s.rdB (a + 0x1B) 1 ++
    leBytes 1 (b2n r.prevValid + 2 * b2n r.changed + 4 * b2n r.swept) ++ leBytes 1 r.miss ++ leBytes 8 r.prev.toNat

def State.imgTags (s : State) (g : Nat) : List Byte :=
  let r := (s.grv g).cfg
  (List.range r.tagCount).flatMap fun k => s.imgTag (r.tagFirst + k)

/-- The frame part: CONSEC, FAILSAFE, RELEASE_ARMED and the ring indices. -/
def State.imgFrame (s : State) (g : Nat) : List Byte :=
  padTo 64 (leBytes 1 (s.get (Fd.FRM_GRV_STAT.CONSEC g)) ++
    leBytes 1 (s.get (Fd.FRM_GRV_STAT.FAILSAFE g) + 2 * s.get (Fd.FRM_GRV_STAT.RELEASE_ARMED g)) ++ leBytes 2 0 ++
    leBytes 4 (s.get (Fd.SE_AQ_HEAD.HEAD g)) ++ leBytes 4 (s.get (Fd.SE_AQ_TAIL.TAIL g)) ++
    leBytes 4 (s.get (Fd.CAS_MQ_TXHEAD.HEAD g)) ++ leBytes 4 (s.get (Fd.CAS_MQ_TXDONE.DONE g)) ++
    leBytes 4 (mapGet 0 s.cascade.issued g) ++ leBytes 4 (s.get (Fd.CAS_MQ_RXHEAD.HEAD g)) ++
    leBytes 4 (s.get (Fd.CAS_MQ_RXTAIL.TAIL g)))

def State.imgTracked (s : State) (g : Nat) : List Byte := s.rdB (s.grv g).cfg.trackBase (s.grv g).cfg.trackBytes

def State.imgContexts (s : State) (g : Nat) : List Byte :=
  let r := (s.grv g).cfg
  s.rdB r.ctxArea.1 r.ctxArea.2

/-- A channel's 64 bytes; channel 0 also carries the channel its engine served last and the engine's own configuration. -/
def State.imgChannel (s : State) (e c : Nat) : List Byte :=
  let x := s.chan e c
  padTo 64 (leBytes 8 (s.reg (Rg.DMA_CH_BASE e c)) ++ leBytes 4 (s.reg (Rg.DMA_CH_CFG e c)) ++ leBytes 4 (s.reg (Rg.DMA_CH_HEAD e c)) ++
    leBytes 4 (s.reg (Rg.DMA_CH_DONE e c)) ++ leBytes 4 (s.reg (Rg.DMA_CH_STAT e c)) ++ leBytes 8 (s.reg (Rg.DMA_CH_CURSOR e c)) ++
    leBytes 1 (b2n x.frozen + 2 * b2n x.stop) ++ leBytes 1 (match (s.eng e).last with
      | some l => l + 1
      | none => 0) ++ leBytes 2 0 ++ leBytes 4 (s.reg (Rg.DMA_ENG_CFG e)))

def State.imgDma (s : State) (g : Nat) : List Byte :=
  (bitsSet 32 (s.grv g).cfg.engines).flatMap fun e => (List.range 16).flatMap (s.imgChannel e)

/-- An optional number, 0 for none. -/
def optNo : Option Nat → Nat
  | some k => k + 1
  | none => 0

def noOpt (k : Nat) : Option Nat := if k == 0 then none else some (k - 1)

/-- The tasks of a core, by index. -/
def State.tasksOn (s : State) (c : Nat) : List Nat := ((indexed s.frame.tasks).filter fun e => e.2.core == c).map (·.1)

/-- The source that a running-priority stack holds at a PRIO: one at most, as the stack rises strictly (R411). -/
def stackAt (l : List (Nat × Nat)) (p : Nat) : Option Nat := (l.find? fun e => e.2 == p).map (·.1)

/-- The stack that these sources by PRIO make, top first. -/
def stackOf (f : Nat → Option Nat) : List (Nat × Nat) :=
  ((List.range 64).reverse).filterMap fun p => (f p).map fun src => (src, p)

/-- A core's 256 bytes: its running context, its waits, its running-priority stack by PRIO, and where its tasks are dormant. -/
def State.imgCore (s : State) (c : Nat) : List Byte :=
  let k := s.core c
  padTo 256 (padTo 16 (leBytes 2 0 ++ leBytes 2 (optNo k.ctxId) ++ leBytes 2 (optNo k.fwait) ++ leBytes 2 (optNo k.suspended) ++
      leBytes 2 (optNo k.suspWait)) ++
    (List.range 64).flatMap (fun p => leBytes 2 (optNo (stackAt (s.stack c) p))) ++
    (s.tasksOn c).flatMap fun i => leBytes 1 (mapGet 0 k.rtRd i + 128 * b2n ((s.frame.tasks[i]?).any (·.fresh))))

def State.imgIrq (s : State) (g : Nat) : List Byte :=
  let r := (s.grv g).cfg
  (List.range r.irqCount).flatMap (fun k => leBytes 4 (s.reg (Rg.IRQ_SRC_CFG (r.irqFirst + k)))) ++
    (bitsSet 64 r.cores).flatMap s.imgCore

def State.imgSram (s : State) (g : Nat) : List Byte :=
  (bitsSet 5 (s.grv g).cfg.sram).flatMap fun i => s.rdB (sramGrain i) grain

/-- What the state-bound keys are derived from (R440): the device, the lifecycle state, the epoch nonce drawn last. -/
def State.stateKey (s : State) : List Byte := s.sec.idPub ++ leBytes 1 (s.get Fd.HWD_STAT.LC) ++ leBytes 8 s.sec.epochs

/-- The trailer: the CRC of what precedes it and the MAC under a key of this device (R293). -/
def State.imgTrailer (s : State) (body : List Byte) : List Byte :=
  padTo 64 (leBytes 4 (crc32c body) ++ cryptoN 6 16 (s.stateKey ++ body))

/-- The frame image of a grove (R292). -/
def State.frameImage (s : State) (g : Nat) : List Byte :=
  let body := s.imgHead g 1 (s.frameBytes g) s.frame.m ++ s.imgTags g ++ (s.instancesOf g).flatMap s.blockStateB ++
    (s.exchOf g).flatMap (fun e => s.rdB (exchAddr e) 8) ++ s.imgFrame g ++ s.imgTracked g
  body ++ s.imgTrailer body

/-- The full image of a grove. -/
def State.fullImage (s : State) (g : Nat) : List Byte :=
  let body := s.imgHead g 0 (s.fullBytes g) (s.grv g).freezeTick ++ s.imgTags g ++ (s.instancesOf g).flatMap s.blockStateB ++
    (s.exchOf g).flatMap (fun e => s.rdB (exchAddr e) 8) ++ s.imgFrame g ++ s.imgTracked g ++ s.imgContexts g ++ s.imgDma g ++
    s.imgIrq g ++ s.imgSram g
  body ++ s.imgTrailer body

/-! ### Header fields of an image -/

def fiMagic (b : List Byte) : Nat := fieldB b 0 4
def fiVersion (b : List Byte) : Nat := fieldB b 4 2
def fiGrove (b : List Byte) : Nat := fieldB b 6 1
def fiKind (b : List Byte) : Nat := fieldB b 7 1
def fiSize (b : List Byte) : Nat := fieldB b 8 4
def fiTick (b : List Byte) : Nat := fieldB b 0x10 8
def fiLayout (b : List Byte) : Nat := fieldB b 0x18 8
def fiPlan (b : List Byte) : Nat := fieldB b 0x20 8
/-- The CRC of an image of a size stands first in its trailer. -/
def fiCrc (b : List Byte) (size : Nat) : Nat := fieldB b (size - 64) 4

/-- The checks of R293 on a full image for grove g: the first step that fails. The MAC is checked of a buffer alone. -/
def State.imgFail (s : State) (g : Nat) (mac : Bool) (b : List Byte) : Option Nat :=
  let n := s.fullBytes g
  let body := b.take (n - 64)
  if !(fiMagic b == 0x5A465247 && fiVersion b == 1 && fiSize b == n && fiKind b == 0) then some 1
  else if fiCrc b n != crc32c body then some 2
  else if mac && sliceB b (n - 60) 16 != cryptoN 6 16 (s.stateKey ++ body) then some 3
  else if !(fiGrove b == g && fiLayout b == (s.grv g).cfg.layoutId && fiPlan b == s.get Fd.CAS_PLAN_ID.PLAN_ID) then some 4
  else none

/-! ### Loading -/

/-- Memory written by the freeze unit: at the home of its lines, where every copy of a line goes, or in a bank, which wakes. -/
def State.imgWrite (s : State) (a : Nat) (bs : List Byte) : State :=
  if bs.isEmpty then s
  else match targetOf a with
    | .gddr => (s.unitWrite a bs false).2
    | _ => (s.wakeRange a bs.length).wordPut a bs

def State.loadTag (s : State) (i : Nat) (b : List Byte) : State :=
  let a := tagAddr i
  let f := fieldB b 22 1
  let s := (((s.wordPut a (sliceB b 0 16)).wordPut (a + 0x10) (sliceB b 16 4)).wordPut (a + 0x18) (sliceB b 20 1)).wordPut (a + 0x1B) (sliceB b 21 1)
  s.setRt i { prevValid := bitOf f 0, changed := bitOf f 1, swept := bitOf f 2, miss := fieldB b 23 1,
              prev := BitVec.ofNat 64 (fieldB b 24 8) }

/-- Load the parts marked "Tracking" from an image, and give the offset of what follows them. An armed RELEASE was accepted before the
image was made, so every commit that begins after the load follows it (R108). -/
def State.loadTracked (s : State) (g : Nat) (b : List Byte) : Nat × State :=
  let r := (s.grv g).cfg
  let ins := s.instancesOf g
  let exs := s.exchOf g
  let o1 := 64 + 32 * r.tagCount
  let o2 := o1 + 32 * ins.length
  let o3 := o2 + 8 * exs.length
  let o4 := o3 + 64
  let s := s.each (List.range r.tagCount) fun s k => s.loadTag (r.tagFirst + k) (sliceB b (64 + 32 * k) 32)
  let s := s.each (indexed ins) fun s e => s.wordPut (stateAddr e.2) (sliceB b (o1 + 32 * e.1) 32)
  let s := s.each (indexed exs) fun s e => s.wordPut (exchAddr e.2) (sliceB b (o2 + 8 * e.1) 8)
  let w (i : Nat) : Nat := fieldB b (o3 + 4 * i) 4
  let flags := fieldB b (o3 + 1) 1
  let s := ((s.set (Fd.FRM_GRV_STAT.CONSEC g) (fieldB b o3 1)).set (Fd.FRM_GRV_STAT.FAILSAFE g) (bits flags 0 0)).set
    (Fd.FRM_GRV_STAT.RELEASE_ARMED g) (bits flags 1 1)
  let s := ((s.set (Fd.SE_AQ_HEAD.HEAD g) (w 1)).set (Fd.SE_AQ_TAIL.TAIL g) (w 2)).set (Fd.CAS_MQ_TXHEAD.HEAD g) (w 3)
  let s := ((s.set (Fd.CAS_MQ_TXDONE.DONE g) (w 4)).set (Fd.CAS_MQ_RXHEAD.HEAD g) (w 6)).set (Fd.CAS_MQ_RXTAIL.TAIL g) (w 7)
  let s := s.modCas fun x => { x with issued := mapSet 0 x.issued g (w 5) }
  let s := s.modGrv g fun x => { x with relTime := if bitOf flags 1 then some 0 else none }
  (o4 + r.trackBytes, (s.imgWrite r.trackBase (sliceB b o4 r.trackBytes)).fsAny)

def State.loadChannel (s : State) (e c : Nat) (b : List Byte) : State :=
  let f := fieldB b 32 1
  let s := ((s.setReg (Rg.DMA_CH_BASE e c) (fieldB b 0 8)).setReg (Rg.DMA_CH_CFG e c) (fieldB b 8 4)).setReg (Rg.DMA_CH_HEAD e c) (fieldB b 12 4)
  let s := ((s.setReg (Rg.DMA_CH_DONE e c) (fieldB b 16 4)).setReg (Rg.DMA_CH_STAT e c) (fieldB b 20 4)).setReg (Rg.DMA_CH_CURSOR e c) (fieldB b 24 8)
  let s := s.setChan e c { frozen := bitOf f 0, stop := bitOf f 1 }
  if c == 0 then (s.setReg (Rg.DMA_ENG_CFG e) (fieldB b 36 4)).setEng e { s.eng e with last := noOpt (fieldB b 33 1) } else s

/-- Load a core's part: its stack, its context from the record loaded before, its waits and its dormant tasks. -/
def State.loadCore (s : State) (c : Nat) (b : List Byte) : State :=
  let s := s.setStack c (stackOf fun p => noOpt (fieldB b (16 + 2 * p) 2))
  let s := match noOpt (fieldB b 2 2) with
    | some id => s.loadCtx c id false
    | none => s.modCore c fun k => { k with ctxId := none }
  let s := s.modCore c fun k => { k with
    fwait := noOpt (fieldB b 4 2), suspended := noOpt (fieldB b 6 2), suspWait := noOpt (fieldB b 8 2), task := none, sb := [] }
  s.each (indexed (s.tasksOn c)) fun s e =>
    let v := fieldB b (144 + e.1) 1
    (s.modCore c fun k => { k with rtRd := mapSet 0 k.rtRd e.2 (v % 128) }).modFrame fun f =>
      { f with tasks := f.tasks.modify e.2 fun t => { t with fresh := bitOf v 7 } }

/-- Load a full image (R293). -/
def State.loadFull (s : State) (g : Nat) (b : List Byte) : State :=
  let r := (s.grv g).cfg
  let (o, s) := s.loadTracked g b
  let (ca, cn) := r.ctxArea
  let s := s.imgWrite ca (sliceB b o cn)
  let o := o + cn
  let engs := bitsSet 32 r.engines
  let s := s.each (indexed engs) fun s e => s.each (List.range 16) fun s c => s.loadChannel e.2 c (sliceB b (o + 1024 * e.1 + 64 * c) 64)
  let o := o + 1024 * engs.length
  let s := s.each (List.range r.irqCount) fun s k => s.setReg (Rg.IRQ_SRC_CFG (r.irqFirst + k)) (fieldB b (o + 4 * k) 4)
  let o := o + 4 * r.irqCount
  let cores := bitsSet 64 r.cores
  let grains := bitsSet 5 r.sram
  let o' := o + 256 * cores.length
  let s := s.each (indexed grains) fun s e => s.imgWrite (sramGrain e.2) (sliceB b (o' + grain * e.1) grain)
  (s.each (indexed cores) fun s e => s.loadCore e.2 (sliceB b (o + 256 * e.1) 256)).modGrv g fun x => { x with freezeTick := fiTick b }

/-! ### XFER cells (R294) -/

/-- The payload of an XFER cell. -/
def xferData (sub flags off : Nat) (body : List Byte) : List Byte :=
  leBytes 1 sub ++ leBytes 1 flags ++ leBytes 2 0 ++ leBytes 4 off ++ padTo 40 body

/-- An XFER request to a grove's partner under an open tag. -/
def State.xferCell (s : State) (g t : Nat) (data : List Byte) : List Byte :=
  let x := s.mtag t
  mkCell (mkHdr 2 0 false (s.grv g).cfg.partner s.device)
    (t + x.gen * 2 ^ 12 + x.expiry % 2 ^ 16 * 2 ^ 16 + 2 * 2 ^ 32 + 48 * 2 ^ 40 + g * 2 ^ 46 + g * 2 ^ 52) data

/-- One MTAG for a whole transfer; with no free tag, or at the limit of R30, the transfer is not sent (log 24). -/
def State.xferTag (s : State) (g : Nat) : Option Nat × State :=
  match s.freeTag g, s.transTake hawserReq 1 with
  | some t, (true, s) => (some t, s.drawn.openTag t g none)
  | _, (_, s) => (none, s.drawn)

/-- Send an image: its data cells and then its end cell, which alone is answered. -/
def State.xferSend (s : State) (g sub flags : Nat) (image : Option (List Byte)) : State :=
  match s.xferTag g with
  | (none, s) => s
  | (some t, s) =>
    let bs := image.getD []
    let s := s.each (List.range (ceilDiv bs.length 40)) fun s i =>
      s.originate (s.xferCell g t (xferData sub flags i (sliceB bs (40 * i) 40))) none
    let tail := if image.isSome then leBytes 4 bs.length ++ leBytes 4 (fiCrc bs bs.length) else []
    s.originate (s.xferCell g t (xferData (sub + 1) flags 0 tail)) none

/-- The cell that tells a partner of a takeover (R297); it is not answered. -/
def State.xferTaken (s : State) (g : Nat) : State :=
  match s.xferTag g with
  | (none, s) => s
  | (some t, s) => s.originate (s.xferCell g t (xferData 5 4 0 [])) none

end Sys2Proof.Machine
end

