-- ==== Sys2Proof/Machine/Groves.lean ====
section
/-! DEFINITION. Groves (chapter 8): the commands of executive software, reset and clearing, freeze points, transfers between the
groves of a pair, takeover. -/

namespace Sys2Proof.Machine

/-! ### Commands and their end (R279-R282) -/

def opCreate : Nat := 1
def opStart : Nat := 2
def opReset : Nat := 3
def opDestroy : Nat := 4
def opFreeze : Nat := 5
def opThaw : Nat := 6
def opSave : Nat := 7
def opRestore : Nat := 8
def opSwitch : Nat := 9
def opPromote : Nat := 10

def State.grole (s : State) (g : Nat) : Nat := s.get (Fd.GRV_STAT.ROLE g)

/-- RESULT and DETAIL, and the doorbell of CMD_SRC (R282). -/
def State.cmdReport (s : State) (result detail : Nat) : State :=
  ((s.set Fd.GRV_CMD_STAT.RESULT result).set Fd.GRV_CMD_STAT.DETAIL detail).pulse (s.get Fd.GRV_IRQ_SRC.CMD_SRC)

/-- The command in progress ends. -/
def State.cmdEnd (s : State) (result detail : Nat) : State :=
  State.cmdReport { s.lower Fd.GRV_CMD_STAT.BUSY with gcmd := none } result detail

/-- A command begins to run. -/
def State.cmdBegin (s : State) (c : GroveCmd) : State := { s.raise Fd.GRV_CMD_STAT.BUSY with gcmd := some c }

/-- The command in progress, when it is one of these for this grove, ends with OK. -/
def State.cmdOk (s : State) (g : Nat) (ops : List Nat) : State :=
  match s.gcmd with
  | some c => if c.grove == g && ops.contains c.op then s.cmdEnd 0 0 else s
  | none => s

/-- A grove whose freeze was abandoned before FROZEN runs on (R281). -/
def State.unfreeze (s : State) (g : Nat) : State :=
  let was := (s.grv g).freezing
  (s.modGrv g fun x => { x with freezeArg := none, freezing := false, fsFrom := none }).iff was (·.dmaThaw g)

/-- RESET or DESTROY pre-empts the command in progress (R281). -/
def State.abandon (s : State) (op : Nat) : State :=
  match s.gcmd with
  | none => s
  | some c =>
    let s := if c.op == opFreeze then s.unfreeze c.grove
      else if c.op == opStart || c.op == opThaw || c.op == opPromote then s.modGrv c.grove fun x => { x with ask := .none }
      else if c.op == opSwitch then s.modGrv c.grove fun x => { x with handover := false }
      else s
    s.cmdEnd 0x0A op

/-- The states and roles of the command table (R279). -/
def State.cmdAllowed (s : State) (op g : Nat) (arg : Nat) : Bool :=
  let st := s.gstate g
  if op == opCreate then st == stAbsent
  else if op == opStart then st == stHeld
  else if op == opReset then st == stHeld || st == stRunning || st == stFrozen || st == stStandby
  else if op == opDestroy then st != stAbsent
  else if op == opFreeze then st == stRunning && s.grole g == 0
  else if op == opThaw then st == stFrozen
  else if op == opSave then st == stFrozen && (arg == 0 || s.grole g != 0)
  else if op == opRestore then st == stFrozen || st == stHeld
  else if op == opSwitch then st == stRunning && s.grole g == 1
  else st == stStandby

/-- Does the buffer of a command lie in GDDR7 and not in memory of a grove other than the two concerned (R282)? -/
def State.cmdAddrOk (s : State) (r : Requester) (g a n : Nat) : Bool :=
  a + n ≤ gddrSize && s.groves.all fun e => e.1 == g || s.groveOfReq r == some e.1 || !e.2.cfg.memory.any fun m => overlaps a n m.1 (m.2 - m.1)

/-- A command written to `GRV_CMD`: by an E-level core alone; `run` is its work once it is accepted (R279, R281); none is
accepted in the power-fail sequence (R512). -/
def State.grvCmd (s : State) (r : Requester) (op g arg : Nat) (run : State → State) : State :=
  let busy := s.on Fd.GRV_CMD_STAT.BUSY
  let urgent := op == opReset || op == opDestroy
  if !s.isE r || s.on Fd.PWR_STAT.PFW then s
  else if s.on Fd.CFG_STAT.SAFE_HOLD then s.cmdReport 9 0
  else if busy && !urgent then s.cmdReport 1 0
  else if !s.cmdAllowed op g arg then s.cmdReport 2 (s.gstate g)
  else run (if busy then s.abandon op else s)

/-! ### Free units (8.8) -/

/-- The union of a unit bitmap over the groves. -/
def State.heldUnits (s : State) (f : GroveRec → Nat) : Nat := s.groves.foldl (fun v e => v ||| f e.2.cfg) 0

def State.showFree (s : State) : State :=
  let ports := 2 ^ 72 - 1 - s.heldUnits (·.ports) % 2 ^ 72
  let grains := (s.groves.map fun e => (e.2.cfg.mem.map (·.2)).foldl (· + ·) 0).foldl (· + ·) 0
  let s := s.set Fd.GRV_FREE_CORES.CORES (2 ^ 64 - 1 - s.heldUnits (·.cores))
  let s := (s.set Fd.GRV_FREE_RES.LANES (2 ^ 32 - 1 - s.heldUnits (·.lanes))).set Fd.GRV_FREE_RES.ENGINES (2 ^ 32 - 1 - s.heldUnits (·.engines))
  let s := (s.set Fd.GRV_FREE_MEM.GRAINS (16256 - grains)).set Fd.GRV_FREE_MEM.SRAM (31 - s.heldUnits (·.sram))
  s.each (List.range 3) fun s w => s.set (Fd.GRV_FREE_PORTS.PORTS w) (bits ports (32 * w + 31) (32 * w))

/-- The registers that show a grove: state, role, image sizes (8.8). -/
def State.showGrove (s : State) (g st : Nat) : State :=
  let s := (s.setGstate g st).set (Fd.GRV_STAT.ROLE g) (s.grv g).cfg.role
  (s.set (Fd.GRV_IMG_SIZE.BYTES g) (s.fullBytes g)).set (Fd.GRV_FRAME_SIZE.BYTES g) (s.frameBytes g)

/-! ### CREATE (R280) -/

/-- The records at a command address, and the index of the first that cannot be read. -/
structure NewGrove where
  failed  : Option Nat
  head    : List Byte
  fw      : List Byte
  tasks   : List (List Byte)
  strands : List (List Byte)

def NewGrove.cfg (n : NewGrove) : GroveRec := GroveRec.of n.head

/-- The number of the record at an offset from the command address. -/
def newRecordNo (nt off : Nat) : Nat :=
  if off < 256 then 0 else if off < 512 then 1 else if off < 512 + 64 * nt then 2 + (off - 512) / 64
  else 2 + nt + (off - 512 - 64 * nt) / 32

def State.readNew (s : State) (a : Nat) : NewGrove :=
  let head := s.rdB a 256
  let nt := fieldB head 0x3C 2
  let ns := fieldB head 0x3E 2
  { failed := (s.unitFails a (512 + 64 * nt + 32 * ns)).map fun l => newRecordNo nt (64 * l - a)
    head := head
    fw := s.rdB (a + 256) 256
    tasks := (List.range nt).map fun i => s.rdB (a + 512 + 64 * i) 64
    strands := (List.range ns).map fun i => s.rdB (a + 512 + 64 * nt + 32 * i) 32 }

/-- The record offset of the first field that names a unit that is not free. -/
def State.poolFail (s : State) (r : GroveRec) : Option Nat :=
  let others : List GroveRec := s.groves.map fun e => e.2.cfg
  let clash (f : GroveRec → Nat) : Bool := others.any fun o => f o &&& f r != 0
  let range (f n : GroveRec → Nat) : Bool := others.any fun o => overlaps (f o) (n o) (f r) (n r)
  let shares : Nat := others.foldl (fun n o => n + o.bwShare) r.bwShare
  let fields : List (Bool × Nat) :=
    [(clash (·.cores), 0x08), (clash (·.lanes), 0x10), (clash (·.engines), 0x14), (clash (·.ports), 0x18),
     (range (·.tagFirst) (·.tagCount), 0x28), (range (·.ctxFirst) (·.ctxCount), 0x30), (range (·.irqFirst) (·.irqCount), 0x34),
     (clash (·.sram), 0x38), (decide (1024 < shares), 0x3A)]
  let mems : List (Bool × Nat) := (indexed r.mem).map fun (e : Nat × Nat × Nat) =>
    (others.any fun o => o.mem.any fun f => overlaps f.1 f.2 e.2.1 e.2.2, 0x40 + 4 * e.1)
  (fields ++ mems).findSome? fun p => if p.1 then some p.2 else none

/-- The instructions of a new strand break R185 in some instance. -/
def State.newInstBad (s : State) (r : GroveRec) (news : List Strand) (st : Strand) (b : Nat) : Bool :=
  let ib := s.instr b
  let sb := s.blockStateB b
  let all := news.flatMap fun t => (List.range t.count).map fun k => (t, t.first + k)
  let own := exchWritten ib sb
  let touched := own ++ exchRead ib sb
  let olds := (s.loop.strands.flatMap fun t => (List.range t.count).map (t.first + ·))
  !instrForm ib || !stateOk s.signal.curveCount 0 ib sb ||
  (List.range 6).any (fun i => match instrOpnd ib i with
    | some (.tag k _) => !inRange r.tagFirst r.tagCount k
    | _ => false) ||
  (outDests ib).any (fun o => match o with
    | some (.tag k _) => !((s.tag k).wKind == 3 && (s.tag k).wIndex == b)
    | _ => false) ||
  (match instrWait ib with
   | some f => !all.any fun e => instrSet (s.instr e.2) == some f && e.1.cls ≤ st.cls
   | none => false) ||
  (match instrSet ib with
   | some f => all.any (fun e => e.2 < b && instrSet (s.instr e.2) == some f) || olds.any fun k => instrSet (s.instr k) == some f
   | none => false) ||
  all.any (fun e => e.2 < b && (exchWritten (s.instr e.2) (s.blockStateB e.2)).any own.contains) ||
  olds.any fun k => (exchWritten (s.instr k) (s.blockStateB k) ++ exchRead (s.instr k) (s.blockStateB k)).any touched.contains

/-- The blocks of the new strands whose wait never ends, old and new strands together. -/
def State.newStuck (s : State) (news : List Strand) : List Nat :=
  (finishLanes (s.loop.strands ++ news) s.loop.slots s.instr s.blockStateB).flatMap fun e =>
    match e.2.2 with
    | .block b _ _ _ :: _ => [b]
    | _ => []

/-- The record index of the first record that fails its check: grove, firewall, tasks, strands. -/
def State.createFail (s : State) (g : Nat) (n : NewGrove) : Option Nat :=
  let r := n.cfg
  let news := n.strands.map Strand.of
  let ins := Machine.instancesOf r news
  let f := frameSize r ins.length (nub (ins.flatMap fun b => exchWritten (s.instr b) (s.blockStateB b))).length
  let cls (k : Nat) : Bool := k < 4 && s.classMult k != 0
  let stuck := s.newStuck news
  let taskBad (k : Nat) (t : List Byte) : Bool :=
    let x := Task.of t
    let before := s.frame.tasks ++ (n.tasks.take k).map Task.of
    !taskOk (some r) cls s.period s.guardNs t || x.grove != g || before.any (fun o => o.ctx == x.ctx || (o.core == x.core && o.order == x.order)) ||
      64 ≤ (before.filter fun o => o.core == x.core).length
  let strandBad (k : Nat) (b : List Byte) : Bool :=
    let st := Strand.of b
    !strandOk cls (fun l => bitOf r.lanes l) 262144 (s.loop.strands ++ news.take k) b ||
      ((List.range st.count).map (st.first + ·)).any fun i => s.newInstBad r news st i || stuck.contains i
  let nt := n.tasks.length
  (bad (!(groveFields s.cascade.sys s.period s.guardNs true n.head && groveNo n.head == g && groveMemory s.period s.guardNs f r)) 0 ++
   bad (!fwRecordOk n.fw) 1 ++
   (indexed n.tasks).flatMap (fun e => bad (taskBad e.1 e.2) (2 + e.1)) ++
   (indexed n.strands).flatMap fun e => bad (strandBad e.1 e.2) (2 + nt + e.1)).head?

/-- The new grove in place, HELD. -/
def State.install (s : State) (g : Nat) (n : NewGrove) : State :=
  let s := s.setGrv g { cfg := n.cfg, created := true }
  let s := (s.modFrame fun f => { f with tasks := f.tasks ++ n.tasks.map Task.of }).modLoop fun x =>
    { x with strands := x.strands ++ n.strands.map Strand.of }
  let s := s.each (List.range 32) fun s i => s.setReg (Rg.GRV_FW g i) (fieldB n.fw (8 * i) 8)
  (s.setReg (Rg.GRV_STAT g) 0).showGrove g stHeld

/-- CREATE; a record that cannot be read breaks its check (log 76). -/
def State.create (s : State) (r : Requester) (g : Nat) : State :=
  let a := s.get Fd.GRV_CMD_ADDR.ADDR * 64
  let n := s.readNew a
  let size := 512 + 64 * n.tasks.length + 32 * n.strands.length
  if !s.cmdAddrOk r g a size then s.cmdReport 6 0
  else match n.failed, s.poolFail n.cfg, s.createFail g n with
    | some i, _, _ => (s.unitRead a size false).2.cmdReport 4 i
    | none, some off, _ => s.cmdReport 3 off
    | none, none, some i => s.cmdReport 4 i
    | none, none, none =>
      let s' := s.install g n
      if s'.admission.passes then s'.showFree.cmdReport 0 0 else s.cmdReport 5 s'.admission.detail

/-! ### RESET and DESTROY (R288-R290) -/

/-- A core's reads that wait at homes have no further effect on it (R288): a ReadSpec not yet begun goes; the data of one in progress
comes to no core. -/
def State.squashReads (s : State) (c : Nat) : State :=
  let mine (q : HomeReq) : Bool := q.kind == .readSpec && q.core == c
  s.modCoh fun x => { x with
    waiting := x.waiting.filter fun q => !mine q
    retry := x.retry.filter fun q => !mine q && !(q.own && q.core == c)
    opened := x.opened.map fun e => if mine e.2.req then (e.1, { e.2 with req := { e.2.req with core := 64 } }) else e }

/-- A core stops and its context is discarded; its caches, counters and predictor are no part of the context. Reads and stores not issued go;
a far atomic at its home and a device-ordered store issued to its target are drained (R288). -/
def State.stopCore (s : State) (c : Nat) : State :=
  ((s.pmcAccrue c).squashReads c).modCore c fun k => { k with
    ctx := {}, ctxId := none, halted := false, rsv := none, rlb := [], walk := none, fwait := none, task := none, rtRd := []
    sb := if k.issued then (k.sb.filter (·.len != 0)).map fun e => { e with len := 0 } else []
    dispatch := 0, budget := 0, suspended := none, suspCtx := {}, suspWait := none, resume := false, fence := none, misses := []
    walked := [], partialWait := false, stepping := false, shadow := [], lq := [], used := [], fetchEvs := [], fetchBuf := []
    issued := false }

/-- Have the stores and atomics that a core had issued been performed? -/
def State.coreDrained (s : State) (c : Nat) : Bool := (s.core c).far.isNone && (s.core c).sb.isEmpty

/-- A lane stops at the boundary after its block; a pending call is abandoned (R288). -/
def State.stopLane (s : State) (l : Nat) : State :=
  let x := s.lane l
  let s := if x.calling then (match s.loop.slots.findIdx? fun c => x.block == some c.inst with
    | some n => s.callClear n
    | none => s) else s
  (s.setLane l { x with strands := [], block := none, regs := [], calling := false, stopped := true }).laneShow l

/-- No requester has this number: the data of an outbound read that it waits for is discarded (R288). -/
def reqNone : Nat := 4096

/-- The host's queues of a grove close (R506); the data of its outbound reads will be discarded (R288). -/
def State.drainHost (s : State) (g : Nat) : State :=
  let r := (s.grv g).cfg
  let own (n : Nat) : Bool := if n < 64 then bitOf r.cores n else n < 576 && bitOf r.engines ((n - 64) / 16)
  let s := s.each (List.range 16) fun s q => if s.get (Fd.PCI_MQ_CFG.GROVE q) == g then s.lower (Fd.PCI_MQ_CFG.EN q) else s
  let kept (e : Nat × ObRead) : Option (Nat × ObRead) :=
    if !own e.2.req then some e else if e.2.result.isSome then none else some (e.1, { e.2 with req := reqNone })
  s.modPci fun p => { p with reads := p.reads.filterMap kept }

/-- What is outstanding at the acceptance of RESET or DESTROY (R288), and DRAINING. -/
def State.drain (s : State) (g : Nat) (destroy : Bool) : State :=
  let r := (s.grv g).cfg
  let s := (s.setGstate g stDraining).lower (Fd.GRV_STAT.FROZEN_FS g)
  let s := (s.each (bitsSet 64 r.cores) fun s c => s.stopCore c).dmaAbort g
  let s := s.each (bitsSet 32 r.lanes) fun s l => s.stopLane l
  let s := (s.modLoop fun x => { x with tuneBuf := mapDel x.tuneBuf g }).tuneShow
  let s := (s.endTemplates g false).drainHost g
  let s := s.modCas fun x => { x with
    issued := mapSet 0 x.issued g (s.get (Fd.CAS_MQ_TXHEAD.HEAD g))
    mtags := x.mtags.map fun e => (e.1, if e.2.isOpen && e.2.grove == g then { e.2 with squashed := true } else e.2) }
  s.modGrv g fun x => { cfg := x.cfg, fwPending := x.fwPending, created := x.created, destroying := destroy }

/-- The drain is complete: CLEARING, and the command reports (R289). -/
def State.drainComplete (s : State) (g : Nat) : State :=
  if s.gstate g == stDraining && (bitsSet 64 (s.grv g).cfg.cores).all s.coreDrained then (s.setGstate g stClearing).cmdOk g [opReset, opDestroy] else s

/-- Grove memory is written with zeros by invalidating writes; failed lines and poisoned words of it are mended, banks wake (R376). -/
def State.zeroMemory (s : State) (ranges : List (Nat × Nat)) : State :=
  let inside (a : Nat) : Bool := ranges.any fun r => r.1 ≤ a && a < r.2
  let lines := nub ((s.coh.dir.map (·.1) ++ s.coh.l2.flatMap (fun e => e.2.map (·.1)) ++
    s.cores.flatMap (fun e => e.2.l1d.map (·.1) ++ e.2.l1i ++ e.2.shadow)).filter fun l => inside (64 * l))
  let s := s.each lines fun s l => s.dropOthers l none
  let s := s.each ranges fun s r => (s.wakeRange r.1 (r.2 - r.1)).clearMem r.1 r.2
  s.modCoh fun c => { c with
    failed := c.failed.filter fun l => !inside (64 * l)
    macFailed := c.macFailed.filter fun l => !inside (64 * l)
    poisoned := c.poisoned.filter fun w => !inside (8 * w)
    l3 := c.l3.filter fun e => !inside (64 * e.1) }

/-- A tag as a reset leaves it (R290). -/
def State.resetTag (s : State) (i : Nat) : State :=
  let t := s.tag i
  let s := if t.slotEn then (s.clearSlot 0 t.slot).clearSlot 1 t.slot else s
  ((s.wordPut (tagAddr i + 0x18) (leBytes 1 0x14)).wordPut (tagAddr i + 0x1B) (leBytes 1 0)).setRt i {}

/-- The exchange entries of a grove become +0.0 with class uncertain, its block state 0. -/
def State.resetInstances (s : State) (g : Nat) : State :=
  let ins := s.instancesOf g
  let s := s.each (s.exchOf g) fun s e => s.exchPut e 0 1
  s.each ins fun s b => s.wordPut (stateAddr b) (List.replicate 32 0)

/-- The running-priority stacks of a grove's cores and the bits of its sources (R290, R408). -/
def State.resetSources (s : State) (g : Nat) : State :=
  let r := (s.grv g).cfg
  let s := s.each (bitsSet 64 r.cores) fun s c =>
    (s.each (s.stack c) fun s e => s.lower (Fd.IRQ_SRC_CFG.ACTIVE e.1)).setStack c []
  s.each (List.range r.irqCount) fun s k =>
    let i := r.irqFirst + k
    (s.lower (Fd.IRQ_SRC_CFG.EN i)).set (Fd.IRQ_SRC_CFG.PENDING i) (b2n (s.on (Fd.IRQ_SRC_CFG.LEVEL i) && s.on (Fd.IRQ_SRC_CFG.LVL i)))

/-- The map entries, templates and Splice-list entries of a destroyed grove go; the others keep their numbers (R123, R280). -/
def State.dropRecords (s : State) (g : Nat) : State :=
  let r := (s.grv g).cfg
  let gone (n tag : Nat) (b : List Byte) : List Byte := if inRange r.tagFirst r.tagCount tag then List.replicate n 0xFF else b
  let s := s.modField fun f => { f with
    maps := f.maps.map fun e => gone 32 (meTag e) e
    templates := f.templates.filter fun e => !bitOf r.ports e.2.port }
  s.modCas fun x => { x with
    publish := x.publish.filter fun e => !inRange r.tagFirst r.tagCount (recTag e)
    subscribe := x.subscribe.map fun e => gone 16 (recTag e) e }

/-- The ports of a destroyed grove: no grove holds them, so they are held in link-down (R189), and frames waiting for its channels go. -/
def State.releasePorts (s : State) (g : Nat) : State :=
  s.each (bitsSet 72 (s.grv g).cfg.ports) fun s p =>
    let n := (s.port p).rxQueue.length
    let s := (s.fieldLinkDown p).modPort p fun x => { x with rxQueue := [] }
    if n == 0 then s else s.count (Fd.FP_PORT_NRT_DROP_CNT.COUNT p) n

/-- Every unit of a destroyed grove returns to its pool (R289, R290, R302); a core that ran it last has a grove switch to come even to a
new grove of the same number (R308). -/
def State.release (s : State) (g : Nat) : State :=
  let r := (s.grv g).cfg
  let s := (s.releasePorts g).dropRecords g
  let s := s.each (s.coreList.filter fun c => (s.core c).lastGrove == some g) fun s c => s.modCore c fun k => { k with lastGrove := none }
  let s := s.each (List.range r.tagCount) fun s k =>
    (s.wordPut (tagAddr (r.tagFirst + k)) (List.replicate 64 0)).setRt (r.tagFirst + k) {}
  let s := s.each (s.instancesOf g) fun s b => s.wordPut (instrAddr b) (List.replicate 32 0)
  let s := s.modLoop fun x => { x with
    strands := x.strands.filter fun st => !bitOf r.lanes st.lane
    slots := x.slots.map fun c => if c.grove == g then { c with grove := 64, inst := 2 ^ 18 } else c }
  let s := s.modFrame fun f => { f with tasks := f.tasks.filter (·.grove != g) }
  let s := s.each ([Rg.GRV_STAT g, Rg.GRV_IMG_SIZE g, Rg.GRV_FRAME_SIZE g, Rg.GRV_TRACK_LOST_CNT g, Rg.GRV_FW_ERR g] ++
    (List.range 32).map (Rg.GRV_FW g)) fun s a => s.setReg a 0
  ({ s with groves := mapDel s.groves g } : State).showFree

/-- The last clearing step ends: HELD, or ABSENT with every unit back in its pool (R289, R290). -/
def State.clearingComplete (s : State) (g : Nat) : State :=
  if s.gstate g != stClearing then s
  else
    let x := s.grv g
    let s := s.zeroMemory x.cfg.memory
    let s := (s.each (List.range x.cfg.tagCount) fun s k => s.resetTag (x.cfg.tagFirst + k)).resetInstances g
    let s := s.resetSources g
    let s := ((s.set (Fd.FRM_GRV_STAT.CONSEC g) 0).enterFailsafe g).lower (Fd.HWD_MEM_RT_OVER.COUNT g)
    if x.destroying then s.release g
    else
      let s := ((s.lower (Fd.GRV_STAT.TAKEN g)).setReg (Rg.GRV_TRACK_LOST_CNT g) 0).setGstate g stHeld
      s.modFrame fun f => { f with tasks := f.tasks.map fun t => if t.grove == g then { t with waited := false, ranOut := false, fresh := true } else t }

/-! ### Freeze, save, restore (R291-R293) -/

/-- FREEZE is accepted: its freeze point is in this frame before C(g), otherwise in the next. -/
def State.freezeAccept (s : State) (g arg : Nat) : State :=
  (s.cmdBegin { op := opFreeze, grove := g, arg := arg, addr := 0 }).modGrv g fun x =>
    { x with freezeArg := some arg, freezeFrame := if x.cTime.isNone then s.frameNo else s.frameNo + 1 }

/-- The freeze point: S(g), or D(n) after an overrun. With ARG 1 fail-safe follows the releases of this frame. -/
def State.freezePoint (s : State) (g : Nat) : State :=
  let x := s.grv g
  if x.freezeArg.isSome && !x.freezing && s.grunning g && x.freezeFrame ≤ s.frameNo
  then (s.modGrv g fun x => { x with
    freezing := true, freezeTick := s.frame.m, fsFrom := if x.freezeArg == some 1 then some (s.frameNo + 2) else none }).dmaFreeze g
  else s

/-- Contexts, channels and messages have come to rest: FROZEN. -/
def State.freezeComplete (s : State) (g : Nat) : State :=
  let x := s.grv g
  if !(x.freezing && s.dmaQuiet g && s.get (Fd.CAS_MQ_STAT.OPEN g) == 0) then s
  else
    let s := s.each (bitsSet 64 x.cfg.cores) fun s c => s.saveCtx c true
    let s := (s.setGstate g stFrozen).modGrv g fun x => { x with freezing := false, freezeArg := none }
    (s.set (Fd.GRV_STAT.FROZEN_FS g) (b2n (x.freezeArg == some 1))).cmdOk g [opFreeze]

/-- A frozen grove's state that cannot be read (R374, R399). -/
def State.imgUnreadable (s : State) (g : Nat) : Bool :=
  let r := (s.grv g).cfg
  let failed (a n : Nat) : Bool :=
    (s.coh.failed.any fun l => overlaps (64 * l) 64 a n && s.fails l) || (s.coh.stale && (s.unitFails a n).isSome)
  (List.range r.tagCount).any (fun k => s.tagPoisoned (r.tagFirst + k)) || (s.instancesOf g).any (fun b => s.poisonedIn (stateAddr b) 32) ||
  (s.exchOf g).any (fun e => s.poisonedIn (exchAddr e) 8) || failed r.trackBase r.trackBytes || failed r.ctxArea.1 r.ctxArea.2 ||
  s.poisonedIn r.trackBase r.trackBytes || (bitsSet 5 r.sram).any fun i => s.poisonedIn (sramGrain i) grain

def State.saveAccept (s : State) (r : Requester) (g arg : Nat) : State :=
  let a := s.get Fd.GRV_CMD_ADDR.ADDR * 64
  let own := (s.grv g).cfg.memory.any fun m => overlaps a (s.fullBytes g) m.1 (m.2 - m.1)
  if arg == 0 && (own || !s.cmdAddrOk r g a (s.fullBytes g)) then s.cmdReport 6 0
  else if arg == 1 && s.on (Fd.GRV_STAT.PARTNER_LOST g) then s.cmdReport 8 0
  else s.cmdBegin { op := opSave, grove := g, arg := arg, addr := a }

/-- The flags of an end cell: TAKEN, HANDOVER, OVERRUN. -/
def State.endFlags (s : State) (g : Nat) (overrun : Bool) : Nat :=
  b2n overrun + 2 * b2n (s.grv g).handover + 4 * s.get (Fd.GRV_STAT.TAKEN g)

/-- The banks that an image of a grove is read from wake (R376). -/
def State.wakeImage (s : State) (g : Nat) : State :=
  let r := (s.grv g).cfg
  s.each (((bitsSet 5 r.sram).map fun i => (sramGrain i, grain)) ++ [(r.trackBase, r.trackBytes)]) fun s e => s.wakeRange e.1 e.2

/-- The image has been written or sent (R282, R293). `fail`: 5 an uncorrectable error met in reading the grove's state; 1, 2 or 4, of a
transfer, the step that the partner's check fails (log 76); otherwise nothing fails. -/
def State.saveComplete (s : State) (g : Nat) (fail : Nat) : State :=
  match s.gcmd with
  | some c =>
    if c.op != opSave || c.grove != g then s
    else if fail == 5 || s.imgUnreadable g then (s.wakeImage g).cmdEnd 7 5
    else
      let s := s.wakeImage g
      if c.arg == 0 then (s.imgWrite c.addr (s.fullImage g)).cmdEnd 0 0
      else
        let s := s.xferSend g 3 (4 * s.get (Fd.GRV_STAT.TAKEN g)) (some (s.fullImage g))
        if [1, 2, 4].contains fail then s.cmdEnd 7 fail else s.cmdEnd 0 0
  | none => s

/-- RESTORE; a buffer that cannot be read fails the step that reads it (log 76). -/
def State.restore (s : State) (r : Requester) (g : Nat) : State :=
  let a := s.get Fd.GRV_CMD_ADDR.ADDR * 64
  let n := s.fullBytes g
  if !s.cmdAddrOk r g a n then s.cmdReport 6 0
  else match s.unitFails a n, s.unitRead a n false with
    | some l, (_, s) => s.cmdReport 7 (if 64 * l < a + 64 then 1 else 2)
    | none, (b, s) =>
      match s.imgFail g true (b.getD []) with
      | some k => s.cmdReport 7 k
      | none => ((s.loadFull g (b.getD [])).setGstate g stFrozen).cmdReport 0 0

/-! ### Pairs (R294-R301) -/

def State.pairBell (s : State) (g : Nat) : State := s.pulse (s.get Fd.GRV_IRQ_SRC.PAIR_BASE + g)

/-- SWITCH: the partner must be SYNCED and heard (R279, R282, log 22). -/
def State.switchAccept (s : State) (g : Nat) : State :=
  if s.on (Fd.GRV_STAT.PARTNER_LOST g) || !(s.grv g).acked then s.cmdReport 8 0
  else (s.cmdBegin { op := opSwitch, grove := g, arg := 0, addr := 0 }).modGrv g fun x => { x with handover := true }

/-- The frame image, or an overrun's lone end cell, goes to the partner (R294); a HANDOVER hands the grove over at the next tick. An image
whose state cannot be read is not produced (R374), and nothing is sent for it (log 76). -/
def State.track (s : State) (g : Nat) (overrun : Bool) : State :=
  if !(s.grunning g && s.grole g == 1) || (!overrun && s.imgUnreadable g) then s
  else
    let s := s.wakeRange (s.grv g).cfg.trackBase (s.grv g).cfg.trackBytes
    let s' := s.xferSend g 1 (s.endFlags g overrun) (if overrun then none else some (s.frameImage g))
    s'.modGrv g fun x => { x with
      ackWait := x.ackWait ++ [s.frame.m], handover := false, ask := if x.handover then .handover else x.ask }

/-- Runtime of a pair as it is when a grove changes between primary and standby. -/
def GroveSt.fresh (x : GroveSt) : GroveSt :=
  { x with xFrame := none, xBytes := [], xEnd := none, xHandover := false, xApply := false, acksMissed := 0, ackWait := [], acked := false
           handover := false, switchAt := none, saveRecv := [], ask := .none }

/-- The tasks of a grove start at their ENTRY. -/
def State.freshTasks (s : State) (g : Nat) : State :=
  let s := s.modFrame fun f => { f with tasks := f.tasks.map fun t => if t.grove == g then { t with fresh := true } else t }
  s.each (bitsSet 64 (s.grv g).cfg.cores) fun s c => s.modCore c fun k => { k with rtRd := [] }

/-- A standby takes over at a tick (R297, R298, R301); a PROMOTE that waits for the tick has what it asked. -/
def State.takeover (s : State) (g : Nat) : State :=
  let s := ((s.setGstate g stRunning).set (Fd.GRV_STAT.ROLE g) 1).raise (Fd.GRV_STAT.TAKEN g)
  let s := (s.freshTasks g).modGrv g fun x => { x.fresh with noRelease := some s.frameNo }
  ((s.xferTaken g).pairBell g).cmdOk g [opPromote]

/-- A primary becomes the standby at a tick (R299); at a SWITCH it still releases frame j (R301). It has then done what a SWITCH in
progress asked. -/
def State.depose (s : State) (g : Nat) (switch : Bool) : State :=
  let s := ((s.setGstate g stStandby).set (Fd.GRV_STAT.ROLE g) 2).raise (Fd.GRV_STAT.DEPOSED g)
  (((s.lower (Fd.GRV_STAT.SYNCED g)).modGrv g fun x => { x.fresh with relFrame := switch }).pairBell g).cmdOk g [opSwitch]

/-- The state of a paired grove's transfer of the current frame, begun anew at the first cell of a frame. -/
def State.xferBegin (s : State) (g : Nat) : State :=
  let j := s.tickIndex s.now
  if (s.grv g).xFrame == some j then s
  else s.modGrv g fun x => { x with xFrame := some j, xBytes := [], xEnd := none, xHandover := false }

/-- Is an XFER cell from the grove's partner? -/
def State.fromPartner (s : State) (g : Nat) (c : List Byte) : Bool :=
  s.grole g != 0 && hSrc (cellHdr c) == (s.grv g).cfg.partner

/-- Does a cell belong to the frame of the current tick: its EXPIRY is j + 3 (R260)? -/
def State.xferCurrent (s : State) (c : List Byte) : Bool := mExpiry (cellField c) == (s.tickIndex s.now + 3) % 2 ^ 16

/-- Frame data at a standby: into half j mod 2 of its XBUF (R296). -/
def State.xferFrame (s : State) (g off : Nat) (body : List Byte) : State :=
  let s := s.xferBegin g
  let f := s.frameBytes g
  let base := (s.grv g).cfg.xbufBase + s.tickIndex s.now % 2 * f
  if f ≤ 40 * off then s
  else (s.imgWrite (base + 40 * off) (body.take (min 40 (f - 40 * off)))).modGrv g fun x =>
    { x with xBytes := if x.xBytes.contains off then x.xBytes else off :: x.xBytes }

/-- An end cell at a RUNNING grove of the pair: one of the two steps back (R300). -/
def State.xferResolve (s : State) (g flags src : Nat) : State :=
  let mine := s.on (Fd.GRV_STAT.TAKEN g)
  let theirs := bitOf flags 2
  let stay := if mine != theirs then mine else s.device < src
  if stay then s else s.modGrv g fun x => { x with ask := .depose }

/-- A saved image has arrived whole: a standby loads it and is FROZEN; any other state discards it and counts it (R293). -/
def State.xferLoad (s : State) (g size crc : Nat) : State :=
  let x := s.grv g
  let n := s.fullBytes g
  let b := (List.range (ceilDiv n 40)).flatMap fun i => sliceB (mapGet [] x.saveRecv i) 0 40
  let whole := (List.range (ceilDiv n 40)).all fun i => (mapGet? x.saveRecv i).isSome
  let s := s.modGrv g fun x => { x with saveRecv := [] }
  if s.gstate g == stStandby && whole && size == n && crc == fiCrc b n && (s.imgFail g false (b.take n)).isNone
  then (s.loadFull g (b.take n)).setGstate g stFrozen
  else s.inc (Fd.GRV_TRACK_LOST_CNT.COUNT g)

/-- An XFER cell at its destination (R293-R301); an end cell is answered. -/
def State.xferIn (s : State) (c : List Byte) : State :=
  let g := mDgrove (cellField c)
  let d := sliceB c 16 48
  let sub := fieldB d 0 1
  let flags := fieldB d 1 1
  let off := fieldB d 4 4
  let mine := s.fromPartner g c
  let standby := s.gstate g == stStandby
  let running := s.grunning g
  let s' :=
    if !mine then s
    else if sub == 1 then (if standby && s.xferCurrent c then s.xferFrame g off (d.drop 8) else s)
    else if sub == 2 then
      if standby && s.xferCurrent c then (s.xferBegin g).modGrv g fun x =>
        { x with xEnd := some (fieldB d 8 4, fieldB d 12 4, bitOf flags 0), xHandover := bitOf flags 1 }
      else if running then s.xferResolve g flags (hSrc (cellHdr c)) else s
    else if sub == 3 then (if standby then s.modGrv g fun x => { x with saveRecv := mapPut x.saveRecv off (d.drop 8) } else s)
    else if sub == 4 then s.xferLoad g (fieldB d 8 4) (fieldB d 12 4)
    else if sub == 5 && running && s.grole g == 1 then s.modGrv g fun x => { x with ask := .depose }
    else s
  if sub == 2 || sub == 4 then
    s'.originate (s.rspCell c (if [stAbsent, stDraining, stClearing].contains (s.gstate g) then 2 else 0)) none
  else s'

/-- A frame image is not applied at T(j+1) (card "Tracking frame lost"). -/
def State.trackLost (s : State) (g : Nat) (mismatch : Bool) : State :=
  ((s.inc (Fd.GRV_TRACK_LOST_CNT.COUNT g)).raise (Fd.GRV_STAT.TRACK_LOSS g)).setIf mismatch (Fd.GRV_STAT.MISMATCH g) 1

/-- T(j+1) at a standby that was one throughout frame j (R296, R297, R301). -/
def State.trackTick (s : State) (g j : Nat) : State :=
  let x := s.grv g
  let f := s.frameBytes g
  if x.switchAt == some j then s.takeover g
  else match (if x.xFrame == some j then x.xEnd else none) with
    | none =>
      let s := s.trackLost g false
      if s.on (Fd.GRV_STAT.SYNCED g) then s.takeover g else s
    | some (size, crc, overrun) =>
      let s := if x.xHandover then s.modGrv g fun y => { y with switchAt := some (j + 1) } else s
      if overrun then s
      else
        let base := x.cfg.xbufBase + j % 2 * f
        let (read, s) := s.unitRead base f false
        let b := if s.poisonedIn base f then [] else read.getD []
        let whole := (List.range (ceilDiv f 40)).all x.xBytes.contains
        let differs := size != f || (whole && fiLayout b != x.cfg.layoutId)
        if whole && !differs && crc == fiCrc b f && crc == crc32c (b.take (f - 64))
        then (s.loadTracked g b).2.modGrv g fun y => { y with xApply := true }
        else s.trackLost g differs

/-- The apply ends (R296). -/
def State.applyComplete (s : State) (g : Nat) : State :=
  if (s.grv g).xApply then (s.modGrv g fun x => { x with xApply := false }).setIf (!s.on (Fd.GRV_STAT.MISMATCH g)) (Fd.GRV_STAT.SYNCED g) 1
  else s

/-- T(m) at a primary: the end cell of the frame two ticks back without an acknowledgement is missed (R299). -/
def State.ackTick (s : State) (g m : Nat) : State :=
  s.modGrv g fun x =>
    if x.ackWait.contains (m - 2) && 2 ≤ m then
      { x with acksMissed := min 3 (x.acksMissed + 1), ackWait := x.ackWait.filter (· != m - 2) } else x

/-- Three in a row (R299). -/
def State.partnerLost (s : State) (g : Nat) : State :=
  if 3 ≤ (s.grv g).acksMissed && !s.on (Fd.GRV_STAT.PARTNER_LOST g) then (s.raise (Fd.GRV_STAT.PARTNER_LOST g)).pairBell g else s

/-- What a grove has asked of the tick, done at it (R279, R299, R301). -/
def State.tickAsk (s : State) (g : Nat) : State :=
  let ask := (s.grv g).ask
  let s := s.modGrv g fun x => { x with ask := .none, relFrame := false }
  match ask with
  | .none => s
  | .start => (((s.setGstate g stRunning).freshTasks g).bootGrove g).cmdOk g [opStart]
  | .thaw => (((s.setGstate g stRunning).lower (Fd.GRV_STAT.FROZEN_FS g)).dmaThaw g).cmdOk g [opThaw]
  | .promote => s.takeover g
  | .depose => s.depose g false
  | .handover => s.depose g true

/-- A command that ends at the next tick. -/
def State.askTick (s : State) (op g : Nat) (ask : TickAsk) : State :=
  (s.cmdBegin { op := op, grove := g, arg := 0, addr := 0 }).modGrv g fun x => { x with ask := ask }

/-! ### Firewall entries (R284, R287, R302) -/

/-- A write of a firewall entry: reserved bits fall away, a reserved encoding is ignored whole. -/
def State.fwWrite (s : State) (r : Requester) (g i v : Nat) : State :=
  let v := setBits (v % 2 ^ 64) 11 4 0
  if !s.isE r || s.gstate g == stAbsent || !fwWordOk v then s
  else
    let old := BitVec.ofNat 64 (s.reg (Rg.GRV_FW g i))
    let s := s.modGrv g fun x => { x with fwPending := (i, old, s.coh.fwSeq) :: x.fwPending }
    (s.modCoh fun c => { c with fwSeq := c.fwSeq + 1 }).setReg (Rg.GRV_FW g i) v

/-! ### The commands and events of the table -/

def execCreate (r : Requester) (g : GroveId) (s : State) : Host.Outcome State Fault Refusal :=
  done (s.grvCmd r opCreate g.val 0 (·.create r g.val))

def execStart (r : Requester) (g : GroveId) (s : State) : Host.Outcome State Fault Refusal :=
  done (s.grvCmd r opStart g.val 0 (·.askTick opStart g.val .start))

def execReset (r : Requester) (g : GroveId) (s : State) : Host.Outcome State Fault Refusal :=
  done (s.grvCmd r opReset g.val 0 fun s => (s.cmdBegin { op := opReset, grove := g.val, arg := 0, addr := 0 }).drain g.val false)

def execDestroy (r : Requester) (g : GroveId) (s : State) : Host.Outcome State Fault Refusal :=
  done (s.grvCmd r opDestroy g.val 0 fun s => (s.cmdBegin { op := opDestroy, grove := g.val, arg := 0, addr := 0 }).drain g.val true)

def execFreeze (r : Requester) (g : GroveId) (arg : Bool) (s : State) : Host.Outcome State Fault Refusal :=
  done (s.grvCmd r opFreeze g.val (b2n arg) (·.freezeAccept g.val (b2n arg)))

def execThaw (r : Requester) (g : GroveId) (s : State) : Host.Outcome State Fault Refusal :=
  done (s.grvCmd r opThaw g.val 0 (·.askTick opThaw g.val .thaw))

def execSave (r : Requester) (g : GroveId) (arg : Bool) (s : State) : Host.Outcome State Fault Refusal :=
  done (s.grvCmd r opSave g.val (b2n arg) (·.saveAccept r g.val (b2n arg)))

def execRestore (r : Requester) (g : GroveId) (s : State) : Host.Outcome State Fault Refusal :=
  done (s.grvCmd r opRestore g.val 0 (·.restore r g.val))

def execSwitch (r : Requester) (g : GroveId) (s : State) : Host.Outcome State Fault Refusal :=
  done (s.grvCmd r opSwitch g.val 0 (·.switchAccept g.val))

def execPromote (r : Requester) (g : GroveId) (s : State) : Host.Outcome State Fault Refusal :=
  done (s.grvCmd r opPromote g.val 0 (·.askTick opPromote g.val .promote))

def execDrainComplete (g : GroveId) (s : State) : Host.Outcome State Fault Refusal := done (s.drainComplete g.val)

def execClearingComplete (g : GroveId) (s : State) : Host.Outcome State Fault Refusal := done (s.clearingComplete g.val)

def execFreezeComplete (g : GroveId) (s : State) : Host.Outcome State Fault Refusal := done (s.freezeComplete g.val)

def execSaveComplete (g : GroveId) (fail : Fin 6) (s : State) : Host.Outcome State Fault Refusal :=
  done (s.saveComplete g.val fail.val)

def execXfer (c : List Byte) (s : State) : Host.Outcome State Fault Refusal :=
  done (if s.msgExpired c then s.inc Fd.CAS_MSG_EXPIRED_CNT.COUNT else s.xferIn c)

def execTrackingApplyComplete (g : GroveId) (s : State) : Host.Outcome State Fault Refusal := done (s.applyComplete g.val)

def execPartnerLost (g : GroveId) (s : State) : Host.Outcome State Fault Refusal := done (s.partnerLost g.val)

def execFirewallEntryWrite (r : Requester) (g : GroveId) (i : Fin 32) (v : Word) (s : State) : Host.Outcome State Fault Refusal :=
  done (s.fwWrite r g.val i.val v.toNat)

end Sys2Proof.Machine
end

