-- ==== Sys2Proof/Machine/CascadeRows.lean ====
section
/-! DEFINITION. The commands and events of the cascade (chapter 7), one meaning per row. -/

namespace Sys2Proof.Machine

/-- A request at its destination: a message for a ring, or an XFER cell (R259, R263, R294). -/
def State.reqIn (s : State) (c : List Byte) : State :=
  if mOp (cellField c) == 2 then s.xferIn c
  else
    let (status, s) := s.reqRing c
    s.originate (s.rspCell c status) none

/-- A Message cell past its EXPIRY is discarded and counted wherever it is received (R261). -/
def State.unexpired (s : State) (c : List Byte) (f : State → State) : State :=
  if s.msgExpired c then s.inc Fd.CAS_MSG_EXPIRED_CNT.COUNT else f s

/-- A Replication or Message cell at its destination. -/
def State.deliver (s : State) (c : List Byte) : State :=
  let h := cellHdr c
  if hClass h == 1 then s.dataIn c
  else if hKind h == 0 then s.reqIn c
  else s.rspTake c

/-- A cell that is not link-local goes on by its route (R238-R241); it stands in its receive queue until it leaves (R227). -/
def State.forward (s : State) (p : Nat) (c : List Byte) : State :=
  match s.route (cellHdr c) (some (p / 2)) with
  | .out q h => s.queueCell q { bytes := setHdr c h, held := some (p, rxQueueNo c) }
  | .noRoute => (s.noRoute 1).cellTaken p c
  | .here => (s.deliver c).cellTaken p c

/-- A Time or Management cell of a port, by class and kind (R236). -/
def State.linkCell (s : State) (p : Nat) (c : List Byte) (rx : Nat) : State :=
  let h := cellHdr c
  match hClass h, hKind h with
  | 0, 0 => s.beatIn p c rx
  | 0, 1 => s.dreqIn p c rx
  | 0, _ => s.drspIn p c rx
  | _, 1 => s.helloIn p c
  | _, 2 => s.chunkIn p false c
  | _, 3 => s.chunkIn p true c
  | _, 4 => s.confirmIn p c
  | _, 5 => s.diagReqIn p c
  | _, 6 => s.diagRspIn p c
  | _, _ => s.closeIn p

/-- A link frame arrives (R224-R228, R235, R261): authenticated, its cell delivered, forwarded or discarded. -/
def State.linkReceive (s : State) (p : Nat) (f : LinkFrame) : State :=
  match s.linkAccept p f with
  | (none, s) => s
  | (some c, s) =>
    let cls := hClass (cellHdr c)
    if !cellLegal c then (s.gap p 1).cellTaken p c
    else if !classCrosses (s.hwState p) cls then s.cellTaken p c
    else if cls == 1 then s.forward p c
    else if cls == 2 then (if s.msgExpired c then (s.inc Fd.CAS_MSG_EXPIRED_CNT.COUNT).cellTaken p c else s.forward p c)
    else (s.cellTaken p c).linkCell p c f.rx

def execBlockLock (p : HawserPort) (s : State) : Host.Outcome State Fault Refusal :=
  done (s.blockLock p.val)

def execKeyDerivationComplete (p : HawserPort) (s : State) : Host.Outcome State Fault Refusal :=
  done (s.keysDerived p.val)

def execBringupRetry (p : HawserPort) (s : State) : Host.Outcome State Fault Refusal :=
  done (s.bringUpRetry p.val)

def execHeldHelloTransmit (p : HawserPort) (s : State) : Host.Outcome State Fault Refusal :=
  done (s.heldHello p.val)

def execHawserLinkDown (p : HawserPort) (s : State) : Host.Outcome State Fault Refusal :=
  done (s.hawserDown p.val)

def execLinkFrameReceived (p : HawserPort) (f : LinkFrame) (s : State) : Host.Outcome State Fault Refusal :=
  done (s.linkReceive p.val f)

def execLinkFrameTransmit (p : HawserPort) (s : State) : Host.Outcome State Fault Refusal :=
  done (s.linkTransmit p.val)

def execHello (p : HawserPort) (m : List Byte) (s : State) : Host.Outcome State Fault Refusal :=
  done (s.helloIn p.val m)

def execCert (p : HawserPort) (m : List Byte) (s : State) : Host.Outcome State Fault Refusal :=
  done (s.chunkIn p.val false m)

def execKeyx (p : HawserPort) (m : List Byte) (s : State) : Host.Outcome State Fault Refusal :=
  done (s.chunkIn p.val true m)

def execConfirm (p : HawserPort) (m : List Byte) (s : State) : Host.Outcome State Fault Refusal :=
  done (s.confirmIn p.val m)

def execDiagReq (p : HawserPort) (m : List Byte) (s : State) : Host.Outcome State Fault Refusal :=
  done (s.diagReqIn p.val m)

def execDiagRsp (p : HawserPort) (m : List Byte) (s : State) : Host.Outcome State Fault Refusal :=
  done (s.diagRspIn p.val m)

def execClose (p : HawserPort) (s : State) : Host.Outcome State Fault Refusal :=
  done (s.closeIn p.val)

def execDreqTransmit (p : HawserPort) (s : State) : Host.Outcome State Fault Refusal :=
  done (s.dreqOut p.val)

def execDreq (p : HawserPort) (m : List Byte) (rx : Nat) (s : State) : Host.Outcome State Fault Refusal :=
  done (s.dreqIn p.val m rx)

def execDrsp (p : HawserPort) (m : List Byte) (rx : Nat) (s : State) : Host.Outcome State Fault Refusal :=
  done (s.drspIn p.val m rx)

def execBeat (p : HawserPort) (m : List Byte) (rx : Nat) (s : State) : Host.Outcome State Fault Refusal :=
  done (s.beatIn p.val m rx)

def execBeatMiss  (s : State) : Host.Outcome State Fault Refusal :=
  done (s.beatMiss)

def execStartupWaitExpiry  (s : State) : Host.Outcome State Fault Refusal :=
  done (s.startupWait)

def execTaprootStartDelay  (s : State) : Host.Outcome State Fault Refusal :=
  done (s.taprootStart)

def execData (c : List Byte) (s : State) : Host.Outcome State Fault Refusal :=
  done (s.dataIn c)

def execMqTxheadWrite (r : Requester) (g : GroveId) (v : Word32) (s : State) : Host.Outcome State Fault Refusal :=
  done (s.regWriteAt r (Rg.CAS_MQ_TXHEAD g.val) 4 (·.txHeadWrite g.val v.toNat))

def execMessageIssue (g : GroveId) (s : State) : Host.Outcome State Fault Refusal :=
  done (s.msgIssue g.val)

def execReq (c : List Byte) (s : State) : Host.Outcome State Fault Refusal :=
  done (s.unexpired c (·.reqIn c))

def execRsp (c : List Byte) (s : State) : Host.Outcome State Fault Refusal :=
  done (s.unexpired c (·.rspTake c))

def execMessageExpiry (mtag : Fin 4096) (s : State) : Host.Outcome State Fault Refusal :=
  done (s.msgExpire mtag.val)

def execMqDoorbellHoldoffEnd (g : GroveId) (s : State) : Host.Outcome State Fault Refusal :=
  done (s.msgBellEnd g.val)

def execMqRxtailWrite (r : Requester) (g : GroveId) (v : Word32) (s : State) : Host.Outcome State Fault Refusal :=
  done (s.regWriteAt r (Rg.CAS_MQ_RXTAIL g.val) 4 (·.rxTailWrite g.val v.toNat))

def execCasCntClr (r : Requester) (s : State) : Host.Outcome State Fault Refusal :=
  done (s.regWriteAt r Rg.CAS_CTL 4 (·.casCntClr))

def execBlockLockTimeout (p : HawserPort) (s : State) : Host.Outcome State Fault Refusal :=
  done (s.blockLockTimeout p.val)

def execDelayResponseTimeout (p : HawserPort) (s : State) : Host.Outcome State Fault Refusal :=
  done (s.delayTimeout p.val)

end Sys2Proof.Machine
end

