-- ==== Sys2Proof/Machine/DmaRows.lean ====
section
/-! DEFINITION. The commands and events of the DMA engines (chapter 13), one meaning per row. -/

namespace Sys2Proof.Machine

def execDmaHeadWrite (r : Requester) (e : EngineId) (ch : ChannelId) (v : Word32) (s : State) : Host.Outcome State Fault Refusal :=
  done (s.regWriteAt r (Rg.DMA_CH_HEAD e.val ch.val) 4 fun s => s.dmaHead r e.val ch.val v.toNat)

def execDmaStart (r : Requester) (e : EngineId) (ch : ChannelId) (s : State) : Host.Outcome State Fault Refusal :=
  done (s.regWriteAt r (Rg.DMA_CH_CTL e.val ch.val) 4 fun s => s.dmaStart r e.val ch.val)

def execDmaStop (r : Requester) (e : EngineId) (ch : ChannelId) (s : State) : Host.Outcome State Fault Refusal :=
  done (s.regWriteAt r (Rg.DMA_CH_CTL e.val ch.val) 4 fun s => s.dmaStop r e.val ch.val)

def execDmaJobStart (e : EngineId) (s : State) : Host.Outcome State Fault Refusal :=
  done (s.jobStart e.val)

def execDmaElementComplete (e : EngineId) (s : State) : Host.Outcome State Fault Refusal :=
  done (s.elemRun e.val)

def execDescriptorComplete (e : EngineId) (s : State) : Host.Outcome State Fault Refusal :=
  done (s.descComplete e.val)

/-- An error response from a target, or a failed line, at an access of an engine that has work (R438). -/
def State.targetError (s : State) (e a : Nat) (wr desc failed : Bool) (ch : Option Nat) : State :=
  if (s.eng e).job.isSome || (List.range 16).any (s.chRun e) then
    s.engError e a wr desc (if failed && !wr && a < gddrSize then 4 else 3) (ch.getD 0x1F)
  else s

def execEngineBusError (e : EngineId) (addr : PAddr) (wr desc failed : Bool) (ch : Option ChannelId) (s : State) :
    Host.Outcome State Fault Refusal :=
  done (s.targetError e.val addr.toNat wr desc failed (ch.map (·.val)))

def execPortReceiveJob (e : EngineId) (ch : ChannelId) (s : State) : Host.Outcome State Fault Refusal :=
  done (s.rxJob e.val ch.val)

def execPortTransmitJob (e : EngineId) (ch : ChannelId) (s : State) : Host.Outcome State Fault Refusal :=
  done (s.txJob e.val ch.val)

def execDmaCntClr (r : Requester) (s : State) : Host.Outcome State Fault Refusal :=
  done (s.regWriteAt r Rg.DMA_CTL 4 (·.dmaCntClr r))

end Sys2Proof.Machine
end

