-- ==== Sys2Proof/Machine/Sprint.lean ====
section
/-! DEFINITION. Sprint (R519-R521): its request, grant and end at ticks, the ledgers, the cooldown. -/

namespace Sys2Proof.Machine

def State.modPower (s : State) (f : PowerSt → PowerSt) : State := { s with power := f s.power }

/-- A temperature reading in units of 1/16 °C, once taken. -/
def State.temp (s : State) (k : Nat) : Option Int :=
  if s.on (Fd.THM_TEMP.VALID k) then some (sext 16 (s.get (Fd.THM_TEMP.T k))) else none

def State.junctionHot (s : State) : Bool :=
  (List.range 8).any fun k => match s.temp k with
    | some t => decide (101 * 16 ≤ t)
    | none => false

def State.sprintBell (s : State) : State := s.pulse (s.get Fd.PWR_IRQ_SRC.SPRINT_SRC)

/-- The first condition of R519 that fails, as REFUSE shows it; 0 when none does. -/
def State.sprintRefusal (s : State) : Nat :=
  if s.on Fd.PWR_SPRINT.COOL then 1
  else if 4 * s.get Fd.PWR_LEDGER_POWERED.MS < 100 * (s.get Fd.PWR_LEDGER_SPRINT.MS + 30000) then 2
  else if s.on Fd.PWR_SPRINT.DISABLED then 3
  else if s.junctionHot then 4
  else if (match s.temp 8 with
    | some t => decide (85 * 16 < t)
    | none => false) then 5
  else if s.on Fd.PWR_STAT.PFW then 6
  else 0

/-- The ledger reaches the lifetime cap (R521). -/
def State.sprintCap (s : State) : State :=
  if 50492160000 ≤ s.get Fd.PWR_LEDGER_SPRINT.MS then s.raise Fd.PWR_SPRINT.DISABLED else s

/-- Grant at a tick (R519, R521). -/
def State.sprintGrant (s : State) : State :=
  let s := (((s.raise Fd.PWR_SPRINT.ACTIVE).lower Fd.PWR_SPRINT.REFUSE).set Fd.PWR_LEDGER_SPRINT.MS
    (s.get Fd.PWR_LEDGER_SPRINT.MS + 30000)).sprintCap
  (s.modPower fun p => { p with sprintSince := some s.now, sprintHot := false }).sprintBell

/-- End at a tick (R520, R521): the part of the 30 s not used is refunded; a part of a millisecond counts as used (log 25). -/
def State.sprintEnd (s : State) (t0 : Nat) : State :=
  let used := min 30000 (ceilDiv (s.now - t0) 1000000)
  let s := ((s.lower Fd.PWR_SPRINT.ACTIVE).lower Fd.PWR_SPRINT.REQ).set Fd.PWR_LEDGER_SPRINT.MS
    (s.get Fd.PWR_LEDGER_SPRINT.MS - (30000 - used))
  let s := (s.raise Fd.PWR_SPRINT.COOL).set Fd.PWR_COOL_END.NS (s.now + 270000000000)
  (s.modPower fun p => { p with
    sprintSince := none, sprintHot := false, clkAdj := p.clkAdj + ((s.now - t0) * 2 / 5 : Nat) }).sprintBell

/-- The cooldown ends at `PWR_COOL_END`. -/
def State.coolEnd (s : State) : State :=
  if s.on Fd.PWR_SPRINT.COOL then (s.atTime (s.get Fd.PWR_COOL_END.NS)).lower Fd.PWR_SPRINT.COOL else s

/-- Must the sprint that began at `t0` end at the tick at `t` (R520)? -/
def State.sprintOver (s : State) (t0 t period : Nat) : Bool :=
  t0 + 30000000000 < t + period || !s.on Fd.PWR_SPRINT.REQ || s.power.sprintHot || s.junctionHot || s.on Fd.PWR_STAT.PFW

/-- What the tick at `t` does for sprint: end it, grant it, or show why not (R519, R520). -/
def State.sprintTick (s : State) (t period : Nat) : State :=
  let s := if s.on Fd.PWR_SPRINT.COOL && s.get Fd.PWR_COOL_END.NS ≤ t then s.lower Fd.PWR_SPRINT.COOL else s
  match s.power.sprintSince with
  | some t0 => if s.sprintOver t0 t period then s.sprintEnd t0 else s
  | none =>
    if !s.on Fd.PWR_SPRINT.REQ then s
    else if s.sprintRefusal == 0 then s.sprintGrant else s.set Fd.PWR_SPRINT.REFUSE s.sprintRefusal

end Sys2Proof.Machine
end

