-- ==== Sys2Proof/Machine/Frame.lean ====
section
/-! DEFINITION. The scan frame (chapter 3): the tick, the end of the sweep, real-time tasks, the completion of a grove's compute, its
commit, the commit deadline. -/

namespace Sys2Proof.Machine

/-! ### Completion of compute (R94-R96) -/

/-- Have the lanes of a grove ended the strands due in this frame? -/
def State.lanesDone (s : State) (g : Nat) : Bool :=
  (bitsSet 32 (s.grv g).cfg.lanes).all fun l => (s.lane l).block.isNone && (s.lane l).strands.isEmpty && !(s.lane l).stopped

/-- Have the tasks of a grove due in this frame executed `FRAME.WAIT`? -/
def State.tasksDone (s : State) (g : Nat) : Bool := s.frame.tasks.all fun t => t.grove != g || !s.due t.cls || t.waited

/-- The Compute interval of a grove closes: its held tuning writes are applied (R182). -/
def State.closeCompute (s : State) (g : Nat) : State := (s.modGrv g fun x => { x with computing := false }).applyTune g

/-- C(g), once the compute of a grove is complete (R94, R96): staging begins; no publications leave in fail-safe (R107). -/
def State.computeCheck (s : State) (g : Nat) : State :=
  let x := s.grv g
  if !(x.computing && !x.faulted && s.lanesDone g && s.tasksDone g) then s
  else
    let s := (s.closeCompute g).modGrv g fun x => { x with cTime := some s.now, staging := true }
    let s := s.stageTemplates g
    if s.failsafe g then s else s.stageSplices g

/-! ### Real-time tasks (R99-R102, R310) -/

/-- The next due task of a core while its grove's Compute interval is open: the lowest ORDER that has neither waited nor run out. -/
def State.nextTask (s : State) (c : Nat) : Option (Nat × Task) :=
  (isort (fun e => e.2.order) ((indexed s.frame.tasks).filter fun e =>
    e.2.core == c && s.due e.2.cls && (s.grv e.2.grove).computing && !e.2.waited && !e.2.ranOut)).head?

/-- The core's context gives way to a task: it is held, its record stays RUNNING. -/
def State.suspend (s : State) (c : Nat) : State :=
  (s.pmcAccrue c).modCore c fun k =>
    if k.ctxId.isNone || k.task.isSome then k
    else { k.discard with suspended := k.ctxId, suspCtx := k.ctx, suspWait := k.fwait, fwait := none, ctxId := none }

/-- The suspended context comes back (R99), or the core is left without one; the switch acts on the RLB, the reservation and the predictor as any
other. -/
def State.resumeCtx (s : State) (c : Nat) : State :=
  let s := s.pmcAccrue c
  let k := s.core c
  let left := s.isolated c
  match k.suspended with
  | none => (s.modCore c fun k => { k.discard with ctx := {}, ctxId := none, task := none }).iff left (·.flushPredictor c)
  | some id =>
    let s := s.modCore c fun k => { k.discard with
      ctx := k.suspCtx, ctxId := some id, fwait := k.suspWait, task := none, suspended := none, suspCtx := {}, suspWait := none
      rlb := [], rsv := none }
    s.iff (left || s.isolated c) (·.flushPredictor c)

/-- Dispatch a task: its context is loaded from its record; at its first dispatch it starts at ENTRY with ARG in a0; rd of the
`FRAME.WAIT` it left receives the frame number (R99, R100, R113, R310). -/
def State.dispatch (s : State) (c i : Nat) (t : Task) : State :=
  let left := s.isolated c
  let s := (s.suspend c).loadCtx c t.ctx left
  let s := if t.fresh then (s.setPc c t.entry).setX c 10 t.arg
    else match mapGet? (s.core c).rtRd i with
      | some rd => s.setX c (rd - 1) (s.reg Rg.FRM_NUMBER)
      | none => s
  (s.modCore c fun k => { k with task := some i, dispatch := s.now, budget := t.budget, rtRd := mapDel k.rtRd i }).modFrame fun f =>
    { f with tasks := f.tasks.modify i fun t => { t with fresh := false } }

/-- The core goes on with its next due task, or with the context that was suspended (R99). -/
def State.nextWork (s : State) (c : Nat) : State :=
  match s.nextTask c with
  | some (i, t) => s.dispatch c i t
  | none => if (s.core c).task.isSome then s.resumeCtx c else s

/-- A task leaves the core: its context is saved and is dormant (R99, R101). -/
def State.saveTask (s : State) (c : Nat) : State := s.saveCtx c false

/-- The budget of a core's task has run out (R101): the task is saved and not dispatched again in this frame, BUDGET_EXP is set. -/
def State.budgetOut (s : State) (c i : Nat) (t : Task) : State :=
  let s := (s.atTime ((s.core c).dispatch + (s.core c).budget)).saveTask c
  let s := s.modFrame fun f => { f with tasks := f.tasks.modify i fun t => { t with ranOut := true } }
  s.raise (Fd.FRM_GRV_STAT.BUDGET_EXP t.grove)

/-- The budget timer reaches 0 (R101, R102). -/
def State.budgetExpiry (s : State) (c : Nat) : State :=
  match (s.core c).task with
  | none => s
  | some i =>
    match s.frame.tasks[i]? with
    | none => s
    | some t =>
      let s := s.budgetOut c i t
      (s.pulse (s.get Fd.FRM_IRQ_SRC.OVR_BASE + 64 + t.grove)).nextWork c

/-- A task is taken off its core at D(n) (R105 step 2). Its work for the frame is over and so is that of the core's later tasks: the core
goes on with the context that was suspended and dispatches no task that is still due (log 52). -/
def State.preempt (s : State) (c : Nat) : State :=
  if (s.core c).task.isSome then (s.saveTask c).resumeCtx c else s

/-- `FRAME.WAIT` of the running task retires (R94, R310). -/
def State.taskWait (s : State) (c rd : Nat) : State :=
  let k := s.core c
  match k.task with
  | none => s
  | some i =>
    let s := (s.retire c 4).saveTask c
    let s := (s.modCore c fun k => { k with rtRd := mapPut k.rtRd i (rd + 1) }).modFrame fun f =>
      { f with tasks := f.tasks.modify i fun t => { t with waited := true } }
    let s := s.nextWork c
    match s.frame.tasks[i]? with
    | some t => s.computeCheck t.grove
    | none => s

/-! ### The tick (R77-R82, R86, R89) -/

/-- The instant of the next tick: the first grid instant after acquisition, then one every P (R77). -/
def State.nextTick (s : State) : Nat := if s.frameRunning then s.tickTime + s.period else s.nextGrid s.now

/-- May a tick fire: start is complete and time acquired; not once the power-fail sequence has stopped them (R77, R116). -/
def State.mayTick (s : State) : Bool :=
  s.on Fd.CFG_STAT.DONE && s.on Fd.TIME_STAT.ACQUIRED && !s.frame.stopped && s.period != 0

/-- The registers of the frame that begins at `t`. -/
def State.tickRegs (s : State) (t : Nat) : State :=
  let m := s.tickIndex t
  let n := if s.frameRunning then s.frameNo + 1 else 0
  let due := (List.range 4).foldl (fun v k => v + b2n (s.dueAt m k) * 2 ^ k) 0
  let s := (s.setReg Rg.FRM_NUMBER n).setReg Rg.FRM_TICK_TIME t
  let s := ((s.raise Fd.FRM_STAT.RUNNING).set Fd.FRM_STAT.PHASE 1).set Fd.FRM_STAT.DUE due
  s.modFrame fun f => { f with
    m := m, eTime := none, decided := false, afterReset := false
    tasks := f.tasks.map fun x => { x with waited := false, ranOut := false } }

/-- A grove at the tick of frame n: its pair, what it has asked, the fail-safe of a freeze, and a new frame's record. -/
def State.groveTick (s : State) (g : Nat) : State :=
  let s := if s.gstate g == stStandby && s.frameNo != 0 then s.trackTick g (s.frame.m - 1) else s
  let s := (s.ackTick g s.frame.m).tickAsk g
  let fs : Bool := match (s.grv g).fsFrom with
    | some n => n ≤ s.frameNo
    | none => false
  let s := if fs then (s.modGrv g fun x => { x with fsFrom := none }).enterFailsafe g else s
  s.modGrv g fun x => { x with cTime := none, sTime := none, computing := false, staging := false, faulted := false, fsAfter := none, fsLeft := none }

/-- The fold and the sweep with their costs (R133, R138). -/
def State.evaluate (s : State) : State :=
  let due := s.dueTags s.usedTags
  let occ := due.filter s.sweepOccupies
  ((s.raise Fd.SE_STAT.SWEEPING).modFrame fun f => { f with sweepClk := sweepClocks due occ, swept := occ.length }).sweep

/-- Every `FRAME.WAIT` outside a real-time task ends at the tick (R311). -/
def State.wakeAll (s : State) : State :=
  s.each (s.coreList.filter fun c => (s.core c).fwait.isSome && s.runs c) fun s c => s.endWait c

/-- The frame begins: time, its registers, TICK_OUT (R78). -/
def State.tickStart (s : State) (t : Nat) : State := { (s.atTime t).tickRegs t with pins := { s.pins with tickOut := some t } }

/-- What follows at the tick: groves, cascade, sprint, the fold and sweep, the tick's interrupt, the cores that wait for it. -/
def State.tickRest (s : State) (t : Nat) : State :=
  let s := s.each s.groveList fun s g => s.groveTick g
  let s := ((s.cascadeTick s.frame.m t).sprintTick t s.period).evaluate
  let s := if s.on Fd.FRM_CTL.TICK_IRQ_EN then s.pulse (s.get Fd.FRM_IRQ_SRC.TICK_SRC) else s
  s.wakeAll

/-- A grid instant before time is acquired begins no frame, but what the links and the time wait for comes about at it: measured links come
up, an armed standby takes over (R77, R229, R251). -/
def State.gridTick (s : State) : State :=
  if !s.on Fd.CFG_STAT.DONE || s.on Fd.TIME_STAT.ACQUIRED || s.frame.stopped || s.period == 0 then s
  else
    let t := s.nextGrid s.now
    (s.atTime t).cascadeTick (s.tickIndex t) t

/-- T(n) (R78). Once the power-fail sequence has stopped the frames, T(n+1) ends the last one (R512). -/
def State.tick (s : State) : State :=
  if s.frame.stopped then
    if !s.frameRunning then s
    else
      let t := s.tickTime + s.period
      (((s.atTime t).lower Fd.FRM_STAT.RUNNING).lower Fd.FRM_STAT.PHASE).sprintTick t s.period
  else if !s.mayTick then s.gridTick
  else (s.tickStart s.nextTick).tickRest s.nextTick

/-! ### E(n) (R86, R99, R155) -/

/-- A lane begins the strands of the classes due, in ascending ORDER (R155, R169). -/
def State.laneBegin (s : State) (l : Nat) : State :=
  let due := isort (·.order) (s.loop.strands.filter fun st => st.lane == l && s.due st.cls)
  (s.setLane l { s.lane l with strands := due, block := none, regs := [], t := 0, calling := false, stopped := false, faultTold := false }).beginStrand l

/-- E(n): its time, PHASE, the sweep's records, the barrier flags cleared (R86, R88, R171). -/
def State.sweepRegs (s : State) : State :=
  let e := clocksNs s.frame.sweepClk
  let s := ((s.atTime (s.tickTime + e)).modFrame fun f => { f with eTime := some (s.tickTime + e) }).mirrorSignal
  let s := (s.each (List.range 8) fun s w => s.setReg (Rg.LE_BARRIER w) 0).modLoop fun x => { x with flagTime := [] }
  let s := s.lower Fd.SE_STAT.SWEEPING
  ((s.setReg Rg.SE_SWEPT_LAST s.frame.swept).setMax Fd.FRM_SWEEP_MAX.NS e).set Fd.FRM_STAT.PHASE 2

/-- The groves that compute: RUNNING, and no freeze point reached (R291). -/
def State.computingGroves (s : State) : List Nat := s.runningGroves.filter fun g => !(s.grv g).freezing

/-- Compute begins on every lane and core together (R86). -/
def State.beginCompute (s : State) : State :=
  let gs := s.computingGroves
  let s := s.each gs fun s g => s.modGrv g fun x => { x with computing := true }
  let s := s.each (gs.flatMap fun g => bitsSet 32 (s.grv g).cfg.lanes) fun s l => s.laneBegin l
  let s := s.each (List.range 64) fun s c => s.nextWork c
  s.each gs fun s g => s.computeCheck g

/-- The end of the sweep (R86). -/
def State.sweepEnd (s : State) : State :=
  if !s.frameRunning || s.frame.eTime.isSome then s
  else if s.frame.decided then s.lower Fd.SE_STAT.SWEEPING
  else s.sweepRegs.beginCompute

/-! ### S(g) and D(n) (R96, R104-R108) -/

/-- Does the commit that completes now end fail-safe: it began after a RELEASE that is still armed (R108)? -/
def State.qualifies (s : State) (g : Nat) : Bool :=
  match (s.grv g).relTime, (s.grv g).cTime with
  | some r, some c => s.failsafe g && r < c
  | _, _ => false

/-- S(g): the buffers complete, and fail-safe may end (R96, R108). -/
def State.committed (s : State) (g : Nat) : State :=
  let s := (s.endTemplates g true).modGrv g fun x => { x with staging := false, sTime := some s.now }
  if s.qualifies g then (s.leaveFailsafe g).modGrv g fun x => { x with fsLeft := some s.frameNo } else s

/-- A commit ends; tracking and a freeze point follow (R291, R294). -/
def State.stagingEnd (s : State) (g : Nat) : State :=
  if !(s.grv g).staging then s else ((s.committed g).track g false).freezePoint g

/-- The device-ordered store at the front of a core's store buffer, when it is held at a full tuning buffer (R182). -/
def State.heldTune (s : State) (c : Nat) : Option StoreEntry :=
  match (s.core c).sb with
  | e :: _ =>
    if h : c < 64 then
      (if (s.core c).issued && e.dev && e.len != 0 && sramBase ≤ e.addr && s.leHeld (.core ⟨c, h⟩) e.addr e.size then some e else none)
    else none
  | [] => none

/-- A held tuning write is applied, and its store retires. -/
def State.heldApply (s : State) (e : Nat × StoreEntry) : State :=
  let s := (s.wordPut e.2.addr (leBytes e.2.size e.2.v.toNat)).modCore e.1 fun k => { k with sb := k.sb.drop 1 }
  (s.retire e.1 e.2.len).event e.1 0x06

/-- The Compute interval of a grove closes at D(n): its buffer is applied, and after it the writes that it holds at their cores (R182). -/
def State.closeLate (s : State) (g : Nat) : State :=
  let held := (List.range 64).filterMap fun c => match s.heldTune c with
    | some e => if s.groveOfInst (((e.addr - leBase) % 0x80_0000) / 32) == some g then some (c, e) else none
    | none => none
  (s.closeCompute g).each held fun s e => s.heldApply e

/-- A grove overruns at D(n) (R105-R107). -/
def State.overrun (s : State) (g : Nat) : State :=
  let x := s.grv g
  let s := (s.setIf x.staging (Fd.FRM_GRV_STAT.LATE_STAGE g) 1).closeLate g
  let s := s.each (bitsSet 32 x.cfg.lanes) fun s l => if (s.lane l).block.isSome then s.stopLane l else s
  let s := s.each (bitsSet 64 x.cfg.cores) fun s c => s.preempt c
  let s := (s.endTemplates g false).withdraw g s.frameNo
  let s := s.modGrv g fun x => { x with staging := false }
  let s := ((s.inc (Fd.FRM_GRV_STAT.CONSEC g)).inc (Fd.FRM_GRV_OVR_CNT.COUNT g)).inc Fd.FRM_OVR_CNT.COUNT
  let s := ((s.raise (Fd.FRM_GRV_STAT.OVR g)).raise Fd.FRM_STAT.OVR_ANY).pulse (s.get Fd.FRM_IRQ_SRC.OVR_BASE + g)
  let s := if s.get (Fd.FRM_GRV_CFG.FS_COUNT g) ≤ s.get (Fd.FRM_GRV_STAT.CONSEC g) then
      let held := s.failsafe g
      (s.enterFailsafe g).modGrv g fun x => { x with fsAfter := if held then x.fsAfter else some s.frameNo }
    else s
  (s.track g true).freezePoint g

/-- D(n) (R104-R108; a grove past its freeze point has nothing to complete): overruns are decided; a frame without one resets CONSEC and may lower `FRM_SLACK_MIN`. -/
def State.deadlineDecide (s : State) : State :=
  if !s.frameRunning || s.frame.decided || s.frame.eTime.isNone then s
  else
    let d := s.deadline
    let s := ((s.atTime d).set Fd.FRM_STAT.PHASE 3).modFrame fun f => { f with decided := true }
    let gs := s.runningGroves
    let late := gs.filter fun g => (s.grv g).sTime.isNone && !(s.grv g).freezing
    let ends := gs.filterMap fun g => (s.grv g).sTime
    let s := s.each gs fun s g => if late.contains g then s.overrun g else s.lower (Fd.FRM_GRV_STAT.CONSEC g)
    if !late.isEmpty then s.setReg Rg.FRM_SLACK_MIN 0
    else if ends.isEmpty then s
    else s.setReg Rg.FRM_SLACK_MIN (min (s.reg Rg.FRM_SLACK_MIN) (d - maxL ends))

/-! ### The power-fail sequence (R512) -/

/-- The compute and commit of the frame in progress are abandoned: steps 1 to 3 of R105 for every grove that has not committed, and
what it has published is withdrawn. -/
def State.abandonFrame (s : State) : State :=
  let s := s.each (s.computingGroves.filter fun g => (s.grv g).sTime.isNone) fun s g =>
    let s := (s.closeLate g).each (bitsSet 32 (s.grv g).cfg.lanes) fun s l => if (s.lane l).block.isSome then s.stopLane l else s
    let s := s.each (bitsSet 64 (s.grv g).cfg.cores) fun s c => s.preempt c
    ((s.endTemplates g false).withdraw g s.frameNo).modGrv g fun x => { x with staging := false }
  s.modFrame fun f => { f with decided := true, abandoned := true }

/-- What the warning does to the frames: no frame after this one begins, and this one is abandoned when it ends too late. -/
def State.framesStop (s : State) : State :=
  let s := s.modFrame fun f => { f with stopped := true }
  if s.frameRunning && s.now + 2000000 < s.tickTime + s.period then s.abandonFrame else s

/-! ### Fail-safe and the controls of the frame controller (R108, R109, 3.10) -/

/-- A write of RELEASE in fail-safe (R108): armed from the first on, so that a commit begun after any of them qualifies. -/
def State.releaseArm (s : State) (g : Nat) : State :=
  if s.failsafe g then (s.raise (Fd.FRM_GRV_STAT.RELEASE_ARMED g)).modGrv g fun x => { x with
    relTime := if x.relTime.isSome then x.relTime else some s.now } else s

/-- A write of FORCE_FS (R109). -/
def State.forceFs (s : State) (g : Nat) : State :=
  (s.enterFailsafe g).modGrv g fun x => { x with fsAfter := none }

/-- SNAP latches time and frame number on one clock. -/
def State.frameSnap (s : State) : State := (s.setReg Rg.FRM_SNAP_TIME s.now).setReg Rg.FRM_SNAP_NUMBER s.frameNo

def State.ovrCntClr (s : State) : State :=
  s.each (List.range 64) (fun s g => s.setReg (Rg.FRM_GRV_OVR_CNT g) 0) |>.setReg Rg.FRM_OVR_CNT 0

def State.statsClr (s : State) : State := (s.setReg Rg.FRM_SWEEP_MAX 0).setReg Rg.FRM_SLACK_MIN 0xFFFFFFFF

end Sys2Proof.Machine
end

