-- ==== Sys2Proof/Machine/FrameRows.lean ====
section
/-! DEFINITION. The commands and events of the scan frame (chapter 3), one meaning per row. -/

namespace Sys2Proof.Machine

def execTick  (s : State) : Host.Outcome State Fault Refusal :=
  done (s.tick)

def execSweepEnd  (s : State) : Host.Outcome State Fault Refusal :=
  done (s.sweepEnd)

def execBudgetExpiry (c : CoreId) (s : State) : Host.Outcome State Fault Refusal :=
  done (s.budgetExpiry c.val)

def execStagingEnd (g : GroveId) (s : State) : Host.Outcome State Fault Refusal :=
  done (s.stagingEnd g.val)

def execCommitDeadline  (s : State) : Host.Outcome State Fault Refusal :=
  done (s.deadlineDecide)

def execTemplateRelease (p : FieldPort) (s : State) : Host.Outcome State Fault Refusal :=
  done (s.templateRelease p.val)

def execRelease (r : Requester) (g : GroveId) (s : State) : Host.Outcome State Fault Refusal :=
  done (s.regWriteAt r (Rg.FRM_GRV_CTL g.val) 4 (·.releaseArm g.val))

def execForceFs (r : Requester) (g : GroveId) (s : State) : Host.Outcome State Fault Refusal :=
  done (s.regWriteAt r (Rg.FRM_GRV_CTL g.val) 4 (·.forceFs g.val))

def execSnap (r : Requester) (s : State) : Host.Outcome State Fault Refusal :=
  done (s.regWriteAt r Rg.FRM_CTL 4 (·.frameSnap))

def execOvrCntClr (r : Requester) (s : State) : Host.Outcome State Fault Refusal :=
  done (s.regWriteAt r Rg.FRM_CTL 4 (·.ovrCntClr))

def execStatsClr (r : Requester) (s : State) : Host.Outcome State Fault Refusal :=
  done (s.regWriteAt r Rg.FRM_CTL 4 (·.statsClr))

end Sys2Proof.Machine
end

