-- ==== Sys2Proof/Machine/MainReset.lean ====
section
/-! DEFINITION. What a cold or warm reset of the main side does at its entry (R13, R15, R43, R515-R517), and the mailboxes' results. -/

namespace Sys2Proof.Machine

/-! ### Mailbox results (R459) -/

/-- RESULT, DETAIL and the response length of a mailbox, DONE set. -/
def State.mbxResult (s : State) (m result detail len : Nat) : State :=
  let s := (s.lower (Fd.HWD_MBX_STAT.BUSY m)).lower (Fd.HWD_MBX_STAT.QUEUED m)
  let s := ((s.set (Fd.HWD_MBX_STAT.RESULT m) result).set (Fd.HWD_MBX_STAT.DETAIL m) detail).raise (Fd.HWD_MBX_STAT.DONE m)
  s.set (Fd.HWD_MBX_RESP.LEN m) len

/-- The doorbell of a completion: MBX_SRC for mailbox 0, PF0 vector 0 for mailbox 1. -/
def State.mbxBell (s : State) (m : Nat) : State :=
  if m == 1 then s.msix 0 0
  else if s.on Fd.HWD_IRQ_SRC.MBX_EN then s.pulse (s.get Fd.HWD_IRQ_SRC.MBX_SRC) else s

/-- The codes of the mailbox commands (R459). -/
def mbxCodes : List Nat := [0x01, 0x02, 0x03, 0x04, 0x05, 0x10, 0x11, 0x20, 0x21, 0x22, 0x23, 0x24, 0x30, 0x31]

/-- The mailbox at the front of the queue is served: its command is in progress; an unknown code is answered BAD_CMD at once, and the
other mailbox follows. -/
def State.mbxFront : Nat → State → State
  | 0, s => s
  | k + 1, s =>
    match s.sec.queue with
    | [] => s
    | n :: rest =>
      if mbxCodes.contains (s.get (Fd.HWD_MBX_CMD.CODE n)) then (s.lower (Fd.HWD_MBX_STAT.QUEUED n)).raise (Fd.HWD_MBX_STAT.BUSY n)
      else ((((s.modSec fun x => { x with queue := rest }).mbxResult n 0x02 0 0).mbxBell n).mbxFront k)

/-- A command of a mailbox ends; the next queued one begins (R459). -/
def State.mbxEnd (s : State) (m result detail len : Nat) : State :=
  (((s.modSec fun x => { x with queue := x.queue.filter (· != m) }).mbxResult m result detail len).mbxBell m).mbxFront 2

/-- A write of GO (R459): ignored while the mailbox has a command, and once the power-fail sequence runs (R512). -/
def State.mbxGo (s : State) (m : Nat) : State :=
  if s.sec.pfHeld || s.sec.queue.contains m then s
  else
    let s := (s.modSec fun x => { x with queue := x.queue ++ [m] }).raise (Fd.HWD_MBX_STAT.QUEUED m)
    if s.sec.queue.length == 1 then s.mbxFront 2 else s

/-! ### What a reset leaves -/

/-- Fields that a cold or warm reset leaves: those whose Reset is MRAM, OTP or the firmware, and the cause of the reset (R15, R43,
log 26). -/
def keptFields : List Fld :=
  [Fd.FP_MAC_BASE.MAC,
   Fd.HWD_STAT.LC, Fd.HWD_STAT.KEY_PENDING, Fd.HWD_STAT.IMAGE_KEY, Fd.HWD_STAT.ZEROISED,
   Fd.HWD_CNT.OWNER_INSTALLS, Fd.HWD_CNT.SERVICE_ENTRIES, Fd.HWD_CNT.KEY_INDEX, Fd.HWD_CNT.PENDING_INDEX,
   Fd.HWD_FW.VERSION, Fd.HWD_SERIAL_LO.SERIAL, Fd.HWD_SERIAL_HI.SERIAL, Fd.HWD_AUDIT_SEQ.SEQ,
   Fd.HWD_TAMPER.SEEN, Fd.HWD_TAMPER_CNT.COUNT, Fd.HWD_MEM_STAT.SPARED, Fd.HWD_MEM_STAT.SPARED_DEV,
   Fd.CFG_ARB.COUNTER,
   Fd.PWR_RST_CAUSE.KIND, Fd.PWR_RST_CAUSE.SRC, Fd.PWR_SPRINT.DISABLED,
   Fd.PWR_LEDGER_SPRINT.MS, Fd.PWR_LEDGER_POWERED.MS]

/-- Every register at its Reset value but for some fields. -/
def State.resetRegisters (s : State) (kept : List Fld) : State :=
  let t : State := { s with regs := resetRegs }
  t.each kept fun t f => t.set f (s.get f)

/-- What the always-on domain knows of the supply and of the sensors, shown in its registers: at once when it arises, and again when
the main side leaves a reset that has cleared them (R15, log 26). -/
def State.showFacts (s : State) : State :=
  let s := (s.set Fd.PWR_STAT.FEED_A (b2n s.power.feedA)).set Fd.PWR_STAT.FEED_B (b2n s.power.feedB)
  let s := (s.set Fd.PWR_STAT.HOLD_OK (b2n s.power.holdOk)).set Fd.PWR_STAT.HOLD_FAULT (b2n s.power.holdFault)
  (s.set Fd.HWD_TAMPER.ACTIVE s.sec.active).set Fd.PWR_STAT.PFW (b2n s.sec.pfHeld)

/-- The state of the main side's units as a reset leaves it; the model's records of what has left the device stay. GDDR7 keeps lines of
the old memory keys, which fail their MAC until the wipe (R441). R19 names the write hold that a reset drops; that the read shadow goes
with it is the model's choice (DESIGN CHOICE, log 26). -/
def State.resetUnits (s : State) : State :=
  { s with
    shadows := [], holds := [], openTrans := [], heldTrans := []
    frame := {}, signal := {}, loop := {}
    field := { sent := s.field.sent }
    cascade := { sent := s.cascade.sent }
    groves := [], gcmd := none, cores := [], runStacks := [], coh := { stale := true }, dma := {}
    pins := { xspiReset := s.pins.xspiReset }
    pci := { signals := s.pci.signals, writes := s.pci.writes } }

/-! ### Causes (R515-R517) -/

/-- `PWR_RST_CAUSE.SRC`. -/
def srcPowerUp : Nat := 0
def srcRstN : Nat := 1
def srcPowerFail : Nat := 2
def srcPwrCtl : Nat := 3
def srcSensor : Nat := 4
def srcLifecycle : Nat := 5
def srcScan : Nat := 6
def srcZeroise : Nat := 7

def kindPowerOn : Nat := 1
def kindRestart : Nat := 2
def kindCold : Nat := 3
def kindWarm : Nat := 4

def State.phase (s : State) : StartPhase := s.start.phase
def State.setPhase (s : State) (p : StartPhase) : State := s.modStart fun x => { x with phase := p }

/-- Is the main side in reset? -/
def State.inReset (s : State) : Bool :=
  match s.phase with
  | .unpowered => true
  | .rising => true
  | .rom => true
  | .romDone => true
  | .heldReset => true
  | _ => false

/-- Does the always-on domain run? -/
def State.alwaysOn (s : State) : Bool := s.phase != .unpowered

/-- Has Heartwood's firmware (or the recovery firmware) been started? -/
def State.heartwoodRuns (s : State) : Bool :=
  match s.phase with
  | .unpowered => false
  | .rising => false
  | .rom => false
  | .romDone => false
  | _ => true

/-- The last cause; a cause that comes while a reset is in force replaces a weaker one or one as strong (R517, log 26). -/
def State.resetCause (s : State) (kind src : Nat) : State :=
  let old := s.get Fd.PWR_RST_CAUSE.KIND
  if s.inReset && old != 0 && old < kind then s
  else (s.set Fd.PWR_RST_CAUSE.KIND kind).set Fd.PWR_RST_CAUSE.SRC src

/-- Keep one of each, in rising order. -/
def addOnce (l : List Nat) (a : Nat) : List Nat := if l.contains a then l else insertBy id a l

/-- EXTEST, INTEST, CLAMP and HIGHZ (R458, R535). -/
def scanHolds (code : Nat) : Bool := [0x00, 0x03, 0x04, 0x05].contains code

/-! ### Entry (R516) -/

/-- S (R47): the size of a slot. -/
def State.slotSize (s : State) : Nat := (s.flashBytes - 0x10_0000) / 2 / 0x10_0000 * 0x10_0000

/-- The flash offset of a slot, 0 A, 1 B. -/
def State.slotBase (s : State) (slot : Nat) : Nat := 0x10_0000 + slot * s.slotSize

/-- An interrupted staging leaves the slot with a first part of the image, of a free length (R73; log 5). -/
def State.stagingCut (s : State) : State :=
  match s.start.staging with
  | some g =>
    let n := s.free.toNat % (g.image.length + 1)
    (s.drawn.flashPut (s.slotBase g.slot) (g.image.take n)).modStart fun x => { x with staging := none }
  | none => s

/-- Core debug closes at a reset or a lifecycle change (R457). -/
def State.debugClose (s : State) (cause : Nat) : State :=
  if s.on Fd.HWD_STAT.DEBUG then (s.audit 0x0031 cause 0).lower Fd.HWD_STAT.DEBUG else s

/-- The commands that wait or run at a mailbox end with ABORTED, nonces lapse, locks end (R448, R459, R460). -/
def State.mbxAbort (s : State) (ms : List Nat) : State :=
  s.each ms fun s m => s.mbxResult m 0x0A 0 0

/-- A sprint in force ends with the clusters; its charge stays (log 26). -/
def State.sprintCut (s : State) : State :=
  s.modPower fun p => match p.sprintSince with
    | some t => { p with sprintSince := none, sprintHot := false, clkAdj := p.clkAdj + ((s.now - t) * 2 / 5 : Nat) }
    | none => p

/-- Entry into a cold or warm reset, from a main side that is not in reset: every register takes its Reset value, transmitters are
squelched, RWL fields unlock, the start and a staging are abandoned; memory stays until the wipe. -/
def State.enterMain (s : State) (debugCause : Nat) : State :=
  let busy := s.sec.queue
  let s := ((s.debugClose debugCause).stagingCut).sprintCut
  let s := (s.resetRegisters keptFields).resetUnits
  let s := s.modSec fun x => { x with queue := [], boxes := [], fwWriting := none }
  let s := { s with met := { s.met with cmd := none } }
  let s := s.modStart fun x => { recovery := x.recovery, phase := .heldReset }
  s.mbxAbort busy

/-- A reset cause arises (R515-R517): it starts a reset or extends the one in force. -/
def State.enterReset (s : State) (kind src debugCause : Nat) : State :=
  if !s.alwaysOn then s
  else
    let s' := s.resetCause kind src
    let s' := if s.inReset then s' else s'.enterMain debugCause
    s'.modPower fun p => { p with rstHeld := addOnce p.rstHeld src }

end Sys2Proof.Machine
end

