-- ==== Sys2Proof/Machine/Start.lean ====
section
/-! DEFINITION. The start sequence (chapter 2): the boot pointer, the checks of a slot, the loading of an image, fallback and Safe
Hold, and start completion; the lifecycle steps that a start finishes (R445, R449). -/

namespace Sys2Proof.Machine

/-! ### Boot pointer (R49-R51) -/

/-- SEQ and SLOT of a boot pointer copy, when the copy is valid; a copy whose read failed three times is not. -/
def State.bootPtr (s : State) (c : Nat) : Option (Nat × Nat) :=
  let b := s.flashB (0x1_0000 * c) 32
  if fieldB b 0 4 == 0x50424A53 && fieldB b 8 1 < 2 && crc32c (b.take 28) == fieldB b 0x1C 4 &&
      !s.start.badReads.any (fun o => o / 0x1_0000 == c)
  then some (fieldB b 4 4, fieldB b 8 1) else none

/-- The boot pointer is read: the copy in use, the slot it names, `BP_INVALID` (R50). -/
def State.readBootPtr (s : State) : State :=
  let use (c slot : Nat) : State := s.modStart fun x => { x with bpCopy := some c, named := slot, slot := slot }
  match s.bootPtr 0, s.bootPtr 1 with
  | some (q0, l0), some (q1, l1) => if q0 < q1 then use 1 l1 else use 0 l0
  | some (_, l0), none => use 0 l0
  | none, some (_, l1) => use 1 l1
  | none, none => (s.modStart fun x => { x with bpCopy := none, named := 0, slot := 0 }).raise Fd.CFG_STAT.BP_INVALID

/-- The record of a boot pointer copy. -/
def bootRecord (seq slot : Nat) : List Byte :=
  let b := leBytes 4 0x50424A53 ++ leBytes 4 seq ++ leBytes 1 slot ++ List.replicate 19 0
  b ++ leBytes 4 (crc32c b)

/-- Heartwood writes a boot pointer into the copy that is not in use (R51), which then names the slot; with no copy in use, copy and SEQ
are free (log 5). -/
def State.writeBootPtr (s : State) (slot : Nat) : State :=
  let (c, seq) := match s.start.bpCopy with
    | some c => (1 - c, ((s.bootPtr c).map (·.1)).getD 0 + 1)
    | none => (s.free.toNat % 2, s.free.toNat / 2)
  let s := if s.start.bpCopy.isNone then s.drawn else s
  let s := s.audit 0x0005 slot (seq % 2 ^ 32)
  let s := (s.flashErase (0x1_0000 * c) (0x1_0000 * c + 0x1_0000)).flashPut (0x1_0000 * c) (bootRecord seq slot)
  s.modStart fun x => { x with bpCopy := some c, named := slot, bpWrite := none }

/-! ### Heartwood firmware (R452) -/

/-- Does a firmware image pass the ROM's checks? -/
def State.firmwareOk (s : State) (b : List Byte) : Bool :=
  let n := fieldB b 8 4
  fieldB b 0 4 == 0x57465748 && fieldB b 4 2 == 1 && n % 64 == 0 && 0x200 ≤ n && n ≤ 917504 &&
    crc32c (sliceB b 0 (n - 128)) == fieldB b (n - 128) 4 && Config.firmwareVerifies (sliceB b 0 n) && s.sec.fwHighest ≤ fieldB b 0x0C 4

def State.firmwareArea (s : State) : List Byte := s.flashB 0x2_0000 (min 917504 (max 16 (leNat (s.flashB 0x2_0008 4))))

/-- The firmware that a power-on or a Heartwood restart runs: that of the area, or the ROM's recovery firmware. An area whose write was
cut short or failed is invalid. -/
def State.startFirmware (s : State) : State :=
  let b := s.firmwareArea
  if !s.sec.fwBad && s.firmwareOk b && !s.start.badReads.any (fun o => 0x2_0000 ≤ o && o < 0x10_0000) then
    let v := fieldB b 0x0C 4
    ((s.set Fd.HWD_FW.VERSION v).modSec fun x => { x with fwHighest := max x.fwHighest v }).modStart fun x => { x with recovery := false }
  else (s.set Fd.HWD_FW.VERSION 0).modStart fun x => { x with recovery := true }

/-! ### OTP counters, and changes that are cut short (R443-R446, R449) -/

/-- The OTP counters that have a copy in MRAM: 0 owner key installs, 1 SERVICE entries, 2 anti-rollback steps. -/
def otpCounter : Nat → Fld
  | 0 => Fd.HWD_CNT.OWNER_INSTALLS
  | 1 => Fd.HWD_CNT.SERVICE_ENTRIES
  | _ => Fd.CFG_ARB.COUNTER

def otpLimit : Nat → Nat
  | 0 => 8
  | 1 => 16
  | _ => 256

/-- Program the cells of a counter up to a value. -/
def State.otpProgram (s : State) (k v : Nat) : State := s.set (otpCounter k) v

/-- The copy of a counter in MRAM follows the cells. -/
def State.otpCopy (s : State) (k : Nat) : State :=
  s.modSec fun x => { x with copies := mapSet 0 x.copies k (s.get (otpCounter k)) }

/-- The next cell of a counter, left with a margin that is not clean, reads as programmed (R446). -/
def State.otpUnclean (s : State) (k : Nat) : State :=
  if s.get (otpCounter k) < otpLimit k then s.otpProgram k (s.get (otpCounter k) + 1) else s

/-- What stands once step 2 of a change is done: the key it installs, in force at once where the lifecycle changes with it (R449), and
the lifecycle state whose reset is now due. -/
def State.changeStands (s : State) (c : Change) : State :=
  let s := s.modSec fun x => { x with change := none, lcTo := if c.lc.isSome then c.lc else x.lcTo }
  let s := match c.counter with
    | some k => if c.lc.isSome then s else s.otpCopy k
    | none => s
  match c.key with
  | none => s
  | some (k, digest, cert) =>
    let s := s.modSec fun x => { x with owners := mapPut x.owners k { digest := digest, valid := c.lc.isSome } }
    if c.lc.isSome then (s.modSec fun x => { x with cert := cert }).set Fd.HWD_CNT.KEY_INDEX k
    else ((s.modSec fun x => { x with certPend := cert }).raise Fd.HWD_STAT.KEY_PENDING).set Fd.HWD_CNT.PENDING_INDEX k

/-- Step 2 of a change: its OTP cell is programmed. -/
def State.changeStep (s : State) (c : Change) : State :=
  match c.counter with
  | some k =>
    let s := s.modSec fun x => { x with margin := x.margin.filter (· != k) }
    (s.otpProgram k (s.get (otpCounter k) + 1)).changeStands c
  | none => s.changeStands c

/-- Step 4 of R444 but for the reset: the new state, a new epoch nonce, the erased keys, wipe pending. -/
def State.lcApply (s : State) : State :=
  match s.sec.lcTo with
  | none => s
  | some t =>
    let s := s.set Fd.HWD_STAT.LC t
    let s := (s.modSec fun x => { x with lcTo := none, epochs := x.epochs + 1, wipePending := true }).each [0, 1] State.otpCopy
    if t == 1 || t == 5 then
      ((((s.modSec fun x => { x with cert := [], certPend := [], imageKey := none, owners := x.owners.map fun e => (e.1, { e.2 with valid := false }) }).lower
        Fd.HWD_STAT.IMAGE_KEY).lower Fd.HWD_STAT.KEY_PENDING).lower Fd.HWD_CNT.KEY_INDEX).lower Fd.HWD_CNT.PENDING_INDEX
    else s

/-- A start reads the OTP counters, a cell with an unclean margin as programmed, and compares them with their copies: each that is ahead has an entry RECONCILED (R446). A change that was cut off
before its step 2 is made if its counter is ahead, and is otherwise abandoned with an entry of its own (R445); one whose step 2 was
done is completed. -/
def State.lcResume (s : State) : State :=
  let s := (s.each s.sec.margin State.otpUnclean).modSec fun x => { x with margin := [] }
  let ahead := (List.range 3).filter fun k => mapGet 0 s.sec.copies k < s.get (otpCounter k)
  let s := s.each ahead fun s k => (s.audit 0x00F1 k (s.get (otpCounter k))).otpCopy k
  let s := match s.sec.change with
    | none => s
    | some c =>
      if c.counter.any ahead.contains then s.changeStands c
      else (s.audit 0x00F0 c.seq 0).modSec fun x => { x with change := none }
  s.lcApply

/-- The valid marker of the pending owner key is programmed (R449). -/
def State.keyInForce (s : State) : State :=
  if !s.on Fd.HWD_STAT.KEY_PENDING then s
  else
    let k := s.get Fd.HWD_CNT.PENDING_INDEX
    let s := s.modSec fun x => { x with
      owners := x.owners.map fun e => (e.1, if e.1 == k then { e.2 with valid := true } else e.2), cert := x.certPend, certPend := [] }
    ((s.set Fd.HWD_CNT.KEY_INDEX k).lower Fd.HWD_STAT.KEY_PENDING).lower Fd.HWD_CNT.PENDING_INDEX

/-! ### The checks of a slot (R59-R61, R542) -/

/-- A failed step: its cause code and its detail (R74). -/
abbrev SlotFail := Nat × Nat

/-- The owner key of steps 7 and 8: its index and digest; for a staging the pending key, if there is one (R449). -/
def State.checkKey (s : State) (staging : Bool) : Option (Nat × List Byte) :=
  if staging && s.on Fd.HWD_STAT.KEY_PENDING then
    some (s.get Fd.HWD_CNT.PENDING_INDEX, s.ownerDigest (s.get Fd.HWD_CNT.PENDING_INDEX))
  else s.ownerIndex.map fun k => (k, s.ownerDigest k)

/-- The image stored in a slot: as many bytes as its LENGTH says, at least the header. -/
def State.storedImage (s : State) (slot : Nat) : List Byte :=
  let base := s.slotBase slot
  s.flashB base (min s.slotSize (max 256 (leNat (s.flashB (base + 8) 4))))

/-- Step 1: does the lifecycle state let an image run? -/
def State.lcRuns (s : State) : Bool := [2, 3, 4].contains (s.get Fd.HWD_STAT.LC)

/-- Steps 3 to 10 over a stored image: the plain image, or the first failure. -/
def State.checkStored (s : State) (staging : Bool) (b : List Byte) : Except SlotFail (List Byte) :=
  let n := imgLength b
  if imgMagic b != 0x36394A53 then .error (0x02, 0)
  else if imgFormat b != 1 then .error (0x03, imgFormat b)
  else if !headerOk s.slotSize b then .error (0x04, 0)
  else if crc32c (b.take (n - 128)) != fieldB b (n - 128) 4 then .error (0x05, 0)
  else match s.checkKey staging with
    | none => .error (0x07, imgKey b)
    | some (k, digest) =>
      if imgKey b != k then .error (0x07, imgKey b)
      else if !Config.signatureValid digest (b.take (n - 96)) (sliceB b (n - 96) 96) then .error (0x06, 0)
      else if imgArb b < s.get Fd.CFG_ARB.COUNTER || 256 < imgArb b then .error (0x08, imgArb b)
      else if !imgEnc b then .ok b
      else match s.sec.imageKey.bind fun key =>
          Config.gcmOpen key (sliceB b 0xC0 12) (b.take 0x100) (sliceB b 0x100 (n - 128 - 0x100)) (sliceB b 0xD0 16) with
        | some plain => .ok (b.take 0x100 ++ sliceB plain 0 (n - 128 - 0x100) ++ sliceB b (n - 128) 128)
        | none => .error (0x0A, 0)

/-- Steps 1 to 10 of a slot whose reads that failed three times are known. -/
def State.check10 (s : State) (staging : Bool) (slot : Nat) (failed : Option Nat) : Except SlotFail (List Byte) :=
  if !s.lcRuns then .error (0x10, s.get Fd.HWD_STAT.LC)
  else match failed with
    | some o => .error (0x01, o / 0x1_0000)
    | none => s.checkStored staging (s.storedImage slot)

/-- Steps 11 and 12 over a plain image. -/
def check12 (b : List Byte) : Option SlotFail :=
  match (List.range 8).find? fun i => !dirOk b i with
  | some i => some (0x0B, i)
  | none => (badCrc b).map fun ty => (0x0C, ty * 2 ^ 20)

/-- The reserved bytes outside the sections that R61 makes a semantic failure: those of R54 and R55. -/
def reservedBytesOk (b : List Byte) : Bool :=
  let n := imgLength b
  zeroB b 0xCC 4 && zeroB b 0xE0 32 && zeroB b (n - 124) 28 && (imgEnc b || zeroB b 0xC0 32)

/-- Steps 11 to 13. Reserved bytes outside the sections have no record to charge: the detail is then free (log 5). -/
def State.check13 (s : State) (b : List Byte) : Option SlotFail :=
  match check12 b with
  | some f => some f
  | none => match semanticFail s.mx (Img.of b) with
    | some (ty, i) => some (0x0D, ty * 2 ^ 20 + min i 0xFFFFF)
    | none => if reservedBytesOk b then none else some (0x0D, s.free.toNat % 2 ^ 24)

/-! ### Loading (R65) -/

def State.loadFrames (s : State) (x : Img) : State :=
  let t := x.timing
  let s := (s.set Fd.FRM_PERIOD.PERIOD_NS x.period).set Fd.FRM_PHASE_OFS.GUARD_NS x.guard
  let s := ((s.set Fd.FRM_CLASS_DIV.DIV1 (x.div 1)).set Fd.FRM_CLASS_DIV.DIV2 (x.div 2)).set Fd.FRM_CLASS_DIV.DIV3 (x.div 3)
  let s := ((s.set Fd.FRM_TICK_ORIGIN.ORIGIN_NS x.originNs).set Fd.FRM_IRQ_SRC.TICK_SRC (fieldB t 0x18 2)).set
    Fd.FRM_IRQ_SRC.OVR_BASE (fieldB t 0x1A 2)
  let s := s.each (x.frames.filter fun r => frmKind r == 2) fun s r => s.set (Fd.FRM_GRV_CFG.FS_COUNT (fieldB r 1 1)) (fieldB r 2 1)
  s.modFrame fun f => { f with tasks := x.tasks.map fun e => Task.of e.2 }

def State.loadTags (s : State) (x : Img) : State :=
  let d := x.tagDesc
  let s := s.set Fd.SE_CTL.CHANGED_ONLY (fieldB d 6 1)
  let s := ((s.set Fd.SE_STALE_LIMIT.F0 (fieldB d 8 1)).set Fd.SE_STALE_LIMIT.F1 (fieldB d 9 1)).set Fd.SE_STALE_LIMIT.F2 (fieldB d 10 1)
  let s := (s.set Fd.SE_STALE_LIMIT.F3 (fieldB d 11 1)).set Fd.SE_IRQ_SRC.CONFLICT_SRC (fieldB d 0x0C 2)
  let s := (s.set Fd.SE_IRQ_SRC.AQ_BASE (fieldB d 0x0E 2)).modSignal fun g => { g with curveCount := x.curveCount }
  let s := s.each (List.range x.tagCount) fun s k => s.wrB (tagAddr k) (sliceB (x.tagRec k) 0 64)
  s.each (indexed ((x.tags.drop (1 + x.tagCount)).take (2 * x.curveCount))) fun s e => s.wrB (curveBase + 64 * e.1) (sliceB e.2 0 64)

/-- Every exchange entry +0.0 with class uncertain (R158). -/
def exchStart : Memory := (List.range exchCount).map fun e => (exchAddr e + 4, 1)

def State.startExchange (s : State) : State :=
  { s with mem := s.mem.filter (fun c => c.1 < exchBase) ++ exchStart ++ s.mem.filter fun c => exchBase + 8 * exchCount ≤ c.1 }

def State.loadStrands (s : State) (x : Img) : State :=
  let d := x.strandDesc
  let s := (s.set Fd.LE_IRQ_SRC.FAULT_SRC (fieldB d 0x0A 2)).set Fd.LE_IRQ_SRC.CALL_BASE (fieldB d 0x0C 2)
  let s := s.modLoop fun l => { l with strands := x.strandList, slots := x.slots, instances := x.instanceCount }
  let s := s.each (indexed x.instrs) fun s e => s.wrB (instrAddr e.1) (sliceB e.2 0 32)
  (s.each (indexed x.states) fun s e => s.wrB (stateAddr e.1) (sliceB e.2 0 32)).startExchange

/-- A port record (R217): CB reads 1 on both ports of its pair, and the packet channels take their modes (R433). -/
def State.loadPort (s : State) (r : List Byte) : State :=
  let p := prPort r
  let m := prMode r
  let s := ((s.set (Fd.FP_PORT_CFG.MODE p) m).set (Fd.FP_PORT_CFG.AN p) (prFlags r)).set (Fd.FP_PORT_CFG.MIRROR p) (bits (prFlags r) 2 2)
  let s := ((s.set (Fd.FP_PORT_CFG.FEC p) (bits (prFlags r) 3 3)).set (Fd.FP_PORT_CFG.PTP p) (prPtp r)).set (Fd.FP_PORT_CFG.MAXLEN p) (prMaxlen r)
  let s := if prCb r then (s.raise (Fd.FP_PORT_CFG.CB p)).raise (Fd.FP_PORT_CFG.CB (p + 1)) else s
  let s := (s.set (Fd.FP_PORT_OFS.OFS_NS p) (prOffset r)).set (Fd.FP_PORT_LAT.RX_EXT p) (fieldB r 0x0C 2)
  let s := (s.set (Fd.FP_PORT_LAT.TX_EXT p) (fieldB r 0x0E 2)).set (Fd.FP_PORT_GATE.CDIV p) (prCdiv r)
  let s := (s.set (Fd.FP_PORT_GATE.GCL_COUNT p) (prGcl r)).setIf (prPtp r == 2) Fd.FP_TIME_CFG.SLAVE_PORT p
  if m == 0 then s
  else
    let e := bits (prDma r) 15 11
    let c := bits (prDma r) 3 0
    ((s.modPort p fun x => { x with dma := 16 * e + c }).set (Fd.DMA_CH_CFG.MODE e c) 1).set (Fd.DMA_CH_CFG.MODE e (c + 1)) 2

def State.loadPorts (s : State) (x : Img) : State :=
  let d := recAt x.maps 0
  let s := (s.set Fd.FP_IRQ_SRC.LINK_SRC (fieldB d 2 2)).set Fd.FP_IRQ_SRC.TIME_SRC (fieldB d 4 2)
  let s := ((s.set Fd.FP_TIME_CFG.SLAVE_PORT 127).set Fd.FP_TIME_CFG.AS_SOURCE (fieldB d 6 1)).set Fd.FP_TIME_CFG.LOG_SYNC (fieldB d 7 1)
  let s := (s.set Fd.FP_TIME_CFG.PRIORITY1 (fieldB d 8 1)).set Fd.FP_TIME_CFG.PRIORITY2 (fieldB d 9 1)
  let s := s.each (x.pmOf 5) fun s e => s.loadPort e.2
  let s := s.each (x.pmOf 6) fun s e =>
    let f := fieldB e.2 1 1
    let i := fieldB e.2 2 1
    (s.set (Fd.FP_GCL.GATES f i) (fieldB e.2 3 1)).set (Fd.FP_GCL.INTERVAL f i) (fieldB e.2 4 4)
  s.modField fun f => { f with
    maps := (x.pmOf 1).map (·.2)
    templates := x.tpls.foldl (fun m t => mapPut m t.number t.template) [] }

def State.loadSplices (s : State) (x : Img) : State :=
  let a := x.spDescA
  let b := x.spDescB
  let s := (s.set Fd.CAS_LAT.RESILIENCE (fieldB a 1 1)).set Fd.CAS_LAT.MAX_LAT_NS (min x.maxLat 16777215)
  let s := ((s.set Fd.CAS_IRQ_SRC.LINK_SRC (fieldB a 2 2)).set Fd.CAS_IRQ_SRC.TIME_SRC (fieldB a 4 2)).set Fd.CAS_MQ_SRC.MQ_BASE (fieldB a 6 2)
  let s := (s.set Fd.CAS_PLAN_ID.PLAN_ID x.planId).set Fd.CAS_TIME_CFG.STARTUP_WAIT_S (fieldB b 1 1)
  let s := s.set Fd.CAS_TIME_CFG.BEAT_WIN_NS (fieldB b 8 4)
  let s := s.each (x.spOf 2) fun s e =>
    let r := e.2
    let p := spPort r
    let s := ((s.set (Fd.CAS_PORT_CFG.EN p) (b2n (spEn r))).set (Fd.CAS_PORT_CFG.DETOUR p) (spDetour r)).set (Fd.CAS_PORT_CFG.SIDE p) (spSide r)
    (s.set (Fd.CAS_PORT_CFG.ASYM_PS p) (spAsym r)).set (Fd.CAS_PORT_LOAD.LOAD_CELLS p) (spLoad r)
  s.modCas fun c => { c with
    publish := x.publish.map (·.2), subscribe := x.subscribe.map (·.2), resilience := fieldB a 1 1
    loads := (x.spOf 2).foldl (fun m e => mapSet 0 m (spPort e.2) (spLoad e.2)) [] }

/-- The grove records and their firewalls; a loaded grove is HELD until start completes (log 27). -/
def State.loadGroves (s : State) (x : Img) : State :=
  let d := recAt x.groves 0
  let s := (s.set Fd.GRV_IRQ_SRC.CMD_SRC (fieldB d 2 2)).set Fd.GRV_IRQ_SRC.PAIR_BASE (fieldB d 4 2)
  let s := s.each x.groveRecs fun s e =>
    let g := groveNo e.2
    let fw := recAt x.groves (e.1 + 1)
    (s.setGrv g { cfg := GroveRec.of e.2 }).each (List.range 32) fun s i => s.setReg (Rg.GRV_FW g i) (fieldB fw (8 * i) 8)
  s.each s.groveList fun s g => s.showGrove g stHeld

/-- The sections of an image in their units, and the segments in grove memory. -/
def State.loadImage (s : State) (x : Img) : State :=
  let s := s.modCas fun c => { c with sys := SystemRec.of (recAt x.sys 0) }
  let s := ((((s.loadFrames x).loadTags x).loadStrands x).loadPorts x).loadSplices x
  ((s.loadGroves x).each x.segments fun s g => s.wrB g.addr g.bytes).showFree

/-! ### Start completion (R64, R244, R277) -/

/-- Roles of the groves at start completion. -/
def State.startGroves (s : State) : State :=
  s.each s.groveList fun s g => (s.setGstate g (if (s.grv g).cfg.role == 2 then stStandby else stRunning)).bootGrove g

/-- The time role (R244, R252): a Taproot that runs from its own counter acquires at once. -/
def State.startTime (s : State) : State :=
  let y := s.cascade.sys
  let role := if y.device == y.taproot then 1 else if y.device == y.standby then 2 else 0
  let s := s.set Fd.CAS_TIME_STAT.ROLE role
  let s := if role != 1 then s
    else if s.on Fd.FP_TIME_CFG.AS_SOURCE then s.set Fd.TIME_STAT.SOURCE 2
    else s.raise Fd.TIME_STAT.ACQUIRED
  s.modCas fun c => { c with startedAt := s.now, startHold := role == 1 && !y.single, sending := role == 1 && y.single }

/-- Start completes: DONE and the start time, the Heartwood clock, groves, links, the host's status. -/
def State.startCompletes (s : State) (host : Nat) : State :=
  let s := ((s.raise Fd.CFG_STAT.DONE).set Fd.CFG_START_TIME.TIME s.now).modSec fun x => { x with hwClock := 0 }
  let s := ((s.setPhase .done).startGroves.showFree).startTime
  let s := s.each ((List.range 6).filter s.hwEnabled) fun s p => s.bringUp p
  (s.set Fd.PCI_HOST_STAT.STATE host).msix 0 1

/-- The anti-rollback counter rises to the running image's ARB (R64, R446). -/
def State.raiseArb (s : State) (a : Nat) : State :=
  let c := s.get Fd.CFG_ARB.COUNTER
  if c < a then ((s.audit 0x0014 c a).otpProgram 2 a).otpCopy 2 else s

/-- The slot passes: it runs (R64, R66). -/
def State.slotPasses (s : State) : State :=
  let b := s.start.plain
  let slot := s.start.slot
  let alt := slot != s.start.named
  let s := (s.raiseArb (imgArb b)).set Fd.CFG_STAT.SLOT slot
  let s := ((s.setIf alt Fd.CFG_STAT.ALT 1).set Fd.CFG_IMAGE_ID.IMAGE_ID (imgId b)).set Fd.CFG_ARB.VERSION (imgArb b)
  let s := s.iff alt fun s => s.modStart fun x => { x with bpWrite := some slot }
  (s.audit 0x0001 slot (imgId b)).startCompletes 1

/-! ### Safe Hold (R68-R70) -/

/-- The Maintenance grove: core 0, one grain, EXEC; where its grain lies and the ROM monitor starts is free (log 5). -/
def State.maintenanceGrove (s : State) : State :=
  let g : GroveRec := {
    exec := true, cores := 1, ctxCount := 16, mem := [(s.free.toNat % 16256, 1)]
    bootPc := (Config.freeWord (s.freeCnt + 1)).toNat }
  (s.drawn.drawn.setGrv 0 { cfg := g }).showGrove 0 stHeld

/-- Factory defaults and Safe Hold; start completes at once. -/
def State.safeHold (s : State) : State :=
  let causes := s.get Fd.CFG_CAUSE.CAUSE_A + 256 * s.get Fd.CFG_CAUSE.CAUSE_B
  let s := s.audit 0x0003 causes 0
  let s := (s.raise Fd.CFG_STAT.FALLBACK).raise Fd.CFG_STAT.SAFE_HOLD
  let s := ((s.set Fd.FRM_PERIOD.PERIOD_NS 1000000).set Fd.FP_TIME_CFG.SLAVE_PORT 127).startExchange
  (s.modStart fun x => { x with plain := [] }).maintenanceGrove.startCompletes 2

/-! ### A slot fails (R66) -/

/-- Registers that Heartwood does not clear when it clears what it has loaded: those of units that no section is loaded into. -/
def notLoaded (off : Nat) : Bool := (9 ≤ off / 0x400_0000 && off / 0x400_0000 ≤ 14) || off == Rg.FP_MAC_BASE

/-- Everything loaded is cleared. -/
def State.unload (s : State) : State :=
  let s : State := { s with
    regs := s.regs.filter (fun e => notLoaded e.1), mem := [], frame := {}, signal := {}, loop := {}
    field := { sent := s.field.sent }, cascade := { sent := s.cascade.sent }, groves := [], dma := {} }
  (s.each (resetRegs.filter fun e => !notLoaded e.1) fun s e => s.setReg e.1 e.2.toNat).modStart fun x => { x with plain := [] }

/-- A slot is rejected: cause, detail, audit entry; then the other slot from step 1, or Safe Hold. -/
def State.slotFails (s : State) (f : SlotFail) : State :=
  let slot := s.start.slot
  let s := if slot == 0 then (s.set Fd.CFG_CAUSE.CAUSE_A f.1).set Fd.CFG_CAUSE.DETAIL_A f.2
    else (s.set Fd.CFG_CAUSE.CAUSE_B f.1).set Fd.CFG_CAUSE.DETAIL_B f.2
  let s := (s.audit 0x0002 (slot + 256 * f.1) f.2).unload
  if s.start.tried.contains (1 - slot) then s.safeHold
  else s.modStart fun x => { x with phase := .reading, slot := 1 - slot, tried := slot :: x.tried, readOff := 0, readFails := 0, badReads := [] }

/-! ### The rows of R65 -/

/-- The recovery firmware wipes memory and enters Safe Hold without reading a slot (R452). -/
def State.recoveryStart (s : State) : State :=
  let s := (s.audit 0x0004 0 0).raise Fd.CFG_STAT.HWFW_RECOVERY
  let s := s.modSec fun x => { x with wipePending := false }
  ({ s with mem := [], coh := { s.coh with wiping := false, stale := false, fresh := [] } } : State).safeHold

/-- The GDDR7 device that MRAM records as spared stays spared: memory is wiped in the spared layout (R402). -/
def State.spareStart (s : State) : State :=
  match s.sec.spared with
  | none => s
  | some d => ((s.raise Fd.HWD_MEM_STAT.SPARED).set Fd.HWD_MEM_STAT.SPARED_DEV d).lower Fd.HWD_MEM_STAT.SPARING

/-- The main side is released: time starts from the Heartwood clock, new memory keys are drawn, the facts of the always-on domain are
shown, unfinished changes are completed, the wipe begins and the boot pointer is read. -/
def State.releaseMain (s : State) : State :=
  let s := (s.setTime s.hwTime).modPower fun p => { p with rstHeld := [] }
  let s := ((s.modSec fun x => { x with memKeys := x.memKeys + 1 }).spareStart.showFacts).lcResume
  let s := { s with pci := { s.pci with retryTo := s.now + 100000000 } }
  let s := s.set Fd.CFG_STAT.SLOW_FLASH (b2n s.flashSlow)
  if s.start.recovery then s.recoveryStart
  else (s.setPhase .wiping).readBootPtr

/-- POWER_GOOD: the Heartwood ROM starts. -/
def State.powerGood (s : State) : State := if s.phase == .rising then s.setPhase .rom else s

/-- ROM_SELF_TEST_COMPLETE: OTP has been read and the firmware area is verified; recovery firmware goes on to Safe Hold unless a reset cause is present. The ROM waits for the flash while boundary scan holds its lands (R535). -/
def State.romComplete (s : State) : State :=
  if s.phase != .rom || scanHolds s.sec.tapInstr then s
  else
    let s := s.startFirmware.setPhase .romDone
    if s.start.recovery && s.power.rstHeld.isEmpty then s.releaseMain else s

/-- MAIN_SIDE_RELEASE, after the firmware has been verified. -/
def State.mainRelease (s : State) : State :=
  if s.phase == .romDone && s.power.rstHeld.isEmpty then s.releaseMain else s

/-- A third failure of one read (R60), by what is being read. -/
def State.readFailed (s : State) (off : Nat) : State :=
  let s := s.modStart fun x => { x with badReads := off :: x.badReads, readFails := 0 }
  match s.phase with
  | .wiping => s.readBootPtr
  | .reading => s.slotFails (if s.lcRuns then (0x01, off / 0x1_0000) else (0x10, s.get Fd.HWD_STAT.LC))
  | _ => s

/-- FLASH_READ_COMPLETE. -/
def State.flashRead (s : State) (off : Nat) (ok : Bool) : State :=
  if ok then s.modStart fun x => { x with readOff := off, readFails := 0 }
  else
    let n := (if s.start.readOff == off then s.start.readFails else 0) + 1
    let s := s.modStart fun x => { x with readOff := off, readFails := n }
    if 3 ≤ n then s.readFailed off else s

/-- WIPE_COMPLETE: memory reads as zero (R441); the pending owner key comes into force; the slot is read. -/
def State.wipeComplete (s : State) : State :=
  if s.phase != .wiping then s
  else
    let s := { s with mem := [], coh := { s.coh with wiping := false, poisoned := [], failed := [], macFailed := [], stale := false, fresh := [] } }
    let s := (s.modSec fun x => { x with wipePending := false }).keyInForce
    s.modStart fun x => { x with phase := .reading, readOff := 0, readFails := 0, badReads := [] }

/-- SLOT_READ_COMPLETE: steps 1 to 10. -/
def State.slotRead (s : State) : State :=
  if s.phase != .reading then s
  else match s.check10 false s.start.slot none with
    | .ok b => s.modStart fun x => { x with phase := .checked10, plain := b }
    | .error f => s.slotFails f

/-- SEMANTIC_CHECKS_COMPLETE: steps 11 to 13. -/
def State.semanticChecks (s : State) : State :=
  if s.phase != .checked10 then s
  else match s.check13 s.start.plain with
    | none => s.setPhase .checked13
    | some f => s.drawn.slotFails f

/-- SECTIONS_LOADED. -/
def State.sectionsLoaded (s : State) : State :=
  if s.phase != .checked13 then s else (s.loadImage (Img.of s.start.plain)).setPhase .loaded

/-- ADMISSION_CHECK_COMPLETE: step 14 (R63). -/
def State.admissionChecked (s : State) : State :=
  if s.phase != .loaded then s
  else
    let a := s.admission
    let need := max 5000 (Img.of s.start.plain).maxLat
    let s := s.showAdmission a
    if s.guardNs < need then s.slotFails (0x0F, min need 1048575)
    else if a.passes then s.slotPasses
    else s.slotFails (0x0E, a.detail)

/-- BOOT_POINTER_WRITE: the boot pointer that is due after a fallback to the other slot. -/
def State.bootPointerDue (s : State) : State :=
  match s.start.bpWrite with
  | some slot => s.writeBootPtr slot
  | none => s

/-! ### Staging (R71-R73) -/

/-- The slot a staging writes: the one not running; in Safe Hold the one the boot pointer does not name. With no valid copy of the boot
pointer none is named: slot A is then taken as named, and slot B is staged (DESIGN CHOICE, log 77). -/
def State.stagingSlot (s : State) : Nat := 1 - (if s.on Fd.CFG_STAT.SAFE_HOLD then s.start.named else s.get Fd.CFG_STAT.SLOT)

/-- A staging begins: the slot is erased. -/
def State.stagingBegin (s : State) (m : Nat) (image : List Byte) : State :=
  let slot := s.stagingSlot
  let s := (s.raise Fd.CFG_STAGE.BUSY).set Fd.CFG_STAGE.SLOT slot
  let s := s.flashErase (s.slotBase slot) (s.slotBase slot + s.slotSize)
  s.modStart fun x => { x with staging := some { slot := slot, image := image, mailbox := m }, readOff := 0, readFails := 0, badReads := [] }

/-- The image is written and read back, and steps 1 to 12 are applied. -/
def State.stagingEnds (s : State) : State :=
  match s.start.staging with
  | none => s
  | some g =>
    let s := (s.flashPut (s.slotBase g.slot) g.image).lower Fd.CFG_STAGE.BUSY
    let fail := match s.check10 true g.slot s.start.badReads.getLast? with
      | .error f => some f
      | .ok b => check12 b
    let s := s.modStart fun x => { x with staging := none }
    let cause := (fail.map (·.1)).getD 0
    let id := imgId (s.storedImage g.slot)
    let s := (s.audit 0x0006 cause id).set Fd.CFG_STAGE.RESULT cause
    match fail with
    | none => ((s.writeBootPtr g.slot).raise Fd.CFG_STAGE.PENDING).mbxEnd g.mailbox 0 0 0
    | some (0x01, d) => s.mbxEnd g.mailbox 0x08 d 0
    | some (c, _) => s.mbxEnd g.mailbox 0x09 c 0

end Sys2Proof.Machine
end

