-- ==== Sys2Proof/Machine/Heartwood.lean ====
section
/-! DEFINITION. Heartwood (chapter 14): mailbox commands, owner authorisation, lifecycle changes, tamper responses, the Heartwood
clock, attestation and the TAP. -/

namespace Sys2Proof.Machine

/-! ### Mailbox data (R459) -/

/-- The first `n` bytes of a mailbox's buffer. -/
def State.mbxBytes (s : State) (m n : Nat) : List Byte :=
  ((List.range (ceilDiv n 8)).flatMap fun j => leBytes 8 (s.reg (Rg.HWD_MBX_DATA m j))).take n

/-- Write bytes from the start of a mailbox's buffer; a part of a word keeps its other bytes. -/
def State.mbxPut (s : State) (m : Nat) (bs : List Byte) : State :=
  s.each (List.range (ceilDiv bs.length 8)) fun s j =>
    let part := (bs.drop (8 * j)).take 8
    s.setReg (Rg.HWD_MBX_DATA m j) (leNat (overlayB (leBytes 8 (s.reg (Rg.HWD_MBX_DATA m j))) 0 part))

/-- A command succeeds with response bytes. -/
def State.mbxReply (s : State) (m : Nat) (bs : List Byte) : State := (s.mbxPut m bs).mbxEnd m 0 0 bs.length

/-- A command is refused. -/
def State.mbxRefuse (s : State) (m result detail : Nat) : State := s.mbxEnd m result detail 0

def State.lc (s : State) : Nat := s.get Fd.HWD_STAT.LC

/-- The request data of the command in progress. -/
def State.mbxReq (s : State) (m : Nat) : List Byte := s.mbxBytes m (min 2048 (s.get (Fd.HWD_MBX_CMD.LEN m)))

def State.box (s : State) (m : Nat) : MailboxSt := mapGet {} s.sec.boxes m
def State.setBox (s : State) (m : Nat) (x : MailboxSt) : State := s.modSec fun y => { y with boxes := mapSet {} y.boxes m x }

/-- A command with an owner block consumes the mailbox's nonce, whatever comes of it (R448). -/
def State.dropNonce (s : State) (m : Nat) : State := s.setBox m { s.box m with nonce := none }

/-- Is this command in progress at this mailbox? -/
def State.inProgress (s : State) (m code : Nat) : Bool :=
  s.heartwoodRuns && s.sec.queue.head? == some m && s.get (Fd.HWD_MBX_CMD.CODE m) == code

/-- The checks common to every command, in the order of the RESULT codes (log 31): it is in progress at this mailbox; its request has
the right length; the state, role and firmware permit it. `block`: it carries an owner block. -/
def State.mbxRow (s : State) (m code len : Nat) (permitted block : Bool) (f : State → List Byte → State) : State :=
  if !s.inProgress m code then s
  else if s.get (Fd.HWD_MBX_CMD.LEN m) != len then (s.iff block (·.dropNonce m)).mbxRefuse m 0x03 len
  else if !permitted || (s.start.recovery && !([0x01, 0x02, 0x03, 0x05, 0x11].contains code)) then
    (s.iff block (·.dropNonce m)).mbxRefuse m 0x04 s.lc
  else f s (s.mbxReq m)

/-! ### Owner authorisation (R448, R460) -/

/-- 32 free bytes: four draws (log 5). -/
def State.freshNonce (s : State) : List Byte := (List.range 4).flatMap fun k => leBytes 8 (Config.freeWord (s.freeCnt + k)).toNat

/-- An authorisation that fails: counted, and at the 16th in a row the mailbox locks until reset. -/
def State.authFails (s : State) (m code result : Nat) : State :=
  let n := (s.box m).fails + 1
  let s := (s.audit 0x0021 code m).setBox m { s.box m with fails := n }
  let s := if n == 16 then (s.audit 0x0022 m 0).raise (Fd.HWD_MBX_STAT.LOCKED m) else s
  s.mbxRefuse m result 0

/-- A command that carries an owner block at the end of its request: the nonce is consumed whatever comes; LOCKED, NONCE and AUTH, or
the command over the request before the block (log 31). -/
def State.authorised (s : State) (m code : Nat) (req : List Byte) (f : State → List Byte → State) : State :=
  let body := req.take (req.length - 128)
  let block := sliceB req (req.length - 128) 128
  if s.on (Fd.HWD_MBX_STAT.LOCKED m) then (s.dropNonce m).mbxRefuse m 0x0C 0
  else
    let held := (s.box m).nonce
    let s := s.dropNonce m
    let nonceOk := match held with
      | some (v, t) => v == block.take 32 && s.hwTime < t + 600000000000
      | none => false
    let serial := leBytes 8 (s.reg Rg.HWD_SERIAL_LO) ++ leBytes 8 (s.reg Rg.HWD_SERIAL_HI)
    let message := serial ++ leBytes 2 code ++ body ++ block.take 32
    let key := (s.ownerIndex.map s.ownerDigest).getD []
    if !nonceOk then s.authFails m code 0x06
    else if !Config.signatureValid key message (block.drop 32) then s.authFails m code 0x05
    else f (s.setBox m { s.box m with fails := 0 }) body

/-! ### Debug (R457) -/

/-- Is core debug open: always in FACTORY and BLANK, while opened by DEBUG_OPEN otherwise? -/
def State.coreDebug (s : State) : Bool := s.lc < 2 || s.on Fd.HWD_STAT.DEBUG

/-! ### Attestation (R461) -/

/-- The digest that the running image's signature covers. -/
def State.imageDigest (s : State) : List Byte :=
  if s.on Fd.CFG_STAT.DONE && !s.on Fd.CFG_STAT.SAFE_HOLD then
    let b := s.storedImage (s.get Fd.CFG_STAT.SLOT)
    cryptoN 9 48 (b.take (b.length - 96))
  else List.replicate 48 0

/-- Bytes 0x00 to 0x9F of a quote. -/
def State.quoteBody (s : State) (nonce : List Byte) : List Byte :=
  let flags := b2n s.coreDebug + 2 * s.get Fd.HWD_STAT.ZEROISED + 4 * s.get Fd.CFG_STAT.SAFE_HOLD + 8 * b2n s.start.recovery +
    16 * s.get Fd.HWD_STAT.KEY_PENDING + 32 * s.get Fd.HWD_STAT.IMAGE_KEY
  leBytes 4 0x54515748 ++ leBytes 2 1 ++ leBytes 1 s.lc ++ leBytes 1 flags ++
    leBytes 8 (s.reg Rg.HWD_SERIAL_LO) ++ leBytes 8 (s.reg Rg.HWD_SERIAL_HI) ++ leBytes 4 (s.reg Rg.HWD_FW) ++
    leBytes 1 (s.get Fd.HWD_CNT.KEY_INDEX) ++ leBytes 1 (s.get Fd.HWD_CNT.OWNER_INSTALLS) ++ leBytes 1 (s.get Fd.HWD_CNT.SERVICE_ENTRIES) ++
    leBytes 1 0 ++ leBytes 2 (s.get Fd.CFG_ARB.COUNTER) ++ List.replicate 6 0 ++ leBytes 8 (s.reg Rg.CFG_IMAGE_ID) ++ s.imageDigest ++
    leBytes 8 (s.reg Rg.HWD_AUDIT_SEQ) ++ leBytes 8 s.hwTime ++ sliceB nonce 0 32 ++ s.auditChain

def State.quote (s : State) (nonce : List Byte) : List Byte := s.quoteBody nonce ++ cryptoN 5 96 (s.quoteBody nonce)

/-! ### Commands without authorisation (R459) -/

def State.getInfo (s : State) (m : Nat) : State :=
  s.mbxRow m 0x01 0 true false fun s _ => s.mbxReply m ((s.quoteBody []).take 48)

def State.getNonce (s : State) (m : Nat) : State :=
  s.mbxRow m 0x02 0 true false fun s _ =>
    let n := s.freshNonce
    ({ s.setBox m { s.box m with nonce := some (n, s.hwTime) } with freeCnt := s.freeCnt + 4 } : State).mbxReply m n

def State.getIdentity (s : State) (m : Nat) : State :=
  s.mbxRow m 0x03 0 true false fun s _ => s.mbxReply m (sliceB s.sec.idPub 0 97 ++ List.replicate 3 0 ++ sliceB s.sec.cert 0 256)

def State.attest (s : State) (m : Nat) : State :=
  s.mbxRow m 0x04 32 s.lcRuns false fun s req => s.mbxReply m (s.quote req)

/-- AUDIT_READ: COUNT outside 1 to 31 is refused with CHECK (log 31). -/
def State.auditRead (s : State) (m : Nat) : State :=
  s.mbxRow m 0x05 9 true false fun s req =>
    let n := fieldB req 8 1
    if n == 0 || 31 < n then s.mbxRefuse m 0x09 0
    else s.mbxReply m ((s.sec.audit.reverse.filter fun e => fieldB req 0 8 ≤ fieldB e 0 8).take n).flatten

/-- A command reads the bytes that ADDR and LENGTH name: a buffer in GDDR7 for mailbox 0, the staging window of PF0 for mailbox 1; one that
does not lie there, or that a failed line makes unreadable, ends with ACCESS (log 76). The reads are ReadCurrent at the homes (R390):
they wait for an open transaction. -/
def State.mbxBuffer (s : State) (m addr len : Nat) (f : State → List Byte → State) : State :=
  let a := if m == 0 then addr else 0x7_F000_0000 + addr
  if !(if m == 0 then addr + len ≤ gddrSize else addr + len ≤ 0x1000_0000) then s.mbxRefuse m 0x0B 0
  else if !s.linesFree a len then s
  else match s.unitRead a len false with
    | (some b, s) => f s b
    | (none, s) => s.mbxRefuse m 0x0B 0

/-- STAGE (R71, R73): the command lasts until STAGING_COMPLETE; a request of the other mailbox meanwhile is answered BUSY. -/
def State.stage (s : State) (m : Nat) : State :=
  match s.start.staging with
  | some g =>
    if g.mailbox != m && s.sec.queue.contains m && s.get (Fd.HWD_MBX_CMD.CODE m) == 0x10 then s.mbxRefuse m 0x01 0 else s
  | none => s.mbxRow m 0x10 12 s.lcRuns false fun s req =>
    let len := fieldB req 8 4
    s.mbxBuffer m (fieldB req 0 8) len fun s b =>
      if s.slotSize < len then s.mbxRefuse m 0x09 0x04 else s.stagingBegin m b

/-- The firmware area is erased, and written with the firmware or with a first part of it of a free length (log 5). -/
def State.firmwareWrite (s : State) (b : List Byte) (whole : Bool) : State :=
  let s := s.flashErase 0x2_0000 0x10_0000
  if whole then (s.flashPut 0x2_0000 b).modSec fun x => { x with fwBad := false, fwWriting := none }
  else ((s.flashPut 0x2_0000 (b.take (s.free.toNat % b.length))).drawn).modSec fun x => { x with fwBad := true, fwWriting := none }

/-- The write and read-back of new firmware: whole, cut short with the command still in progress, or failed three times at an operation
in a 64 KiB unit (R452, R459). -/
def State.firmwareStore (s : State) (m : Nat) (b : List Byte) (w : FwWrite) : State :=
  match w with
  | .done => (s.firmwareWrite b true).mbxReply m []
  | .cut => (s.firmwareWrite b false).modSec fun x => { x with fwWriting := some (m, b) }
  | .failed u => (s.firmwareWrite b false).mbxRefuse m 0x08 u.val

/-- HWFW_UPDATE (R452): checked before anything is erased, then written; a write that was cut short begins again. -/
def State.hwfwUpdate (s : State) (m : Nat) (w : FwWrite) : State :=
  match s.sec.fwWriting with
  | some (n, b) => if n == m && s.inProgress m 0x11 then s.firmwareStore m b w else s
  | none => s.mbxRow m 0x11 12 (s.lc < 5) false fun s req =>
    let len := fieldB req 8 4
    s.mbxBuffer m (fieldB req 0 8) len fun s b =>
      if fieldB b 8 4 != len || !s.firmwareOk b then s.mbxRefuse m 0x09 0
      else (s.audit 0x0015 (s.reg Rg.HWD_FW) (fieldB b 0x0C 4)).firmwareStore m b w

/-! ### Lifecycle and keys (R443-R451) -/

/-- Is the transition in the table of R443, and does it need the owner: none where it does not exist? -/
def lcTransition (old new : Nat) : Option Bool :=
  if old == 1 && new == 5 then some false
  else if (old == 2 && new == 3) || (old == 3 && new == 4) || (old == 4 && new == 3) then some true
  else if (2 ≤ old && old ≤ 4) && (new == 1 || new == 5) then some true
  else none

/-- Steps 2 and 3 of R444: the OTP step, and the result. -/
def State.changeEnds (s : State) (c : Change) : State := (s.changeStep c).mbxReply c.mailbox []

/-- A change after its audit entry: it goes on to its result, or waits with the command still in progress, its OTP cell untouched or left
with a margin that is not clean. -/
def State.changeGoes (s : State) (c : Change) (e : ChangeEnd) : State :=
  match e with
  | .whole => s.changeEnds c
  | .entry => s.modSec fun x => { x with change := some c }
  | .cell => s.modSec fun x => { x with
    change := some c, margin := c.counter.toList ++ x.margin.filter fun k => some k != c.counter }

/-- A row of a command that makes a change: one that waits after its audit entry goes on where it was; otherwise it begins. -/
def State.changeRow (s : State) (m code : Nat) (e : ChangeEnd) (begin_ : State → State) : State :=
  match s.sec.change with
  | some c => if c.mailbox == m && s.inProgress m code then s.changeGoes c e else s
  | none => begin_ s

/-- Step 1 of R444. -/
def State.lcAccept (s : State) (m new : Nat) (e : ChangeEnd) : State :=
  let old := s.lc
  let service := old == 3 && new == 4
  if service && 16 ≤ s.get Fd.HWD_CNT.SERVICE_ENTRIES then s.mbxRefuse m 0x07 1
  else
    let c : Change := {
      seq := s.get Fd.HWD_AUDIT_SEQ.SEQ, mailbox := m, lc := some new, counter := if service then some 1 else none, key := none }
    (s.audit 0x0010 (old + 256 * new) 0).changeGoes c e

/-- LC_CHANGE: TARGET and three zero bytes, with an owner block where R443 asks for one; a transition that does not exist is refused
with STATE, whether the request carries a block or not. -/
def State.lcChange (s : State) (m : Nat) (e : ChangeEnd) : State :=
  s.changeRow m 0x20 e fun s =>
    let target := bits (s.reg (Rg.HWD_MBX_DATA m 0)) 7 0
    let owner := (lcTransition s.lc target).getD (s.get (Fd.HWD_MBX_CMD.LEN m) == 132)
    s.mbxRow m 0x20 (if owner then 132 else 4) ((lcTransition s.lc target).isSome && s.sec.lcTo.isNone) owner fun s req =>
      if !zeroB req 1 3 then (s.iff owner (·.dropNonce m)).mbxRefuse m 0x09 0
      else if owner then s.authorised m 0x20 req fun s _ => s.lcAccept m target e
      else s.lcAccept m target e

/-- The digest of an owner point. -/
def pointDigest (pt : List Byte) : List Byte := cryptoN 9 48 pt

/-- Is a certificate this device's, and does it verify under a key (R451)? -/
def State.ownCertOk (s : State) (cert : List Byte) (k : Nat) (digest : List Byte) : Bool :=
  fieldB cert 0 4 == 0x54435748 && fieldB cert 4 2 == 1 && fieldB cert 6 1 == k &&
    fieldB cert 8 8 == s.reg Rg.HWD_SERIAL_LO && fieldB cert 0x10 8 == s.reg Rg.HWD_SERIAL_HI &&
    sliceB cert 0x20 97 == sliceB s.sec.idPub 0 97 && Config.signatureValid digest (sliceB cert 0 0xA0) (sliceB cert 0xA0 96)

/-- A point with its certificate is installed in the next free slot (R446, R447), by PROVISION with the lifecycle change. -/
def State.installKey (s : State) (m : Nat) (req : List Byte) (provision : Bool) (e : ChangeEnd) : State :=
  let k := s.get Fd.HWD_CNT.OWNER_INSTALLS
  let digest := pointDigest (sliceB req 0 97)
  let cert := sliceB req 100 256
  if 8 ≤ k then s.mbxRefuse m 0x07 0
  else if !zeroB req 97 3 || !s.ownCertOk cert k digest then s.mbxRefuse m 0x09 0
  else
    let c : Change := {
      seq := s.get Fd.HWD_AUDIT_SEQ.SEQ, mailbox := m, lc := if provision then some 2 else none, counter := some 0
      key := some (k, digest, cert) }
    let s := if provision then s.audit 0x0010 (1 + 256 * 2) 0 else s
    (s.audit 0x0011 k 0).changeGoes c e

/-- PROVISION: the key is in force at once; a lifecycle change to PROVISIONED follows. -/
def State.provision (s : State) (m : Nat) (e : ChangeEnd) : State :=
  s.changeRow m 0x21 e fun s =>
    s.mbxRow m 0x21 356 (s.lc == 1 && s.sec.lcTo.isNone) false fun s req => s.installKey m req true e

/-- KEY_ROTATE: the new key waits for the next start (R449). -/
def State.keyRotate (s : State) (m : Nat) (e : ChangeEnd) : State :=
  s.changeRow m 0x22 e fun s =>
    s.mbxRow m 0x22 484 (s.lcRuns && !s.on Fd.HWD_STAT.KEY_PENDING) true fun s req =>
      s.authorised m 0x22 req fun s body => s.installKey m body false e

/-- CERT_INSTALL (R451). -/
def State.certInstall (s : State) (m : Nat) : State :=
  s.mbxRow m 0x23 256 s.lcRuns false fun s cert =>
    let k := fieldB cert 6 1
    let pend := s.on Fd.HWD_STAT.KEY_PENDING && s.get Fd.HWD_CNT.PENDING_INDEX == k
    if !(s.ownerIndex == some k || pend) || !s.ownCertOk cert k (s.ownerDigest k) then s.mbxRefuse m 0x09 0
    else
      let s := s.audit 0x0013 k 0
      (s.modSec fun x => if pend then { x with certPend := cert } else { x with cert := cert }).mbxReply m []

/-- IMAGE_KEY_INSTALL (R450). -/
def State.imageKeyInstall (s : State) (m : Nat) : State :=
  s.mbxRow m 0x24 288 s.lcRuns true fun s req =>
    s.authorised m 0x24 req fun s body =>
      let e := sliceB body 0 97
      let serial := leBytes 8 (s.reg Rg.HWD_SERIAL_LO) ++ leBytes 8 (s.reg Rg.HWD_SERIAL_HI)
      let kek := cryptoN 8 32 (e ++ serial ++ leBytes 1 (s.get Fd.HWD_CNT.KEY_INDEX))
      if !zeroB body 97 3 then s.mbxRefuse m 0x09 0
      else match Config.gcmOpen kek (sliceB body 100 12) e (sliceB body 112 32) (sliceB body 144 16) with
        | none => s.mbxRefuse m 0x09 0
        | some key =>
          let s := s.audit 0x0012 0 0
          ((s.modSec fun x => { x with imageKey := some (sliceB key 0 32) }).raise Fd.HWD_STAT.IMAGE_KEY).mbxReply m []

def State.debugOpen (s : State) (m : Nat) : State :=
  s.mbxRow m 0x30 128 (s.lc == 2 || s.lc == 4) true fun s req =>
    s.authorised m 0x30 req fun s _ => ((s.audit 0x0030 0 0).raise Fd.HWD_STAT.DEBUG).mbxReply m []

def State.debugClosed (s : State) (m : Nat) : State :=
  s.mbxRow m 0x31 0 true false fun s _ => (s.debugClose 0).mbxReply m []

/-- NONCE_LAPSE: 600 s after the oldest nonce was issued, every nonce of that age lapses. -/
def State.nonceLapse (s : State) : State :=
  let issued := (s.sec.boxes.filterMap fun e => e.2.nonce).map (·.2)
  match isort id issued with
  | [] => s
  | t :: _ =>
    let s := s.atTime (s.now + (t + 600000000000 - s.hwTime))
    let lapse (b : MailboxSt) : MailboxSt := if b.nonce.any (fun v => v.2 ≤ t) then { b with nonce := none } else b
    s.modSec fun x => { x with boxes := (x.boxes.map fun e => (e.1, lapse e.2)).filter fun e => decide (e.2 ≠ {}) }

/-- LIFECYCLE_CHANGE_RESET: step 4 of R444, and the epoch's sealed-bank wipe (R44). -/
def State.lcReset (s : State) : State :=
  if s.sec.lcTo.isNone then s
  else ((s.enterReset kindWarm srcLifecycle 2).lcApply).modCoh fun x => { x with wiping := true }

/-! ### Tamper responses (R453, R454) -/

/-- The response of a condition: 1 ALERT, 2 RESET, 3 ZEROISE. -/
def tamperCode (k : Nat) : Nat := if k < 3 then 3 else if k == 5 then 1 else 2

/-- Wipe the sealed bank once its domain has power (R44, R377). -/
def State.sealWipe (s : State) : State := s.modCoh fun x => { x with wiping := true }

/-- Steps 2 to 5 of R454; commands that wait at a mailbox complete with ABORTED as the reset does it. -/
def State.zeroise (s : State) : State :=
  let s := s.enterReset kindRestart srcZeroise 1
  let s := (s.lower Fd.HWD_STAT.IMAGE_KEY).raise Fd.HWD_STAT.ZEROISED
  (s.modSec fun x => { x with epochs := x.epochs + 1, imageKey := none, wipePending := true }).sealWipe

/-- Have 64 line MAC failures come within 1 s, the last within the 10 µs of an evaluation (R453)? -/
def State.macTamper (s : State) : Bool :=
  match s.sec.macFails.head?, s.sec.macFails[63]? with
  | some new, some old => new < old + 1000000000 && s.now ≤ new + 10000
  | _, _ => false

/-- A condition arises: its record, the audit entry, then its response. -/
def State.tamper (s : State) (k : Nat) : State :=
  if !s.alwaysOn || bitOf s.sec.active k || (k == 7 && !s.macTamper) then s
  else
    let s := ((s.set Fd.HWD_TAMPER.ACTIVE (setBits (s.get Fd.HWD_TAMPER.ACTIVE) k k 1)).set Fd.HWD_TAMPER.SEEN
      (setBits (s.get Fd.HWD_TAMPER.SEEN) k k 1)).inc Fd.HWD_TAMPER_CNT.COUNT
    let s := s.modSec fun x => { x with active := setBits x.active k k 1, absentAt := mapDel x.absentAt k }
    let s := s.audit 0x0020 (2 ^ k) (tamperCode k)
    match tamperCode k with
    | 1 => if s.on Fd.HWD_IRQ_SRC.ALERT_EN then s.pulse (s.get Fd.HWD_IRQ_SRC.ALERT_SRC) else s
    | 2 => (s.enterReset kindWarm srcSensor 1).sealWipe
    | _ => s.zeroise

/-- A condition ends; its absence is timed from now. -/
def State.tamperAbsent (s : State) (k : Nat) : State :=
  if !bitOf s.sec.active k then s
  else
    (s.set Fd.HWD_TAMPER.ACTIVE (setBits (s.get Fd.HWD_TAMPER.ACTIVE) k k 0)).modSec fun x =>
      { x with active := setBits x.active k k 0, absentAt := mapPut x.absentAt k s.now }

/-- Conditions with one response. -/
def tamperBits (code : Nat) : List Nat := (List.range 8).filter fun k => tamperCode k == code

/-- When the conditions of a response will have been absent for `d`; none while one is present. -/
def State.absentFor (s : State) (code d : Nat) : Option Nat :=
  if (tamperBits code).any (bitOf s.sec.active) then none
  else some (maxL ((tamperBits code).map fun k => mapGet 0 s.sec.absentAt k) + d)

/-- A reset cause ends. -/
def State.endCause (s : State) (src : Nat) : State := s.modPower fun p => { p with rstHeld := p.rstHeld.filter (· != src) }

/-- The main side leaves reset when every cause has ended, a power-fail sequence that still has its cold reset to come among them
(R517): its start goes on from the "6 ms" row, with the firmware already verified (R65, R516). -/
def State.releaseIfFree (s : State) : State :=
  if s.phase == .heldReset && s.power.rstHeld.isEmpty && !s.sec.pfHeld then s.releaseMain else s

/-- SENSOR_HOLD_END: the RESET conditions have been absent for 100 ms. -/
def State.sensorHoldEnd (s : State) : State :=
  if !s.power.rstHeld.contains srcSensor then s
  else match s.absentFor 2 100000000 with
    | none => s
    | some t => ((s.atTime t).endCause srcSensor).releaseIfFree

/-- HEARTWOOD_RESTART: the ZEROISE conditions have been absent for 1 s; Heartwood's ROM starts. -/
def State.heartwoodRestart (s : State) : State :=
  if !s.power.rstHeld.contains srcZeroise then s
  else match s.absentFor 3 1000000000 with
    | none => s
    | some t =>
      let s := (s.atTime t).endCause srcZeroise
      if s.phase == .rising then s else { s with start := { phase := .rom } }

/-- RESET_RELEASE: the causes that have no end of their own (the pin, the supply, a register write, a lifecycle change) have ended. -/
def State.resetRelease (s : State) : State :=
  ((s.endCause srcRstN).endCause srcPowerFail |>.endCause srcPwrCtl |>.endCause srcLifecycle).releaseIfFree

/-- HEARTWOOD_CLOCK_SYNC (R456). -/
def State.clockSync (s : State) : State :=
  if s.on Fd.TIME_STAT.ACQUIRED then s.modSec fun x => { x with hwClock := 0 } else s

/-! ### The TAP (R457, R458, R535) -/

/-- The instruction that a code stands for: BYPASS for a debug code while its debug is closed, and for a code that names none. -/
def State.tapCode (s : State) (code : Nat) : Nat :=
  if code ≤ 0x05 then code
  else if (code == 0x10 || code == 0x11) && s.coreDebug then code
  else if code == 0x12 && s.lc == 0 then code
  else 0xFF

/-- A TAP instruction is loaded; a holding one keeps the main side in a warm reset until another takes its place. -/
def State.tapLoad (s : State) (code : Nat) : State :=
  if !s.alwaysOn then s
  else
    let c := s.tapCode code
    let s := s.modSec fun x => { x with tapInstr := c }
    if scanHolds c then (s.audit 0x0032 c 0).enterReset kindWarm srcScan 1
    else (s.endCause srcScan).releaseIfFree

end Sys2Proof.Machine
end

