-- ==== Sys2Proof/Machine/HostIf.lean ====
section
/-! DEFINITION. The host interface (chapter 16): link, function resets, host tag writes, doorbells, snapshots, message queues,
outbound reads. -/

namespace Sys2Proof.Machine

/-! ### Link (R490, R491, R500) -/

/-- LINK_CHG and its doorbell. -/
def State.linkChanged (s : State) : State := (s.raise Fd.PCI_STAT.LINK_CHG).pulse (s.get Fd.PCI_IRQ_SRC.LINK_SRC)

/-- The link trains up, at 8, 16 or 32 GT/s (1 to 3) and x8 or x4; at another speed none forms. -/
def State.linkUp (s : State) (speed : Nat) (x8 : Bool) : State :=
  if s.inReset || speed == 0 then s
  else
    let was := s.on Fd.PCI_LINK.UP
    let s := ((s.raise Fd.PCI_LINK.UP).set Fd.PCI_LINK.SPEED speed).set Fd.PCI_LINK.WIDTH (if x8 then 8 else 4)
    if was then s else s.linkChanged

/-- An outbound read ends (R507). -/
def State.obEnd (s : State) (id : Nat) (v : Option Nat) : State :=
  match mapGet? s.pci.reads id with
  | none => s
  | some r =>
    if r.result.isSome then s
    else
      let s := if v.isNone then s.obFail else s
      s.modPci fun p => { p with reads :=
        if r.req == reqNone then mapDel p.reads id else mapPut p.reads id { r with result := some v } }

/-- The link goes down: outbound reads fail; while the device runs an image every tag of writer kind 6 takes quality 0x08 (R500). -/
def State.linkDown (s : State) : State :=
  if !s.on Fd.PCI_LINK.UP then s
  else
    let s := s.setReg Rg.PCI_LINK 0
    let s := s.each (s.pci.reads.map (·.1)) fun s id => s.obEnd id none
    let s := if s.get Fd.PCI_HOST_STAT.STATE == 1 then
        s.each (s.usedTags.filter fun i => (s.tag i).wKind == 6) fun s i => (s.tagStore .host (tagAddr i + 0x18) 1 0x08).2
      else s
    s.linkChanged

/-- A function's configuration space, MSI-X table and host-side indices return to their reset values (R491). -/
def State.flr (s : State) (f : Nat) : State :=
  let s := s.modPci fun p => { p with msix := mapDel p.msix f }
  if f == 1 then s.each (List.range 16) fun s q => (s.lower (Fd.PCI_MQ_IDX.H2D_HEAD q)).lower (Fd.PCI_MQ_IDX.D2H_TAIL q) else s

/-- `PCI_PERST_N`: the endpoint alone is reset. -/
def State.perst (s : State) : State :=
  if s.inReset then s
  else ((s.linkDown.flr 0).flr 1).modPci fun p => { p with retryTo := s.now + 100000000 }

/-! ### Host tag writes (R499) -/

/-- Does PF1 take writes: the link is up, and not Safe Hold (R495)? -/
def State.pf1 (s : State) (f : State → State) : State :=
  if !s.on Fd.PCI_LINK.UP then s else if s.on Fd.CFG_STAT.SAFE_HOLD then s.hostDrop else f s

def State.hostValue (s : State) (tag v : Nat) : State :=
  let n := valueSize (s.tag tag).vtype
  (s.tagStore .host (tagAddr tag) n (v % 2 ^ (8 * n))).2

def State.hostQual (s : State) (tag q : Nat) : State := (s.tagStore .host (tagAddr tag + 0x18) 1 q).2

/-- A host write to `PCI_DOORBELL` (R497). -/
def State.hostDoorbell (s : State) (v : Nat) : State :=
  s.writeAt .host (winBase + Rg.PCI_DOORBELL) 4 fun s => s.doorbell .host (bits v 11 0) (bits v 13 12)

/-! ### Snapshots (R501, R502) -/

def State.snap (s : State) (w : Nat) : SnapSt := mapGet {} s.pci.snaps w
def State.setSnap (s : State) (w : Nat) (x : SnapSt) : State := s.modPci fun p => { p with snaps := mapSet {} p.snaps w x }

def State.snapAddr (s : State) (w k : Nat) : Nat := s.get (Fd.PCI_SNAP_BASE.BASE w) * 0x80_0000 + (k % 2) * 0x40_0000

/-- The 32-byte entry of a tag. -/
def State.snapEntry (s : State) (i : Nat) : List Byte :=
  let t := s.tag i
  leBytes 8 t.value ++ leBytes 8 t.ts ++ leBytes 1 t.qual ++ leBytes 1 t.almSt ++ leBytes 1 t.vtype ++ List.replicate 13 0

/-- The number under which the snapshot unit's writes wait at a home. -/
def snapWho : Nat := 1010

/-- A due window is copied: SEQ 0 in the header, then the entries; it is skipped while its last snapshot is still being written. -/
def State.snapBegin (s : State) (w : Nat) : State :=
  let x := s.snap w
  if x.writing then s.raise (Fd.PCI_SNAP_STAT.SKIP w)
  else
    let first := s.get (Fd.PCI_SNAP_CFG.FIRST w)
    let count := s.get (Fd.PCI_SNAP_CFG.COUNT w)
    let head := leBytes 8 0 ++ leBytes 8 s.tickTime ++ leBytes 2 first ++ leBytes 2 0 ++ leBytes 4 count ++ List.replicate 40 0
    let bytes := head ++ (List.range count).flatMap fun k => s.snapEntry (first + k)
    (s.homeWrite snapWho (s.snapAddr w x.k) bytes).setSnap w { x with writing := true }

/-- SNAPSHOT_COPY, at D(n) + 100 ns. -/
def State.snapshotCopy (s : State) : State :=
  if !s.frameRunning || !s.frame.decided || s.pci.copied == some s.frameNo then s
  else
    let s := (s.atTime (s.deadline + 100)).modPci fun p => { p with copied := some s.frameNo }
    s.each ((List.range 4).filter fun w => s.on (Fd.PCI_SNAP_CFG.EN w) && s.due (s.get (Fd.PCI_SNAP_CFG.CLASS w))) fun s w => s.snapBegin w

/-- SNAPSHOT_COMPLETE: SEQ is written and the window's status set. -/
def State.snapshotEnd (s : State) (w : Nat) : State :=
  let x := s.snap w
  if !x.writing then s
  else
    let s := (s.homeWrite snapWho (s.snapAddr w x.k) (leBytes 8 (x.k + 1))).setSnap w { k := x.k + 1, writing := false }
    let s := (s.set (Fd.PCI_SNAP_STAT.LAST w) (x.k % 2)).set (Fd.PCI_SNAP_STAT.SEQ w) (x.k + 1)
    if s.on (Fd.PCI_SNAP_CFG.INT w) then s.msix 1 0 else s

/-- Does an address lie in GDDR7 of a grove? -/
def State.groveGddr (s : State) (g a n : Nat) : Bool := a + n ≤ gddrSize && (s.grv g).cfg.holds a n && (s.grv? g).isSome

/-- A write of `PCI_SNAP_CFGw` (R17, R501). -/
def State.snapCfg (s : State) (w v : Nat) : State :=
  let first := bits v 31 16
  let count := bits v 48 32
  let base := s.get (Fd.PCI_SNAP_BASE.BASE w) * 0x80_0000
  let others := ((List.range 4).filter fun u => u != w && s.on (Fd.PCI_SNAP_CFG.EN u)).map fun u => s.get (Fd.PCI_SNAP_CFG.COUNT u)
  let sum := others.foldl (· + ·) count
  if count == 0 || 65536 < count then s
  else if bitOf v 0 && ((s.guardNs - 100) * 6 / 5 < sum || 65536 < first + count ||
      !s.groveList.any (fun g => (s.grv g).cfg.exec && s.groveGddr g base 1)) then s
  else
    let s := ((s.set (Fd.PCI_SNAP_CFG.EN w) (bits v 0 0)).set (Fd.PCI_SNAP_CFG.INT w) (bits v 1 1)).set (Fd.PCI_SNAP_CFG.CLASS w) (bits v 3 2)
    (s.set (Fd.PCI_SNAP_CFG.FIRST w) first).set (Fd.PCI_SNAP_CFG.COUNT w) count

def State.snapBase (s : State) (w v : Nat) : State :=
  if s.on (Fd.PCI_SNAP_CFG.EN w) && bits v 39 23 != s.get (Fd.PCI_SNAP_BASE.BASE w) then s
  else s.set (Fd.PCI_SNAP_BASE.BASE w) (bits v 39 23)

/-! ### Message queues (R504-R506) -/

def State.h2dSize (s : State) (q : Nat) : Nat := 2 ^ s.get (Fd.PCI_MQ_CFG.H2D_LOG2 q)
def State.d2hSize (s : State) (q : Nat) : Nat := 2 ^ s.get (Fd.PCI_MQ_CFG.D2H_LOG2 q)

/-- Would HEAD be at most the ring's size ahead of TAIL? -/
def idxOk (head tail size : Nat) : Bool := (head + 2 ^ 16 - tail) % 2 ^ 16 ≤ size

/-- A write of `PCI_MQ_CFGq` (R17, R504). -/
def State.mqCfg (s : State) (q v : Nat) : State :=
  let g := bits v 6 1
  let h := bits v 11 8
  let d := bits v 15 12
  let src := bits v 27 16
  let hb := s.get (Fd.PCI_MQ_H2D_BASE.BASE q) * 64
  let db := s.get (Fd.PCI_MQ_D2H_BASE.BASE q) * 64
  let ring (b l : Nat) : Bool := b % (64 * 2 ^ l) == 0 && s.groveGddr g b (64 * 2 ^ l)
  if h < 4 || 12 < h || d < 4 || 12 < d then s
  else if bitOf v 0 && !(ring hb h && ring db d && inRange (s.grv g).cfg.irqFirst (s.grv g).cfg.irqCount src) then s
  else
    let s := ((s.set (Fd.PCI_MQ_CFG.EN q) (bits v 0 0)).set (Fd.PCI_MQ_CFG.GROVE q) g).set (Fd.PCI_MQ_CFG.H2D_LOG2 q) h
    (s.set (Fd.PCI_MQ_CFG.D2H_LOG2 q) d).set (Fd.PCI_MQ_CFG.SRC q) src

/-- A ring base: a change while EN is 1 is ignored. -/
def State.mqBase (s : State) (q : Nat) (f : Fld) (v : Nat) : State :=
  if s.on (Fd.PCI_MQ_CFG.EN q) && bits v 39 6 != s.get f then s else s.set f (bits v 39 6)

/-- The grove's write of H2D_TAIL. -/
def State.mqH2dTail (s : State) (q v : Nat) : State :=
  if idxOk (s.get (Fd.PCI_MQ_IDX.H2D_HEAD q)) v (s.h2dSize q) then s.set (Fd.PCI_MQ_IDX.H2D_TAIL q) v else s

/-- The grove's write of D2H_HEAD; an advance signals PF1 vector 2 + q. -/
def State.mqD2hHead (s : State) (q v : Nat) : State :=
  if !idxOk v (s.get (Fd.PCI_MQ_IDX.D2H_TAIL q)) (s.d2hSize q) || v == s.get (Fd.PCI_MQ_IDX.D2H_HEAD q) then s
  else (s.set (Fd.PCI_MQ_IDX.D2H_HEAD q) v).msix 1 (2 + q)

/-- Who writes the index fields of a queue: cores at E level, and those of its grove at S level. -/
def State.mayIndex (s : State) (r : Requester) (q : Nat) : Bool :=
  s.isE r || (s.isSE r && s.groveOfReq r == some (s.get (Fd.PCI_MQ_CFG.GROVE q)))

/-- A host write to a queue: discarded while it is not enabled. -/
def State.hostQueue (s : State) (q : Nat) (f : State → State) : State :=
  s.pf1 fun s => if s.on (Fd.PCI_MQ_CFG.EN q) then f s else s.hostDrop

/-- The host's write of H2D_HEAD: SRC is written as a hardware PULSE (R505). -/
def State.mqH2dHead (s : State) (q v : Nat) : State :=
  if !idxOk v (s.get (Fd.PCI_MQ_IDX.H2D_TAIL q)) (s.h2dSize q) || v == s.get (Fd.PCI_MQ_IDX.H2D_HEAD q) then s
  else (s.set (Fd.PCI_MQ_IDX.H2D_HEAD q) v).pulse (s.get (Fd.PCI_MQ_CFG.SRC q))

/-- The host's write of D2H_TAIL. -/
def State.mqD2hTail (s : State) (q v : Nat) : State :=
  if idxOk (s.get (Fd.PCI_MQ_IDX.D2H_HEAD q)) v (s.d2hSize q) then s.set (Fd.PCI_MQ_IDX.D2H_TAIL q) v else s

/-! ### Control -/

def State.pciCntClr (s : State) : State :=
  ((s.lower Fd.PCI_WDROP_CNT.COUNT).lower Fd.PCI_OB_DROP_CNT.COUNT).lower Fd.PCI_CPL_TO_CNT.COUNT

/-- A write of `PCI_CTL`. -/
def State.pciCtl (s : State) (v : Nat) : State :=
  let s := if bitOf v 0 then s.pciCntClr else s
  if bitOf v 1 then s.msix 0 2 else s

/-- A write by a core to the `PCI_` block, E level only (16.8). -/
def State.pciWrite (s : State) (r : Requester) (off n : Nat) (f : State → State) : State :=
  s.regWriteAt r off n fun s => if s.isE r then f s else s

end Sys2Proof.Machine
end

