-- ==== Sys2Proof/Machine/IrqRows.lean ====
section
/-! DEFINITION. The commands of the Interrupt Router (chapter 12), one meaning per row. A write reaches the router through the register
window (R27, R28); Heartwood stands for the hardware blocks of R406, whose doorbells do not pass the window. -/

namespace Sys2Proof.Machine

/-- A doorbell write with an OP (R406). -/
def State.doorbellWrite (s : State) (r : Requester) (src op : Nat) : State :=
  match r with
  | .core c => s.regWriteAt r Rg.IRQ_DOORBELL 4 fun s => s.doorbell (.core c.val) src op
  | .heartwood => s.doorbell .hw src op
  | .dma _ _ => s.regWriteAt r Rg.IRQ_DOORBELL 4 id
  | .host => s.regWriteAt r Rg.IRQ_DOORBELL 4 id

/-- `IRQ_CTL.CNT_CLR`, E level only (12.5). -/
def State.irqCntClr (s : State) (r : Requester) : State := if s.isE r then s.lower Fd.IRQ_DROP_CNT.COUNT else s

def execPulse (r : Requester) (src : SourceId) (s : State) : Host.Outcome State Fault Refusal :=
  done (s.doorbellWrite r src.val 0)

def execAssert (r : Requester) (src : SourceId) (s : State) : Host.Outcome State Fault Refusal :=
  done (s.doorbellWrite r src.val 1)

def execDeassert (r : Requester) (src : SourceId) (s : State) : Host.Outcome State Fault Refusal :=
  done (s.doorbellWrite r src.val 2)

def execIrqEnSet (r : Requester) (w : Fin 128) (v : Word32) (s : State) : Host.Outcome State Fault Refusal :=
  done (s.regWriteAt r (Rg.IRQ_EN_SET w.val) 4 fun s => s.bankWrite r .enSet w.val v.toNat)

def execIrqEnClr (r : Requester) (w : Fin 128) (v : Word32) (s : State) : Host.Outcome State Fault Refusal :=
  done (s.regWriteAt r (Rg.IRQ_EN_CLR w.val) 4 fun s => s.bankWrite r .enClr w.val v.toNat)

def execIrqPendSet (r : Requester) (w : Fin 128) (v : Word32) (s : State) : Host.Outcome State Fault Refusal :=
  done (s.regWriteAt r (Rg.IRQ_PEND_SET w.val) 4 fun s => s.bankWrite r .pendSet w.val v.toNat)

def execIrqPendClr (r : Requester) (w : Fin 128) (v : Word32) (s : State) : Host.Outcome State Fault Refusal :=
  done (s.regWriteAt r (Rg.IRQ_PEND_CLR w.val) 4 fun s => s.bankWrite r .pendClr w.val v.toNat)

/-- A read of `IRQ_CLAIM` by a core (R418). -/
def State.claimRead (s : State) (c : Nat) : State :=
  let (v, s) := s.claim c
  s.answer (.data (BitVec.ofNat 64 v))

/-- Claims go through the window like any read. -/
def execIrqClaim (c : CoreId) (s : State) : Host.Outcome State Fault Refusal :=
  done (if s.reaches (.core c) .read (winBase + Rg.IRQ_CLAIM) 4 then (s.fwUsed (.core c)).claimRead c.val
    else s.turnAway (.core c) .read (winBase + Rg.IRQ_CLAIM) 4)

def execIrqEoi (c : CoreId) (v : Word32) (s : State) : Host.Outcome State Fault Refusal :=
  done (s.regWriteAt (.core c) Rg.IRQ_EOI 4 fun s => s.eoi c.val (bits v.toNat 11 0))

def execCompatWrite (r : Requester) (g : GroveId) (v : Word32) (s : State) : Host.Outcome State Fault Refusal :=
  done (s.regWriteAt r (Rg.IRQ_GRV_CFG g.val) 4 fun s => s.compatWrite r g.val v.toNat)

def execIrqCntClr (r : Requester) (s : State) : Host.Outcome State Fault Refusal :=
  done (s.regWriteAt r Rg.IRQ_CTL 4 (·.irqCntClr r))

end Sys2Proof.Machine
end

