-- ==== Sys2Proof/Machine/LoopRows.lean ====
section
/-! DEFINITION. The blocks of the Loop Engine and its other commands (chapter 5), one meaning per row. -/

namespace Sys2Proof.Machine

/-- A lane's turn at a block of a code: the block, and the completion of its grove's compute when that was the last (R94). -/
def State.block (s : State) (l op : Nat) (f : BIn → BOut) : State :=
  let s := s.blockRun l op f
  match s.groveOfLane l with
  | some g => s.computeCheck g
  | none => s

/-- The grove of a call slot completes its compute when the call was its last work. -/
def State.slotCheck (s : State) (n : Nat) : State :=
  match s.loop.slots[n]? with
  | some c => s.computeCheck c.grove
  | none => s

def execPidIsa (l : LaneId) (s : State) : Host.Outcome State Fault Refusal :=
  done (s.block l.val 0x01 blkPidIsa)

def execPidPar (l : LaneId) (s : State) : Host.Outcome State Fault Refusal :=
  done (s.block l.val 0x02 blkPidPar)

def execPidVel (l : LaneId) (s : State) : Host.Outcome State Fault Refusal :=
  done (s.block l.val 0x03 blkPidVel)

def execPidExt (l : LaneId) (s : State) : Host.Outcome State Fault Refusal :=
  done (s.block l.val 0x04 blkPidExt)

def execPiGap (l : LaneId) (s : State) : Host.Outcome State Fault Refusal :=
  done (s.block l.val 0x05 blkPiGap)

def execOnoff (l : LaneId) (s : State) : Host.Outcome State Fault Refusal :=
  done (s.block l.val 0x06 blkOnoff)

def execLeadlag (l : LaneId) (s : State) : Host.Outcome State Fault Refusal :=
  done (s.block l.val 0x07 blkLeadlag)

def execLag1 (l : LaneId) (s : State) : Host.Outcome State Fault Refusal :=
  done (s.block l.val 0x08 blkLag1)

def execLag2 (l : LaneId) (s : State) : Host.Outcome State Fault Refusal :=
  done (s.block l.val 0x09 blkLag2)

def execDeadtime (l : LaneId) (s : State) : Host.Outcome State Fault Refusal :=
  done (s.block l.val 0x0A blkDeadtime)

def execMavg (l : LaneId) (s : State) : Host.Outcome State Fault Refusal :=
  done (s.block l.val 0x0B blkMavg)

def execDeriv (l : LaneId) (s : State) : Host.Outcome State Fault Refusal :=
  done (s.block l.val 0x0C blkDeriv)

def execInteg (l : LaneId) (s : State) : Host.Outcome State Fault Refusal :=
  done (s.block l.val 0x0D blkInteg)

def execTotal (l : LaneId) (s : State) : Host.Outcome State Fault Refusal :=
  done (s.block l.val 0x0E blkTotal)

def execRamp (l : LaneId) (s : State) : Host.Outcome State Fault Refusal :=
  done (s.block l.val 0x0F blkRamp)

def execRatelim (l : LaneId) (s : State) : Host.Outcome State Fault Refusal :=
  done (s.block l.val 0x10 blkRatelim)

def execLimit (l : LaneId) (s : State) : Host.Outcome State Fault Refusal :=
  done (s.block l.val 0x11 blkLimit)

def execChar (l : LaneId) (s : State) : Host.Outcome State Fault Refusal :=
  done (s.block l.val 0x12 blkChar)

def execLinear (l : LaneId) (s : State) : Host.Outcome State Fault Refusal :=
  done (s.block l.val 0x13 blkLinear)

def execSplit (l : LaneId) (s : State) : Host.Outcome State Fault Refusal :=
  done (s.block l.val 0x14 blkSplit)

def execSelhi (l : LaneId) (s : State) : Host.Outcome State Fault Refusal :=
  done (s.block l.val 0x15 blkSelhi)

def execSello (l : LaneId) (s : State) : Host.Outcome State Fault Refusal :=
  done (s.block l.val 0x16 blkSello)

def execSelmid (l : LaneId) (s : State) : Host.Outcome State Fault Refusal :=
  done (s.block l.val 0x17 blkSelmid)

def execSelsw (l : LaneId) (s : State) : Host.Outcome State Fault Refusal :=
  done (s.block l.val 0x18 blkSelsw)

def execSelavg (l : LaneId) (s : State) : Host.Outcome State Fault Refusal :=
  done (s.block l.val 0x19 blkSelavg)

def execAdd (l : LaneId) (s : State) : Host.Outcome State Fault Refusal :=
  done (s.block l.val 0x1A blkAdd)

def execMul (l : LaneId) (s : State) : Host.Outcome State Fault Refusal :=
  done (s.block l.val 0x1B blkMul)

def execDiv (l : LaneId) (s : State) : Host.Outcome State Fault Refusal :=
  done (s.block l.val 0x1C blkDiv)

def execSqrt (l : LaneId) (s : State) : Host.Outcome State Fault Refusal :=
  done (s.block l.val 0x1D blkSqrt)

def execAbs (l : LaneId) (s : State) : Host.Outcome State Fault Refusal :=
  done (s.block l.val 0x1E blkAbs)

def execAnd (l : LaneId) (s : State) : Host.Outcome State Fault Refusal :=
  done (s.block l.val 0x1F blkAnd)

def execOr (l : LaneId) (s : State) : Host.Outcome State Fault Refusal :=
  done (s.block l.val 0x20 blkOr)

def execXor (l : LaneId) (s : State) : Host.Outcome State Fault Refusal :=
  done (s.block l.val 0x21 blkXor)

def execNot (l : LaneId) (s : State) : Host.Outcome State Fault Refusal :=
  done (s.block l.val 0x22 blkNot)

def execCmp (l : LaneId) (s : State) : Host.Outcome State Fault Refusal :=
  done (s.block l.val 0x23 blkCmp)

def execSrff (l : LaneId) (s : State) : Host.Outcome State Fault Refusal :=
  done (s.block l.val 0x24 blkSrff)

def execEdge (l : LaneId) (s : State) : Host.Outcome State Fault Refusal :=
  done (s.block l.val 0x25 blkEdge)

def execTon (l : LaneId) (s : State) : Host.Outcome State Fault Refusal :=
  done (s.block l.val 0x26 blkTon)

def execTof (l : LaneId) (s : State) : Host.Outcome State Fault Refusal :=
  done (s.block l.val 0x27 blkTof)

def execTpulse (l : LaneId) (s : State) : Host.Outcome State Fault Refusal :=
  done (s.block l.val 0x28 blkTpulse)

def execCtu (l : LaneId) (s : State) : Host.Outcome State Fault Refusal :=
  done (s.block l.val 0x29 blkCtu)

def execMove (l : LaneId) (s : State) : Host.Outcome State Fault Refusal :=
  done (s.block l.val 0x2A blkMove)

def execSample (l : LaneId) (s : State) : Host.Outcome State Fault Refusal :=
  done (s.block l.val 0x2B blkSample)

def execMansta (l : LaneId) (s : State) : Host.Outcome State Fault Refusal :=
  done (s.block l.val 0x2C blkMansta)

def execRatio (l : LaneId) (s : State) : Host.Outcome State Fault Refusal :=
  done (s.block l.val 0x2D blkRatio)

def execCall (l : LaneId) (s : State) : Host.Outcome State Fault Refusal :=
  done (s.callBegin l.val)

def execPoly3 (l : LaneId) (s : State) : Host.Outcome State Fault Refusal :=
  done (s.block l.val 0x2F blkPoly3)

def execGascomp (l : LaneId) (s : State) : Host.Outcome State Fault Refusal :=
  done (s.block l.val 0x30 blkGascomp)

def execBarrierFlagSet (f : Fin 256) (s : State) : Host.Outcome State Fault Refusal :=
  done (s.setFlag f.val)

def execCallDone (r : Requester) (n : SlotId) (qclass : Fin 4) (s : State) : Host.Outcome State Fault Refusal :=
  done (s.regWriteAt r (Rg.LE_CALL_CTL n.val) 4 fun s => (s.callDone r n.val qclass.val).slotCheck n.val)

def execCallTimeout (n : SlotId) (s : State) : Host.Outcome State Fault Refusal :=
  done (s.callTimeout n.val)

def execCallRetWrite (r : Requester) (n : SlotId) (v : Word) (s : State) : Host.Outcome State Fault Refusal :=
  done (s.regWriteAt r (Rg.LE_CALL_RET n.val) 8 (·.callRet r n.val v.toNat))

def execLeTuningWrite (r : Requester) (addr : PAddr) (size : Nat) (v : Word) (s : State) : Host.Outcome State Fault Refusal :=
  -- a requester held at a full buffer gets no answer yet and presents the write again (R182)
  done (if !(leBase ≤ addr.toNat && addr.toNat + size ≤ leEnd) || (s.reaches r .write addr.toNat size && s.leHeld r addr.toNat size) then s
    else s.writeAt r addr.toNat size fun s => s.leWrite r addr.toNat size (v.toNat % 2 ^ (8 * size)))

def execLeCntClr (r : Requester) (s : State) : Host.Outcome State Fault Refusal :=
  done (s.regWriteAt r Rg.LE_CTL 4 (·.leCntClr))

end Sys2Proof.Machine
end

