-- ==== Sys2Proof/Machine/Metrology.lean ====
section
/-! DEFINITION. The metrology enclave (chapter 15): energy, publication, the log, calibration, the main-side window and commands. On
the SJ-960-NX nothing of it exists (R3). -/

namespace Sys2Proof.Machine

def State.modMet (s : State) (f : MetSt → MetSt) : State := { s with met := f s.met }

/-- Does the enclave run? -/
def State.metRuns (s : State) : Bool := s.mx && s.met.running

/-- The enclave clock (R468). -/
def State.metClock (s : State) : Nat := ((s.now : Int) + s.met.clockOfs).toNat

/-- Are the registers accumulating? -/
def MetSt.metering (x : MetSt) : Bool := x.running && !x.checkErr

/-! ### The log (R480) -/

/-- An entry, written before the action it records; EVCNT is the event counter after the action. -/
def State.metLog (s : State) (evcnt code arg data : Nat) : State :=
  let e := leBytes 4 s.met.logNext ++ leBytes 4 evcnt ++ leBytes 8 s.metClock ++ leBytes 2 code ++ leBytes 2 0 ++ leBytes 4 arg ++ leBytes 8 data
  s.modMet fun x => { x with log := (e :: x.log).take 1024, logNext := (x.logNext + 1) % 2 ^ 32 }

/-- The event counter (R479). -/
def MetSt.events (x : MetSt) : Nat := x.slots.length

/-- `n` entries from a SEQ, or from the oldest kept. -/
def MetSt.entries (x : MetSt) (seq n : Nat) : List (List Byte) := (x.log.reverse.filter fun e => seq ≤ fieldB e 0 4).take n

/-! ### Parameters (R482-R484) -/

def MetSt.param (x : MetSt) (i : Nat) : Nat := mapGet 0 x.params i

/-- A binary32 as a count of 2^-k. -/
def fixedOf (k v : Nat) : Int :=
  match fVal f32 v with
  | .fin neg m e =>
    let x : Int := if 0 ≤ e + (k : Int) then (m * 2 ^ (e + (k : Int)).toNat : Nat) else (m / 2 ^ (-(e + (k : Int))).toNat : Nat)
    if neg then -x else x
  | _ => 0

/-- The range of a parameter as binary32 bounds; none for a reserved ID (R482). -/
def paramRange (i : Nat) : Option (Nat × Nat) :=
  if inRange 0 12 i || inRange 0x20 12 i then some (0x3F000000, 0x40000000)
  else if inRange 0x40 12 i then some (0xC0A00000, 0x40A00000)
  else if inRange 0x60 4 i then some (0x3F800000, fOfNat f32 10000)
  else if inRange 0x80 4 i then some (0x3F800000, fOfNat f32 100000)
  else if inRange 0xA0 8 i then some (fOfRatio f32 1 1000000, fOfNat f32 1000000)
  else none

/-- The CRC of a parameter set; the layout of the set in the flash is not stated (log 29). -/
def paramCrc (t : Table Nat) : Nat := leNat (cryptoN 10 4 (t.flatMap fun e => leBytes 1 e.1 ++ leBytes 4 e.2))

/-! ### Energy (R473) -/

/-- The energy of an interval in units of 2^-32 mWh, from the raw sums of the phases: gains, VT and CT applied exactly, the result
rounded as the spec leaves open (log 12). -/
def MetSt.energyOf (x : MetSt) (f : Nat) (sums : List Int) (primary : Bool) : Int :=
  let p (i : Nat) (k : Nat) : Int := fixedOf k (mapGet 0 x.active i)
  let term (φ : Nat) : Int := (sums[φ]?).getD 0 * p (3 * f + φ) 24 * p (0x20 + 3 * f + φ) 24
  let sec := term 0 + term 1 + term 2
  if primary then quotFree (sec * p (0x60 + f) 23 * p (0x80 + f) 23) (2 ^ 94) else quotFree sec (2 ^ 48)

/-- A signed energy goes to a register: whole units are added, the fraction stays as its residue. -/
def MetAcc.add (a : MetAcc) (k : Nat) (e : Nat) : MetAcc :=
  let sum := mapGet 0 a.residue k + e
  { a with energy := mapSet 0 a.energy k (mapGet 0 a.energy k + sum / 2 ^ 32), residue := mapSet 0 a.residue k (sum % 2 ^ 32) }

/-- Quadrant of the signs (R473), 0 for Q1. -/
def quadrant (p q : Int) : Nat :=
  if 0 ≤ p then (if 0 ≤ q then 0 else 3) else (if 0 ≤ q then 1 else 2)

/-- Mean power over a 10 ms interval from its energy, as binary32: 1 mWh in 10 ms is 360 W. -/
def meanPower (e : Int) : Nat :=
  let m := fOfRatio f32 (e.natAbs * 360) (2 ^ 32)
  if e < 0 then fNegate f32 m else m

/-- A feeder at the end of an integration interval. -/
def MetSt.feederEnd (x : MetSt) (f : Nat) (d : FeederInterval) : MetSt :=
  let p := x.energyOf f d.act true
  let q := x.energyOf f d.react true
  let ps := x.energyOf f d.act false
  let vt := mapGet 0 x.active (0x60 + f)
  let ct := mapGet 0 x.active (0x80 + f)
  let u (φ : Nat) : Nat := ((d.u[φ]?).getD 0).toNat
  let i (φ : Nat) : Nat := ((d.i[φ]?).getD 0).toNat
  let inst := [meanPower p, meanPower q, fMul f32 (u 0) vt, fMul f32 (u 1) vt, fMul f32 (u 2) vt,
    fMul f32 (i 0) ct, fMul f32 (i 1) ct, fMul f32 (i 2) ct, d.freq.toNat, d.pf.toNat]
  let second := [u 0, u 1, u 2, i 0, i 1, i 2, meanPower ps]
  let put (t : Table Nat) (base : Nat) (l : List Nat) : Table Nat := ((List.range l.length).zip l).foldl (fun t e => mapSet 0 t (base + e.1) e.2) t
  let x := { x with inst := put x.inst (10 * f) inst, second := put x.second (7 * f) second, overs := mapSet 0 x.overs f (d.overs % 64) }
  if !x.metering || bits x.faults (6 * f + 5) (6 * f) != 0 then x
  else
    let k := if 0 ≤ p then 4 * f + x.useTariff else 16 + 4 * f + x.useTariff
    { x with acc := (x.acc.add k p.natAbs).add (32 + 4 * f + quadrant p q) q.natAbs }

/-- INTEGRATION_INTERVAL_END: the four feeders; the set last committed and the tariff last set are used from the next interval (R484,
R487). -/
def State.intervalEnd (s : State) (fs : List FeederInterval) : State :=
  if !s.metRuns then s
  else s.modMet fun x =>
    let x := ((List.range 4).zip fs).foldl (fun x e => x.feederEnd e.1 e.2) x
    { x with active := x.params, useTariff := x.acc.tariff }

/-- PULSE_EDGE (R474). -/
def State.pulseEdge (s : State) (p : Nat) : State :=
  if !s.metRuns || !s.met.metering then s
  else s.modMet fun x => { x with
    acc := { x.acc with pulses := mapSet 0 x.acc.pulses p (mapGet 0 x.acc.pulses p + 1) }
    gateCnt := mapSet 0 x.gateCnt p (mapGet 0 x.gateCnt p + 1) }

/-! ### Publication (R475, R476) -/

/-- The value sent for a channel; none for a reserved one. -/
def MetSt.channel (x : MetSt) (c : Nat) : Option Nat :=
  let f := c / 32
  let t := c % 32
  if c < 128 then
    if t < 4 then some (fOfRatio f64 (mapGet 0 x.acc.energy (4 * f + t)) 1000)
    else if t < 8 then some (fOfRatio f64 (mapGet 0 x.acc.energy (16 + 4 * f + t - 4)) 1000)
    else if t < 12 then some (fOfRatio f64 (mapGet 0 x.acc.energy (32 + 4 * f + t - 8)) 1000)
    else if t < 22 then some (mapGet 0 x.inst (10 * f + t - 12))
    else none
  else if c < 144 then
    let p := (c - 128) / 2
    if c % 2 == 0 then some (mapGet 0 x.acc.pulses p)
    else some (fMul f32 (mapGet 0 x.active (0xA0 + p)) (fOfNat f32 (mapGet 0 x.pfreq p)))
  else if c == 144 then some x.acc.tariff
  else if c == 145 then some x.events
  else none

/-- The converter inputs of a feeder channel, as a mask of its six. -/
def chanInputs (t : Nat) : Nat :=
  if 14 ≤ t && t < 17 then 2 ^ (t - 14) else if 17 ≤ t && t < 20 then 2 ^ (t - 14) else if t == 20 then 7 else 63

/-- The quality code that follows a channel's value; none when it is good. -/
def MetSt.chanQual (x : MetSt) (c : Nat) : Option Nat :=
  let f := c / 32
  if x.checkErr then some 0x0C
  else if 128 ≤ c then none
  else if bits x.faults (6 * f + 5) (6 * f) != 0 then some 0x0C
  else if mapGet 0 x.overs f &&& chanInputs (c % 32) != 0 then some 0x15
  else none

/-- The channels in ascending order as Gather writes to the tags bound to them; a channel that no tag names is discarded. -/
def State.publish (s : State) : State :=
  let tags := s.usedTags.filter fun t => (s.tag t).wKind == 5
  s.each (List.range 146) fun s c =>
    match s.met.channel c, tags.find? fun t => (s.tag t).wIndex == c with
    | some v, some t =>
      let w := GatherWriter.enclave (Fin.ofNat _ c)
      let s := s.gather w t (.value (BitVec.ofNat 64 v) (BitVec.ofNat 64 s.now) 0x02)
      match s.met.chanQual c with
      | some q => s.gather w t (.quality (BitVec.ofNat 8 q))
      | none => s
    | _, _ => s

/-! ### Commands of the main side (R487) -/

/-- Magnitudes accepted in the preceding 86,400 s. -/
def State.adjusted (s : State) : Nat :=
  ((s.met.adjusts.filter fun a => s.metClock < a.1 + 86400000000000).map (·.2)).foldl (· + ·) 0

/-- TIME_SET. -/
def State.timeSet (s : State) (arg : Nat) : Nat × State :=
  let a := sext 32 arg
  let stepClock (s : State) : State := s.modMet fun x => { x with clockOfs := x.clockOfs + a * 1000000 }
  if !s.met.clockValid then
    let s := s.metLog s.met.events 0x11 arg s.metClock
    (0, (stepClock s).modMet fun x => { x with clockValid := true })
  else if a.natAbs == 0 || 5000 < a.natAbs then (2, s)
  else if 5000 < s.adjusted + a.natAbs then (3, s)
  else
    let s := stepClock (s.metLog s.met.events 0x10 arg s.metClock)
    (0, s.modMet fun x => { x with adjusts := (s.metClock, a.natAbs) :: x.adjusts })

/-- The effect of a command at its boundary: RESULT, and the state after it. -/
def State.metServe (s : State) (c : MetCmd) : Nat × State :=
  if c.op == 0 || 5 ≤ c.op then (1, s)
  else if s.met.sealed then (4, s)
  else match c.op with
  | 1 =>
    if c.arg != 0 then (2, s)
    else (0, s.modMet fun x => { x with snap := x.acc.energy, snapSeq := (x.snapSeq + 1) % 2 ^ 32, snapTime := s.metClock })
  | 2 => (0, s.modMet fun x => { x with logOut := x.entries c.arg 16 })
  | 3 => s.timeSet c.arg
  | _ =>
    if 3 < c.arg then (2, s)
    else if c.arg == s.met.acc.tariff then (0, s)
    else
      let s := s.metLog s.met.events 0x12 (s.met.acc.tariff + 256 * c.arg) 0
      (0, s.modMet fun x => { x with acc := { x.acc with tariff := c.arg } })

/-- The command that awaits this boundary is served. -/
def State.metCommand (s : State) : State :=
  match s.met.cmd with
  | none => s
  | some c =>
    let (r, s) := s.metServe c
    s.modMet fun x => { x with cmd := none, lastCmd := c, lastResult := r }

/-- A write of `MET_CMD` (R485): a core at E level, while no command waits. -/
def State.metWrite (s : State) (r : Requester) (op tag arg : Nat) : State :=
  if !s.mx || !s.isE r || s.on Fd.MET_CMD_STAT.BUSY then s
  else (s.raise Fd.MET_CMD_STAT.BUSY).modMet fun x => { x with cmd := some { op := op, tag := tag, arg := arg } }

/-! ### The read window (R485, R486) -/

/-- The registers of a feeder. -/
def State.showFeeder (s : State) (f : Nat) : State :=
  let x := s.met
  let s := s.each (List.range 4) fun s t =>
    let s := s.setReg (Rg.MET_IMP f t) (mapGet 0 x.acc.energy (4 * f + t))
    let s := s.setReg (Rg.MET_EXP f t) (mapGet 0 x.acc.energy (16 + 4 * f + t))
    let s := s.setReg (Rg.MET_VAR f t) (mapGet 0 x.acc.energy (32 + 4 * f + t))
    let s := s.setReg (Rg.MET_SNAP f t) (mapGet 0 x.snap (4 * f + t))
    let s := s.setReg (Rg.MET_SNAP f (4 + t)) (mapGet 0 x.snap (16 + 4 * f + t))
    s.setReg (Rg.MET_SNAP f (8 + t)) (mapGet 0 x.snap (32 + 4 * f + t))
  s.each (List.range 10) fun s j => s.setReg (Rg.MET_INST f j) (mapGet 0 x.inst (10 * f + j))

/-- Every field of the window. -/
def State.metWindow (s : State) : State :=
  let s := s.modMet fun x => { x with seq := (x.seq + 2) % 2 ^ 32 }
  let x := s.met
  let s := (s.set Fd.MET_STAT.METERING (b2n x.metering)).set Fd.MET_STAT.CLOCK_VALID (b2n x.clockValid)
  let s := ((s.set Fd.MET_STAT.SEALED (b2n x.sealed)).set Fd.MET_STAT.CAL_EXHAUSTED (b2n (32 ≤ x.events))).set Fd.MET_STAT.CHECKSUM_ERR (b2n x.checkErr)
  let s := ((s.set Fd.MET_STAT.ADC_FAULT (b2n (x.faults != 0))).set Fd.MET_STAT.TARIFF x.acc.tariff).set Fd.MET_STAT.CAL_USED x.events
  let s := ((s.set Fd.MET_STAT.BACKUP (b2n x.backup)).set Fd.MET_SWID.CHECKSUM x.checksum).set Fd.MET_SWID.VERSION x.version
  let s := ((s.setReg Rg.MET_TIME s.metClock).setReg Rg.MET_SEQ x.seq).set Fd.MET_EVENT_CNT.COUNT x.events
  let s := ((s.setReg Rg.MET_LOG_NEXT x.logNext).set Fd.MET_CMD_STAT.BUSY (b2n x.cmd.isSome)).set Fd.MET_CMD_STAT.OP x.lastCmd.op
  let s := ((s.set Fd.MET_CMD_STAT.RESULT x.lastResult).set Fd.MET_CMD_STAT.TAG x.lastCmd.tag).set Fd.MET_TADJ.USED_MS s.adjusted
  let s := (s.setReg Rg.MET_SNAP_SEQ x.snapSeq).setReg Rg.MET_SNAP_TIME x.snapTime
  let s := s.each (List.range 4) fun s f => s.showFeeder f
  let s := s.each (List.range 8) fun s p =>
    (s.setReg (Rg.MET_PCNT p) (mapGet 0 x.acc.pulses p)).setReg (Rg.MET_PFREQ p) (fOfNat f32 (mapGet 0 x.pfreq p))
  s.each (List.range 16) fun s k =>
    s.each (List.range 4) fun s j => s.setReg (Rg.MET_LOG k j) (fieldB ((x.logOut[k]?).getD []) (8 * j) 8)

/-! ### The publication boundary (R466, R467, R474, R475, R487) -/

/-- A store to MRAM (R467). -/
def State.metStore (s : State) : State := s.modMet fun x => { x with stored := x.acc, storedAt := s.metClock }

/-- The 1 s gate of the pulse frequencies; gates follow each other, 100 boundaries each (log 30). -/
def MetSt.gateTick (x : MetSt) : MetSt :=
  if x.gateN + 1 < 100 then { x with gateN := x.gateN + 1 } else { x with gateN := 0, gateCnt := [], pfreq := x.gateCnt }

/-- Every 10 ms: store, publish, serve one command, update the window. -/
def State.boundary (s : State) : State :=
  if !s.metRuns then s
  else
    let s := (s.modMet (·.gateTick)).metStore
    let s := if s.on Fd.CFG_STAT.DONE then s.publish else s
    let s := s.metCommand
    if s.inReset then s else s.metWindow

/-! ### Power, reset and self-checks (R466-R468, R478, R484, R488) -/

/-- The power-fail line asserts (R467): the warning has come, also when a cold reset has ended its sequence (R517). -/
def State.metPowerFail (s : State) : State :=
  if !s.metRuns || s.met.pfStored || !(s.sec.pfHeld || s.power.disarmed) then s
  else
    let s := (s.metStore).modMet fun x => { x with pfStored := true }
    s.metLog s.met.events 0x02 0 (mapGet 0 s.met.stored.energy 0)

def State.metRecovered (s : State) : State :=
  if !s.metRuns || !s.met.pfStored then s else (s.metLog s.met.events 0x03 0 0).modMet fun x => { x with pfStored := false }

/-- The checksum is computed over the code area and compared (R478). -/
def State.metCheck (s : State) (crc : Nat) : State :=
  let s := s.modMet fun x => { x with checksum := crc }
  if crc == s.met.expected then s
  else (s.metLog s.met.events 0x30 crc s.met.expected).modMet fun x => { x with checkErr := true }

/-- The parameter set in use after a reset: the copy whose CRC matches the highest consumed slot (R484); before any is consumed, the
set of manufacture. -/
def MetSt.pickParams (x : MetSt) : MetSt :=
  let use (b : Bool) : MetSt :=
    let t := if b then x.copyB else x.copyA
    { x with useB := b, params := t, active := t }
  match x.slots.getLast? with
  | none => use false
  | some (_, crc) =>
    if paramCrc x.copyA == crc then use false
    else if paramCrc x.copyB == crc then use true
    else { x with checkErr := true }

/-- The enclave core starts: the last complete store is restored; without a valid backup the clock resumes from its stored value
(R467, R468). -/
def State.metStart (s : State) (watchdog : Bool) (crc : Nat) : State :=
  let s := s.modMet fun x => { x with
    running := true, acc := x.stored, useTariff := x.stored.tariff, checkErr := false, pfStored := false, inst := [], second := [], overs := []
    gateN := 0, gateCnt := [], pfreq := [], pendSet := none, written := 0, cmd := none
    lastCmd := { op := 0, tag := 0, arg := 0 }, lastResult := 0, snapSeq := 0, snapTime := 0, snap := [], logOut := []
    clockOfs := if x.backup || watchdog then x.clockOfs else (x.storedAt : Int) - s.now
    clockValid := x.clockValid && (x.backup || watchdog) }
  let s := s.metLog s.met.events 0x01 (b2n watchdog) s.met.storedAt
  let s := (s.modMet (·.pickParams)).metCheck crc
  s.modMet fun x => if x.sealed then { x with pendSet := some x.params } else x

def State.converterStart (s : State) (crc : Nat) : State := if !s.mx || s.met.running || !(s.power.feedA || s.power.feedB) then s else s.metStart false crc

def State.metWatchdog (s : State) (crc : Nat) : State := if s.metRuns then s.metStart true crc else s

/-- The check every 24 h (R478). -/
def State.metDaily (s : State) (crc : Nat) : State := if s.metRuns then s.metCheck crc else s

/-- A converter channel is at fault, or works again (card "Converter fault"). -/
def State.converterFault (s : State) (c : Nat) (bad : Bool) : State :=
  if !s.metRuns || bitOf s.met.faults c == bad then s
  else (s.metLog s.met.events (if bad then 0x31 else 0x32) (2 ^ c) 0).modMet fun x => { x with faults := setBits x.faults c c (b2n bad) }

/-! ### Calibration (R481-R484) -/

/-- The seal goes low: a session opens, with a copy of the committed set. -/
def State.sealOn (s : State) : State :=
  if !s.mx || s.met.sealed then s
  else
    let s := if s.met.running then s.metLog s.met.events 0x20 0 0 else s
    s.modMet fun x => { x with sealed := true, pendSet := if x.running then some x.params else none, written := 0 }

/-- The pending set is discarded; event 0x23 when a value had been written. -/
def State.dropPending (s : State) : State :=
  let s := if s.met.written == 0 then s else s.metLog s.met.events 0x23 s.met.written 0
  s.modMet fun x => { x with pendSet := if x.sealed then some x.params else none, written := 0 }

/-- The seal goes high: the session ends. -/
def State.sealOff (s : State) : State :=
  if !s.mx || !s.met.sealed then s
  else if !s.met.running then s.modMet fun x => { x with sealed := false, pendSet := none, written := 0 }
  else ((s.metLog s.met.events 0x21 0 0).modMet fun x => { x with sealed := false }).dropPending

/-- A response on the calibration port: STATUS and the bytes after it. -/
def State.calReply (s : State) (cmd status : Nat) (body : List Byte) : State :=
  let p := leBytes 1 (2 + body.length) ++ leBytes 1 cmd ++ leBytes 1 status ++ body
  s.modMet fun x => { x with calOut := some (leBytes 1 0x7E ++ p ++ leBytes 4 (crc32c p)) }

/-- The serial number (16 bytes). -/
def State.serial (s : State) : List Byte := leBytes 8 (s.reg Rg.HWD_SERIAL_LO) ++ leBytes 8 (s.reg Rg.HWD_SERIAL_HI)

def State.calIdent (s : State) : State :=
  if !s.metRuns then s
  else s.calReply 1 0 (leBytes 2 s.met.version ++ leBytes 4 s.met.checksum ++ leBytes 1 s.met.events ++ s.serial)

def State.calRead (s : State) (i : Nat) : State :=
  if !s.metRuns then s
  else if (paramRange i).isNone then s.calReply 2 2 []
  else s.calReply 2 0 (leBytes 4 (s.met.param i))

def State.calWrite (s : State) (i v : Nat) : State :=
  if !s.metRuns then s
  else if !s.met.sealed then s.calReply 3 1 []
  else match paramRange i with
    | none => s.calReply 3 2 []
    | some (lo, hi) =>
      if !(fLe f32 lo v && fLe f32 v hi) then s.calReply 3 2 []
      else (s.modMet fun x => { x with pendSet := some (mapSet 0 (x.pendSet.getD x.params) i v), written := x.written + 1 }).calReply 3 0 []

/-- COMMIT, in the order of R484. -/
def State.calCommit (s : State) : State :=
  if !s.metRuns then s
  else if !s.met.sealed then s.calReply 4 1 []
  else if 32 ≤ s.met.events then (s.metLog s.met.events 0x24 0 0).calReply 4 3 []
  else
    let t := s.met.pendSet.getD s.met.params
    let k := s.met.events
    let s := s.modMet fun x => if x.useB then { x with copyA := t, useB := false } else { x with copyB := t, useB := true }
    let s := s.metLog (k + 1) 0x22 k (paramCrc t)
    let s := s.modMet fun x => { x with slots := x.slots ++ [(s.metClock, paramCrc t)], params := t, pendSet := some t, written := 0 }
    s.calReply 4 0 (leBytes 1 k)

def State.calAbort (s : State) : State :=
  if !s.metRuns then s
  else if !s.met.sealed then s.calReply 5 1 []
  else s.dropPending.calReply 5 0 []

def State.calLogRead (s : State) (seq : Nat) : State :=
  if !s.metRuns then s else s.calReply 6 0 (s.met.entries seq 4).flatten

def State.calMeasure (s : State) (f : Nat) : State :=
  if !s.metRuns then s
  else if 4 ≤ f then s.calReply 7 2 []
  else s.calReply 7 0 ((List.range 7).flatMap fun j => leBytes 4 (mapGet 0 s.met.second (7 * f + j)))

end Sys2Proof.Machine
end

