-- ==== Sys2Proof/Machine/Power.lean ====
section
/-! DEFINITION. Supply, the power-fail sequence, resets by pin and register, retention, temperature and the time outputs (chapters 17
and 18). -/

namespace Sys2Proof.Machine

/-! ### Supply (R510, R511) -/

/-- Fields held in MRAM or OTP: they survive the loss of the supply (R15, R43, log 26). -/
def nvFields : List Fld :=
  [Fd.FP_MAC_BASE.MAC, Fd.HWD_STAT.LC, Fd.HWD_STAT.KEY_PENDING, Fd.HWD_STAT.IMAGE_KEY,
   Fd.HWD_CNT.OWNER_INSTALLS, Fd.HWD_CNT.SERVICE_ENTRIES, Fd.HWD_CNT.KEY_INDEX, Fd.HWD_CNT.PENDING_INDEX,
   Fd.HWD_SERIAL_LO.SERIAL, Fd.HWD_SERIAL_HI.SERIAL, Fd.HWD_AUDIT_SEQ.SEQ, Fd.HWD_TAMPER.SEEN, Fd.HWD_TAMPER_CNT.COUNT,
   Fd.HWD_MEM_STAT.SPARED, Fd.HWD_MEM_STAT.SPARED_DEV, Fd.CFG_ARB.COUNTER, Fd.PWR_SPRINT.DISABLED, Fd.PWR_LEDGER_SPRINT.MS, Fd.PWR_LEDGER_POWERED.MS]

/-- VIN rises through 35 V: the always-on domain starts and resets the flash (R534); its clock starts at a free value (log 5). -/
def State.lockoutRelease (s : State) (a b : Bool) : State :=
  if s.alwaysOn then s
  else
    let s := (s.setPhase .rising).modSec fun x => { x with hwClock := (s.free.toNat : Int) - s.now }
    let s := (s.drawn.set Fd.PWR_RST_CAUSE.KIND kindPowerOn).set Fd.PWR_RST_CAUSE.SRC srcPowerUp
    let s := { s with pins := { s.pins with xspiReset := some s.now } }
    (s.modPower fun p => { p with feedA := a, feedB := b, disarmed := false }).showFacts

/-- VIN falls below 33 V: every domain stops; what is left is the flash, MRAM and OTP. -/
def State.lockout (s : State) : State :=
  if !s.alwaysOn then s
  else
    let s := s.stagingCut.sprintCut
    let s := (s.resetRegisters nvFields).resetUnits
    { s with
      mem := [], start := {}, pins := {}
      power := { clkAdj := s.power.clkAdj }
      met := { s.met with running := false, pfStored := false, cmd := none }
      sec := { s.sec with queue := [], boxes := [], active := 0, absentAt := [], pfHeld := false, fwWriting := none, tapInstr := 0x01, hwClock := 0 } }

/-- A feed rises through, or falls below, 35 V (card "Feed lost"). -/
def State.feed (s : State) (b good : Bool) : State :=
  if !s.alwaysOn || (if b then s.power.feedB else s.power.feedA) == good then s
  else
    let s := s.modPower fun p => if b then { p with feedB := good, disarmed := p.disarmed && !good } else { p with
      feedA := good, disarmed := p.disarmed && !good }
    (s.showFacts.raise Fd.PWR_STAT.FEED_CHG).pulse (s.get Fd.PWR_IRQ_SRC.FEED_SRC)

/-- The hold-up store is not at 68 V (card "Hold-up store not charged"). -/
def State.holdLow (s : State) : State :=
  if !s.alwaysOn then s
  else (s.modPower fun p => { p with holdOk := false, holdFault := true }).showFacts.pulse (s.get Fd.PWR_IRQ_SRC.FEED_SRC)

def State.holdCharged (s : State) : State :=
  if !s.alwaysOn then s else (s.modPower fun p => { p with holdOk := true, holdFault := false }).showFacts

/-! ### The power-fail sequence (R512, R513) -/

/-- Does the command at a mailbox need a flash or OTP write? -/
def State.mbxWrites (s : State) (m : Nat) : Bool :=
  let code := s.get (Fd.HWD_MBX_CMD.CODE m)
  [0x10, 0x11, 0x21, 0x22].contains code || (code == 0x20 && bits (s.reg (Rg.HWD_MBX_DATA m 0)) 7 0 == 4)

/-- The warning at w: PFW, no new mailbox or grove command, flash and OTP commands aborted, the frames stop; a start that is not
complete is abandoned (R67). Both feeds are below 35 V then; the next warning waits until one has risen above it again (R510). -/
def State.powerFailWarning (s : State) : State :=
  if !s.alwaysOn || s.sec.pfHeld || s.power.disarmed then s
  else
    let s := ((s.feed false false).feed true false).modPower fun p => { p with disarmed := true }
    let s := ((s.raise Fd.PWR_STAT.PFW).modPower fun p => { p with warnedAt := s.now }).modSec fun x => { x with pfHeld := true }
    let s := s.each (s.sec.queue.filter s.mbxWrites) fun s m =>
      (if s.get (Fd.HWD_MBX_CMD.CODE m) == 0x10 then s.stagingCut.lower Fd.CFG_STAGE.BUSY else s).mbxEnd m 0x0A 0 0
    if s.inReset then s.modPower fun p => { p with rstHeld := addOnce p.rstHeld srcPowerFail }
    else if s.phase != .done then s.setPhase .abandoned
    else s.framesStop

/-- w + 4.5 ms: the main side enters cold reset, also from a warm reset that came meanwhile: nothing but a cold reset ends the sequence
(R512, R517). -/
def State.powerFailReset (s : State) : State :=
  if !s.sec.pfHeld then s
  else
    let s := (s.atTime (s.power.warnedAt + 4500000)).enterReset kindCold srcPowerFail 1
    (s.lower Fd.PWR_STAT.PFW).modSec fun x => { x with pfHeld := false }

/-- The power-fail release at the ports, 100 µs after the warning. -/
def State.powerFailPorts (s : State) : State :=
  if !s.on Fd.PWR_STAT.PFW || s.phase != .done then s
  else (s.atTime (s.power.warnedAt + 100000)).each (List.range 72) fun s p => s.powerFailRelease p

/-! ### Resets by pin and register (R515-R517, R531) -/

/-- `RST_N` has been low for 10 µs; it ends a power-fail sequence at once. -/
def State.coldReset (s : State) : State :=
  let s := s.enterReset kindCold srcRstN 1
  if s.alwaysOn then (s.lower Fd.PWR_STAT.PFW).modSec fun x => { x with pfHeld := false } else s

/-- May a requester write the power and thermal blocks (17.8, 17.9)? -/
def State.mayPower (s : State) (r : Requester) : Bool :=
  match r with
  | .heartwood => true
  | _ => s.isE r

/-- A write of `PWR_CTL`: WARM_RST 1 with KEY 0xA5; any other KEY is reserved (R17). -/
def State.pwrCtl (s : State) (r : Requester) (warm key : Nat) : State :=
  if s.mayPower r && warm == 1 && key == 0xA5 then s.enterReset kindWarm srcPwrCtl 1 else s

/-! ### Retention (R376, R518) -/

/-- Do the real-time tasks of a RUNNING grove use a Frame SRAM bank of its memory? -/
def State.bankInUse (s : State) (i : Nat) : Bool :=
  s.runningGroves.any fun g =>
    s.frame.tasks.any (·.grove == g) && (s.grv g).cfg.memory.any fun r => overlaps r.1 (r.2 - r.1) (sramBase + (36 + i) * 0x8_0000) 0x8_0000

/-- A write of `PWR_RET`; one that names a bank in such use is ignored whole (R17, log 28). -/
def State.retention (s : State) (r : Requester) (v : Nat) : State :=
  if !s.mayPower r || (bitsSet 28 v).any s.bankInUse then s else s.set Fd.PWR_RET.BANKS v

/-! ### Sprint and ledgers (R519-R521) -/

def State.sprintRequest (s : State) (r : Requester) (on : Bool) : State :=
  if s.mayPower r then s.set Fd.PWR_SPRINT.REQ (b2n on) else s

/-- The 30 s limit: no later tick lies within it, so the sprint ends at the tick of the frame in progress (R520). -/
def State.sprintLimit (s : State) : State :=
  match s.power.sprintSince with
  | some t0 => if !s.frameRunning || t0 + 30000000000 < s.tickTime + s.period then s.sprintEnd t0 else s
  | none => s

/-- 60 s of powered time (R521). -/
def State.poweredMinute (s : State) : State :=
  if s.alwaysOn then s.set Fd.PWR_LEDGER_POWERED.MS (s.get Fd.PWR_LEDGER_POWERED.MS + 60000) else s

/-! ### Temperature (R522) -/

/-- A reading of sensor k, in units of 1/16 °C. -/
def State.thermalReading (s : State) (k v : Nat) : State :=
  let s := (s.set (Fd.THM_TEMP.T k) v).raise (Fd.THM_TEMP.VALID k)
  if sext 16 (s.get (Fd.THM_MAX.T k)) < sext 16 v then s.set (Fd.THM_MAX.T k) v else s

/-- Set a status bit; true when it changes from 0 to 1. -/
def State.thermalFlag (s : State) (c : Bool) (f : Fld) : Bool := c && !s.on f

/-- The nine sensors and their thresholds. -/
def State.thermalSample (s : State) (t : List Half) : State :=
  if s.inReset then s
  else
    let s := s.each (indexed (t.take 9)) fun s e => s.thermalReading e.1 e.2.toNat
    let junction (lim : Int) : Bool := (List.range 8).any fun k => match s.temp k with
      | some v => decide (lim < v)
      | none => false
    let warn := s.junctionHot
    let hot := junction (105 * 16)
    let case := match s.temp 8 with
      | some v => decide (95 * 16 < v)
      | none => false
    let ring := s.thermalFlag warn Fd.THM_STAT.WARN || s.thermalFlag hot Fd.THM_STAT.OVER || s.thermalFlag case Fd.THM_STAT.CASE_HIGH
    let s := ((s.setIf warn Fd.THM_STAT.WARN 1).setIf hot Fd.THM_STAT.OVER 1).setIf case Fd.THM_STAT.CASE_HIGH 1
    let s := s.iff (warn && s.power.sprintSince.isSome) fun s => s.modPower fun p => { p with sprintHot := true }
    if ring && s.on Fd.THM_CFG.IRQ_EN then s.pulse (s.get Fd.THM_CFG.IRQ_SRC) else s

def State.maxClr (s : State) (r : Requester) : State :=
  if s.mayPower r then s.each (List.range 9) fun s k => s.set (Fd.THM_MAX.T k) 0x8000 else s

/-! ### Lands (R532, R534, R535) -/

/-- `PPS_OUT` rises at the next whole second. -/
def State.ppsOut (s : State) : State :=
  if s.inReset || !s.on Fd.TIME_STAT.ACQUIRED then s
  else
    let t := roundUp s.now 1000000000
    let t := if s.pins.ppsOut == some t then t + 1000000000 else t
    { s.atTime t with pins := { s.pins with ppsOut := some t } }

/-- Is a land of the chain driven high or low: by its cells while an instruction that holds it is loaded, not at all in HIGHZ, and
otherwise as the device drives it (R535)? `cell`: its enable cell, counted from `TDO`; the data cell precedes it. -/
def State.landDriven (s : State) (cell : Nat) (level own : Bool) : Bool :=
  if s.sec.tapInstr == 0x05 then false
  else if scanHolds s.sec.tapInstr then s.sec.boundary.getLsbD cell && s.sec.boundary.getLsbD (cell + 1) == level
  else own

/-- Is `TICK_OUT` high? -/
def State.tickPin (s : State) : Bool := s.landDriven 2 true (s.pins.tickOut.any fun t => s.now < t + 1000)

/-- Is `PPS_OUT` high? -/
def State.ppsPin (s : State) : Bool := s.landDriven 0 true (s.pins.ppsOut.any fun t => s.now < t + 100000)

/-- `HWD_ALERT_N` is low during a RESET hold and a zeroisation (R453). -/
def State.alertPin (s : State) : Bool := s.landDriven 4 false (s.power.rstHeld.contains srcSensor || s.power.rstHeld.contains srcZeroise)

/-- `XSPI_VCC` is present whenever the always-on domain runs (R534). -/
def State.xspiVcc (s : State) : Bool := s.alwaysOn

/-- Is `XSPI_RESET_N` low: for 10 µs at each start of the always-on domain (R534)? -/
def State.xspiResetPin (s : State) : Bool := s.landDriven 33 false (s.alwaysOn && s.pins.xspiReset.any fun t => s.now < t + 10000)

end Sys2Proof.Machine
end

