-- ==== Sys2Proof/Machine/RegAccess.lean ====
section
/-! DEFINITION. Reads and writes of the register window by their access codes (R12-R19), who may write each block, reserved encodings,
the views that read through to other state, and accesses by address. -/

namespace Sys2Proof.Machine

/-! ### What a register reads as -/

/-- HELD and GROVE of a unit. -/
def heldBits (g : Option Nat) (held grove : Nat) : Nat :=
  match g with
  | some g => 2 ^ held + g * 2 ^ grove
  | none => 0

/-- Which instance of a repeated register an offset is. -/
def instNo (off first stride : Nat) : Nat := (off - first) / stride

/-- Is an offset one of `n` instances? -/
def isInst (off first stride n : Nat) : Bool := first ≤ off && off < first + n * stride && (off - first) % stride == 0

/-- The value of a register, those that show other state included. -/
def State.regView (s : State) (off : Nat) : Nat :=
  let v := s.reg off
  match off / 0x400_0000 with
  | 1 => if off == Rg.TIME_NOW then s.now else v
  | 3 => if isInst off (Rg.LE_LANE_STAT 0) 16 32 then v ||| heldBits (s.groveOfLane (instNo off (Rg.LE_LANE_STAT 0) 16)) 14 8 else v
  | 4 =>
    if isInst off (Rg.FP_PORT_STAT 0) 128 72 then v ||| heldBits (s.groveOfPort (instNo off (Rg.FP_PORT_STAT 0) 128)) 2 3
    else if Rg.FP_GCL 0 0 ≤ off && off < Rg.FP_GCL 72 0 then
      (if s.get (Fd.FP_PORT_GATE.GCL_COUNT ((off - Rg.FP_GCL 0 0) / 256)) ≤ (off - Rg.FP_GCL 0 0) % 256 / 4 then 0 else v)
    else v
  | 7 =>
    if isInst off (Rg.IRQ_EN_SET 0) 4 128 then s.bankRead true (instNo off (Rg.IRQ_EN_SET 0) 4)
    else if isInst off (Rg.IRQ_EN_CLR 0) 4 128 then s.bankRead true (instNo off (Rg.IRQ_EN_CLR 0) 4)
    else if isInst off (Rg.IRQ_PEND_SET 0) 4 128 then s.bankRead false (instNo off (Rg.IRQ_PEND_SET 0) 4)
    else if isInst off (Rg.IRQ_PEND_CLR 0) 4 128 then s.bankRead false (instNo off (Rg.IRQ_PEND_CLR 0) 4)
    else if isInst off (Rg.IRQ_CORE_STAT 0) 16 64 then s.coreStat (instNo off (Rg.IRQ_CORE_STAT 0) 16)
    else v
  | 8 =>
    if off < Rg.DMA_ENG_CFG 0 then v
    else
      let g := s.groveOfEngine ((off - Rg.DMA_ENG_CFG 0) / 0x1000)
      if isInst off (Rg.DMA_ENG_STAT 0) 0x1000 32 then v ||| heldBits g 6 7 else if g.isNone then 0 else v
  | 9 =>
    if off == Rg.HWD_STAT then setBits v 3 3 (b2n s.coreDebug)
    else if off == Rg.HWD_TIME then s.hwTime
    else if isInst off (Rg.HWD_MEM_SHARE 0) 8 64 then (s.grv (instNo off (Rg.HWD_MEM_SHARE 0) 8)).cfg.bwShare
    else v
  | 11 => if s.mx then v else 0
  | _ => v

/-- Does a block answer a requester: `CFG_` answers E level, the host and Heartwood (2.9)? -/
def State.blockOpen (s : State) (r : Requester) (off : Nat) : Bool :=
  if off / 0x400_0000 == 10 then (match r with
    | .core _ => s.isE r
    | _ => true) else true

/-- The supply and store readings, and the `PWR_` and `THM_` blocks for a reader that they are not given to, read as free values
(log 5). -/
def State.freeRead (s : State) (r : Requester) (off : Nat) : Bool :=
  off == Rg.PWR_VIN || off == Rg.PWR_PIN || ((off / 0x400_0000 == 13 || off / 0x400_0000 == 14) && !s.mayPower r)

/-- A read of a whole register. -/
def State.wholeRead (s : State) (r : Requester) (d : RegDesc) (off : Nat) : Nat × State :=
  match r with
  | .core c =>
    if off == Rg.IRQ_CLAIM then s.claim c.val
    else if s.freeRead r off then (d.fields.foldl (fun v f => setBits v f.hi f.lo (bits s.free.toNat f.hi f.lo)) 0, s.drawn)
    else (d.seen (s.regView off), s)
  | .host => (if Rg.HWD_MBX_CTL 0 ≤ off && off < Rg.HWD_MBX_CTL 1 then 0 else d.seen (s.regView off), s)
  | _ =>
    if s.freeRead r off then (d.fields.foldl (fun v f => setBits v f.hi f.lo (bits s.free.toNat f.hi f.lo)) 0, s.drawn)
    else (d.seen (s.regView off), s)

/-! ### Read shadows and write holds (R19) -/

def State.setShadow (s : State) (r : Requester) (h : Option HalfWord) : State :=
  { s with shadows := match h with
    | some h => mapPut s.shadows (reqNo r) h
    | none => mapDel s.shadows (reqNo r) }

def State.setHold (s : State) (r : Requester) (h : Option HalfWord) : State :=
  { s with holds := match h with
    | some h => mapPut s.holds (reqNo r) h
    | none => mapDel s.holds (reqNo r) }

def low32 (v : Nat) : Nat := v % 2 ^ 32
def high32 (v : Nat) : Nat := v / 2 ^ 32 % 2 ^ 32

/-- An access of a whole register, of a half of a 64-bit one, or of a reserved offset (R16, R18). -/
inductive RegAcc where
  | whole (d : RegDesc) (off : Nat)
  | low (d : RegDesc) (off : Nat)
  | high (d : RegDesc) (off : Nat)
  | reserved
  | bad
deriving DecidableEq, Repr

/-- What an access of `n` bytes at a window offset is. -/
def regAcc (off n : Nat) : RegAcc :=
  if !(n == 4 || n == 8) || off % n != 0 then .bad
  else match regAt off with
    | some (d, o) =>
      if d.wide then (if n == 8 then .whole d o else if off == o then .low d o else .high d o)
      else if n == 4 then .whole d o else .bad
    | none => if n == 8 && (regAt (off + 4)).isSome then .bad else .reserved

/-- A read of the window that has reached it: none is a bus error. -/
def State.windowRead (s : State) (r : Requester) (off n : Nat) : Option Nat × State :=
  if !s.blockOpen r off then (none, s)
  else match regAcc off n with
    | .bad => (none, s)
    | .reserved => (some 0, s)
    | .whole d o =>
      let (v, s) := s.wholeRead r d o
      (some v, s)
    | .low d o =>
      let (v, s) := s.wholeRead r d o
      (some (low32 v), if d.direct then s else s.setShadow r (some ⟨o, BitVec.ofNat 32 (high32 v)⟩))
    | .high d o =>
      match (if d.direct then none else mapGet? s.shadows (reqNo r)) with
      | some h =>
        if h.reg == o then (some h.v.toNat, s.setShadow r none)
        else
          let (v, s) := s.wholeRead r d o
          (some (high32 v), s)
      | none =>
        let (v, s) := s.wholeRead r d o
        (some (high32 v), s)

/-! ### Writes -/

/-- Start has completed: RWL fields are locked (R13). -/
def State.locked (s : State) : Bool := s.phase == .done

/-- A write of `v` over the bits of `mask` by the access codes of the register alone. -/
def State.store (s : State) (d : RegDesc) (off mask v : Nat) : State := s.setReg off (d.after s.locked mask (s.reg off) v)

/-- The reserved encodings of the fields that the image loads (R17): they could be written only before start completes. -/
def reservedImage (off v : Nat) : Bool :=
  let div (x : Nat) : Bool := x == 1 || 1000 < x
  if off == Rg.FRM_CLASS_DIV then div (bits v 9 0) || div (bits v 19 10) || div (bits v 29 20)
  else if off == Rg.SE_STALE_LIMIT then (List.range 4).any fun k => bits v (8 * k + 6) (8 * k) == 0
  else if off == Rg.FP_TIME_CFG then 72 ≤ bits v 6 0 && bits v 6 0 < 127
  else if isInst off (Rg.FP_PORT_CFG 0) 128 72 then 6 ≤ bits v 2 0 || bits v 8 7 == 3 || bits v 29 16 < 64 || 9216 < bits v 29 16
  else if isInst off (Rg.FP_PORT_GATE 0) 128 72 then
    bits v 4 0 == 0 || 16 < bits v 4 0 || bits v 14 8 == 0 || 64 < bits v 14 8
  else if isInst off (Rg.CAS_PORT_CFG 0) 32 6 then bits v 2 1 == 3 || 6 ≤ bits v 5 3
  else false

/-- The `FRM_` block (3.10). -/
def State.writeFrm (s : State) (d : RegDesc) (off mask v : Nat) : State :=
  if off == Rg.FRM_CTL then
    let s := s.store d off mask v
    let s := s.iff (bitOf v 1) (·.frameSnap)
    (s.iff (bitOf v 2) (·.ovrCntClr)).iff (bitOf v 3) (·.statsClr)
  else if isInst off (Rg.FRM_GRV_CFG 0) 4 64 then if bits v 7 0 == 0 then s else s.store d off mask v
  else if isInst off (Rg.FRM_GRV_CTL 0) 4 64 then
    let g := instNo off (Rg.FRM_GRV_CTL 0) 4
    (s.iff (bitOf v 0) (·.releaseArm g)).iff (bitOf v 1) (·.forceFs g)
  else s.store d off mask v

/-- The `SE_` block (4.11). -/
def State.writeSe (s : State) (d : RegDesc) (off mask v : Nat) : State :=
  if off == Rg.SE_CTL then (s.store d off mask v).iff (bitOf v 1) (·.seCntClr)
  else if isInst off (Rg.SE_AQ_BASE 0) 32 64 then s.aqBase (instNo off (Rg.SE_AQ_BASE 0) 32) (merge mask (s.reg off) v)
  else if isInst off (Rg.SE_AQ_CFG 0) 32 64 then s.aqConfig (instNo off (Rg.SE_AQ_CFG 0) 32) v
  else if isInst off (Rg.SE_AQ_TAIL 0) 32 64 then s.aqTail (instNo off (Rg.SE_AQ_TAIL 0) 32) v
  else if isInst off (Rg.SE_AQ_STAT 0) 32 64 then s.aqStat (instNo off (Rg.SE_AQ_STAT 0) 32) v
  else s.store d off mask v

/-- The `LE_` block (5.12). -/
def State.writeLe (s : State) (r : Requester) (d : RegDesc) (off mask v : Nat) : State :=
  if off == Rg.LE_CTL then s.iff (bitOf v 0) (·.leCntClr)
  else if isInst off (Rg.LE_CALL_RET 0) 32 256 then s.callRet r (instNo off (Rg.LE_CALL_RET 0) 32) (merge mask (s.reg off) v)
  else if isInst off (Rg.LE_CALL_CTL 0) 32 256 then
    let n := instNo off (Rg.LE_CALL_CTL 0) 32
    if !s.ownsSlot r n then s.leDrop
    else s.iff (bitOf v 0) fun s => (s.callDone r n (bits v 2 1)).slotCheck n
  else s.store d off mask v

/-- The `CAS_` block (7.11). -/
def State.writeCas (s : State) (d : RegDesc) (off mask v : Nat) : State :=
  if off == Rg.CAS_CTL then s.iff (bitOf v 0) (·.casCntClr)
  else if off < Rg.CAS_MQ_TXBASE 0 then s.store d off mask v
  else
    let g := instNo off (Rg.CAS_MQ_TXBASE 0) 64
    let new := merge mask (s.reg off) v
    if off == Rg.CAS_MQ_TXBASE g then
      (if s.on (Fd.CAS_MQ_CFG.TX_EN g) && bits new 39 6 != s.get (Fd.CAS_MQ_TXBASE.BASE g) then s else s.store d off mask v)
    else if off == Rg.CAS_MQ_RXBASE g then
      (if s.on (Fd.CAS_MQ_CFG.RX_EN g) && bits new 39 6 != s.get (Fd.CAS_MQ_RXBASE.BASE g) then s else s.store d off mask v)
    else if off == Rg.CAS_MQ_CFG g then
      (if bits v 11 8 < 4 || 12 < bits v 11 8 || bits v 15 12 < 4 || 12 < bits v 15 12 || !s.ringCfgOk g v then s else s.store d off mask v)
    else if off == Rg.CAS_MQ_TXHEAD g then s.txHeadWrite g v
    else if off == Rg.CAS_MQ_RXTAIL g then s.rxTailWrite g v
    else s.store d off mask v

/-- A command written to `GRV_CMD` (R279); a reserved OP is ignored (R17). -/
def State.grvRun (s : State) (r : Requester) (op g arg : Nat) : State :=
  let c : GroveCmd := { op := op, grove := g, arg := 0, addr := 0 }
  match op with
  | 1 => s.grvCmd r op g 0 (·.create r g)
  | 2 => s.grvCmd r op g 0 (·.askTick op g .start)
  | 3 => s.grvCmd r op g 0 fun s => (s.cmdBegin c).drain g false
  | 4 => s.grvCmd r op g 0 fun s => (s.cmdBegin c).drain g true
  | 5 => s.grvCmd r op g arg (·.freezeAccept g arg)
  | 6 => s.grvCmd r op g 0 (·.askTick op g .thaw)
  | 7 => s.grvCmd r op g arg (·.saveAccept r g arg)
  | 8 => s.grvCmd r op g 0 (·.restore r g)
  | 9 => s.grvCmd r op g 0 (·.switchAccept g)
  | 10 => s.grvCmd r op g 0 (·.askTick op g .promote)
  | _ => s

/-- The `GRV_` block, E level alone (R279). -/
def State.writeGrv (s : State) (r : Requester) (d : RegDesc) (off mask v : Nat) : State :=
  if !s.isE r then s
  else if off == Rg.GRV_CMD then s.grvRun r (bits v 3 0) (bits v 13 8) (bits v 16 16)
  else if Rg.GRV_FW 0 0 ≤ off && (off - Rg.GRV_FW 0 0) % 0x200 < 0x100 then
    let k := off - Rg.GRV_FW 0 0
    s.fwWrite r (k / 0x200) (k % 0x200 / 8) (merge mask (s.reg off) v)
  else s.store d off mask v

/-- The `IRQ_` block (12.5). -/
def State.writeIrq (s : State) (r : Requester) (d : RegDesc) (off mask v : Nat) : State :=
  match r with
  | .core c =>
    if off == Rg.IRQ_DOORBELL then s.doorbell (.core c.val) (bits v 11 0) (bits v 13 12)
    else if off == Rg.IRQ_EOI then s.eoi c.val (bits v 11 0)
    else if off == Rg.IRQ_CTL then s.iff (s.isE r) fun s => (s.store d off mask v).iff (bitOf v 12) (·.irqCntClr r)
    else if off == Rg.IRQ_STAT then s.iff (s.isE r) fun s => s.store d off mask v
    else if isInst off (Rg.IRQ_EN_SET 0) 4 128 then s.bankWrite r .enSet (instNo off (Rg.IRQ_EN_SET 0) 4) v
    else if isInst off (Rg.IRQ_EN_CLR 0) 4 128 then s.bankWrite r .enClr (instNo off (Rg.IRQ_EN_CLR 0) 4) v
    else if isInst off (Rg.IRQ_PEND_SET 0) 4 128 then s.bankWrite r .pendSet (instNo off (Rg.IRQ_PEND_SET 0) 4) v
    else if isInst off (Rg.IRQ_PEND_CLR 0) 4 128 then s.bankWrite r .pendClr (instNo off (Rg.IRQ_PEND_CLR 0) 4) v
    else if isInst off (Rg.IRQ_GRV_CFG 0) 64 64 then s.compatWrite r (instNo off (Rg.IRQ_GRV_CFG 0) 64) v
    else if isInst off (Rg.IRQ_GRV_VBASE_S 0) 64 64 then
      s.iff (s.mayConfigGrove r (instNo off (Rg.IRQ_GRV_VBASE_S 0) 64)) fun s => s.store d off mask v
    else if isInst off (Rg.IRQ_GRV_VBASE_E 0) 64 64 then s.iff (s.isE r) fun s => s.store d off mask v
    else if isInst off (Rg.IRQ_CORE_STAT 0) 16 64 then
      let own := match s.groveOfCore (instNo off (Rg.IRQ_CORE_STAT 0) 16) with
        | some g => s.mayConfigGrove r g
        | none => s.isE r
      s.iff own fun s => s.store d off mask v
    else if isInst off (Rg.IRQ_SRC_CFG 0) 4 4096 then s.configSource r (instNo off (Rg.IRQ_SRC_CFG 0) 4) v
    else if isInst off (Rg.IRQ_SRC_TGT 0) 8 4096 then
      s.iff (s.mayConfigSource r (instNo off (Rg.IRQ_SRC_TGT 0) 8)) fun s => (s.store d off mask v).settle
    else s
  | _ => s

/-- May a doorbell source be named for an engine: within the holding grove's range (R431)? -/
def State.engineSource (s : State) (e src : Nat) : Bool :=
  match s.groveOfEngine e with
  | some g => inRange (s.grv g).cfg.irqFirst (s.grv g).cfg.irqCount src
  | none => true

/-- The `DMA_` block (13.8). -/
def State.writeDma (s : State) (r : Requester) (d : RegDesc) (off mask v : Nat) : State :=
  if off == Rg.DMA_CTL then s.iff (bitOf v 0) (·.dmaCntClr r)
  else
    let e := (off - Rg.DMA_ENG_CFG 0) / 0x1000
    let c := ((off - Rg.DMA_ENG_CFG 0) % 0x1000 - 0x100) / 64
    let new := merge mask (s.reg off) v
    if !s.mayWriteEngine r e then s
    else if off == Rg.DMA_ENG_CFG e then if s.engineSource e (bits v 11 0) then s.store d off mask v else s
    else if off == Rg.DMA_ENG_STAT e then s.store d off mask v
    else if off == Rg.DMA_CH_BASE e c then
      (if s.chRun e c && bits new 39 6 != s.get (Fd.DMA_CH_BASE.BASE e c) then s else s.store d off mask v)
    else if off == Rg.DMA_CH_CFG e c then
      (if bits v 11 8 < 4 || 12 < bits v 11 8 || (s.chRun e c && bits v 11 8 != s.get (Fd.DMA_CH_CFG.LOG2 e c)) ||
          !s.engineSource e (bits v 27 16) then s else s.store d off mask v)
    else if off == Rg.DMA_CH_HEAD e c then s.dmaHead r e c v
    else if off == Rg.DMA_CH_CTL e c then (s.iff (bitOf v 0) (·.dmaStart r e c)).iff (bitOf v 1) (·.dmaStop r e c)
    else s.store d off mask v

/-- Who writes a mailbox (R459): cores at E level 0, the host 1. -/
def State.mayMailbox (s : State) (r : Requester) (m : Nat) : Bool := if m == 0 then s.isE r else r == .host

/-- `HWD_MEM_CTL.CNT_CLR` (11.10). -/
def State.memCntClr (s : State) : State :=
  let s := s.each [Rg.HWD_MEM_CE_CNT, Rg.HWD_MEM_UE_CNT, Rg.HWD_MEM_MAC_CNT, Rg.HWD_MEM_SRAM_CE_CNT, Rg.HWD_MEM_SRAM_UE_CNT,
    Rg.HWD_MEM_STORE_LOST_CNT] fun s a => s.setReg a 0
  let s := s.each (List.range 9) fun s k => s.lower (Fd.HWD_MEM_DEV_CE.COUNT k)
  s.each (List.range 64) fun s g => s.lower (Fd.HWD_MEM_RT_OVER.COUNT g)

/-- The `HWD_` block (11.10, 14.9, 14.12). -/
def State.writeHwd (s : State) (r : Requester) (d : RegDesc) (off mask v : Nat) : State :=
  if Rg.HWD_MBX_CTL 0 ≤ off && off < Rg.HWD_MBX_CTL 2 then
    let m := (off - Rg.HWD_MBX_CTL 0) / 0x1000
    let held := s.sec.queue.contains m
    if !s.mayMailbox r m then s
    else if off == Rg.HWD_MBX_CTL m then s.iff (bitOf v 0) (·.mbxGo m)
    else if off == Rg.HWD_MBX_STAT m then s.store d off mask v
    else if off == Rg.HWD_MBX_CMD m then if held || 2048 < bits v 27 16 then s else s.store d off mask v
    else if held then s
    else s.store d off mask v
  else if !s.isE r then s
  else if off == Rg.HWD_MEM_CFG then if bits v 31 16 == 0 then s else s.store d off mask v
  else if off == Rg.HWD_MEM_CTL then s.iff (bitOf v 0) (·.memCntClr)
  else s.store d off mask v

/-- The `PCI_` block (16.8). -/
def State.writePci (s : State) (r : Requester) (d : RegDesc) (off mask v : Nat) : State :=
  let new := merge mask (s.reg off) v
  if isInst off (Rg.PCI_MQ_IDX 0) 32 16 then
    let q := instNo off (Rg.PCI_MQ_IDX 0) 32
    if !s.mayIndex r q then s else (s.mqH2dTail q (bits new 31 16)).mqD2hHead q (bits new 47 32)
  else if !s.isE r || off == Rg.PCI_DOORBELL then s
  else if off == Rg.PCI_CTL then s.pciCtl v
  else if isInst off (Rg.PCI_SNAP_CFG 0) 16 4 then s.snapCfg (instNo off (Rg.PCI_SNAP_CFG 0) 16) new
  else if isInst off (Rg.PCI_SNAP_BASE 0) 16 4 then s.snapBase (instNo off (Rg.PCI_SNAP_BASE 0) 16) new
  else if isInst off (Rg.PCI_MQ_CFG 0) 32 16 then s.mqCfg (instNo off (Rg.PCI_MQ_CFG 0) 32) new
  else if isInst off (Rg.PCI_MQ_H2D_BASE 0) 32 16 then
    s.mqBase (instNo off (Rg.PCI_MQ_H2D_BASE 0) 32) (Fd.PCI_MQ_H2D_BASE.BASE (instNo off (Rg.PCI_MQ_H2D_BASE 0) 32)) new
  else if isInst off (Rg.PCI_MQ_D2H_BASE 0) 32 16 then
    s.mqBase (instNo off (Rg.PCI_MQ_D2H_BASE 0) 32) (Fd.PCI_MQ_D2H_BASE.BASE (instNo off (Rg.PCI_MQ_D2H_BASE 0) 32)) new
  else s.store d off mask v

/-- The `PWR_` and `THM_` blocks (17.8, 17.9). -/
def State.writePwr (s : State) (r : Requester) (d : RegDesc) (off mask v : Nat) : State :=
  if !s.mayPower r then s
  else if off == Rg.PWR_CTL then s.pwrCtl r (bits v 0 0) (bits v 15 8)
  else if off == Rg.PWR_SPRINT then s.sprintRequest r (bitOf v 0)
  else if off == Rg.PWR_RET then s.retention r (bits v 27 0)
  else if off == Rg.THM_CTL then s.iff (bitOf v 0) (·.maxClr r)
  else s.store d off mask v

/-- A write of `v` over the bits of `mask` of a register, by the rules of its block. The host's one register outside its mailbox is
`PCI_DOORBELL` (R497). -/
def State.regSet (s : State) (r : Requester) (d : RegDesc) (off mask v : Nat) : State :=
  if reservedImage off v then s
  else if r == .host && off == Rg.PCI_DOORBELL then s.doorbell .host (bits v 11 0) (bits v 13 12)
  else match off / 0x400_0000 with
    | 0 => s.writeFrm d off mask v
    | 2 => s.writeSe d off mask v
    | 3 => s.writeLe r d off mask v
    | 4 => if off == Rg.FP_CTL then s.iff (bitOf v 0) (·.fpCntClr) else s.store d off mask v
    | 5 => s.writeCas d off mask v
    | 6 => s.writeGrv r d off mask v
    | 7 => s.writeIrq r d off mask v
    | 8 => s.writeDma r d off mask v
    | 9 => s.writeHwd r d off mask v
    | 11 => if off == Rg.MET_CMD && mask == 2 ^ 64 - 1 then s.metWrite r (bits v 3 0) (bits v 15 8) (bits v 63 32) else s
    | 12 => s.writePci r d off mask v
    | 13 => s.writePwr r d off mask v
    | 14 => s.writePwr r d off mask v
    | _ => s

/-- A write of the window that has reached it (R16-R19): none is a bus error. -/
def State.windowWrite (s : State) (r : Requester) (off n v : Nat) : Option State :=
  if !s.blockOpen r off then none
  else match regAcc off n with
    | .bad => none
    | .reserved => some s
    | .whole d o => some (s.regSet r d o (2 ^ (8 * n) - 1) (v % 2 ^ (8 * n)))
    | .low d o =>
      if d.direct then some (s.regSet r d o (2 ^ 32 - 1) (low32 v)) else some (s.setHold r (some ⟨o, BitVec.ofNat 32 v⟩))
    | .high d o =>
      let part := low32 v * 2 ^ 32
      match (if d.direct then none else mapGet? s.holds (reqNo r)) with
      | some h =>
        if h.reg == o then some ((s.setHold r none).regSet r d o (2 ^ 64 - 1) (h.v.toNat + part))
        else some (s.regSet r d o (2 ^ 64 - 2 ^ 32) part)
      | none => some (s.regSet r d o (2 ^ 64 - 2 ^ 32) part)

/-! ### The host's memory windows (R492, R494, R501-R504) -/

/-- Does the host read bytes of memory: the live Tag Store, the staging window, snapshot buffers, message rings, mirrored rings? -/
def State.hostSees (s : State) (a n : Nat) : Bool :=
  let pf1 := !s.on Fd.CFG_STAT.SAFE_HOLD
  let inside (lo len : Nat) : Bool := lo ≤ a && a + n ≤ lo + len
  (0x7_F000_0000 ≤ a && a + n ≤ gddrSize && s.on Fd.CFG_STAT.DONE && !s.on Fd.CFG_STAGE.BUSY) ||
  (pf1 && (inside tagBase tagSize ||
    ((List.range 4).any fun w => inside (s.snapAddr w 0) 0x80_0000 && s.on (Fd.PCI_SNAP_CFG.EN w)) ||
    ((List.range 16).any fun q => s.on (Fd.PCI_MQ_CFG.EN q) &&
      (inside (s.get (Fd.PCI_MQ_H2D_BASE.BASE q) * 64) (64 * s.h2dSize q) || inside (s.get (Fd.PCI_MQ_D2H_BASE.BASE q) * 64) (64 * s.d2hSize q))) ||
    ((List.range 64).any fun g => bitOf (s.get Fd.PCI_AQ_MIRROR.GROVES) g && s.on (Fd.SE_AQ_CFG.EN g) &&
      inside (s.get (Fd.SE_AQ_BASE.BASE g) * 64) (64 * s.aqSize g))))

/-- Does the host write bytes of memory: the staging window, H2D rings of enabled queues? -/
def State.hostStores (s : State) (a n : Nat) : Bool :=
  (0x7_F000_0000 ≤ a && a + n ≤ gddrSize && s.on Fd.CFG_STAT.DONE && !s.on Fd.CFG_STAGE.BUSY) ||
  (!s.on Fd.CFG_STAT.SAFE_HOLD && (List.range 16).any fun q => s.on (Fd.PCI_MQ_CFG.EN q) &&
    s.get (Fd.PCI_MQ_H2D_BASE.BASE q) * 64 ≤ a && a + n ≤ s.get (Fd.PCI_MQ_H2D_BASE.BASE q) * 64 + 64 * s.h2dSize q)

/-! ### Accesses by address, outside the instructions of a core -/

def State.answerMem (s : State) : MemRes → State
  | .ok bs => s.answer (.data (BitVec.ofNat 64 (leNat bs)))
  | .bus => s.answer .busError
  | .dataError => s.answer .busError
  | .wait => s

/-- A read of `n` bytes at a physical address. -/
def State.busRead (s : State) (r : Requester) (a n : Nat) : State :=
  if !s.present r then s
  else if r == .host && targetOf a != .window then
    if sizeOk n && s.hostSees a n then
      let (res, s) := s.memRead (reqNo r) a n false
      s.answerMem res
    else s.answer (.data 0)
  else if !s.reaches r .read a n then s.turnAway r .read a n
  else
    let s := s.fwUsed r
    if targetOf a == .window then
      match s.windowRead r (a - winBase) n with
      | (some v, s) => s.answer (.data (BitVec.ofNat 64 v))
      | (none, s) => s.answer .busError
    else if !sizeOk n || a % n != 0 then s.answer .busError
    else
      let (res, s) := s.memRead (reqNo r) a n false
      s.answerMem res

/-- A write of `n` bytes at a physical address. -/
def State.busWrite (s : State) (r : Requester) (a n v : Nat) : State :=
  if r == .host && targetOf a != .window then
    if !s.present r then s
    else if sizeOk n && s.hostStores a n then (s.memWrite r a n (v % 2 ^ (8 * n)) false).2 else s.hostDrop
  else s.writeAt r a n fun s =>
    if targetOf a == .window then
      match s.windowWrite r (a - winBase) n v with
      | some s => s
      | none => if r == .host then s.hostDrop else s.answer .busError
    else if !sizeOk n || a % n != 0 then s.answer .busError
    else match s.memWrite r a n (v % 2 ^ (8 * n)) false with
      | (.bus, s) => s.answer .busError
      | (.dataError, s) => s.answer .busError
      | (.wait, s) => { s with resp := none }
      | (_, s) => s

/-! ### Open transactions (R30) -/

/-- One of a requester's transactions completes; a requester held at the limit may issue again. -/
def State.transEnd (s : State) (r : Requester) : State :=
  let n := mapGet 0 s.openTrans (reqNo r)
  if n == 0 then s else ({ s with openTrans := mapSet 0 s.openTrans (reqNo r) (n - 1) } : State).transDone (reqNo r)

/-! ### The rows of chapters 0 and 1 -/

/-- R12-R18. -/
def execRegisterWrite (r : Requester) (addr : PAddr) (size : Nat) (v : Word) (s : State) : Host.Outcome State Fault Refusal :=
  done (s.busWrite r addr.toNat size v.toNat)

/-- R19. -/
def execLowWordRead (r : Requester) (addr : PAddr) (s : State) : Host.Outcome State Fault Refusal := done (s.busRead r addr.toNat 4)

/-- R19. -/
def execHighWordRead (r : Requester) (addr : PAddr) (s : State) : Host.Outcome State Fault Refusal := done (s.busRead r addr.toNat 4)

/-- R19. -/
def execLowWordWrite (r : Requester) (addr : PAddr) (v : Word32) (s : State) : Host.Outcome State Fault Refusal :=
  done (s.busWrite r addr.toNat 4 v.toNat)

/-- R19. -/
def execHighWordWrite (r : Requester) (addr : PAddr) (v : Word32) (s : State) : Host.Outcome State Fault Refusal :=
  done (s.busWrite r addr.toNat 4 v.toNat)

/-- R30. -/
def execTransactionComplete (r : Requester) (s : State) : Host.Outcome State Fault Refusal := done (s.transEnd r)

end Sys2Proof.Machine
end

