-- ==== Sys2Proof/Machine/RiscV.lean ====
section
/-! DEFINITION. The instruction words of the cores (R303, R309): fields, the expansion of compressed instructions, which row of the
table a word belongs to, and the integer operations of RV64IM, Zba and Zbb. What the RISC-V specification gives, to which R303
refers, is PRESUMED (log 33). -/

namespace Sys2Proof.Machine

/-! ### Fields -/

def rvOp (i : Nat) : Nat := bits i 6 0
def rvRd (i : Nat) : Nat := bits i 11 7
def rvF3 (i : Nat) : Nat := bits i 14 12
def rvRs1 (i : Nat) : Nat := bits i 19 15
def rvRs2 (i : Nat) : Nat := bits i 24 20
def rvRs3 (i : Nat) : Nat := bits i 31 27
def rvF7 (i : Nat) : Nat := bits i 31 25
def rvCsr (i : Nat) : Nat := bits i 31 20

def immI (i : Nat) : Int := sext 12 (bits i 31 20)
def immS (i : Nat) : Int := sext 12 (bits i 31 25 * 32 + bits i 11 7)
def immB (i : Nat) : Int :=
  sext 13 (bits i 31 31 * 4096 + bits i 7 7 * 2048 + bits i 30 25 * 32 + bits i 11 8 * 2)
def immU (i : Nat) : Int := sext 32 (bits i 31 12 * 4096)
def immJ (i : Nat) : Int :=
  sext 21 (bits i 31 31 * 2 ^ 20 + bits i 19 12 * 4096 + bits i 20 20 * 2048 + bits i 30 21 * 2)

/-- A 64-bit sum of a register and a signed offset. -/
def addOfs (a : Nat) (o : Int) : Nat := ofInt 64 ((a : Int) + o)

/-! ### Words of the 32-bit formats -/

def mkI (op f3 rd rs1 imm : Nat) : Nat := op + rd * 2 ^ 7 + f3 * 2 ^ 12 + rs1 * 2 ^ 15 + imm % 4096 * 2 ^ 20
def mkR (op f3 f7 rd rs1 rs2 : Nat) : Nat := op + rd * 2 ^ 7 + f3 * 2 ^ 12 + rs1 * 2 ^ 15 + rs2 * 2 ^ 20 + f7 * 2 ^ 25
def mkS (op f3 rs1 rs2 imm : Nat) : Nat :=
  op + bits imm 4 0 * 2 ^ 7 + f3 * 2 ^ 12 + rs1 * 2 ^ 15 + rs2 * 2 ^ 20 + bits imm 11 5 * 2 ^ 25
def mkB (f3 rs1 rs2 imm : Nat) : Nat :=
  0x63 + bits imm 11 11 * 2 ^ 7 + bits imm 4 1 * 2 ^ 8 + f3 * 2 ^ 12 + rs1 * 2 ^ 15 + rs2 * 2 ^ 20 +
    bits imm 10 5 * 2 ^ 25 + bits imm 12 12 * 2 ^ 31
def mkU (op rd imm20 : Nat) : Nat := op + rd * 2 ^ 7 + imm20 % 2 ^ 20 * 2 ^ 12
def mkJ (rd imm : Nat) : Nat :=
  0x6F + rd * 2 ^ 7 + bits imm 19 12 * 2 ^ 12 + bits imm 11 11 * 2 ^ 20 + bits imm 10 1 * 2 ^ 21 + bits imm 20 20 * 2 ^ 31

/-! ### Compressed instructions (R303: C). Each expands to the 32-bit word it stands for; none: reserved -/

/-- Quadrant 0. -/
def expand0 (h : Nat) : Option Nat :=
  let rd := 8 + bits h 4 2
  let rs1 := 8 + bits h 9 7
  let offD := bits h 12 10 * 8 + bits h 6 5 * 64
  let offW := bits h 12 10 * 8 + bits h 6 6 * 4 + bits h 5 5 * 64
  match bits h 15 13 with
  | 0 =>
    let imm := bits h 12 11 * 16 + bits h 10 7 * 64 + bits h 6 6 * 4 + bits h 5 5 * 8
    if imm == 0 then none else some (mkI 0x13 0 rd 2 imm)
  | 1 => some (mkI 0x07 3 rd rs1 offD)
  | 2 => some (mkI 0x03 2 rd rs1 offW)
  | 3 => some (mkI 0x03 3 rd rs1 offD)
  | 5 => some (mkS 0x27 3 rs1 rd offD)
  | 6 => some (mkS 0x23 2 rs1 rd offW)
  | 7 => some (mkS 0x23 3 rs1 rd offD)
  | _ => none

/-- The register operations of quadrant 1, funct3 0b100. -/
def expandAlu (h : Nat) : Option Nat :=
  let rd := 8 + bits h 9 7
  let rs2 := 8 + bits h 4 2
  let imm6 := bits h 12 12 * 32 + bits h 6 2
  match bits h 11 10 with
  | 0 => some (mkI 0x13 5 rd rd imm6)
  | 1 => some (mkI 0x13 5 rd rd (0x400 + imm6))
  | 2 => some (mkI 0x13 7 rd rd (ofInt 12 (sext 6 imm6)))
  | _ =>
    match bits h 12 12 * 4 + bits h 6 5 with
    | 0 => some (mkR 0x33 0 0x20 rd rd rs2)
    | 1 => some (mkR 0x33 4 0 rd rd rs2)
    | 2 => some (mkR 0x33 6 0 rd rd rs2)
    | 3 => some (mkR 0x33 7 0 rd rd rs2)
    | 4 => some (mkR 0x3B 0 0x20 rd rd rs2)
    | 5 => some (mkR 0x3B 0 0 rd rd rs2)
    | _ => none

/-- Quadrant 1. -/
def expand1 (h : Nat) : Option Nat :=
  let rd := bits h 11 7
  let imm6 := bits h 12 12 * 32 + bits h 6 2
  let imm := ofInt 12 (sext 6 imm6)
  let offB := bits h 12 12 * 256 + bits h 11 10 * 8 + bits h 6 5 * 64 + bits h 4 3 * 2 + bits h 2 2 * 32
  let br := ofInt 13 (sext 9 offB)
  match bits h 15 13 with
  | 0 => some (mkI 0x13 0 rd rd imm)
  | 1 => if rd == 0 then none else some (mkI 0x1B 0 rd rd imm)
  | 2 => some (mkI 0x13 0 rd 0 imm)
  | 3 =>
    if rd == 2 then
      let k := bits h 12 12 * 512 + bits h 6 6 * 16 + bits h 5 5 * 64 + bits h 4 3 * 128 + bits h 2 2 * 32
      if k == 0 then none else some (mkI 0x13 0 2 2 (ofInt 12 (sext 10 k)))
    else if imm6 == 0 then none else some (mkU 0x37 rd (ofInt 20 (sext 6 imm6)))
  | 4 => expandAlu h
  | 5 =>
    let k := bits h 12 12 * 2048 + bits h 11 11 * 16 + bits h 10 9 * 256 + bits h 8 8 * 1024 + bits h 7 7 * 64 +
      bits h 6 6 * 128 + bits h 5 3 * 2 + bits h 2 2 * 32
    some (mkJ 0 (ofInt 21 (sext 12 k)))
  | 6 => some (mkB 0 (8 + bits h 9 7) 0 br)
  | _ => some (mkB 1 (8 + bits h 9 7) 0 br)

/-- Quadrant 2. -/
def expand2 (h : Nat) : Option Nat :=
  let rd := bits h 11 7
  let rs2 := bits h 6 2
  let offDL := bits h 12 12 * 32 + bits h 6 5 * 8 + bits h 4 2 * 64
  let offWL := bits h 12 12 * 32 + bits h 6 4 * 4 + bits h 3 2 * 64
  let offDS := bits h 12 10 * 8 + bits h 9 7 * 64
  let offWS := bits h 12 9 * 4 + bits h 8 7 * 64
  match bits h 15 13 with
  | 0 => some (mkI 0x13 1 rd rd (bits h 12 12 * 32 + bits h 6 2))
  | 1 => some (mkI 0x07 3 rd 2 offDL)
  | 2 => if rd == 0 then none else some (mkI 0x03 2 rd 2 offWL)
  | 3 => if rd == 0 then none else some (mkI 0x03 3 rd 2 offDL)
  | 4 =>
    if bits h 12 12 == 0 then
      if rs2 == 0 then (if rd == 0 then none else some (mkI 0x67 0 0 rd 0))
      else some (mkR 0x33 0 0 rd 0 rs2)
    else if rs2 == 0 then
      if rd == 0 then some 0x0010_0073 else some (mkI 0x67 0 1 rd 0)
    else some (mkR 0x33 0 0 rd rd rs2)
  | 5 => some (mkS 0x27 3 2 rs2 offDS)
  | 6 => some (mkS 0x23 2 2 rs2 offWS)
  | _ => some (mkS 0x23 3 2 rs2 offDS)

/-- The length of an instruction in bytes. -/
def rvLen (i : Nat) : Nat := if i % 4 == 3 then 4 else 2

/-- The bits of an instruction: 32, or the low 16 of a compressed one. -/
def rvBits (i : Nat) : Nat := if rvLen i == 4 then i else i % 2 ^ 16

/-- The 32-bit word that an instruction stands for; none: a reserved compressed encoding. -/
def rvWord (i : Nat) : Option Nat :=
  match i % 4 with
  | 0 => expand0 (i % 2 ^ 16)
  | 1 => expand1 (i % 2 ^ 16)
  | 2 => expand2 (i % 2 ^ 16)
  | _ => some i

/-! ### Integer operations -/

/-- A 32-bit result, sign-extended. -/
def w64 (v : Nat) : Nat := ofInt 64 (sext 32 v)

def sgn (v : Nat) : Int := sext 64 v

/-- Leading zeros, trailing zeros and ones of the low `w` bits. -/
def clz (w v : Nat) : Nat := w - (if v % 2 ^ w == 0 then 0 else (v % 2 ^ w).log2 + 1)
def ctz (w v : Nat) : Nat := ((List.range w).takeWhile fun k => !bitOf v k).length
def popc (w v : Nat) : Nat := (bitsSet w v).length

def rol (w v k : Nat) : Nat :=
  let v := v % 2 ^ w
  v * 2 ^ k % 2 ^ w + v / 2 ^ (w - k)

def ror (w v k : Nat) : Nat := rol w v ((w - k) % w)

/-- Each byte that is not 0 becomes 0xFF (ORC.B). -/
def orcB (v : Nat) : Nat := (List.range 8).foldl (fun a k => a + (if bits v (8 * k + 7) (8 * k) == 0 then 0 else 255 * 256 ^ k)) 0

/-- The eight bytes in reverse order. -/
def rev8 (v : Nat) : Nat := leNat (leBytes 8 v).reverse

def notW (v : Nat) : Nat := 2 ^ 64 - 1 - v % 2 ^ 64

/-- Division as RISC-V gives it: x / 0 is all ones, x % 0 is x, and the signed overflow wraps (R303). -/
def divS (w a b : Nat) : Nat :=
  if b % 2 ^ w == 0 then 2 ^ w - 1 else ofInt w ((sext w a).tdiv (sext w b))
def divU (w a b : Nat) : Nat := if b % 2 ^ w == 0 then 2 ^ w - 1 else (a % 2 ^ w) / (b % 2 ^ w)
def remS (w a b : Nat) : Nat :=
  if b % 2 ^ w == 0 then a % 2 ^ w else ofInt w ((sext w a).tmod (sext w b))
def remU (w a b : Nat) : Nat := if b % 2 ^ w == 0 then a % 2 ^ w else (a % 2 ^ w) % (b % 2 ^ w)

/-- OP: 64-bit register operations. -/
def aluReg (f7 f3 a b : Nat) : Option Nat :=
  let sh := b % 64
  match f7, f3 with
  | 0x00, 0 => some ((a + b) % 2 ^ 64)
  | 0x20, 0 => some (ofInt 64 ((a : Int) - b))
  | 0x00, 1 => some (a * 2 ^ sh % 2 ^ 64)
  | 0x00, 2 => some (b2n (sgn a < sgn b))
  | 0x00, 3 => some (b2n (a < b))
  | 0x00, 4 => some (a ^^^ b)
  | 0x00, 5 => some (a / 2 ^ sh)
  | 0x20, 5 => some (ofInt 64 (sgn a / (2 ^ sh : Nat)))
  | 0x00, 6 => some (a ||| b)
  | 0x00, 7 => some (a &&& b)
  | 0x01, 0 => some (a * b % 2 ^ 64)
  | 0x01, 1 => some (ofInt 64 (sgn a * sgn b / (2 ^ 64 : Nat)))
  | 0x01, 2 => some (ofInt 64 (sgn a * (b : Int) / (2 ^ 64 : Nat)))
  | 0x01, 3 => some (a * b / 2 ^ 64)
  | 0x01, 4 => some (divS 64 a b)
  | 0x01, 5 => some (divU 64 a b)
  | 0x01, 6 => some (remS 64 a b)
  | 0x01, 7 => some (remU 64 a b)
  | 0x10, 2 => some ((2 * a + b) % 2 ^ 64)
  | 0x10, 4 => some ((4 * a + b) % 2 ^ 64)
  | 0x10, 6 => some ((8 * a + b) % 2 ^ 64)
  | 0x20, 7 => some (a &&& notW b)
  | 0x20, 6 => some (a ||| notW b)
  | 0x20, 4 => some (notW (a ^^^ b))
  | 0x05, 4 => some (if sgn a < sgn b then a else b)
  | 0x05, 5 => some (min a b)
  | 0x05, 6 => some (if sgn a < sgn b then b else a)
  | 0x05, 7 => some (max a b)
  | 0x30, 1 => some (rol 64 a sh)
  | 0x30, 5 => some (ror 64 a sh)
  | _, _ => none

/-- OP-32: operations on the low words, and the .UW forms; `rs2` is the register number (ZEXT.H). -/
def aluRegW (f7 f3 rs2 a b : Nat) : Option Nat :=
  let sh := b % 32
  let u := a % 2 ^ 32
  match f7, f3 with
  | 0x00, 0 => some (w64 (a + b))
  | 0x20, 0 => some (ofInt 64 (sext 32 (ofInt 64 ((a : Int) - b))))
  | 0x00, 1 => some (w64 (u * 2 ^ sh))
  | 0x00, 5 => some (w64 (u / 2 ^ sh))
  | 0x20, 5 => some (ofInt 64 (sext 32 u / (2 ^ sh : Nat)))
  | 0x01, 0 => some (w64 (a * b))
  | 0x01, 4 => some (w64 (divS 32 a b))
  | 0x01, 5 => some (w64 (divU 32 a b))
  | 0x01, 6 => some (w64 (remS 32 a b))
  | 0x01, 7 => some (w64 (remU 32 a b))
  | 0x04, 0 => some ((u + b) % 2 ^ 64)
  | 0x10, 2 => some ((2 * u + b) % 2 ^ 64)
  | 0x10, 4 => some ((4 * u + b) % 2 ^ 64)
  | 0x10, 6 => some ((8 * u + b) % 2 ^ 64)
  | 0x04, 4 => if rs2 == 0 then some (a % 2 ^ 16) else none
  | 0x30, 1 => some (w64 (rol 32 u sh))
  | 0x30, 5 => some (w64 (ror 32 u sh))
  | _, _ => none

/-- OP-IMM. -/
def aluImm (i f3 a : Nat) : Option Nat :=
  let b := ofInt 64 (immI i)
  let sh := bits i 25 20
  match f3 with
  | 0 => some ((a + b) % 2 ^ 64)
  | 2 => some (b2n (sgn a < immI i))
  | 3 => some (b2n (a < b))
  | 4 => some (a ^^^ b)
  | 6 => some (a ||| b)
  | 7 => some (a &&& b)
  | 1 =>
    if bits i 31 26 == 0 then some (a * 2 ^ sh % 2 ^ 64)
    else match bits i 31 20 with
      | 0x600 => some (clz 64 a)
      | 0x601 => some (ctz 64 a)
      | 0x602 => some (popc 64 a)
      | 0x604 => some (ofInt 64 (sext 8 a))
      | 0x605 => some (ofInt 64 (sext 16 a))
      | _ => none
  | _ =>
    match bits i 31 26 with
    | 0x00 => some (a / 2 ^ sh)
    | 0x10 => some (ofInt 64 (sgn a / (2 ^ sh : Nat)))
    | 0x18 => some (ror 64 a sh)
    | _ => if bits i 31 20 == 0x287 then some (orcB a) else if bits i 31 20 == 0x6B8 then some (rev8 a) else none

/-- OP-IMM-32. -/
def aluImmW (i f3 a : Nat) : Option Nat :=
  let sh := bits i 24 20
  let u := a % 2 ^ 32
  match f3 with
  | 0 => some (w64 (a + ofInt 64 (immI i)))
  | 1 =>
    if rvF7 i == 0 then some (w64 (u * 2 ^ sh))
    else if bits i 31 26 == 2 then some (u * 2 ^ bits i 25 20 % 2 ^ 64)
    else match bits i 31 20 with
      | 0x600 => some (clz 32 u)
      | 0x601 => some (ctz 32 u)
      | 0x602 => some (popc 32 u)
      | _ => none
  | 5 =>
    match rvF7 i with
    | 0x00 => some (w64 (u / 2 ^ sh))
    | 0x20 => some (ofInt 64 (sext 32 u / (2 ^ sh : Nat)))
    | 0x30 => some (w64 (ror 32 u sh))
    | _ => none
  | _ => none

/-- Is a conditional branch taken? none: a reserved funct3. -/
def brTaken (f3 a b : Nat) : Option Bool :=
  match f3 with
  | 0 => some (a == b)
  | 1 => some (a != b)
  | 4 => some (sgn a < sgn b)
  | 5 => some (!(sgn a < sgn b))
  | 6 => some (a < b)
  | 7 => some (!(a < b))
  | _ => none

/-! ### Which row of the table a word belongs to -/

/-- The rows of the instructions of a core; `ctl` are the CSR instructions with a row of their own, by CSR. -/
inductive RvRow where
  | load | store | amo | lr | sc | fence | fenceI | frameWait | regionInv | fenceGrove | loopSet | ecall | ebreak
  | ctxSwitch | sRet | eRet | region | predFlush | other
deriving DecidableEq, Repr

/-- Does a CSR instruction write its CSR: CSRRW always, the others when rs1 or the immediate is not 0? -/
def csrWrites (w : Nat) : Bool := rvF3 w % 4 == 1 || rvRs1 w != 0

/-- CSRs of Region Registers and the Region Overflow Table. -/
def csrRegion (n : Nat) : Bool := n == 0x180 || n == 0x181 || (0x5A0 ≤ n && n < 0x5C0)

/-- The row of a CSR instruction; a write of `PRED_CTL` is PRED_FLUSH only when it writes 1 to FLUSH. -/
def csrRow (w : Nat) : RvRow :=
  let n := rvCsr w
  if !csrWrites w then .other
  else if n == 0x5E0 then .ctxSwitch
  else if n == 0x150 then .sRet
  else if n == 0x350 then .eRet
  else if csrRegion n then .region
  else if n == 0x5C0 then .predFlush
  else .other

/-- The row of a 32-bit word; an illegal one belongs to OTHER_INSTRUCTION. -/
def rvRow (w : Nat) : RvRow :=
  let f3 := rvF3 w
  match rvOp w with
  | 0x03 => if f3 < 7 then .load else .other
  | 0x07 => if f3 == 2 || f3 == 3 then .load else .other
  | 0x23 => if f3 < 4 then .store else .other
  | 0x27 => if f3 == 2 || f3 == 3 then .store else .other
  | 0x0F => if f3 == 0 then .fence else if f3 == 1 then .fenceI else .other
  | 0x2F =>
    if f3 != 2 && f3 != 3 then .other
    else match rvRs3 w with
      | 0x02 => if rvRs2 w == 0 then .lr else .other
      | 0x03 => .sc
      | k => if k == 0 || k == 1 || k == 4 || k == 8 || k == 12 || k == 16 || k == 20 || k == 24 || k == 28 then .amo else .other
  | 0x0B =>
    if rvF7 w != 0 then .other
    else match f3 with
      | 0 => if rvRs1 w == 0 && rvRs2 w == 0 then .frameWait else .other
      | 1 => if rvRd w == 0 then .regionInv else .other
      | 2 => if rvRd w == 0 && rvRs1 w == 0 && rvRs2 w == 0 then .fenceGrove else .other
      | _ => .other
  | 0x2B => if f3 == 0 && rvRd w == 0 && bits w 31 20 != 0 then .loopSet else .other
  | 0x73 =>
    if f3 == 0 then (if w == 0x73 then .ecall else if w == 0x0010_0073 then .ebreak else .other)
    else if f3 == 4 then .other else csrRow w
  | _ => .other

/-- The result of an AMO on an operand of `n` bytes (R387). -/
def amoOp (k n old v : Nat) : Nat :=
  let w := 8 * n
  let old := old % 2 ^ w
  let v := v % 2 ^ w
  match k with
  | 0 => (old + v) % 2 ^ w
  | 1 => v
  | 4 => old ^^^ v
  | 8 => old ||| v
  | 12 => old &&& v
  | 16 => if sext w v < sext w old then v else old
  | 20 => if sext w old < sext w v then v else old
  | 24 => min old v
  | _ => max old v

/-! ### Floating point (R304) -/

/-- A format: S or D. -/
def rvFmt (w : Nat) : Option FloatFmt :=
  match bits w 26 25 with
  | 0 => some f32
  | 1 => some f64
  | _ => none

/-- A rounding mode by its code. -/
def rvRnd (n : Nat) : Option FRnd :=
  match n with
  | 0 => some .rne
  | 1 => some .rtz
  | 2 => some .rdn
  | 3 => some .rup
  | 4 => some .rmm
  | _ => none

/-- A single in a 64-bit register: a value that is not NaN-boxed is the canonical NaN. -/
def unbox (f : FloatFmt) (v : Nat) : Nat :=
  if f == f64 then v else if v / 2 ^ 32 == 2 ^ 32 - 1 then v % 2 ^ 32 else fNaN f32

/-- A value into a 64-bit register. -/
def nanBox (f : FloatFmt) (v : Nat) : Nat := if f == f64 then v else v % 2 ^ 32 + (2 ^ 32 - 1) * 2 ^ 32

def fSignalling (f : FloatFmt) (v : Nat) : Bool :=
  match fVal f v with
  | .nan q => q
  | _ => false

/-- FSGNJ, FSGNJN, FSGNJX. -/
def fSgnj (f : FloatFmt) (k a b : Nat) : Nat :=
  let n := match k with
    | 0 => fNeg f b
    | 1 => !fNeg f b
    | _ => fNeg f a != fNeg f b
  fAbs f a + b2n n * 2 ^ (f.eb + f.mb)

/-- FMIN and FMAX: a NaN operand gives the other, -0.0 is below +0.0. -/
def fMinMax (f : FloatFmt) (isMax : Bool) (a b : Nat) : FRes :=
  let nv := if fSignalling f a || fSignalling f b then 16 else 0
  let less := fLt f a b || (fEq f a b && fNeg f a && !fNeg f b)
  if fIsNaN f a && fIsNaN f b then ⟨fNaN f, nv⟩
  else if fIsNaN f a then ⟨b, nv⟩
  else if fIsNaN f b then ⟨a, nv⟩
  else ⟨if less != isMax then a else b, nv⟩

/-- FEQ, FLT, FLE: value and flags. -/
def fCmp (f : FloatFmt) (k a b : Nat) : Nat × Nat :=
  let nan := fIsNaN f a || fIsNaN f b
  match k with
  | 2 => (b2n (fEq f a b), if fSignalling f a || fSignalling f b then 16 else 0)
  | 1 => (b2n (fLt f a b), if nan then 16 else 0)
  | _ => (b2n (fLe f a b), if nan then 16 else 0)

/-- FCLASS. -/
def fClass (f : FloatFmt) (a : Nat) : Nat :=
  let n := fNeg f a
  if fIsNaN f a then (if fSignalling f a then 2 ^ 8 else 2 ^ 9)
  else if fIsInf f a then (if n then 2 ^ 0 else 2 ^ 7)
  else if fIsZero f a then (if n then 2 ^ 3 else 2 ^ 4)
  else if fExp f a == 0 then (if n then 2 ^ 2 else 2 ^ 5)
  else if n then 2 ^ 1 else 2 ^ 6

/-- The bounds of the integer of an FCVT by its rs2 code: W, WU, L, LU. -/
def cvtBounds (k : Nat) : Int × Int :=
  match k with
  | 0 => (-(2 ^ 31 : Nat), (2 ^ 31 - 1 : Nat))
  | 1 => (0, (2 ^ 32 - 1 : Nat))
  | 2 => (-(2 ^ 63 : Nat), (2 ^ 63 - 1 : Nat))
  | _ => (0, (2 ^ 64 - 1 : Nat))

/-- An integer register as the operand of an FCVT. -/
def cvtInt (k x : Nat) : Int :=
  match k with
  | 0 => sext 32 x
  | 1 => (x % 2 ^ 32 : Nat)
  | 2 => sgn x
  | _ => (x : Int)

/-- What an FP instruction writes: an integer register, an FP register with its format, and the flags raised. -/
inductive FpOut where
  | int (v flags : Nat)
  | fp (f : FloatFmt) (r : FRes)
deriving DecidableEq, Repr

/-- Fused operations (R304: rounded once); FMADD, FMSUB, FNMSUB, FNMADD by opcode. -/
def fmaOp (op : Nat) (f : FloatFmt) (rm : FRnd) (a b c : Nat) : FRes :=
  match op with
  | 0x43 => fFmaR f rm a b c false false
  | 0x47 => fFmaR f rm a b c false true
  | 0x4B => fFmaR f rm a b c true false
  | _ => fFmaR f rm a b c true true

/-- OP-FP: `xa` is the integer register rs1, `ra` and `rb` the FP registers rs1 and rs2, `rm` the rounding mode in force, if legal. -/
def fpOp (w xa ra rb : Nat) (rm : Option FRnd) : Option FpOut :=
  match rvFmt w with
  | none => none
  | some f =>
    let a := unbox f ra
    let b := unbox f rb
    let rs2 := rvRs2 w
    let f3 := rvF3 w
    match rvF7 w / 4 with
    | 0x00 => rm.map fun m => .fp f (fAddR f m a b)
    | 0x01 => rm.map fun m => .fp f (fSubR f m a b)
    | 0x02 => rm.map fun m => .fp f (fMulR f m a b)
    | 0x03 => rm.map fun m => .fp f (fDivR f m a b)
    | 0x0B => if rs2 == 0 then rm.map fun m => .fp f (fSqrtR f m a) else none
    | 0x04 => if f3 < 3 then some (.fp f ⟨fSgnj f f3 a b, 0⟩) else none
    | 0x05 => if f3 < 2 then some (.fp f (fMinMax f (f3 == 1) a b)) else none
    | 0x08 =>
      if f == f32 && rs2 == 1 then rm.map fun m => .fp f32 (fCvtR f64 f32 m ra)
      else if f == f64 && rs2 == 0 then rm.map fun m => .fp f64 (fCvtR f32 f64 m (unbox f32 ra))
      else none
    | 0x14 => if f3 < 3 then
        let c := fCmp f f3 a b
        some (.int c.1 c.2) else none
    | 0x18 => if rs2 < 4 then rm.map fun m =>
        let r := fToIntR f m (cvtBounds rs2).1 (cvtBounds rs2).2 a
        .int (if rs2 < 2 then w64 (ofInt 64 r.1) else ofInt 64 r.1) r.2 else none
    | 0x1A => if rs2 < 4 then rm.map fun m => .fp f (fOfIntR f m (cvtInt rs2 xa)) else none
    | 0x1C =>
      if rs2 != 0 then none
      else if f3 == 0 then some (.int (if f == f64 then ra else w64 ra) 0)
      else if f3 == 1 then some (.int (fClass f a) 0)
      else none
    | 0x1E => if rs2 == 0 && f3 == 0 then some (.fp f ⟨if f == f64 then xa else xa % 2 ^ 32, 0⟩) else none
    | _ => none

/-- Is an instruction a long operation (R317)? -/
def longOp (w : Nat) : Bool :=
  ((rvOp w == 0x33 || rvOp w == 0x3B) && rvF7 w == 1 && 4 ≤ rvF3 w) || (rvOp w == 0x53 && (rvF7 w / 4 == 3 || rvF7 w / 4 == 0x0B))

end Sys2Proof.Machine
end

