-- ==== Sys2Proof/Machine/Csr.lean ====
section
/-! DEFINITION. The CSRs of a core by number (9.9, 10.9, R339, R366): who may access them, what a read returns, what a write
leaves. -/

namespace Sys2Proof.Machine

/-- The least level that may access a CSR number; none: a number that does not exist (R366). Reserved numbers take the level of the
block that contains them (R339). -/
def csrMin (n : Nat) : Option Level :=
  if 0x001 ≤ n && n ≤ 0x003 then some .u
  else if 0x100 ≤ n && n ≤ 0x150 then some .s
  else if 0x180 ≤ n && n ≤ 0x18F then some .s
  else if 0x300 ≤ n && n ≤ 0x350 then some .e
  else if 0x5A0 ≤ n && n ≤ 0x5EF then some .s
  else if 0x800 ≤ n && n ≤ 0x80F then some .u
  else if 0xC00 ≤ n && n ≤ 0xC02 then some .u
  else if 0xCC0 ≤ n && n ≤ 0xCCF then some .u
  else if n == 0xDC2 || n == 0xDC3 then some .s
  else if 0xDC0 ≤ n && n ≤ 0xDCF then some .u
  else none

/-- The counters that U level reads only when the grove record sets PMC_USER (R306, R338). -/
def csrCounter (n : Nat) : Bool := n == 0xC00 || n == 0xC02 || (0xCC0 ≤ n && n ≤ 0xCCF)

/-- Does the grove of a core let U level read the counters? -/
def State.pmcUser (s : State) (c : Nat) : Bool :=
  match s.groveOfCore c with
  | some g => (s.grv g).cfg.pmcUser
  | none => false

/-- The reserved numbers among the read-only ones, whose writes are ignored (R339). -/
def csrIgnored (n : Nat) : Bool := 0xCC8 ≤ n && n ≤ 0xCCF

/-- Is an access of a CSR at the core's level legal (R306, R338, R366)? -/
def State.csrOk (s : State) (c n : Nat) (wr : Bool) : Bool :=
  (match csrMin n with
   | some l => levelNo l ≤ levelNo (s.level c)
   | none => false) &&
  !(wr && n / 0x400 == 3 && !csrIgnored n) &&
  !(csrCounter n && s.level c == .u && !s.pmcUser c)

/-- The remaining budget of the running real-time task (R100). -/
def State.rtBudget (s : State) (c : Nat) : Nat :=
  let k := s.core c
  if k.task.isSome then min (k.dispatch + k.budget - s.now) (2 ^ 32 - 1) else 0

/-- A counter's value, with the condition events counted up to now (R334). -/
def State.pmcRead (s : State) (c n : Nat) : Nat × State :=
  let s := s.pmcSync c
  (s.pcsr c (csrPmc n), s)

/-- What a read of a CSR returns. -/
def State.csrRead (s : State) (c n : Nat) : Nat × State :=
  let k := s.core c
  if n == 0x001 then (k.ctx.fcsr % 32, s)
  else if n == 0x002 then (bits k.ctx.fcsr 7 5, s)
  else if n == 0x003 then (k.ctx.fcsr % 256, s)
  else if n == csrPmcStat then
    let s := s.pmcSync c
    (s.pcsr c n, s)
  else if n == csrPmcCtl || (csrPmcEvt 0 ≤ n && n < csrPmcEvt 8) then (s.pcsr c n, s)
  else if csrPmc 0 ≤ n && n < csrPmc 8 then s.pmcRead c (n - csrPmc 0)
  else if 0xCC0 ≤ n && n < 0xCC8 then s.pmcRead c (n - 0xCC0)
  else if n == 0xC00 then (ofInt 64 ((s.clk : Int) - k.cycle.toNat), s)
  else if n == 0xC01 then (s.now % 2 ^ 64, s)
  else if n == 0xC02 then (k.instret.toNat, s)
  else if n == 0xDC0 then (k.ctxId.getD 0, s)
  else if n == 0xDC1 then (c + (s.groveOfCore c).getD 0 * 2 ^ 8 + (if s.topE c then 2 else 1) * 2 ^ 14, s)
  else if n == 0xDC2 then
    (match s.groveOfCore c with
     | some g => (s.grv g).cfg.ctxAddr (s.grv g).cfg.ctxFirst
     | none => 0, s)
  else if n == 0xDC3 then (s.rtBudget c, s)
  else (s.csr c n, s)

/-- A write of `fcsr` or a field of it; a reserved rounding mode is ignored with the whole write (R366). -/
def State.fcsrWrite (s : State) (c n v : Nat) : State :=
  let old := (s.core c).ctx.fcsr % 256
  let new := if n == 1 then old / 32 * 32 + v % 32 else if n == 2 then v % 8 * 32 + old % 32 else v % 256
  if 5 ≤ bits new 7 5 then s else s.modCtx c fun k => { k with fcsr := new }

/-- Is an event code defined (R335)? -/
def pmcEventOk (ev : Nat) : Bool := ev ≤ 0x15 || (0x20 ≤ ev && ev ≤ 0x24)

/-- What a write of a CSR leaves (9.9, 10.9, R339, R357, R366); the condition events so far count under the old selection. -/
def State.csrWrite (s : State) (c n v : Nat) : State :=
  if 1 ≤ n && n ≤ 3 then s.fcsrWrite c n v
  else if n == csrPredCtl then (s.setCsr c n (bits v 0 0)).iff (bitOf v 1) (·.flushPredictor c)
  else if n == csrPmcCtl then (s.pmcSync c).setPcsr c n (bits v 19 0)
  else if n == csrPmcStat then
    let s := s.pmcSync c
    s.setPcsr c n (s.pcsr c n - (s.pcsr c n &&& v))
  else if csrPmcEvt 0 ≤ n && n < csrPmcEvt 8 then
    (if !pmcEventOk (bits v 7 0) || (n % 2 == 0 && bitOf v 12) then s else (s.pmcSync c).setPcsr c n (bits v 13 0))
  else if csrPmc 0 ≤ n && n < csrPmc 8 then (s.pmcSync c).setPcsr c n (v % 2 ^ 32)
  else if !csrLegal n v then s
  else
    let s := if csrMask n != 0 then s.setCsr c n (v &&& csrMask n) else s
    if n == csrRotBase || n == csrRotCnt then s.modCore c fun k => { k with rlb := [], walked := [] } else s

/-- The value a CSR instruction writes, given what it reads. -/
def State.csrValue (s : State) (c w old : Nat) : Nat :=
  let src := if 4 ≤ rvF3 w then rvRs1 w else s.x c (rvRs1 w)
  match rvF3 w % 4 with
  | 1 => src
  | 2 => old ||| src
  | _ => old &&& notW src

/-- The row of a word on a core: a write of `PRED_CTL` that does not flush is an instruction like any other. -/
def State.rowOf (s : State) (c w : Nat) : RvRow :=
  match rvRow w with
  | .predFlush => if bitOf (s.csrValue c w (s.csr c csrPredCtl)) 1 then .predFlush else .other
  | r => r

end Sys2Proof.Machine
end

