-- ==== Sys2Proof/Machine/Translate.lean ====
section
/-! DEFINITION. Region translation and the checks of an access (R341, R342, R353-R364): the Region Registers, the Region Lookaside
Buffer, the walk of the Region Overflow Table, rights, alignment, paths and the firewall. -/

namespace Sys2Proof.Machine

/-- What an access of a core is for. -/
inductive AccKind where
  | fetch | load | store | lr | sc | amo
deriving DecidableEq, Repr

/-- LR counts as a load, SC and the AMO instructions as stores (R352). -/
def AccKind.isFetch : AccKind → Bool
  | .fetch => true
  | _ => false
def AccKind.isLoad : AccKind → Bool
  | .load => true
  | .lr => true
  | _ => false
def AccKind.atomic : AccKind → Bool
  | .lr => true
  | .sc => true
  | .amo => true
  | _ => false

/-- CODE of an access fault, a Walk Fault, a misaligned access (R352). -/
def AccKind.faultCode (k : AccKind) : Nat := if k.isFetch then 0x01 else if k.isLoad then 0x05 else 0x07
def AccKind.walkCode (k : AccKind) : Nat := if k.isFetch then 0x0C else if k.isLoad then 0x0D else 0x0F
def AccKind.misCode (k : AccKind) : Nat := if k.isLoad then 0x04 else 0x06

/-- Number of a walk's purpose, and its Walk Fault code. -/
def AccKind.walkKind (k : AccKind) : Nat := if k.isFetch then 0 else if k.isLoad then 1 else 2
def walkFaultCode (k : Nat) : Nat := if k == 0 then 0x0C else if k == 1 then 0x0D else 0x0F

/-- What the firewall checks an access as (R285). -/
def AccKind.fw : AccKind → FwKind
  | .fetch => .fetch
  | .load => .read
  | .lr => .read
  | .store => .write
  | .sc => .write
  | .amo => .atomic

/-- Do a region's rights suffice: bits 1 R, 2 W, 3 X of its attributes; LR and SC are atomics, which need R and W (R305, R353)? -/
def rightsOk (k : AccKind) (attr : Nat) : Bool :=
  match k with
  | .fetch => bitOf attr 3
  | .load => bitOf attr 1
  | .store => bitOf attr 2
  | .lr => bitOf attr 1 && bitOf attr 2
  | .sc => bitOf attr 1 && bitOf attr 2
  | .amo => bitOf attr 1 && bitOf attr 2

/-- An access, or half of one, that has passed its checks: where it goes, device-ordered or not, cacheable or not, its service
class. -/
structure Phys where
  pa  : Nat
  dev : Bool
  nc  : Bool
  rt  : Bool
deriving DecidableEq, Repr

/-- The outcome of the checks of one access or half. -/
inductive Chk where
  | ok (p : Phys)
  | trap (code synd tval : Nat)
  | walk (va kind : Nat)
deriving DecidableEq, Repr

/-! ### Region selection (R355, R356, R359, R363) -/

/-- Does Region Register n contain an address? The physical address and the attributes, in the places of a table entry's. -/
def State.regionHit (s : State) (c n va : Nat) : Option (Nat × Nat) :=
  let cfg := s.csr c (csrRgnCfg n)
  let l := bits cfg 17 12
  if bitOf cfg 0 && 12 ≤ l && l ≤ 40 && va / 2 ^ l == s.csr c (csrRgnBase n) / 2 ^ l
  then some (bits cfg 51 24 * 4096 / 2 ^ l * 2 ^ l + va % 2 ^ l, cfg % 512) else none

/-- An entry that contains an address translates it. -/
def RlbEntry.hit (e : RlbEntry) (va : Nat) : Bool := e.vbase ≤ va && va < e.vbase + 4096 * e.pages
def RlbEntry.pa (e : RlbEntry) (va : Nat) : Nat := e.pbase + (va - e.vbase)

/-- Region selection: address and attributes, no region, or a walk that is needed. -/
inductive Look where
  | hit (pa attr : Nat)
  | none
  | walk
deriving DecidableEq, Repr

/-- The lowest-numbered Region Register that contains the address, then the RLB, then the table. -/
def State.look (s : State) (c va : Nat) : Look :=
  match (List.range 16).findSome? fun n => s.regionHit c n va with
  | some (pa, attr) => .hit pa attr
  | none =>
    let k := s.core c
    match k.rlb.find? (·.hit va) with
    | some e => .hit (e.pa va) e.attr
    | none =>
      match k.walked.find? (·.va == va) with
      | some w => match w.entry with
        | some e => .hit (e.pa va) e.attr
        | none => .none
      | none => if s.csr c csrRotCnt == 0 then .none else .walk

/-! ### Checks (R356) -/

/-- Checks 4 to 6 of an access of `n` bytes whose physical address is known: misalignment and atomics, paths and fetch targets, the
firewall. -/
def State.checkPhys (s : State) (c : CoreId) (k : AccKind) (va n va0 : Nat) (mis : Bool) (pa type : Nat) (rt : Bool) : Chk × State :=
  let target := targetOf pa
  let dev := type == 2 || (target != .gddr && target != .hole)
  if mis && (dev || k.atomic) then (.trap k.misCode (if k.atomic then 2 else 1) va0, s)
  else if k.atomic && (type != 0 || target != .gddr) then (.trap k.faultCode 7 va, s)
  else if !pathOpen s (.core c) pa || (k.isFetch && (target != .gddr || type == 2)) then (.trap k.faultCode 5 va, s)
  else
    let p : Phys := { pa := pa, dev := dev, nc := type == 1, rt := rt }
    if s.level c.val == .e then (.ok p, s)
    else match s.groveOfCore c.val with
      | none => (.ok p, s)
      | some g =>
        let (pass, s) := s.fwCheck g k.fw reqCore pa n
        (if pass then .ok p else .trap k.faultCode 6 va, s)

/-- Is the core at a level whose accesses are not translated (R341)? -/
def State.bare (s : State) (c : Nat) : Bool :=
  match s.level c with
  | .e => true
  | .s => bitOf (s.csr c (hStatus .s)) 4
  | .u => false

/-- The checks of an access, or of half of one, in their order; `va0` is the access's first byte, `mis` says it is misaligned. -/
def State.check (s : State) (c : CoreId) (k : AccKind) (va n va0 : Nat) (mis : Bool) : Chk × State :=
  if s.bare c.val then
    if 2 ^ 40 ≤ va then (.trap k.faultCode 4 va, s)
    else s.checkPhys c k va n va0 mis va (if targetOf va == .gddr then 0 else 2) false
  else if 2 ^ 48 ≤ va then (.trap k.faultCode 4 va, s)
  else match s.look c.val va with
    | .none => (.trap k.faultCode 1 va, s)
    | .walk => (.walk va k.walkKind, s)
    | .hit pa attr =>
      if !bitOf attr 0 then (.trap k.faultCode 1 va, s)
      else if !bitOf attr (if s.level c.val == .u then 4 else 5) then (.trap k.faultCode 3 va, s)
      else if !rightsOk k attr then (.trap k.faultCode 2 va, s)
      else s.checkPhys c k va n va0 mis pa (bits attr 7 6) (bitOf attr 8)

/-- The halves of an access of `n` bytes: one part within a line, two where it crosses a line (R323). -/
def halves (va n : Nat) : List (Nat × Nat) :=
  if va % 64 + n ≤ 64 then [(va, n)] else [(va, 64 - va % 64), ((va / 64 + 1) * 64 % 2 ^ 64, n - (64 - va % 64))]

/-- What the checks of a whole access give (R324): every part's physical place, or the first trap, or a walk. -/
inductive Checked where
  | ok (ps : List (Phys × Nat))
  | trap (code synd tval : Nat)
  | walk (va kind : Nat)
deriving DecidableEq, Repr

/-- Every part is checked before any is performed. -/
def State.checkParts (c : CoreId) (k : AccKind) (va0 : Nat) (mis : Bool) : List (Nat × Nat) → State → Checked × State
  | [], s => (.ok [], s)
  | (va, n) :: t, s =>
    match s.check c k va n va0 mis with
    | (.trap a b v, s) => (.trap a b v, s)
    | (.walk va kind, s) => (.walk va kind, s)
    | (.ok p, s) =>
      match State.checkParts c k va0 mis t s with
      | (.ok ps, s) => (.ok ((p, n) :: ps), s)
      | (r, s) => (r, s)

def State.checkAll (s : State) (c : CoreId) (k : AccKind) (va n : Nat) : Checked × State :=
  State.checkParts c k va (va % n != 0) (halves va n) s

/-! ### The walk (R359-R362) -/

/-- The next probe of a walk from a step on: the first k below the number of lines. -/
def nextStep (lines b : Nat) : Nat → Nat → Option Nat
  | 0, _ => none
  | fuel + 1, step =>
    if step == 0 then none else if b + step - 1 < lines then some step else nextStep lines b fuel (step / 2)

/-- A walk begins, unless one for the same address runs (R361); a table of no entry has been ruled out. -/
def State.walkBegin (s : State) (c va kind : Nat) : State :=
  match (s.core c).walk with
  | some w => if w.va == va then s else s.modCore c fun k => { k with walk := some { va := va, kind := kind, step := 2048, b := 0, line := [] } }
  | none => s.modCore c fun k => { k with walk := some { va := va, kind := kind, step := 2048, b := 0, line := [] } }

/-- Is an entry's reserved part 0, and does its range end in the address space (R354 KIND 5)? -/
def rotEntryOk (e : List Byte) : Bool :=
  let vb := fieldB e 0 8
  let pb := fieldB e 8 8
  bits vb 11 0 == 0 && bits vb 63 48 == 0 && bits pb 11 0 == 0 && bits pb 63 40 == 0 &&
    bits (fieldB e 0x14 2) 15 9 == 0 && zeroB e 0x16 10 && pb + 4096 * fieldB e 0x10 4 ≤ 2 ^ 40

/-- The entry of a table line as the RLB holds it. -/
def rotEntry (e : List Byte) : RlbEntry :=
  { vbase := fieldB e 0 8, pbase := fieldB e 8 8, pages := fieldB e 0x10 4, attr := fieldB e 0x14 2 % 512 }

/-- A reserved TYPE of an entry acts as a type of free choice (log 5). -/
def State.entryType (s : State) (e : RlbEntry) : RlbEntry × State :=
  if bits e.attr 7 6 == 3 then ({ e with attr := setBits e.attr 7 6 (s.free.toNat % 3) }, s.drawn) else (e, s)

/-- The end of a walk: the entry that contains the address, none, or the Walk Fault of KIND 5 (R360, R362). -/
def State.walkEnd (s : State) (c : Nat) (w : Walk) : State :=
  let found (e : Option RlbEntry) (s : State) : State := s.modCore c fun k => { k with
    walk := none, walked := { va := w.va, fetch := w.kind == 0, entry := e } :: k.walked }
  if w.b == 0 then found none s
  else
    let n := s.csr c csrRotCnt
    let e0 := sliceB w.line 0 32
    let e1 := sliceB w.line 32 32
    let e := if 2 * (w.b - 1) + 1 < n && fieldB e1 0 8 ≤ w.va then e1 else e0
    if !(rotEntry e).hit w.va then found none s
    else if !rotEntryOk e then s.trap c (walkFaultCode w.kind) (5 + (w.b - 1) * 16) w.va
    else
      let (x, s) := s.entryType (rotEntry e)
      found (some x) s

/-- What a probe gives: its line; nothing yet, as an open transaction blocks it (R383); the KIND of its failure (R354). -/
inductive Probe where
  | line (bs : List Byte)
  | wait
  | fail (kind : Nat)
deriving DecidableEq, Repr

/-- A probe of the table: a coherent read, of a service class of free choice, as no region gives it one (R358, R360, R371; log 5). -/
def State.probeCheck (s : State) (c : CoreId) (a : Nat) (f : MemFault) (rt : Bool) : Probe × State :=
  if !pathOpen s (.core c) a then (.fail 2, s)
  else if targetOf a != .gddr then (.fail 1, s)
  else if s.blocked (a / 64) then (.wait, s)
  else
    let (pass, s) := if s.level c.val == .e then (true, s) else match s.groveOfCore c.val with
      | some g => s.fwCheck g .read reqCore a 64
      | none => (true, s)
    if !pass then (.fail 3, s)
    else match (s.memFault none a f).memRead c.val a 64 rt with
      | (.ok bs, s) => (.line bs, s)
      | (.wait, s) => (.wait, s)
      | (_, s) => (.fail 4, s)

/-- A probe returns, of service class `rt`: the walk goes on, ends or faults. -/
def State.probeReturn (s : State) (c : CoreId) (f : MemFault) (rt : Bool) : State :=
  match (s.core c.val).walk with
  | none => s
  | some w =>
    let lines := ceilDiv (s.csr c.val csrRotCnt) 2
    match nextStep lines w.b 13 w.step with
    | none => s.walkEnd c.val w
    | some step =>
      let k := w.b + step - 1
      let a := s.csr c.val csrRotBase + 64 * k
      match s.probeCheck c a f rt with
      | (.fail kind, s) => s.trap c.val (walkFaultCode w.kind) (kind + k * 16) w.va
      | (.wait, s) => s
      | (.line line, s) =>
        let w := if fieldB line 0 8 ≤ w.va then { w with b := w.b + step, line := line } else w
        let w := { w with step := step / 2 }
        match nextStep lines w.b 13 w.step with
        | none => s.walkEnd c.val w
        | some _ => s.modCore c.val fun x => { x with walk := some w }

/-- A probe returns; its service class is a free value (log 5). -/
def State.walkProbe (s : State) (c : CoreId) (f : MemFault) : State := s.drawn.probeReturn c f (bitOf s.free.toNat 0)

end Sys2Proof.Machine
end

