-- ==== Sys2Proof/Machine/Cores.lean ====
section
/-! DEFINITION. What a core does with an instruction (9.1-9.9, 10.1-10.7, 11.4-11.6): the fetch checks, loads, the store buffer,
atomics, fences, the custom instructions, CSR instructions, and every other instruction. The environment presents the instruction
that stands at the core's PC; an instruction that has to wait changes nothing architectural and is presented again (log 34). -/

namespace Sys2Proof.Machine

/-- An instruction: its bits, the 32-bit word it stands for, its length. -/
structure Insn where
  raw  : Nat
  word : Nat
  len  : Nat
deriving DecidableEq, Repr

/-- What came of an instruction: it retired, with its PC; it waits; it traps. -/
inductive Ran where
  | done (s : State)
  | wait (s : State)
  | trap (s : State) (code synd tval : Nat)

/-- Illegal instruction (card "Illegal instruction"). -/
def illegal (s : State) (i : Insn) : Ran := .trap s 0x02 0 i.raw

/-- Can a core go on to its next instruction: nothing of the last is in progress? -/
def State.ready (s : State) (c : Nat) : Bool :=
  let k := s.core c
  s.runs c && k.fwait.isNone && k.fence.isNone && k.far.isNone && k.sb.all (·.len == 0)

/-- Events of one kind count once per instruction (R323, R335). -/
def onceEach (evs : List Nat) : List Nat := nub evs

/-! ### Misses and their events -/

/-- The events of an access to a cacheable line (R335): it misses L1, L2, L3. -/
def State.missEvents (s : State) (c line : Nat) (fetch : Bool) : List Nat :=
  if (if fetch then (s.core c).l1i.contains line else (s.l1dState c line).isSome) then []
  else (if fetch then 0x08 else 0x07) :: (if (s.l2State (clusterOf c) line).isSome then []
    else 0x09 :: (if s.inL3 line then [] else [0x0A]))

/-- Is a line at hand for an access of L1's kind: in L1 or the shadow buffer, or, of non-cacheable memory, fetched? -/
def State.atHand (s : State) (c line : Nat) (kind : MissKind) : Bool :=
  let k := s.core c
  match kind with
  | .data => (s.l1dState c line).isSome || k.shadow.contains line
  | .fetch => k.l1i.contains line || k.shadow.contains line
  | .spec => k.shadow.contains line
  | .nc => k.fetchBuf.contains line

/-- The misses of some lines that are neither at hand nor on their way. -/
def State.newMisses (s : State) (c : Nat) (ms : List Miss) : List Miss :=
  ms.filter fun m => !s.atHand c m.line m.kind && !(s.core c).misses.contains m

/-- Misses go out; each is a transaction of the core until it is filled (R30). -/
def State.missesBegin (s : State) (c : Nat) (ms : List Miss) : State :=
  if ms.isEmpty then s
  else (s.transCount c ms.length).modCore c fun k => { k with misses := k.misses ++ ms }

/-- The lines among some that the instruction in progress takes from the shadow buffer, to be promoted when it retires (R328). -/
def State.useShadow (s : State) (c : Nat) (lines : List Nat) (fetch : Bool) : State :=
  let taken := (lines.filter fun l => (s.core c).shadow.contains l).map fun l => (l, fetch)
  s.modCore c fun k => { k with used := if fetch then taken else k.used ++ taken }

/-! ### Fetch (R342, R356) -/

/-- What the fetch of an instruction gives: it is performed; it waits; it traps. -/
inductive Fetched where
  | ok (s : State)
  | wait (s : State)
  | trap (s : State) (code synd tval : Nat)

/-- The miss of a part of a fetch. -/
def fetchMiss (p : Phys) : Miss := { line := p.pa / 64, kind := if p.nc then .nc else .fetch, rt := p.rt }

/-- The lines of a fetch: at hand; failed where GDDR7 is read for them, an access fault (R399); on their way, with the events that the
instruction will count at its retirement. -/
def State.fetchLines (s : State) (c va : Nat) (ps : List (Phys × Nat)) : Fetched :=
  let ms := (ps.map fun e => fetchMiss e.1).eraseDups
  let away := ms.filter fun m => !s.atHand c m.line m.kind
  match away.find? fun m => s.fails m.line with
  | some m => .trap (s.meetFailed m.line false) 0x01 9 va
  | none =>
    let evs := ((ms.filter (·.kind == .fetch)).flatMap fun m => s.missEvents c m.line true)
    let s := s.modCore c fun k => { k with fetchEvs := onceEach (k.fetchEvs ++ evs) }
    if away.isEmpty then .ok (s.useShadow c ((ms.filter (·.kind == .fetch)).map (·.line)) true)
    else
      let fresh := s.newMisses c ms
      match s.transTake c fresh.length with
      | (false, s) => .wait s
      | (true, s) => .wait (s.missesBegin c fresh)

/-- The fetch of the instruction at the PC; every trap reports the address of the fetch. -/
def State.fetch (s : State) (c : CoreId) (len : Nat) : Fetched :=
  let pc := s.pc c.val
  let parts := if pc % 64 + len ≤ 64 then [(pc, len)] else [(pc, 2), ((pc + 2) % 2 ^ 64, 2)]
  match State.checkParts c .fetch pc false parts s with
  | (.trap code synd _, s) => .trap s code synd pc
  | (.walk va k, s) => .wait (s.walkBegin c.val va k)
  | (.ok ps, s) => s.fetchLines c.val pc ps

/-- An exception of the instruction presented at state `s`; an interrupt that is deliverable at the same boundary is taken in its place,
from the state before the instruction (R351). -/
def State.except (s : State) (c : Nat) (t : State) (code synd tval : Nat) : State :=
  match s.offerOf c with
  | some src => (s.takeInterrupt c src).settle
  | none => (t.trap c code synd tval).settle

/-- One instruction of a row: fetched, performed by `f`, retired, waiting or trapping; what it does may wake cores that wait (R311). -/
def State.coreInsn (s : State) (c : CoreId) (insn : Nat) (row : RvRow) (f : State → Insn → Ran) : State :=
  if !s.ready c.val then s
  else
    let i : Insn := { raw := rvBits insn, word := (rvWord insn).getD 0, len := rvLen insn }
    if s.rowOf c.val i.word != row then s
    else
      match s.fetch c i.len with
      | .wait t => t
      | .trap t code synd tval => s.except c.val t code synd tval
      | .ok t =>
        match f t i with
        | .done t => t.settle
        | .wait t => t
        | .trap t code synd tval => s.except c.val t code synd tval

/-! ### Loads (R321, R323-R327) -/

/-- The store-buffer entries that overlap bytes of memory, youngest first. -/
def State.sbOver (s : State) (c pa n : Nat) : List StoreEntry :=
  ((s.core c).sb.filter fun e => e.addr < pa + n && pa < e.addr + e.size).reverse

/-- Where a load's bytes come from: memory, the youngest older store, or neither yet (R321). -/
inductive Source where
  | mem
  | fwd (bs : List Byte)
  | partly
deriving DecidableEq, Repr

def State.loadSource (s : State) (c : Nat) (p : Phys) (n : Nat) : Source :=
  match s.sbOver c p.pa n with
  | [] => .mem
  | e :: _ =>
    if !e.dev && e.addr ≤ p.pa && p.pa + n ≤ e.addr + e.size then .fwd (sliceB (leBytes e.size e.v.toNat) (p.pa - e.addr) n)
    else .partly

/-- A device-ordered read of a core at its target (R35, R379). -/
def State.devRead (s : State) (c : CoreId) (a n : Nat) (rt : Bool) : MemRes × State :=
  if targetOf a == .window then
    match s.windowRead (.core c) (a - winBase) n with
    | (some v, s) => (.ok (leBytes n v), s)
    | (none, s) => (.bus, s)
  else s.memRead c.val a n rt

/-- What the reading of a load's parts gives: bytes and events, a wait, a wait on a partial overlap, a fault at a byte offset. -/
inductive LoadRes where
  | ok (bs : List Byte) (evs : List Nat)
  | wait
  | partly
  | fault (synd off : Nat)
deriving DecidableEq, Repr

/-- Does a core read a line without the home: from L1D, the shadow buffer, its cluster's L2? -/
def State.hits (s : State) (c line : Nat) : Bool := s.atHand c line .data || (s.l2State (clusterOf c) line).isSome

/-- The read of a part in normal memory: from a cache, or at the home. -/
def State.partRead (s : State) (c : Nat) (p : Phys) (n : Nat) : MemRes × State :=
  if !p.nc && s.hits c (p.pa / 64) then (.ok (s.rdB p.pa n), s) else s.memRead c p.pa n p.rt

/-- Does a part wait for an open transaction of its line at the home (R383)? -/
def State.partBlocked (s : State) (c : Nat) (e : Phys × Nat) : Bool :=
  s.loadSource c e.1 e.2 == .mem && s.blocked (e.1.pa / 64) && !(!e.1.nc && s.hits c (e.1.pa / 64))

/-- Read the parts of a load in normal memory, in order; `off` is the offset of the next part. -/
def State.readParts (c : Nat) (f : MemFault) : List (Phys × Nat) → Nat → State → LoadRes × State
  | [], _, s => (.ok [] [], s)
  | (p, n) :: t, off, s =>
    let line := p.pa / 64
    match s.loadSource c p n with
    | .partly => (.partly, s)
    | .fwd bs =>
      match State.readParts c f t (off + n) s with
      | (.ok bs' evs, s) => (.ok (bs ++ bs') (0x0B :: evs), s)
      | (r, s) => (r, s)
    | .mem =>
      let evs' := if p.nc then [] else s.missEvents c line false
      match (s.memFault (some c) p.pa f).partRead c p n with
      | (.ok bs, s) =>
        match State.readParts c f t (off + n) s with
        | (.ok bs' evs, s) => (.ok (bs ++ bs') (evs' ++ evs), s)
        | (r, s) => (r, s)
      | (.bus, s) => (.fault 8 off, s)
      | (.dataError, s) => (.fault 9 off, s)
      | (.wait, s) => (.wait, s)

/-- A device-ordered load waits until every older store has drained (R321); once its target holds it, it is issued and completes before
any interrupt (R319). -/
def State.devLoad (s : State) (c : CoreId) (f : MemFault) (p : Phys) (n : Nat) : LoadRes × State :=
  if !(s.core c.val).sb.isEmpty then (.wait, s)
  else match (s.memFault (some c.val) p.pa f).devRead c p.pa n p.rt with
    | (.ok bs, s) => (.ok bs [], s)
    | (.bus, s) => (.fault 8 0, s)
    | (.dataError, s) => (.fault 9 0, s)
    | (.wait, s) => (.wait, if targetOf p.pa == .pcie then s else s.modCore c.val fun k => { k with issued := true })

/-- The misses that the parts of a load in cacheable memory send out: of those that no older store forwards. -/
def State.loadMisses (s : State) (c : Nat) (ps : List (Phys × Nat)) : List Miss :=
  ((ps.filter fun e => !e.1.nc && s.loadSource c e.1 e.2 == .mem && targetOf e.1.pa == .gddr).map fun e =>
    ({ line := e.1.pa / 64, kind := .data, rt := e.1.rt } : Miss)).eraseDups

/-- The bytes of a load by its parts. One that reads goes through with all its effects on caches; one that waits or fails leaves the caches
as they are (R329). -/
def State.loadBytes (s : State) (c : CoreId) (f : MemFault) (ps : List (Phys × Nat)) : LoadRes × State :=
  match ps.find? (·.1.dev) with
  | some (p, n) => s.devLoad c f p n
  | none =>
    if ps.any fun e => s.loadSource c.val e.1 e.2 == .partly then (.partly, s)
    else if ps.any (s.partBlocked c.val) then (.wait, s)
    else
      let ms := s.loadMisses c.val ps
      let fresh := s.newMisses c.val ms
      match s.transTake c.val fresh.length with
      | (false, s) => (.wait, s)
      | (true, s) =>
        match State.readParts c.val f ps 0 s with
        | (.ok bs evs, s) => (.ok bs evs, (s.useShadow c.val (ms.map (·.line)) false).missesBegin c.val fresh)
        | r => r

/-- The value a load leaves in its register, by opcode and funct3. -/
def loadValue (op f3 v : Nat) : Nat :=
  if op == 0x07 then (if f3 == 2 then nanBox f32 v else v)
  else match f3 with
    | 0 => ofInt 64 (sext 8 v)
    | 1 => ofInt 64 (sext 16 v)
    | 2 => w64 v
    | _ => v

/-- The events of the re-executions that the load which is now the oldest instruction has gone through (R322, R335). -/
def CoreSt.replayed (k : CoreSt) : List Nat :=
  match k.lq.find? fun e => e.age == k.instret.toNat with
  | some e => List.replicate e.replays 0x13
  | none => []

/-- A load: its address is rs1 plus the immediate; its data goes to rd. -/
def State.load (s : State) (c : CoreId) (f : MemFault) (i : Insn) : Ran :=
  let w := i.word
  let n := 2 ^ (rvF3 w % 4)
  let va := addOfs (s.x c.val (rvRs1 w)) (immI w)
  match s.checkAll c .load va n with
  | (.trap a b v, s) => .trap s a b v
  | (.walk a k, s) => .wait (s.walkBegin c.val a k)
  | (.ok ps, s) =>
    match s.loadBytes c f ps with
    | (.wait, s) => .wait s
    | (.partly, s) => .wait (s.modCore c.val fun k => { k with partialWait := true })
    | (.fault synd off, s) => .trap s 0x05 synd (va + off)
    | (.ok bs evs, s) =>
      let v := loadValue (rvOp w) (rvF3 w) (leNat bs)
      let evs := 0x05 :: onceEach evs ++ (if (s.core c.val).partialWait then [0x0C] else []) ++ (if 1 < ps.length then [0x0D] else []) ++
        (s.core c.val).replayed
      let lv := s.level c.val
      let s := s.modCore c.val fun k => { k with prefetch := ps.foldl (fun t e => Config.prefetchTrain t (e.1.pa / 64)) k.prefetch }
      let s := if rvOp w == 0x07 then s.setFr c.val (rvRd w) v else s.setX c.val (rvRd w) v
      .done ((s.retire c.val i.len).events c.val lv evs)

/-- A load executes ahead of its turn (R322, R327, R328): it takes its place in the load queue, and has executed when its bytes are at
hand; a line that its cluster's L2 holds is on its way to the shadow buffer, any other awaits a ReadSpec. One that is not to be performed
speculatively, would fault or needs a walk is dropped silently. -/
def State.earlyLoad (s : State) (c : CoreId) (insn : Nat) (e : EarlyAccess) : State :=
  let w := (rvWord insn).getD 0
  let k := s.core c.val
  let age := k.instret.toNat + e.beyond.val + 1
  let others := k.lq.filter fun o => o.age != age
  if !s.runs c.val || k.fwait.isSome || s.rowOf c.val w != .load || 64 ≤ others.length then s
  else match s.checkAll c .load e.va.toNat (2 ^ (rvF3 w % 4)) with
    | (.ok ps, t) =>
      if ps.any (·.1.dev) then s
      else
        let ms := t.loadMisses c.val ps
        let near := (ms.map fun m => { m with kind := .spec }).filter fun m =>
          !t.atHand c.val m.line .data && (t.l2State (clusterOf c.val) m.line).isSome
        let ran := (ms.all fun m => t.atHand c.val m.line .data) && !ps.any fun p => t.loadSource c.val p.1 p.2 == .partly
        let was := match k.lq.find? fun o => o.age == age with
          | some o => o.replays
          | none => 0
        let entry : EarlyLoad := { age := age, parts := ps.map fun p => (p.1.pa, p.2), ran := ran, replays := was }
        t.modCore c.val fun k => { k with
          lq := isort (·.age) (entry :: others)
          misses := k.misses ++ near.filter fun m => !k.misses.contains m }
    | _ => s

/-- A core's request for a line reaches the home, unless its cluster holds what it asks for: the line, or its ownership. -/
def State.obtain (s : State) (c line : Nat) (rt own : Bool) : Bool × State :=
  if (if own then s.clOwns (clusterOf c) line else (s.l2State (clusterOf c) line).isSome) then (true, s) else s.ask c line rt

/-- May a miss be filled now? A full shadow buffer or a blocked line at the home keeps one waiting, but no other (R328). -/
def State.canFill (s : State) (c : Nat) (m : Miss) : Bool :=
  match m.kind with
  | .spec => (s.core c).shadow.length < 16
  | .nc => !s.blocked m.line
  | _ => (s.l2State (clusterOf c) m.line).isSome || !s.blocked m.line

/-- A miss leaves the core's list. -/
def State.missDone (s : State) (c : CoreId) (m : Miss) : State :=
  let s := s.modCore c.val fun k => { k with misses := k.misses.erase m }
  if m.kind == .spec then s else s.transEnd (.core c)

/-- The data of the oldest outstanding miss that can be served arrives: it fills L1 or the shadow buffer; a failed line enters nothing
(R328, R369, R399). The data of a load has met the error logic at the load, that of a speculative read at its home. -/
def State.missFill (s : State) (c : CoreId) (f : MemFault) : State :=
  match (s.core c.val).misses.find? (s.canFill c.val) with
  | none => s
  | some m =>
    match m.kind with
    | .spec => (s.missDone c m).modCore c.val fun k => { k with shadow := m.line :: k.shadow.filter (· != m.line) }
    | .nc =>
      let s := ((s.missDone c m).rtTouch m.line m.rt).memFault (some c.val) (64 * m.line) f
      if s.fails m.line then s else s.modCore c.val fun k => { k with fetchBuf := m.line :: k.fetchBuf }
    | kind =>
      match s.obtain c.val m.line m.rt false with
      | (false, s) => s
      | (true, s) =>
        let s := s.missDone c m
        let s := if kind == .fetch then (s.rtTouch m.line m.rt).memFault (some c.val) (64 * m.line) f else s
        if s.fails m.line then s.asked c.val m.line else s.shareLine c.val m.line m.rt (kind == .fetch)

/-! ### Stores and the store buffer (R320, R379, R400) -/

/-- The store-buffer entries of a store's parts. -/
def storeEntries : List (Phys × Nat) → Nat → List StoreEntry
  | [], _ => []
  | (p, n) :: t, v =>
    { addr := p.pa, size := n, v := BitVec.ofNat 64 (v % 2 ^ (8 * n)), dev := p.dev, nc := p.nc, rt := p.rt } :: storeEntries t (v / 2 ^ (8 * n))

/-- A younger load has executed on bytes that a store now proves to write: it is re-executed, with every younger one (R322). -/
def State.replayOver (s : State) (c : Nat) (ps : List (Phys × Nat)) : State :=
  let hit (e : EarlyLoad) : Bool := e.ran && (s.core c).instret.toNat < e.age && e.parts.any fun o =>
    ps.any fun p => o.1 < p.1.pa + p.2 && p.1.pa < o.1 + o.2
  match (s.core c).lq.find? hit with
  | some e => s.modCore c fun k => { k with lq := replayFrom e.age k.lq }
  | none => s

/-- A store takes its entries. One to memory of normal type retires; a device-ordered one stays the oldest instruction until its
drain, which reports errors precisely (R319, R320, R400). -/
def State.storeInsn (s : State) (c : CoreId) (i : Insn) : Ran :=
  let w := i.word
  let n := 2 ^ (rvF3 w % 4)
  let va := addOfs (s.x c.val (rvRs1 w)) (immS w)
  let v := if rvOp w == 0x27 then s.fr c.val (rvRs2 w) else s.x c.val (rvRs2 w)
  match s.checkAll c .store va n with
  | (.trap a b v, s) => .trap s a b v
  | (.walk a k, s) => .wait (s.walkBegin c.val a k)
  | (.ok ps, s) =>
    let es := storeEntries ps v
    if 48 < (s.core c.val).sb.length + es.length then .wait s
    else if es.any (·.dev) then
      .wait (s.modCore c.val fun k => { k with sb := k.sb ++ es.map fun e => { e with va := va, len := i.len } })
    else
      let miss := (ps.filter fun e => !e.1.nc).flatMap fun e => s.missEvents c.val (e.1.pa / 64) false
      let evs := 0x06 :: onceEach miss ++ (if 1 < ps.length then [0x0D] else [])
      let lv := s.level c.val
      let s := (s.replayOver c.val ps).modCore c.val fun k => { k with sb := k.sb ++ es }
      .done ((s.retire c.val i.len).events c.val lv evs)

/-- A cached store is discarded at a failed line, with no trap (R400). -/
def State.storeLost (s : State) (a : Nat) : State :=
  ((s.inc Fd.HWD_MEM_STORE_LOST_CNT.COUNT).memErr a 4 0xF 0 false).memRaise Fd.HWD_MEM_STAT.STORE_LOST

/-- The oldest entry leaves the store buffer. -/
def State.sbPop (s : State) (c : Nat) : State := s.modCore c fun k => { k with sb := k.sb.drop 1 }

/-- A device-ordered write of a core at its target. -/
def State.devWrite (s : State) (c : CoreId) (a n v : Nat) (rt : Bool) : MemRes × State :=
  if targetOf a == .window then
    match s.windowWrite (.core c) (a - winBase) n v with
    | some s => (.ok [], s)
    | none => (.bus, s)
  else s.memWrite (.core c) a n v rt

/-- A device-ordered store is performed and retires, or traps; a write that takes the core's context away leaves nothing to
retire, nor does one that a stopped grove had issued. A store that its target holds has been issued: it completes before any interrupt
(R319). -/
def State.devDrain (s : State) (c : CoreId) (e : StoreEntry) : State :=
  let id := (s.core c.val).ctxId
  let lv := s.level c.val
  let failed (s : State) (synd : Nat) : State :=
    let s := s.sbPop c.val
    if e.len == 0 then s else (s.trap c.val 0x07 synd e.va).settle
  match s.devWrite c e.addr e.size e.v.toNat e.rt with
  | (.ok _, s) =>
    let s := s.sbPop c.val
    if e.len != 0 && (s.core c.val).ctxId == id && id.isSome then ((s.retire c.val e.len).events c.val lv [0x06]).settle else s
  | (.bus, s) => failed s 8
  | (.dataError, s) => failed s 9
  | (.wait, s) => if e.len == 0 then s else s.modCore c.val fun k => { k with issued := true }

/-- The oldest store drains: to L1 once its line is writable there, to the home, or to the fabric (R320). -/
def State.storeDrain (s : State) (c : CoreId) (f : MemFault) : State :=
  match (s.core c.val).sb with
  | [] => s
  | e :: _ =>
    let line := e.addr / 64
    if e.dev then s.devDrain c e
    else if e.nc then
      if s.blocked line then s
      else (((s.memFault none e.addr f).memWrite (.core c) e.addr e.size e.v.toNat e.rt).2).sbPop c.val
    else match s.obtain c.val line e.rt true with
      | (false, s) => s
      | (true, s) =>
        let s := (s.rtTouch line e.rt).memFault (some c.val) e.addr f
        if s.fails line then ((s.asked c.val line).storeLost e.addr).sbPop c.val
        else ((s.takeLine c.val line e.rt .m).wr e.addr e.size e.v.toNat).sbPop c.val

/-! ### Atomics (R305, R387-R389) -/

/-- The place of an atomic: checks passed, the older stores it must follow drained, its line to be had. -/
def State.atomicPlace (s : State) (c : CoreId) (k : AccKind) (i : Insn) (g : State → Phys → Nat → Ran) : Ran :=
  let w := i.word
  let n := if rvF3 w == 2 then 4 else 8
  let va := s.x c.val (rvRs1 w)
  match s.checkAll c k va n with
  | (.trap a b v, s) => .trap s a b v
  | (.walk a k, s) => .wait (s.walkBegin c.val a k)
  | (.ok [(p, _)], s) =>
    if !(s.sbOver c.val p.pa n).isEmpty || (bitOf w 25 && !(s.core c.val).sb.isEmpty) then .wait s else g s p n
  | (_, s) => .wait s

/-- The value an atomic leaves in rd: words are sign-extended. -/
def amoValue (n old : Nat) : Nat := if n == 4 then w64 old else old

/-- The contention counter of an address, and its change by `up` or down, saturating at 0 and 3 (R389). -/
def State.contend (s : State) (c a : Nat) : Nat := mapGet 0 (mapGet [] s.coh.contention c) (bits a 13 6)
def State.contendStep (s : State) (c a : Nat) (up : Bool) : State :=
  let v := s.contend c a
  let v := if up then min 3 (v + 1) else v - 1
  s.modCoh fun x => { x with contention := mapSet [] x.contention c (mapSet 0 (mapGet [] x.contention c) (bits a 13 6) v) }

/-- A near atomic, LR or SC obtains its line and meets the error logic: it goes on, waits for the home, or takes syndrome 0x09 (R387,
R399). -/
def State.nearLine (s : State) (c : CoreId) (p : Phys) (f : MemFault) (code va : Nat) (g : State → Ran) : Ran :=
  let line := p.pa / 64
  match s.obtain c.val line p.rt true with
  | (false, s) => .wait s
  | (true, s) =>
    let s := (s.rtTouch line p.rt).memFault (some c.val) p.pa f
    if s.fails line then .trap ((s.meetFailed line false).asked c.val line) code 9 va else g s

/-- LR: the line comes to L1D, the value to rd, and the line is reserved. -/
def State.lr (s : State) (c : CoreId) (f : MemFault) (i : Insn) : Ran :=
  s.atomicPlace c .lr i fun s p n =>
    let line := p.pa / 64
    let evs := 0x05 :: s.missEvents c.val line false
    let lv := s.level c.val
    s.nearLine c p f 0x05 (s.x c.val (rvRs1 i.word)) fun s =>
      let v := amoValue n (s.rd p.pa n)
      let s := (s.takeLine c.val line p.rt .e).modCore c.val fun k => { k with rsv := some line }
      .done (((s.setX c.val (rvRd i.word) v).retire c.val i.len).events c.val lv evs)

/-- SC: it stores only when the reservation holds, and clears it; rd is 0 on success, 1 otherwise. -/
def State.sc (s : State) (c : CoreId) (i : Insn) : Ran :=
  s.atomicPlace c .sc i fun s p n =>
    let line := p.pa / 64
    let lv := s.level c.val
    if (s.core c.val).rsv == some line then
      match s.obtain c.val line p.rt true with
      | (false, s) => .wait s
      | (true, s) =>
        let v := s.x c.val (rvRs2 i.word)
        let s := ((s.takeLine c.val line p.rt .m).wr p.pa n v).replayOver c.val [(p, n)]
        let s := (s.modCore c.val fun k => { k with rsv := none }).setX c.val (rvRd i.word) 0
        .done ((s.retire c.val i.len).events c.val lv [0x06])
    else
      let s := (s.modCore c.val fun k => { k with rsv := none }).setX c.val (rvRd i.word) 1
      .done ((s.retire c.val i.len).events c.val lv [0x06])

/-- The operation of an AMO on memory, and its retirement; `evs` are the events it counts. -/
def State.amoPerform (s : State) (c pa n : Nat) (w len : Nat) (evs : List Nat) : State :=
  let old := s.rd pa n
  let lv := s.level c
  let s := s.wr pa n (amoOp (rvRs3 w) n old (s.x c (rvRs2 w)))
  ((s.setX c (rvRd w) (amoValue n old)).retire c len).events c lv evs

/-- An AMO: near in L1D, or sent to the home, as its contention counter says (R387-R389). -/
def State.amo (s : State) (c : CoreId) (f : MemFault) (i : Insn) : Ran :=
  s.atomicPlace c .amo i fun s p n =>
    let line := p.pa / 64
    if 2 ≤ s.contend c.val p.pa then
      .wait (s.modCore c.val fun k => { k with far := some { insn := i.word, v := s.x c.val (rvRs2 i.word), addr := p.pa, rt := p.rt, va := s.x c.val (rvRs1 i.word), len := i.len } })
    else
      let evs := s.missEvents c.val line false
      let owned := s.ownsLine c.val line
      let others := s.othersHold c.val line
      s.nearLine c p f 0x07 (s.x c.val (rvRs1 i.word)) fun s =>
        let s := (s.takeLine c.val line p.rt .m).replayOver c.val [(p, n)]
        let s := if owned then s.contendStep c.val p.pa false else if others then s.contendStep c.val p.pa true else s
        .done (s.amoPerform c.val p.pa n i.word i.len evs)

/-! ### Fences and the custom instructions (R307-R312, R365, R380) -/

/-- Has every older store of the core drained? -/
def State.drained (s : State) (c : Nat) : Bool := (s.core c).sb.isEmpty

/-- FENCE: stores before it drain first when it orders them before loads (R320, R380: stores drain in program order, loads are
performed in it). FENCE.TSO does not. -/
def fenceWaits (w : Nat) : Bool := (bitOf w 24 || bitOf w 26) && (bitOf w 21 || bitOf w 23) && bits w 31 28 != 8

def State.fenceInsn (s : State) (c : CoreId) (i : Insn) : Ran :=
  if fenceWaits i.word && !s.drained c.val then .wait s else .done (s.retire c.val i.len)

/-- FENCE.I waits for the older stores and discards what has been fetched after it (R307, R381). -/
def State.fenceIInsn (s : State) (c : CoreId) (i : Insn) : Ran :=
  if !s.drained c.val then .wait s else .done ((s.retire c.val i.len).modCore c.val (·.squash))

/-- FRAME.WAIT: a task's work for the frame ends, or fetch stops (R310, R311). -/
def State.frameWait (s : State) (c : CoreId) (i : Insn) : Ran :=
  if !s.drained c.val then .wait s
  else if (s.core c.val).task.isSome then .done (s.taskWait c.val (rvRd i.word))
  else .wait ((((s.pmcSync c.val).modCore c.val fun k => { k with fwait := some (rvRd i.word) }).condEdge c.val 0x24).settle)

/-- REGION.INV: the entries go once it has retired, those of its own walks among them (R365). -/
def State.regionInv (s : State) (c : CoreId) (i : Insn) : Ran :=
  if s.level c.val == .u then illegal s i
  else if !s.drained c.val then .wait s
  else
    let lo := s.x c.val (rvRs1 i.word) % 2 ^ 48
    let n := s.x c.val (rvRs2 i.word)
    .done ((s.retire c.val i.len).modCore c.val fun k => { k with
      rlb := if n == 0 then [] else k.rlb.filter fun e => !(e.vbase < lo + n && lo < e.vbase + 4096 * e.pages) })

/-- FENCE.GROVE begins, at E level only (R287). -/
def State.fenceGrove (s : State) (c : CoreId) (i : Insn) : Ran :=
  if s.level c.val != .e then illegal s i
  else .wait (s.modCore c.val fun k => { k with fence := some s.coh.fwSeq })

/-- Would a grove's firewall, as its registers now stand, refuse an access? -/
def State.fwNowRefuses (s : State) (g : Nat) (k : FwKind) (a n : Nat) : Bool :=
  !within ((((List.range 32).map fun i => s.reg (Rg.GRV_FW g i)).filter (fwGrants k)).map fun e =>
    (bits e 39 12 * 4096, (bits e 39 12 + bits e 63 40) * 4096)) a n

/-- Is a transaction of a grove outstanding that only a superseded value of its firewall admits (R287): a store in a store buffer, a far
atomic, an access of a core or a DMA channel that waits at a home or for its completions? -/
def State.oldAdmitted (s : State) (g : Nat) : Bool :=
  let r := (s.grv g).cfg
  let own (n : Nat) : Bool := if n < 64 then bitOf r.cores n else n < 576 && bitOf r.engines ((n - 64) / 16)
  let cores := bitsSet 64 r.cores
  let stores := cores.any fun c => (s.core c).sb.any fun e => s.fwNowRefuses g .write e.addr e.size
  let atomics := cores.any fun c => match (s.core c).far with
    | some a => s.fwNowRefuses g .atomic a.addr (if rvF3 a.insn == 2 then 4 else 8)
    | none => false
  let at_ (q : HomeReq) : Bool := q.cluster.isNone && own q.who &&
    s.fwNowRefuses g (if q.kind == .writeInv then .write else .read) q.addr q.size
  stores || atomics || s.coh.waiting.any at_ || (s.coh.opened.any fun e => at_ e.2.req) ||
    s.pci.reads.any fun e => own e.2.req && s.fwNowRefuses g .read e.2.addr e.2.size

/-- Every checking point has applied the firewall writes accepted before the fence began, and what a superseded value admitted has
completed: it retires. -/
def State.fenceGroveEnd (s : State) (c : Nat) : State :=
  match (s.core c).fence with
  | none => s
  | some n =>
    let late (g : Nat) : Bool := ((s.grv g).fwPending.any fun e => e.2.2 < n) && s.oldAdmitted g
    if !s.runs c || s.groveList.any late then s
    else
      let s := s.each s.groveList fun s g => s.modGrv g fun x => { x with fwPending := x.fwPending.filter fun e => n ≤ e.2.2 }
      ((s.modCore c fun k => { k with fence := none }).retire c 4).settle

/-- LOOP.SET (R312). -/
def State.loopSet (s : State) (c : CoreId) (i : Insn) : Ran :=
  let a := s.pc c.val
  let n := s.x c.val (rvRs1 i.word) % 2 ^ 32
  let exit := (a + 4 + 2 * bits i.word 31 20) % 2 ^ 64
  let cfg := s.csr c.val csrLoopCfg
  let s := ((s.setCsr c.val csrLoopStart ((a + 4) % 2 ^ 64)).setCsr c.val csrLoopExit exit).setCsr c.val csrLoopCount n
  let s := s.setCsr c.val csrLoopCfg (setBits cfg 0 0 (b2n (n != 0)))
  .done (s.retireTo c.val (if n == 0 then exit else (a + 4) % 2 ^ 64))

/-! ### CSR instructions -/

/-- Is a CSR a loop CSR, whose write takes effect after the instruction that writes it retires (R314)? -/
def csrLoop (n : Nat) : Bool := 0x800 ≤ n && n ≤ 0x803

/-- Does a write take effect after the retirement of the instruction that makes it (R314, R337), or with it remove what its fetch has brought
to the RLB (R357)? -/
def csrAfter (n : Nat) : Bool :=
  csrLoop n || n == csrPmcCtl || (csrPmcEvt 0 ≤ n && n < csrPmcEvt 8) || n == csrRotBase || n == csrRotCnt

/-- A CSR instruction: legality, the old value to rd, the write. -/
def State.csrInsn (s : State) (c : CoreId) (i : Insn) : Ran :=
  let w := i.word
  let n := rvCsr w
  if !s.csrOk c.val n (csrWrites w) then illegal s i
  else
    let (old, s) := s.csrRead c.val n
    let v := s.csrValue c.val w old
    let s := s.setX c.val (rvRd w) old
    if !csrWrites w then .done (s.retire c.val i.len)
    else
      let s := if csrAfter n then (s.retire c.val i.len).csrWrite c.val n v else (s.csrWrite c.val n v).retire c.val i.len
      .done (s.iff (csrRegion n) fun s => s.modCore c.val (·.squash))

/-- Why a switch to a context is refused: the SYND of R345. -/
def State.switchRefused (s : State) (c id : Nat) : Option Nat :=
  if s.groveOfCtx id != s.groveOfCore c || (s.groveOfCtx id).isNone then some 1
  else if s.ctxRunning id then some 2
  else if s.frame.tasks.any (·.ctx == id) then some 3
  else if s.rd (s.ctxAddr id + 0x210) 1 % 4 == 2 && s.level c == .s then some 4
  else none

/-- A write to `CTX_SWITCH` (R345). -/
def State.ctxSwitch (s : State) (c : CoreId) (i : Insn) : Ran :=
  let w := i.word
  if !s.csrOk c.val (rvCsr w) true then illegal s i
  else
    let v := s.csrValue c.val w 0
    let id := v % 2 ^ 14
    let rd (s : State) : State := s.setX c.val (rvRd w) 0
    if (s.core c.val).ctxId == some id then .done ((rd s).retire c.val i.len)
    else match s.switchRefused c.val id with
      | some synd => .trap s 0x10 synd v
      | none =>
        let left := s.isolated c.val
        .done ((((rd s).retire c.val i.len).saveCtx c.val false).loadCtx c.val id left)

/-- A write to `S_RET` or `E_RET` (R349). -/
def State.retInsn (s : State) (c : CoreId) (h : Level) (i : Insn) : Ran :=
  let w := i.word
  if !s.csrOk c.val (rvCsr w) true then illegal s i
  else .done (((s.setX c.val (rvRd w) 0).counted c.val).trapReturn c.val h)

/-! ### Branches and the predictor (R318, R331) -/

/-- Index of a conditional branch in the pattern table. -/
def phtIndex (pc ghr : Nat) : Nat := bits pc 14 1 ^^^ (ghr % 4096 * 4)

def linkReg (r : Nat) : Bool := r == 1 || r == 5

/-- The kind of a branch or jump: a jump that pops the return stack is a return, one that links is a call (R331; log 33). -/
def branchKind (w : Nat) : BranchKind :=
  if rvOp w == 0x63 then .branch
  else if rvOp w == 0x67 && linkReg (rvRs1 w) && rvRs1 w != rvRd w then .ret
  else if linkReg (rvRd w) then .call
  else .jump

/-- The target that fetch predicted after the instruction at `pc`; none: the next instruction. A return uses the return stack, or the
BTB while it is empty. -/
def State.predicted (s : State) (c pc w : Nat) : Option Nat :=
  let k := s.core c
  if rvOp w == 0x63 then
    if 2 ≤ mapGet 1 k.pht (phtIndex pc k.ghr) then (mapGet? k.btb pc).map (·.target) else none
  else if branchKind w == .ret && !k.ras.isEmpty then k.ras.head?
  else (mapGet? k.btb pc).map (·.target)

/-- The BTB after a taken branch or jump: four ways to a set, a full one giving up an entry of free choice (log 5). -/
def btbPut (btb : Table BtbEntry) (pc : Nat) (e : BtbEntry) (pick : Nat) : Table BtbEntry :=
  let same := (btb.map (·.1)).filter fun a => bits a 10 1 == bits pc 10 1 && a != pc
  let btb := if same.length < 4 then btb else match same[pick % 4]? with
    | some a => mapDel btb a
    | none => btb
  mapPut btb pc e

/-- The return stack after a call or a return, by the link registers of RISC-V (log 33). -/
def rasAfter (ras : List Nat) (w next : Nat) : List Nat :=
  let isLink := (rvOp w == 0x6F || rvOp w == 0x67) && linkReg (rvRd w)
  let pops := rvOp w == 0x67 && linkReg (rvRs1 w) && rvRs1 w != rvRd w
  let ras := if pops then ras.drop 1 else ras
  if isLink then (next :: ras).take 32 else ras

/-- The predictor after the retirement of a branch or jump. -/
def State.trainPredictor (s : State) (c pc w next target : Nat) (taken : Bool) : State :=
  let pick := s.free.toNat
  let s := s.modCore c fun k =>
    let cond := rvOp w == 0x63
    let ix := phtIndex pc k.ghr
    let n := mapGet 1 k.pht ix
    { k with
      pht := if cond then mapSet 1 k.pht ix (if taken then min 3 (n + 1) else n - 1) else k.pht
      ghr := if cond then (k.ghr * 2 + b2n taken) % 4096 else k.ghr
      btb := if taken then btbPut k.btb pc { target := target, kind := branchKind w } pick else k.btb
      ras := rasAfter k.ras w next }
  if taken then s.drawn else s

/-- A branch or jump retires; a wrong prediction discards what was fetched after it (R318). -/
def State.branch (s : State) (c : Nat) (i : Insn) (taken : Bool) (target : Nat) : State :=
  let pc := s.pc c
  let next := (pc + i.len) % 2 ^ 64
  let actual := if taken then target else next
  let wrong := (s.predicted c pc i.word).getD next != actual
  let lv := s.level c
  let s := s.trainPredictor c pc i.word next target taken
  let s := if taken then s.retireTo c target else s.retire c i.len
  (s.iff wrong fun s => s.modCore c (·.squash)).events c lv (0x03 :: if wrong then [0x04] else [])

/-! ### Every other instruction (R303, R304) -/

/-- An integer result goes to rd, or the encoding is illegal. -/
def State.intDone (s : State) (c : Nat) (i : Insn) (v : Option Nat) : Ran :=
  match v with
  | none => illegal s i
  | some v =>
    let lv := s.level c
    .done (((s.setX c (rvRd i.word) v).retire c i.len).events c lv (if longOp i.word then [0x12] else []))

/-- The rounding mode of an FP instruction: static, or that of `frm`. -/
def State.rounding (s : State) (c w : Nat) : Option FRnd :=
  if rvF3 w == 7 then rvRnd (bits (s.core c).ctx.fcsr 7 5) else rvRnd (rvF3 w)

/-- Exception flags accrue in `fcsr` (R304). -/
def State.accrue (s : State) (c flags : Nat) : State :=
  if flags == 0 then s else s.modCtx c fun k => { k with fcsr := k.fcsr ||| flags }

/-- An FP result. -/
def State.fpDone (s : State) (c : Nat) (i : Insn) (r : Option FpOut) : Ran :=
  let lv := s.level c
  let evs := if longOp i.word then [0x12] else []
  match r with
  | none => illegal s i
  | some (.int v fl) => .done ((((s.setX c (rvRd i.word) v).accrue c fl).retire c i.len).events c lv evs)
  | some (.fp f r) => .done ((((s.setFr c (rvRd i.word) (nanBox f r.bits)).accrue c r.flags).retire c i.len).events c lv evs)

/-- Fused multiply-add. -/
def State.fma (s : State) (c : Nat) (i : Insn) : Ran :=
  let w := i.word
  match rvFmt w, s.rounding c w with
  | some f, some rm =>
    let r (n : Nat) : Nat := unbox f (s.fr c n)
    s.fpDone c i (some (.fp f (fmaOp (rvOp w) f rm (r (rvRs1 w)) (r (rvRs2 w)) (r (rvRs3 w)))))
  | _, _ => illegal s i

/-- An instruction with no row of its own. -/
def State.other (s : State) (c : CoreId) (i : Insn) : Ran :=
  let w := i.word
  let k := c.val
  let a := s.x k (rvRs1 w)
  let b := s.x k (rvRs2 w)
  let next := (s.pc k + i.len) % 2 ^ 64
  match rvOp w with
  | 0x37 => s.intDone k i (some (ofInt 64 (immU w)))
  | 0x17 => s.intDone k i (some (addOfs (s.pc k) (immU w)))
  | 0x13 => s.intDone k i (aluImm w (rvF3 w) a)
  | 0x1B => s.intDone k i (aluImmW w (rvF3 w) a)
  | 0x33 => s.intDone k i (aluReg (rvF7 w) (rvF3 w) a b)
  | 0x3B => s.intDone k i (aluRegW (rvF7 w) (rvF3 w) (rvRs2 w) a b)
  | 0x63 =>
    match brTaken (rvF3 w) a b with
    | some t => .done (s.branch k i t (addOfs (s.pc k) (immB w)))
    | none => illegal s i
  | 0x6F => .done ((s.setX k (rvRd w) next).branch k i true (addOfs (s.pc k) (immJ w)))
  | 0x67 =>
    if rvF3 w != 0 then illegal s i
    else .done ((s.setX k (rvRd w) next).branch k i true (addOfs a (immI w) / 2 * 2))
  | 0x73 => if rvF3 w % 4 == 0 then illegal s i else s.csrInsn c i
  | 0x43 => s.fma k i
  | 0x47 => s.fma k i
  | 0x4B => s.fma k i
  | 0x4F => s.fma k i
  | 0x53 => s.fpDone k i (fpOp w a (s.fr k (rvRs1 w)) (s.fr k (rvRs2 w)) (s.rounding k w))
  | _ => illegal s i

/-- ECALL and EBREAK (R352). -/
def State.ecall (s : State) (c : Nat) : Ran :=
  .trap s (match s.level c with
    | .u => 0x08
    | .s => 0x09
    | .e => 0x0B) 0 0

def State.ebreak (s : State) (c : Nat) : Ran := .trap s 0x03 0 (s.pc c)

/-! ### Interrupts and counters -/

/-- The core takes the interrupt it is offered, at a retirement boundary: not while a device-ordered access that it has issued is still
to complete (R319). -/
def State.interrupt (s : State) (c : Nat) : State :=
  if !s.runs c || (s.core c).issued || s.pci.reads.any (fun e => e.2.req == c) then s
  else
    match s.offerOf c with
    | some src => ((s.endWait c).takeInterrupt c src).settle
    | none => s

/-- A counter of a condition event may have passed its end: the condition events are brought up to now (R336). -/
def State.pmcOverflow (s : State) (c n : Nat) : State :=
  if (s.core c).pmcTimed n (levelNo (s.level c)) then (s.pmcSync c).settle else s

end Sys2Proof.Machine
end

