-- ==== Sys2Proof/Machine/Coherence.lean ====
section
/-! DEFINITION. The home directory protocol in its steps (11.5-11.7): requests that arrive at a home, snoops and their answers,
completion, retries. The rows of cores make the whole transaction of their own accesses in one step while the line is not blocked
(log 35); a request of these rows blocks its line until it closes. -/

namespace Sys2Proof.Machine

/-- Does a request need a directory entry for its line (R385)? -/
def ReqKind.needsEntry : ReqKind → Bool
  | .readShared _ => true
  | .readUnique => true
  | .upgrade => true
  | .readSpec => true
  | .atomicFar => true
  | _ => false

def ReqKind.isAtomic : ReqKind → Bool
  | .atomicFar => true
  | _ => false

/-- Does a request close when the home has done its work, without an acknowledgement (R383)? -/
def ReqKind.closesItself : ReqKind → Bool
  | .writeBack => true
  | .evict => true
  | .writeInv => true
  | _ => false

/-- The clusters that the home snoops for a request (R382, R388, R390, R391). -/
def State.snoopsFor (s : State) (q : HomeReq) : Nat :=
  match mapGet? s.coh.dir q.line with
  | none => 0
  | some e =>
    let others := match q.cluster with
      | some cl => setBits e.presence cl cl 0
      | none => e.presence
    match q.kind with
    | .readShared _ => if e.unique then others else 0
    | .readUnique => others
    | .upgrade => others
    | .readCurrent => if e.unique then e.presence else 0
    | .writeInv => e.presence
    | .atomicFar => e.presence
    | _ => 0

def State.setTx (s : State) (line : Nat) (t : Option OpenTx) : State :=
  s.modCoh fun c => { c with opened := match t with
    | some t => mapPut c.opened line t
    | none => mapDel c.opened line }

/-- A request of a core's cluster on the core's behalf. -/
def coreReq (kind : ReqKind) (c line : Nat) (rt : Bool) : HomeReq := { clusterReq kind (clusterOf c) line rt with core := c }

/-- The requester whose open transaction a request at a home is (R30). -/
def HomeReq.requester (q : HomeReq) : Nat :=
  match q.cluster with
  | some cl => clusterReqNo cl
  | none => q.who

/-- The answer of a request to its requester; the posted writes of units have none. -/
def State.answerTo (s : State) (q : HomeReq) (r : Response) : State := if q.who < hawserReq then s.answer r else s

/-- The first reserved request of a line's set that has no way yet is given the way of a transaction that closes (R386). -/
def giveWay (set w : Nat) : List HomeReq → List HomeReq
  | [] => []
  | q :: t =>
    if dirSet q.line == set && q.reserved && q.way.isNone && (q.rt || 4 ≤ w) then { q with way := some w } :: t else q :: giveWay set w t

/-- A transaction closes: its line is no longer blocked, its requester goes on, and the way of its entry goes to a reservation. -/
def State.txClose (s : State) (line : Nat) : State :=
  match mapGet? s.coh.opened line with
  | none => s
  | some t =>
    let s := ((s.setTx line none).dirMod line id).transDone t.req.requester
    match t.way with
    | none => s
    | some w =>
      let set := dirSet line
      if s.coh.retry.any fun q => dirSet q.line == set && q.way == some w then s
      else s.modCoh fun c => { c with retry := giveWay set w c.retry }

/-- The far atomic of a request, as its core still waits for it. -/
def State.farOf (s : State) (q : HomeReq) : Option FarAtomic := (s.core q.core).far.filter fun a => a.addr / 64 == q.line

/-- A far atomic is performed at the home (R388): the operation in L3, the old value to the core, which retires it; CONTENDED moves the
core's counter (R389). That of a core that a drain has stopped is performed, and its value goes nowhere (R288). -/
def State.farPerform (s : State) (q : HomeReq) (snooped : Bool) : State :=
  match s.farOf q with
  | none => s
  | some a =>
    let n := if rvF3 a.insn == 2 then 4 else 8
    let place (s : State) : State := ((s.dropOthers q.line none).toL3 q.line true).modCore q.core fun k => { k with far := none }
    if (s.core q.core).ctxId.isNone then
      let s := place s
      s.wr a.addr n (amoOp (rvRs3 a.insn) n (s.rd a.addr n) a.v)
    else if !s.runs q.core then s
    else (((place s).contendStep q.core a.addr (snooped || q.queued)).amoPerform q.core a.addr n a.insn a.len [0x10]).settle

/-- A far atomic meets a failed line (R399). -/
def State.farFail (s : State) (q : HomeReq) : State :=
  match s.farOf q with
  | none => s
  | some a =>
    if (s.core q.core).ctxId.isNone then s.modCore q.core fun k => { k with far := none }
    else if s.runs q.core then (s.trap q.core 0x07 9 a.va).settle else s

/-- A read of the line by the home: from L3 or GDDR7, with what the error logic finds. -/
def State.homeRead (s : State) (q : HomeReq) (f : MemFault) : State :=
  let s := (s.rtTouch q.line q.rt).memFault none (64 * q.line) f
  if s.fails q.line then s.meetFailed q.line false else s

/-- A cluster comes to own a line on behalf of a core: the other copies have gone; those of the cluster's other cores go too, and the L1I and
shadow-buffer copies of the core itself (R381, R382). -/
def State.grantOwn (s : State) (q : HomeReq) (cl : Nat) : State :=
  let s := s.each ((s.coresOf cl).filter (· != q.core)) fun s d => s.modCore d (·.dropLine q.line)
  let s := s.modCore q.core fun k => { k with l1i := k.l1i.filter (· != q.line), shadow := k.shadow.filter (· != q.line) }
  let s := (s.iff (!s.cached q.line) (·.toL3 q.line false)).iff (s.dirty q.line) (·.toL3 q.line true)
  (((s.dropOthers q.line (some cl)).dirPut q.line q.rt q.way true (2 ^ cl))).fillL2 cl q.line .m

/-- A ReadSpec is served: the cluster is recorded as a sharer, and the data goes to the core's shadow buffer; it allocates in neither L2 nor
L3 (R328, R330, R370). That of a core that has been stopped comes to no core (R288). -/
def State.grantSpec (s : State) (q : HomeReq) (cl : Nat) : State :=
  let e : DirEntry := (mapGet? s.coh.dir q.line).getD { unique := false, presence := 0, age := 0, way := 0 }
  let s := s.dirPut q.line q.rt q.way e.unique (setBits e.presence cl cl 1)
  if 64 ≤ q.core then s
  else s.modCore q.core fun k =>
    let m : Miss := { line := q.line, kind := .spec, rt := q.rt }
    { k with misses := if k.misses.contains m then k.misses else k.misses ++ [m] }

/-- A line is read at its home for a request and, unless it has failed, given to its requester by `g`. -/
def State.homeServe (s : State) (q : HomeReq) (f : MemFault) (g : State → State) : State :=
  let s := s.homeRead q f
  if s.fails q.line then s else g s

/-- The work of a request once every snoop is answered. -/
def State.homeWork (s : State) (q : HomeReq) (snooped : Bool) (f : MemFault) : State :=
  match q.kind, q.cluster with
  | .readShared fetch, some cl => s.homeServe q f fun s => s.shareL2 cl q.line q.rt fetch q.way
  | .readUnique, some cl => s.homeServe q f fun s => s.grantOwn q cl
  | .upgrade, some cl => if (s.l2State cl q.line).isSome then s.grantOwn q cl else s.homeServe q f fun s => s.grantOwn q cl
  | .readSpec, some cl => s.homeServe q f fun s => s.grantSpec q cl
  | .writeBack, some cl => ((s.setWb cl q.line false).toL3 q.line true).clearPresence cl q.line
  | .evict, some cl => (s.toL3 q.line false).clearPresence cl q.line
  | .readCurrent, _ =>
    let s := s.homeRead q f
    let bs := s.rdB q.addr q.size
    s.answerTo q (if s.fails q.line then .busError else if q.size ≤ 8 then .data (BitVec.ofNat 64 (leNat bs)) else .bytes bs)
  | .writeInv, _ =>
    let s := s.iff (!covers q.addr q.bytes.length q.line) (·.memFault none (64 * q.line) f)
    match s.unitWrite q.addr q.bytes q.rt with
    | (true, s) => s.answerTo q .ok
    | (false, s) => s.answerTo q .busError
  | .atomicFar, _ =>
    let s := s.homeRead q f
    if s.fails q.line then s.farFail q else s.farPerform q snooped
  | _, none => s

/-- Every snoop of the open transaction of a line is answered: its work is done; it closes, or awaits the acknowledgement. -/
def State.txFinish (s : State) (line : Nat) (f : MemFault) : State :=
  match mapGet? s.coh.opened line with
  | none => s
  | some t =>
    if t.finished || t.snoops != 0 || t.dif.isSome then s
    else
      let s := s.homeWork t.req t.snooped f
      if t.req.kind.closesItself then s.txClose line else s.setTx line (some { t with finished := true })

/-- A request is answered Retry: a real-time one gains a reservation at its first retry, a bulk one at its fourth (R386). -/
def State.answerRetry (s : State) (q : HomeReq) : State :=
  s.modCoh fun c => { c with retry := c.retry ++ [{ q.retried with way := none }] }

/-- Is a line owned by a cluster other than the requester's? -/
def State.ownedElsewhere (s : State) (q : HomeReq) : Bool :=
  match mapGet? s.coh.dir q.line with
  | some e => e.unique && (match q.cluster with
      | some cl => !bitOf e.presence cl
      | none => true)
  | none => false

/-- The home accepts a request for a line that is not blocked (R383, R385). A ReadSpec for a line owned elsewhere is not served
(R370). -/
def State.homeAccept (s : State) (q : HomeReq) (f : MemFault) : State :=
  if q.kind == .readSpec && s.ownedElsewhere q then s
  else if q.kind.needsEntry && s.dirRoom q.line q.rt q.way == .full then s.answerRetry q
  else
    let snoops := s.snoopsFor q
    let s := if q.kind.needsEntry && (mapGet? s.coh.dir q.line).isNone then s.dirPut q.line q.rt q.way false 0 else s
    let way := (mapGet? s.coh.dir q.line).map (·.way)
    (s.setTx q.line (some { req := q, snoops := snoops, snooped := snoops != 0, way := way })).txFinish q.line f

/-- The queue of a line goes on while the line is not blocked; arrival order is kept per line. -/
def State.homeDrain (line : Nat) : Nat → State → State
  | 0, s => s
  | k + 1, s =>
    if s.blocked line then s
    else match s.coh.waiting.find? (·.line == line) with
      | none => s
      | some q => State.homeDrain line k ((s.modCoh fun c => { c with waiting := c.waiting.erase q }).homeAccept q .none)

def State.serveQueue (s : State) (line : Nat) : State := State.homeDrain line (s.coh.waiting.length + 1) s

/-- A request arrives at its home: it is accepted, or waits for the open transaction of its line. -/
def State.homeArrive (s : State) (q : HomeReq) (f : MemFault) : State :=
  if targetOf (64 * q.line) != .gddr then s
  else
    let q := { q with queued := q.kind.isAtomic && s.coh.waiting.any fun o => o.line == q.line && o.kind.isAtomic }
    if s.blocked q.line then s.modCoh fun c => { c with waiting := c.waiting ++ [q] }
    else (s.homeAccept q f).serveQueue q.line

/-- A requester sends a request to its home; at the limit of open transactions it is held, and presents it again (R30). -/
def State.homeSend (s : State) (q : HomeReq) (f : MemFault) : State :=
  match s.transTake q.requester 1 with
  | (false, s) => s
  | (true, s) => s.homeArrive q f

/-! ### Write-backs and evictions (R369, R382, R384) -/

/-- The open transaction of a line takes a WriteBack as its snoop data: L3 is written, the WriteBack acknowledged (R384). -/
def State.takeWriteBack (s : State) (cl line : Nat) : State :=
  let s := ((s.setWb cl line false).toL3 line true).clearPresence cl line
  let s := s.modCoh fun c => { c with waiting := c.waiting.filter fun q => !(q.kind == .writeBack && q.cluster == some cl && q.line == line) }
  match mapGet? s.coh.opened line with
  | none => s
  | some t => ((s.setTx line (some { t with snoops := setBits t.snoops cl cl 0, dif := none })).txFinish line .none).serveQueue line

/-- A WriteBack: of a line its L2 evicts now, or one already sent, for which the home awaits it. -/
def State.writeBack (s : State) (cl addr : Nat) : State :=
  let line := addr / 64
  if s.wbPendingAt cl line then
    match mapGet? s.coh.opened line with
    | some t => if t.dif == some cl then s.takeWriteBack cl line else s
    | none => s
  else if s.l2State cl line != some .m then s
  else match s.transTake (clusterReqNo cl) 1 with
    | (false, s) => s
    | (true, s) =>
      let s := (s.dropAt cl line).setWb cl line true
      match mapGet? s.coh.opened line with
      | none => s.homeArrive (clusterReq .writeBack cl line false) .none
      | some t => if bitOf t.snoops cl then s else s.homeArrive (clusterReq .writeBack cl line false) .none

/-- An Evict of a clean line. -/
def State.evictLine (s : State) (cl addr : Nat) : State :=
  let line := addr / 64
  let goes (s : State) : State :=
    match s.transTake (clusterReqNo cl) 1 with
    | (false, s) => s
    | (true, s) => (s.dropAt cl line).homeArrive (clusterReq .evict cl line false) .none
  match s.l2State cl line with
  | some .e => goes s
  | some .s => goes s
  | _ => s

/-! ### Snoops, acknowledgements and retries -/

/-- A cluster's answer to the snoop of a line's open transaction: DIF while its WriteBack is not acknowledged, otherwise its data or an
acknowledgement, with the change of state the snoop asks (R382, R384). `evicting`: its L2 has sent a WriteBack that has not
arrived. -/
def State.snoop (s : State) (cl addr : Nat) (evicting : Bool) : State :=
  let line := addr / 64
  match mapGet? s.coh.opened line with
  | none => s
  | some t =>
    if !bitOf t.snoops cl then s
    else if s.wbPendingAt cl line then s.takeWriteBack cl line
    else
      let st := s.l2State cl line
      let t' := { t with snoops := setBits t.snoops cl cl 0 }
      if evicting && st == some .m then
        ((s.dropAt cl line).setWb cl line true).setTx line (some { t' with dif := some cl })
      else
        let s := s.iff (st == some .m) (·.toL3 line true)
        let s := match t.req.kind with
          | .readCurrent => s
          | .readShared _ =>
            if st.isSome || s.specHeld cl line then (s.setL2 cl line .s).dirMod line fun e => { e with unique := false }
            else s.clearPresence cl line
          | _ => (s.dropAt cl line).clearPresence cl line
        ((s.setTx line (some t')).txFinish line .none).serveQueue line

/-- The requester's completion acknowledgement closes the transaction, and the line's queue goes on (R383). -/
def State.completionAck (s : State) (addr : Nat) : State :=
  let line := addr / 64
  match mapGet? s.coh.opened line with
  | none => s
  | some t => if t.finished then (s.txClose line).serveQueue line else s

/-- A retried request is reissued; with a reservation whose way is not yet free it is retried again (R386). -/
def State.reissue (s : State) (cl addr : Nat) : State :=
  match s.coh.retry.find? fun q => !q.own && q.line == addr / 64 && q.cluster == some cl with
  | none => s
  | some q =>
    if q.reserved && q.way.isNone && s.dirRoom q.line q.rt none == .full then s
    else match s.transTake q.requester 1 with
      | (false, s) => s
      | (true, s) => (s.modCoh fun c => { c with retry := c.retry.erase q }).homeArrive q .none

/-- AtomicFar of a core that waits for one in its line. -/
def State.atomicFar (s : State) (cl addr : Nat) (f : MemFault) : State :=
  let line := addr / 64
  let busy (c : Nat) : Bool :=
    let same (q : HomeReq) : Bool := q.kind.isAtomic && q.core == c
    s.coh.waiting.any same || s.coh.retry.any same || s.coh.opened.any fun e => same e.2.req
  match s.coreList.find? fun c => clusterOf c == cl && !busy c && (match (s.core c).far with
    | some a => a.addr / 64 == line
    | none => false) with
  | some c =>
    let rt := match (s.core c).far with
      | some a => a.rt
      | none => false
    s.homeSend (coreReq .atomicFar c line rt) f
  | none => s

/-! ### Non-caching agents (R390, R391) -/

/-- Does an access of a non-caching agent reach GDDR7: by R27, its firewall, or the host's windows? -/
def State.agentReaches (s : State) (r : Requester) (k : FwKind) (a n : Nat) : Bool :=
  targetOf a == .gddr && s.present r && (match r with
    | .host => if k == .read then s.hostSees a n else s.hostStores a n
    | _ => s.reaches r k a n)

/-- A ReadCurrent of a line or a part of one. -/
def State.readCurrent (s : State) (r : Requester) (a n : Nat) (rt : Bool) (f : MemFault) : State :=
  if n == 0 || 64 < a % 64 + n then s
  else if !s.agentReaches r .read a n then (if s.present r then s.turnAway r .read a n else s)
  else (s.fwUsed r).homeSend { kind := .readCurrent, cluster := none, line := a / 64, rt := rt, who := reqNo r, addr := a, size := n } f

/-- An invalidating write of a whole line or a part of one. -/
def State.writeInv (s : State) (r : Requester) (a : Nat) (bs : List Byte) (rt : Bool) (f : MemFault) : State :=
  if bs.isEmpty || 64 < a % 64 + bs.length then s
  else if !s.agentReaches r .write a bs.length then (if s.present r then s.turnAway r .write a bs.length else s)
  else (s.fwUsed r).homeSend { kind := .writeInv, cluster := none, line := a / 64, rt := rt, who := reqNo r, addr := a, size := bs.length, bytes := bs } f

/-! ### GDDR7 service and integrity (R395, R401, R402), retention and wipes (R376, R377) -/

/-- A patrol pass ends: what it has found is corrected, every failed line of GDDR7 is reported and left, and the per-device counts restart
(R401). -/
def State.patrolEnd (s : State) (found : List (PAddr × MemFault)) : State :=
  let s := s.each found fun s e => s.patrolFind e.1.toNat e.2
  let s := s.each s.coh.failed fun s line => s.meetFailed line true
  s.each (List.range 9) (fun s d => s.lower (Fd.HWD_MEM_DEV_CE.COUNT d)) |>.inc Fd.HWD_MEM_PATROL.PASSES

/-- The rebuild ends (R402; card "Device spared"). -/
def State.rebuildEnd (s : State) : State :=
  match s.coh.rebuild with
  | none => s
  | some dev => ((((s.lower Fd.HWD_MEM_STAT.SPARING).raise Fd.HWD_MEM_STAT.SPARED).set Fd.HWD_MEM_STAT.SPARED_DEV dev).modCoh fun c => { c with
      rebuild := none }).memBell

/-- A bank is awake (R376): accesses to it complete when they are presented again. -/
def State.bankAwake (s : State) (bank : Nat) : State :=
  if !s.coh.waking.contains bank then s
  else
    (s.set Fd.PWR_RET.BANKS (setBits (s.get Fd.PWR_RET.BANKS) (bank - 36) (bank - 36) 0)).modCoh fun c => { c with
      waking := c.waking.filter (· != bank) }

/-- The wipe of the sealed bank ends (R377): its banks, woken before it, hold zeros. -/
def State.sealedWiped (s : State) : State :=
  if !s.coh.wiping then s
  else
    let stop := sramBase + sramSize
    let s := (s.clearMem sealedBase stop).set Fd.PWR_RET.BANKS (setBits (s.get Fd.PWR_RET.BANKS) 27 20 0)
    s.modCoh fun c => { c with
      wiping := false
      waking := c.waking.filter (· < 56)
      poisoned := c.poisoned.filter fun w => !(sealedBase ≤ 8 * w && 8 * w < stop) }

end Sys2Proof.Machine
end

