-- ==== Sys2Proof/Machine/CoherenceRows.lean ====
section
/-! DEFINITION. The commands of caches, coherence and main memory (chapter 11), one meaning per row. -/

namespace Sys2Proof.Machine

/-- R370, R382. -/
def execReadShared (cl : Fin 4) (addr : PAddr) (fetch rt : Bool) (f : MemFault) (s : State) : Host.Outcome State Fault Refusal :=
  done (s.homeSend (clusterReq (.readShared fetch) cl.val (addr.toNat / 64) rt) f)

/-- R382. -/
def execReadUnique (c : CoreId) (addr : PAddr) (rt : Bool) (f : MemFault) (s : State) : Host.Outcome State Fault Refusal :=
  done (s.homeSend (coreReq .readUnique c.val (addr.toNat / 64) rt) f)

/-- R382. -/
def execUpgrade (c : CoreId) (addr : PAddr) (rt : Bool) (f : MemFault) (s : State) : Host.Outcome State Fault Refusal :=
  done (s.homeSend (coreReq .upgrade c.val (addr.toNat / 64) rt) f)

/-- R328, R370. -/
def execReadSpec (c : CoreId) (addr : PAddr) (rt : Bool) (f : MemFault) (s : State) : Host.Outcome State Fault Refusal :=
  done (s.homeSend (coreReq .readSpec c.val (addr.toNat / 64) rt) f)

/-- R382, R384. -/
def execWriteBack (cl : Fin 4) (addr : PAddr) (s : State) : Host.Outcome State Fault Refusal := done (s.writeBack cl.val addr.toNat)

/-- R382. -/
def execEvict (cl : Fin 4) (addr : PAddr) (s : State) : Host.Outcome State Fault Refusal := done (s.evictLine cl.val addr.toNat)

/-- R390. -/
def execReadCurrent (r : Requester) (addr : PAddr) (size : Nat) (f : LineAccess) (s : State) : Host.Outcome State Fault Refusal :=
  done (s.readCurrent r addr.toNat size f.rt f.fault)

/-- R391. -/
def execWriteInv (r : Requester) (addr : PAddr) (bs : LineWrite) (s : State) : Host.Outcome State Fault Refusal :=
  done (s.writeInv r addr.toNat bs.bytes bs.rt bs.fault)

/-- R388. -/
def execAtomicFar (cl : Fin 4) (addr : PAddr) (f : MemFault) (s : State) : Host.Outcome State Fault Refusal :=
  done (s.atomicFar cl.val addr.toNat f)

/-- R382, R384. -/
def execSnoopReceived (cl : Fin 4) (addr : PAddr) (evicting : Bool) (s : State) : Host.Outcome State Fault Refusal :=
  done (s.snoop cl.val addr.toNat evicting)

/-- R383. -/
def execCompletionAck (addr : PAddr) (s : State) : Host.Outcome State Fault Refusal := done (s.completionAck addr.toNat)

/-- R386. -/
def execRetryReissue (cl : Fin 4) (addr : PAddr) (s : State) : Host.Outcome State Fault Refusal := done (s.reissue cl.val addr.toNat)

/-- R395: the turn's counts restart. -/
def execWheelTurn (s : State) : Host.Outcome State Fault Refusal := done (s.modCoh fun c => { c with rtTurn := [] })

/-- R401. -/
def execPatrolPassComplete (found : List (PAddr × MemFault)) (s : State) : Host.Outcome State Fault Refusal := done (s.patrolEnd found)

/-- R402. -/
def execSparingRebuildComplete (s : State) : Host.Outcome State Fault Refusal := done s.rebuildEnd

/-- R376. -/
def execRetentionWakeComplete (bank : Fin 28) (s : State) : Host.Outcome State Fault Refusal := done (s.bankAwake (36 + bank.val))

/-- R377. -/
def execSealedBankWipeComplete (s : State) : Host.Outcome State Fault Refusal := done s.sealedWiped

/-- R401, `HWD_MEM_CTL.CNT_CLR`: E level only (11.10). -/
def execMemCntClr (r : Requester) (s : State) : Host.Outcome State Fault Refusal :=
  done (s.regWriteAt r Rg.HWD_MEM_CTL 4 fun s => s.iff (s.isE r) (·.memCntClr))

end Sys2Proof.Machine
end

