-- ==== Sys2Proof/Machine/CoreRows.lean ====
section
/-! DEFINITION. The commands of the cores (chapters 9 and 10), one meaning per row. -/

namespace Sys2Proof.Machine

/-- R321-R328, R356. -/
def execLoad (c : CoreId) (insn : Word32) (f : LoadAccess) (s : State) : Host.Outcome State Fault Refusal :=
  done (match f.early with
    | none => s.coreInsn c insn.toNat .load fun s i => s.load c f.fault i
    | some e => s.earlyLoad c insn.toNat e)

/-- R328, R369. -/
def execLoadMissFill (c : CoreId) (f : MemFault) (s : State) : Host.Outcome State Fault Refusal := done (s.missFill c f)

/-- R320, R323-R327, R356. -/
def execStore (c : CoreId) (insn : Word32) (s : State) : Host.Outcome State Fault Refusal :=
  done (s.coreInsn c insn.toNat .store fun s i => s.storeInsn c i)

/-- R320, R379, R400. -/
def execStoreDrain (c : CoreId) (f : MemFault) (s : State) : Host.Outcome State Fault Refusal := done (s.storeDrain c f)

/-- R305, R387-R389. -/
def execAtomic (c : CoreId) (insn : Word32) (f : MemFault) (s : State) : Host.Outcome State Fault Refusal :=
  done (s.coreInsn c insn.toNat .amo fun s i => s.amo c f i)

/-- R305, R387. -/
def execLr (c : CoreId) (insn : Word32) (f : MemFault) (s : State) : Host.Outcome State Fault Refusal :=
  done (s.coreInsn c insn.toNat .lr fun s i => s.lr c f i)

/-- R305, R387. -/
def execSc (c : CoreId) (insn : Word32) (s : State) : Host.Outcome State Fault Refusal :=
  done (s.coreInsn c insn.toNat .sc fun s i => s.sc c i)

/-- R380. -/
def execFence (c : CoreId) (insn : Word32) (s : State) : Host.Outcome State Fault Refusal :=
  done (s.coreInsn c insn.toNat .fence fun s i => s.fenceInsn c i)

/-- R307. -/
def execFenceI (c : CoreId) (insn : Word32) (s : State) : Host.Outcome State Fault Refusal :=
  done (s.coreInsn c insn.toNat .fenceI fun s i => s.fenceIInsn c i)

/-- R310, R311. -/
def execFrameWait (c : CoreId) (insn : Word32) (s : State) : Host.Outcome State Fault Refusal :=
  done (s.coreInsn c insn.toNat .frameWait fun s i => s.frameWait c i)

/-- R365. -/
def execRegionInv (c : CoreId) (insn : Word32) (s : State) : Host.Outcome State Fault Refusal :=
  done (s.coreInsn c insn.toNat .regionInv fun s i => s.regionInv c i)

/-- R287, R309. -/
def execFenceGrove (c : CoreId) (insn : Word32) (s : State) : Host.Outcome State Fault Refusal :=
  done (s.coreInsn c insn.toNat .fenceGrove fun s i => s.fenceGrove c i)

/-- R287. -/
def execFenceGroveComplete (c : CoreId) (s : State) : Host.Outcome State Fault Refusal := done (s.fenceGroveEnd c.val)

/-- R312. -/
def execLoopSet (c : CoreId) (insn : Word32) (s : State) : Host.Outcome State Fault Refusal :=
  done (s.coreInsn c insn.toNat .loopSet fun s i => s.loopSet c i)

/-- R352. -/
def execEcall (c : CoreId) (insn : Word32) (s : State) : Host.Outcome State Fault Refusal :=
  done (s.coreInsn c insn.toNat .ecall fun s _ => s.ecall c.val)

/-- R352. -/
def execEbreak (c : CoreId) (insn : Word32) (s : State) : Host.Outcome State Fault Refusal :=
  done (s.coreInsn c insn.toNat .ebreak fun s _ => s.ebreak c.val)

/-- R303, R304, R331, R366. -/
def execOtherInstruction (c : CoreId) (insn : Word32) (s : State) : Host.Outcome State Fault Refusal :=
  done (s.coreInsn c insn.toNat .other fun s i => s.other c i)

/-- R360-R362. -/
def execWalkProbeResponse (c : CoreId) (f : MemFault) (s : State) : Host.Outcome State Fault Refusal := done (s.walkProbe c f).settle

/-- R345. -/
def execCtxSwitch (c : CoreId) (insn : Word32) (s : State) : Host.Outcome State Fault Refusal :=
  done (s.coreInsn c insn.toNat .ctxSwitch fun s i => s.ctxSwitch c i)

/-- R349. -/
def execSRet (c : CoreId) (insn : Word32) (s : State) : Host.Outcome State Fault Refusal :=
  done (s.coreInsn c insn.toNat .sRet fun s i => s.retInsn c .s i)

/-- R349. -/
def execERet (c : CoreId) (insn : Word32) (s : State) : Host.Outcome State Fault Refusal :=
  done (s.coreInsn c insn.toNat .eRet fun s i => s.retInsn c .e i)

/-- R319, R348, R415. -/
def execInterruptTaken (c : CoreId) (s : State) : Host.Outcome State Fault Refusal := done (s.interrupt c.val)

/-- R357. -/
def execRegionRegisterWrite (c : CoreId) (insn : Word32) (s : State) : Host.Outcome State Fault Refusal :=
  done (s.coreInsn c insn.toNat .region fun s i => s.csrInsn c i)

/-- R332. -/
def execPredFlush (c : CoreId) (insn : Word32) (s : State) : Host.Outcome State Fault Refusal :=
  done (s.coreInsn c insn.toNat .predFlush fun s i => s.csrInsn c i)

/-- R336. -/
def execPmcOverflow (c : CoreId) (n : Fin 8) (s : State) : Host.Outcome State Fault Refusal := done (s.pmcOverflow c.val n.val)

end Sys2Proof.Machine
end

