-- ==== Sys2Proof/Machine/Debug.lean ====
section
/-! DEFINITION. Core debug through DMI (R457, R535): halt, resume, single step, abstract registers, the program buffer, the system bus.
Register numbers and the order of a program buffer's run are those of the RISC-V Debug Specification, to which R535 refers
(PRESUMED, log 33). -/

namespace Sys2Proof.Machine

/-- Does DMI act: the instruction is loaded and core debug is open? A closed one behaves as BYPASS. -/
def State.dmiOpen (s : State) : Bool := s.sec.tapInstr == 0x11 && s.coreDebug

/-- A core halts at an instruction boundary. -/
def State.dbgHalt (s : State) (c : Nat) : State := s.modCore c fun k => { k.discard with halted := true, stepping := false }

def State.dbgRun (s : State) (c : Nat) (step : Bool) : State :=
  if (s.core c).halted then s.modCore c fun k => { k with halted := false, stepping := step } else s

/-- The core acts at E level for a while: what core debug reaches (R457). -/
def State.asE (s : State) (c : Nat) (f : State → State) : State :=
  let l := s.level c
  (f (s.setLevel c .e)).setLevel c l

/-- `dpc`, the PC of a halted core. -/
def csrDpc : Nat := 0x7B1

/-- An abstract register: CSRs from 0, x registers from 0x1000, f registers from 0x1020; none: no such register. -/
def State.dbgReg (s : State) (c n : Nat) : Option Nat × State :=
  if n == csrDpc then (some (s.pc c), s)
  else if n < 0x1000 then
    (if (csrMin n).isSome then
      let (v, s) := s.csrRead c n
      (some v, s)
    else (none, s))
  else if n < 0x1020 then (some (s.x c (n - 0x1000)), s)
  else if n < 0x1040 then (some (s.fr c (n - 0x1020)), s)
  else (none, s)

def State.dbgSetReg (s : State) (c n v : Nat) : Option State :=
  if n == csrDpc then some (s.setPc c (v / 2 * 2))
  else if n < 0x1000 then (if (csrMin n).isSome && n / 0x400 != 3 then some (s.csrWrite c n v) else none)
  else if n < 0x1020 then some (s.setX c (n - 0x1000) v)
  else if n < 0x1040 then some (s.setFr c (n - 0x1020) v)
  else none

/-- Would a load, store or atomic of the program buffer reach the sealed bank? -/
def State.dbgSealed (s : State) (c w : Nat) : Bool :=
  let a := match rvOp w with
    | 0x2F => s.x c (rvRs1 w)
    | 0x23 => addOfs (s.x c (rvRs1 w)) (immS w)
    | 0x27 => addOfs (s.x c (rvRs1 w)) (immS w)
    | _ => addOfs (s.x c (rvRs1 w)) (immI w)
  (rvOp w == 0x03 || rvOp w == 0x07 || rvOp w == 0x23 || rvOp w == 0x27 || rvOp w == 0x2F) &&
    (targetOf a == .sealed || targetOf (a + 7) == .sealed)

/-- A word of the program buffer on a halted core; none: it raised an exception or could not complete. -/
def State.dbgExec (s : State) (c : CoreId) (w : Nat) : Option State :=
  let i : Insn := { raw := rvBits w, word := (rvWord w).getD 0, len := rvLen w }
  let ended (r : Ran) : Option State := match r with
    | .done s => some s
    | _ => none
  if s.dbgSealed c.val i.word then none
  else match s.rowOf c.val i.word with
    | .load => ended (s.load c .none i)
    | .store =>
      match s.storeInsn c i with
      | .done s => some (s.storeDrain c .none)
      | .wait s' => if (s'.core c.val).sb.length == (s.core c.val).sb.length then none else some (s'.storeDrain c .none)
      | .trap _ _ _ _ => none
    | .amo => ended (s.amo c .none i)
    | .lr => ended (s.lr c .none i)
    | .sc => ended (s.sc c i)
    | .fence => ended (s.fenceInsn c i)
    | .fenceI => ended (s.fenceIInsn c i)
    | .region => ended (s.csrInsn c i)
    | .predFlush => ended (s.csrInsn c i)
    | .other => ended (s.other c i)
    | _ => none

/-- The two words of the program buffer, up to an EBREAK, on a halted core whose stores have drained; its PC and its counts stay. -/
def State.dbgProgbuf (s : State) (c : CoreId) (a b : Nat) : State :=
  let k := s.core c.val
  if !k.halted || !k.sb.isEmpty then s.answer .busError
  else
    let run (s : State) (w : Nat) : Option State := s.dbgExec c w
    let r := if a == 0x0010_0073 then some s
      else match run (s.setLevel c.val .e) a with
        | none => none
        | some s => if b == 0x0010_0073 then some s else run s b
    match r with
    | none => s.answer .busError
    | some s =>
      let s := (s.modCore c.val fun x => { x with instret := k.instret, pcsr := k.pcsr, halted := true }).setPc c.val k.ctx.pc.toNat
      (s.setLevel c.val k.ctx.level).answer .ok

/-- An access over the system bus: what a core at E level reaches, except the sealed bank. -/
def State.dbgBus (s : State) (c : CoreId) (a n : Nat) (f : State → State) : State :=
  if targetOf a == .sealed || targetOf (a + n - 1) == .sealed then s.answer .busError else s.asE c.val f

/-- An access of the debug module. -/
def State.dmi (s : State) (op : DmiOp) : State :=
  if !s.dmiOpen then s
  else match op with
    | .halt c => s.dbgHalt c.val
    | .resume c => s.dbgRun c.val false
    | .step c => s.dbgRun c.val true
    | .readReg c n =>
      if !(s.core c.val).halted then s.answer .busError
      else match s.dbgReg c.val n.toNat with
        | (some v, s) => s.answer (.data (BitVec.ofNat 64 v))
        | (none, s) => s.answer .busError
    | .writeReg c n v =>
      if !(s.core c.val).halted then s.answer .busError
      else match s.dbgSetReg c.val n.toNat v.toNat with
        | some s => s.answer .ok
        | none => s.answer .busError
    | .progbuf c a b => s.dbgProgbuf c a.toNat b.toNat
    | .busRead c addr size => s.dbgBus c addr.toNat size fun s => s.busRead (.core c) addr.toNat size
    | .busWrite c addr size v => s.dbgBus c addr.toNat size fun s => s.busWrite (.core c) addr.toNat size v.toNat

/-- R457, R535. -/
def execDmiAccess (op : DmiOp) (s : State) : Host.Outcome State Fault Refusal := done (s.dmi op)

end Sys2Proof.Machine
end

