-- ==== Sys2Proof/Machine/HeartwoodRows.lean ====
section
/-! DEFINITION. The rows of Heartwood and of reset release (chapter 14, R516). A mailbox command's row is its execution at the front
of the queue: the request and its code stand in the mailbox's registers. -/

namespace Sys2Proof.Machine

/-- R459. -/
def execGetInfo (m : Fin 2) (s : State) : Host.Outcome State Fault Refusal := done (s.getInfo m.val)

/-- R459. -/
def execGetNonce (m : Fin 2) (s : State) : Host.Outcome State Fault Refusal := done (s.getNonce m.val)

/-- R459. -/
def execGetIdentity (m : Fin 2) (s : State) : Host.Outcome State Fault Refusal := done (s.getIdentity m.val)

/-- R459. -/
def execAttest (m : Fin 2) (s : State) : Host.Outcome State Fault Refusal := done (s.attest m.val)

/-- R459. -/
def execAuditRead (m : Fin 2) (s : State) : Host.Outcome State Fault Refusal := done (s.auditRead m.val)

/-- R459. -/
def execStage (m : Fin 2) (s : State) : Host.Outcome State Fault Refusal := done (s.stage m.val)

/-- R459. -/
def execHwfwUpdate (m : FwCommand) (s : State) : Host.Outcome State Fault Refusal := done (s.hwfwUpdate m.mailbox.val m.write)

/-- R459. -/
def execLcChange (m : ChangeCommand) (s : State) : Host.Outcome State Fault Refusal := done (s.lcChange m.mailbox.val m.ends)

/-- R459. -/
def execProvision (m : ChangeCommand) (s : State) : Host.Outcome State Fault Refusal := done (s.provision m.mailbox.val m.ends)

/-- R459. -/
def execKeyRotate (m : ChangeCommand) (s : State) : Host.Outcome State Fault Refusal := done (s.keyRotate m.mailbox.val m.ends)

/-- R459. -/
def execCertInstall (m : Fin 2) (s : State) : Host.Outcome State Fault Refusal := done (s.certInstall m.val)

/-- R459. -/
def execImageKeyInstall (m : Fin 2) (s : State) : Host.Outcome State Fault Refusal := done (s.imageKeyInstall m.val)

/-- R459. -/
def execDebugOpen (m : Fin 2) (s : State) : Host.Outcome State Fault Refusal := done (s.debugOpen m.val)

/-- R459. -/
def execDebugClose (m : Fin 2) (s : State) : Host.Outcome State Fault Refusal := done (s.debugClosed m.val)

/-- R448. -/
def execNonceLapse (s : State) : Host.Outcome State Fault Refusal := done s.nonceLapse

/-- R444. -/
def execLifecycleChangeReset (s : State) : Host.Outcome State Fault Refusal := done s.lcReset

/-- R453, R454. -/
def execTamperCondition (k : Fin 8) (s : State) : Host.Outcome State Fault Refusal := done (s.tamper k.val)

/-- R453. -/
def execSensorConditionAbsent (k : Fin 8) (s : State) : Host.Outcome State Fault Refusal := done (s.tamperAbsent k.val)

/-- R453. -/
def execSensorHoldEnd (s : State) : Host.Outcome State Fault Refusal := done s.sensorHoldEnd

/-- R454. -/
def execHeartwoodRestart (s : State) : Host.Outcome State Fault Refusal := done s.heartwoodRestart

/-- R456. -/
def execHeartwoodClockSync (s : State) : Host.Outcome State Fault Refusal := done s.clockSync

/-- R523: the blocks keep their contents. -/
def execMramRefresh (s : State) : Host.Outcome State Fault Refusal := done s

/-- R457, R458, R535. -/
def execTapInstructionLoad (code : Byte) (s : State) : Host.Outcome State Fault Refusal := done (s.tapLoad code.toNat)

/-- R516. -/
def execResetRelease (s : State) : Host.Outcome State Fault Refusal := done s.resetRelease

end Sys2Proof.Machine
end

