-- ==== Sys2Proof/Machine/HostRows.lean ====
section
/-! DEFINITION. The rows of the host interface (chapter 16). -/

namespace Sys2Proof.Machine

/-- R490, R491. -/
def execPcieLinkUp (speed : Fin 4) (x8 : Bool) (s : State) : Host.Outcome State Fault Refusal :=
  done (s.linkUp speed.val x8)

/-- R500, R507. -/
def execPcieLinkDown (s : State) : Host.Outcome State Fault Refusal :=
  done s.linkDown

/-- R491. -/
def execPciPerst (s : State) : Host.Outcome State Fault Refusal :=
  done s.perst

/-- R491. -/
def execFunctionLevelReset (pf : Fin 2) (s : State) : Host.Outcome State Fault Refusal :=
  done (s.flr pf.val)

/-- R499. -/
def execHostValueWrite (tag : TagId) (v : Word) (s : State) : Host.Outcome State Fault Refusal :=
  done (s.pf1 fun s => s.hostValue tag.val v.toNat)

/-- R499. -/
def execHostQualityWrite (tag : TagId) (q : Byte) (s : State) : Host.Outcome State Fault Refusal :=
  done (s.pf1 fun s => s.hostQual tag.val q.toNat)

/-- R499. -/
def execHostValueQualityWrite (tag : TagId) (v : Word) (q : Byte) (s : State) : Host.Outcome State Fault Refusal :=
  done (s.pf1 fun s => (s.hostValue tag.val v.toNat).hostQual tag.val q.toNat)

/-- R497. -/
def execHostDoorbell (v : Word32) (s : State) : Host.Outcome State Fault Refusal :=
  done (s.hostDoorbell v.toNat)

/-- R501. -/
def execSnapshotCopy (s : State) : Host.Outcome State Fault Refusal :=
  done s.snapshotCopy

/-- R502. -/
def execSnapshotComplete (w : Fin 4) (s : State) : Host.Outcome State Fault Refusal :=
  done (s.snapshotEnd w.val)

/-- R501. -/
def execSnapshotEnable (r : Requester) (w : Fin 4) (v : Word) (s : State) : Host.Outcome State Fault Refusal :=
  done (s.pciWrite r (Rg.PCI_SNAP_CFG w.val) 8 fun s => s.snapCfg w.val v.toNat)

/-- R504, R505. -/
def execH2dHeadWrite (q : Fin 16) (v : Half) (s : State) : Host.Outcome State Fault Refusal :=
  done (s.hostQueue q.val fun s => s.mqH2dHead q.val v.toNat)

/-- R504, R505. -/
def execD2hHeadWrite (r : Requester) (q : Fin 16) (v : Half) (s : State) : Host.Outcome State Fault Refusal :=
  done (s.regWriteAt r (Rg.PCI_MQ_IDX q.val) 8 fun s => if s.mayIndex r q.val then s.mqD2hHead q.val v.toNat else s)

/-- R504. -/
def execD2hTailWrite (q : Fin 16) (v : Half) (s : State) : Host.Outcome State Fault Refusal :=
  done (s.hostQueue q.val fun s => s.mqD2hTail q.val v.toNat)

/-- R504. -/
def execMqEnable (r : Requester) (q : Fin 16) (v : Word) (s : State) : Host.Outcome State Fault Refusal :=
  done (s.pciWrite r (Rg.PCI_MQ_CFG q.val) 8 fun s => s.mqCfg q.val v.toNat)

/-- R507. -/
def execOutboundReadComplete (id : Nat) (ok : Bool) (v : Word) (s : State) : Host.Outcome State Fault Refusal :=
  done (s.obEnd id (if ok then some v.toNat else none))

/-- R507. -/
def execOutboundCompletionTimeout (id : Nat) (s : State) : Host.Outcome State Fault Refusal :=
  done (s.obEnd id none)

/-- R496. -/
def execHostIrq (r : Requester) (s : State) : Host.Outcome State Fault Refusal :=
  done (s.pciWrite r Rg.PCI_CTL 4 (·.pciCtl 2))

/-- R498. -/
def execPciCntClr (r : Requester) (s : State) : Host.Outcome State Fault Refusal :=
  done (s.pciWrite r Rg.PCI_CTL 4 (·.pciCtl 1))

end Sys2Proof.Machine
end

