-- ==== Sys2Proof/Machine/MetRows.lean ====
section
/-! DEFINITION. The rows of the metrology enclave (chapter 15). -/

namespace Sys2Proof.Machine

/-- R467, R475, R486, R487. -/
def execPublicationBoundary (s : State) : Host.Outcome State Fault Refusal := done s.boundary

/-- R473. -/
def execIntegrationIntervalEnd (fs : List FeederInterval) (s : State) : Host.Outcome State Fault Refusal := done (s.intervalEnd fs)

/-- R474. -/
def execPulseEdge (i : Fin 8) (s : State) : Host.Outcome State Fault Refusal := done (s.pulseEdge i.val)

/-- R467. -/
def execEnclavePowerFail (s : State) : Host.Outcome State Fault Refusal := done s.metPowerFail

/-- R467. -/
def execEnclavePowerRecovered (s : State) : Host.Outcome State Fault Refusal := done s.metRecovered

/-- R466-R468, R478. -/
def execEnclaveConverterStart (crc : Word32) (s : State) : Host.Outcome State Fault Refusal := done (s.converterStart crc.toNat)

/-- R488. -/
def execEnclaveWatchdog (crc : Word32) (s : State) : Host.Outcome State Fault Refusal := done (s.metWatchdog crc.toNat)

/-- R478. -/
def execChecksumCheck (crc : Word32) (s : State) : Host.Outcome State Fault Refusal := done (s.metDaily crc.toNat)

/-- R476, card "Converter fault". -/
def execConverterFault (ch : Fin 24) (s : State) : Host.Outcome State Fault Refusal := done (s.converterFault ch.val true)

/-- R476, card "Converter fault". -/
def execConverterFaultEnd (ch : Fin 24) (s : State) : Host.Outcome State Fault Refusal := done (s.converterFault ch.val false)

/-- R523: the copy in use is rewritten with what it holds. -/
def execParameterRefresh (s : State) : Host.Outcome State Fault Refusal :=
  done (if s.metRuns then s.modMet fun x => if x.useB then { x with copyB := x.params } else { x with copyA := x.params } else s)

/-- R483. -/
def execSealAsserted (s : State) : Host.Outcome State Fault Refusal := done s.sealOn

/-- R483. -/
def execSealReleased (s : State) : Host.Outcome State Fault Refusal := done s.sealOff

/-- R481. -/
def execIdent (s : State) : Host.Outcome State Fault Refusal := done s.calIdent

/-- R481. -/
def execParamRead (i : Byte) (s : State) : Host.Outcome State Fault Refusal := done (s.calRead i.toNat)

/-- R482, R483. -/
def execParamWrite (i : Byte) (v : Word32) (s : State) : Host.Outcome State Fault Refusal := done (s.calWrite i.toNat v.toNat)

/-- R484. -/
def execCommit (s : State) : Host.Outcome State Fault Refusal := done s.calCommit

/-- R483. -/
def execAbort (s : State) : Host.Outcome State Fault Refusal := done s.calAbort

/-- R481. -/
def execLogRead (seq : Word32) (s : State) : Host.Outcome State Fault Refusal := done (s.calLogRead seq.toNat)

/-- R481. -/
def execMeasure (f : Byte) (s : State) : Host.Outcome State Fault Refusal := done (s.calMeasure f.toNat)

/-- R487, OP 1. -/
def execReadSnapshot (r : Requester) (tag : Byte) (arg : Word32) (s : State) : Host.Outcome State Fault Refusal :=
  done (s.regWriteAt r Rg.MET_CMD 8 fun s => s.metWrite r 1 tag.toNat arg.toNat)

/-- R487, OP 2. -/
def execReadLog (r : Requester) (tag : Byte) (arg : Word32) (s : State) : Host.Outcome State Fault Refusal :=
  done (s.regWriteAt r Rg.MET_CMD 8 fun s => s.metWrite r 2 tag.toNat arg.toNat)

/-- R487, OP 3. -/
def execTimeSet (r : Requester) (tag : Byte) (arg : Word32) (s : State) : Host.Outcome State Fault Refusal :=
  done (s.regWriteAt r Rg.MET_CMD 8 fun s => s.metWrite r 3 tag.toNat arg.toNat)

/-- R487, OP 4. -/
def execTariff (r : Requester) (tag : Byte) (arg : Word32) (s : State) : Host.Outcome State Fault Refusal :=
  done (s.regWriteAt r Rg.MET_CMD 8 fun s => s.metWrite r 4 tag.toNat arg.toNat)

end Sys2Proof.Machine
end

