-- ==== Sys2Proof/Machine/PortRows.lean ====
section
/-! DEFINITION. The commands and events of the field ports (chapter 6), one meaning per row. -/

namespace Sys2Proof.Machine

def execFrameReceived (p : FieldPort) (f : RxFrame) (s : State) : Host.Outcome State Fault Refusal :=
  done (s.frameIn p.val f)

def execCbHistoryReset (i : Fin 1024) (s : State) : Host.Outcome State Fault Refusal :=
  done (s.cbReset i.val)

def execGateEntryChange (p : FieldPort) (s : State) : Host.Outcome State Fault Refusal :=
  done (s.gateChange p.val)

def execQueueTransmit (p : FieldPort) (tc : Fin 8) (s : State) : Host.Outcome State Fault Refusal :=
  done (s.queueTransmit p.val tc.val)

def execFieldLinkDown (p : FieldPort) (s : State) : Host.Outcome State Fault Refusal :=
  done (s.fieldLinkDown p.val)

def execFieldLinkUp (p : FieldPort) (s : State) : Host.Outcome State Fault Refusal :=
  done (s.fieldUp p.val)

def execSyncReceived (p : FieldPort) (m : SyncMsg) (s : State) : Host.Outcome State Fault Refusal :=
  done (s.syncReceived p.val m)

def execSyncTransmit (p : FieldPort) (s : State) : Host.Outcome State Fault Refusal :=
  done (s.syncTransmit p.val)

def execAnnounceTransmit (p : FieldPort) (s : State) : Host.Outcome State Fault Refusal :=
  done (s.announceTransmit p.val)

def execPdelayReqTransmit (p : FieldPort) (s : State) : Host.Outcome State Fault Refusal :=
  done (s.pdelayReq p.val)

def execPdelayReqReceived (p : FieldPort) (seq : Half) (rx : PdelayArrival) (s : State) : Host.Outcome State Fault Refusal :=
  done (s.pdelayAnswer p.val seq.toNat rx.rx.toNat rx.clock.toNat rx.num.toNat)

def execFieldPortTimeSourceLost  (s : State) : Host.Outcome State Fault Refusal :=
  done (s.fieldTimeLost)

def execFpCntClr (r : Requester) (s : State) : Host.Outcome State Fault Refusal :=
  done (s.regWriteAt r Rg.FP_CTL 4 (·.fpCntClr))

def execPdelayRespReceived (p : FieldPort) (m : PdelayMsg) (s : State) : Host.Outcome State Fault Refusal :=
  done (s.pdelayDone p.val m)

def execFrameTransmissionEnd (p : FieldPort) (s : State) : Host.Outcome State Fault Refusal :=
  done (s.transmissionEnd p.val)

end Sys2Proof.Machine
end

