-- ==== Sys2Proof/Machine/PowerRows.lean ====
section
/-! DEFINITION. The rows of power, resets, retention, sprint, temperature and the time outputs (chapters 17 and 18). -/

namespace Sys2Proof.Machine

/-- R510. -/
def execLockoutRelease (a b : Bool) (s : State) : Host.Outcome State Fault Refusal := done (s.lockoutRelease a b)

/-- R512. -/
def execPowerFailWarning (s : State) : Host.Outcome State Fault Refusal := done s.powerFailWarning

/-- R513. -/
def execPowerFailRelease (s : State) : Host.Outcome State Fault Refusal := done s.powerFailPorts

/-- R512. -/
def execPowerFailColdReset (s : State) : Host.Outcome State Fault Refusal := done s.powerFailReset

/-- R510. -/
def execLockout (s : State) : Host.Outcome State Fault Refusal := done s.lockout

/-- R510, card "Feed lost". -/
def execFeedLost (b : Bool) (good : Bool) (s : State) : Host.Outcome State Fault Refusal := done (s.feed b good)

/-- R511. -/
def execHoldUpStoreNotCharged (s : State) : Host.Outcome State Fault Refusal := done s.holdLow

/-- R511. -/
def execHoldUpStoreCharged (s : State) : Host.Outcome State Fault Refusal := done s.holdCharged

/-- R515, R516, R531. -/
def execColdReset (s : State) : Host.Outcome State Fault Refusal := done s.coldReset

/-- R515, R516. -/
def execWarmRst (r : Requester) (key : Byte) (s : State) : Host.Outcome State Fault Refusal :=
  done (s.regWriteAt r Rg.PWR_CTL 4 fun s => s.pwrCtl r 1 key.toNat)

/-- R519. -/
def execSprintRequest (r : Requester) (on : Bool) (s : State) : Host.Outcome State Fault Refusal :=
  done (s.regWriteAt r Rg.PWR_SPRINT 4 fun s => s.sprintRequest r on)

/-- R520. -/
def execSprintLimitExpiry (s : State) : Host.Outcome State Fault Refusal := done s.sprintLimit

/-- R520. -/
def execCooldownEnd (s : State) : Host.Outcome State Fault Refusal := done s.coolEnd

/-- R521. -/
def execPoweredLedgerUpdate (s : State) : Host.Outcome State Fault Refusal := done s.poweredMinute

/-- R518. -/
def execRetentionWrite (r : Requester) (v : Word32) (s : State) : Host.Outcome State Fault Refusal :=
  done (s.regWriteAt r Rg.PWR_RET 4 fun s => s.retention r v.toNat)

/-- R522. -/
def execThermalSample (t : List Half) (s : State) : Host.Outcome State Fault Refusal := done (s.thermalSample t)

/-- R522. -/
def execMaxClr (r : Requester) (s : State) : Host.Outcome State Fault Refusal :=
  done (s.regWriteAt r Rg.THM_CTL 4 fun s => s.maxClr r)

/-- R532. -/
def execPpsOut (s : State) : Host.Outcome State Fault Refusal := done s.ppsOut

end Sys2Proof.Machine
end

