-- ==== Sys2Proof/Machine/SignalRows.lean ====
section
/-! DEFINITION. The commands and events of the Signal Engine (chapter 4), one meaning per row. -/

namespace Sys2Proof.Machine

/-- A write into the Tag Store window at offset `off` of a tag's record (R29, R125, R375). A size that is no access size is no
access. -/
def State.tagRow (s : State) (r : Requester) (tag off size v : Nat) : State :=
  if !sizeOk size || 64 < off + size then s
  else s.writeAt r (tagAddr tag + off) size fun s => (s.tagStore r (tagAddr tag + off) size (v % 2 ^ (8 * size))).2

def execGatherWrite (tag : TagId) (w : GatherAccess) (s : State) : Host.Outcome State Fault Refusal :=
  done (s.gather w.writer tag.val w.op)

def execValueWrite (r : Requester) (tag : TagId) (size : Nat) (v : Word) (s : State) : Host.Outcome State Fault Refusal :=
  done (s.tagRow r tag.val 0 size v.toNat)

def execQualityWrite (r : Requester) (tag : TagId) (q : Byte) (s : State) : Host.Outcome State Fault Refusal :=
  done (s.tagRow r tag.val 0x18 1 q.toNat)

def execTuningWrite (r : Requester) (tag : TagId) (off : Fin 64) (size : Nat) (v : Word) (s : State) : Host.Outcome State Fault Refusal :=
  done (s.tagRow r tag.val off.val size v.toNat)

def execConfigurationWrite (r : Requester) (tag : TagId) (off : Fin 64) (size : Nat) (v : Word) (s : State) : Host.Outcome State Fault Refusal :=
  done (s.tagRow r tag.val off.val size v.toNat)

def execAlarmEntryDrain  (s : State) : Host.Outcome State Fault Refusal :=
  done (s.alarmDrain)

def execAqTailWrite (r : Requester) (g : GroveId) (v : Word32) (s : State) : Host.Outcome State Fault Refusal :=
  done (s.regWriteAt r (Rg.SE_AQ_TAIL g.val) 4 (·.aqTail g.val v.toNat))

def execAqEnable (r : Requester) (g : GroveId) (v : Word32) (s : State) : Host.Outcome State Fault Refusal :=
  done (s.regWriteAt r (Rg.SE_AQ_CFG g.val) 4 (·.aqConfig g.val v.toNat))

def execAqLossClear (r : Requester) (g : GroveId) (s : State) : Host.Outcome State Fault Refusal :=
  done (s.regWriteAt r (Rg.SE_AQ_STAT g.val) 4 (·.aqStat g.val 1))

def execSeCntClr (r : Requester) (s : State) : Host.Outcome State Fault Refusal :=
  done (s.regWriteAt r Rg.SE_CTL 4 (·.seCntClr))

end Sys2Proof.Machine
end

