-- ==== Sys2Proof/Machine/StartRows.lean ====
section
/-! DEFINITION. The rows of the start sequence (chapter 2). -/

namespace Sys2Proof.Machine

/-- R65, "0" row. -/
def execPowerGood (s : State) : Host.Outcome State Fault Refusal := done s.powerGood

/-- R65, "1 ms" row, and the verification that follows it (R446, R452). -/
def execRomSelfTestComplete (s : State) : Host.Outcome State Fault Refusal := done s.romComplete

/-- R65, "6 ms" row. -/
def execMainSideRelease (s : State) : Host.Outcome State Fault Refusal := done s.mainRelease

/-- R60. -/
def execFlashReadComplete (off : Word32) (ok : Bool) (s : State) : Host.Outcome State Fault Refusal := done (s.flashRead off.toNat ok)

/-- R65, "45 ms" row. -/
def execWipeComplete (s : State) : Host.Outcome State Fault Refusal := done s.wipeComplete

/-- R59 steps 1 to 10. -/
def execSlotReadComplete (s : State) : Host.Outcome State Fault Refusal := done s.slotRead

/-- R59 steps 11 to 13, R61, R542. -/
def execSemanticChecksComplete (s : State) : Host.Outcome State Fault Refusal := done s.semanticChecks

/-- R65, "52 ms + t_r" row. -/
def execSectionsLoaded (s : State) : Host.Outcome State Fault Refusal := done s.sectionsLoaded

/-- R62-R64. -/
def execAdmissionCheckComplete (s : State) : Host.Outcome State Fault Refusal := done s.admissionChecked

/-- R51, R66. -/
def execBootPointerWrite (s : State) : Host.Outcome State Fault Refusal := done s.bootPointerDue

/-- R71-R73. -/
def execStagingComplete (s : State) : Host.Outcome State Fault Refusal := done s.stagingEnds

end Sys2Proof.Machine
end

