-- ==== Sys2Proof/Machine/Dispatch.lean ====
section
/-! DEFINITION. The meaning of every command: one arm per constructor of `Instr`. -/

namespace Sys2Proof.Machine

def exec (i : Instr) (s : State) : Host.Outcome State Fault Refusal :=
  match i with
  | .registerWrite r addr size v => Sys2Proof.Machine.execRegisterWrite r addr size v s
  | .lowWordRead r addr => Sys2Proof.Machine.execLowWordRead r addr s
  | .highWordRead r addr => Sys2Proof.Machine.execHighWordRead r addr s
  | .lowWordWrite r addr v => Sys2Proof.Machine.execLowWordWrite r addr v s
  | .highWordWrite r addr v => Sys2Proof.Machine.execHighWordWrite r addr v s
  | .transactionComplete r => Sys2Proof.Machine.execTransactionComplete r s
  | .powerGood => Sys2Proof.Machine.execPowerGood s
  | .romSelfTestComplete => Sys2Proof.Machine.execRomSelfTestComplete s
  | .mainSideRelease => Sys2Proof.Machine.execMainSideRelease s
  | .flashReadComplete off ok => Sys2Proof.Machine.execFlashReadComplete off ok s
  | .wipeComplete => Sys2Proof.Machine.execWipeComplete s
  | .slotReadComplete => Sys2Proof.Machine.execSlotReadComplete s
  | .semanticChecksComplete => Sys2Proof.Machine.execSemanticChecksComplete s
  | .sectionsLoaded => Sys2Proof.Machine.execSectionsLoaded s
  | .admissionCheckComplete => Sys2Proof.Machine.execAdmissionCheckComplete s
  | .bootPointerWrite => Sys2Proof.Machine.execBootPointerWrite s
  | .stagingComplete => Sys2Proof.Machine.execStagingComplete s
  | .tick => Sys2Proof.Machine.execTick s
  | .sweepEnd => Sys2Proof.Machine.execSweepEnd s
  | .budgetExpiry c => Sys2Proof.Machine.execBudgetExpiry c s
  | .stagingEnd g => Sys2Proof.Machine.execStagingEnd g s
  | .commitDeadline => Sys2Proof.Machine.execCommitDeadline s
  | .templateRelease p => Sys2Proof.Machine.execTemplateRelease p s
  | .release r g => Sys2Proof.Machine.execRelease r g s
  | .forceFs r g => Sys2Proof.Machine.execForceFs r g s
  | .snap r => Sys2Proof.Machine.execSnap r s
  | .ovrCntClr r => Sys2Proof.Machine.execOvrCntClr r s
  | .statsClr r => Sys2Proof.Machine.execStatsClr r s
  | .gatherWrite tag w => Sys2Proof.Machine.execGatherWrite tag w s
  | .valueWrite r tag size v => Sys2Proof.Machine.execValueWrite r tag size v s
  | .qualityWrite r tag q => Sys2Proof.Machine.execQualityWrite r tag q s
  | .tuningWrite r tag off size v => Sys2Proof.Machine.execTuningWrite r tag off size v s
  | .configurationWrite r tag off size v => Sys2Proof.Machine.execConfigurationWrite r tag off size v s
  | .alarmEntryDrain => Sys2Proof.Machine.execAlarmEntryDrain s
  | .aqTailWrite r g v => Sys2Proof.Machine.execAqTailWrite r g v s
  | .aqEnable r g v => Sys2Proof.Machine.execAqEnable r g v s
  | .aqLossClear r g => Sys2Proof.Machine.execAqLossClear r g s
  | .seCntClr r => Sys2Proof.Machine.execSeCntClr r s
  | .pidIsa l => Sys2Proof.Machine.execPidIsa l s
  | .pidPar l => Sys2Proof.Machine.execPidPar l s
  | .pidVel l => Sys2Proof.Machine.execPidVel l s
  | .pidExt l => Sys2Proof.Machine.execPidExt l s
  | .piGap l => Sys2Proof.Machine.execPiGap l s
  | .onoff l => Sys2Proof.Machine.execOnoff l s
  | .leadlag l => Sys2Proof.Machine.execLeadlag l s
  | .lag1 l => Sys2Proof.Machine.execLag1 l s
  | .lag2 l => Sys2Proof.Machine.execLag2 l s
  | .deadtime l => Sys2Proof.Machine.execDeadtime l s
  | .mavg l => Sys2Proof.Machine.execMavg l s
  | .deriv l => Sys2Proof.Machine.execDeriv l s
  | .integ l => Sys2Proof.Machine.execInteg l s
  | .total l => Sys2Proof.Machine.execTotal l s
  | .ramp l => Sys2Proof.Machine.execRamp l s
  | .ratelim l => Sys2Proof.Machine.execRatelim l s
  | .limit l => Sys2Proof.Machine.execLimit l s
  | .char l => Sys2Proof.Machine.execChar l s
  | .linear l => Sys2Proof.Machine.execLinear l s
  | .split l => Sys2Proof.Machine.execSplit l s
  | .selhi l => Sys2Proof.Machine.execSelhi l s
  | .sello l => Sys2Proof.Machine.execSello l s
  | .selmid l => Sys2Proof.Machine.execSelmid l s
  | .selsw l => Sys2Proof.Machine.execSelsw l s
  | .selavg l => Sys2Proof.Machine.execSelavg l s
  | .add l => Sys2Proof.Machine.execAdd l s
  | .mul l => Sys2Proof.Machine.execMul l s
  | .div l => Sys2Proof.Machine.execDiv l s
  | .sqrt l => Sys2Proof.Machine.execSqrt l s
  | .abs l => Sys2Proof.Machine.execAbs l s
  | .and l => Sys2Proof.Machine.execAnd l s
  | .or l => Sys2Proof.Machine.execOr l s
  | .xor l => Sys2Proof.Machine.execXor l s
  | .not l => Sys2Proof.Machine.execNot l s
  | .cmp l => Sys2Proof.Machine.execCmp l s
  | .srff l => Sys2Proof.Machine.execSrff l s
  | .edge l => Sys2Proof.Machine.execEdge l s
  | .ton l => Sys2Proof.Machine.execTon l s
  | .tof l => Sys2Proof.Machine.execTof l s
  | .tpulse l => Sys2Proof.Machine.execTpulse l s
  | .ctu l => Sys2Proof.Machine.execCtu l s
  | .move l => Sys2Proof.Machine.execMove l s
  | .sample l => Sys2Proof.Machine.execSample l s
  | .mansta l => Sys2Proof.Machine.execMansta l s
  | .ratio l => Sys2Proof.Machine.execRatio l s
  | .call l => Sys2Proof.Machine.execCall l s
  | .poly3 l => Sys2Proof.Machine.execPoly3 l s
  | .gascomp l => Sys2Proof.Machine.execGascomp l s
  | .barrierFlagSet f => Sys2Proof.Machine.execBarrierFlagSet f s
  | .callDone r n qclass => Sys2Proof.Machine.execCallDone r n qclass s
  | .callTimeout n => Sys2Proof.Machine.execCallTimeout n s
  | .callRetWrite r n v => Sys2Proof.Machine.execCallRetWrite r n v s
  | .leTuningWrite r addr size v => Sys2Proof.Machine.execLeTuningWrite r addr size v s
  | .leCntClr r => Sys2Proof.Machine.execLeCntClr r s
  | .frameReceived p f => Sys2Proof.Machine.execFrameReceived p f s
  | .cbHistoryReset ix => Sys2Proof.Machine.execCbHistoryReset ix s
  | .gateEntryChange p => Sys2Proof.Machine.execGateEntryChange p s
  | .queueTransmit p tc => Sys2Proof.Machine.execQueueTransmit p tc s
  | .fieldLinkDown p => Sys2Proof.Machine.execFieldLinkDown p s
  | .fieldLinkUp p => Sys2Proof.Machine.execFieldLinkUp p s
  | .syncReceived p m => Sys2Proof.Machine.execSyncReceived p m s
  | .syncTransmit p => Sys2Proof.Machine.execSyncTransmit p s
  | .announceTransmit p => Sys2Proof.Machine.execAnnounceTransmit p s
  | .pdelayReqTransmit p => Sys2Proof.Machine.execPdelayReqTransmit p s
  | .pdelayReqReceived p seq rx => Sys2Proof.Machine.execPdelayReqReceived p seq rx s
  | .fieldPortTimeSourceLost => Sys2Proof.Machine.execFieldPortTimeSourceLost s
  | .fpCntClr r => Sys2Proof.Machine.execFpCntClr r s
  | .blockLock p => Sys2Proof.Machine.execBlockLock p s
  | .keyDerivationComplete p => Sys2Proof.Machine.execKeyDerivationComplete p s
  | .bringupRetry p => Sys2Proof.Machine.execBringupRetry p s
  | .heldHelloTransmit p => Sys2Proof.Machine.execHeldHelloTransmit p s
  | .hawserLinkDown p => Sys2Proof.Machine.execHawserLinkDown p s
  | .linkFrameReceived p f => Sys2Proof.Machine.execLinkFrameReceived p f s
  | .linkFrameTransmit p => Sys2Proof.Machine.execLinkFrameTransmit p s
  | .hello p m => Sys2Proof.Machine.execHello p m s
  | .cert p m => Sys2Proof.Machine.execCert p m s
  | .keyx p m => Sys2Proof.Machine.execKeyx p m s
  | .confirm p m => Sys2Proof.Machine.execConfirm p m s
  | .diagReq p m => Sys2Proof.Machine.execDiagReq p m s
  | .diagRsp p m => Sys2Proof.Machine.execDiagRsp p m s
  | .close p => Sys2Proof.Machine.execClose p s
  | .dreqTransmit p => Sys2Proof.Machine.execDreqTransmit p s
  | .dreq p m rx => Sys2Proof.Machine.execDreq p m rx s
  | .drsp p m rx => Sys2Proof.Machine.execDrsp p m rx s
  | .beat p m rx => Sys2Proof.Machine.execBeat p m rx s
  | .beatMiss => Sys2Proof.Machine.execBeatMiss s
  | .startupWaitExpiry => Sys2Proof.Machine.execStartupWaitExpiry s
  | .taprootStartDelay => Sys2Proof.Machine.execTaprootStartDelay s
  | .data c => Sys2Proof.Machine.execData c s
  | .mqTxheadWrite r g v => Sys2Proof.Machine.execMqTxheadWrite r g v s
  | .messageIssue g => Sys2Proof.Machine.execMessageIssue g s
  | .req c => Sys2Proof.Machine.execReq c s
  | .rsp c => Sys2Proof.Machine.execRsp c s
  | .messageExpiry mtag => Sys2Proof.Machine.execMessageExpiry mtag s
  | .mqDoorbellHoldoffEnd g => Sys2Proof.Machine.execMqDoorbellHoldoffEnd g s
  | .mqRxtailWrite r g v => Sys2Proof.Machine.execMqRxtailWrite r g v s
  | .casCntClr r => Sys2Proof.Machine.execCasCntClr r s
  | .create r g => Sys2Proof.Machine.execCreate r g s
  | .start r g => Sys2Proof.Machine.execStart r g s
  | .reset r g => Sys2Proof.Machine.execReset r g s
  | .destroy r g => Sys2Proof.Machine.execDestroy r g s
  | .freeze r g arg => Sys2Proof.Machine.execFreeze r g arg s
  | .thaw r g => Sys2Proof.Machine.execThaw r g s
  | .save r g arg => Sys2Proof.Machine.execSave r g arg s
  | .restore r g => Sys2Proof.Machine.execRestore r g s
  | .switch r g => Sys2Proof.Machine.execSwitch r g s
  | .promote r g => Sys2Proof.Machine.execPromote r g s
  | .drainComplete g => Sys2Proof.Machine.execDrainComplete g s
  | .clearingComplete g => Sys2Proof.Machine.execClearingComplete g s
  | .freezeComplete g => Sys2Proof.Machine.execFreezeComplete g s
  | .saveComplete g fail => Sys2Proof.Machine.execSaveComplete g fail s
  | .xfer c => Sys2Proof.Machine.execXfer c s
  | .trackingApplyComplete g => Sys2Proof.Machine.execTrackingApplyComplete g s
  | .partnerLost g => Sys2Proof.Machine.execPartnerLost g s
  | .firewallEntryWrite r g ix v => Sys2Proof.Machine.execFirewallEntryWrite r g ix v s
  | .load c insn f => Sys2Proof.Machine.execLoad c insn f s
  | .loadMissFill c f => Sys2Proof.Machine.execLoadMissFill c f s
  | .store c insn => Sys2Proof.Machine.execStore c insn s
  | .storeDrain c f => Sys2Proof.Machine.execStoreDrain c f s
  | .atomic c insn f => Sys2Proof.Machine.execAtomic c insn f s
  | .lr c insn f => Sys2Proof.Machine.execLr c insn f s
  | .sc c insn => Sys2Proof.Machine.execSc c insn s
  | .fence c insn => Sys2Proof.Machine.execFence c insn s
  | .fenceI c insn => Sys2Proof.Machine.execFenceI c insn s
  | .frameWait c insn => Sys2Proof.Machine.execFrameWait c insn s
  | .regionInv c insn => Sys2Proof.Machine.execRegionInv c insn s
  | .fenceGrove c insn => Sys2Proof.Machine.execFenceGrove c insn s
  | .fenceGroveComplete c => Sys2Proof.Machine.execFenceGroveComplete c s
  | .loopSet c insn => Sys2Proof.Machine.execLoopSet c insn s
  | .ecall c insn => Sys2Proof.Machine.execEcall c insn s
  | .ebreak c insn => Sys2Proof.Machine.execEbreak c insn s
  | .otherInstruction c insn => Sys2Proof.Machine.execOtherInstruction c insn s
  | .walkProbeResponse c f => Sys2Proof.Machine.execWalkProbeResponse c f s
  | .ctxSwitch c insn => Sys2Proof.Machine.execCtxSwitch c insn s
  | .sRet c insn => Sys2Proof.Machine.execSRet c insn s
  | .eRet c insn => Sys2Proof.Machine.execERet c insn s
  | .interruptTaken c => Sys2Proof.Machine.execInterruptTaken c s
  | .regionRegisterWrite c insn => Sys2Proof.Machine.execRegionRegisterWrite c insn s
  | .predFlush c insn => Sys2Proof.Machine.execPredFlush c insn s
  | .pmcOverflow c n => Sys2Proof.Machine.execPmcOverflow c n s
  | .readShared cl addr fetch rt f => Sys2Proof.Machine.execReadShared cl addr fetch rt f s
  | .readUnique c addr rt f => Sys2Proof.Machine.execReadUnique c addr rt f s
  | .upgrade c addr rt f => Sys2Proof.Machine.execUpgrade c addr rt f s
  | .readSpec c addr rt f => Sys2Proof.Machine.execReadSpec c addr rt f s
  | .writeBack cl addr => Sys2Proof.Machine.execWriteBack cl addr s
  | .evict cl addr => Sys2Proof.Machine.execEvict cl addr s
  | .readCurrent r addr size f => Sys2Proof.Machine.execReadCurrent r addr size f s
  | .writeInv r addr bs => Sys2Proof.Machine.execWriteInv r addr bs s
  | .atomicFar cl addr f => Sys2Proof.Machine.execAtomicFar cl addr f s
  | .snoopReceived cl addr evicting => Sys2Proof.Machine.execSnoopReceived cl addr evicting s
  | .completionAck addr => Sys2Proof.Machine.execCompletionAck addr s
  | .retryReissue cl addr => Sys2Proof.Machine.execRetryReissue cl addr s
  | .wheelTurn => Sys2Proof.Machine.execWheelTurn s
  | .patrolPassComplete found => Sys2Proof.Machine.execPatrolPassComplete found s
  | .sparingRebuildComplete => Sys2Proof.Machine.execSparingRebuildComplete s
  | .retentionWakeComplete bank => Sys2Proof.Machine.execRetentionWakeComplete bank s
  | .sealedBankWipeComplete => Sys2Proof.Machine.execSealedBankWipeComplete s
  | .memCntClr r => Sys2Proof.Machine.execMemCntClr r s
  | .pulse r src => Sys2Proof.Machine.execPulse r src s
  | .assert r src => Sys2Proof.Machine.execAssert r src s
  | .deassert r src => Sys2Proof.Machine.execDeassert r src s
  | .irqEnSet r w v => Sys2Proof.Machine.execIrqEnSet r w v s
  | .irqEnClr r w v => Sys2Proof.Machine.execIrqEnClr r w v s
  | .irqPendSet r w v => Sys2Proof.Machine.execIrqPendSet r w v s
  | .irqPendClr r w v => Sys2Proof.Machine.execIrqPendClr r w v s
  | .irqClaim c => Sys2Proof.Machine.execIrqClaim c s
  | .irqEoi c v => Sys2Proof.Machine.execIrqEoi c v s
  | .compatWrite r g v => Sys2Proof.Machine.execCompatWrite r g v s
  | .irqCntClr r => Sys2Proof.Machine.execIrqCntClr r s
  | .dmaHeadWrite r e ch v => Sys2Proof.Machine.execDmaHeadWrite r e ch v s
  | .dmaStart r e ch => Sys2Proof.Machine.execDmaStart r e ch s
  | .dmaStop r e ch => Sys2Proof.Machine.execDmaStop r e ch s
  | .dmaJobStart e => Sys2Proof.Machine.execDmaJobStart e s
  | .dmaElementComplete e => Sys2Proof.Machine.execDmaElementComplete e s
  | .descriptorComplete e => Sys2Proof.Machine.execDescriptorComplete e s
  | .engineBusError e addr wr desc failed ch => Sys2Proof.Machine.execEngineBusError e addr wr desc failed ch s
  | .portReceiveJob e ch => Sys2Proof.Machine.execPortReceiveJob e ch s
  | .portTransmitJob e ch => Sys2Proof.Machine.execPortTransmitJob e ch s
  | .dmaCntClr r => Sys2Proof.Machine.execDmaCntClr r s
  | .getInfo m => Sys2Proof.Machine.execGetInfo m s
  | .getNonce m => Sys2Proof.Machine.execGetNonce m s
  | .getIdentity m => Sys2Proof.Machine.execGetIdentity m s
  | .attest m => Sys2Proof.Machine.execAttest m s
  | .auditRead m => Sys2Proof.Machine.execAuditRead m s
  | .stage m => Sys2Proof.Machine.execStage m s
  | .hwfwUpdate m => Sys2Proof.Machine.execHwfwUpdate m s
  | .lcChange m => Sys2Proof.Machine.execLcChange m s
  | .provision m => Sys2Proof.Machine.execProvision m s
  | .keyRotate m => Sys2Proof.Machine.execKeyRotate m s
  | .certInstall m => Sys2Proof.Machine.execCertInstall m s
  | .imageKeyInstall m => Sys2Proof.Machine.execImageKeyInstall m s
  | .debugOpen m => Sys2Proof.Machine.execDebugOpen m s
  | .debugClose m => Sys2Proof.Machine.execDebugClose m s
  | .nonceLapse => Sys2Proof.Machine.execNonceLapse s
  | .lifecycleChangeReset => Sys2Proof.Machine.execLifecycleChangeReset s
  | .tamperCondition k => Sys2Proof.Machine.execTamperCondition k s
  | .sensorHoldEnd => Sys2Proof.Machine.execSensorHoldEnd s
  | .heartwoodRestart => Sys2Proof.Machine.execHeartwoodRestart s
  | .heartwoodClockSync => Sys2Proof.Machine.execHeartwoodClockSync s
  | .mramRefresh => Sys2Proof.Machine.execMramRefresh s
  | .tapInstructionLoad code => Sys2Proof.Machine.execTapInstructionLoad code s
  | .dmiAccess op => Sys2Proof.Machine.execDmiAccess op s
  | .publicationBoundary => Sys2Proof.Machine.execPublicationBoundary s
  | .integrationIntervalEnd fs => Sys2Proof.Machine.execIntegrationIntervalEnd fs s
  | .pulseEdge ix => Sys2Proof.Machine.execPulseEdge ix s
  | .enclavePowerFail => Sys2Proof.Machine.execEnclavePowerFail s
  | .enclavePowerRecovered => Sys2Proof.Machine.execEnclavePowerRecovered s
  | .enclaveConverterStart crc => Sys2Proof.Machine.execEnclaveConverterStart crc s
  | .enclaveWatchdog crc => Sys2Proof.Machine.execEnclaveWatchdog crc s
  | .checksumCheck crc => Sys2Proof.Machine.execChecksumCheck crc s
  | .converterFault ch => Sys2Proof.Machine.execConverterFault ch s
  | .converterFaultEnd ch => Sys2Proof.Machine.execConverterFaultEnd ch s
  | .parameterRefresh => Sys2Proof.Machine.execParameterRefresh s
  | .sealAsserted => Sys2Proof.Machine.execSealAsserted s
  | .sealReleased => Sys2Proof.Machine.execSealReleased s
  | .ident => Sys2Proof.Machine.execIdent s
  | .paramRead ix => Sys2Proof.Machine.execParamRead ix s
  | .paramWrite ix v => Sys2Proof.Machine.execParamWrite ix v s
  | .commit => Sys2Proof.Machine.execCommit s
  | .abort => Sys2Proof.Machine.execAbort s
  | .logRead seq => Sys2Proof.Machine.execLogRead seq s
  | .measure f => Sys2Proof.Machine.execMeasure f s
  | .readSnapshot r tag arg => Sys2Proof.Machine.execReadSnapshot r tag arg s
  | .readLog r tag arg => Sys2Proof.Machine.execReadLog r tag arg s
  | .timeSet r tag arg => Sys2Proof.Machine.execTimeSet r tag arg s
  | .tariff r tag arg => Sys2Proof.Machine.execTariff r tag arg s
  | .pcieLinkUp speed x8 => Sys2Proof.Machine.execPcieLinkUp speed x8 s
  | .pcieLinkDown => Sys2Proof.Machine.execPcieLinkDown s
  | .pciPerst => Sys2Proof.Machine.execPciPerst s
  | .functionLevelReset pf => Sys2Proof.Machine.execFunctionLevelReset pf s
  | .hostValueWrite tag v => Sys2Proof.Machine.execHostValueWrite tag v s
  | .hostQualityWrite tag q => Sys2Proof.Machine.execHostQualityWrite tag q s
  | .hostValueQualityWrite tag v q => Sys2Proof.Machine.execHostValueQualityWrite tag v q s
  | .hostDoorbell v => Sys2Proof.Machine.execHostDoorbell v s
  | .snapshotCopy => Sys2Proof.Machine.execSnapshotCopy s
  | .snapshotComplete w => Sys2Proof.Machine.execSnapshotComplete w s
  | .snapshotEnable r w v => Sys2Proof.Machine.execSnapshotEnable r w v s
  | .h2dHeadWrite q v => Sys2Proof.Machine.execH2dHeadWrite q v s
  | .d2hHeadWrite r q v => Sys2Proof.Machine.execD2hHeadWrite r q v s
  | .d2hTailWrite q v => Sys2Proof.Machine.execD2hTailWrite q v s
  | .mqEnable r q v => Sys2Proof.Machine.execMqEnable r q v s
  | .outboundReadComplete id ok v => Sys2Proof.Machine.execOutboundReadComplete id ok v s
  | .outboundCompletionTimeout id => Sys2Proof.Machine.execOutboundCompletionTimeout id s
  | .hostIrq r => Sys2Proof.Machine.execHostIrq r s
  | .pciCntClr r => Sys2Proof.Machine.execPciCntClr r s
  | .lockoutRelease a b => Sys2Proof.Machine.execLockoutRelease a b s
  | .powerFailWarning => Sys2Proof.Machine.execPowerFailWarning s
  | .powerFailRelease => Sys2Proof.Machine.execPowerFailRelease s
  | .powerFailColdReset => Sys2Proof.Machine.execPowerFailColdReset s
  | .lockout => Sys2Proof.Machine.execLockout s
  | .feedLost b good => Sys2Proof.Machine.execFeedLost b good s
  | .holdUpStoreNotCharged => Sys2Proof.Machine.execHoldUpStoreNotCharged s
  | .holdUpStoreCharged => Sys2Proof.Machine.execHoldUpStoreCharged s
  | .coldReset => Sys2Proof.Machine.execColdReset s
  | .warmRst r key => Sys2Proof.Machine.execWarmRst r key s
  | .resetRelease => Sys2Proof.Machine.execResetRelease s
  | .sprintRequest r on => Sys2Proof.Machine.execSprintRequest r on s
  | .sprintLimitExpiry => Sys2Proof.Machine.execSprintLimitExpiry s
  | .cooldownEnd => Sys2Proof.Machine.execCooldownEnd s
  | .poweredLedgerUpdate => Sys2Proof.Machine.execPoweredLedgerUpdate s
  | .retentionWrite r v => Sys2Proof.Machine.execRetentionWrite r v s
  | .thermalSample t => Sys2Proof.Machine.execThermalSample t s
  | .maxClr r => Sys2Proof.Machine.execMaxClr r s
  | .ppsOut => Sys2Proof.Machine.execPpsOut s
  | .blockLockTimeout p => Sys2Proof.Machine.execBlockLockTimeout p s
  | .delayResponseTimeout p => Sys2Proof.Machine.execDelayResponseTimeout p s
  | .pdelayRespReceived p m => Sys2Proof.Machine.execPdelayRespReceived p m s
  | .sensorConditionAbsent k => Sys2Proof.Machine.execSensorConditionAbsent k s
  | .frameTransmissionEnd p => Sys2Proof.Machine.execFrameTransmissionEnd p s

end Sys2Proof.Machine
end

