-- ==== Sys2Proof/Safety.lean ====
section
/-! DEFINITION. What counts as a safe state: the canonical forms of the memories and of the register file, which every step
keeps. -/

namespace Sys2Proof.Machine

/-- The canonical form of a byte memory: addresses strictly rising, no byte equal to what an unlisted address reads as. -/
abbrev Memory.wf (d : Byte) (m : Memory) : Prop := mapWf d m = true

/-- Memory, flash and registers are in canonical form. -/
def State.wf (s : State) : Prop :=
  Memory.wf 0 s.mem ∧ Memory.wf 0xFF s.flash ∧ mapWf (0 : Word) s.regs = true

end Sys2Proof.Machine
end

