-- ==== Sys2Proof/Certificates/Slice0/Obligations.lean ====
section
/-! DEFINITION. The statements about the model, for the provers. A command that the spec gives an effect is stated by the state it leaves,
written in the model's operations: everything that they do not touch is left as it was. -/

namespace Sys2Proof

open Sys2Proof.Machine

/-- A command answers a next state, of which `P` holds. -/
def Answers (c : Instr) (s : State) (P : State → Prop) : Prop := ∃ t, exec c s = .next t ∧ P t

/-- A write of `n` bytes by `r` at a window offset reaches its target: the path is open and the firewall grants it (R27, R28, R493). -/
def Admitted (s : State) (r : Requester) (off n : Nat) : Prop :=
  s.present r = true ∧ s.reaches r .write (winBase + off) n = true

/-- The lane's next block, of code `op`, runs: `LE_LANE_POS` names it; the poisoned words that its inputs meet are reported; its state, then OUT0,
then OUT1 take what `f` makes of its inputs; it ends `cost` engine clocks after it began, and its grove's compute completes when it was the last work (R94, R154-R169). -/
def BlockRuns (c : LaneId → Instr) (op cost : Nat) (f : BIn → BOut) : Prop :=
  ∀ (l : LaneId) (s : State) (b t : Nat) (bs : List Byte),
    s.blockReady l.val op = some (b, bs, t) → s.blockFault b bs = none →
    let u := s.set (Fd.LE_LANE_POS.INSTANCE l.val) b
    let v := ((u.blockReports b bs).blockResults l.val b bs (f (u.blockIn l.val b bs))).blockEnd l.val b bs (t + cost)
    exec (c l) s = .next (match v.groveOfLane l.val with
      | some g => v.computeCheck g
      | none => v)

/-- y alone, with the class of R163. -/
def only (i : BIn) (y : Nat) (st : List (Nat × Nat)) : BOut := { y := some (y, i.worst), st := st }

/-- y and z, both with the class of R163. -/
def both (i : BIn) (y z : Nat) (st : List (Nat × Nat)) : BOut := { y := some (y, i.worst), z := some (z, i.worst), st := st }

/-- R175: the integral after conditional integration, from k·e, the new and the old integral, the derivative and the limits. -/
def integrated (ke inew d old ol oh : Nat) : Nat :=
  let u := Blk.add (Blk.add ke inew) d
  if Blk.eq u (Blk.clamp u ol oh) || (Blk.lt oh u && Blk.lt ke 0) || (Blk.lt u ol && Blk.lt 0 ke) then inew else old

/-- The state in which an admitted write takes effect: its requester is answered, its firewall check used up. -/
def accepted (s : State) (r : Requester) : State := (s.fwUsed r).answer .ok

/-- A tag write that is dropped: counted, recorded, and told once (R125). -/
def conflicted (u : State) (tag kind reason index : Nat) : State :=
  let w := ((u.inc Fd.SE_CONFLICT_CNT.COUNT).setReg Rg.SE_CONFLICT_LAST
    (tag + kind * 2 ^ 16 + reason * 2 ^ 19 + index * 2 ^ 24)).set Fd.SE_STAT.CONFLICT 1
  if u.get Fd.SE_STAT.CONFLICT = 0 then w.pulse (w.get Fd.SE_IRQ_SRC.CONFLICT_SRC) else w

/-- The writers that BIND names for Gather writes: a map entry, a subscription, a grove, an enclave channel, the host (R123). -/
def bindNames (t : Tag) : GatherWriter → Prop
  | .map e => t.wKind = 1 ∧ t.wIndex = e.val
  | .subscription i => t.wKind = 2 ∧ t.wIndex = i.val
  | .grove g => t.wKind = 4 ∧ t.grove = g.val
  | .enclave c => t.wKind = 5 ∧ t.wIndex = c.val
  | .host => t.wKind = 6

/-- The effect of an admitted value or quality write by the tag's writer: a Compute write from a core whose grove computes (it applies
unless a higher order key has been used in this frame, R136), else a Gather write, dropped when the tag has no slot. -/
def ownWritten (u : State) (r : Requester) (i : Nat) (f : State → State) (g : State → State) : State :=
  match r, u.inCompute r with
  | .core c, true =>
    let key := u.orderKey c.val
    if (if (u.rt i).keyFrame == some u.frameNo then (u.rt i).key else 0) ≤ key then
      (f u).setRt i { (f u).rt i with key := key, keyFrame := some u.frameNo, changed := true }
    else u.inc Fd.SE_ORDER_CNT.COUNT
  | _, _ => if (u.tag i).slotEn then g u else u.gatherDrop

/-- R194-R198, R215: the first 64 matching map entries make their Gather writes, an entry that reads beyond the payload counting as short;
more than 64 count as short once; a frame without an entry, and every frame under MIRROR, goes to the receive queue of its priority. -/
def delivered (u : State) (p : Nat) (f : RxFrame) (stamp : Nat) (es : List (List Byte × Nat)) : State :=
  let h := parseFrame f.bytes
  let short (v : State) : State := (v.inc (Fd.FP_PORT_SHORT_CNT.COUNT p)).set Fd.FP_STAT.SHORT 1
  let v := (es.take 64).foldl (fun v e =>
    if h.payload.length < meEnd e.1 then short v
    else v.gather (.map (Fin.ofNat _ e.2)) (meTag e.1)
      (.value (BitVec.ofNat 64 (extract (meFmt e.1) (meOff e.1) (meBit e.1) h.payload)) (BitVec.ofNat 64 stamp)
        (BitVec.ofNat 8 (meQuality e.1 h.payload)))) u
  let v := if 64 < es.length then short v else v
  if es = [] ∨ u.get (Fd.FP_PORT_CFG.MIRROR p) ≠ 0 then
    v.modPort p fun x => { x with rxQueue := x.rxQueue ++ [(h.pcp / 2, { f with capture := BitVec.ofNat 64 stamp })] } else v

/-- A grove command may be taken (R279, R281): an E-level core, no power-fail sequence, no Safe Hold, no command in progress, and the grove in
a state of the command's row. -/
def GroveCmdTaken (s : State) (r : Requester) (op g arg : Nat) : Prop :=
  s.isE r = true ∧ s.get Fd.PWR_STAT.PFW = 0 ∧ s.get Fd.CFG_STAT.SAFE_HOLD = 0 ∧ s.get Fd.GRV_CMD_STAT.BUSY = 0 ∧ s.cmdAllowed op g arg = true

/-- The command runs on: BUSY is set and it is the one in progress. -/
def begun (s : State) (op g arg addr : Nat) : State :=
  { s.set Fd.GRV_CMD_STAT.BUSY 1 with gcmd := some { op := op, grove := g, arg := arg, addr := addr } }

/-- R279, R282: the command reports RESULT and DETAIL and writes its doorbell. -/
def reported (s : State) (result detail : Nat) : State :=
  ((s.set Fd.GRV_CMD_STAT.RESULT result).set Fd.GRV_CMD_STAT.DETAIL detail).pulse (s.get Fd.GRV_IRQ_SRC.CMD_SRC)

/-- The instruction at a core's PC has been fetched: the core is ready for it, it belongs to the row, its fetch passed its checks (R342, R356)
and left the state `u`. -/
def Fetches (s : State) (c : CoreId) (insn : Word32) (row : RvRow) (i : Insn) (u : State) : Prop :=
  s.ready c.val = true ∧ i = { raw := rvBits insn.toNat, word := (rvWord insn.toNat).getD 0, len := rvLen insn.toNat } ∧
    s.rowOf c.val i.word = row ∧ s.fetch c i.len = .ok u

/-- The state after an exception of an instruction presented at `s`, whose execution left `v`: an interrupt that is deliverable at the same
boundary is taken in its place, from the state before the instruction (R351). -/
def excepted (s v : State) (c : CoreId) (code synd tval : Nat) : State :=
  (match s.offerOf c.val with
    | some src => s.takeInterrupt c.val src
    | none => v.trap c.val code synd tval).settle

/-- The way of the entry that a home's directory has for a line. -/
def wayAt (s : State) (line : Nat) : Option Nat := (mapGet? s.coh.dir line).map (·.way)

/-- A request of a home's line that is accepted with no snoop to await: the entry that it needs exists, and its transaction is open. -/
def openedFor (s : State) (q : HomeReq) : State :=
  let u := if q.kind.needsEntry = true ∧ mapGet? s.coh.dir q.line = none then s.dirPut q.line q.rt q.way false 0 else s
  u.setTx q.line (some { req := q, way := wayAt u q.line })

/-- Its transaction awaits the requester's acknowledgement (R383). -/
def finishedFor (s t : State) (q : HomeReq) : State :=
  t.setTx q.line (some { req := q, way := wayAt (openedFor s q) q.line, finished := true })

/-- The home reads the line, with what the error logic finds (R398-R401). -/
def readBy (s : State) (q : HomeReq) (f : MemFault) : State := (s.rtTouch q.line q.rt).memFault none (64 * q.line) f

/-- A request is sent: the limit of open transactions lets it go (R30), its line is memory that no transaction blocks. -/
def Sent (s : State) (q : HomeReq) (v : State) : Prop :=
  s.transTake q.requester 1 = (true, v) ∧ targetOf (64 * q.line) = .gddr ∧ v.blocked q.line = false

/-- The command of a mailbox is in progress and its request has the length of its row (R459). -/
def Served (s : State) (m : Fin 2) (code len : Nat) : Prop :=
  s.heartwoodRuns = true ∧ s.sec.queue.head? = some m.val ∧ s.get (Fd.HWD_MBX_CMD.CODE m.val) = code ∧ s.get (Fd.HWD_MBX_CMD.LEN m.val) = len

/-- R448, R460: the owner block at the end of a request is good: the mailbox is not locked, the block's nonce is the outstanding one and less
than 600 s old, and the owner's signature over the request verifies. -/
def OwnerAllows (s : State) (m code : Nat) (req : List Byte) : Prop :=
  let n := req.length - 128
  let nonce := (sliceB req n 128).take 32
  s.get (Fd.HWD_MBX_STAT.LOCKED m) = 0 ∧ (∃ t, (s.box m).nonce = some (nonce, t) ∧ s.hwTime < t + 600000000000) ∧
    Config.signatureValid ((s.ownerIndex.map s.ownerDigest).getD [])
      (leBytes 8 (s.reg Rg.HWD_SERIAL_LO) ++ leBytes 8 (s.reg Rg.HWD_SERIAL_HI) ++ leBytes 2 code ++ req.take n ++ nonce)
      ((sliceB req n 128).drop 32) = true

/-- The nonce is used up and the failures in a row restart. -/
def ownerUsed (s : State) (m : Nat) : State :=
  let u := s.setBox m { s.box m with nonce := none }
  u.setBox m { u.box m with fails := 0 }

/-- Where the buffer of a command lies that gives ADDR and LENGTH: in GDDR7 for mailbox 0, in the staging window of PF0 for mailbox 1. -/
def bufferAt (m addr : Nat) : Nat := if m = 0 then addr else 0x7_F000_0000 + addr

def bufferFits (m addr len : Nat) : Prop := addr + len ≤ if m = 0 then gddrSize else 0x1000_0000

/-- A change that is accepted: once its audit entry is written, its counter steps, and its result is given; interrupted before, it waits with
the command in progress, and interrupted while the cell is programmed, it leaves that cell with an unclean margin. -/
def changed (s : State) (c : Change) (e : ChangeEnd) : State :=
  match e with
  | .whole => (s.changeStep c).mbxReply c.mailbox []
  | .entry => s.modSec fun x => { x with change := some c }
  | .cell => s.modSec fun x => { x with change := some c, margin := c.counter.toList ++ x.margin.filter fun k => some k != c.counter }

/-- The commands that may store to memory: of all others, memory stays as it was. -/
def mayStore : Instr → Bool
  | .registerWrite .. | .lowWordWrite .. | .highWordWrite .. | .romSelfTestComplete .. | .mainSideRelease | .flashReadComplete ..
  | .wipeComplete | .slotReadComplete | .semanticChecksComplete | .sectionsLoaded | .admissionCheckComplete | .tick | .sweepEnd
  | .budgetExpiry .. | .commitDeadline | .gatherWrite .. | .valueWrite .. | .qualityWrite .. | .tuningWrite .. | .configurationWrite ..
  | .alarmEntryDrain | .pidIsa .. | .pidPar .. | .pidVel .. | .pidExt .. | .piGap .. | .onoff .. | .leadlag .. | .lag1 .. | .lag2 ..
  | .deadtime .. | .mavg .. | .deriv .. | .integ .. | .total .. | .ramp .. | .ratelim .. | .limit .. | .char .. | .linear .. | .split ..
  | .selhi .. | .sello .. | .selmid .. | .selsw .. | .selavg .. | .add .. | .mul .. | .div .. | .sqrt .. | .abs .. | .and .. | .or ..
  | .xor .. | .not .. | .cmp .. | .srff .. | .edge .. | .ton .. | .tof .. | .tpulse .. | .ctu .. | .move .. | .sample .. | .mansta ..
  | .ratio .. | .poly3 .. | .gascomp .. | .callDone .. | .leTuningWrite .. | .frameReceived .. | .fieldLinkDown ..
  | .linkFrameReceived .. | .data .. | .messageIssue .. | .req .. | .rsp .. | .messageExpiry .. | .restore .. | .clearingComplete ..
  | .freezeComplete .. | .saveComplete .. | .xfer .. | .storeDrain .. | .atomic .. | .sc .. | .frameWait .. | .ctxSwitch ..
  | .readShared .. | .readUnique .. | .upgrade .. | .readSpec .. | .writeBack .. | .evict .. | .readCurrent .. | .writeInv ..
  | .atomicFar .. | .snoopReceived .. | .completionAck .. | .retryReissue .. | .sealedBankWipeComplete | .dmaJobStart ..
  | .dmaElementComplete .. | .descriptorComplete .. | .portReceiveJob .. | .portTransmitJob .. | .sensorHoldEnd | .tapInstructionLoad ..
  | .dmiAccess .. | .publicationBoundary | .pcieLinkDown | .pciPerst | .hostValueWrite .. | .hostQualityWrite ..
  | .hostValueQualityWrite .. | .snapshotCopy | .snapshotComplete .. | .powerFailWarning | .lockout | .resetRelease
  | .frameTransmissionEnd .. => true
  | _ => false

/-- The commands that may change the flash device. -/
def mayFlash : Instr → Bool
  | .registerWrite .. | .lowWordWrite .. | .highWordWrite .. | .bootPointerWrite | .stagingComplete | .storeDrain .. | .stage ..
  | .hwfwUpdate .. | .lifecycleChangeReset | .tamperCondition .. | .tapInstructionLoad .. | .dmiAccess .. | .powerFailWarning
  | .powerFailColdReset | .lockout | .coldReset | .warmRst .. => true
  | _ => false

/-- The commands that may change the metrology enclave. -/
def mayMeter : Instr → Bool
  | .registerWrite .. | .lowWordWrite .. | .highWordWrite .. | .romSelfTestComplete .. | .mainSideRelease | .syncReceived ..
  | .linkFrameReceived .. | .beat .. | .storeDrain .. | .lifecycleChangeReset | .tamperCondition .. | .sensorHoldEnd
  | .tapInstructionLoad .. | .dmiAccess .. | .publicationBoundary | .integrationIntervalEnd .. | .pulseEdge .. | .enclavePowerFail
  | .enclavePowerRecovered | .enclaveConverterStart .. | .enclaveWatchdog .. | .checksumCheck .. | .converterFault ..
  | .converterFaultEnd .. | .parameterRefresh | .sealAsserted | .sealReleased | .ident | .paramRead .. | .paramWrite .. | .commit
  | .abort | .logRead .. | .measure .. | .readSnapshot .. | .readLog .. | .timeSet .. | .tariff .. | .powerFailColdReset | .lockout
  | .coldReset | .warmRst .. | .resetRelease => true
  | _ => false

/-- The commands that may change the Loop Engine outside its registers. -/
def mayLoop : Instr → Bool
  | .registerWrite .. | .lowWordWrite .. | .highWordWrite .. | .flashReadComplete .. | .slotReadComplete | .semanticChecksComplete
  | .sectionsLoaded | .admissionCheckComplete | .sweepEnd | .commitDeadline | .pidIsa .. | .pidPar .. | .pidVel .. | .pidExt ..
  | .piGap .. | .onoff .. | .leadlag .. | .lag1 .. | .lag2 .. | .deadtime .. | .mavg .. | .deriv .. | .integ .. | .total .. | .ramp ..
  | .ratelim .. | .limit .. | .char .. | .linear .. | .split .. | .selhi .. | .sello .. | .selmid .. | .selsw .. | .selavg .. | .add ..
  | .mul .. | .div .. | .sqrt .. | .abs .. | .and .. | .or .. | .xor .. | .not .. | .cmp .. | .srff .. | .edge .. | .ton .. | .tof ..
  | .tpulse .. | .ctu .. | .move .. | .sample .. | .mansta .. | .ratio .. | .call .. | .poly3 .. | .gascomp .. | .callDone ..
  | .callTimeout .. | .leTuningWrite .. | .fieldLinkDown .. | .create .. | .reset .. | .destroy .. | .clearingComplete ..
  | .storeDrain .. | .frameWait .. | .dmaJobStart .. | .dmaElementComplete .. | .descriptorComplete .. | .portReceiveJob ..
  | .portTransmitJob .. | .lifecycleChangeReset | .tamperCondition .. | .tapInstructionLoad .. | .dmiAccess .. | .powerFailWarning
  | .powerFailColdReset | .lockout | .coldReset | .warmRst .. | .frameTransmissionEnd .. => true
  | _ => false

/-- The commands that may change the field ports outside their registers. -/
def mayField : Instr → Bool
  | .registerWrite .. | .lowWordWrite .. | .highWordWrite .. | .flashReadComplete .. | .slotReadComplete | .semanticChecksComplete
  | .sectionsLoaded | .admissionCheckComplete | .tick | .sweepEnd | .stagingEnd .. | .commitDeadline | .templateRelease .. | .pidIsa ..
  | .pidPar .. | .pidVel .. | .pidExt .. | .piGap .. | .onoff .. | .leadlag .. | .lag1 .. | .lag2 .. | .deadtime .. | .mavg ..
  | .deriv .. | .integ .. | .total .. | .ramp .. | .ratelim .. | .limit .. | .char .. | .linear .. | .split .. | .selhi .. | .sello ..
  | .selmid .. | .selsw .. | .selavg .. | .add .. | .mul .. | .div .. | .sqrt .. | .abs .. | .and .. | .or .. | .xor .. | .not ..
  | .cmp .. | .srff .. | .edge .. | .ton .. | .tof .. | .tpulse .. | .ctu .. | .move .. | .sample .. | .mansta .. | .ratio .. | .poly3 ..
  | .gascomp .. | .callDone .. | .frameReceived .. | .cbHistoryReset .. | .gateEntryChange .. | .queueTransmit .. | .fieldLinkDown ..
  | .syncReceived .. | .syncTransmit .. | .announceTransmit .. | .pdelayReqTransmit .. | .pdelayReqReceived .. | .startupWaitExpiry
  | .reset .. | .destroy .. | .clearingComplete .. | .storeDrain .. | .frameWait .. | .portReceiveJob .. | .portTransmitJob ..
  | .lifecycleChangeReset | .tamperCondition .. | .tapInstructionLoad .. | .dmiAccess .. | .powerFailWarning | .powerFailRelease
  | .powerFailColdReset | .lockout | .coldReset | .warmRst .. | .pdelayRespReceived .. | .frameTransmissionEnd .. => true
  | _ => false

/-- The commands that may change the cascade outside its registers. -/
def mayCascade : Instr → Bool
  | .registerWrite .. | .lowWordWrite .. | .highWordWrite .. | .romSelfTestComplete .. | .mainSideRelease | .flashReadComplete ..
  | .slotReadComplete | .semanticChecksComplete | .sectionsLoaded | .admissionCheckComplete | .tick | .sweepEnd | .stagingEnd ..
  | .commitDeadline | .pidIsa .. | .pidPar .. | .pidVel .. | .pidExt .. | .piGap .. | .onoff .. | .leadlag .. | .lag1 .. | .lag2 ..
  | .deadtime .. | .mavg .. | .deriv .. | .integ .. | .total .. | .ramp .. | .ratelim .. | .limit .. | .char .. | .linear .. | .split ..
  | .selhi .. | .sello .. | .selmid .. | .selsw .. | .selavg .. | .add .. | .mul .. | .div .. | .sqrt .. | .abs .. | .and .. | .or ..
  | .xor .. | .not .. | .cmp .. | .srff .. | .edge .. | .ton .. | .tof .. | .tpulse .. | .ctu .. | .move .. | .sample .. | .mansta ..
  | .ratio .. | .poly3 .. | .gascomp .. | .callDone .. | .blockLock .. | .keyDerivationComplete .. | .bringupRetry ..
  | .heldHelloTransmit .. | .hawserLinkDown .. | .linkFrameReceived .. | .linkFrameTransmit .. | .hello .. | .cert .. | .keyx ..
  | .confirm .. | .diagReq .. | .diagRsp .. | .close .. | .dreqTransmit .. | .dreq .. | .drsp .. | .beat .. | .beatMiss
  | .startupWaitExpiry | .taprootStartDelay | .messageIssue .. | .req .. | .rsp .. | .messageExpiry .. | .mqDoorbellHoldoffEnd ..
  | .reset .. | .destroy .. | .restore .. | .clearingComplete .. | .saveComplete .. | .xfer .. | .storeDrain .. | .frameWait ..
  | .lifecycleChangeReset | .tamperCondition .. | .sensorHoldEnd | .tapInstructionLoad .. | .dmiAccess .. | .powerFailWarning
  | .powerFailColdReset | .lockout | .coldReset | .warmRst .. | .resetRelease | .blockLockTimeout .. | .delayResponseTimeout .. => true
  | _ => false

/-- The commands that may change a grove outside its registers. -/
def mayGroves : Instr → Bool
  | .registerWrite .. | .lowWordWrite .. | .highWordWrite .. | .romSelfTestComplete .. | .mainSideRelease | .flashReadComplete ..
  | .slotReadComplete | .semanticChecksComplete | .sectionsLoaded | .admissionCheckComplete | .tick | .sweepEnd | .stagingEnd ..
  | .commitDeadline | .release .. | .forceFs .. | .pidIsa .. | .pidPar .. | .pidVel .. | .pidExt .. | .piGap .. | .onoff .. | .leadlag ..
  | .lag1 .. | .lag2 .. | .deadtime .. | .mavg .. | .deriv .. | .integ .. | .total .. | .ramp .. | .ratelim .. | .limit .. | .char ..
  | .linear .. | .split .. | .selhi .. | .sello .. | .selmid .. | .selsw .. | .selavg .. | .add .. | .mul .. | .div .. | .sqrt ..
  | .abs .. | .and .. | .or .. | .xor .. | .not .. | .cmp .. | .srff .. | .edge .. | .ton .. | .tof .. | .tpulse .. | .ctu .. | .move ..
  | .sample .. | .mansta .. | .ratio .. | .call .. | .poly3 .. | .gascomp .. | .callDone .. | .callTimeout .. | .linkFrameReceived ..
  | .messageIssue .. | .req .. | .rsp .. | .create .. | .start .. | .reset .. | .destroy .. | .freeze .. | .thaw .. | .save ..
  | .restore .. | .switch .. | .promote .. | .clearingComplete .. | .freezeComplete .. | .xfer .. | .trackingApplyComplete ..
  | .firewallEntryWrite .. | .storeDrain .. | .frameWait .. | .fenceGroveComplete .. | .lifecycleChangeReset | .tamperCondition ..
  | .sensorHoldEnd | .tapInstructionLoad .. | .dmiAccess .. | .powerFailWarning | .powerFailColdReset | .lockout | .coldReset
  | .warmRst .. | .resetRelease => true
  | _ => false

end Sys2Proof

open Sys2Proof Sys2Proof.Machine

/-- The command at the front of the queue runs on the state with the queue's rest.
On an empty queue the time counter advances by one nanosecond and nothing else changes (the model's choice, log 1). -/
def Obligations.StepRunsTheFrontCommand : Prop :=
  (∀ (c : Instr) (rest : List Instr) (s : State), s.pending = c :: rest → step s = exec c { s with pending := rest }) ∧
  (∀ s : State, s.pending = [] → step s = .next { s with now := s.now + 1 })

/-- Every command answers a next state, leaves the queue alone and changes neither the variant nor the flash device (R1, R3, R45). -/
def Obligations.EveryCommandAnswers : Prop :=
  ∀ (c : Instr) (s : State), Answers c s fun t =>
    t.pending = s.pending ∧ t.mx = s.mx ∧ t.flashBytes = s.flashBytes ∧ t.flashSlow = s.flashSlow

/-- Memory, flash and registers are in canonical form at reset. -/
def Obligations.ResetIsCanonical : Prop := State.reset.wf

/-- Every step keeps memory, flash and registers in canonical form, so that equal contents stay equal data. -/
def Obligations.StepKeepsForms : Prop :=
  ∀ s t : State, s.wf → step s = .next t → t.wf

/-- R7: a write of n bytes of memory stores the value's bytes with the least significant first, and no other byte changes. -/
def Obligations.MemoryIsLittleEndian : Prop :=
  ∀ (s : State) (a n v : Nat),
    (∀ i, i < n → (s.wr a n v).byte (a + i) = BitVec.ofNat 8 (v / 256 ^ i)) ∧
    (∀ x, x < a ∨ a + n ≤ x → (s.wr a n v).byte x = s.byte x) ∧
    (s.wr a n v).rd a n = v % 256 ^ n

/-- R78, R82: a tick that may fire begins a frame: the frame number goes up by one (0 for the first frame), the tick time is the grid
instant, PHASE is Evaluate, DUE shows the classes due, the tick is put out; the groves, the cascade, the fold and the sweep follow. -/
def Obligations.TickBeginsAFrame : Prop :=
  ∀ s : State, s.frame.stopped = false → s.mayTick = true → s.nextTick < 2 ^ 64 → s.frameNo + 1 < 2 ^ 64 →
    let u := s.tickStart s.nextTick
    u.frameNo = (if s.frameRunning then s.frameNo + 1 else 0) ∧ u.tickTime = s.nextTick ∧ u.now = max s.now s.nextTick ∧
    u.get Fd.FRM_STAT.PHASE = 1 ∧ u.frameRunning = true ∧ (∀ k, k < 4 → u.due k = s.dueAt (s.tickIndex s.nextTick) k) ∧
    u.pins.tickOut = some s.nextTick ∧
    (∀ x, u.byte x = s.byte x) ∧ u.cores = s.cores ∧ u.groves = s.groves ∧ u.loop = s.loop ∧
    Answers .tick s fun t => t = u.tickRest s.nextTick

/-- R86, R88, R171: the end of the sweep at E(n) sets PHASE Compute, records the tags swept and clears every barrier flag, and Compute
begins. R104, R105, R108: at D(n) PHASE becomes Committed; a running grove that has not committed and has reached no freeze point overruns,
and FRM_SLACK_MIN becomes 0; any other resets its CONSEC, and the least time left before D(n) is kept. R96: the end of a grove's staging is its S(g), after which tracking and a freeze point follow. -/
def Obligations.FramePhasesEnd : Prop :=
  (∀ s : State, s.frameRunning = true → s.frame.eTime = none → s.frame.decided = false → s.frame.swept < 2 ^ 64 →
    s.sweepRegs.get Fd.FRM_STAT.PHASE = 2 ∧ s.sweepRegs.reg Rg.SE_SWEPT_LAST = s.frame.swept ∧
    (∀ w, w < 8 → s.sweepRegs.reg (Rg.LE_BARRIER w) = 0) ∧ s.sweepRegs.frame.eTime = some (s.tickTime + clocksNs s.frame.sweepClk) ∧
    Answers .sweepEnd s fun t => t = s.sweepRegs.beginCompute) ∧
  (∀ s : State, s.frameRunning = true → s.frame.eTime.isSome = true → s.frame.decided = false →
    let u := ((s.atTime s.deadline).set Fd.FRM_STAT.PHASE 3).modFrame fun f => { f with decided := true }
    let late (g : Nat) : Prop := (u.grv g).sTime = none ∧ (u.grv g).freezing = false
    let v := u.runningGroves.foldl (fun t g => if late g then t.overrun g else t.set (Fd.FRM_GRV_STAT.CONSEC g) 0) u
    let ends := u.runningGroves.filterMap fun g => (u.grv g).sTime
    exec .commitDeadline s = .next (if ∃ g ∈ u.runningGroves, late g then v.setReg Rg.FRM_SLACK_MIN 0
      else if ends = [] then v else v.setReg Rg.FRM_SLACK_MIN (min (v.reg Rg.FRM_SLACK_MIN) (s.deadline - maxL ends)))) ∧
  (∀ (s : State) (g : GroveId), (s.grv g.val).staging = true →
    Answers (.stagingEnd g) s fun t => t = ((s.committed g.val).track g.val false).freezePoint g.val)

/-- R101, R102: when a task's budget runs out, its time is reached, the task is not dispatched again in this frame, BUDGET_EXP of its
grove is set, the doorbell follows and the core goes on with its next work. R203: at its release instant a port releases the templates
due, and once only.
R108, R109: RELEASE arms the end of fail-safe of a grove in fail-safe, from the first on; FORCE_FS puts a grove into fail-safe and disarms. R78: SNAP
latches time and frame number. The clears of chapter 3 set their counters to their reset values. -/
def Obligations.FrameControls : Prop :=
  ((∀ (s : State) (c : CoreId) (i : Nat) (t : Task), (s.core c.val).task = some i → s.frame.tasks[i]? = some t → t.grove < 64 →
    let u := s.budgetOut c.val i t
    u.get (Fd.FRM_GRV_STAT.BUDGET_EXP t.grove) = 1 ∧ (u.frame.tasks[i]?.map (·.ranOut)) = some true ∧
    Answers (.budgetExpiry c) s fun v => v = (u.pulse (u.get Fd.FRM_IRQ_SRC.OVR_BASE + 64 + t.grove)).nextWork c.val) ∧
  (∀ (s : State) (p : FieldPort), s.releaseDue p.val = true →
    let k := s.releaseFrame.1
    let u := (s.atTime (s.releaseFrame.2.1 + s.get (Fd.FP_PORT_OFS.OFS_NS p.val))).modPort p.val fun x => { x with released := some k }
    Answers (.templateRelease p) s fun v =>
      v = u.each (u.field.templates.filter fun e => e.2.port == p.val && u.dueAt s.releaseFrame.2.2 e.2.cls) fun s e =>
        s.releaseTemplate k e.1 e.2)) ∧
  (∀ (s : State) (r : Requester) (g : GroveId),
    (Admitted s r (Rg.FRM_GRV_CTL g.val) 4 → s.failsafe g.val = true →
      Answers (.release r g) s fun t => t.get (Fd.FRM_GRV_STAT.RELEASE_ARMED g.val) = 1 ∧
        (∀ x, s.grv? g.val = some x → t.grv? g.val = some { x with relTime := some (x.relTime.getD s.now) }) ∧
        (∀ f : Fld, f.off ≠ Rg.FRM_GRV_STAT g.val → t.get f = s.get f) ∧ t.mem = s.mem ∧ t.cores = s.cores ∧ t.loop = s.loop) ∧
    (Admitted s r (Rg.FRM_GRV_CTL g.val) 4 →
      Answers (.forceFs r g) s fun t => t.failsafe g.val = true ∧ t.get (Fd.FRM_GRV_STAT.RELEASE_ARMED g.val) = 0 ∧
        t.get Fd.FRM_STAT.FS_ANY = 1 ∧ t.mem = s.mem ∧ t.cores = s.cores ∧ t.loop = s.loop) ∧
    (Admitted s r Rg.FRM_CTL 4 → s.now < 2 ^ 64 →
      Answers (.snap r) s fun t => t.reg Rg.FRM_SNAP_TIME = s.now ∧ t.reg Rg.FRM_SNAP_NUMBER = s.frameNo ∧
        (∀ i, i ≠ Rg.FRM_SNAP_TIME → i ≠ Rg.FRM_SNAP_NUMBER → t.reg i = s.reg i) ∧ t.mem = s.mem ∧ t.groves = s.groves ∧ t.cores = s.cores) ∧
    (Admitted s r Rg.FRM_CTL 4 →
      Answers (.ovrCntClr r) s fun t => t.reg Rg.FRM_OVR_CNT = 0 ∧ (∀ k, k < 64 → t.reg (Rg.FRM_GRV_OVR_CNT k) = 0) ∧
        (∀ i, i ≠ Rg.FRM_OVR_CNT → (∀ k, k < 64 → i ≠ Rg.FRM_GRV_OVR_CNT k) → t.reg i = s.reg i) ∧ t.mem = s.mem ∧ t.groves = s.groves) ∧
    (Admitted s r Rg.FRM_CTL 4 →
      Answers (.statsClr r) s fun t => t.reg Rg.FRM_SWEEP_MAX = 0 ∧ t.reg Rg.FRM_SLACK_MIN = 0xFFFFFFFF ∧
        (∀ i, i ≠ Rg.FRM_SWEEP_MAX → i ≠ Rg.FRM_SLACK_MIN → t.reg i = s.reg i) ∧ t.mem = s.mem ∧ t.groves = s.groves))

open Blk in
/-- The controllers in their automatic branch, when they track and when they hold, and ONOFF (R175, R176). -/
def Obligations.ControllerBlocks : Prop :=
  BlockRuns .pidIsa 0x01 56 (fun i =>
    let e := sub (i.x 1) (i.x 0)
    let ke := mul i.k e
    let tf := mul (i.st 1) c0125
    let d := sub (mul (div tf (add tf i.dt)) (i.st 5)) (mul (div (mul i.k (i.st 1)) (add tf i.dt)) (sub (i.x 0) (i.st 6)))
    let inew := if lt 0 (i.st 0) then add (i.st 4) (mul (div (mul i.k i.dt) (i.st 0)) e) else i.st 4
    let y := clamp (add (add ke inew) d) (i.st 3) (i.st 2)
    let held := clamp (i.x 2) (i.st 3) (i.st 2)
    if i.holds then { y := some (i.st 7, i.worst) }
    else if t (i.x 3) then both i held e [(4, sub held ke), (5, 0), (6, i.x 0), (7, held)]
    else both i y e [(4, integrated ke inew d (i.st 4) (i.st 3) (i.st 2)), (5, d), (6, i.x 0), (7, y)]) ∧
  BlockRuns .pidPar 0x02 52 (fun i =>
    let e := sub (i.x 1) (i.x 0)
    let ke := mul i.k e
    let d := sub (mul c075 (i.st 5)) (mul (div (mul (i.st 1) c025) i.dt) (sub (i.x 0) (i.st 6)))
    let inew := if lt 0 (i.st 0) then add (i.st 4) (mul (mul (i.st 0) i.dt) e) else i.st 4
    let y := clamp (add (add ke inew) d) (i.st 3) (i.st 2)
    let held := clamp (i.x 2) (i.st 3) (i.st 2)
    if i.holds then { y := some (i.st 7, i.worst) }
    else if t (i.x 3) then both i held e [(4, sub held ke), (5, 0), (6, i.x 0), (7, held)]
    else both i y e [(4, integrated ke inew d (i.st 4) (i.st 3) (i.st 2)), (5, d), (6, i.x 0), (7, y)]) ∧
  BlockRuns .pidVel 0x03 48 (fun i =>
    let e := sub (i.x 1) (i.x 0)
    let it := if eq (i.st 0) 0 then 0 else mul (div i.dt (i.st 0)) e
    let u := add (i.x 2) (mul i.k (sub (add (sub e (i.st 4)) it)
      (mul (div (i.st 1) i.dt) (sub (sub (i.x 0) (i.st 5)) (sub (i.st 5) (i.st 6))))))
    let y := clamp (if t (i.x 3) then i.x 2 else u) (i.st 3) (i.st 2)
    if i.holds then { y := some (i.st 7, i.worst) }
    else both i y e [(4, e), (5, i.x 0), (6, i.st 5), (7, y)]) ∧
  BlockRuns .pidExt 0x04 56 (fun i =>
    let e := sub (i.x 1) (i.x 0)
    let ke := mul i.k e
    let tf := mul (i.st 1) c0125
    let d := sub (mul (div tf (add tf i.dt)) (i.st 5)) (mul (div (mul i.k (i.st 1)) (add tf i.dt)) (sub (i.x 0) (i.st 6)))
    let f := add (i.st 4) (mul (div i.dt (add (i.st 0) i.dt)) (sub (i.x 2) (i.st 4)))
    let y := clamp (add (add ke f) d) (i.st 3) (i.st 2)
    let held := clamp (i.x 2) (i.st 3) (i.st 2)
    if i.holds then { y := some (i.st 7, i.worst) }
    else if t (i.x 3) then both i held e [(4, sub held ke), (5, 0), (6, i.x 0), (7, held)]
    else both i y e [(4, f), (5, d), (6, i.x 0), (7, y)]) ∧
  BlockRuns .piGap 0x05 44 (fun i =>
    let e := sub (i.x 1) (i.x 0)
    let e := if le (fAbs f32 e) (i.st 1) then mul e (i.st 2) else e
    let ke := mul i.k e
    let inew := if lt 0 (i.st 0) then add (i.st 5) (mul (div (mul i.k i.dt) (i.st 0)) e) else i.st 5
    let y := clamp (add (add ke inew) 0) (i.st 4) (i.st 3)
    let held := clamp (i.x 2) (i.st 4) (i.st 3)
    if i.holds then { y := some (i.st 6, i.worst) }
    else if t (i.x 3) then both i held e [(5, sub held ke), (6, held)]
    else both i y e [(5, integrated ke inew 0 (i.st 5) (i.st 4) (i.st 3)), (6, y)]) ∧
  BlockRuns .onoff 0x06 12 (fun i =>
    let st := if le (i.x 0) (sub (i.x 1) (i.st 0)) then one else if le (add (i.x 1) (i.st 0)) (i.x 0) then 0 else i.st 1
    only i (if le 0 i.k then st else sub one st) [(1, st)])

open Blk in
/-- The blocks with memory of earlier values: filters, delay lines and derivative, integrators and ramps (R176). -/
def Obligations.DynamicBlocks : Prop :=
  BlockRuns .leadlag 0x07 32 (fun i =>
    let w := mul i.k (i.x 0)
    let y := div (sub (add (mul (i.st 1) (i.st 3)) (mul (add (i.st 0) i.dt) w)) (mul (i.st 0) (i.st 2))) (add (i.st 1) i.dt)
    only i y [(2, w), (3, y)]) ∧
  BlockRuns .lag1 0x08 20 (fun i =>
    let y := add (i.st 1) (mul (div i.dt (add (i.st 0) i.dt)) (sub (mul i.k (i.x 0)) (i.st 1)))
    only i y [(1, y)]) ∧
  BlockRuns .lag2 0x09 32 (fun i =>
    let y1 := add (i.st 2) (mul (div i.dt (add (i.st 0) i.dt)) (sub (mul i.k (i.x 0)) (i.st 2)))
    let y2 := add (i.st 3) (mul (div i.dt (add (i.st 1) i.dt)) (sub y1 (i.st 3)))
    both i y2 y1 [(2, y1), (3, y2)]) ∧
  BlockRuns .deadtime 0x0A 24 (fun i =>
    let w := i.st 1 % i.st 0
    { y := some (i.line w), stU := [(1, (w + 1) % i.st 0)], line := some (w, i.x 0, i.c 0) }) ∧
  BlockRuns .mavg 0x0B 28 (fun i =>
    let w := i.st 1 % i.st 0
    let sum := fAdd f64 (fSub f64 (i.st 2 + i.st 3 * 2 ^ 32) (fCvt f32 f64 (i.line w).1)) (fCvt f32 f64 (i.x 0))
    { y := some (fCvt f64 f32 (fDiv f64 sum (fOfNat f64 (i.st 0))), i.worst)
      stU := [(1, (w + 1) % i.st 0)], stD := [(2, sum)], line := some (w, i.x 0, i.c 0) }) ∧
  BlockRuns .deriv 0x0C 24 (fun i =>
    let y := div (add (mul (i.st 0) (i.st 2)) (mul i.k (sub (i.x 0) (i.st 1)))) (add (i.st 0) i.dt)
    only i y [(1, i.x 0), (2, y)]) ∧
  BlockRuns .integ 0x0D 24 (fun i =>
    let old := i.st 0 + i.st 1 * 2 ^ 32
    let step := fMul f64 (fMul f64 (fCvt f32 f64 i.k) (fCvt f32 f64 (i.x 0))) (fCvt f32 f64 i.dt)
    let a := if t (i.x 2) then fCvt f32 f64 (i.x 3) else if t (i.x 1) then old else fAdd f64 old step
    let a := if fLt f64 (fCvt f32 f64 (i.st 2)) a then fCvt f32 f64 (i.st 2)
      else if fLt f64 a (fCvt f32 f64 (i.st 3)) then fCvt f32 f64 (i.st 3) else a
    { y := some (fCvt f64 f32 a, i.worst), y64 := some a, stD := [(0, a)] }) ∧
  BlockRuns .total 0x0E 28 (fun i =>
    let old := i.st 0 + i.st 1 * 2 ^ 32
    let step := fMul f64 (fMul f64 (fCvt f32 f64 i.k) (fCvt f32 f64 (i.x 0))) (fCvt f32 f64 i.dt)
    let a := if t (i.x 2) then 0 else if !t (i.x 1) && lt (i.st 2) (i.x 0) then fAdd f64 old step else old
    { y := some (fCvt f64 f32 a, i.worst), z := some (truth (fLe f64 (fCvt f32 f64 (i.st 3)) a), i.worst), y64 := some a
      stD := [(0, a)] }) ∧
  BlockRuns .ramp 0x0F 20 (fun i =>
    let step := mul (i.st 0) i.dt
    let y := if t (i.x 3) then i.x 2
      else if t (i.x 1) then add (i.st 1) (clamp (sub (i.x 0) (i.st 1)) (neg step) step) else i.st 1
    both i y (truth (eq y (i.x 0))) [(1, y)]) ∧
  BlockRuns .ratelim 0x10 20 (fun i =>
    let y := add (i.st 2) (clamp (sub (i.x 0) (i.st 2)) (neg (mul (i.st 1) i.dt)) (mul (i.st 0) i.dt))
    only i y [(2, y)])

open Blk in
/-- The arithmetic blocks (R163, R164, R176). -/
def Obligations.ArithmeticBlocks : Prop :=
  BlockRuns .limit 0x11 12 (fun i =>
    let y := clamp (i.x 0) (i.st 1) (i.st 0)
    both i y (truth (ne y (i.x 0))) []) ∧
  BlockRuns .char 0x12 28 (fun i =>
    match i.curve (i.st 0) (i.x 0) with
    | (y, none) => { y := some (y, i.worst), z := some (0, i.worst) }
    | (y, some q) => { y := some (y, min i.worst 1), z := some (one, i.worst), yq := if min i.worst 1 == 1 then some q else none }) ∧
  BlockRuns .linear 0x13 14 (fun i => only i (add (mul (i.st 0) (i.x 0)) (i.st 1)) []) ∧
  BlockRuns .split 0x14 22 (fun i =>
    both i (clamp (div (mul c100 (i.x 0)) (i.st 0)) 0 c100)
      (clamp (div (mul c100 (sub (i.x 0) (i.st 0))) (sub c100 (i.st 0))) 0 c100) []) ∧
  BlockRuns .add 0x1A 14 (fun i =>
    only i (match (List.range 4).filter i.used with
      | [] => i.k
      | j :: l => add (l.foldl (fun acc j => add acc (i.x j)) (i.x j)) i.k) []) ∧
  BlockRuns .mul 0x1B 12 (fun i => only i (mul (mul (i.x 0) (i.x 1)) i.k) []) ∧
  BlockRuns .div 0x1C 28 (fun i => only i (div (mul i.k (i.x 0)) (i.x 1)) []) ∧
  BlockRuns .sqrt 0x1D 28 (fun i => only i (if le (i.st 0) (i.x 0) then mul i.k (fSqrt f32 (i.x 0)) else 0) []) ∧
  BlockRuns .abs 0x1E 10 (fun i => both i (fAbs f32 (i.x 0)) (truth (lt (i.x 0) 0)) []) ∧
  BlockRuns .ratio 0x2D 18 (fun i => only i (add (mul (i.x 0) (clamp (i.x 1) (i.st 0) (i.st 1))) (i.x 2)) []) ∧
  BlockRuns .poly3 0x2F 22 (fun i =>
    only i (add (mul (add (mul (add (mul (i.st 3) (i.x 0)) (i.st 2)) (i.x 0)) (i.st 1)) (i.x 0)) (i.st 0)) []) ∧
  BlockRuns .gascomp 0x30 44 (fun i =>
    only i (mul i.k (mul (i.x 0) (fSqrt f32 (div (mul (add (i.x 1) (i.st 2)) (i.st 1)) (mul (add (i.x 2) (i.st 3)) (i.st 0)))))) [])

open Blk in
/-- The selections: eligible inputs, ties to the lowest operand, NaN under R165, no used input 0 and good (R163, R176).
The logic, edge, timer and counter blocks (R164, R176). -/
def Obligations.SelectionAndLogicBlocks : Prop :=
  ((∀ i : BIn, i.eligible = (let used := (List.range i.nIn).filter i.used
    if used.all fun j => qclass (i.c j) == 0 then used else used.filter fun j => qclass (i.c j) != 0)) ∧
  (∀ (better : Nat → Nat → Bool) (j : Nat) (l : List Nat), bestOf better (j :: l) = (match bestOf better l with
    | some k => if better k j then some k else some j
    | none => some j)) ∧
  BlockRuns .selhi 0x15 14 (fun i =>
    if i.eligible.any fun j => fIsNaN f32 (i.x j) then nanOut
    else i.selected (bestOf (fun j k => lt (i.x k) (i.x j)) i.eligible)) ∧
  BlockRuns .sello 0x16 14 (fun i =>
    if i.eligible.any fun j => fIsNaN f32 (i.x j) then nanOut
    else i.selected (bestOf (fun j k => lt (i.x j) (i.x k)) i.eligible)) ∧
  BlockRuns .selmid 0x17 16 (fun i =>
    if i.eligible.any fun j => fIsNaN f32 (i.x j) then nanOut
    else match i.eligible with
      | [a, b] => { y := some (mul (add (i.x a) (i.x b)) c05, worse (i.c a) (i.c b)), z := some (fOfNat f32 3, worse (i.c a) (i.c b)) }
      | [a, b, c] => i.selected ([a, b, c].find? fun m =>
          ([a, b, c].filter fun n => lt (i.x n) (i.x m)).length ≤ 1 && ([a, b, c].filter fun n => lt (i.x m) (i.x n)).length ≤ 1)
      | l => i.selected l.head?) ∧
  BlockRuns .selsw 0x18 10 (fun i =>
    let j := if t (i.x 2) then 1 else 0
    { y := some (i.x j, worse (i.c j) (i.c 2)) }) ∧
  BlockRuns .selavg 0x19 28 (fun i =>
    if i.eligible.any fun j => fIsNaN f32 (i.x j) then nanOut
    else match i.eligible with
      | [] => { y := some (0, 2), z := some (0, 2) }
      | j :: l =>
        let sum := l.foldl (fun acc k => add acc (i.x k)) (i.x j)
        let hi := l.foldl (fun acc k => if lt acc (i.x k) then i.x k else acc) (i.x j)
        let lo := l.foldl (fun acc k => if lt (i.x k) acc then i.x k else acc) (i.x j)
        let c := l.foldl (fun acc k => worse acc (i.c k)) (qclass (i.c j))
        { y := some (div sum (fOfNat f32 (l.length + 1)), c), z := some (truth (lt (i.st 0) (sub hi lo)), c) }) ∧
  BlockRuns .move 0x2A 10 (fun i => { y := some (i.x 0, qclass (i.c 0)), z := some (i.x 1, qclass (i.c 1)) }) ∧
  BlockRuns .sample 0x2B 12 (fun i =>
    let yp := if t (i.x 1) then i.x 0 else i.st 0
    let qp := if t (i.x 1) then worse (i.c 0) (i.c 1) else i.st 1
    { y := some (yp, if 3 ≤ qp then 0 else qp), st := [(0, yp)], stU := [(1, qp)] }) ∧
  BlockRuns .mansta 0x2C 16 (fun i =>
    let step := mul (i.st 0) i.dt
    let y := if !t (i.x 2) then i.x 1
      else if eq (i.st 0) 0 then i.x 0 else add (i.st 1) (clamp (sub (i.x 0) (i.st 1)) (neg step) step)
    let followed := if t (i.x 2) then 0 else 1
    { y := some (y, worse (i.c 2) (i.c followed)), z := some (truth (t (i.x 2)), qclass (i.c 2)), st := [(1, y)] })) ∧
  (BlockRuns .and 0x1F 10 (fun i => only i (truth (((List.range 4).filter i.used).all fun j => t (i.x j))) []) ∧
  BlockRuns .or 0x20 10 (fun i => only i (truth (((List.range 4).filter i.used).any fun j => t (i.x j))) []) ∧
  BlockRuns .xor 0x21 10 (fun i => only i (truth (t (i.x 0) != t (i.x 1))) []) ∧
  BlockRuns .not 0x22 10 (fun i => only i (truth (!t (i.x 0))) []) ∧
  BlockRuns .cmp 0x23 12 (fun i =>
    let st := if lt (i.x 1) (i.x 0) then one else if lt (i.x 0) (sub (i.x 1) (i.st 0)) then 0 else i.st 1
    only i st [(1, st)]) ∧
  BlockRuns .srff 0x24 10 (fun i =>
    let st := if t (i.x 1) then 0 else if t (i.x 0) then one else i.st 0
    only i st [(0, st)]) ∧
  BlockRuns .edge 0x25 10 (fun i =>
    both i (truth (t (i.x 0) && !t (i.st 0))) (truth (t (i.st 0) && !t (i.x 0))) [(0, truth (t (i.x 0)))]) ∧
  BlockRuns .ton 0x26 14 (fun i =>
    let et := if t (i.x 0) then fmin (add (i.st 1) i.dt) (i.st 0) else 0
    both i (truth (t (i.x 0) && le (i.st 0) et)) et [(1, et)]) ∧
  BlockRuns .tof 0x27 14 (fun i =>
    let et := if t (i.x 0) then 0 else fmin (add (i.st 1) i.dt) (i.st 0)
    both i (if t (i.x 0) then one else truth (lt et (i.st 0))) et [(1, et)]) ∧
  BlockRuns .tpulse 0x28 14 (fun i =>
    let timed := fmin (add (i.st 1) i.dt) (i.st 0)
    let begins := t (i.x 0) && !t (i.st 2) && eq (i.st 3) 0
    let et := if begins then 0 else if eq (i.st 3) one then timed else i.st 1
    let st := if begins then one else if eq (i.st 3) one && le (i.st 0) timed then 0 else i.st 3
    both i st et [(1, et), (2, truth (t (i.x 0))), (3, st)]) ∧
  BlockRuns .ctu 0x29 12 (fun i =>
    let cv := if t (i.x 1) then 0 else if t (i.x 0) && !t (i.st 2) then fmin (add (i.st 1) one) c16777216 else i.st 1
    both i cv (truth (le (i.st 0) cv)) [(1, cv), (2, truth (t (i.x 0)))]))

/-- R177-R180: a CALL block posts its inputs, classes and doorbell and waits; DONE ends it 20 clocks later with the returned values; a
DONE without a pending call is late; a requester of another grove is dropped; the budget ends the call with fault 1 at the clock of its end.
R171: a barrier flag due is set 34 clocks after its setter's end, and the lanes that wait for it show it. R181, R182: a permitted
tuning write takes effect at once, an aligned one of 8 bytes healing a poisoned word; while its grove computes it is held in the grove's
buffer, and at its requester while that buffer is full; any other is dropped and counted. CNT_CLR clears the counters. -/
def Obligations.CallsFlagsAndTuning : Prop :=
  ((∀ (l : LaneId) (s : State) (b t : Nat) (bs : List Byte), s.blockReady l.val 0x2E = some (b, bs, t) → s.blockFault b bs = none →
    let u := s.set (Fd.LE_LANE_POS.INSTANCE l.val) b
    let n := u.rd (stateAddr b) 4
    let i := u.blockIn l.val b bs
    let v := (((u.blockReports b bs).setReg (Rg.LE_CALL_ARGLO n) (i.x 0 + i.x 1 * 2 ^ 32)).setReg (Rg.LE_CALL_ARGHI n) (i.x 2 + i.x 3 * 2 ^ 32)).set
      (Fd.LE_CALL_STAT.QIN n) (i.c 0 + i.c 1 * 4 + i.c 2 * 16 + i.c 3 * 64)
    let v := v.set (Fd.LE_CALL_STAT.PENDING n) 1
    let w := v.atTime (v.laneTime (t + 20))
    let z := w.modLoop fun x => { x with slots := x.slots.modify n fun c => { c with since := some w.now } }
    let z := (z.modLane l.val fun x => { x with calling := true, t := t + 20 }).laneShow l.val
    exec (.call l) s = .next (z.pulse (z.get Fd.LE_IRQ_SRC.CALL_BASE + n))) ∧
  (∀ (r : Requester) (n : SlotId) (q : Fin 4) (s : State), Admitted s r (Rg.LE_CALL_CTL n.val) 4 →
    let u := accepted s r
    (u.ownsSlot r n.val = false →
      exec (.callDone r n q) s = .next (((u.inc Fd.LE_WDROP_CNT.COUNT).set Fd.LE_STAT.WDROP 1).slotCheck n.val)) ∧
    (u.ownsSlot r n.val = true → q.val ≠ 3 → u.get (Fd.LE_CALL_STAT.PENDING n.val) = 0 →
      exec (.callDone r n q) s = .next
        ((((u.set (Fd.LE_CALL_STAT.LATE n.val) 1).set Fd.LE_STAT.CALL_LATE 1).inc Fd.LE_CALL_LATE_CNT.COUNT).slotCheck n.val)) ∧
    (∀ l b : Nat, u.ownsSlot r n.val = true → q.val ≠ 3 → u.get (Fd.LE_CALL_STAT.PENDING n.val) ≠ 0 → u.callLane n.val = some (l, b) →
      let bs := u.rdB (instrAddr b) 32
      let ret := u.reg (Rg.LE_CALL_RET n.val)
      let t := max (u.lane l).t (nsClocks (u.now - u.frame.eTime.getD u.now)) + 20
      let v := (u.set (Fd.LE_CALL_STAT.PENDING n.val) 0).modLoop fun x =>
        { x with slots := x.slots.modify n.val fun c => { c with since := none } }
      let v := v.modLane l fun x => { x with calling := false }
      exec (.callDone r n q) s = .next
        (((v.blockResults l b bs { y := some (ret % 2 ^ 32, q.val), z := some (ret / 2 ^ 32, q.val) }).blockEnd l b bs t).slotCheck n.val))) ∧
  (∀ (r : Requester) (n : SlotId) (v : Word) (s : State), Admitted s r (Rg.LE_CALL_RET n.val) 8 →
    let u := accepted s r
    exec (.callRetWrite r n v) s = .next
      (if u.ownsSlot r n.val then u.setReg (Rg.LE_CALL_RET n.val) v.toNat
       else (u.inc Fd.LE_WDROP_CNT.COUNT).set Fd.LE_STAT.WDROP 1)) ∧
  (∀ (n : SlotId) (s : State) (c : CallSlot) (t0 l b : Nat), s.loop.slots[n.val]? = some c → c.since = some t0 →
    s.callLane n.val = some (l, b) →
    let u := ((s.atTime (t0 + c.budget)).set (Fd.LE_CALL_STAT.PENDING n.val) 0).modLoop fun x =>
      { x with slots := x.slots.modify n.val fun c => { c with since := none } }
    let t := nsClocks (t0 + c.budget - s.frame.eTime.getD (max s.now (t0 + c.budget)))
    exec (.callTimeout n) s = .next ((u.modLane l fun x => { x with t := max x.t t }).strandFault l b 1))) ∧
  ((∀ (f : Fin 256) (s : State) (t : Nat), mapGet? s.loop.flagTime f.val = some t →
    Answers (.barrierFlagSet f) s fun u => u.flagSet f.val = true ∧ u.now = max s.now (s.laneTime t) ∧ u.mem = s.mem ∧
      u.groves = s.groves ∧ u.cores = s.cores ∧ ∀ k, k < 256 → k ≠ f.val → u.flagSet k = s.flagSet k) ∧
  (∀ (r : Requester) (a : PAddr) (n : Nat) (v : Word) (s : State), leBase ≤ a.toNat → a.toNat + n ≤ leEnd →
    s.present r = true → s.reaches r .write a.toNat n = true →
    let u := accepted s r
    let w := v.toNat % 2 ^ (8 * n)
    let g := u.groveOfInst (((a.toNat - leBase) % 0x80_0000) / 32)
    (u.leWriteOk r a.toNat n = false →
      exec (.leTuningWrite r a n v) s = .next ((u.inc Fd.LE_WDROP_CNT.COUNT).set Fd.LE_STAT.WDROP 1)) ∧
    (u.leWriteOk r a.toNat n = true → (∀ k, g = some k → (u.grv k).computing = false) →
      exec (.leTuningWrite r a n v) s = .next (u.wordWrite a.toNat (leBytes n w)).2) ∧
    (∀ k, u.leWriteOk r a.toNat n = true → g = some k → (u.grv k).computing = true → (mapGet [] u.loop.tuneBuf k).length < 64 →
      exec (.leTuningWrite r a n v) s = .next ((u.modLoop fun x => { x with
        tuneBuf := mapSet [] x.tuneBuf k (mapGet [] x.tuneBuf k ++ [{ who := reqNo r, addr := a.toNat, size := n, v := BitVec.ofNat 64 w }]) }).tuneShow)) ∧
    (∀ k, s.leWriteOk r a.toNat n = true → g = some k → (s.grv k).computing = true → 64 ≤ (mapGet [] s.loop.tuneBuf k).length →
      exec (.leTuningWrite r a n v) s = .next s)) ∧
  (∀ (r : Requester) (s : State), Admitted s r Rg.LE_CTL 4 →
    exec (.leCntClr r) s = .next (((((accepted s r).set Fd.LE_FAULT_CNT.COUNT 0).set Fd.LE_ARITH_CNT.COUNT 0).set
      Fd.LE_CALL_LATE_CNT.COUNT 0).set Fd.LE_WDROP_CNT.COUNT 0)))

/-- R89, R91, R124, R130, R375: a Gather write by the writer that BIND names goes into the half of the next frame: a value write stores DATA
and TIMESTAMP, raises COUNT (at most 255) and sets QIN and QSET; a quality write leaves COUNT. One by any other writer, or to a poisoned
tag, is dropped as a conflict. A tag without a slot takes none: the write is counted as dropped (log 9). -/
def Obligations.GatherWrites : Prop :=
  ∀ (s : State) (b : GatherWriter) (i : TagId),
    let t := s.tag i.val
    let h := if s.frameRunning then (s.frameNo + 1) % 2 else 0
    let w := s.rd (statusAddr h t.slot) 4
    let put (u : State) (a n v : Nat) : State := (u.wordWrite a (leBytes n v)).2
    (bindNames t b → s.tagPoisoned i.val = false → t.slotEn = true →
      (∀ (data ts : Word) (q : Byte), exec (.gatherWrite i ⟨b, .value data ts q⟩) s = .next
        (put (put (put s (slotAddr h t.slot) 8 data.toNat) (slotAddr h t.slot + 8) 8 ts.toNat) (statusAddr h t.slot) 4
          (min 255 (bits w 7 0 + 1) + q.toNat * 256 + 65536))) ∧
      (∀ q : Byte, exec (.gatherWrite i ⟨b, .quality q⟩) s = .next
        (put s (statusAddr h t.slot) 4 (bits w 7 0 + q.toNat * 256 + 65536)))) ∧
    (∀ op : GatherOp, ¬ bindNames t b ∨ s.tagPoisoned i.val = true →
      exec (.gatherWrite i ⟨b, op⟩) s = .next (conflicted s i.val (gwKind b) 0 (gwIndex b))) ∧
    (∀ op : GatherOp, bindNames t b → s.tagPoisoned i.val = false → t.slotEn = false →
      let u := (s.inc Fd.SE_GATHER_DROP_CNT.COUNT).set Fd.SE_STAT.GATHER_DROP 1
      exec (.gatherWrite i ⟨b, op⟩) s = .next
        (if s.get Fd.SE_STAT.GATHER_DROP = 0 then u.pulse (u.get Fd.SE_IRQ_SRC.CONFLICT_SRC) else u))

/-- R125-R127, R130, R136: a write into the Tag Store by the tag's writer is a value or a quality write.
R125, R138, R283: tuning writes by an S- or E-level core of the tag's grove, configuration writes by an E-level core while no grove
or a held one has the tag; both mark the tag changed. Any other requester's write is dropped: counted, recorded, and told once. R375: so is a quality write to a
poisoned tag. -/
def Obligations.TagWrites : Prop :=
  ((∀ (r : Requester) (i : TagId) (n : Nat) (v : Word) (s : State), s.present r = true →
    s.reaches r .write (tagAddr i.val) n = true →
    let u := accepted s r
    let t := u.tag i.val
    let x := v.toNat % 2 ^ (8 * n)
    u.tagPoisoned i.val = false → n = valueSize t.vtype → u.mayConfigTag r i.val = false → u.isWriter r t = true →
    exec (.valueWrite r i n v) s = .next (ownWritten u r i.val
      (fun u => ((u.wr (tagAddr i.val) 8 (convertRaw t.vtype 2 x)).wr (tagAddr i.val + 8) 8 u.tickTime).wr (tagAddr i.val + 0x18) 1 0x02)
      (fun u => u.slotValue u.gatherHalf t.slot x u.now 0x02))) ∧
  (∀ (r : Requester) (i : TagId) (q : Byte) (s : State), s.present r = true →
    s.reaches r .write (tagAddr i.val + 0x18) 1 = true →
    let u := accepted s r
    u.tagPoisoned i.val = false → u.mayConfigTag r i.val = false → u.isWriter r (u.tag i.val) = true → qualReserved q.toNat = false →
    exec (.qualityWrite r i q) s = .next (ownWritten u r i.val (fun u => u.wr (tagAddr i.val + 0x18) 1 q.toNat)
      (fun u => u.slotQual u.gatherHalf (u.tag i.val).slot q.toNat)))) ∧
  ((∀ (r : Requester) (i : TagId) (o : Fin 64) (n : Nat) (v : Word) (s : State), sizeOk n = true → o.val + n ≤ 64 → s.present r = true →
    s.reaches r .write (tagAddr i.val + o.val) n = true →
    let u := accepted s r
    let x := v.toNat % 2 ^ (8 * n)
    u.tagPoisoned i.val = false → u.mayConfigTag r i.val = false → formTune o.val n = true → u.mayTune r (u.tag i.val) = true → u.tuneOk (u.tag i.val) o.val x = true →
    exec (.tuningWrite r i o n v) s = .next
      ((u.wr (tagAddr i.val + o.val) n x).setRt i.val { u.rt i.val with changed := true })) ∧
  (∀ (r : Requester) (i : TagId) (o : Fin 64) (n : Nat) (v : Word) (s : State), sizeOk n = true → o.val + n ≤ 64 → o.val % n = 0 →
    s.present r = true → s.reaches r .write (tagAddr i.val + o.val) n = true →
    let u := accepted s r
    let x := v.toNat % 2 ^ (8 * n)
    let record := Tag.of (overlayB (u.rdB (tagAddr i.val) 64) o.val (leBytes n x))
    u.tagPoisoned i.val = false → u.mayConfigTag r i.val = true → record.legal = true → u.kindOk i.val record.wKind = true →
    exec (.configurationWrite r i o n v) s = .next
      ((u.wr (tagAddr i.val + o.val) n x).setRt i.val { u.rt i.val with changed := true })) ∧
  (∀ (r : Requester) (i : TagId) (q : Byte) (s : State), s.present r = true →
    s.reaches r .write (tagAddr i.val + 0x18) 1 = true →
    let u := accepted s r
    u.tagPoisoned i.val = false → u.mayConfigTag r i.val = false → u.isWriter r (u.tag i.val) = false →
    exec (.qualityWrite r i q) s = .next (conflicted u i.val (u.conflictWho r).1 0 (u.conflictWho r).2)) ∧
  (∀ (r : Requester) (i : TagId) (q : Byte) (s : State), s.present r = true → s.reaches r .write (tagAddr i.val + 0x18) 1 = true →
    let u := accepted s r
    u.tagPoisoned i.val = true → u.mayConfigTag r i.val = false →
    exec (.qualityWrite r i q) s = .next (conflicted u i.val (u.conflictWho r).1
      (if u.isWriter r (u.tag i.val) = true ∧ qualReserved q.toNat = true then 1 else 0) (u.conflictWho r).2)))

/-- R147-R149, R152, R391: entries drain into their ring at HEAD, and wait while a line there is blocked at its home (log 35); software moves TAIL, configures the ring and clears a recorded loss;
CNT_CLR clears the engine's counters. -/
def Obligations.AlarmQueues : Prop :=
  (∀ (s : State) (e : AlarmItem) (rest : List AlarmItem), s.signal.alarmBuf = e :: rest →
    let g := e.grove
    let addr (v : State) (i : Nat) : Nat := v.get (Fd.SE_AQ_BASE.BASE g) * 64 + 64 * (i % 2 ^ v.get (Fd.SE_AQ_CFG.LOG2 g))
    let free (i : Nat) : Prop := ∀ line ∈ linesOf (addr s i) 64, s.blocked line = false
    let u := (s.modSignal fun x => { x with alarmBuf := rest }).fwDrawn g
    let h := u.get (Fd.SE_AQ_HEAD.HEAD g)
    let h' := (h + 1) % 2 ^ 32
    let put (v : State) (i : Nat) (bs : List Byte) : State :=
      let w := ((v.unitWrite (addr v i) (sealAlarm bs i) true).2).set (Fd.SE_AQ_HEAD.HEAD g) (i + 1)
      if bitOf (w.get Fd.PCI_AQ_MIRROR.GROVES) g then w.modSignal fun x => { x with mirrored := true } else w
    let shown (v : State) : State := ((v.aqTest g e.frame).aqFull g).mirrorSignal
    let lost := mapGet 0 u.signal.markers g
    let need := if lost = 0 then 1 else 2
    let marked := (put u h (alarmBytes 0 (fieldB e.bytes 8 8) 0 0xFF 3 0 g 0 lost 0 0 0)).modSignal fun x =>
      { x with markers := mapSet 0 x.markers g 0 }
    (free (s.get (Fd.SE_AQ_HEAD.HEAD g)) → free ((s.get (Fd.SE_AQ_HEAD.HEAD g) + 1) % 2 ^ 32) →
      (u.get (Fd.SE_AQ_CFG.EN g) = 0 → exec .alarmEntryDrain s = .next (shown u)) ∧
      (u.get (Fd.SE_AQ_CFG.EN g) ≠ 0 → 2 ^ u.get (Fd.SE_AQ_CFG.LOG2 g) < u.aqUsed g + need → exec .alarmEntryDrain s = .next (shown
        ((((u.inc (Fd.SE_AQ_LOST.COUNT g)).set (Fd.SE_AQ_STAT.LOSS g) 1).set Fd.SE_STAT.AQ_LOSS 1).modSignal fun x =>
          { x with markers := mapSet 0 x.markers g (mapGet 0 x.markers g + 1) }))) ∧
      (u.get (Fd.SE_AQ_CFG.EN g) ≠ 0 → u.aqUsed g + need ≤ 2 ^ u.get (Fd.SE_AQ_CFG.LOG2 g) →
        (u.aqReach g h = false → exec .alarmEntryDrain s = .next (shown (u.aqRefuse g (addr u h)))) ∧
        (u.aqReach g h = true → lost = 0 → exec .alarmEntryDrain s = .next (shown (put u h e.bytes))) ∧
        (u.aqReach g h = true → lost ≠ 0 →
          exec .alarmEntryDrain s = .next (shown
            (if marked.aqReach g h' then put marked h' e.bytes else marked.aqRefuse g (addr marked h')))))) ∧
    (¬ free (s.get (Fd.SE_AQ_HEAD.HEAD g)) ∨ ¬ free ((s.get (Fd.SE_AQ_HEAD.HEAD g) + 1) % 2 ^ 32) →
      exec .alarmEntryDrain s = .next s)) ∧
  (∀ s : State, s.signal.alarmBuf = [] → exec .alarmEntryDrain s = .next s) ∧
  (∀ (r : Requester) (g : GroveId) (v : Word32) (s : State), Admitted s r (Rg.SE_AQ_TAIL g.val) 4 →
    let u := accepted s r
    exec (.aqTailWrite r g v) s = .next
      (if (u.get (Fd.SE_AQ_HEAD.HEAD g.val) + 2 ^ 32 - v.toNat) % 2 ^ 32 ≤ 2 ^ u.get (Fd.SE_AQ_CFG.LOG2 g.val)
       then (u.set (Fd.SE_AQ_TAIL.TAIL g.val) v.toNat).aqFull g.val else u)) ∧
  (∀ (r : Requester) (g : GroveId) (v : Word32) (s : State), Admitted s r (Rg.SE_AQ_CFG g.val) 4 →
    let u := accepted s r
    let log2 := bits v.toNat 12 8
    let base := u.get (Fd.SE_AQ_BASE.BASE g.val) * 64
    let refused := (u.get (Fd.SE_AQ_CFG.EN g.val) ≠ 0 ∧ log2 ≠ u.get (Fd.SE_AQ_CFG.LOG2 g.val)) ∨
      (bitOf v.toNat 0 = true ∧ (log2 < 6 ∨ 20 < log2 ∨ base % (64 * 2 ^ log2) ≠ 0 ∨ gddrSize < base + 64 * 2 ^ log2))
    (refused → exec (.aqEnable r g v) s = .next u) ∧
    (¬ refused → exec (.aqEnable r g v) s = .next ((((u.set (Fd.SE_AQ_CFG.EN g.val) (bits v.toNat 0 0)).set
      (Fd.SE_AQ_CFG.LOG2 g.val) log2).set (Fd.SE_AQ_CFG.THRESH g.val) (bits v.toNat 31 16)).aqFull g.val))) ∧
  (∀ (r : Requester) (g : GroveId) (s : State), Admitted s r (Rg.SE_AQ_STAT g.val) 4 →
    exec (.aqLossClear r g) s = .next (((accepted s r).set (Fd.SE_AQ_STAT.LOSS g.val) 0).set (Fd.SE_AQ_LOST.COUNT g.val) 0)) ∧
  (∀ (r : Requester) (s : State), Admitted s r Rg.SE_CTL 4 →
    exec (.seCntClr r) s = .next (((((accepted s r).set Fd.SE_CONFLICT_CNT.COUNT 0).set Fd.SE_ORDER_CNT.COUNT 0).set
      Fd.SE_SUPERSEDE_CNT.COUNT 0).set Fd.SE_GATHER_DROP_CNT.COUNT 0))

/-- R138-R140: the sweep of a due tag with a slot stores the value, time, raw data and quality that its slot gives, the deadband
keeping VALUE and TIMESTAMP; its slot, no poisoned word of which has the status, is cleared; no other byte of memory changes but ALARM_STATE. -/
def Obligations.SweepTakesTheSlot : Prop :=
  ∀ (s : State) (i : Nat), i < 65536 → (s.tag i).slotEn = true → s.poisonedIn (statusAddr (s.frameNo % 2) (s.tag i).slot) 4 = false →
    let t := s.tag i
    let h := s.frameNo % 2
    let tk := s.takeSlot t (s.rt i).miss h
    let q := combineQual tk.qin tk.qd
    let u := s.sweepTag i
    let a := tagAddr i
    u.rd (a + 0x18) 1 = q % 256 ∧
    u.rd (a + 0x10) 4 = tk.raw.getD t.raw % 2 ^ 32 ∧
    (∀ v, tk.v = some v → inDeadband t v q = false → u.rd a 8 = v % 2 ^ 64 ∧ u.rd (a + 8) 8 = tk.ts % 2 ^ 64) ∧
    ((tk.v = none ∨ ∃ v, tk.v = some v ∧ inDeadband t v q = true) → u.rd a 8 = t.value ∧ u.rd (a + 8) 8 = t.ts) ∧
    u.rd (statusAddr h t.slot) 4 = 0 ∧ (u.rt i).miss = tk.miss ∧ (u.rt i).swept = true ∧
    ∀ x, (x < a ∨ a + 0x1C ≤ x ∨ (a + 0x14 ≤ x ∧ x < a + 0x18) ∨ x = a + 0x19 ∨ x = a + 0x1A) → (x < slotAddr h t.slot ∨ slotAddr h t.slot + 16 ≤ x) →
      (x < statusAddr h t.slot ∨ statusAddr h t.slot + 4 ≤ x) → u.byte x = s.byte x

/-- R188, R190, R191, R194-R198, R209, R210, R215, R434: a frame in error, a PAUSE or PFC frame and a frame for no one are counted or ignored; a
good one is counted, stamped at the reference plane to within the error of R190, and delivered, unless elimination holds its copy back (the
recovery of the standard is the model's, log 13); a frame passed to a receive queue meets its bounds; a silent stream forgets. -/
def Obligations.FramesReceived : Prop :=
  (∀ (p : FieldPort) (f : RxFrame) (s : State), s.get (Fd.FP_PORT_CFG.MODE p.val) ≠ 0 → s.get (Fd.FP_PORT_STAT.LINK p.val) ≠ 0 →
    let settled (u : State) := if (u.port p.val).rxQueue.length = (s.port p.val).rxQueue.length then u else u.rxArrive p.val
    let h := parseFrame f.bytes
    let es := s.matching p.val h
    let error := f.fcsOk = false ∨ f.codeError = true ∨ s.get (Fd.FP_PORT_CFG.MAXLEN p.val) < f.bytes.length + 4 ∨ f.bytes.length + 4 < 64
    let mine := es ≠ [] ∨ h.dmac = s.get Fd.FP_MAC_BASE.MAC + p.val ∨ bitOf h.dmac 40 = true
    let pause := h.etype = 0x8808 ∧ h.vid = none ∧ h.rtag = none ∧ (beNat (h.payload.take 2) = 0x0001 ∨ beNat (h.payload.take 2) = 0x0101)
    let stamp := s.near (f.capture.toNat - s.get (Fd.FP_PORT_LAT.RX_EXT p.val)) (s.stampError p.val)
    let u := s.drawn.inc (Fd.FP_PORT_RX_CNT.COUNT p.val)
    (error → exec (.frameReceived p f) s = .next (settled ((s.inc (Fd.FP_PORT_RXERR_CNT.COUNT p.val)).set Fd.FP_STAT.RX_ERR 1))) ∧
    (¬ error → pause → exec (.frameReceived p f) s = .next (settled (s.inc (Fd.FP_PORT_NRT_DROP_CNT.COUNT p.val)))) ∧
    (¬ error → ¬ pause → ¬ mine → exec (.frameReceived p f) s = .next (settled s)) ∧
    (¬ error → ¬ pause → mine → h.rtag = none ∨ u.portCb p.val = false ∨ u.streamOf p.val h = none →
      exec (.frameReceived p f) s = .next (settled (delivered u p.val f stamp es))) ∧
    (∀ seq smac vid, ¬ error → ¬ pause → mine → h.rtag = some seq → u.portCb p.val = true → u.streamOf p.val h = some (smac, vid) →
      let same (x : CbStream) : Bool := x.pair == p.val / 2 && x.smac == smac && x.vid == vid
      let old := (u.field.streams.find? same).getD { pair := p.val / 2, smac := smac, vid := vid }
      let st := { (recover old seq).2 with last := s.now }
      let put (l : List CbStream) : List CbStream := if l.any same then l.map (fun x => if same x then st else x) else l ++ [st]
      let v := u.modField fun x => { x with streams := put x.streams }
      exec (.frameReceived p f) s = .next (settled (
        if f.tie = true ∧ p.val % 2 = 1 then u.inc (Fd.FP_PORT_CB_ELIM_CNT.COUNT p.val)
        else if (recover old seq).1 then delivered v p.val f stamp es
        else v.inc (Fd.FP_PORT_CB_ELIM_CNT.COUNT p.val))))) ∧
  (∀ (i : Fin 1024) (s : State) (st : CbStream), s.field.streams[i.val]? = some st →
    exec (.cbHistoryReset i) s = .next ((s.atTime (st.last + 4 * s.period)).modField fun x =>
      { x with streams := x.streams.set i.val { st with next := none, history := 0 } }))

/-- R206, R207, R189, R204, R203: gate entries follow each other; an open gate starts the first frame of its queue; a link comes up on a
held port, and goes down with its template frames lost; a frame that has left the wire is gone. CNT_CLR clears the port counters.
R192, R211-R214: the messages of a master and of a slave port, each Follow_Up with the transmit timestamp of its message, the peer delay, the
discipline of the time counter by Sync, and its loss. The bytes of a message and the rounding of a quotient are the model's choice
(log 14, log 12). -/
def Obligations.PortTransmissionAndTime : Prop :=
  ((∀ (p : FieldPort) (s : State), s.get (Fd.FP_PORT_GATE.GCL_COUNT p.val) ≠ 0 → s.frameRunning = true →
    ((s.port p.val).gateAt = none →
      let t := s.tickTime + s.get (Fd.FP_PORT_OFS.OFS_NS p.val)
      exec (.gateEntryChange p) s = .next
        (((s.set (Fd.FP_PORT_GATE.ENTRY p.val) 0).modPort p.val fun x => { x with gateAt := some t }).atTime t)) ∧
    (∀ t0, (s.port p.val).gateAt = some t0 →
      let i := s.get (Fd.FP_PORT_GATE.ENTRY p.val)
      let t := t0 + 8 * bits (s.reg (Rg.FP_GCL p.val i)) 31 8
      exec (.gateEntryChange p) s = .next
        (((s.set (Fd.FP_PORT_GATE.ENTRY p.val) ((i + 1) % s.get (Fd.FP_PORT_GATE.GCL_COUNT p.val))).modPort p.val fun x =>
          { x with gateAt := some t }).atTime t))) ∧
  (∀ (p : FieldPort) (tc : Fin 8) (s : State) (f : TxFrame) (rest : List TxFrame),
    mapGet [] (s.port p.val).queues tc.val = f :: rest → (s.port p.val).wire = none → s.get (Fd.FP_PORT_STAT.LINK p.val) ≠ 0 →
    s.mayStart p.val tc.val f = true →
    let stamp := s.near (s.now + s.wireNs p.val 8 + s.get (Fd.FP_PORT_LAT.TX_EXT p.val)) (s.stampError p.val)
    exec (.queueTransmit p tc) s = .next ((s.drawn.modPort p.val fun y => { y with
      queues := mapSet [] y.queues tc.val rest, wire := some f, wireAt := stamp }).ptpSent p.val f stamp)) ∧
  (∀ (p : FieldPort) (s : State), s.get (Fd.FP_PORT_STAT.LINK p.val) = 0 → s.get (Fd.FP_PORT_CFG.MODE p.val) ≠ 0 →
    (s.groveOfPort p.val).isSome = true → s.get Fd.CFG_STAT.DONE ≠ 0 → s.get Fd.CFG_STAT.SAFE_HOLD = 0 →
    exec (.fieldLinkUp p) s = .next ((s.set (Fd.FP_PORT_STAT.AN_DONE p.val)
      (if s.get (Fd.FP_PORT_CFG.MODE p.val) = 5 ∨
        (s.get (Fd.FP_PORT_CFG.MODE p.val) = 1 ∨ s.get (Fd.FP_PORT_CFG.MODE p.val) = 2) ∧ s.get (Fd.FP_PORT_CFG.AN p.val) ≠ 0 then 1 else 0)).linkChange p.val true)) ∧
  (∀ (p : FieldPort) (s : State), s.get (Fd.FP_PORT_STAT.LINK p.val) ≠ 0 →
    let soft (f : TxFrame) : Bool := match f.kind with
      | .software .. => true
      | _ => false
    let x := s.port p.val
    let frames := x.wire.toList ++ x.queues.flatMap (·.2)
    let u := s.modPort p.val fun y => { y with
      queues := (y.queues.map fun e => (e.1, e.2.filter fun f => !soft f)).filter fun e => !e.2.isEmpty }
    exec (.fieldLinkDown p) s = .next (((frames.filter soft).foldl (fun w f => w.txDone? f.kind 3 0) u).fieldDown p.val)) ∧
  (∀ (w : State) (p : Nat), w.get (Fd.FP_PORT_STAT.LINK p) ≠ 0 →
    let y := w.port p
    let n := ((y.queues.map fun e => (e.2.filter isTemplateFrame).length).sum) + (y.wire.toList.filter isTemplateFrame).length
    let z := (w.modPort p fun y => { y with
      queues := (y.queues.map fun e => (e.1, e.2.filter fun f => !isTemplateFrame f)).filter (fun e => !e.2.isEmpty)
      wire := none }).set (Fd.FP_PORT_STAT.AN_DONE p) 0
    w.fieldDown p = (if n = 0 then z else (z.count (Fd.FP_PORT_TPL_DROP_CNT.COUNT p) n).set Fd.FP_STAT.TPL_DROP 1).linkChange p false) ∧
  (∀ (p : FieldPort) (s : State) (f : TxFrame), (s.port p.val).wire = some f →
    exec (.frameTransmissionEnd p) s = .next (((s.modPort p.val fun x => { x with wire := none }).modField fun x =>
      { x with sent := (p.val, f) :: x.sent }).txDone? f.kind 1 (s.port p.val).wireAt)) ∧
  (∀ (u : State) (k : TxKind) (status stamp : Nat), (∀ e c n, k ≠ .software e c n true) → u.txDone? k status stamp = u) ∧
  (∀ (u : State) (e c n : Nat) (j : DmaJob) (d : List Byte) (status stamp : Nat), (u.eng e).job = some j → j.desc = some d →
    u.txDone? (.software e c n true) status stamp =
      (if j.sent = some n then u.descEnd e { j with sent := none } d status 0 (if status = 1 then j.moved else 0) stamp else u)) ∧
  (∀ (s : State) (p : Nat) (up : Bool),
    let u := (s.set (Fd.FP_PORT_STAT.LINK p) (if up then 1 else 0)).set (Fd.FP_PORT_STAT.LINK_CHG p) 1
    let w := Rg.FP_LINK (p / 32)
    let v := u.setReg w (setBits (u.reg w) (p % 32) (p % 32) (if up then 1 else 0))
    s.linkChange p up = (v.set Fd.FP_STAT.LINK_CHG 1).pulse (v.get Fd.FP_IRQ_SRC.LINK_SRC)) ∧
  (∀ (r : Requester) (s : State), Admitted s r Rg.FP_CTL 4 →
    Answers (.fpCntClr r) s fun t =>
      (∀ p k, p < 72 → k < 6 → t.reg (Rg.FP_PORT_RX_CNT p + 4 * k) = 0) ∧
      (∀ i, i % 4 = 0 → (∀ p k, p < 72 → k < 6 → i ≠ Rg.FP_PORT_RX_CNT p + 4 * k) → t.reg i = s.reg i) ∧
      t.mem = s.mem ∧ t.field = s.field ∧ t.groves = s.groves)) ∧
  ((∀ (p : FieldPort) (s : State), s.get (Fd.FP_PORT_CFG.PTP p.val) = 1 → s.get (Fd.FP_PORT_STAT.LINK p.val) ≠ 0 →
    (∃ sync : List Byte, exec (.syncTransmit p) s = .next
      ((s.enqueue p.val 5 { kind := .ptp 0, bytes := sync }).modPort p.val fun x =>
        { x with syncSeq := ((s.port p.val).syncSeq + 1) % 2 ^ 16 })) ∧
    (∃ announce : List Byte, exec (.announceTransmit p) s = .next
      ((s.enqueue p.val 5 { kind := .ptp 11, bytes := announce }).modPort p.val fun x =>
        { x with annSeq := ((s.port p.val).annSeq + 1) % 2 ^ 16 })) ∧
    (∀ (q : Half) (rx clock : Word) (num : Half), ∃ resp : List Byte,
      exec (.pdelayReqReceived p q ⟨rx, clock, num⟩) s = .next (s.enqueue p.val 5 { kind := .ptp 3, bytes := resp }) ∧
      sliceB resp 48 10 = ptpTime rx.toNat ∧ sliceB resp 58 10 = beBytes 8 clock.toNat ++ beBytes 2 num.toNat)) ∧
  (∀ (s : State) (p : Nat) (f : TxFrame) (stamp : Nat),
    (f.kind = .ptp 0 → ∃ follow : List Byte, s.ptpSent p f stamp = s.enqueue p 5 { kind := .ptp 8, bytes := follow } ∧
      sliceB follow 48 10 = ptpTime stamp) ∧
    (f.kind = .ptp 3 → ∃ follow : List Byte, s.ptpSent p f stamp = s.enqueue p 5 { kind := .ptp 10, bytes := follow } ∧
      sliceB follow 48 10 = ptpTime stamp) ∧
    (f.kind = .ptp 2 → s.ptpSent p f stamp = s.modPort p fun x => { x with pdT1 := some stamp }) ∧
    ((∀ k, f.kind ≠ .ptp k) → s.ptpSent p f stamp = s)) ∧
  (∀ (p : FieldPort) (s : State), s.get (Fd.FP_PORT_CFG.PTP p.val) = 2 →
    (s.get (Fd.FP_PORT_STAT.LINK p.val) ≠ 0 → ∃ req : List Byte, exec (.pdelayReqTransmit p) s = .next
      ((s.enqueue p.val 5 { kind := .ptp 2, bytes := req }).modPort p.val fun x =>
        { x with pdSeq := ((s.port p.val).pdSeq + 1) % 2 ^ 16, pdT1 := none })) ∧
    (∀ (m : PdelayMsg) (t1 : Nat), (s.port p.val).pdT1 = some t1 →
      exec (.pdelayRespReceived p m) s = .next (s.modPort p.val fun x => { x with
        pdT1 := none, pdelay := (quotFree (((m.t4.toNat : Int) - t1) - ((m.t3.toNat : Int) - m.t2.toNat)) 2).toNat })) ∧
    (∀ m : SyncMsg, s.get Fd.FP_TIME_CFG.AS_SOURCE ≠ 0 → s.get (Fd.FP_PORT_STAT.LINK p.val) ≠ 0 → s.get Fd.CAS_TIME_STAT.ROLE = 1 →
      let o : Int := (m.rx.toNat : Int) - (m.origin.toNat + (s.port p.val).pdelay : Nat)
      let u := s.set Fd.TIME_STAT.SOURCE 2
      (s.field.stepped = false → exec (.syncReceived p m) s = .next
        ((u.setTime ((s.now : Int) - o).toNat).modField fun x =>
          { x with stepped := true, lastSync := some (u.setTime ((s.now : Int) - o).toNat).now })) ∧
      (s.field.stepped = true →
        let n := if o.natAbs ≤ 100 then s.field.goodSyncs + 1 else 0
        let v := ((u.set Fd.FP_TIME_OFS.OFS_NS (satInt 32 o)).set Fd.TIME_RATE.PPB (ofInt 32 (clampRate (quotFree (8 * m.freq - o) 8)))).set
          Fd.TIME_STAT.HOLDOVER 0
        let v := v.modField fun x => { x with goodSyncs := min n 8, lastSync := some s.now }
        exec (.syncReceived p m) s = .next (if 8 ≤ n then v.set Fd.TIME_STAT.ACQUIRED 1 else v)))) ∧
  (∀ (s : State) (t : Nat), s.field.lastSync = some t → s.get Fd.FP_TIME_CFG.AS_SOURCE ≠ 0 → s.get Fd.TIME_STAT.ACQUIRED ≠ 0 →
    s.get Fd.TIME_STAT.HOLDOVER = 0 →
    let u := (s.atTime (t + 3 * s.syncNs)).set Fd.TIME_STAT.HOLDOVER 1
    exec .fieldPortTimeSourceLost s = .next ((u.set Fd.FP_STAT.TIME_LOSS 1).pulse (u.get Fd.FP_IRQ_SRC.TIME_SRC))))

/-- R422-R424, R436: HEAD, START and STOP of a channel by a requester that may write its engine; a write that would overfill the ring,
or while the engine's error stands, has no effect; CNT_CLR is for an E-level core.
R438: a bus error ends the job, stops every channel of the engine with its event, and is recorded with its address, direction,
kind and channel (0x1F of a failed read). -/
def Obligations.DmaControlAndErrors : Prop :=
  (∀ (r : Requester) (e : EngineId) (c : ChannelId) (s : State),
    let u := accepted s r
    (∀ v : Word32, Admitted s r (Rg.DMA_CH_HEAD e.val c.val) 4 → exec (.dmaHeadWrite r e c v) s = .next
      (if u.mayWriteEngine r e.val = true ∧
          (v.toNat + 2 ^ 32 - u.get (Fd.DMA_CH_DONE.DONE e.val c.val)) % 2 ^ 32 ≤ 2 ^ u.get (Fd.DMA_CH_CFG.LOG2 e.val c.val)
       then u.set (Fd.DMA_CH_HEAD.HEAD e.val c.val) v.toNat else u)) ∧
    (Admitted s r (Rg.DMA_CH_CTL e.val c.val) 4 → exec (.dmaStart r e c) s = .next
      (if u.mayWriteEngine r e.val = true ∧ u.get (Fd.DMA_ENG_STAT.ERR e.val) = 0 ∧ u.get (Fd.DMA_CH_STAT.RUN e.val c.val) = 0
       then u.set (Fd.DMA_CH_STAT.RUN e.val c.val) 1 else u)) ∧
    (Admitted s r (Rg.DMA_CH_CTL e.val c.val) 4 → u.mayWriteEngine r e.val = true → u.get (Fd.DMA_CH_STAT.RUN e.val c.val) ≠ 0 →
      (∀ j, (u.eng e.val).job = some j → j.ch = c.val →
        exec (.dmaStop r e c) s = .next (u.setChan e.val c.val { u.chan e.val c.val with stop := true })) ∧
      ((∀ j, (u.eng e.val).job = some j → j.ch ≠ c.val) →
        let v := u.set (Fd.DMA_CH_STAT.RUN e.val c.val) 0
        exec (.dmaStop r e c) s = .next (v.setChan e.val c.val { v.chan e.val c.val with stop := false }))) ∧
    (Admitted s r Rg.DMA_CTL 4 → exec (.dmaCntClr r) s = .next
      (if u.isE r then (List.range 32).foldl (fun w k => w.set (Fd.DMA_ENG_ERR_CNT.COUNT k) 0) u else u))) ∧
  ((∀ (e : EngineId) (a : PAddr) (wr desc failed : Bool) (ch : Option ChannelId) (s : State),
    (s.eng e.val).job.isSome = true ∨ (∃ c, c < 16 ∧ s.get (Fd.DMA_CH_STAT.RUN e.val c) ≠ 0) →
    exec (.engineBusError e a wr desc failed ch) s = .next (s.engError e.val a.toNat wr desc
      (if failed = true ∧ wr = false ∧ a.toNat < gddrSize then 4 else 3) ((ch.map (·.val)).getD 0x1F))) ∧
  (∀ (s : State) (e a : Nat) (wr desc : Bool) (kind ch : Nat), e < 32 → a < 2 ^ 40 → kind < 8 → ch < 32 →
    let t := s.engError e a wr desc kind ch
    (t.eng e).job = none ∧ (∀ c, c < 16 → t.get (Fd.DMA_CH_STAT.RUN e c) = 0 ∧ t.get (Fd.DMA_CH_STAT.ERR_STOP e c) = 1) ∧
    t.get (Fd.DMA_ENG_STAT.ERR e) = 1 ∧
    t.reg (Rg.DMA_ENG_ERR e) = a + (if wr then 1 else 0) * 2 ^ 40 + (if desc then 1 else 0) * 2 ^ 41 + kind * 2 ^ 42 +
      (if wr then ch else 0x1F) * 2 ^ 45))

/-- R424-R428: an idle engine begins a job on the next ready channel, whose HEAD it latches; an element of a memory job is read and
written at the addresses of R427 in the service class of its descriptor; a descriptor whose elements are written completes with status 1. -/
def Obligations.DmaJobs : Prop :=
  (∀ (e : EngineId) (s : State) (c : Nat), (s.eng e.val).job = none → s.nextChannel e.val = some c →
    let u := ((s.set (Fd.DMA_ENG_STAT.BUSY e.val) 1).set (Fd.DMA_ENG_STAT.CUR e.val) c).set (Fd.DMA_CH_STAT.ACTIVE e.val c) 1
    let u := u.setEng e.val { u.eng e.val with last := some c, job := some { ch := c, latch := u.get (Fd.DMA_CH_HEAD.HEAD e.val c) } }
    exec (.dmaJobStart e) s = .next (u.descRead e.val 4096)) ∧
  (∀ (e : EngineId) (s u w : State) (j : DmaJob) (d bs x : List Byte), (s.eng e.val).job = some j → j.desc = some d →
    s.get (Fd.DMA_CH_CFG.MODE e.val j.ch) = 0 → j.elem < dCount d → dCirc d = 0 → j.ended = none →
    (if j.buf = none then s.dmaRead e.val j.ch (dSrc d + j.elem * dSstride d) (dElem d) (dRt d) else (.ok (j.buf.getD []), s)) = (.ok bs, u) →
    u.dmaWrite e.val j.ch (dDst d + j.elem * dDstride d) bs (dRt d) = (.ok x, w) →
    exec (.dmaElementComplete e) s = .next (w.setEng e.val { w.eng e.val with
      job := some { j with elem := j.elem + 1, moved := j.moved + dElem d, buf := none } })) ∧
  (∀ (e : EngineId) (s : State) (j : DmaJob) (d : List Byte), (s.eng e.val).job = some j → j.desc = some d →
    s.get (Fd.DMA_CH_CFG.MODE e.val j.ch) = 0 → dCount d ≤ j.elem → j.ended = none →
    exec (.descriptorComplete e) s = .next ((s.descEnd e.val j d 1 0 j.moved 0).descRead e.val 4096)) ∧
  (∀ (s w : State) (e : Nat) (j : DmaJob) (d x : List Byte) (status queue xlen stamp : Nat),
    let i := s.get (Fd.DMA_CH_DONE.DONE e j.ch)
    s.dmaWrite e j.ch (s.get (Fd.DMA_CH_BASE.BASE e j.ch) * 64 + 64 * (i % 2 ^ s.get (Fd.DMA_CH_CFG.LOG2 e j.ch)) + 0x20)
      (leBytes 1 status ++ leBytes 1 queue ++ leBytes 2 0 ++ leBytes 4 xlen ++ leBytes 8 stamp) (dRt d) = (.ok x, w) →
    dCirc d = 0 → dIrq d = false → dHalt d = false → status ≠ 4 →
    let v := w.set (Fd.DMA_CH_DONE.DONE e j.ch) (i + 1)
    (v.chan e j.ch).stop = false →
    s.descEnd e j d status queue xlen stamp =
      (if v.get (Fd.DMA_CH_CFG.MODE e j.ch) = 0 ∧ v.get (Fd.DMA_CH_STAT.RUN e j.ch) ≠ 0 ∧ v.get (Fd.DMA_CH_DONE.DONE e j.ch) ≠ j.latch
       then v.setEng e { v.eng e with job := some { ch := j.ch, latch := j.latch } } else v.jobEnd e))

/-- R424, R433-R435: a packet channel has the turn when its job has begun and has not sent, or when its engine is idle and it is next. A receive job writes one frame of the highest queue into its descriptor's buffer; a transmit job puts one frame into
its TC queue, padded to 60 bytes. -/
def Obligations.DmaPackets : Prop :=
  let turn (s : State) (e c : Nat) : Prop := match (s.eng e).job with
    | some j => j.ch = c ∧ j.sent = none
    | none => s.nextChannel e = some c
  (∀ (e : EngineId) (c : ChannelId) (s u w : State) (j : DmaJob) (d x : List Byte) (p q : Nat) (f : RxFrame),
    turn s e.val c.val → s.get (Fd.DMA_CH_CFG.MODE e.val c.val) = 1 → s.descWaits e.val = false →
    (if (s.eng e.val).job = none then s.jobBegin e.val c.val else s).descRead e.val 1 = u → (u.eng e.val).job = some j → j.desc = some d → u.chPort e.val c.val = some p →
    (u.port p).nextRx = some (q, f) →
    u.dmaWrite e.val c.val (dDst d) (f.bytes.take (dCount d)) (dRt d) = (.ok x, w) →
    exec (.portReceiveJob e c) s = .next (((w.modPort p fun y => { y with rxQueue := dropRx q y.rxQueue }).descEnd e.val j d
      (if dCount d < f.bytes.length then 2 else 1) q f.bytes.length f.capture.toNat).rxSettle p q)) ∧
  (∀ (e : EngineId) (c : ChannelId) (s u w : State) (j : DmaJob) (d bs : List Byte) (p : Nat),
    turn s e.val c.val → s.get (Fd.DMA_CH_CFG.MODE e.val c.val) = 2 → s.descWaits e.val = false →
    (if (s.eng e.val).job = none then s.jobBegin e.val c.val else s).descRead e.val 1 = u → (u.eng e.val).job = some j → j.desc = some d → u.chPort e.val c.val = some p →
    u.dmaRead e.val c.val (dSrc d) (dCount d) (dRt d) = (.ok bs, w) →
    let k := (w.eng e.val).frames
    let v := (w.enqueue p (dTc d) { kind := .software e.val c.val k (dTsReq d)
                                    bytes := bs ++ List.replicate (60 - bs.length) 0 }).setEng e.val { w.eng e.val with frames := k + 1 }
    (dTsReq d = false → exec (.portTransmitJob e c) s = .next (v.descEnd e.val j d 1 0 (dCount d) 0)) ∧
    (dTsReq d = true → exec (.portTransmitJob e c) s = .next
      (v.setEng e.val { v.eng e.val with job := some { j with sent := some k, moved := dCount d } })))

/-- R229-R234, R237: a port's bring-up. Block lock gives STATE 2 and a HELLO; a HELLO that agrees gives STATE 3 and the keying messages, one
that does not holds the port with its cause; CERT and KEYX chunks are kept; verified keys give CONFIRM; the neighbour's CONFIRM gives
STATE 4. A held port repeats HELLO; a retry begins again; without lock within 1 ms the bring-up fails with cause 1.
R233, R234, R236, R242, R247: what ends a link, its diagnosis, and its delay measurement. -/
def Obligations.LinkStates : Prop :=
  (∀ (p : HawserPort) (s : State), 
    let x := s.hawser p.val
    let st := s.get (Fd.CAS_PORT_STAT.STATE p.val)
    (st = 1 → x.retry = none → exec (.blockLock p) s = .next ((s.setHw p.val 2).sendHello p.val)) ∧
    (st = 1 → x.retry = none → exec (.blockLockTimeout p) s = .next
      (((s.atTime (x.began + 1000000)).set (Fd.CAS_PORT_STAT.CAUSE p.val) 0x01).hwFail p.val)) ∧
    (∀ t, x.retry = some t → let u := s.atTime t
      let gone (c : TxCell) : TxCell := match c.held with
        | some (r, _) => if r == p.val then { c with held := none } else c
        | none => c
      let v := (List.range 6).foldl (fun w o => w.modHawser o fun x =>
        { x with queues := x.queues.map fun e => (e.1, e.2.map gone) }) u
      let y := v.hawser p.val
      exec (.bringupRetry p) s = .next (((v.setHawser p.val { began := v.now, mean := y.mean, diag := y.diag, authTimes := y.authTimes }).inc
        (Fd.CAS_PORT_BRINGUP_CNT.COUNT p.val)).setHw p.val 1)) ∧
    (st = 6 → exec (.heldHelloTransmit p) s = .next (s.sendHello p.val)) ∧
    (∀ c : List Byte, let m := sliceB c 16 48
      let u := (s.set (Fd.CAS_PORT_STAT.NBR_DEV p.val) (fieldB m 0 2)).set (Fd.CAS_PORT_STAT.NBR_PORT p.val) (fieldB m 5 1)
      st = 2 →
      let v := u.modHawser p.val fun x => { x with helloRx := some m, mgmtRx := x.mgmtRx ++ c }
      exec (.hello p c) s = .next (if u.helloCause p.val m = 0 then (v.setHw p.val 3).sendKeying p.val
        else v.hwHold p.val (u.helloCause p.val m))) ∧
    (st = 3 → ∀ c : List Byte, let i := bits (cellField c) 15 0
      exec (.cert p c) s = .next (s.modHawser p.val fun x => { x with
        mgmtRx := x.mgmtRx ++ c, certRx := mapPut x.certRx i (sliceB c 16 48) }) ∧
      exec (.keyx p c) s = .next (s.modHawser p.val fun x => { x with
        mgmtRx := x.mgmtRx ++ c, keyxRx := mapPut x.keyxRx i (sliceB c 16 48) })) ∧
    (∀ cert keyx : List Byte, joinChunks x.certRx 6 = some cert → joinChunks x.keyxRx 5 = some keyx → st = 3 → x.keys = none →
      let ok := s.certOk cert && Config.signatureValid (sliceB cert 0x20 97) (keyxMessage keyx (x.hellos p.val).1 (x.hellos p.val).2)
        (sliceB keyx 129 96)
      exec (.keyDerivationComplete p) s = .next (if ok then
          (s.modHawser p.val fun y => { y with keys := some (s.linkKeys p.val x.keyxTx keyx), txSeq := 0, rxSeq := 0 }).sendMgmt p.val 4 0
            (x.confirm p.val)
        else s.hwHold p.val 0x08)) ∧
    (st = 3 → x.keys.isSome = true → ∀ c : List Byte, exec (.confirm p c) s = .next
      (if sliceB c 16 48 = x.confirm p.val then s.setHw p.val 4
       else (s.hwHold p.val 0x09).modHawser p.val fun y =>
        { y with keys := none, retry := some (s.now + 100000000) }))) ∧
  (∀ (p : HawserPort) (s : State),
    let x := s.hawser p.val
    let st := s.get (Fd.CAS_PORT_STAT.STATE p.val)
    (st = 5 → x.retry = none → exec (.hawserLinkDown p) s = .next (s.hwFail p.val)) ∧
    (2 ≤ st → exec (.close p) s = .next (if st = 6 ∧ s.get Fd.CFG_STAT.SAFE_HOLD ≠ 0 then s
      else (s.set (Fd.CAS_PORT_STAT.CAUSE p.val) 0x0D).hwFail p.val)) ∧
    (2 ≤ st → ∀ c : List Byte, exec (.diagReq p c) s = .next (s.sendMgmt p.val 6 (bits (cellField c) 15 0) (sliceB c 16 48))) ∧
    (2 ≤ st → ∀ c : List Byte, exec (.diagRsp p c) s = .next (s.modHawser p.val fun x => { x with diag := some (sliceB c 16 48) })) ∧
    (st = 4 ∨ st = 5 → let q := (x.dreqSeq + 1) % 2 ^ 16
      exec (.dreqTransmit p) s = .next ((s.queueCell p.val { bytes := mkCell (mkHdr 0 1 true 0 s.device) q [] }).modHawser p.val fun x =>
        { x with dreqSeq := q, dreqT1 := none })) ∧
    (st = 4 ∨ st = 5 → ∀ (c : List Byte) (rx : Nat), exec (.dreq p c rx) s = .next (s.queueCell p.val
      { bytes := mkCell (mkHdr 0 2 true 0 s.device) (bits (cellField c) 15 0)
          (leBytes 8 (rx / 65536) ++ leBytes 8 0 ++ leBytes 2 (rx % 65536) ++ leBytes 2 0), rxT := some rx })) ∧
    (∀ (c : List Byte) (rx t1 : Nat), x.dreqT1 = some t1 → bits (cellField c) 15 0 = x.dreqSeq →
      let t2 : Int := (fieldB c 0x10 8 * 65536 + fieldB c 0x20 2 : Nat)
      let t3 : Int := (fieldB c 0x18 8 * 65536 + fieldB c 0x22 2 : Nat)
      let m := quotFree (((rx : Int) - t1) - (t3 - t2)) 2
      let l := x.samples ++ [m]
      (st = 5 → exec (.drsp p c rx) s = .next
        ((s.modHawser p.val fun x => { x with dreqT1 := none, mean := x.mean + quotFree (m - x.mean) 16 }).showDelay p.val)) ∧
      (st = 4 → l.length < 16 → exec (.drsp p c rx) s = .next (s.modHawser p.val fun x => { x with dreqT1 := none, samples := l })) ∧
      (st = 4 → 16 ≤ l.length → exec (.drsp p c rx) s = .next ((s.modHawser p.val fun x =>
        { x with dreqT1 := none, samples := [], mean := quotFree (l.foldl (· + ·) 0) 16, ready := true }).showDelay p.val))) ∧
    (∀ t1, x.dreqT1 = some t1 → st = 4 → exec (.delayResponseTimeout p) s = .next
      (((s.atTime (t1 / 65536 + 10000000)).set (Fd.CAS_PORT_STAT.CAUSE p.val) 0x0C).hwFail p.val)) ∧
    (∀ n, n = (s.hawser p.val).waiting →
      let v := s.releaseHeld ((s.hawser p.val).queues.flatMap (·.2))
      let u := if n = 0 then v else v.count Fd.CAS_NOROUTE_CNT.COUNT n
      s.hwFail p.val = (u.modHawser p.val fun x =>
        { x with queues := [], keys := none, ready := false, dreqT1 := none, retry := some (s.now + 100000000) }).setHw p.val 1))

/-- R224-R228, R235, R238-R241, R261: a transmitter sends the next cell of the queue that may send, spending a credit, and the credit of
the receive queue that held it is owed; a received frame is authenticated and its cell delivered, forwarded or discarded by its class; a frame
in error or not authentic is a gap, and a first keyed frame not authentic fails the confirmation (the model's reading, log 73). -/
def Obligations.LinkFrames : Prop :=
  (∀ (p : HawserPort) (s : State) (q : Nat) (c : TxCell) (rest : List TxCell), 2 ≤ s.get (Fd.CAS_PORT_STAT.STATE p.val) →
    s.nextQueue p.val = some q → mapGet [] (s.hawser p.val).queues q = c :: rest →
    let x := s.hawser p.val
    let u := s.setHawser p.val { x with
      queues := mapSet [] x.queues q rest, spent := mapSet 0 x.spent q (mapGet 0 x.spent q + 1)
      turn := mapSet 0 x.turn (q / 3) ((q % 3 + 1) % 3) }
    exec (.linkFrameTransmit p) s = .next ((u.emitFrame p.val (s.creditOut p.val).1 (s.creditOut p.val).2 (some c)).releaseHeld [c])) ∧
  (∀ (p : HawserPort) (s : State) (q : Nat), s.nextQueue p.val = some q →
    classCrosses (s.get (Fd.CAS_PORT_STAT.STATE p.val)) (q / 3) = true ∧ mapGet [] (s.hawser p.val).queues q ≠ [] ∧
      mapGet 0 (s.hawser p.val).spent q < 32) ∧
  (∀ (p : HawserPort) (f : LinkFrame) (s : State), s.get (Fd.CAS_PORT_STAT.STATE p.val) ≠ 0 → f.codeError = true →
    exec (.linkFrameReceived p f) s = .next (s.count (Fd.CAS_PORT_GAP_CNT.COUNT p.val) 1)) ∧
  (∀ (p : HawserPort) (f : LinkFrame) (s : State), s.get (Fd.CAS_PORT_STAT.STATE p.val) ≠ 0 → f.codeError = false → f.bytes.length ≠ 8 →
    let gap := s.count (Fd.CAS_PORT_GAP_CNT.COUNT p.val) 1
    ((s.hawser p.val).keys = none → sliceB f.bytes 72 16 ≠ leBytes 4 (crc32c (sliceB f.bytes 0 72)) ++ List.replicate 12 0 →
      exec (.linkFrameReceived p f) s = .next gap) ∧
    (∀ ks, (s.hawser p.val).keys = some ks →
      let seq := extendSeq (s.hawser p.val).rxSeq (bits (fieldB f.bytes 1 7) 47 0)
      let fromPlus := p.val % 2 == 1
      Config.gcmOpen (linkKey ks fromPlus) (linkSalt ks fromPlus ++ leBytes 8 seq) (sliceB f.bytes 0 8) (sliceB f.bytes 8 64)
        (sliceB f.bytes 72 16) = none →
      let v := gap.authFail p.val
      exec (.linkFrameReceived p f) s = .next (if v.get (Fd.CAS_PORT_STAT.STATE p.val) = 3 then v.confirmFail p.val else v))) ∧
  (∀ (p : HawserPort) (f : LinkFrame) (s u : State) (c : List Byte), s.linkAccept p.val f = (some c, u) →
    (cellLegal c = false → exec (.linkFrameReceived p f) s =
      .next ((u.count (Fd.CAS_PORT_GAP_CNT.COUNT p.val) 1).cellTaken p.val c)) ∧
    (cellLegal c = true → classCrosses (u.get (Fd.CAS_PORT_STAT.STATE p.val)) (hClass (cellHdr c)) = true →
      (hClass (cellHdr c) = 2 → u.msgExpired c = true →
        exec (.linkFrameReceived p f) s = .next ((u.inc Fd.CAS_MSG_EXPIRED_CNT.COUNT).cellTaken p.val c)) ∧
      (hClass (cellHdr c) = 1 ∨ hClass (cellHdr c) = 2 ∧ u.msgExpired c = false →
        (∀ q h, u.route (cellHdr c) (some (p.val / 2)) = .out q h → exec (.linkFrameReceived p f) s =
          .next (u.queueCell q { bytes := setHdr c h, held := some (p.val, 3 * hClass (cellHdr c) + hVc (cellHdr c)) })) ∧
        (u.route (cellHdr c) (some (p.val / 2)) = .noRoute → exec (.linkFrameReceived p f) s =
          .next ((u.count Fd.CAS_NOROUTE_CNT.COUNT 1).cellTaken p.val c)) ∧
        (u.route (cellHdr c) (some (p.val / 2)) = .here → exec (.linkFrameReceived p f) s = .next ((if hClass (cellHdr c) = 1 then
            (List.range 3).foldl (fun w k => w.dataSlot c k) u
          else if hKind (cellHdr c) = 0 then u.reqIn c else u.rspTake c).cellTaken p.val c))) ∧
      (hClass (cellHdr c) = 0 → hKind (cellHdr c) = 0 → exec (.linkFrameReceived p f) s = exec (.beat p c f.rx) (u.cellTaken p.val c)) ∧
      (hClass (cellHdr c) = 3 → hKind (cellHdr c) = 1 → exec (.linkFrameReceived p f) s = exec (.hello p c) (u.cellTaken p.val c)))) ∧
  (∀ (c : List Byte) (s : State), exec (.data c) s = .next (((s.dataSlot c 0).dataSlot c 1).dataSlot c 2)) ∧
  (∀ (c : List Byte) (s : State) (k i : Nat) (r : List Byte), s.cascade.subscribe[i]? = some r →
    s.cascade.subscribe.findIdx? (fun r => recDev r == hSrc (cellHdr c) && recSplice r == bits (cellField c) 11 0 &&
      recPos r == 3 * bits (cellField c) 23 12 + k) = some i → s.tickIndex s.now % 2 ^ 16 = bits (cellField c) 39 24 →
    s.dataSlot c k = s.gather (.subscription (Fin.ofNat _ i)) (recTag r) (.value (BitVec.ofNat 64 (fieldB c (16 + 16 * k) 8)) (BitVec.ofNat 64 (fieldB c (24 + 16 * k) 8))
      (BitVec.ofNat 8 (bits (cellField c) (47 + 8 * k) (40 + 8 * k)))))

/-- R244-R252: an accepted BEAT is flooded, clears the misses and steers a follower; a lower epoch or a second copy is ignored; misses
lead to holdover; a standby without a BEAT takes over, and a Taproot begins to send or follows. -/
def Obligations.SystemTime : Prop :=
  (∀ (p : HawserPort) (c : List Byte) (rx : Nat) (s : State), s.get (Fd.CAS_PORT_STAT.STATE p.val) = 5 →
    let e := bits (cellField c) 32 32
    let m := s.beatIndex (fieldB c 0x10 8) (bits (cellField c) 31 0)
    (s.beatFresh m e = false → exec (.beat p c rx) s = .next s) ∧
    (s.beatFresh m e = true → s.get Fd.CAS_TIME_STAT.ROLE = 0 → s.cascade.sending = false →
      let corr := sext 64 (fieldB c 0x18 8) + s.delayIn p.val
      let c' := overlayB c 0x18 (leBytes 8 (ofInt 64 corr))
      let u := (s.floodBeat (some p.val) c' rx).modCas fun x => { x with seen := (m, e) :: x.seen, epochSeen := e, missArmed := false }
      let v := (u.set Fd.CAS_TIME_STAT.SOURCE_DEV (hSrc (cellHdr c'))).set Fd.CAS_TIME_STAT.MISSES 0
      exec (.beat p c rx) s = .next (((v.set Fd.CAS_TIME_STAT.EPOCH e).set Fd.TIME_STAT.HOLDOVER 0).steer rx (fieldB c' 0x10 8 * 65536 + corr)))) ∧
  (∀ s : State, let m := s.tickIndex s.now
    s.get Fd.CAS_TIME_STAT.ROLE ≠ 1 → s.cascade.seen ≠ [] → (∀ x, x ∈ s.cascade.seen → x.1 ≠ m) → s.cascade.missTick ≠ some m →
    let u := s.atTime (s.origin + m * s.period + s.get Fd.CAS_TIME_CFG.BEAT_WIN_NS)
    let n := min 3 (s.get Fd.CAS_TIME_STAT.MISSES + 1)
    let v := (u.set Fd.CAS_TIME_STAT.MISSES n).modCas fun x => { x with missTick := some m }
    (n < 3 → exec .beatMiss s = .next v) ∧
    (n = 3 → s.get Fd.TIME_STAT.HOLDOVER = 0 →
      let w := v.modCas fun x => { x with missArmed := v.get Fd.CAS_TIME_STAT.ROLE == 2 }
      exec .beatMiss s = .next (((w.set Fd.TIME_STAT.HOLDOVER 1).set Fd.CAS_STAT.TIME_LOSS 1).pulse (w.get Fd.CAS_IRQ_SRC.TIME_SRC)))) ∧
  (∀ s : State, s.get Fd.CAS_TIME_STAT.ROLE = 2 → s.cascade.seen = [] → s.get Fd.CFG_STAT.DONE ≠ 0 →
    let u := ((s.atTime (s.cascade.startedAt + s.get Fd.CAS_TIME_CFG.STARTUP_WAIT_S * 1000000000)).set Fd.CAS_TIME_STAT.ROLE 1).set
      Fd.CAS_TIME_STAT.EPOCH 1
    let v := (u.set Fd.TIME_STAT.SOURCE (if u.get Fd.FP_TIME_CFG.AS_SOURCE = 0 then 0 else 2)).set Fd.TIME_STAT.ACQUIRED 1
    exec .startupWaitExpiry s = .next ((v.modCas fun x => { x with sending := true, epochSeen := 1, missArmed := false }).modField fun x =>
      { x with stepped := true })) ∧
  (∀ s : State, s.cascade.startHold = true →
    let u := (s.atTime (s.cascade.startedAt + 1000000000)).modCas fun x => { x with startHold := false }
    exec .taprootStartDelay s = .next (if s.cascade.epochSeen = 1 then (u.set Fd.CAS_TIME_STAT.ROLE 0).modCas fun x => { x with sending := false }
      else u.modCas fun x => { x with sending := true }))

/-- R259-R265: messages. TXHEAD and RXTAIL within their rings; a descriptor is issued with a free tag, or completes with 5 (bad) or 3 (no
route); a request lands in its grove's receive ring and is answered; a response completes its descriptor, one without an open tag is
stale; an open tag expires with 4; the doorbell holds off 10 µs. CNT_CLR clears the cascade's counters. -/
def Obligations.Messages : Prop :=
  (∀ (r : Requester) (g : GroveId) (v : Word32) (s : State), let u := accepted s r
    (Admitted s r (Rg.CAS_MQ_TXHEAD g.val) 4 → exec (.mqTxheadWrite r g v) s = .next
      (if (v.toNat + 2 ^ 32 - u.get (Fd.CAS_MQ_TXDONE.DONE g.val)) % 2 ^ 32 ≤ 2 ^ u.get (Fd.CAS_MQ_CFG.TX_LOG2 g.val)
       then u.set (Fd.CAS_MQ_TXHEAD.HEAD g.val) v.toNat else u)) ∧
    (Admitted s r (Rg.CAS_MQ_RXTAIL g.val) 4 → exec (.mqRxtailWrite r g v) s = .next
      (if (u.get (Fd.CAS_MQ_RXHEAD.HEAD g.val) + 2 ^ 32 - v.toNat) % 2 ^ 32 ≤ 2 ^ u.get (Fd.CAS_MQ_CFG.RX_LOG2 g.val)
       then u.set (Fd.CAS_MQ_RXTAIL.TAIL g.val) v.toNat else u)) ∧
    (Admitted s r Rg.CAS_CTL 4 → Answers (.casCntClr r) s fun t =>
      (∀ f, f ∈ [Fd.CAS_REPL_LATE_CNT.COUNT, Fd.CAS_REPL_UNMATCHED_CNT.COUNT, Fd.CAS_NOROUTE_CNT.COUNT, Fd.CAS_MSG_EXPIRED_CNT.COUNT,
        Fd.CAS_MSG_STALE_CNT.COUNT] → t.get f = 0) ∧
      (∀ p, p < 6 → t.get (Fd.CAS_PORT_AUTH_FAIL_CNT.COUNT p) = 0 ∧ t.get (Fd.CAS_PORT_GAP_CNT.COUNT p) = 0 ∧
        t.get (Fd.CAS_PORT_BRINGUP_CNT.COUNT p) = 0) ∧ t.mem = s.mem ∧ t.cascade = s.cascade ∧ t.groves = s.groves)) ∧
  (∀ (g : GroveId) (s u0 u : State) (d : List Byte), let i := mapGet 0 s.cascade.issued g.val
    let a := s.txEntry g.val i
    let len := fieldB d 3 1
    let dest := fieldB d 0 2
    s.get (Fd.CAS_MQ_CFG.TX_EN g.val) ≠ 0 → i ≠ s.get (Fd.CAS_MQ_TXHEAD.HEAD g.val) → s.gstate g.val ≠ stFrozen →
    (s.grv g.val).freezing = false → s.linesFree a 64 = true → s.ringAccess g.val .read a 64 = (true, u0) → u0.unitRead a 64 false = (some d, u) →
    let v := u.modCas fun x => { x with issued := mapSet 0 x.issued g.val ((i + 1) % 2 ^ 32) }
    (len = 0 ∨ 48 < len ∨ fieldB d 4 1 ≠ 1 ∨ u.cascade.sys.holds dest = false →
      exec (.messageIssue g) s = .next (v.descDone g.val i 5)) ∧
    (len ≠ 0 → len ≤ 48 → fieldB d 4 1 = 1 → u.cascade.sys.holds dest = true →
      let rt := u.route (mkHdr 2 0 false dest u.device) none
      (rt = .noRoute → exec (.messageIssue g) s = .next ((v.count Fd.CAS_NOROUTE_CNT.COUNT 1).descDone g.val i 3)) ∧
      (∀ q h t v w, rt = .out q h → u.freeTag g.val = some t → u.transTake hawserReq 1 = (true, v) →
        v.drawn.ringAccess g.val .write (a + 6) 2 = (true, w) →
        let gen := (w.mtag t).gen
        let cf := t + gen * 2 ^ 12 + (w.tickIndex w.now + 3) % 2 ^ 16 * 2 ^ 16 + 1 * 2 ^ 32 + len * 2 ^ 40 +
          g.val * 2 ^ 46 + fieldB d 2 1 % 64 * 2 ^ 52
        let c := mkCell (mkHdr 2 0 false dest u.device) cf (sliceB d 16 len)
        let z := (w.ringWrite (a + 6) (leBytes 2 (t + gen * 2 ^ 12))).modCas fun x => { x with issued := mapSet 0 x.issued g.val ((i + 1) % 2 ^ 32) }
        exec (.messageIssue g) s = .next ((z.openTag t g.val (some i)).queueCell q { bytes := setHdr c h })))) ∧
  (∀ (c : List Byte) (s : State), 
    (s.msgExpired c = true → exec (.req c) s = .next (s.inc Fd.CAS_MSG_EXPIRED_CNT.COUNT) ∧
      exec (.rsp c) s = .next (s.inc Fd.CAS_MSG_EXPIRED_CNT.COUNT)) ∧
    (s.msgExpired c = false → mOp (cellField c) = 1 → 
      exec (.req c) s = .next ((s.reqRing c).2.originate ((s.reqRing c).2.rspCell c (s.reqRing c).1) none)) ∧
    (∀ g u, mDgrove (cellField c) = g → s.gstate g ≠ stAbsent → s.gstate g ≠ stDraining → s.gstate g ≠ stClearing →
      s.get (Fd.CAS_MQ_CFG.RX_EN g) ≠ 0 →
      let head := s.get (Fd.CAS_MQ_RXHEAD.HEAD g)
      (head + 2 ^ 32 - s.get (Fd.CAS_MQ_RXTAIL.TAIL g)) % 2 ^ 32 ≠ 2 ^ s.get (Fd.CAS_MQ_CFG.RX_LOG2 g) →
      s.ringAccess g .write (s.rxEntry g head) 64 = (true, u) →
      s.reqRing c = (0, ((u.ringWrite (s.rxEntry g head) (leBytes 2 (hSrc (cellHdr c)) ++ leBytes 1 (mSgrove (cellField c)) ++
        leBytes 1 (mLen (cellField c)) ++ leBytes 4 0 ++ leBytes 8 u.now ++ sliceB c 16 48)).set (Fd.CAS_MQ_RXHEAD.HEAD g) (head + 1)).msgBell g)) ∧
    (let x := s.mtag (mMtag (cellField c))
     s.msgExpired c = false →
      (x.isOpen = false ∨ x.gen ≠ mGen (cellField c) ∨ x.squashed = true →
        exec (.rsp c) s = .next (s.inc Fd.CAS_MSG_STALE_CNT.COUNT)) ∧
      (∀ i, x.isOpen = true → x.gen = mGen (cellField c) → x.squashed = false → x.desc = some i →
        exec (.rsp c) s = .next ((s.closeTag (mMtag (cellField c))).descDone x.grove i (mStatus (cellField c)))))) ∧
  (∀ (t : Fin 4096) (s : State) (i : Nat), (s.mtag t.val).isOpen = true → (s.mtag t.val).desc = some i → (s.mtag t.val).squashed = false →
    exec (.messageExpiry t) s = .next (((s.atTime (s.origin + (s.mtag t.val).expiry * s.period)).closeTag t.val).descDone
      (s.mtag t.val).grove i 4)) ∧
  (∀ (g : GroveId) (s : State) (t : Nat), (mapGet {} s.cascade.bells g.val).last = some t → (mapGet {} s.cascade.bells g.val).deferred = true →
    let u := s.atTime (t + 10000)
    let v := u.modCas fun x => { x with bells := mapSet {} x.bells g.val { last := some u.now } }
    exec (.mqDoorbellHoldoffEnd g) s = .next (v.pulse (v.get Fd.CAS_MQ_SRC.MQ_BASE + g.val)))

/-- R12, R13, R16-R19: a register is read and written whole at its size, or by halves: a read of the low word of a 64-bit register keeps the
high word for the read that follows, a write of the low word waits for that of the high word. A wrong size or alignment is a bus error (R498: the host's write is
discarded and counted),
a reserved offset reads 0 and ignores writes.
R12, R13: what a write leaves of a field, by its access code; RWL fields are locked once start has completed. -/
def Obligations.RegisterAccess : Prop :=
  ((∀ (r : Requester) (a : PAddr) (s : State), targetOf a.toNat = .window → s.present r = true → s.reaches r .read a.toNat 4 = true →
    let u := s.fwUsed r
    ∀ (d : RegDesc) (o : Nat), u.blockOpen r (a.toNat - winBase) = true → d.direct = false →
    (regAcc (a.toNat - winBase) 4 = .low d o → let (v, w) := u.wholeRead r d o
      exec (.lowWordRead r a) s = .next ((w.setShadow r (some ⟨o, BitVec.ofNat 32 (v / 2 ^ 32 % 2 ^ 32)⟩)).answer (.data (BitVec.ofNat 64 (v % 2 ^ 32))))) ∧
    (regAcc (a.toNat - winBase) 4 = .high d o → ∀ h, mapGet? u.shadows (reqNo r) = some h → h.reg = o →
      exec (.highWordRead r a) s = .next ((u.setShadow r none).answer (.data (BitVec.ofNat 64 h.v.toNat))))) ∧
  (∀ (r : Requester) (a : PAddr) (s : State), targetOf a.toNat = .window → s.present r = true → s.reaches r .write a.toNat 4 = true →
    let u := accepted s r
    ∀ (d : RegDesc) (o : Nat) (v : Word32), u.blockOpen r (a.toNat - winBase) = true → d.direct = false →
    (regAcc (a.toNat - winBase) 4 = .low d o → exec (.lowWordWrite r a v) s = .next (u.setHold r (some ⟨o, v⟩))) ∧
    (regAcc (a.toNat - winBase) 4 = .high d o → ∀ h, mapGet? u.holds (reqNo r) = some h → h.reg = o →
      exec (.highWordWrite r a v) s = .next ((u.setHold r none).regSet r d o (2 ^ 64 - 1) (h.v.toNat + v.toNat * 2 ^ 32)))) ∧
  (∀ (r : Requester) (a : PAddr) (n : Nat) (v : Word) (s : State), targetOf a.toNat = .window → s.present r = true →
    s.reaches r .write a.toNat n = true →
    let u := accepted s r
    u.blockOpen r (a.toNat - winBase) = true →
    (∀ d o, regAcc (a.toNat - winBase) n = .whole d o →
      exec (.registerWrite r a n v) s = .next (u.regSet r d o (2 ^ (8 * n) - 1) (v.toNat % 2 ^ (8 * n)))) ∧
    (regAcc (a.toNat - winBase) n = .reserved → exec (.registerWrite r a n v) s = .next u) ∧
    (regAcc (a.toNat - winBase) n = .bad →
      exec (.registerWrite r a n v) s = .next (if r = .host then u.hostDrop else u.answer .busError))) ∧
  (∀ (r : Requester) (s : State), let n := mapGet 0 s.openTrans (reqNo r)
    n ≠ 0 → exec (.transactionComplete r) s = .next
      { s with openTrans := mapSet 0 s.openTrans (reqNo r) (n - 1), heldTrans := s.heldTrans.filter (· != reqNo r) })) ∧
  (∀ (f : FieldDesc) (old new : Nat),
    (f.acc = .ro ∨ f.acc = .wo → ∀ l, f.after l old new = bits old f.hi f.lo) ∧
    (f.acc = .rw → ∀ l, f.after l old new = bits new f.hi f.lo) ∧
    (f.acc = .rwl → f.after true old new = bits old f.hi f.lo ∧ f.after false old new = bits new f.hi f.lo) ∧
    (f.acc = .w1c → ∀ l i, i < f.hi + 1 - f.lo →
      (f.after l old new).testBit i = (old.testBit (f.lo + i) && !new.testBit (f.lo + i))) ∧
    (f.acc = .w1s → ∀ l i, i < f.hi + 1 - f.lo →
      (f.after l old new).testBit i = (old.testBit (f.lo + i) || new.testBit (f.lo + i))))

/-- R49-R51, R59, R60, R65, R66: the rows of the start sequence, in the phase each belongs to: power good, the ROM's end, the release of the
main side, the wipe, the reads, the checks, the loading, and the boot pointer that a fallback leaves due. -/
def Obligations.StartSequence : Prop :=
  ∀ s : State, 
    (s.start.phase = .rising → exec .powerGood s = .next (s.modStart fun x => { x with phase := .rom })) ∧
    (s.start.phase = .rom → scanHolds s.sec.tapInstr = false →
      let u := s.startFirmware.modStart fun x => { x with phase := .romDone }
      exec .romSelfTestComplete s = .next (if u.start.recovery = true ∧ u.power.rstHeld = [] then u.releaseMain else u)) ∧
    (s.start.phase = .romDone → s.power.rstHeld = [] → exec .mainSideRelease s = .next s.releaseMain) ∧
    (s.start.phase = .wiping →
      let c : CohSt := { s.coh with wiping := false, poisoned := [], failed := [], macFailed := [], stale := false, fresh := [] }
      let u : State := { s with mem := [], coh := c }
      exec .wipeComplete s = .next ((u.modSec fun x => { x with wipePending := false }).keyInForce.modStart fun x =>
        { x with phase := .reading, readOff := 0, readFails := 0, badReads := [] })) ∧
    (∀ o : Word32, exec (.flashReadComplete o true) s = .next (s.modStart fun x => { x with readOff := o.toNat, readFails := 0 })) ∧
    (∀ o : Word32, let n := (if s.start.readOff = o.toNat then s.start.readFails else 0) + 1
      let u := s.modStart fun x => { x with readOff := o.toNat, readFails := n }
      exec (.flashReadComplete o false) s = .next (if n < 3 then u else u.readFailed o.toNat)) ∧
    (s.start.phase = .reading → exec .slotReadComplete s = .next (match s.check10 false s.start.slot none with
      | .ok b => s.modStart fun x => { x with phase := .checked10, plain := b }
      | .error f => s.slotFails f)) ∧
    (s.start.phase = .checked10 → exec .semanticChecksComplete s = .next (match s.check13 s.start.plain with
      | none => s.modStart fun x => { x with phase := .checked13 }
      | some f => s.drawn.slotFails f)) ∧
    (s.start.phase = .checked13 → exec .sectionsLoaded s = .next
      ((s.loadImage (Img.of s.start.plain)).modStart fun x => { x with phase := .loaded })) ∧
    (s.start.phase = .loaded →
      let u := s.showAdmission s.admission
      let need := max 5000 (Img.of s.start.plain).maxLat
      exec .admissionCheckComplete s = .next (if u.get Fd.FRM_PHASE_OFS.GUARD_NS < need then u.slotFails (0x0F, min need 1048575)
        else if s.admission.passes then u.slotPasses else u.slotFails (0x0E, s.admission.detail))) ∧
    (∀ slot, s.start.bpWrite = some slot → exec .bootPointerWrite s = .next (s.writeBootPtr slot))

/-- R51, R71-R74: Heartwood writes a boot pointer into the copy that is not in use, with the next sequence number, and leaves the other as it
was. A staging that passes writes the boot pointer and reports 0; a failed one reports its cause. -/
def Obligations.BootPointerAndStaging : Prop :=
  (∀ (s : State) (c q l slot : Nat), s.start.bpCopy = some c → c < 2 → s.bootPtr c = some (q, l) → q + 1 < 2 ^ 32 → slot < 2 →
    s.start.badReads = [] → (s.writeBootPtr slot).bootPtr (1 - c) = some (q + 1, slot) ∧ (s.writeBootPtr slot).bootPtr c = some (q, l) ∧
      (s.writeBootPtr slot).start.bpCopy = some (1 - c)) ∧
  (∀ (s : State) (g : Staging), s.start.staging = some g →
    let u := (s.flashPut (s.slotBase g.slot) g.image).set Fd.CFG_STAGE.BUSY 0
    let v := u.modStart fun x => { x with staging := none }
    let id := imgId (v.storedImage g.slot)
    let fail := match u.check10 true g.slot u.start.badReads.getLast? with
      | .error f => some f
      | .ok b => check12 b
    exec .stagingComplete s = .next (match fail with
      | none => ((((v.audit 0x0006 0 id).set Fd.CFG_STAGE.RESULT 0).writeBootPtr g.slot).set Fd.CFG_STAGE.PENDING 1).mbxEnd g.mailbox 0 0 0
      | some (c, d) => ((v.audit 0x0006 c id).set Fd.CFG_STAGE.RESULT c).mbxEnd g.mailbox (if c = 1 then 0x08 else 0x09) (if c = 1 then d else c) 0))

/-- R66, R68, R69: a slot that fails records its cause and detail; the other slot is tried from step 1 if it has not been, else the
device enters Safe Hold. -/
def Obligations.SlotFallback : Prop :=
  ∀ (s : State) (c d : Nat), c < 256 → d < 2 ^ 24 → s.start.slot < 2 →
    ((1 - s.start.slot) ∉ s.start.tried → let t := s.slotFails (c, d)
      t.start.phase = .reading ∧ t.start.slot = 1 - s.start.slot ∧ t.mem = [] ∧ t.groves = [] ∧
      (s.start.slot = 0 → t.get Fd.CFG_CAUSE.CAUSE_A = c ∧ t.get Fd.CFG_CAUSE.DETAIL_A = d) ∧
      (s.start.slot = 1 → t.get Fd.CFG_CAUSE.CAUSE_B = c ∧ t.get Fd.CFG_CAUSE.DETAIL_B = d)) ∧
    ((1 - s.start.slot) ∈ s.start.tried → ∃ u : State, s.slotFails (c, d) = u.safeHold ∧ u.mem = [] ∧ u.groves = [] ∧
      (s.start.slot = 0 → u.get Fd.CFG_CAUSE.CAUSE_A = c ∧ u.get Fd.CFG_CAUSE.DETAIL_A = d) ∧
      (s.start.slot = 1 → u.get Fd.CFG_CAUSE.CAUSE_B = c ∧ u.get Fd.CFG_CAUSE.DETAIL_B = d))

/-- R50: of two valid copies of the boot pointer the one of the higher SEQ is used, copy 0 on a tie; a single valid copy is used; with none,
slot A is tried first, then slot B, and BP_INVALID is set. -/
def Obligations.BootPointerInUse : Prop :=
  (∀ (s : State) (q0 l0 q1 l1 : Nat), s.bootPtr 0 = some (q0, l0) → s.bootPtr 1 = some (q1, l1) →
    s.readBootPtr.start.bpCopy = some (if q0 < q1 then 1 else 0) ∧ s.readBootPtr.start.slot = (if q0 < q1 then l1 else l0)) ∧
  (∀ (s : State) (q l : Nat), s.bootPtr 0 = some (q, l) → s.bootPtr 1 = none →
    s.readBootPtr.start.bpCopy = some 0 ∧ s.readBootPtr.start.slot = l) ∧
  (∀ (s : State) (q l : Nat), s.bootPtr 0 = none → s.bootPtr 1 = some (q, l) →
    s.readBootPtr.start.bpCopy = some 1 ∧ s.readBootPtr.start.slot = l) ∧
  (∀ s : State, s.bootPtr 0 = none → s.bootPtr 1 = none →
    s.readBootPtr.start.slot = 0 ∧ s.readBootPtr.get Fd.CFG_STAT.BP_INVALID = 1 ∧ s.readBootPtr.start.bpCopy = none ∧
      (1 ∉ s.start.tried → ∀ f, (s.readBootPtr.slotFails f).start.slot = 1 ∧ (s.readBootPtr.slotFails f).start.phase = .reading)) ∧
  (∀ s : State, s.start.phase = .romDone → s.power.rstHeld = [] → s.start.recovery = false →
    ∃ u : State, exec .mainSideRelease s = .next u.readBootPtr ∧ u.flash = s.flash)

/-- R279-R282, R288, R291, R293, R301: what each grove command does once it is taken.
R279, R281, R282, R512: a command that is not taken changes nothing but RESULT and DETAIL: 9 in Safe Hold, 1 while another runs, 2 in a
state that its row does not allow; from a core below E level, or in the power-fail sequence, nothing at all. RESET and
DESTROY run although another command does, which they abandon. -/
def Obligations.GroveCommands : Prop :=
  (∀ (r : Requester) (g : GroveId) (s : State),
    (GroveCmdTaken s r opStart g.val 0 → exec (.start r g) s = .next ((begun s opStart g.val 0 0).modGrv g.val fun x => { x with ask := .start })) ∧
    (GroveCmdTaken s r opThaw g.val 0 → exec (.thaw r g) s = .next ((begun s opThaw g.val 0 0).modGrv g.val fun x => { x with ask := .thaw })) ∧
    (GroveCmdTaken s r opPromote g.val 0 →
      exec (.promote r g) s = .next ((begun s opPromote g.val 0 0).modGrv g.val fun x => { x with ask := .promote })) ∧
    (GroveCmdTaken s r opReset g.val 0 → exec (.reset r g) s = .next ((begun s opReset g.val 0 0).drain g.val false)) ∧
    (GroveCmdTaken s r opDestroy g.val 0 → exec (.destroy r g) s = .next ((begun s opDestroy g.val 0 0).drain g.val true)) ∧
    (∀ arg : Bool, let a := if arg then 1 else 0
      GroveCmdTaken s r opFreeze g.val a → exec (.freeze r g arg) s = .next ((begun s opFreeze g.val a 0).modGrv g.val fun x =>
        { x with freezeArg := some a, freezeFrame := if x.cTime.isNone then s.frameNo else s.frameNo + 1 })) ∧
    (GroveCmdTaken s r opSave g.val 0 → let a := s.get Fd.GRV_CMD_ADDR.ADDR * 64
      s.cmdAddrOk r g.val a (s.fullBytes g.val) = true →
      (∀ m, m ∈ (s.grv g.val).cfg.memory → overlaps a (s.fullBytes g.val) m.1 (m.2 - m.1) = false) →
      exec (.save r g false) s = .next (begun s opSave g.val 0 a)) ∧
    (GroveCmdTaken s r opSave g.val 1 → s.get (Fd.GRV_STAT.PARTNER_LOST g.val) = 0 →
      exec (.save r g true) s = .next (begun s opSave g.val 1 (s.get Fd.GRV_CMD_ADDR.ADDR * 64))) ∧
    (GroveCmdTaken s r opRestore g.val 0 → let a := s.get Fd.GRV_CMD_ADDR.ADDR * 64
      s.cmdAddrOk r g.val a (s.fullBytes g.val) = true →
      (∀ b u, s.unitRead a (s.fullBytes g.val) false = (some b, u) →
        exec (.restore r g) s = .next (match u.imgFail g.val true b with
          | none => reported ((u.loadFull g.val b).set (Fd.GRV_STAT.STATE g.val) stFrozen) 0 0
          | some k => reported u 7 k)) ∧
      (∀ u, s.unitRead a (s.fullBytes g.val) false = (none, u) →
        exec (.restore r g) s = .next (reported u 7 1) ∨ exec (.restore r g) s = .next (reported u 7 2))) ∧
    (GroveCmdTaken s r opSwitch g.val 0 → s.get (Fd.GRV_STAT.PARTNER_LOST g.val) = 0 → (s.grv g.val).acked = true →
      exec (.switch r g) s = .next ((begun s opSwitch g.val 0 0).modGrv g.val fun x => { x with handover := true })) ∧
    (GroveCmdTaken s r opCreate g.val 0 → let n := s.readNew (s.get Fd.GRV_CMD_ADDR.ADDR * 64)
      s.cmdAddrOk r g.val (s.get Fd.GRV_CMD_ADDR.ADDR * 64) (512 + 64 * n.tasks.length + 32 * n.strands.length) = true →
      n.failed = none → s.poolFail n.cfg = none → s.createFail g.val n = none → (s.install g.val n).admission.passes = true →
      exec (.create r g) s = .next (reported (s.install g.val n).showFree 0 0))) ∧
  (∀ (r : Requester) (g : GroveId) (s : State) (arg : Bool), 
    (∀ c, c ∈ [(Instr.create r g, opCreate, 0), (.start r g, opStart, 0), (.freeze r g arg, opFreeze, b2n arg), (.thaw r g, opThaw, 0),
        (.save r g arg, opSave, b2n arg), (.restore r g, opRestore, 0), (.switch r g, opSwitch, 0), (.promote r g, opPromote, 0)] →
      (s.isE r = false ∨ s.get Fd.PWR_STAT.PFW ≠ 0 → exec c.1 s = .next s) ∧
      (s.isE r = true → s.get Fd.PWR_STAT.PFW = 0 →
        (s.get Fd.CFG_STAT.SAFE_HOLD ≠ 0 → exec c.1 s = .next (reported s 9 0)) ∧
        (s.get Fd.CFG_STAT.SAFE_HOLD = 0 → s.get Fd.GRV_CMD_STAT.BUSY ≠ 0 → exec c.1 s = .next (reported s 1 0)) ∧
        (s.get Fd.CFG_STAT.SAFE_HOLD = 0 → s.get Fd.GRV_CMD_STAT.BUSY = 0 → s.cmdAllowed c.2.1 g.val c.2.2 = false →
          exec c.1 s = .next (reported s 2 (s.gstate g.val))))) ∧
    ∀ c, c ∈ [(Instr.reset r g, opReset, false), (.destroy r g, opDestroy, true)] →
      (s.isE r = false ∨ s.get Fd.PWR_STAT.PFW ≠ 0 → exec c.1 s = .next s) ∧
      (s.isE r = true → s.get Fd.PWR_STAT.PFW = 0 →
        (s.get Fd.CFG_STAT.SAFE_HOLD ≠ 0 → exec c.1 s = .next (reported s 9 0)) ∧
        (s.get Fd.CFG_STAT.SAFE_HOLD = 0 → s.cmdAllowed c.2.1 g.val 0 = false → exec c.1 s = .next (reported s 2 (s.gstate g.val))) ∧
        (s.get Fd.CFG_STAT.SAFE_HOLD = 0 → s.cmdAllowed c.2.1 g.val 0 = true → s.get Fd.GRV_CMD_STAT.BUSY ≠ 0 →
          exec c.1 s = .next ((begun (s.abandon c.2.1) c.2.1 g.val 0 0).drain g.val c.2.2))))

/-- R284, R287, R289-R293, R296, R299: the ends of draining, clearing, freezing, saving and applying, the loss of a partner, and a write of a
firewall entry, whose old value may still be used until it is fenced. -/
def Obligations.GroveEvents : Prop :=
  ∀ (g : GroveId) (s : State),
    (s.gstate g.val = stDraining → exec (.drainComplete g) s = .next (
      if ∀ c, c ∈ bitsSet 64 (s.grv g.val).cfg.cores → (s.core c).far = none ∧ (s.core c).sb = []
      then (s.set (Fd.GRV_STAT.STATE g.val) stClearing).cmdOk g.val [opReset, opDestroy] else s)) ∧
    (s.gstate g.val = stClearing → (s.grv g.val).destroying = false → (s.grv g.val).cfg.irqFirst + (s.grv g.val).cfg.irqCount ≤ 4096 →
      (s.grv? g.val).isSome = true →
      Answers (.clearingComplete g) s fun t => t.gstate g.val = stHeld ∧ t.failsafe g.val = true ∧ t.get (Fd.FRM_GRV_STAT.CONSEC g.val) = 0 ∧
        t.reg (Rg.GRV_TRACK_LOST_CNT g.val) = 0 ∧ t.get (Fd.GRV_STAT.TAKEN g.val) = 0) ∧
    (s.gstate g.val = stClearing → (s.grv g.val).destroying = true → Answers (.clearingComplete g) s fun t => t.grv? g.val = none) ∧
    ((s.grv g.val).freezing = true → s.dmaQuiet g.val = true → s.get (Fd.CAS_MQ_STAT.OPEN g.val) = 0 →
      let x := s.grv g.val
      let u := (bitsSet 64 x.cfg.cores).foldl (fun s c => s.saveCtx c true) s
      let v := (u.set (Fd.GRV_STAT.STATE g.val) stFrozen).modGrv g.val fun y => { y with freezing := false, freezeArg := none }
      exec (.freezeComplete g) s = .next ((v.set (Fd.GRV_STAT.FROZEN_FS g.val) (if x.freezeArg = some 1 then 1 else 0)).cmdOk g.val [opFreeze])) ∧
    (∀ (arg a : Nat) (fail : Fin 6), s.gcmd = some { op := opSave, grove := g.val, arg := arg, addr := a } →
      let ended (u : State) : State := { u.set Fd.GRV_CMD_STAT.BUSY 0 with gcmd := none }
      let u := s.wakeImage g.val
      (fail = 5 ∨ s.imgUnreadable g.val = true → exec (.saveComplete g fail) s = .next (reported (ended u) 7 5)) ∧
      (fail ≠ 5 → s.imgUnreadable g.val = false → arg = 0 →
        exec (.saveComplete g fail) s = .next (reported (ended (u.imgWrite a (u.fullImage g.val))) 0 0)) ∧
      (fail ≠ 5 → s.imgUnreadable g.val = false → arg = 1 →
        let v := u.xferSend g.val 3 (4 * u.get (Fd.GRV_STAT.TAKEN g.val)) (some (u.fullImage g.val))
        exec (.saveComplete g fail) s = .next (if fail = 1 ∨ fail = 2 ∨ fail = 4 then reported (ended v) 7 fail.val else reported (ended v) 0 0))) ∧
    ((s.grv g.val).xApply = true → let u := s.modGrv g.val fun x => { x with xApply := false }
      exec (.trackingApplyComplete g) s = .next (if u.get (Fd.GRV_STAT.MISMATCH g.val) = 0 then u.set (Fd.GRV_STAT.SYNCED g.val) 1 else u)) ∧
    (3 ≤ (s.grv g.val).acksMissed → s.get (Fd.GRV_STAT.PARTNER_LOST g.val) = 0 → let u := s.set (Fd.GRV_STAT.PARTNER_LOST g.val) 1
      exec (.partnerLost g) s = .next (u.pulse (u.get Fd.GRV_IRQ_SRC.PAIR_BASE + g.val))) ∧
    (∀ (r : Requester) (i : Fin 32) (v : Word), let w := setBits (v.toNat % 2 ^ 64) 11 4 0
      (s.isE r = true → s.gstate g.val ≠ stAbsent → fwWordOk w = true →
        let u := s.modGrv g.val fun x => { x with fwPending := (i.val, BitVec.ofNat 64 (s.reg (Rg.GRV_FW g.val i.val)), s.coh.fwSeq) :: x.fwPending }
        exec (.firewallEntryWrite r g i v) s = .next
          ((u.modCoh fun c => { c with fwSeq := c.fwSeq + 1 }).setReg (Rg.GRV_FW g.val i.val) w)) ∧
      (s.isE r = false → exec (.firewallEntryWrite r g i v) s = .next s)) ∧
    (∀ c : List Byte, s.msgExpired c = true → exec (.xfer c) s = .next (s.inc Fd.CAS_MSG_EXPIRED_CNT.COUNT)) ∧
    (∀ c : List Byte, s.msgExpired c = false → mDgrove (cellField c) = g.val → s.fromPartner g.val c = true → s.xferCurrent c = true →
      s.gstate g.val = stStandby → fieldB (sliceB c 16 48) 0 1 = 1 →
      exec (.xfer c) s = .next (s.xferFrame g.val (fieldB (sliceB c 16 48) 4 4) ((sliceB c 16 48).drop 8))) ∧
    (∀ (off : Nat) (body : List Byte), let f := (s.xferBegin g.val).frameBytes g.val
      40 * off < f → s.xferFrame g.val off body =
        ((s.xferBegin g.val).imgWrite (((s.xferBegin g.val).grv g.val).cfg.xbufBase +
          (s.xferBegin g.val).tickIndex (s.xferBegin g.val).now % 2 * f + 40 * off)
          (body.take (min 40 (f - 40 * off)))).modGrv g.val fun x => { x with xBytes := if x.xBytes.contains off then x.xBytes else off :: x.xBytes })

/-- R284, R285, R27, R28: an access of a grove passes its firewall only if every byte lies in an entry that is valid and grants the access. -/
def Obligations.FirewallAdmits : Prop :=
  ∀ (s : State) (g : Nat) (k : FwKind) (a n : Nat), 0 < n → s.fwPass g k a n = true →
    ∀ i, i < n → ∃ e, e ∈ (List.range 32).map (s.fwEntry g) ∧ bitOf e 0 = true ∧
      (k = .read → bitOf e 1 = true) ∧ (k = .write → bitOf e 2 = true) ∧ (k = .fetch → bitOf e 3 = true) ∧
      bits e 39 12 * 4096 ≤ a + i ∧ a + i < (bits e 39 12 + bits e 63 40) * 4096

/-- R321, R323-R328, R356, R369: a load whose checks pass and whose bytes can be had writes rd and retires; a store enters the store buffer and
retires; the oldest store drains to its line; the oldest miss fills. A load or store whose check fails takes its exception.
R305, R387-R389: an atomic in L1: LR reserves its line, SC stores and gives 0 while the reservation holds and 1 otherwise, an AMO
stores its operation and gives the old value. -/
def Obligations.LoadsStoresAndAtomics : Prop :=
  ((∀ (c : CoreId) (insn : Word32) (f : MemFault) (s u v w : State) (i : Insn) (ps : List (Phys × Nat)) (bs : List Byte)
      (evs' : List Nat), Fetches s c insn .load i u →
    u.checkAll c .load (addOfs (u.x c.val (rvRs1 i.word)) (immI i.word)) (2 ^ (rvF3 i.word % 4)) = (.ok ps, v) →
    v.loadBytes c f ps = (.ok bs evs', w) →
    let x := loadValue (rvOp i.word) (rvF3 i.word) (leNat bs)
    let own := 0x05 :: onceEach evs' ++ (if (w.core c.val).partialWait then [0x0C] else []) ++ (if 1 < ps.length then [0x0D] else []) ++
      (w.core c.val).replayed
    let y := w.modCore c.val fun k => { k with prefetch := ps.foldl (fun t e => Config.prefetchTrain t (e.1.pa / 64)) k.prefetch }
    let z := if rvOp i.word = 0x07 then y.setFr c.val (rvRd i.word) x else y.setX c.val (rvRd i.word) x
    exec (.load c insn ⟨f, none⟩) s = .next ((z.retire c.val i.len).events c.val (w.level c.val) own).settle) ∧
  (∀ (c : CoreId) (insn : Word32) (s u v : State) (i : Insn) (ps : List (Phys × Nat)), Fetches s c insn .store i u →
    u.checkAll c .store (addOfs (u.x c.val (rvRs1 i.word)) (immS i.word)) (2 ^ (rvF3 i.word % 4)) = (.ok ps, v) →
    let es := storeEntries ps (if rvOp i.word = 0x27 then u.fr c.val (rvRs2 i.word) else u.x c.val (rvRs2 i.word))
    (v.core c.val).sb.length + es.length ≤ 48 → (∀ e, e ∈ es → e.dev = false) →
    let miss := (ps.filter fun e => !e.1.nc).flatMap fun e => v.missEvents c.val (e.1.pa / 64) false
    exec (.store c insn) s = .next (((((v.replayOver c.val ps).modCore c.val fun k => { k with sb := k.sb ++ es }).retire c.val i.len)).events c.val
      (v.level c.val) (0x06 :: onceEach miss ++ (if 1 < ps.length then [0x0D] else []))).settle) ∧
  (∀ (c : CoreId) (insn : Word32) (f : MemFault) (s u v : State) (i : Insn) (code synd tval : Nat),
    (Fetches s c insn .load i u → u.checkAll c .load (addOfs (u.x c.val (rvRs1 i.word)) (immI i.word)) (2 ^ (rvF3 i.word % 4)) =
        (.trap code synd tval, v) → exec (.load c insn ⟨f, none⟩) s = .next (excepted s v c code synd tval)) ∧
    (Fetches s c insn .store i u → u.checkAll c .store (addOfs (u.x c.val (rvRs1 i.word)) (immS i.word)) (2 ^ (rvF3 i.word % 4)) =
        (.trap code synd tval, v) → exec (.store c insn) s = .next (excepted s v c code synd tval))) ∧
  (∀ (c : CoreId) (insn : Word32) (f : MemFault) (a : EarlyAccess) (s : State), ∃ t, exec (.load c insn ⟨f, some a⟩) s = .next t ∧ t.mem = s.mem ∧
    t.regs = s.regs ∧ (t.core c.val).ctx = (s.core c.val).ctx ∧ (t.core c.val).sb = (s.core c.val).sb) ∧
  (∀ (c : CoreId) (f : MemFault) (s v : State) (e : StoreEntry) (rest : List StoreEntry), (s.core c.val).sb = e :: rest → e.dev = false →
    e.nc = false → s.obtain c.val (e.addr / 64) e.rt true = (true, v) →
    let u := (v.rtTouch (e.addr / 64) e.rt).memFault (some c.val) e.addr f
    u.fails (e.addr / 64) = false → exec (.storeDrain c f) s = .next
      (((u.takeLine c.val (e.addr / 64) e.rt .m).wr e.addr e.size e.v.toNat).modCore c.val fun k => { k with sb := k.sb.drop 1 })) ∧
  (∀ (c : CoreId) (f : MemFault) (s v : State) (m : Miss), (s.core c.val).misses.find? (s.canFill c.val) = some m →
    m.kind = .data ∨ m.kind = .fetch → s.obtain c.val m.line m.rt false = (true, v) →
    let w := v.missDone c m
    let u := if m.kind = .fetch then (w.rtTouch m.line m.rt).memFault (some c.val) (64 * m.line) f else w
    u.fails m.line = false → exec (.loadMissFill c f) s = .next (u.shareLine c.val m.line m.rt (m.kind == .fetch))) ∧
  (∀ (c : CoreId) (f : MemFault) (s : State) (m : Miss), (s.core c.val).misses.find? (s.canFill c.val) = some m → m.kind = .spec →
    exec (.loadMissFill c f) s = .next
      ((s.missDone c m).modCore c.val fun k => { k with shadow := m.line :: k.shadow.filter (· != m.line) }))) ∧
  (∀ (c : CoreId) (insn : Word32) (s u v y : State) (i : Insn) (p : Phys) (m : Nat),
    let n := if rvF3 i.word = 2 then 4 else 8
    let va := u.x c.val (rvRs1 i.word)
    let line := p.pa / 64
    let free := v.sbOver c.val p.pa n = [] ∧ (bitOf i.word 25 = true → (v.core c.val).sb = [])
    let lv := v.level c.val
    (∀ f, Fetches s c insn .lr i u → u.checkAll c .lr va n = (.ok [(p, m)], v) → free → v.obtain c.val line p.rt true = (true, y) →
      let w := (y.rtTouch line p.rt).memFault (some c.val) p.pa f
      w.fails line = false →
      let x := (w.takeLine c.val line p.rt .e).modCore c.val fun k => { k with rsv := some line }
      exec (.lr c insn f) s = .next (((x.setX c.val (rvRd i.word) (amoValue n (w.rd p.pa n))).retire c.val i.len).events c.val
        lv (0x05 :: v.missEvents c.val line false)).settle) ∧
    (Fetches s c insn .sc i u → u.checkAll c .sc va n = (.ok [(p, m)], v) → free →
      ((v.core c.val).rsv = some line → v.obtain c.val line p.rt true = (true, y) →
        let w := ((y.takeLine c.val line p.rt .m).wr p.pa n (y.x c.val (rvRs2 i.word))).replayOver c.val [(p, n)]
        let x := w.modCore c.val fun k => { k with rsv := none }
        exec (.sc c insn) s = .next (((x.setX c.val (rvRd i.word) 0).retire c.val i.len).events c.val lv [0x06]).settle) ∧
      ((v.core c.val).rsv ≠ some line →
        let x := v.modCore c.val fun k => { k with rsv := none }
        exec (.sc c insn) s = .next (((x.setX c.val (rvRd i.word) 1).retire c.val i.len).events c.val lv [0x06]).settle)) ∧
    (∀ f, Fetches s c insn .amo i u → u.checkAll c .amo va n = (.ok [(p, m)], v) → free →
      (v.contend c.val p.pa < 2 → v.obtain c.val line p.rt true = (true, y) →
        let w := (y.rtTouch line p.rt).memFault (some c.val) p.pa f
        w.fails line = false →
        let x := (w.takeLine c.val line p.rt .m).replayOver c.val [(p, n)]
        let x := if v.ownsLine c.val line then x.contendStep c.val p.pa false
          else if v.othersHold c.val line then x.contendStep c.val p.pa true else x
        let z := x.wr p.pa n (amoOp (rvRs3 i.word) n (x.rd p.pa n) (x.x c.val (rvRs2 i.word)))
        exec (.atomic c insn f) s = .next (((z.setX c.val (rvRd i.word) (amoValue n (x.rd p.pa n))).retire c.val i.len).events c.val
          (x.level c.val) (v.missEvents c.val line false)).settle) ∧
      (2 ≤ v.contend c.val p.pa → exec (.atomic c insn f) s = .next (v.modCore c.val fun k => { k with
        far := some { insn := i.word, v := v.x c.val (rvRs2 i.word), addr := p.pa, rt := p.rt, va := v.x c.val (rvRs1 i.word), len := i.len } }))))

/-- R331, R345, R348, R349, R352, R357, R366: the calls and breakpoints trap with their codes; returns leave their level; a context switch
saves and loads; CSR instructions give the old value and write the new one; what has no meaning is an illegal instruction.
The RISC-V instructions themselves are presumed of its specification (log 33).
R287, R307, R309-R312, R365, R380: fences retire once the older stores have drained; FRAME.WAIT ends a task's work or stops fetch;
REGION.INV drops the entries of its range; FENCE.GROVE waits for the firewall writes accepted before it; LOOP.SET sets the loop. -/
def Obligations.SystemInstructions : Prop :=
  (∀ (c : CoreId) (insn : Word32) (s u : State) (i : Insn),
    (Fetches s c insn .ecall i u → exec (.ecall c insn) s = .next (excepted s u c (match u.level c.val with
      | .u => 0x08
      | .s => 0x09
      | .e => 0x0B) 0 0)) ∧
    (Fetches s c insn .ebreak i u → exec (.ebreak c insn) s = .next (excepted s u c 0x03 0 (u.pc c.val))) ∧
    (Fetches s c insn .sRet i u → u.csrOk c.val (rvCsr i.word) true = true →
      exec (.sRet c insn) s = .next (((u.setX c.val (rvRd i.word) 0).counted c.val).trapReturn c.val .s).settle) ∧
    (Fetches s c insn .eRet i u → u.csrOk c.val (rvCsr i.word) true = true →
      exec (.eRet c insn) s = .next (((u.setX c.val (rvRd i.word) 0).counted c.val).trapReturn c.val .e).settle) ∧
    (Fetches s c insn .ctxSwitch i u → u.csrOk c.val (rvCsr i.word) true = true →
      let v := u.csrValue c.val i.word 0
      ((u.core c.val).ctxId = some (v % 2 ^ 14) →
        exec (.ctxSwitch c insn) s = .next ((u.setX c.val (rvRd i.word) 0).retire c.val i.len).settle) ∧
      ((u.core c.val).ctxId ≠ some (v % 2 ^ 14) → u.switchRefused c.val (v % 2 ^ 14) = none → exec (.ctxSwitch c insn) s = .next
        ((((u.setX c.val (rvRd i.word) 0).retire c.val i.len).saveCtx c.val false).loadCtx c.val (v % 2 ^ 14) (u.isolated c.val)).settle) ∧
      (∀ synd, (u.core c.val).ctxId ≠ some (v % 2 ^ 14) → u.switchRefused c.val (v % 2 ^ 14) = some synd → exec (.ctxSwitch c insn) s = .next (excepted s u c 0x10 synd v))) ∧
    (∀ x w, u.csrRead c.val (rvCsr i.word) = (x, w) → u.csrOk c.val (rvCsr i.word) (csrWrites i.word) = true → csrWrites i.word = true →
      let v := w.csrValue c.val i.word x
      let y := w.setX c.val (rvRd i.word) x
      let z := if csrAfter (rvCsr i.word) then (y.retire c.val i.len).csrWrite c.val (rvCsr i.word) v
        else (y.csrWrite c.val (rvCsr i.word) v).retire c.val i.len
      let t := if csrRegion (rvCsr i.word) then z.modCore c.val (·.squash) else z
      (Fetches s c insn .region i u → exec (.regionRegisterWrite c insn) s = .next t.settle) ∧
      (Fetches s c insn .predFlush i u → exec (.predFlush c insn) s = .next t.settle) ∧
      (Fetches s c insn .other i u → rvOp i.word = 0x73 → rvF3 i.word % 4 ≠ 0 →
        exec (.otherInstruction c insn) s = .next t.settle)) ∧
    (Fetches s c insn .other i u → rvOp i.word = 0x73 → rvF3 i.word % 4 ≠ 0 →
      u.csrOk c.val (rvCsr i.word) (csrWrites i.word) = false →
      exec (.otherInstruction c insn) s = .next (excepted s u c 0x02 0 i.raw))) ∧
  ((∀ (c : CoreId) (insn : Word32) (s u : State) (i : Insn),
    (Fetches s c insn .fence i u → fenceWaits i.word = false ∨ (u.core c.val).sb = [] →
      exec (.fence c insn) s = .next (u.retire c.val i.len).settle) ∧
    (Fetches s c insn .fenceI i u → (u.core c.val).sb = [] →
      exec (.fenceI c insn) s = .next ((u.retire c.val i.len).modCore c.val (·.squash)).settle) ∧
    (Fetches s c insn .frameWait i u → (u.core c.val).sb = [] →
      ((u.core c.val).task.isSome = true → exec (.frameWait c insn) s = .next (u.taskWait c.val (rvRd i.word)).settle) ∧
      ((u.core c.val).task = none →
        exec (.frameWait c insn) s = .next
          (((u.pmcSync c.val).modCore c.val fun k => { k with fwait := some (rvRd i.word) }).condEdge c.val 0x24).settle)) ∧
    (Fetches s c insn .regionInv i u → u.level c.val ≠ .u → (u.core c.val).sb = [] →
      let lo := u.x c.val (rvRs1 i.word) % 2 ^ 48
      let n := u.x c.val (rvRs2 i.word)
      exec (.regionInv c insn) s = .next ((u.retire c.val i.len).modCore c.val fun k => { k with
        rlb := if n = 0 then [] else k.rlb.filter fun e => !(e.vbase < lo + n && lo < e.vbase + 4096 * e.pages) }).settle) ∧
    (Fetches s c insn .fenceGrove i u → u.level c.val = .e →
      exec (.fenceGrove c insn) s = .next (u.modCore c.val fun k => { k with fence := some u.coh.fwSeq })) ∧
    (Fetches s c insn .loopSet i u →
      let a := u.pc c.val
      let n := u.x c.val (rvRs1 i.word) % 2 ^ 32
      let exit := (a + 4 + 2 * bits i.word 31 20) % 2 ^ 64
      let v := (((u.setCsr c.val csrLoopStart ((a + 4) % 2 ^ 64)).setCsr c.val csrLoopExit exit).setCsr c.val csrLoopCount n).setCsr c.val csrLoopCfg
        (setBits (u.csr c.val csrLoopCfg) 0 0 (if n = 0 then 0 else 1))
      exec (.loopSet c insn) s = .next (v.retireTo c.val (if n = 0 then exit else (a + 4) % 2 ^ 64)).settle)) ∧
  (∀ (c : CoreId) (s : State) (n : Nat), (s.core c.val).fence = some n → s.runs c.val = true →
    (∀ g, g ∈ s.groveList → (∀ e, e ∈ (s.grv g).fwPending → n ≤ e.2.2) ∨ s.oldAdmitted g = false) →
    let u := s.groveList.foldl (fun v g => v.modGrv g fun x => { x with fwPending := x.fwPending.filter fun e => n ≤ e.2.2 }) s
    exec (.fenceGroveComplete c) s = .next ((u.modCore c.val fun k => { k with fence := none }).retire c.val 4).settle))

/-- R303, R304, R331: integer results, branches and jumps, floating-point results (presumed of RISC-V, log 33). -/
def Obligations.OrdinaryInstructions : Prop :=
  ∀ (c : CoreId) (insn : Word32) (s u : State) (i : Insn), Fetches s c insn .other i u →
    let w := i.word
    let a := u.x c.val (rvRs1 w)
    let b := u.x c.val (rvRs2 w)
    let next := (u.pc c.val + i.len) % 2 ^ 64
    let writes (v : Nat) : Prop := exec (.otherInstruction c insn) s = .next
      (((u.setX c.val (rvRd w) v).retire c.val i.len).events c.val (u.level c.val) (if longOp w then [0x12] else [])).settle
    (rvOp w = 0x37 → writes (ofInt 64 (immU w))) ∧
    (rvOp w = 0x17 → writes (addOfs (u.pc c.val) (immU w))) ∧
    (rvOp w = 0x13 → ∀ v, aluImm w (rvF3 w) a = some v → writes v) ∧
    (rvOp w = 0x1B → ∀ v, aluImmW w (rvF3 w) a = some v → writes v) ∧
    (rvOp w = 0x33 → ∀ v, aluReg (rvF7 w) (rvF3 w) a b = some v → writes v) ∧
    (rvOp w = 0x3B → ∀ v, aluRegW (rvF7 w) (rvF3 w) (rvRs2 w) a b = some v → writes v) ∧
    (rvOp w = 0x63 → ∀ t, brTaken (rvF3 w) a b = some t →
      exec (.otherInstruction c insn) s = .next (u.branch c.val i t (addOfs (u.pc c.val) (immB w))).settle) ∧
    (rvOp w = 0x6F → exec (.otherInstruction c insn) s = .next
      ((u.setX c.val (rvRd w) next).branch c.val i true (addOfs (u.pc c.val) (immJ w))).settle) ∧
    (rvOp w = 0x67 → rvF3 w = 0 → exec (.otherInstruction c insn) s = .next
      ((u.setX c.val (rvRd w) next).branch c.val i true (addOfs a (immI w) / 2 * 2)).settle) ∧
    (rvOp w = 0x53 → ∀ f r, fpOp w a (u.fr c.val (rvRs1 w)) (u.fr c.val (rvRs2 w)) (u.rounding c.val w) = some (.fp f r) →
      exec (.otherInstruction c insn) s = .next ((((u.setFr c.val (rvRd w) (nanBox f r.bits)).accrue c.val r.flags).retire c.val
        i.len).events c.val (u.level c.val) (if longOp w then [0x12] else [])).settle)

/-- R347-R350, R352: trap entry saves the PC, the cause, the value and the level it left, and goes to the handler with interrupts off; a
trap return restores level and interrupt enable. -/
def Obligations.TrapEntryAndReturn : Prop :=
  ∀ (s : State) (c cause tval target : Nat) (h : Level), h ≠ .u → cause < 2 ^ 64 → tval < 2 ^ 64 → target < 2 ^ 64 →
    (let t := s.trapEntry c h cause tval target
     t.csr c (hEpc h) = s.pc c ∧ t.csr c (hCause h) = cause ∧ t.csr c (hTval h) = tval ∧ t.pc c = target ∧ t.level c = h ∧
      bits (t.csr c (hStatus h)) 0 0 = 0 ∧ bits (t.csr c (hStatus h)) 1 1 = bits (s.csr c (hStatus h)) 0 0 ∧
      bits (t.csr c (hStatus h)) 3 2 = levelNo (s.level c) ∧ (t.core c).rsv = none ∧ (∀ r, t.x c r = s.x c r) ∧ t.mem = s.mem) ∧
    (let t := s.trapReturn c h
     t.pc c = s.csr c (hEpc h) ∧ t.level c = levelOf (bits (s.csr c (hStatus h)) 3 2) ∧
      bits (t.csr c (hStatus h)) 0 0 = bits (s.csr c (hStatus h)) 1 1 ∧ bits (t.csr c (hStatus h)) 1 1 = 1 ∧
      bits (t.csr c (hStatus h)) 3 2 = 0 ∧ (t.core c).rsv = none ∧ (∀ r, t.x c r = s.x c r) ∧ t.mem = s.mem)

/-- R319, R336, R348, R360, R361, R415: a running core takes the interrupt it is offered; a probe of a walk goes on from its line; a performance
counter of a condition event is brought up to now. -/
def Obligations.CoreEvents : Prop :=
  (∀ (c : CoreId) (s : State) (src : Nat), s.runs c.val = true → (s.core c.val).issued = false → (∀ e, e ∈ s.pci.reads → e.2.req ≠ c.val) →
    s.offerOf c.val = some src → exec (.interruptTaken c) s = .next ((s.endWait c.val).takeInterrupt c.val src).settle) ∧
  (∀ (s : State) (c src : Nat), s.compatSource src = false →
    s.takeInterrupt c src = ((s.accept c src).event c 0x15).trapEntry c (s.intLevel c) (2 ^ 63 + src * 2 ^ 16) 0 (s.vector (s.intLevel c) src)) ∧
  (∀ (s : State) (c src : Nat), s.accept c src = ((((s.set (Fd.IRQ_SRC_CFG.PENDING src) 0).set (Fd.IRQ_SRC_CFG.ACTIVE src) 1).set
    (Fd.IRQ_SRC_CFG.CORE src) c).set (Fd.IRQ_SRC_CFG.RR src) ((c + 1) % 64)).setStack c ((src, s.get (Fd.IRQ_SRC_CFG.PRIO src)) :: s.stack c)) ∧
  (∀ (c : CoreId) (f : MemFault) (s u : State) (w : Walk) (step : Nat) (line : List Byte), (s.core c.val).walk = some w →
    let lines := ceilDiv (s.csr c.val csrRotCnt) 2
    nextStep lines w.b 13 w.step = some step →
    let k := w.b + step - 1
    s.drawn.probeCheck c (s.csr c.val csrRotBase + 64 * k) f (bitOf s.free.toNat 0) = (.line line, u) →
    let w' : Walk := if fieldB line 0 8 ≤ w.va then { w with b := w.b + step, line := line, step := step / 2 } else { w with step := step / 2 }
    exec (.walkProbeResponse c f) s = .next (if (nextStep lines w'.b 13 w'.step).isSome then u.modCore c.val fun x => { x with walk := some w' }
      else u.walkEnd c.val w').settle) ∧
  (∀ (c : CoreId) (n : Fin 8) (s : State), (s.core c.val).pmcTimed n.val (levelNo (s.level c.val)) = true →
    exec (.pmcOverflow c n) s = .next (s.pmcSync c.val).settle)

/-- R30, R370, R382, R383: requests of clusters that need no snoop: a ReadShared gives E to a cluster that is alone and S beside others or for
a fetch, a ReadUnique and an Upgrade give M and leave no copy elsewhere, a ReadSpec goes to a shadow buffer; a line owned elsewhere serves no
ReadSpec.
R30, R383, R385, R386: a request for a line with an open transaction waits in arrival order; one for which the directory has no room is
retried, with a reservation for a real-time request at once. R382, R388: a request whose line others hold opens its transaction and
awaits their answers. At the limit of open transactions a requester is held. -/
def Obligations.HomeRequests : Prop :=
  ((∀ (s v : State) (addr : PAddr) (rt : Bool) (f : MemFault),
    let line := addr.toNat / 64
    (∀ (cl : Fin 4) (fetch : Bool), let q := clusterReq (.readShared fetch) cl.val line rt
      Sent s q v → v.dirRoom line rt none ≠ .full → v.snoopsFor q = 0 →
      let u := readBy (openedFor v q) q f
      u.fails line = false → exec (.readShared cl addr fetch rt f) s = .next (finishedFor v (u.shareL2 cl.val line rt fetch none) q)) ∧
    (∀ c : CoreId, let q := coreReq .readUnique c.val line rt
      Sent s q v → v.dirRoom line rt none ≠ .full → v.snoopsFor q = 0 →
      let u := readBy (openedFor v q) q f
      u.fails line = false → exec (.readUnique c addr rt f) s = .next (finishedFor v (u.grantOwn q (clusterOf c.val)) q)) ∧
    (∀ c : CoreId, let q := coreReq .upgrade c.val line rt
      Sent s q v → v.dirRoom line rt none ≠ .full → v.snoopsFor q = 0 →
      let u := openedFor v q
      (u.l2State (clusterOf c.val) line).isSome = true →
      exec (.upgrade c addr rt f) s = .next (finishedFor v (u.grantOwn q (clusterOf c.val)) q)) ∧
    (∀ c : CoreId, let q := coreReq .readSpec c.val line rt
      Sent s q v →
      (v.ownedElsewhere q = true → (∀ w, w ∈ v.coh.waiting → w.line ≠ line) → exec (.readSpec c addr rt f) s = .next v) ∧
      (v.ownedElsewhere q = false → v.dirRoom line rt none ≠ .full →
        let u := readBy (openedFor v q) q f
        u.fails line = false →
        let e := (mapGet? u.coh.dir line).getD ⟨false, 0, 0, 0⟩
        let w := u.dirPut line rt none e.unique (setBits e.presence (clusterOf c.val) (clusterOf c.val) 1)
        let m : Miss := { line := line, kind := .spec, rt := rt }
        exec (.readSpec c addr rt f) s = .next (finishedFor v (w.modCore c.val fun k => { k with
          misses := if k.misses.contains m then k.misses else k.misses ++ [m] }) q)))) ∧
  (∀ (s : State) (line cl : Nat) (rt fetch : Bool), cl < 4 → s.l2State cl line = none →
    (s.shareL2 cl line rt fetch none).l2State cl line = some (if s.otherHolders cl line = 0 ∧ fetch = false then .e else .s)) ∧
  (∀ (s : State) (c : CoreId) (line : Nat) (rt : Bool) (k : ReqKind),
    let t := s.grantOwn (coreReq k c.val line rt) (clusterOf c.val)
    t.l2State (clusterOf c.val) line = some .m ∧ (∀ cl, cl < 4 → cl ≠ clusterOf c.val → t.l2State cl line = none) ∧
      ∀ d, d < 64 → d ≠ c.val → t.l1dState d line = none ∧ (t.core d).l1i.contains line = false ∧ (t.core d).shadow.contains line = false ∧
        (t.core d).rsv ≠ some line)) ∧
  (∀ (s v : State) (cl : Fin 4) (c : CoreId) (addr : PAddr) (rt : Bool) (f : MemFault) (i : Instr) (q : HomeReq),
    let line := addr.toNat / 64
    (i, q) ∈ [(Instr.readShared cl addr true rt f, clusterReq (.readShared true) cl.val line rt),
        (.readShared cl addr false rt f, clusterReq (.readShared false) cl.val line rt),
        (.readUnique c addr rt f, coreReq .readUnique c.val line rt), (.upgrade c addr rt f, coreReq .upgrade c.val line rt)] →
    (s.transTake q.requester 1 = (false, v) → exec i s = .next v) ∧
    (s.transTake q.requester 1 = (true, v) → targetOf (64 * line) = .gddr → v.blocked line = true →
      exec i s = .next (v.modCoh fun x => { x with waiting := x.waiting ++ [q] })) ∧
    (Sent s q v → (∀ w, w ∈ v.coh.waiting → w.line ≠ line) → v.dirRoom line rt none = .full →
      exec i s = .next (v.modCoh fun x => { x with retry := x.retry ++ [{ q with retries := 1, reserved := rt }] })) ∧
    (Sent s q v → v.dirRoom line rt none ≠ .full → v.snoopsFor q ≠ 0 →
      let u := if mapGet? v.coh.dir line = none then v.dirPut line rt none false 0 else v
      exec i s = .next (u.setTx line (some { req := q, snoops := v.snoopsFor q, snooped := true, way := wayAt u line }))))

/-- R382-R384, R386: a write-back or an evict of a line that its L2 holds leaves it in L3 and clears its presence; an answered snoop clears
its bit and the last one lets the home do its work; the acknowledgement closes the transaction and serves the line's queue; a retried
request is presented again.
R388, R390, R391, R399: agents without a cache: a ReadCurrent answers the line's present bytes, an invalidating write takes the line from
every cache and stores its bytes; a far atomic is done at the home, which gives its core the old value. -/
def Obligations.TransactionSteps : Prop :=
  ((∀ (s v : State) (cl : Fin 4) (addr : PAddr), let line := addr.toNat / 64
    s.transTake (clusterReqNo cl.val) 1 = (true, v) → targetOf (64 * line) = .gddr → v.blocked line = false →
    (∀ w, w ∈ v.coh.waiting → w.line ≠ line) → s.wbPendingAt cl.val line = false →
    (s.l2State cl.val line = some .m →
      let u := (v.dropAt cl.val line).setWb cl.val line true
      let w := u.setTx line (some { req := clusterReq .writeBack cl.val line false, way := wayAt u line })
      exec (.writeBack cl addr) s = .next ((((w.setWb cl.val line false).toL3 line true).clearPresence cl.val line).txClose line)) ∧
    (s.l2State cl.val line = some .e ∨ s.l2State cl.val line = some .s →
      let u := v.dropAt cl.val line
      let w := u.setTx line (some { req := clusterReq .evict cl.val line false, way := wayAt u line })
      exec (.evict cl addr) s = .next (((w.toL3 line false).clearPresence cl.val line).txClose line))) ∧
  (∀ (s : State) (cl : Fin 4) (addr : PAddr) (t : OpenTx), let line := addr.toNat / 64
    mapGet? s.coh.opened line = some t → bitOf t.snoops cl.val = true → s.wbPendingAt cl.val line = false →
    let st := s.l2State cl.val line
    let u := if st = some .m then s.toL3 line true else s
    let t' := { t with snoops := setBits t.snoops cl.val cl.val 0 }
    (t.req.kind = .readUnique ∨ t.req.kind = .upgrade ∨ t.req.kind = .writeInv ∨ t.req.kind = .atomicFar →
      exec (.snoopReceived cl addr false) s = .next (((((u.dropAt cl.val line).clearPresence cl.val line).setTx line (some t')).txFinish
        line .none).serveQueue line)) ∧
    (∀ fetch, t.req.kind = .readShared fetch → st.isSome = true →
      exec (.snoopReceived cl addr false) s = .next (((((u.setL2 cl.val line .s).dirMod line fun e => { e with unique := false }).setTx line
        (some t')).txFinish line .none).serveQueue line)) ∧
    (t.req.kind = .readCurrent →
      exec (.snoopReceived cl addr false) s = .next (((u.setTx line (some t')).txFinish line .none).serveQueue line)) ∧
    (st = some .m → exec (.snoopReceived cl addr true) s =
      .next (((s.dropAt cl.val line).setWb cl.val line true).setTx line (some { t' with dif := some cl.val })))) ∧
  (∀ (s : State) (addr : PAddr) (t : OpenTx), let line := addr.toNat / 64
    mapGet? s.coh.opened line = some t →
    (t.finished = true → exec (.completionAck addr) s = .next ((s.txClose line).serveQueue line)) ∧
    (t.finished = false → exec (.completionAck addr) s = .next s)) ∧
  (∀ (s v : State) (cl : Fin 4) (addr : PAddr) (q : HomeReq),
    s.coh.retry.find? (fun q => !q.own && q.line == addr.toNat / 64 && q.cluster == some cl.val) = some q →
    (q.reserved = false ∨ q.way.isSome = true ∨ s.dirRoom q.line q.rt none ≠ .full → s.transTake q.requester 1 = (true, v) →
      exec (.retryReissue cl addr) s = .next ((v.modCoh fun x => { x with retry := x.retry.erase q }).homeArrive q .none)) ∧
    (q.reserved = true → q.way = none → s.dirRoom q.line q.rt none = .full → exec (.retryReissue cl addr) s = .next s))) ∧
  ((∀ (s v : State) (r : Requester) (addr : PAddr) (n : Nat) (rt : Bool) (f : MemFault), let line := addr.toNat / 64
    n ≠ 0 → addr.toNat % 64 + n ≤ 64 → s.agentReaches r .read addr.toNat n = true →
    let q : HomeReq := { kind := .readCurrent, cluster := none, line := line, rt := rt, who := reqNo r, addr := addr.toNat, size := n }
    Sent (s.fwUsed r) q v → v.snoopsFor q = 0 →
    let u := readBy (openedFor v q) q f
    u.fails line = false →
    let bs := u.rdB addr.toNat n
    exec (.readCurrent r addr n ⟨rt, f⟩) s = .next (finishedFor v (u.answer (if n ≤ 8 then .data (BitVec.ofNat 64 (leNat bs)) else .bytes bs)) q)) ∧
  (∀ (s v : State) (r : Requester) (addr : PAddr) (bs : List Byte) (rt : Bool) (f : MemFault), let line := addr.toNat / 64
    bs ≠ [] → addr.toNat % 64 + bs.length ≤ 64 → s.agentReaches r .write addr.toNat bs.length = true →
    let q : HomeReq := { kind := .writeInv, cluster := none, line := line, rt := rt, who := reqNo r, addr := addr.toNat, size := bs.length, bytes := bs }
    Sent (s.fwUsed r) q v → v.snoopsFor q = 0 →
    let u := if bs.length = 64 then openedFor v q else (openedFor v q).memFault none (64 * line) f
    bs.length = 64 ∨ u.fails line = false →
    exec (.writeInv r addr ⟨bs, rt, f⟩) s =
      .next ((((((linesOf addr.toNat bs.length).foldl (fun w l => w.rtWrite l rt) u).invalidatingWrite addr.toNat bs).answer .ok).txClose
        line).serveQueue line)) ∧
  (∀ (s v : State) (c : CoreId) (addr : PAddr) (f : MemFault) (a : FarAtomic), let line := addr.toNat / 64
    (s.core c.val).far = some a → a.addr / 64 = line → c.val ∈ s.coreList → (∀ d, d ≠ c.val → (s.core d).far = none) →
    s.coh.waiting = [] → s.coh.retry = [] → s.coh.opened = [] →
    let q := coreReq .atomicFar c.val line a.rt
    Sent s q v → v.dirRoom line a.rt none ≠ .full → v.snoopsFor q = 0 →
    let u := readBy (openedFor v q) q f
    u.fails line = false → (u.core c.val).far = some a → (u.core c.val).ctxId.isSome = true → u.runs c.val = true →
    let w := ((u.dropOthers line none).toL3 line true).modCore c.val fun k => { k with far := none }
    ∀ cl : Fin 4, cl.val = clusterOf c.val → exec (.atomicFar cl addr f) s = .next (finishedFor v
      ((w.contendStep c.val a.addr false).amoPerform c.val a.addr (if rvF3 a.insn = 2 then 4 else 8) a.insn a.len [0x10]).settle q)))

/-- R376, R377, R395, R401, R402: the turn of the wheel restarts its counts, the end of a patrol pass counts it and restarts the devices'
counts, a rebuild ends, a woken bank and a wiped sealed bank can be used; the memory counters are cleared by an E-level core. -/
def Obligations.MemoryService : Prop :=
  ∀ s : State,
    (exec .wheelTurn s = .next (s.modCoh fun c => { c with rtTurn := [] })) ∧
    (s.coh.failed = [] → exec (.patrolPassComplete []) s = .next (((List.range 9).foldl (fun u d => u.set (Fd.HWD_MEM_DEV_CE.COUNT d) 0) s).inc
      Fd.HWD_MEM_PATROL.PASSES)) ∧
    (∀ dev, s.coh.rebuild = some dev →
      let u := (((s.set Fd.HWD_MEM_STAT.SPARING 0).set Fd.HWD_MEM_STAT.SPARED 1).set Fd.HWD_MEM_STAT.SPARED_DEV dev).modCoh fun c =>
        { c with rebuild := none }
      exec .sparingRebuildComplete s = .next (if u.get Fd.HWD_MEM_CFG.IRQ_EN = 0 then u else u.pulse (u.get Fd.HWD_MEM_CFG.IRQ_SRC))) ∧
    (∀ b : Fin 28, s.coh.waking.contains (36 + b.val) = true → exec (.retentionWakeComplete b) s = .next
      ((s.set Fd.PWR_RET.BANKS (setBits (s.get Fd.PWR_RET.BANKS) b.val b.val 0)).modCoh fun c => { c with
        waking := c.waking.filter (· != 36 + b.val) })) ∧
    (s.coh.wiping = true → Answers .sealedBankWipeComplete s fun t =>
      (∀ a, t.byte a = if sealedBase ≤ a ∧ a < sramBase + sramSize then 0 else s.byte a) ∧ t.coh.wiping = false ∧ t.cores = s.cores ∧
        t.groves = s.groves) ∧
    (∀ r : Requester, Admitted s r Rg.HWD_MEM_CTL 4 → (accepted s r).isE r = true → Answers (.memCntClr r) s fun t =>
      (∀ i, i ∈ [Rg.HWD_MEM_CE_CNT, Rg.HWD_MEM_UE_CNT, Rg.HWD_MEM_MAC_CNT, Rg.HWD_MEM_SRAM_CE_CNT, Rg.HWD_MEM_SRAM_UE_CNT,
        Rg.HWD_MEM_STORE_LOST_CNT] → t.reg i = 0) ∧ (∀ k, k < 9 → t.get (Fd.HWD_MEM_DEV_CE.COUNT k) = 0) ∧
        (∀ g, g < 64 → t.get (Fd.HWD_MEM_RT_OVER.COUNT g) = 0) ∧ t.mem = s.mem ∧ t.cores = s.cores)

/-- R406-R408, R17: a doorbell write that its source admits: PULSE sets PENDING; ASSERT raises the level, which sets PENDING once it rises and
while the source is not ACTIVE; DEASSERT lowers it and withdraws PENDING unless it is ACTIVE; one that is not admitted is counted and
recorded. OP 3 is ignored. -/
def Obligations.Doorbells : Prop :=
  (∀ (r : Requester) (src : SourceId) (s : State),
    (∀ c : CoreId, r = .core c → Admitted s r Rg.IRQ_DOORBELL 4 → let u := accepted s r
      exec (.pulse r src) s = .next (u.ring (.core c.val) src.val 0).settle ∧
      exec (.assert r src) s = .next (u.ring (.core c.val) src.val 1).settle ∧
      exec (.deassert r src) s = .next (u.ring (.core c.val) src.val 2).settle) ∧
    exec (.pulse .heartwood src) s = .next (s.ring .hw src.val 0).settle ∧
    exec (.assert .heartwood src) s = .next (s.ring .hw src.val 1).settle ∧
    exec (.deassert .heartwood src) s = .next (s.ring .hw src.val 2).settle ∧
    ((∀ k : CoreId, r ≠ .core k) → r ≠ .heartwood → Admitted s r Rg.IRQ_DOORBELL 4 → ∀ c, c ∈ [Instr.pulse r src, .assert r src, .deassert r src] →
      exec c s = .next (accepted s r))) ∧
  (∀ (v : Word32) (s : State), Admitted s .host Rg.PCI_DOORBELL 4 →
    exec (.hostDoorbell v) s = .next ((accepted s .host).ring .host (bits v.toNat 11 0) (bits v.toNat 13 12)).settle) ∧
  (∀ (s : State) (w : Writer) (src : Nat), src < 4096 →
    let f := Fd.IRQ_SRC_CFG.PENDING src
    (∀ op, op = 3 → s.ring w src op = s) ∧
    (s.dropReason w src 0 = none → s.ring w src 0 = s.set f 1) ∧
    (s.dropReason w src 1 = none → let t := s.ring w src 1
      t.get (Fd.IRQ_SRC_CFG.LVL src) = 1 ∧
      t.get f = (if s.get (Fd.IRQ_SRC_CFG.LVL src) = 0 ∧ s.get (Fd.IRQ_SRC_CFG.ACTIVE src) = 0 then 1 else s.get f)) ∧
    (s.dropReason w src 2 = none → let t := s.ring w src 2
      t.get (Fd.IRQ_SRC_CFG.LVL src) = 0 ∧ t.get f = (if s.get (Fd.IRQ_SRC_CFG.ACTIVE src) = 0 then 0 else s.get f)) ∧
    (∀ op why, op < 3 → s.dropReason w src op = some why → s.get Fd.IRQ_STAT.DROP = 1 → let t := s.ring w src op
      t.get Fd.IRQ_DROP_CNT.COUNT = satAdd 32 (s.get Fd.IRQ_DROP_CNT.COUNT) 1 ∧
      bits (t.reg Rg.IRQ_DROP_LAST) 11 0 = src ∧ bits (t.reg Rg.IRQ_DROP_LAST) 13 12 = op ∧ bits (t.reg Rg.IRQ_DROP_LAST) 14 14 = why ∧
      ∀ i, t.get (Fd.IRQ_SRC_CFG.PENDING i) = s.get (Fd.IRQ_SRC_CFG.PENDING i)))

/-- R409, R415, R418-R420: a core's write of a bank changes the bits of the sources it may signal and no other; a claim accepts the offered source
of a grove in compatibility mode and answers it; an end of interrupt ends the source on top of the core's stack, which is pended again
while its level is high; a wrong one is an error of the core; a change of delivery mode needs an idle grove. -/
def Obligations.RouterAccess : Prop :=
  (∀ (c : CoreId) (w : Fin 128) (v : Word32) (s : State), let u := accepted s (.core c)
    let all (f : Nat → Fld) (x : Nat) := (((bitsSet 32 v.toNat).map (32 * w.val + ·)).foldl
      (fun t i => if t.maySignal (.core c.val) i 1 then t.set (f i) x else t) u).settle
    (Admitted s (.core c) (Rg.IRQ_EN_SET w.val) 4 → exec (.irqEnSet (.core c) w v) s = .next (all Fd.IRQ_SRC_CFG.EN 1)) ∧
    (Admitted s (.core c) (Rg.IRQ_EN_CLR w.val) 4 → exec (.irqEnClr (.core c) w v) s = .next (all Fd.IRQ_SRC_CFG.EN 0)) ∧
    (Admitted s (.core c) (Rg.IRQ_PEND_SET w.val) 4 → exec (.irqPendSet (.core c) w v) s = .next (all Fd.IRQ_SRC_CFG.PENDING 1)) ∧
    (Admitted s (.core c) (Rg.IRQ_PEND_CLR w.val) 4 → exec (.irqPendClr (.core c) w v) s = .next (all Fd.IRQ_SRC_CFG.PENDING 0))) ∧
  (∀ (c : CoreId) (s : State), s.reaches (.core c) .read (winBase + Rg.IRQ_CLAIM) 4 = true →
    let u := s.fwUsed (.core c)
    (∀ src, u.level c.val ≠ .u → u.offerOf c.val = some src → u.compatSource src = true →
      exec (.irqClaim c) s = .next ((u.accept c.val src).answer (.data (BitVec.ofNat 64 (src + u.prio src * 2 ^ 12))))) ∧
    (u.level c.val = .u ∨ u.offerOf c.val = none ∨ (∃ src, u.offerOf c.val = some src ∧ u.compatSource src = false) →
      exec (.irqClaim c) s = .next (u.answer (.data (BitVec.ofNat 64 (2 ^ 31)))))) ∧
  (∀ (c : CoreId) (v : Word32) (s : State), Admitted s (.core c) Rg.IRQ_EOI 4 →
    let u := accepted s (.core c)
    let src := bits v.toNat 11 0
    (∀ p rest, u.stack c.val = (src, p) :: rest → u.level c.val ≠ .u →
      let t := u.set (Fd.IRQ_SRC_CFG.ACTIVE src) 0
      let t := if t.get (Fd.IRQ_SRC_CFG.LEVEL src) ≠ 0 ∧ t.get (Fd.IRQ_SRC_CFG.LVL src) ≠ 0 then t.set (Fd.IRQ_SRC_CFG.PENDING src) 1 else t
      exec (.irqEoi c v) s = .next (t.setStack c.val rest).settle) ∧
    ((∀ p rest, u.stack c.val ≠ (src, p) :: rest) ∨ u.level c.val = .u →
      exec (.irqEoi c v) s = .next (u.set (Fd.IRQ_CORE_STAT.EOI_ERR c.val) 1))) ∧
  (∀ (r : Requester) (g : GroveId) (v : Word32) (s : State), Admitted s r (Rg.IRQ_GRV_CFG g.val) 4 →
    let u := accepted s r
    (u.mayConfigGrove r g.val = true → (∀ c, c ∈ bitsSet 64 (u.grv g.val).cfg.cores → u.stack c = []) →
      exec (.compatWrite r g v) s = .next (u.set (Fd.IRQ_GRV_CFG.COMPAT g.val) (bits v.toNat 0 0)).settle) ∧
    (u.mayConfigGrove r g.val = false ∨ (∃ c, c ∈ bitsSet 64 (u.grv g.val).cfg.cores ∧ u.stack c ≠ []) → exec (.compatWrite r g v) s = .next u)) ∧
  (∀ (r : Requester) (s : State), Admitted s r Rg.IRQ_CTL 4 → let u := accepted s r
    exec (.irqCntClr r) s = .next (if u.isE r then u.set Fd.IRQ_DROP_CNT.COUNT 0 else u))

/-- R411, R413, R414: every source offered to a core is one that it is eligible for, and pending, enabled and not active; no source and no core
has two offers; a core that has accepted a source is eligible for no source of its priority or below until it ends it. -/
def Obligations.OffersOfTheRouter : Prop :=
  (∀ s : State, s.wf → (s.offers.map (·.1)).Nodup ∧ (s.offers.map (·.2)).Nodup ∧
    ∀ e, e ∈ s.offers → e.1 < 64 ∧ s.eligible e.2 e.1 = true ∧ s.on (Fd.IRQ_SRC_CFG.PENDING e.2) = true ∧
      s.on (Fd.IRQ_SRC_CFG.EN e.2) = true ∧ s.on (Fd.IRQ_SRC_CFG.ACTIVE e.2) = false) ∧
  (∀ (s : State) (c src : Nat), src < 4096 → c < 64 →
    let t := s.accept c src
    t.get (Fd.IRQ_SRC_CFG.PENDING src) = 0 ∧ t.get (Fd.IRQ_SRC_CFG.ACTIVE src) = 1 ∧ t.get (Fd.IRQ_SRC_CFG.CORE src) = c ∧
      t.stack c = (src, s.prio src) :: s.stack c ∧ (∀ i, t.prio i = s.prio i) ∧ (∀ i, t.prio i ≤ t.prio src → t.eligible i c = false) ∧
      t.mem = s.mem ∧ t.cores = s.cores)

/-- R452, R459: the commands that need no owner: information, a nonce, identity and certificate, a quote, audit entries, the start of a
staging, a firmware update whose image is good, its write-back that fails or is cut short, the closing of debug. A request of the wrong length
is refused with 3, one that the lifecycle state does not permit with 4; one with an owner block uses its nonce up. -/
def Obligations.MailboxCommands : Prop :=
  ∀ (s : State) (m : Fin 2), let req := s.mbxBytes m.val (min 2048 (s.get (Fd.HWD_MBX_CMD.LEN m.val)))
    let addr := fieldB req 0 8
    let len := fieldB req 8 4
    (Served s m 0x01 0 → exec (.getInfo m) s = .next (s.mbxReply m.val ((s.quoteBody []).take 48))) ∧
    (Served s m 0x02 0 → let n := (List.range 4).flatMap fun k => leBytes 8 (Config.freeWord (s.freeCnt + k)).toNat
      exec (.getNonce m) s = .next ({ s.setBox m.val { s.box m.val with nonce := some (n, s.hwTime) } with
        freeCnt := s.freeCnt + 4 }.mbxReply m.val n)) ∧
    (Served s m 0x03 0 → exec (.getIdentity m) s = .next (s.mbxReply m.val
      (sliceB s.sec.idPub 0 97 ++ List.replicate 3 0 ++ sliceB s.sec.cert 0 256))) ∧
    (Served s m 0x04 32 → s.lcRuns = true → s.start.recovery = false →
      exec (.attest m) s = .next (s.mbxReply m.val (s.quoteBody req ++ cryptoN 5 96 (s.quoteBody req)))) ∧
    (Served s m 0x05 9 → 1 ≤ fieldB req 8 1 → fieldB req 8 1 ≤ 31 → exec (.auditRead m) s = .next (s.mbxReply m.val
      (((s.sec.audit.reverse.filter fun e => fieldB req 0 8 ≤ fieldB e 0 8).take (fieldB req 8 1)).flatten))) ∧
    (Served s m 0x10 12 → s.lcRuns = true → s.start.recovery = false → s.start.staging = none →
      (∀ b u, bufferFits m.val addr len → s.linesFree (bufferAt m.val addr) len = true →
        s.unitRead (bufferAt m.val addr) len false = (some b, u) →
        (len ≤ u.slotSize → exec (.stage m) s = .next (u.stagingBegin m.val b)) ∧
        (u.slotSize < len → exec (.stage m) s = .next (u.mbxEnd m.val 0x09 0x04 0))) ∧
      (¬ bufferFits m.val addr len → exec (.stage m) s = .next (s.mbxEnd m.val 0x0B 0 0))) ∧
    (Served s m 0x11 12 → s.get Fd.HWD_STAT.LC < 5 → s.sec.fwWriting = none → bufferFits m.val addr len →
      s.linesFree (bufferAt m.val addr) len = true → ∀ b u, s.unitRead (bufferAt m.val addr) len false = (some b, u) →
      (fieldB b 8 4 ≠ len ∨ u.firmwareOk b = false → ∀ w, exec (.hwfwUpdate ⟨m, w⟩) s = .next (u.mbxEnd m.val 0x09 0 0)) ∧
      (fieldB b 8 4 = len → u.firmwareOk b = true →
        let v := (u.audit 0x0015 (u.reg Rg.HWD_FW) (fieldB b 0x0C 4)).flashErase 0x2_0000 0x10_0000
        let x := ((v.flashPut 0x2_0000 (b.take (v.free.toNat % b.length))).drawn).modSec fun x => { x with fwBad := true, fwWriting := none }
        exec (.hwfwUpdate ⟨m, .done⟩) s = .next (((v.flashPut 0x2_0000 b).modSec fun x =>
          { x with fwBad := false, fwWriting := none }).mbxReply m.val []) ∧
        exec (.hwfwUpdate ⟨m, .cut⟩) s = .next (x.modSec fun y => { y with fwWriting := some (m.val, b) }) ∧
        ∀ k, exec (.hwfwUpdate ⟨m, .failed k⟩) s = .next (x.mbxEnd m.val 0x08 k.val 0))) ∧
    (∀ b w, s.sec.fwWriting = some (m.val, b) → s.inProgress m.val 0x11 = true →
      exec (.hwfwUpdate ⟨m, w⟩) s = .next (s.firmwareStore m.val b w)) ∧
    (Served s m 0x23 256 → s.lcRuns = true → s.start.recovery = false → let k := fieldB req 6 1
      s.ownCertOk req k (s.ownerDigest k) = true →
      (s.get Fd.HWD_STAT.KEY_PENDING ≠ 0 → s.get Fd.HWD_CNT.PENDING_INDEX = k → exec (.certInstall m) s = .next
        (((s.audit 0x0013 k 0).modSec fun x => { x with certPend := req }).mbxReply m.val [])) ∧
      (s.get Fd.HWD_STAT.KEY_PENDING = 0 → s.ownerIndex = some k → exec (.certInstall m) s = .next
        (((s.audit 0x0013 k 0).modSec fun x => { x with cert := req }).mbxReply m.val []))) ∧
    (Served s m 0x31 0 → s.start.recovery = false → exec (.debugClose m) s = .next ((s.debugClose 0).mbxReply m.val [])) ∧
    (s.sec.change = none → s.sec.fwWriting = none → ∀ c w e, c ∈ [(Instr.getInfo m, 0x01, 0, false), (.getNonce m, 0x02, 0, false),
        (.getIdentity m, 0x03, 0, false), (.attest m, 0x04, 32, false), (.auditRead m, 0x05, 9, false), (.hwfwUpdate ⟨m, w⟩, 0x11, 12, false),
        (.provision ⟨m, e⟩, 0x21, 356, false), (.keyRotate ⟨m, e⟩, 0x22, 484, true), (.certInstall m, 0x23, 256, false),
        (.imageKeyInstall m, 0x24, 288, true), (.debugOpen m, 0x30, 128, true), (.debugClose m, 0x31, 0, false)] →
      let u := if c.2.2.2 then s.setBox m.val { s.box m.val with nonce := none } else s
      (∀ n, Served s m c.2.1 n → n ≠ c.2.2.1 → exec c.1 s = .next (u.mbxEnd m.val 0x03 c.2.2.1 0)) ∧
      (c.2.1 = 0x04 ∨ c.2.1 = 0x22 ∨ c.2.1 = 0x23 ∨ c.2.1 = 0x24 → Served s m c.2.1 c.2.2.1 → s.lcRuns = false →
        exec c.1 s = .next (u.mbxEnd m.val 0x04 (u.get Fd.HWD_STAT.LC) 0)))

/-- R443-R450, R457, R459, R460: the commands of the owner. A transition of the table is accepted with its audit entry and waits for the
lifecycle reset, and one that does not exist is refused with STATE; the first owner key is in force at once, a rotated one at the next start;
an image key is unwrapped; debug opens. A start abandons a change that was interrupted before its OTP cell was programmed, and makes one
whose cell was left with an unclean margin, which reads as programmed. -/
def Obligations.OwnerCommands : Prop :=
  (∀ (s : State) (m : Fin 2) (e : ChangeEnd), s.start.recovery = false →
    let req := s.mbxBytes m.val (min 2048 (s.get (Fd.HWD_MBX_CMD.LEN m.val)))
    let u := ownerUsed s m.val
    let seq := s.get Fd.HWD_AUDIT_SEQ.SEQ
    (s.sec.change = none → ∀ target, target = bits (s.reg (Rg.HWD_MBX_DATA m.val 0)) 7 0 →
      (s.sec.lcTo = none → zeroB req 1 3 = true →
        (lcTransition s.lc target = some true → Served s m 0x20 132 → OwnerAllows s m.val 0x20 req →
          exec (.lcChange ⟨m, e⟩) s = .next (u.lcAccept m.val target e)) ∧
        (lcTransition s.lc target = some false → Served s m 0x20 4 → exec (.lcChange ⟨m, e⟩) s = .next (s.lcAccept m.val target e))) ∧
      (lcTransition s.lc target = none →
        (Served s m 0x20 132 → exec (.lcChange ⟨m, e⟩) s =
          .next ((s.setBox m.val { s.box m.val with nonce := none }).mbxEnd m.val 0x04 s.lc 0)) ∧
        (Served s m 0x20 4 → exec (.lcChange ⟨m, e⟩) s = .next (s.mbxEnd m.val 0x04 s.lc 0)))) ∧
    (Served s m 0x21 356 → s.lc = 1 → s.sec.lcTo = none → s.sec.change = none → let k := s.get Fd.HWD_CNT.OWNER_INSTALLS
      let d := pointDigest (sliceB req 0 97)
      k < 8 → zeroB req 97 3 = true → s.ownCertOk (sliceB req 100 256) k d = true →
      exec (.provision ⟨m, e⟩) s = .next (changed ((s.audit 0x0010 (1 + 256 * 2) 0).audit 0x0011 k 0)
        { seq := seq, mailbox := m.val, lc := some 2, counter := some 0, key := some (k, d, sliceB req 100 256) } e)) ∧
    (Served s m 0x22 484 → s.lcRuns = true → s.get Fd.HWD_STAT.KEY_PENDING = 0 → s.sec.change = none → OwnerAllows s m.val 0x22 req →
      let k := u.get Fd.HWD_CNT.OWNER_INSTALLS
      let d := pointDigest (sliceB (req.take 356) 0 97)
      k < 8 → zeroB (req.take 356) 97 3 = true → u.ownCertOk (sliceB (req.take 356) 100 256) k d = true →
      exec (.keyRotate ⟨m, e⟩) s = .next (changed (u.audit 0x0011 k 0) { seq := u.get Fd.HWD_AUDIT_SEQ.SEQ, mailbox := m.val, lc := none, counter := some 0, key := some (k, d, sliceB (req.take 356) 100 256) } e)) ∧
    (Served s m 0x24 288 → s.lcRuns = true → OwnerAllows s m.val 0x24 req → let b := req.take 160
      let kek := cryptoN 8 32 (sliceB b 0 97 ++ (leBytes 8 (u.reg Rg.HWD_SERIAL_LO) ++ leBytes 8 (u.reg Rg.HWD_SERIAL_HI)) ++
        leBytes 1 (u.get Fd.HWD_CNT.KEY_INDEX))
      zeroB b 97 3 = true → ∀ key, Config.gcmOpen kek (sliceB b 100 12) (sliceB b 0 97) (sliceB b 112 32) (sliceB b 144 16) = some key →
      exec (.imageKeyInstall m) s = .next ((((u.audit 0x0012 0 0).modSec fun x => { x with imageKey := some (sliceB key 0 32) }).set
        Fd.HWD_STAT.IMAGE_KEY 1).mbxReply m.val [])) ∧
    (Served s m 0x30 128 → s.lc = 2 ∨ s.lc = 4 → OwnerAllows s m.val 0x30 req →
      exec (.debugOpen m) s = .next (((u.audit 0x0030 0 0).set Fd.HWD_STAT.DEBUG 1).mbxReply m.val []))) ∧
  (∀ (s : State) (m : Fin 2) (c : Change) (e : ChangeEnd), s.sec.change = some c → c.mailbox = m.val →
    (s.inProgress m.val 0x20 = true → exec (.lcChange ⟨m, e⟩) s = .next (changed s c e)) ∧
    (s.inProgress m.val 0x21 = true → exec (.provision ⟨m, e⟩) s = .next (changed s c e)) ∧
    (s.inProgress m.val 0x22 = true → exec (.keyRotate ⟨m, e⟩) s = .next (changed s c e))) ∧
  (∀ (s : State) (m new : Nat) (e : ChangeEnd),
    (s.lc = 3 → new = 4 → 16 ≤ s.get Fd.HWD_CNT.SERVICE_ENTRIES → s.lcAccept m new e = s.mbxEnd m 0x07 1 0) ∧
    (¬ (s.lc = 3 ∧ new = 4) ∨ s.get Fd.HWD_CNT.SERVICE_ENTRIES < 16 → s.lcAccept m new e = changed (s.audit 0x0010 (s.lc + 256 * new) 0)
      { seq := s.get Fd.HWD_AUDIT_SEQ.SEQ, mailbox := m, lc := some new, counter := if s.lc = 3 ∧ new = 4 then some 1 else none, key := none } e)) ∧
  (∀ (s : State) (c : Change),
    let u := match c.counter with
      | some k => s.set (otpCounter k) (s.get (otpCounter k) + 1)
      | none => s
    let t := s.changeStep c
    t.sec.change = none ∧ (∀ lc, c.lc = some lc → t.sec.lcTo = some lc) ∧ (c.lc = none → t.sec.lcTo = s.sec.lcTo) ∧
      (∀ k d b, c.key = some (k, d, b) → mapGet? t.sec.owners k = some { digest := d, valid := c.lc.isSome } ∧
        (c.lc.isSome = true → t.sec.cert = b ∧ t.get Fd.HWD_CNT.KEY_INDEX = k % 8) ∧
        (c.lc = none → t.sec.certPend = b ∧ t.get Fd.HWD_STAT.KEY_PENDING = 1 ∧ t.get Fd.HWD_CNT.PENDING_INDEX = k % 8)) ∧
      (c.key = none → t.regs = u.regs) ∧ t.mem = s.mem) ∧
  (∀ (s : State) (c : Change), s.sec.change = some c → s.sec.lcTo = none → (∀ k, k < 3 → s.get (otpCounter k) ≤ mapGet 0 s.sec.copies k) →
    (s.sec.margin = [] → s.lcResume = (s.audit 0x00F0 c.seq 0).modSec fun x => { x with change := none }) ∧
    (∀ k n d b, k < 3 → c.counter = some k → c.lc = none → c.key = some (n, d, b) → s.sec.margin = [k] →
      s.get (otpCounter k) < otpLimit k → mapGet 0 s.sec.copies k = s.get (otpCounter k) →
      let t := s.lcResume
      t.sec.change = none ∧ t.sec.margin = [] ∧ mapGet? t.sec.owners n = some { digest := d, valid := false } ∧
        t.get Fd.HWD_STAT.KEY_PENDING = 1 ∧ t.get Fd.HWD_CNT.PENDING_INDEX = n % 8)) ∧
  (∀ (s : State) (m code : Nat) (req : List Byte) (f : State → List Byte → State), s.get (Fd.HWD_MBX_STAT.LOCKED m) = 0 →
    (s.box m).nonce = none → s.authorised m code req f = (s.setBox m { s.box m with nonce := none }).authFails m code 0x06)

/-- R44, R444, R448, R453-R458, R516, R523, R535: the oldest nonces lapse 600 s after their issue, a lifecycle change resets and takes its
state, tamper conditions are recorded and answered by an alert, a reset or a zeroisation, which end once their conditions have been absent; the
clock synchronises; the blocks of MRAM keep their contents; a TAP instruction that holds the pins holds the main side in reset; the reset causes
that have no end of their own end. -/
def Obligations.HeartwoodEvents : Prop :=
  ∀ s : State,
    (∀ e n t, e ∈ s.sec.boxes → e.2.nonce = some (n, t) → (∀ o n' t', o ∈ s.sec.boxes → o.2.nonce = some (n', t') → t ≤ t') →
      let lapsed (b : MailboxSt) : MailboxSt := match b.nonce with
        | some (_, t') => if t' ≤ t then { b with nonce := none } else b
        | none => b
      exec .nonceLapse s = .next ((s.atTime (s.now + (t + 600000000000 - s.hwTime))).modSec fun x => { x with
        boxes := (s.sec.boxes.map fun e => (e.1, lapsed e.2)).filter fun e => decide (e.2 ≠ {}) })) ∧
    ((∀ e, e ∈ s.sec.boxes → e.2.nonce = none) → exec .nonceLapse s = .next s) ∧
    (∀ lc, s.sec.lcTo = some lc →
      exec .lifecycleChangeReset s = .next (((s.enterReset kindWarm srcLifecycle 2).lcApply).modCoh fun x => { x with wiping := true })) ∧
    (∀ k : Fin 8, s.alwaysOn = true → bitOf s.sec.active k.val = false → k.val ≠ 7 ∨ s.macTamper = true →
      let u := ((s.set Fd.HWD_TAMPER.ACTIVE (setBits (s.get Fd.HWD_TAMPER.ACTIVE) k.val k.val 1)).set Fd.HWD_TAMPER.SEEN
        (setBits (s.get Fd.HWD_TAMPER.SEEN) k.val k.val 1)).inc Fd.HWD_TAMPER_CNT.COUNT
      let u := (u.modSec fun x => { x with active := setBits x.active k.val k.val 1, absentAt := mapDel x.absentAt k.val }).audit 0x0020 (2 ^ k.val)
        (if k.val < 3 then 3 else if k.val = 5 then 1 else 2)
      exec (.tamperCondition k) s = .next (if k.val < 3 then u.zeroise else if k.val = 5 then
          (if u.get Fd.HWD_IRQ_SRC.ALERT_EN = 0 then u else u.pulse (u.get Fd.HWD_IRQ_SRC.ALERT_SRC))
        else (u.enterReset kindWarm srcSensor 1).modCoh fun x => { x with wiping := true })) ∧
    (∀ k : Fin 8, bitOf s.sec.active k.val = true → exec (.sensorConditionAbsent k) s = .next
      ((s.set Fd.HWD_TAMPER.ACTIVE (setBits (s.get Fd.HWD_TAMPER.ACTIVE) k.val k.val 0)).modSec fun x =>
        { x with active := setBits x.active k.val k.val 0, absentAt := mapPut x.absentAt k.val s.now })) ∧
    (srcSensor ∈ s.power.rstHeld →
      let last := [3, 4, 6, 7].foldl (fun a k => max a (mapGet 0 s.sec.absentAt k)) 0
      (bitOf s.sec.active 3 = false → bitOf s.sec.active 4 = false → bitOf s.sec.active 6 = false → bitOf s.sec.active 7 = false →
        exec .sensorHoldEnd s = .next (((s.atTime (last + 100000000)).modPower fun p => { p with
          rstHeld := p.rstHeld.filter (· != srcSensor) }).releaseIfFree)) ∧
      (bitOf s.sec.active 3 = true ∨ bitOf s.sec.active 4 = true ∨ bitOf s.sec.active 6 = true ∨ bitOf s.sec.active 7 = true →
        exec .sensorHoldEnd s = .next s)) ∧
    (srcZeroise ∈ s.power.rstHeld →
      let last := [0, 1, 2].foldl (fun a k => max a (mapGet 0 s.sec.absentAt k)) 0
      (bitOf s.sec.active 0 = false → bitOf s.sec.active 1 = false → bitOf s.sec.active 2 = false → s.phase ≠ .rising →
        exec .heartwoodRestart s = .next { ((s.atTime (last + 1000000000)).modPower fun p => { p with
          rstHeld := p.rstHeld.filter (· != srcZeroise) }) with start := { phase := .rom } }) ∧
      (bitOf s.sec.active 0 = true ∨ bitOf s.sec.active 1 = true ∨ bitOf s.sec.active 2 = true → exec .heartwoodRestart s = .next s)) ∧
    (s.get Fd.TIME_STAT.ACQUIRED ≠ 0 → exec .heartwoodClockSync s = .next (s.modSec fun x => { x with hwClock := 0 })) ∧
    (s.get Fd.TIME_STAT.ACQUIRED = 0 → exec .heartwoodClockSync s = .next s) ∧
    exec .mramRefresh s = .next s ∧
    (∀ code : Byte, s.alwaysOn = true → let c := s.tapCode code.toNat
      let u := s.modSec fun x => { x with tapInstr := c }
      exec (.tapInstructionLoad code) s = .next (if c = 0x00 ∨ c = 0x03 ∨ c = 0x04 ∨ c = 0x05 then (u.audit 0x0032 c 0).enterReset kindWarm
        srcScan 1 else (u.endCause srcScan).releaseIfFree)) ∧
    (exec .resetRelease s = .next ((s.modPower fun p => { p with
      rstHeld := p.rstHeld.filter fun c => c != srcRstN && c != srcPowerFail && c != srcPwrCtl && c != srcLifecycle }).releaseIfFree))

/-- R467, R473-R476, R478, R488, R523: what the enclave does of its own while it runs: a publication boundary stores, publishes, serves a command
and updates its window; an interval is accounted for and the committed set comes into use; a pulse is counted; power-fail stores; a start
restores the last complete store; a checksum that differs stops metering; a faulty converter is logged. The SJ-960-NX has no enclave (R3). -/
def Obligations.EnclaveEvents : Prop :=
  ∀ s : State,
    (s.metRuns = true →
      (let u := (s.modMet (·.gateTick)).modMet fun x => { x with stored := x.acc, storedAt := (s.modMet (·.gateTick)).metClock }
        let u := if u.get Fd.CFG_STAT.DONE = 0 then u else u.publish
        exec .publicationBoundary s = .next (if u.metCommand.inReset then u.metCommand else u.metCommand.metWindow)) ∧
      (∀ a b c d : FeederInterval, exec (.integrationIntervalEnd [a, b, c, d]) s = .next (s.modMet fun x =>
        let y := (((x.feederEnd 0 a).feederEnd 1 b).feederEnd 2 c).feederEnd 3 d
        { y with active := y.params, useTariff := y.acc.tariff })) ∧
      (∀ p : Fin 8, s.met.metering = true → exec (.pulseEdge p) s = .next (s.modMet fun x => { x with
        acc := { x.acc with pulses := mapSet 0 x.acc.pulses p.val (mapGet 0 x.acc.pulses p.val + 1) }
        gateCnt := mapSet 0 x.gateCnt p.val (mapGet 0 x.gateCnt p.val + 1) })) ∧
      (s.met.pfStored = false → s.sec.pfHeld = true ∨ s.power.disarmed = true →
        let u := s.modMet fun x => { x with stored := x.acc, storedAt := s.metClock, pfStored := true }
        exec .enclavePowerFail s = .next (u.metLog u.met.events 0x02 0 (mapGet 0 u.met.stored.energy 0))) ∧
      (s.met.pfStored = true → exec .enclavePowerRecovered s = .next
        ((s.metLog s.met.events 0x03 0 0).modMet fun x => { x with pfStored := false })) ∧
      (∀ crc : Word32, exec (.enclaveWatchdog crc) s = .next (s.metStart true crc.toNat)) ∧
      (∀ crc : Word32, let u := s.modMet fun x => { x with checksum := crc.toNat }
        (crc.toNat = s.met.expected → exec (.checksumCheck crc) s = .next u) ∧
        (crc.toNat ≠ s.met.expected → exec (.checksumCheck crc) s = .next
          ((u.metLog u.met.events 0x30 crc.toNat s.met.expected).modMet fun x => { x with checkErr := true }))) ∧
      (∀ ch : Fin 24, bitOf s.met.faults ch.val = false → exec (.converterFault ch) s = .next
        ((s.metLog s.met.events 0x31 (2 ^ ch.val) 0).modMet fun x => { x with faults := setBits x.faults ch.val ch.val 1 })) ∧
      (∀ ch : Fin 24, bitOf s.met.faults ch.val = true → exec (.converterFaultEnd ch) s = .next
        ((s.metLog s.met.events 0x32 (2 ^ ch.val) 0).modMet fun x => { x with faults := setBits x.faults ch.val ch.val 0 })) ∧
      (exec .parameterRefresh s = .next (s.modMet fun x => if x.useB then { x with copyB := x.params } else { x with copyA := x.params }))) ∧
    (∀ crc : Word32, s.mx = true → s.met.running = false → s.power.feedA = true ∨ s.power.feedB = true →
      exec (.enclaveConverterStart crc) s = .next (s.metStart false crc.toNat)) ∧
    (∀ (w : Bool) (crc : Nat), let t := (s.metStart w crc).met
      t.acc = s.met.stored ∧ t.running = true ∧ t.slots = s.met.slots ∧ t.cmd = none ∧ t.pfreq = [] ∧ t.checksum = crc) ∧
    (s.metRuns = false → exec .publicationBoundary s = .next s ∧ exec .enclavePowerFail s = .next s ∧
      ∀ (fs : List FeederInterval) (p : Fin 8), exec (.integrationIntervalEnd fs) s = .next s ∧ exec (.pulseEdge p) s = .next s)

/-- R480-R487: the calibration port: the seal opens and ends a session with its log entries; every frame is answered; a write needs the
seal and a value in the parameter's range; a commit takes the next slot, of 32; an abort discards what was written. A command of the main
side waits for the next boundary. -/
def Obligations.CalibrationPort : Prop :=
  (∀ s : State, s.metRuns = true →
    (s.met.sealed = false → exec .sealAsserted s = .next ((s.metLog s.met.events 0x20 0 0).modMet fun x => { x with
      sealed := true, pendSet := some x.params, written := 0 })) ∧
    (s.met.sealed = true → s.met.written = 0 → exec .sealReleased s = .next ((s.metLog s.met.events 0x21 0 0).modMet fun x => { x with
      sealed := false, pendSet := none, written := 0 })) ∧
    (exec .ident s = .next (s.calReply 1 0 (leBytes 2 s.met.version ++ leBytes 4 s.met.checksum ++ leBytes 1 s.met.events ++
      leBytes 8 (s.reg Rg.HWD_SERIAL_LO) ++ leBytes 8 (s.reg Rg.HWD_SERIAL_HI)))) ∧
    (∀ i : Byte, (paramRange i.toNat = none → exec (.paramRead i) s = .next (s.calReply 2 2 [])) ∧
      (paramRange i.toNat ≠ none → exec (.paramRead i) s = .next (s.calReply 2 0 (leBytes 4 (mapGet 0 s.met.params i.toNat))))) ∧
    (∀ (i : Byte) (v : Word32), (s.met.sealed = false → exec (.paramWrite i v) s = .next (s.calReply 3 1 [])) ∧
      (s.met.sealed = true → paramRange i.toNat = none → exec (.paramWrite i v) s = .next (s.calReply 3 2 [])) ∧
      (∀ lo hi, s.met.sealed = true → paramRange i.toNat = some (lo, hi) →
        (fLe f32 lo v.toNat = true → fLe f32 v.toNat hi = true → exec (.paramWrite i v) s = .next ((s.modMet fun x => { x with
          pendSet := some (mapSet 0 (x.pendSet.getD x.params) i.toNat v.toNat), written := x.written + 1 }).calReply 3 0 [])) ∧
        (fLe f32 lo v.toNat = false ∨ fLe f32 v.toNat hi = false → exec (.paramWrite i v) s = .next (s.calReply 3 2 [])))) ∧
    (s.met.sealed = false → exec .commit s = .next (s.calReply 4 1 []) ∧ exec .abort s = .next (s.calReply 5 1 [])) ∧
    (s.met.sealed = true → s.met.slots.length = 32 → exec .commit s = .next ((s.metLog 32 0x24 0 0).calReply 4 3 [])) ∧
    (∀ p, s.met.sealed = true → s.met.pendSet = some p → s.met.slots.length < 32 → Answers .commit s fun t =>
      t.met.params = p ∧ t.met.slots = s.met.slots ++ [(s.metClock, paramCrc p)] ∧ t.met.written = 0 ∧ t.met.acc = s.met.acc ∧
        t.met.active = s.met.active ∧ (if s.met.useB = true then t.met.copyA = p ∧ t.met.copyB = s.met.copyB
          else t.met.copyB = p ∧ t.met.copyA = s.met.copyA)) ∧
    (s.met.sealed = true → s.met.written ≠ 0 → exec .abort s = .next
      (((s.metLog s.met.events 0x23 s.met.written 0).modMet fun x => { x with pendSet := some x.params, written := 0 }).calReply 5 0 [])) ∧
    (∀ q : Word32, exec (.logRead q) s = .next (s.calReply 6 0 (((s.met.log.reverse.filter fun e => q.toNat ≤ fieldB e 0 4).take 4).flatten))) ∧
    (∀ f : Byte, exec (.measure f) s = .next (if f.toNat < 4 then
        s.calReply 7 0 ((List.range 7).flatMap fun j => leBytes 4 (mapGet 0 s.met.second (7 * f.toNat + j)))
      else s.calReply 7 2 []))) ∧
  (∀ (s : State) (r : Requester) (tag : Byte) (arg : Word32), Admitted s r Rg.MET_CMD 8 → s.mx = true → (accepted s r).isE r = true →
    let u := accepted s r
    let waits (op : Nat) := (u.set Fd.MET_CMD_STAT.BUSY 1).modMet fun x => { x with cmd := some { op := op, tag := tag.toNat, arg := arg.toNat } }
    let held (op : Nat) := if u.get Fd.MET_CMD_STAT.BUSY = 0 then waits op else u
    exec (.readSnapshot r tag arg) s = .next (held 1) ∧ exec (.readLog r tag arg) s = .next (held 2) ∧
    exec (.timeSet r tag arg) s = .next (held 3) ∧ exec (.tariff r tag arg) s = .next (held 4)) ∧
  (∀ (s : State) (arg : Nat), s.met.sealed = false →
    s.metServe { op := 1, tag := 0, arg := 0 } = (0, s.modMet fun x => { x with
      snap := x.acc.energy, snapSeq := (x.snapSeq + 1) % 2 ^ 32, snapTime := s.metClock }) ∧
    s.metServe { op := 2, tag := 0, arg := arg } = (0, s.modMet fun x => { x with logOut := x.entries arg 16 }) ∧
    s.metServe { op := 3, tag := 0, arg := arg } = s.timeSet arg ∧
    (3 < arg → s.metServe { op := 4, tag := 0, arg := arg } = (2, s)) ∧
    (arg ≤ 3 → arg ≠ s.met.acc.tariff → s.metServe { op := 4, tag := 0, arg := arg } =
      (0, (s.metLog s.met.events 0x12 (s.met.acc.tariff + 256 * arg) 0).modMet fun x => { x with acc := { x.acc with tariff := arg } })))

/-- R490, R491, R496-R507: the host interface: the link comes up and goes down with its doorbell; a function reset returns the host's indices;
the host writes tags and queue indices; snapshots are copied and completed; outbound reads end; cores at E level configure. -/
def Obligations.HostInterface : Prop :=
  (∀ s : State,
    (∀ (speed : Fin 4) (x8 : Bool), s.inReset = false → speed.val ≠ 0 →
      let u := ((s.set Fd.PCI_LINK.UP 1).set Fd.PCI_LINK.SPEED speed.val).set Fd.PCI_LINK.WIDTH (if x8 then 8 else 4)
      exec (.pcieLinkUp speed x8) s = .next (if s.get Fd.PCI_LINK.UP = 0 then u.linkChanged else u)) ∧
    (s.get Fd.PCI_LINK.UP ≠ 0 → s.pci.reads = [] →
      let u := s.setReg Rg.PCI_LINK 0
      let tags := u.usedTags.filter fun i => (u.tag i).wKind == 6
      exec .pcieLinkDown s = .next (if u.get Fd.PCI_HOST_STAT.STATE = 1 then
        (tags.foldl (fun v i => (v.tagStore .host (tagAddr i + 0x18) 1 0x08).2) u).linkChanged else u.linkChanged)) ∧
    (s.get Fd.PCI_LINK.UP = 0 → exec .pcieLinkDown s = .next s) ∧
    (s.inReset = false → exec .pciPerst s = .next (((s.linkDown.flr 0).flr 1).modPci fun p => { p with retryTo := s.now + 100000000 })) ∧
    (exec (.functionLevelReset 0) s = .next (s.modPci fun p => { p with msix := mapDel p.msix 0 })) ∧
    (exec (.functionLevelReset 1) s = .next ((List.range 16).foldl (fun v q => (v.set (Fd.PCI_MQ_IDX.H2D_HEAD q) 0).set (Fd.PCI_MQ_IDX.D2H_TAIL q) 0)
      (s.modPci fun p => { p with msix := mapDel p.msix 1 }))) ∧
    (∀ (id : Nat) (x : ObRead) (v : Word), mapGet? s.pci.reads id = some x → x.result = none → x.req ≠ reqNone →
      exec (.outboundReadComplete id true v) s = .next (s.modPci fun p => { p with
        reads := mapPut p.reads id { x with result := some (some v.toNat) } }) ∧
      exec (.outboundCompletionTimeout id) s = .next (s.obFail.modPci fun p => { p with
        reads := mapPut p.reads id { x with result := some none } }))) ∧
  (∀ s : State, s.get Fd.PCI_LINK.UP ≠ 0 → s.get Fd.CFG_STAT.SAFE_HOLD = 0 →
    (∀ (t : TagId) (v : Word) (q : Byte), let n := valueSize (s.tag t.val).vtype
      let value := (s.tagStore .host (tagAddr t.val) n (v.toNat % 2 ^ (8 * n))).2
      exec (.hostValueWrite t v) s = .next value ∧
      exec (.hostQualityWrite t q) s = .next (s.tagStore .host (tagAddr t.val + 0x18) 1 q.toNat).2 ∧
      exec (.hostValueQualityWrite t v q) s = .next (value.tagStore .host (tagAddr t.val + 0x18) 1 q.toNat).2) ∧
    (∀ (q : Fin 16) (v : Half), s.get (Fd.PCI_MQ_CFG.EN q.val) = 0 →
      exec (.h2dHeadWrite q v) s = .next s.hostDrop ∧ exec (.d2hTailWrite q v) s = .next s.hostDrop) ∧
    (∀ (q : Fin 16) (v : Half), s.get (Fd.PCI_MQ_CFG.EN q.val) ≠ 0 →
      ((v.toNat + 2 ^ 16 - s.get (Fd.PCI_MQ_IDX.H2D_TAIL q.val)) % 2 ^ 16 ≤ 2 ^ s.get (Fd.PCI_MQ_CFG.H2D_LOG2 q.val) →
        v.toNat ≠ s.get (Fd.PCI_MQ_IDX.H2D_HEAD q.val) →
        exec (.h2dHeadWrite q v) s = .next ((s.set (Fd.PCI_MQ_IDX.H2D_HEAD q.val) v.toNat).pulse (s.get (Fd.PCI_MQ_CFG.SRC q.val)))) ∧
      (2 ^ s.get (Fd.PCI_MQ_CFG.H2D_LOG2 q.val) < (v.toNat + 2 ^ 16 - s.get (Fd.PCI_MQ_IDX.H2D_TAIL q.val)) % 2 ^ 16 →
        exec (.h2dHeadWrite q v) s = .next s) ∧
      (exec (.d2hTailWrite q v) s = .next
        (if (s.get (Fd.PCI_MQ_IDX.D2H_HEAD q.val) + 2 ^ 16 - v.toNat) % 2 ^ 16 ≤ 2 ^ s.get (Fd.PCI_MQ_CFG.D2H_LOG2 q.val)
         then s.set (Fd.PCI_MQ_IDX.D2H_TAIL q.val) v.toNat else s)))) ∧
  (∀ s : State, s.get Fd.PCI_LINK.UP ≠ 0 → s.get Fd.CFG_STAT.SAFE_HOLD ≠ 0 → ∀ (t : TagId) (v : Word) (q : Fin 16) (h : Half),
    exec (.hostValueWrite t v) s = .next s.hostDrop ∧ exec (.h2dHeadWrite q h) s = .next s.hostDrop) ∧
  (∀ s : State, (s.frameRunning = true → s.frame.decided = true → s.pci.copied ≠ some s.frameNo →
      let u := (s.atTime (s.deadline + 100)).modPci fun p => { p with copied := some s.frameNo }
      exec .snapshotCopy s = .next (((List.range 4).filter fun w => u.get (Fd.PCI_SNAP_CFG.EN w) != 0 && u.due (u.get (Fd.PCI_SNAP_CFG.CLASS w))).foldl
        (fun v w => v.snapBegin w) u)) ∧
    (∀ w : Fin 4, (s.snap w.val).writing = false → exec (.snapshotComplete w) s = .next s) ∧
    (∀ w : Fin 4, (s.snap w.val).writing = true → let k := (s.snap w.val).k
      let u := (s.homeWrite snapWho (s.get (Fd.PCI_SNAP_BASE.BASE w.val) * 0x80_0000 + (k % 2) * 0x40_0000) (leBytes 8 (k + 1))).setSnap w.val
        { k := k + 1, writing := false }
      let u := (u.set (Fd.PCI_SNAP_STAT.LAST w.val) (k % 2)).set (Fd.PCI_SNAP_STAT.SEQ w.val) (k + 1)
      exec (.snapshotComplete w) s = .next (if u.get (Fd.PCI_SNAP_CFG.INT w.val) = 0 then u else u.msix 1 0))) ∧
  (∀ (s : State) (r : Requester), let u := accepted s r
    (∀ (w : Fin 4) (v : Word), Admitted s r (Rg.PCI_SNAP_CFG w.val) 8 → exec (.snapshotEnable r w v) s = .next
      (if u.isE r then u.snapCfg w.val v.toNat else u)) ∧
    (∀ (q : Fin 16) (v : Word), Admitted s r (Rg.PCI_MQ_CFG q.val) 8 → exec (.mqEnable r q v) s = .next
      (if u.isE r then u.mqCfg q.val v.toNat else u)) ∧
    (∀ (q : Fin 16) (v : Half), Admitted s r (Rg.PCI_MQ_IDX q.val) 8 → u.mayIndex r q.val = true → v.toNat ≠ u.get (Fd.PCI_MQ_IDX.D2H_HEAD q.val) →
      (v.toNat + 2 ^ 16 - u.get (Fd.PCI_MQ_IDX.D2H_TAIL q.val)) % 2 ^ 16 ≤ 2 ^ u.get (Fd.PCI_MQ_CFG.D2H_LOG2 q.val) →
      exec (.d2hHeadWrite r q v) s = .next ((u.set (Fd.PCI_MQ_IDX.D2H_HEAD q.val) v.toNat).msix 1 (2 + q.val))) ∧
    (Admitted s r Rg.PCI_CTL 4 → exec (.hostIrq r) s = .next (if u.isE r then u.msix 0 2 else u)) ∧
    (Admitted s r Rg.PCI_CTL 4 → exec (.pciCntClr r) s = .next (if u.isE r then
      ((u.set Fd.PCI_WDROP_CNT.COUNT 0).set Fd.PCI_OB_DROP_CNT.COUNT 0).set Fd.PCI_CPL_TO_CNT.COUNT 0 else u)))

/-- R510-R513, R515-R522, R531, R532: supply, holds and resets, retention, sprint, temperature, the time outputs. -/
def Obligations.PowerAndResets : Prop :=
  (∀ s : State, 
    (∀ a b : Bool, s.alwaysOn = false → let u := (s.modStart fun x => { x with phase := .rising }).modSec fun x => { x with
        hwClock := ((Config.freeWord s.freeCnt).toNat : Int) - s.now }
      let u : State := { u with freeCnt := u.freeCnt + 1, pins := { u.pins with xspiReset := some s.now } }
      exec (.lockoutRelease a b) s = .next ((((u.set Fd.PWR_RST_CAUSE.KIND 1).set Fd.PWR_RST_CAUSE.SRC 0).modPower fun p =>
        { p with feedA := a, feedB := b, disarmed := false }).showFacts)) ∧
    (let t := s.showFacts
     t.get Fd.PWR_STAT.FEED_A = (if s.power.feedA then 1 else 0) ∧ t.get Fd.PWR_STAT.FEED_B = (if s.power.feedB then 1 else 0) ∧
      t.get Fd.PWR_STAT.HOLD_OK = (if s.power.holdOk then 1 else 0) ∧ t.get Fd.PWR_STAT.HOLD_FAULT = (if s.power.holdFault then 1 else 0) ∧
      t.get Fd.PWR_STAT.PFW = (if s.sec.pfHeld then 1 else 0)) ∧
    (s.alwaysOn = false → exec .lockout s = .next s) ∧
    (s.alwaysOn = true → Answers .lockout s fun t => t.mem = [] ∧ t.groves = [] ∧ t.cores = [] ∧ t.start.phase = .unpowered ∧
      t.met.running = false ∧ t.sec.owners = s.sec.owners ∧ t.met.stored = s.met.stored ∧ t.met.slots = s.met.slots) ∧
    (s.alwaysOn = true → s.sec.pfHeld = false → s.power.disarmed = false → s.sec.queue = [] → s.phase = .done →
      let u := ((s.feed false false).feed true false).modPower fun p => { p with disarmed := true }
      exec .powerFailWarning s = .next ((((u.set Fd.PWR_STAT.PFW 1).modPower fun p => { p with warnedAt := u.now }).modSec fun x => { x with
        pfHeld := true }).framesStop)) ∧
    (s.sec.pfHeld = true ∨ s.power.disarmed = true → exec .powerFailWarning s = .next s) ∧
    (s.sec.pfHeld = true → exec .powerFailColdReset s = .next
      ((((s.atTime (s.power.warnedAt + 4500000)).enterReset kindCold srcPowerFail 1).set Fd.PWR_STAT.PFW 0).modSec fun x => { x with
        pfHeld := false })) ∧
    (s.get Fd.PWR_STAT.PFW ≠ 0 → s.phase = .done → exec .powerFailRelease s = .next
      ((List.range 72).foldl (fun v p => v.powerFailRelease p) (s.atTime (s.power.warnedAt + 100000)))) ∧
    (∀ b good : Bool, s.alwaysOn = true →
      let u := s.modPower fun p =>
        { p with feedA := if b then p.feedA else good, feedB := if b then good else p.feedB, disarmed := p.disarmed && !good }
      exec (.feedLost b good) s = .next (if (if b then s.power.feedB else s.power.feedA) = good then s
        else (u.showFacts.set Fd.PWR_STAT.FEED_CHG 1).pulse (s.get Fd.PWR_IRQ_SRC.FEED_SRC))) ∧
    (s.alwaysOn = true → let u := (s.modPower fun p => { p with holdOk := false, holdFault := true }).showFacts
      exec .holdUpStoreNotCharged s = .next (u.pulse (s.get Fd.PWR_IRQ_SRC.FEED_SRC)) ∧
      exec .holdUpStoreCharged s = .next (s.modPower fun p => { p with holdOk := true, holdFault := false }).showFacts) ∧
    (s.alwaysOn = true → exec .coldReset s = .next (((s.enterReset kindCold srcRstN 1).set Fd.PWR_STAT.PFW 0).modSec fun x => { x with
      pfHeld := false })) ∧
    (s.alwaysOn = true → exec .poweredLedgerUpdate s = .next (s.set Fd.PWR_LEDGER_POWERED.MS (s.get Fd.PWR_LEDGER_POWERED.MS + 60000))) ∧
    (s.get Fd.PWR_SPRINT.COOL ≠ 0 → exec .cooldownEnd s = .next ((s.atTime (s.get Fd.PWR_COOL_END.NS)).set Fd.PWR_SPRINT.COOL 0)) ∧
    (∀ t0, s.power.sprintSince = some t0 → s.frameRunning = false ∨ t0 + 30000000000 < s.tickTime + s.period →
      exec .sprintLimitExpiry s = .next (s.sprintEnd t0)) ∧
    (s.inReset = false → s.get Fd.TIME_STAT.ACQUIRED ≠ 0 → s.pins.ppsOut ≠ some (roundUp s.now 1000000000) →
      exec .ppsOut s = .next { s.atTime (roundUp s.now 1000000000) with pins := { s.pins with ppsOut := some (roundUp s.now 1000000000) } })) ∧
  (∀ (s : State) (r : Requester), let u := accepted s r
    (∀ key : Byte, Admitted s r Rg.PWR_CTL 4 → exec (.warmRst r key) s = .next
      (if u.mayPower r = true ∧ key = 0xA5 then u.enterReset kindWarm srcPwrCtl 1 else u)) ∧
    (∀ on : Bool, Admitted s r Rg.PWR_SPRINT 4 → exec (.sprintRequest r on) s = .next
      (if u.mayPower r then u.set Fd.PWR_SPRINT.REQ (if on then 1 else 0) else u)) ∧
    (∀ v : Word32, Admitted s r Rg.PWR_RET 4 → exec (.retentionWrite r v) s = .next
      (if u.mayPower r = true ∧ (∀ b, b ∈ bitsSet 28 v.toNat → u.bankInUse b = false) then u.set Fd.PWR_RET.BANKS v.toNat else u)) ∧
    (Admitted s r Rg.THM_CTL 4 → exec (.maxClr r) s = .next
      (if u.mayPower r then (List.range 9).foldl (fun w k => w.set (Fd.THM_MAX.T k) 0x8000) u else u)))

/-- R519-R522: sprint is granted at a tick only when none of its conditions fails, is charged 30 s in the ledger, ends at its limit or when its
request, the temperature or the supply does, and what was not used is refunded; a temperature sample keeps readings and maxima, sets the
flags whose thresholds are passed and reports a change once. -/
def Obligations.SprintAndTemperature : Prop :=
  (∀ (s : State) (t period : Nat), s.power.sprintSince = none → s.get Fd.PWR_SPRINT.COOL = 0 → s.get Fd.PWR_SPRINT.REQ ≠ 0 →
    (s.sprintRefusal = 0 → s.sprintTick t period = s.sprintGrant) ∧
    (s.sprintRefusal ≠ 0 → s.sprintTick t period = s.set Fd.PWR_SPRINT.REFUSE s.sprintRefusal)) ∧
  (∀ s : State, s.get Fd.PWR_LEDGER_SPRINT.MS + 30000 < 2 ^ 64 →
    s.sprintGrant.get Fd.PWR_SPRINT.ACTIVE = 1 ∧ s.sprintGrant.get Fd.PWR_LEDGER_SPRINT.MS = s.get Fd.PWR_LEDGER_SPRINT.MS + 30000 ∧
    s.sprintGrant.power.sprintSince = some s.now) ∧
  (∀ (s : State) (t0 : Nat), t0 ≤ s.now → s.now + 270000000000 < 2 ^ 64 → 30000 ≤ s.get Fd.PWR_LEDGER_SPRINT.MS →
    let used := min 30000 (ceilDiv (s.now - t0) 1000000)
    let t := s.sprintEnd t0
    t.get Fd.PWR_LEDGER_SPRINT.MS = s.get Fd.PWR_LEDGER_SPRINT.MS - (30000 - used) ∧ t.get Fd.PWR_SPRINT.ACTIVE = 0 ∧
    t.get Fd.PWR_SPRINT.REQ = 0 ∧ t.get Fd.PWR_SPRINT.COOL = 1 ∧ t.get Fd.PWR_COOL_END.NS = s.now + 270000000000 ∧ t.power.sprintSince = none) ∧
  (∀ (s : State) (v : List Half), s.inReset = false → v.length = 9 →
    Answers (.thermalSample v) s fun t =>
      (∀ k, k < 9 → t.get (Fd.THM_TEMP.T k) = ((v[k]?).getD 0).toNat ∧ t.get (Fd.THM_TEMP.VALID k) = 1 ∧
        sext 16 (t.get (Fd.THM_MAX.T k)) = max (sext 16 (s.get (Fd.THM_MAX.T k))) (sext 16 ((v[k]?).getD 0).toNat)) ∧
      ((∃ k, k < 8 ∧ 101 * 16 ≤ sext 16 ((v[k]?).getD 0).toNat) → t.get Fd.THM_STAT.WARN = 1) ∧
      ((∃ k, k < 8 ∧ 105 * 16 < sext 16 ((v[k]?).getD 0).toNat) → t.get Fd.THM_STAT.OVER = 1) ∧
      (95 * 16 < sext 16 ((v[8]?).getD 0).toNat → t.get Fd.THM_STAT.CASE_HIGH = 1))

/-- R457, R535: core debug while it is open and its instruction loaded: halt, resume and step, registers of a halted core, the system bus as a core
at E level but for the sealed bank; closed, it does nothing. -/
def Obligations.CoreDebug : Prop :=
  (∀ (op : DmiOp) (s : State), s.sec.tapInstr ≠ 0x11 ∨ s.coreDebug = false → exec (.dmiAccess op) s = .next s) ∧
  (∀ s : State, s.sec.tapInstr = 0x11 → s.coreDebug = true → ∀ c : CoreId,
    (exec (.dmiAccess (.halt c)) s = .next (s.modCore c.val fun k => { k.discard with halted := true, stepping := false })) ∧
    ((s.core c.val).halted = true →
      exec (.dmiAccess (.resume c)) s = .next (s.modCore c.val fun k => { k with halted := false, stepping := false }) ∧
      exec (.dmiAccess (.step c)) s = .next (s.modCore c.val fun k => { k with halted := false, stepping := true }) ∧
      (∀ i, i < 32 → exec (.dmiAccess (.readReg c (BitVec.ofNat 16 (0x1000 + i)))) s =
        .next (s.answer (.data (BitVec.ofNat 64 (s.x c.val i))))) ∧
      (∀ i v, i < 32 → exec (.dmiAccess (.writeReg c (BitVec.ofNat 16 (0x1000 + i)) v)) s =
        .next ((s.setX c.val i v.toNat).answer .ok)) ∧
      exec (.dmiAccess (.readReg c 0x7B1)) s = .next (s.answer (.data (BitVec.ofNat 64 (s.pc c.val))))) ∧
    ((s.core c.val).halted = false → ∀ n v, exec (.dmiAccess (.readReg c n)) s = .next (s.answer .busError) ∧
      exec (.dmiAccess (.writeReg c n v)) s = .next (s.answer .busError)) ∧
    (∀ (a : PAddr) (n : Nat) (v : Word), targetOf a.toNat ≠ .sealed → targetOf (a.toNat + n - 1) ≠ .sealed →
      let at_ (l : Level) (u : State) := u.modCtx c.val fun k => { k with level := l }
      exec (.dmiAccess (.busRead c a n)) s = .next (at_ (s.level c.val) ((at_ .e s).busRead (.core c) a.toNat n)) ∧
      exec (.dmiAccess (.busWrite c a n v)) s = .next (at_ (s.level c.val) ((at_ .e s).busWrite (.core c) a.toNat n v.toNat))) ∧
    (∀ (a : PAddr) (n : Nat) (v : Word), targetOf a.toNat = .sealed →
      exec (.dmiAccess (.busRead c a n)) s = .next (s.answer .busError) ∧
      exec (.dmiAccess (.busWrite c a n v)) s = .next (s.answer .busError)))

/-- The frame of memory and flash: a command that is none of those that store leaves every byte of memory as it was, and one that is none of
those that write flash leaves the flash as it was (R16, R45: other commands reach neither). -/
def Obligations.FrameOfMemory : Prop :=
  ∀ (c : Instr) (s t : State), exec c s = .next t →
    (mayStore c = false → ∀ a, t.byte a = s.byte a) ∧ (mayFlash c = false → ∀ a, memByte 0xFF t.flash a = memByte 0xFF s.flash a)

/-- The frame of the units: a command leaves each unit that it is not named for exactly as it was. -/
def Obligations.FrameOfUnits : Prop :=
  ∀ (c : Instr) (s t : State), exec c s = .next t →
    (mayMeter c = false → t.met = s.met) ∧ (mayLoop c = false → t.loop = s.loop) ∧ (mayField c = false → t.field = s.field) ∧
    (mayCascade c = false → t.cascade = s.cascade) ∧ (mayGroves c = false → t.groves = s.groves)

/-- R313, R334: an instruction that is no taken branch retires: the next one follows, or the loop goes back while its count is above 1; it changes
no register but the loop's own, no level, no memory and no other core's context, and counts as one; a core that took no line from its shadow
buffer leaves every other core as it was. -/
def Obligations.Retirement : Prop :=
  ∀ (s : State) (c len : Nat),
    let t := s.retire c len
    let next := (s.pc c + len) % 2 ^ 64
    let n := s.csr c csrLoopCount
    let back := bitOf (s.csr c csrLoopCfg) 0 = true ∧ s.csr c csrLoopExit = next
    (back ∧ 1 < n → t.pc c = s.csr c csrLoopStart ∧ t.csr c csrLoopCount = n - 1) ∧
    (back ∧ n = 1 → t.pc c = next ∧ t.csr c csrLoopCount = 0 ∧ bitOf (t.csr c csrLoopCfg) 0 = false) ∧
    (¬ back ∨ n = 0 → t.pc c = next ∧ ∀ i, t.csr c i = s.csr c i) ∧
    (∀ i, i ≠ csrLoopCount → i ≠ csrLoopCfg → t.csr c i = s.csr c i) ∧
    (∀ i, t.x c i = s.x c i) ∧ (∀ i, t.fr c i = s.fr c i) ∧ t.level c = s.level c ∧ t.mem = s.mem ∧
    (t.core c).instret = (s.core c).instret + 1 ∧ (∀ d, d ≠ c → (t.core d).ctx = (s.core d).ctx) ∧
    ((s.core c).used = [] → ∀ d, d ≠ c → t.core d = s.core d)

/-- R18: an access of the register window is one of a whole register at its width, of an aligned half of a 64-bit one, or of a reserved
offset; any other is not performed and is a bus error. -/
def Obligations.RegisterWidths : Prop :=
  (∀ off n : Nat,
    (∀ d o, regAcc off n = .whole d o → off % n = 0 ∧ n = (if d.wide then 8 else 4)) ∧
    (∀ d o, regAcc off n = .low d o ∨ regAcc off n = .high d o → off % 4 = 0 ∧ n = 4 ∧ d.wide = true) ∧
    (off % n ≠ 0 ∨ (n ≠ 4 ∧ n ≠ 8) → regAcc off n = .bad) ∧
    (∀ d o, regAt off = some (d, o) → d.wide = false → n ≠ 4 → regAcc off n = .bad)) ∧
  (∀ (r : Requester) (a : PAddr) (s : State), targetOf a.toNat = .window → s.present r = true → regAcc (a.toNat - winBase) 4 = .bad →
    (s.reaches r .read a.toNat 4 = true → exec (.lowWordRead r a) s = .next ((s.fwUsed r).answer .busError) ∧
      exec (.highWordRead r a) s = .next ((s.fwUsed r).answer .busError)) ∧
    ∀ v : Word32, s.reaches r .write a.toNat 4 = true →
      exec (.lowWordWrite r a v) s = .next ((accepted s r).answer .busError) ∧
      exec (.highWordWrite r a v) s = .next ((accepted s r).answer .busError)) ∧
  (∀ (r : Requester) (a : PAddr) (n : Nat) (v : Word) (s : State), targetOf a.toNat = .window → s.present r = true →
    regAcc (a.toNat - winBase) n = .bad → s.reaches r .write a.toNat n = true →
    exec (.registerWrite r a n v) s = .next ((accepted s r).answer .busError))

/-- R350: an interrupt whose handler level is H is deliverable to a core that runs below H, or at H with IE 1; while the core runs above H it
waits. -/
def Obligations.DeliverableInterrupts : Prop :=
  ∀ (s : State) (c : CoreId),
    let h := s.intLevel c.val
    let l := s.level c.val
    (s.intDeliverable c.val = true ↔ s.runs c.val = true ∧
      (levelNo l < levelNo h ∨ (l = h ∧ bits (s.csr c.val (hStatus h)) 0 0 = 1))) ∧
    (∀ src, s.offerOf c.val = some src → s.intDeliverable c.val = true) ∧
    (levelNo h < levelNo l ∨ (l = h ∧ bits (s.csr c.val (hStatus h)) 0 0 = 0) → exec (.interruptTaken c) s = .next s)

/-- R407: an edge source accepts PULSE only; a PULSE sets PENDING, whether it is 1 already or the source is ACTIVE; and a source that is pended
while it is ACTIVE is offered again after its EOI. -/
def Obligations.EdgeSources : Prop :=
  ∀ (s : State) (w : Writer) (src : Nat), src < 4096 → s.get (Fd.IRQ_SRC_CFG.LEVEL src) = 0 →
    (∀ op, op ≠ 0 → (s.ring w src op).get (Fd.IRQ_SRC_CFG.PENDING src) = s.get (Fd.IRQ_SRC_CFG.PENDING src)) ∧
    (s.maySignal w src 0 = true → let t := s.ring w src 0
      t = s.set (Fd.IRQ_SRC_CFG.PENDING src) 1 ∧ t.get (Fd.IRQ_SRC_CFG.PENDING src) = 1 ∧
      (s.get (Fd.IRQ_SRC_CFG.EN src) ≠ 0 → src ∈ (t.endActive src).candidates) ∧
      (s.get (Fd.IRQ_SRC_CFG.ACTIVE src) ≠ 0 → src ∉ t.candidates))
end

