-- ==== Sys2Proof/Laws/Map.lean ====
section
/-! SUPPORT. Laws of the finite maps: what a read gives after an update, and that every update keeps the canonical form. -/

namespace Sys2Proof.Machine

variable {α : Type}

/-! ### Reads after updates -/

@[simp] theorem mapGet?_put (m : List (Nat × α)) (i j : Nat) (x : α) :
    mapGet? (mapPut m i x) j = if i = j then some x else mapGet? m j := by
  induction m with
  | nil => simp [mapPut, mapGet?]
  | cons e t ih =>
    obtain ⟨k, v⟩ := e
    by_cases h : k < i
    · simp only [mapPut, h, if_true, mapGet?, ih]
      by_cases hk : k = j
      · subst hk; have : i ≠ k := by omega
        simp [this]
      · simp [hk]
    · by_cases hi : k = i
      · subst hi
        by_cases hj : k = j <;> simp [mapPut, mapGet?, hj]
      · simp only [mapPut, h, if_false, beq_iff_eq, hi, mapGet?]

@[simp] theorem mapGet_put (d : α) (m : List (Nat × α)) (i j : Nat) (x : α) :
    mapGet d (mapPut m i x) j = if i = j then x else mapGet d m j := by
  unfold mapGet; rw [mapGet?_put]; split <;> simp

theorem mapGet?_del (m : List (Nat × α)) (i j : Nat) : mapGet? (mapDel m i) j = if i = j then none else mapGet? m j := by
  induction m with
  | nil => simp [mapDel, mapGet?]
  | cons e t ih =>
    obtain ⟨k, v⟩ := e
    unfold mapDel at ih ⊢
    by_cases hk : k = i
    · subst hk
      simp only [List.filter_cons, bne_self_eq_false, Bool.false_eq_true, if_false, ih, mapGet?, beq_iff_eq]
      split
      · rfl
      · rfl
    · simp only [List.filter_cons, bne_iff_ne, ne_eq, hk, not_false_eq_true, if_true, mapGet?, ih, beq_iff_eq]
      by_cases hj : k = j
      · subst hj; simp [Ne.symm hk]
      · simp [hj]

theorem mapGet?_del_ne (m : List (Nat × α)) {i j : Nat} (h : i ≠ j) : mapGet? (mapDel m i) j = mapGet? m j := by simp [mapGet?_del, h]

/-- A read after a write. -/
theorem mapGet_set [DecidableEq α] {d : α} {m : List (Nat × α)} (i j : Nat) (x : α) :
    mapGet d (mapSet d m i x) j = if i = j then x else mapGet d m j := by
  unfold mapSet
  split
  · rename_i h; unfold mapGet; rw [mapGet?_del]; split <;> simp [h]
  · exact mapGet_put d m i j x

/-! ### The canonical form -/

/-- Every key of a list is above a bound. -/
def keysAbove (b : Nat) (m : List (Nat × α)) : Prop := ∀ e ∈ m, b < e.1

theorem keysAbove_put {b i : Nat} {x : α} {m : List (Nat × α)} (hm : keysAbove b m) (hi : b < i) : keysAbove b (mapPut m i x) := by
  induction m with
  | nil => intro e he; simp only [mapPut, List.mem_singleton] at he; subst he; exact hi
  | cons e t ih =>
    obtain ⟨k, v⟩ := e
    have hk : b < k := hm (k, v) List.mem_cons_self
    have ht : keysAbove b t := fun e he => hm e (List.mem_cons_of_mem _ he)
    intro e he
    simp only [mapPut] at he
    split at he
    · rcases List.mem_cons.mp he with rfl | he
      · exact hk
      · exact ih ht e he
    · split at he
      · rcases List.mem_cons.mp he with rfl | he
        · exact hi
        · exact ht e he
      · rcases List.mem_cons.mp he with rfl | he
        · exact hi
        · exact hm e he

/-- In canonical form, a key below every listed one reads as the default. -/
theorem mapGet?_above {m : List (Nat × α)} {i : Nat} (h : keysAbove i m) : mapGet? m i = none := by
  induction m with
  | nil => rfl
  | cons e t ih =>
    obtain ⟨k, v⟩ := e
    have hk : i < k := h (k, v) List.mem_cons_self
    have : k ≠ i := by omega
    simp [mapGet?, this, ih fun e he => h e (List.mem_cons_of_mem _ he)]

theorem mapGet?_filter_ne {m : List (Nat × α)} {p : Nat → Bool} {j : Nat} (h : p j = true) :
    mapGet? (m.filter fun e => p e.1) j = mapGet? m j := by
  induction m with
  | nil => rfl
  | cons e t ih =>
    obtain ⟨k, v⟩ := e
    rw [List.filter_cons]
    split
    · simp only [mapGet?, ih]
    · rename_i hp
      have : k ≠ j := by rintro rfl; exact hp h
      simp [mapGet?, this, ih]

theorem mapGet?_filter_out {m : List (Nat × α)} {p : Nat → Bool} {j : Nat} (h : p j = false) :
    mapGet? (m.filter fun e => p e.1) j = none := by
  induction m with
  | nil => rfl
  | cons e t ih =>
    obtain ⟨k, v⟩ := e
    rw [List.filter_cons]
    split
    · rename_i hp
      have : k ≠ j := by rintro rfl; rw [h] at hp; exact absurd hp (by decide)
      simp [mapGet?, this, ih]
    · exact ih

variable [DecidableEq α]

/-- The canonical form, one entry at a time. -/
theorem mapWf_cons (d : α) (k : Nat) (v : α) (t : List (Nat × α)) :
    mapWf d ((k, v) :: t) = true ↔ v ≠ d ∧ keysAbove k t ∧ mapWf d t = true := by
  induction t generalizing k v with
  | nil => simp [mapWf, keysAbove]
  | cons e t ih =>
    obtain ⟨k', v'⟩ := e
    constructor
    · intro h
      simp only [mapWf, Bool.and_eq_true, bne_iff_ne, decide_eq_true_eq] at h
      obtain ⟨⟨hv, hk⟩, ht⟩ := h
      refine ⟨hv, ?_, ht⟩
      intro e he
      rcases List.mem_cons.mp he with rfl | he
      · exact hk
      · exact Nat.lt_trans hk (((ih k' v').mp ht).2.1 e he)
    · rintro ⟨hv, hk, ht⟩
      simp only [mapWf, Bool.and_eq_true, bne_iff_ne, decide_eq_true_eq]
      exact ⟨⟨hv, hk (k', v') List.mem_cons_self⟩, ht⟩

theorem mapWf_nil (d : α) : mapWf d ([] : List (Nat × α)) = true := rfl

/-- Inserting a value that is not the default keeps the form. -/
theorem mapWf_put {d : α} {m : List (Nat × α)} {i : Nat} {x : α} (hm : mapWf d m = true) (hx : x ≠ d) :
    mapWf d (mapPut m i x) = true := by
  induction m with
  | nil => exact (mapWf_cons d i x []).mpr ⟨hx, fun e he => by simp at he, rfl⟩
  | cons e t ih =>
    obtain ⟨k, v⟩ := e
    obtain ⟨hv, hk, ht⟩ := (mapWf_cons d k v t).mp hm
    simp only [mapPut]
    split
    · rename_i h
      exact (mapWf_cons ..).mpr ⟨hv, keysAbove_put hk h, ih ht⟩
    · split
      · rename_i h; simp only [beq_iff_eq] at h; subst h
        exact (mapWf_cons ..).mpr ⟨hx, hk, ht⟩
      · rename_i h1 h2
        simp only [beq_iff_eq] at h2
        refine (mapWf_cons ..).mpr ⟨hx, ?_, hm⟩
        intro e he
        rcases List.mem_cons.mp he with rfl | he
        · show i < k; omega
        · have := hk e he; show i < e.1; omega

theorem mapWf_filter {d : α} {m : List (Nat × α)} (p : Nat × α → Bool) (hm : mapWf d m = true) : mapWf d (m.filter p) = true := by
  induction m with
  | nil => exact hm
  | cons e t ih =>
    obtain ⟨k, v⟩ := e
    obtain ⟨hv, hk, ht⟩ := (mapWf_cons d k v t).mp hm
    rw [List.filter_cons]
    split
    · exact (mapWf_cons ..).mpr ⟨hv, fun e he => hk e (List.mem_filter.mp he).1, ih ht⟩
    · exact ih ht

theorem mapWf_del {d : α} {m : List (Nat × α)} {i : Nat} (hm : mapWf d m = true) : mapWf d (mapDel m i) = true := mapWf_filter _ hm

/-- Setting a key keeps the form: the default value is not listed. -/
theorem mapWf_set {d : α} {m : List (Nat × α)} {i : Nat} {x : α} (hm : mapWf d m = true) : mapWf d (mapSet d m i x) = true := by
  unfold mapSet
  split
  · exact mapWf_del hm
  · rename_i h; exact mapWf_put hm h

theorem mapWf_clear {d : α} {m : List (Nat × α)} {lo hi : Nat} (hm : mapWf d m = true) : mapWf d (mapClear m lo hi) = true :=
  mapWf_filter _ hm

/-- A write leaves every other key alone. -/
theorem mapGet_set_ne (d : α) (m : List (Nat × α)) {i j : Nat} (x : α) (h : i ≠ j) : mapGet d (mapSet d m i x) j = mapGet d m j := by
  unfold mapSet
  split
  · simp [mapGet, mapGet?_del_ne m h]
  · simp [h]

/-- Two maps in form join to one when every key of the first is below every key of the second. -/
theorem mapWf_append {d : α} {a b : List (Nat × α)} (ha : mapWf d a = true) (hb : mapWf d b = true)
    (hab : ∀ x ∈ a, ∀ y ∈ b, x.1 < y.1) : mapWf d (a ++ b) = true := by
  induction a with
  | nil => exact hb
  | cons e t ih =>
    obtain ⟨k, v⟩ := e
    obtain ⟨h1, h2, h3⟩ := (mapWf_cons d k v t).mp ha
    refine (mapWf_cons d k v (t ++ b)).mpr ⟨h1, ?_, ih h3 fun x hx y hy => hab x (List.mem_cons_of_mem _ hx) y hy⟩
    intro e he
    rcases List.mem_append.mp he with he | he
    · exact h2 e he
    · exact hab (k, v) List.mem_cons_self e he

/-- Equal values at rising keys are in form. -/
theorem mapWf_range {d x : α} (hx : x ≠ d) (f : Nat → Nat) (hf : ∀ i j, i < j → f i < f j) (n : Nat) :
    mapWf d ((List.range n).map fun e => (f e, x)) = true := by
  induction n with
  | zero => rfl
  | succ n ih =>
    rw [List.range_succ, List.map_append]
    refine mapWf_append ih (by simp [mapWf, hx]) ?_
    intro a ha b hb
    simp only [List.mem_map, List.mem_range, List.map_cons, List.map_nil, List.mem_singleton] at ha hb
    obtain ⟨i, hi, rfl⟩ := ha
    subst hb
    exact hf i n hi

omit [DecidableEq α] in
/-- Clearing a range leaves every key outside it alone. -/
theorem mapGet_clear_out (d : α) (m : List (Nat × α)) {lo hi j : Nat} (h : j < lo ∨ hi ≤ j) :
    mapGet d (mapClear m lo hi) j = mapGet d m j := by
  unfold mapGet mapClear
  rw [mapGet?_filter_ne (p := fun a => a < lo || hi ≤ a)]
  simp only [Bool.or_eq_true, decide_eq_true_eq]; exact h

omit [DecidableEq α] in
/-- A cleared key reads as the default. -/
theorem mapGet_clear_in (d : α) (m : List (Nat × α)) {lo hi j : Nat} (h1 : lo ≤ j) (h2 : j < hi) :
    mapGet d (mapClear m lo hi) j = d := by
  unfold mapGet mapClear
  rw [mapGet?_filter_out (p := fun a => a < lo || hi ≤ a)]
  · rfl
  · simp only [Bool.or_eq_false_iff, decide_eq_false_iff_not]; omega

/-! ### Byte memories -/

theorem memPut_wf {d : Byte} {bs : List Byte} {m : List Host.Cell} {a : Nat} (hm : mapWf d m = true) : mapWf d (memPut d m a bs) = true := by
  induction bs generalizing m a with
  | nil => exact hm
  | cons b bs ih => exact ih (mapWf_set hm)

/-- A write leaves every byte outside it alone. -/
theorem memByte_put_out (d : Byte) (bs : List Byte) (m : List Host.Cell) {a x : Nat} (h : x < a ∨ a + bs.length ≤ x) :
    memByte d (memPut d m a bs) x = memByte d m x := by
  induction bs generalizing m a with
  | nil => rfl
  | cons b bs ih =>
    simp only [List.length_cons] at h
    rw [memPut, ih (mapSet d m a b) (by omega)]
    exact mapGet_set_ne d m b (by omega)

/-- A read of a byte just written. -/
theorem memByte_put_in {d : Byte} (bs : List Byte) {m : List Host.Cell} {a : Nat} (i : Nat) (hi : i < bs.length) :
    memByte d (memPut d m a bs) (a + i) = bs[i] := by
  induction bs generalizing m a i with
  | nil => simp at hi
  | cons b bs ih =>
    cases i with
    | zero =>
      rw [memPut, memByte_put_out d bs _ (by omega)]
      show mapGet d (mapSet d m a b) (a + 0) = b
      rw [mapGet_set]; simp
    | succ i =>
      have := ih (m := mapSet d m a b) i (by simpa using hi) (a := a + 1)
      rw [memPut]
      simpa [Nat.add_assoc, Nat.add_comm 1 i] using this

end Sys2Proof.Machine
end

