-- ==== Sys2Proof/Laws/State.lean ====
section
/-! SUPPORT. What each update of the state leaves alone, field by field and read by read, and what it changes. -/

namespace Sys2Proof.Machine

variable (s : State)

/-! ### setReg -/

@[simp] theorem State.setReg_now (o v : Nat) : (s.setReg o v).now = s.now := rfl
@[simp] theorem State.setReg_mem (o v : Nat) : (s.setReg o v).mem = s.mem := rfl
@[simp] theorem State.setReg_flash (o v : Nat) : (s.setReg o v).flash = s.flash := rfl
@[simp] theorem State.setReg_pending (o v : Nat) : (s.setReg o v).pending = s.pending := rfl
@[simp] theorem State.setReg_resp (o v : Nat) : (s.setReg o v).resp = s.resp := rfl
@[simp] theorem State.setReg_freeCnt (o v : Nat) : (s.setReg o v).freeCnt = s.freeCnt := rfl
@[simp] theorem State.setReg_start (o v : Nat) : (s.setReg o v).start = s.start := rfl
@[simp] theorem State.setReg_frame (o v : Nat) : (s.setReg o v).frame = s.frame := rfl
@[simp] theorem State.setReg_signal (o v : Nat) : (s.setReg o v).signal = s.signal := rfl
@[simp] theorem State.setReg_loop (o v : Nat) : (s.setReg o v).loop = s.loop := rfl
@[simp] theorem State.setReg_field (o v : Nat) : (s.setReg o v).field = s.field := rfl
@[simp] theorem State.setReg_cascade (o v : Nat) : (s.setReg o v).cascade = s.cascade := rfl
@[simp] theorem State.setReg_groves (o v : Nat) : (s.setReg o v).groves = s.groves := rfl
@[simp] theorem State.setReg_gcmd (o v : Nat) : (s.setReg o v).gcmd = s.gcmd := rfl
@[simp] theorem State.setReg_cores (o v : Nat) : (s.setReg o v).cores = s.cores := rfl
@[simp] theorem State.setReg_runStacks (o v : Nat) : (s.setReg o v).runStacks = s.runStacks := rfl
@[simp] theorem State.setReg_coh (o v : Nat) : (s.setReg o v).coh = s.coh := rfl
@[simp] theorem State.setReg_power (o v : Nat) : (s.setReg o v).power = s.power := rfl
@[simp] theorem State.setReg_pins (o v : Nat) : (s.setReg o v).pins = s.pins := rfl
@[simp] theorem State.setReg_met (o v : Nat) : (s.setReg o v).met = s.met := rfl
@[simp] theorem State.setReg_sec (o v : Nat) : (s.setReg o v).sec = s.sec := rfl
@[simp] theorem State.setReg_dma (o v : Nat) : (s.setReg o v).dma = s.dma := rfl
@[simp] theorem State.setReg_pci (o v : Nat) : (s.setReg o v).pci = s.pci := rfl
@[simp] theorem State.setReg_byte (o v : Nat) (i : Nat) : (s.setReg o v).byte i = s.byte i := rfl
@[simp] theorem State.setReg_rdB (o v : Nat) (i k : Nat) : (s.setReg o v).rdB i k = s.rdB i k := rfl
@[simp] theorem State.setReg_rd (o v : Nat) (i k : Nat) : (s.setReg o v).rd i k = s.rd i k := rfl
@[simp] theorem State.setReg_core (o v : Nat) (i : Nat) : (s.setReg o v).core i = s.core i := rfl
@[simp] theorem State.setReg_grv (o v : Nat) (i : Nat) : (s.setReg o v).grv i = s.grv i := rfl
@[simp] theorem State.setReg_grv? (o v : Nat) (i : Nat) : (s.setReg o v).grv? i = s.grv? i := rfl
@[simp] theorem State.setReg_port (o v : Nat) (i : Nat) : (s.setReg o v).port i = s.port i := rfl
@[simp] theorem State.setReg_hawser (o v : Nat) (i : Nat) : (s.setReg o v).hawser i = s.hawser i := rfl
@[simp] theorem State.setReg_lane (o v : Nat) (i : Nat) : (s.setReg o v).lane i = s.lane i := rfl

/-! ### set -/

@[simp] theorem State.set_now (f : Fld) (v : Nat) : (s.set f v).now = s.now := rfl
@[simp] theorem State.set_mem (f : Fld) (v : Nat) : (s.set f v).mem = s.mem := rfl
@[simp] theorem State.set_flash (f : Fld) (v : Nat) : (s.set f v).flash = s.flash := rfl
@[simp] theorem State.set_pending (f : Fld) (v : Nat) : (s.set f v).pending = s.pending := rfl
@[simp] theorem State.set_resp (f : Fld) (v : Nat) : (s.set f v).resp = s.resp := rfl
@[simp] theorem State.set_freeCnt (f : Fld) (v : Nat) : (s.set f v).freeCnt = s.freeCnt := rfl
@[simp] theorem State.set_start (f : Fld) (v : Nat) : (s.set f v).start = s.start := rfl
@[simp] theorem State.set_frame (f : Fld) (v : Nat) : (s.set f v).frame = s.frame := rfl
@[simp] theorem State.set_signal (f : Fld) (v : Nat) : (s.set f v).signal = s.signal := rfl
@[simp] theorem State.set_loop (f : Fld) (v : Nat) : (s.set f v).loop = s.loop := rfl
@[simp] theorem State.set_field (f : Fld) (v : Nat) : (s.set f v).field = s.field := rfl
@[simp] theorem State.set_cascade (f : Fld) (v : Nat) : (s.set f v).cascade = s.cascade := rfl
@[simp] theorem State.set_groves (f : Fld) (v : Nat) : (s.set f v).groves = s.groves := rfl
@[simp] theorem State.set_gcmd (f : Fld) (v : Nat) : (s.set f v).gcmd = s.gcmd := rfl
@[simp] theorem State.set_cores (f : Fld) (v : Nat) : (s.set f v).cores = s.cores := rfl
@[simp] theorem State.set_runStacks (f : Fld) (v : Nat) : (s.set f v).runStacks = s.runStacks := rfl
@[simp] theorem State.set_coh (f : Fld) (v : Nat) : (s.set f v).coh = s.coh := rfl
@[simp] theorem State.set_power (f : Fld) (v : Nat) : (s.set f v).power = s.power := rfl
@[simp] theorem State.set_pins (f : Fld) (v : Nat) : (s.set f v).pins = s.pins := rfl
@[simp] theorem State.set_met (f : Fld) (v : Nat) : (s.set f v).met = s.met := rfl
@[simp] theorem State.set_sec (f : Fld) (v : Nat) : (s.set f v).sec = s.sec := rfl
@[simp] theorem State.set_dma (f : Fld) (v : Nat) : (s.set f v).dma = s.dma := rfl
@[simp] theorem State.set_pci (f : Fld) (v : Nat) : (s.set f v).pci = s.pci := rfl
@[simp] theorem State.set_byte (f : Fld) (v : Nat) (i : Nat) : (s.set f v).byte i = s.byte i := rfl
@[simp] theorem State.set_rdB (f : Fld) (v : Nat) (i k : Nat) : (s.set f v).rdB i k = s.rdB i k := rfl
@[simp] theorem State.set_rd (f : Fld) (v : Nat) (i k : Nat) : (s.set f v).rd i k = s.rd i k := rfl
@[simp] theorem State.set_core (f : Fld) (v : Nat) (i : Nat) : (s.set f v).core i = s.core i := rfl
@[simp] theorem State.set_grv (f : Fld) (v : Nat) (i : Nat) : (s.set f v).grv i = s.grv i := rfl
@[simp] theorem State.set_grv? (f : Fld) (v : Nat) (i : Nat) : (s.set f v).grv? i = s.grv? i := rfl
@[simp] theorem State.set_port (f : Fld) (v : Nat) (i : Nat) : (s.set f v).port i = s.port i := rfl
@[simp] theorem State.set_hawser (f : Fld) (v : Nat) (i : Nat) : (s.set f v).hawser i = s.hawser i := rfl
@[simp] theorem State.set_lane (f : Fld) (v : Nat) (i : Nat) : (s.set f v).lane i = s.lane i := rfl

/-! ### wrB -/

@[simp] theorem State.wrB_now (a : Nat) (bs : List Byte) : (s.wrB a bs).now = s.now := rfl
@[simp] theorem State.wrB_regs (a : Nat) (bs : List Byte) : (s.wrB a bs).regs = s.regs := rfl
@[simp] theorem State.wrB_flash (a : Nat) (bs : List Byte) : (s.wrB a bs).flash = s.flash := rfl
@[simp] theorem State.wrB_pending (a : Nat) (bs : List Byte) : (s.wrB a bs).pending = s.pending := rfl
@[simp] theorem State.wrB_resp (a : Nat) (bs : List Byte) : (s.wrB a bs).resp = s.resp := rfl
@[simp] theorem State.wrB_freeCnt (a : Nat) (bs : List Byte) : (s.wrB a bs).freeCnt = s.freeCnt := rfl
@[simp] theorem State.wrB_start (a : Nat) (bs : List Byte) : (s.wrB a bs).start = s.start := rfl
@[simp] theorem State.wrB_frame (a : Nat) (bs : List Byte) : (s.wrB a bs).frame = s.frame := rfl
@[simp] theorem State.wrB_signal (a : Nat) (bs : List Byte) : (s.wrB a bs).signal = s.signal := rfl
@[simp] theorem State.wrB_loop (a : Nat) (bs : List Byte) : (s.wrB a bs).loop = s.loop := rfl
@[simp] theorem State.wrB_field (a : Nat) (bs : List Byte) : (s.wrB a bs).field = s.field := rfl
@[simp] theorem State.wrB_cascade (a : Nat) (bs : List Byte) : (s.wrB a bs).cascade = s.cascade := rfl
@[simp] theorem State.wrB_groves (a : Nat) (bs : List Byte) : (s.wrB a bs).groves = s.groves := rfl
@[simp] theorem State.wrB_gcmd (a : Nat) (bs : List Byte) : (s.wrB a bs).gcmd = s.gcmd := rfl
@[simp] theorem State.wrB_cores (a : Nat) (bs : List Byte) : (s.wrB a bs).cores = s.cores := rfl
@[simp] theorem State.wrB_runStacks (a : Nat) (bs : List Byte) : (s.wrB a bs).runStacks = s.runStacks := rfl
@[simp] theorem State.wrB_coh (a : Nat) (bs : List Byte) : (s.wrB a bs).coh = s.coh := rfl
@[simp] theorem State.wrB_power (a : Nat) (bs : List Byte) : (s.wrB a bs).power = s.power := rfl
@[simp] theorem State.wrB_pins (a : Nat) (bs : List Byte) : (s.wrB a bs).pins = s.pins := rfl
@[simp] theorem State.wrB_met (a : Nat) (bs : List Byte) : (s.wrB a bs).met = s.met := rfl
@[simp] theorem State.wrB_sec (a : Nat) (bs : List Byte) : (s.wrB a bs).sec = s.sec := rfl
@[simp] theorem State.wrB_dma (a : Nat) (bs : List Byte) : (s.wrB a bs).dma = s.dma := rfl
@[simp] theorem State.wrB_pci (a : Nat) (bs : List Byte) : (s.wrB a bs).pci = s.pci := rfl
@[simp] theorem State.wrB_reg (a : Nat) (bs : List Byte) (i : Nat) : (s.wrB a bs).reg i = s.reg i := rfl
@[simp] theorem State.wrB_get (a : Nat) (bs : List Byte) (g : Fld) : (s.wrB a bs).get g = s.get g := rfl
@[simp] theorem State.wrB_core (a : Nat) (bs : List Byte) (i : Nat) : (s.wrB a bs).core i = s.core i := rfl
@[simp] theorem State.wrB_grv (a : Nat) (bs : List Byte) (i : Nat) : (s.wrB a bs).grv i = s.grv i := rfl
@[simp] theorem State.wrB_grv? (a : Nat) (bs : List Byte) (i : Nat) : (s.wrB a bs).grv? i = s.grv? i := rfl
@[simp] theorem State.wrB_port (a : Nat) (bs : List Byte) (i : Nat) : (s.wrB a bs).port i = s.port i := rfl
@[simp] theorem State.wrB_hawser (a : Nat) (bs : List Byte) (i : Nat) : (s.wrB a bs).hawser i = s.hawser i := rfl
@[simp] theorem State.wrB_lane (a : Nat) (bs : List Byte) (i : Nat) : (s.wrB a bs).lane i = s.lane i := rfl

/-! ### wr -/

@[simp] theorem State.wr_now (a n v : Nat) : (s.wr a n v).now = s.now := rfl
@[simp] theorem State.wr_regs (a n v : Nat) : (s.wr a n v).regs = s.regs := rfl
@[simp] theorem State.wr_flash (a n v : Nat) : (s.wr a n v).flash = s.flash := rfl
@[simp] theorem State.wr_pending (a n v : Nat) : (s.wr a n v).pending = s.pending := rfl
@[simp] theorem State.wr_resp (a n v : Nat) : (s.wr a n v).resp = s.resp := rfl
@[simp] theorem State.wr_freeCnt (a n v : Nat) : (s.wr a n v).freeCnt = s.freeCnt := rfl
@[simp] theorem State.wr_start (a n v : Nat) : (s.wr a n v).start = s.start := rfl
@[simp] theorem State.wr_frame (a n v : Nat) : (s.wr a n v).frame = s.frame := rfl
@[simp] theorem State.wr_signal (a n v : Nat) : (s.wr a n v).signal = s.signal := rfl
@[simp] theorem State.wr_loop (a n v : Nat) : (s.wr a n v).loop = s.loop := rfl
@[simp] theorem State.wr_field (a n v : Nat) : (s.wr a n v).field = s.field := rfl
@[simp] theorem State.wr_cascade (a n v : Nat) : (s.wr a n v).cascade = s.cascade := rfl
@[simp] theorem State.wr_groves (a n v : Nat) : (s.wr a n v).groves = s.groves := rfl
@[simp] theorem State.wr_gcmd (a n v : Nat) : (s.wr a n v).gcmd = s.gcmd := rfl
@[simp] theorem State.wr_cores (a n v : Nat) : (s.wr a n v).cores = s.cores := rfl
@[simp] theorem State.wr_runStacks (a n v : Nat) : (s.wr a n v).runStacks = s.runStacks := rfl
@[simp] theorem State.wr_coh (a n v : Nat) : (s.wr a n v).coh = s.coh := rfl
@[simp] theorem State.wr_power (a n v : Nat) : (s.wr a n v).power = s.power := rfl
@[simp] theorem State.wr_pins (a n v : Nat) : (s.wr a n v).pins = s.pins := rfl
@[simp] theorem State.wr_met (a n v : Nat) : (s.wr a n v).met = s.met := rfl
@[simp] theorem State.wr_sec (a n v : Nat) : (s.wr a n v).sec = s.sec := rfl
@[simp] theorem State.wr_dma (a n v : Nat) : (s.wr a n v).dma = s.dma := rfl
@[simp] theorem State.wr_pci (a n v : Nat) : (s.wr a n v).pci = s.pci := rfl
@[simp] theorem State.wr_reg (a n v : Nat) (i : Nat) : (s.wr a n v).reg i = s.reg i := rfl
@[simp] theorem State.wr_get (a n v : Nat) (g : Fld) : (s.wr a n v).get g = s.get g := rfl
@[simp] theorem State.wr_core (a n v : Nat) (i : Nat) : (s.wr a n v).core i = s.core i := rfl
@[simp] theorem State.wr_grv (a n v : Nat) (i : Nat) : (s.wr a n v).grv i = s.grv i := rfl
@[simp] theorem State.wr_grv? (a n v : Nat) (i : Nat) : (s.wr a n v).grv? i = s.grv? i := rfl
@[simp] theorem State.wr_port (a n v : Nat) (i : Nat) : (s.wr a n v).port i = s.port i := rfl
@[simp] theorem State.wr_hawser (a n v : Nat) (i : Nat) : (s.wr a n v).hawser i = s.hawser i := rfl
@[simp] theorem State.wr_lane (a n v : Nat) (i : Nat) : (s.wr a n v).lane i = s.lane i := rfl

/-! ### clearMem -/

@[simp] theorem State.clearMem_now (lo hi : Nat) : (s.clearMem lo hi).now = s.now := rfl
@[simp] theorem State.clearMem_regs (lo hi : Nat) : (s.clearMem lo hi).regs = s.regs := rfl
@[simp] theorem State.clearMem_flash (lo hi : Nat) : (s.clearMem lo hi).flash = s.flash := rfl
@[simp] theorem State.clearMem_pending (lo hi : Nat) : (s.clearMem lo hi).pending = s.pending := rfl
@[simp] theorem State.clearMem_resp (lo hi : Nat) : (s.clearMem lo hi).resp = s.resp := rfl
@[simp] theorem State.clearMem_freeCnt (lo hi : Nat) : (s.clearMem lo hi).freeCnt = s.freeCnt := rfl
@[simp] theorem State.clearMem_start (lo hi : Nat) : (s.clearMem lo hi).start = s.start := rfl
@[simp] theorem State.clearMem_frame (lo hi : Nat) : (s.clearMem lo hi).frame = s.frame := rfl
@[simp] theorem State.clearMem_signal (lo hi : Nat) : (s.clearMem lo hi).signal = s.signal := rfl
@[simp] theorem State.clearMem_loop (lo hi : Nat) : (s.clearMem lo hi).loop = s.loop := rfl
@[simp] theorem State.clearMem_field (lo hi : Nat) : (s.clearMem lo hi).field = s.field := rfl
@[simp] theorem State.clearMem_cascade (lo hi : Nat) : (s.clearMem lo hi).cascade = s.cascade := rfl
@[simp] theorem State.clearMem_groves (lo hi : Nat) : (s.clearMem lo hi).groves = s.groves := rfl
@[simp] theorem State.clearMem_gcmd (lo hi : Nat) : (s.clearMem lo hi).gcmd = s.gcmd := rfl
@[simp] theorem State.clearMem_cores (lo hi : Nat) : (s.clearMem lo hi).cores = s.cores := rfl
@[simp] theorem State.clearMem_runStacks (lo hi : Nat) : (s.clearMem lo hi).runStacks = s.runStacks := rfl
@[simp] theorem State.clearMem_coh (lo hi : Nat) : (s.clearMem lo hi).coh = s.coh := rfl
@[simp] theorem State.clearMem_power (lo hi : Nat) : (s.clearMem lo hi).power = s.power := rfl
@[simp] theorem State.clearMem_pins (lo hi : Nat) : (s.clearMem lo hi).pins = s.pins := rfl
@[simp] theorem State.clearMem_met (lo hi : Nat) : (s.clearMem lo hi).met = s.met := rfl
@[simp] theorem State.clearMem_sec (lo hi : Nat) : (s.clearMem lo hi).sec = s.sec := rfl
@[simp] theorem State.clearMem_dma (lo hi : Nat) : (s.clearMem lo hi).dma = s.dma := rfl
@[simp] theorem State.clearMem_pci (lo hi : Nat) : (s.clearMem lo hi).pci = s.pci := rfl
@[simp] theorem State.clearMem_reg (lo hi : Nat) (i : Nat) : (s.clearMem lo hi).reg i = s.reg i := rfl
@[simp] theorem State.clearMem_get (lo hi : Nat) (g : Fld) : (s.clearMem lo hi).get g = s.get g := rfl
@[simp] theorem State.clearMem_core (lo hi : Nat) (i : Nat) : (s.clearMem lo hi).core i = s.core i := rfl
@[simp] theorem State.clearMem_grv (lo hi : Nat) (i : Nat) : (s.clearMem lo hi).grv i = s.grv i := rfl
@[simp] theorem State.clearMem_grv? (lo hi : Nat) (i : Nat) : (s.clearMem lo hi).grv? i = s.grv? i := rfl
@[simp] theorem State.clearMem_port (lo hi : Nat) (i : Nat) : (s.clearMem lo hi).port i = s.port i := rfl
@[simp] theorem State.clearMem_hawser (lo hi : Nat) (i : Nat) : (s.clearMem lo hi).hawser i = s.hawser i := rfl
@[simp] theorem State.clearMem_lane (lo hi : Nat) (i : Nat) : (s.clearMem lo hi).lane i = s.lane i := rfl

/-! ### setGrv -/

@[simp] theorem State.setGrv_now (j : Nat) (x : GroveSt) : (s.setGrv j x).now = s.now := rfl
@[simp] theorem State.setGrv_regs (j : Nat) (x : GroveSt) : (s.setGrv j x).regs = s.regs := rfl
@[simp] theorem State.setGrv_mem (j : Nat) (x : GroveSt) : (s.setGrv j x).mem = s.mem := rfl
@[simp] theorem State.setGrv_flash (j : Nat) (x : GroveSt) : (s.setGrv j x).flash = s.flash := rfl
@[simp] theorem State.setGrv_pending (j : Nat) (x : GroveSt) : (s.setGrv j x).pending = s.pending := rfl
@[simp] theorem State.setGrv_resp (j : Nat) (x : GroveSt) : (s.setGrv j x).resp = s.resp := rfl
@[simp] theorem State.setGrv_freeCnt (j : Nat) (x : GroveSt) : (s.setGrv j x).freeCnt = s.freeCnt := rfl
@[simp] theorem State.setGrv_start (j : Nat) (x : GroveSt) : (s.setGrv j x).start = s.start := rfl
@[simp] theorem State.setGrv_frame (j : Nat) (x : GroveSt) : (s.setGrv j x).frame = s.frame := rfl
@[simp] theorem State.setGrv_signal (j : Nat) (x : GroveSt) : (s.setGrv j x).signal = s.signal := rfl
@[simp] theorem State.setGrv_loop (j : Nat) (x : GroveSt) : (s.setGrv j x).loop = s.loop := rfl
@[simp] theorem State.setGrv_field (j : Nat) (x : GroveSt) : (s.setGrv j x).field = s.field := rfl
@[simp] theorem State.setGrv_cascade (j : Nat) (x : GroveSt) : (s.setGrv j x).cascade = s.cascade := rfl
@[simp] theorem State.setGrv_gcmd (j : Nat) (x : GroveSt) : (s.setGrv j x).gcmd = s.gcmd := rfl
@[simp] theorem State.setGrv_cores (j : Nat) (x : GroveSt) : (s.setGrv j x).cores = s.cores := rfl
@[simp] theorem State.setGrv_runStacks (j : Nat) (x : GroveSt) : (s.setGrv j x).runStacks = s.runStacks := rfl
@[simp] theorem State.setGrv_coh (j : Nat) (x : GroveSt) : (s.setGrv j x).coh = s.coh := rfl
@[simp] theorem State.setGrv_power (j : Nat) (x : GroveSt) : (s.setGrv j x).power = s.power := rfl
@[simp] theorem State.setGrv_pins (j : Nat) (x : GroveSt) : (s.setGrv j x).pins = s.pins := rfl
@[simp] theorem State.setGrv_met (j : Nat) (x : GroveSt) : (s.setGrv j x).met = s.met := rfl
@[simp] theorem State.setGrv_sec (j : Nat) (x : GroveSt) : (s.setGrv j x).sec = s.sec := rfl
@[simp] theorem State.setGrv_dma (j : Nat) (x : GroveSt) : (s.setGrv j x).dma = s.dma := rfl
@[simp] theorem State.setGrv_pci (j : Nat) (x : GroveSt) : (s.setGrv j x).pci = s.pci := rfl
@[simp] theorem State.setGrv_reg (j : Nat) (x : GroveSt) (i : Nat) : (s.setGrv j x).reg i = s.reg i := rfl
@[simp] theorem State.setGrv_get (j : Nat) (x : GroveSt) (g : Fld) : (s.setGrv j x).get g = s.get g := rfl
@[simp] theorem State.setGrv_byte (j : Nat) (x : GroveSt) (i : Nat) : (s.setGrv j x).byte i = s.byte i := rfl
@[simp] theorem State.setGrv_rdB (j : Nat) (x : GroveSt) (i k : Nat) : (s.setGrv j x).rdB i k = s.rdB i k := rfl
@[simp] theorem State.setGrv_rd (j : Nat) (x : GroveSt) (i k : Nat) : (s.setGrv j x).rd i k = s.rd i k := rfl
@[simp] theorem State.setGrv_core (j : Nat) (x : GroveSt) (i : Nat) : (s.setGrv j x).core i = s.core i := rfl
@[simp] theorem State.setGrv_port (j : Nat) (x : GroveSt) (i : Nat) : (s.setGrv j x).port i = s.port i := rfl
@[simp] theorem State.setGrv_hawser (j : Nat) (x : GroveSt) (i : Nat) : (s.setGrv j x).hawser i = s.hawser i := rfl
@[simp] theorem State.setGrv_lane (j : Nat) (x : GroveSt) (i : Nat) : (s.setGrv j x).lane i = s.lane i := rfl

/-! ### setCore -/

@[simp] theorem State.setCore_now (c : Nat) (x : CoreSt) : (s.setCore c x).now = s.now := rfl
@[simp] theorem State.setCore_regs (c : Nat) (x : CoreSt) : (s.setCore c x).regs = s.regs := rfl
@[simp] theorem State.setCore_mem (c : Nat) (x : CoreSt) : (s.setCore c x).mem = s.mem := rfl
@[simp] theorem State.setCore_flash (c : Nat) (x : CoreSt) : (s.setCore c x).flash = s.flash := rfl
@[simp] theorem State.setCore_pending (c : Nat) (x : CoreSt) : (s.setCore c x).pending = s.pending := rfl
@[simp] theorem State.setCore_resp (c : Nat) (x : CoreSt) : (s.setCore c x).resp = s.resp := rfl
@[simp] theorem State.setCore_freeCnt (c : Nat) (x : CoreSt) : (s.setCore c x).freeCnt = s.freeCnt := rfl
@[simp] theorem State.setCore_start (c : Nat) (x : CoreSt) : (s.setCore c x).start = s.start := rfl
@[simp] theorem State.setCore_frame (c : Nat) (x : CoreSt) : (s.setCore c x).frame = s.frame := rfl
@[simp] theorem State.setCore_signal (c : Nat) (x : CoreSt) : (s.setCore c x).signal = s.signal := rfl
@[simp] theorem State.setCore_loop (c : Nat) (x : CoreSt) : (s.setCore c x).loop = s.loop := rfl
@[simp] theorem State.setCore_field (c : Nat) (x : CoreSt) : (s.setCore c x).field = s.field := rfl
@[simp] theorem State.setCore_cascade (c : Nat) (x : CoreSt) : (s.setCore c x).cascade = s.cascade := rfl
@[simp] theorem State.setCore_groves (c : Nat) (x : CoreSt) : (s.setCore c x).groves = s.groves := rfl
@[simp] theorem State.setCore_gcmd (c : Nat) (x : CoreSt) : (s.setCore c x).gcmd = s.gcmd := rfl
@[simp] theorem State.setCore_runStacks (c : Nat) (x : CoreSt) : (s.setCore c x).runStacks = s.runStacks := rfl
@[simp] theorem State.setCore_coh (c : Nat) (x : CoreSt) : (s.setCore c x).coh = s.coh := rfl
@[simp] theorem State.setCore_power (c : Nat) (x : CoreSt) : (s.setCore c x).power = s.power := rfl
@[simp] theorem State.setCore_pins (c : Nat) (x : CoreSt) : (s.setCore c x).pins = s.pins := rfl
@[simp] theorem State.setCore_met (c : Nat) (x : CoreSt) : (s.setCore c x).met = s.met := rfl
@[simp] theorem State.setCore_sec (c : Nat) (x : CoreSt) : (s.setCore c x).sec = s.sec := rfl
@[simp] theorem State.setCore_dma (c : Nat) (x : CoreSt) : (s.setCore c x).dma = s.dma := rfl
@[simp] theorem State.setCore_pci (c : Nat) (x : CoreSt) : (s.setCore c x).pci = s.pci := rfl
@[simp] theorem State.setCore_reg (c : Nat) (x : CoreSt) (i : Nat) : (s.setCore c x).reg i = s.reg i := rfl
@[simp] theorem State.setCore_get (c : Nat) (x : CoreSt) (g : Fld) : (s.setCore c x).get g = s.get g := rfl
@[simp] theorem State.setCore_byte (c : Nat) (x : CoreSt) (i : Nat) : (s.setCore c x).byte i = s.byte i := rfl
@[simp] theorem State.setCore_rdB (c : Nat) (x : CoreSt) (i k : Nat) : (s.setCore c x).rdB i k = s.rdB i k := rfl
@[simp] theorem State.setCore_rd (c : Nat) (x : CoreSt) (i k : Nat) : (s.setCore c x).rd i k = s.rd i k := rfl
@[simp] theorem State.setCore_grv (c : Nat) (x : CoreSt) (i : Nat) : (s.setCore c x).grv i = s.grv i := rfl
@[simp] theorem State.setCore_grv? (c : Nat) (x : CoreSt) (i : Nat) : (s.setCore c x).grv? i = s.grv? i := rfl
@[simp] theorem State.setCore_port (c : Nat) (x : CoreSt) (i : Nat) : (s.setCore c x).port i = s.port i := rfl
@[simp] theorem State.setCore_hawser (c : Nat) (x : CoreSt) (i : Nat) : (s.setCore c x).hawser i = s.hawser i := rfl
@[simp] theorem State.setCore_lane (c : Nat) (x : CoreSt) (i : Nat) : (s.setCore c x).lane i = s.lane i := rfl

/-! ### modCore -/

@[simp] theorem State.modCore_now (c : Nat) (f : CoreSt → CoreSt) : (s.modCore c f).now = s.now := rfl
@[simp] theorem State.modCore_regs (c : Nat) (f : CoreSt → CoreSt) : (s.modCore c f).regs = s.regs := rfl
@[simp] theorem State.modCore_mem (c : Nat) (f : CoreSt → CoreSt) : (s.modCore c f).mem = s.mem := rfl
@[simp] theorem State.modCore_flash (c : Nat) (f : CoreSt → CoreSt) : (s.modCore c f).flash = s.flash := rfl
@[simp] theorem State.modCore_pending (c : Nat) (f : CoreSt → CoreSt) : (s.modCore c f).pending = s.pending := rfl
@[simp] theorem State.modCore_resp (c : Nat) (f : CoreSt → CoreSt) : (s.modCore c f).resp = s.resp := rfl
@[simp] theorem State.modCore_freeCnt (c : Nat) (f : CoreSt → CoreSt) : (s.modCore c f).freeCnt = s.freeCnt := rfl
@[simp] theorem State.modCore_start (c : Nat) (f : CoreSt → CoreSt) : (s.modCore c f).start = s.start := rfl
@[simp] theorem State.modCore_frame (c : Nat) (f : CoreSt → CoreSt) : (s.modCore c f).frame = s.frame := rfl
@[simp] theorem State.modCore_signal (c : Nat) (f : CoreSt → CoreSt) : (s.modCore c f).signal = s.signal := rfl
@[simp] theorem State.modCore_loop (c : Nat) (f : CoreSt → CoreSt) : (s.modCore c f).loop = s.loop := rfl
@[simp] theorem State.modCore_field (c : Nat) (f : CoreSt → CoreSt) : (s.modCore c f).field = s.field := rfl
@[simp] theorem State.modCore_cascade (c : Nat) (f : CoreSt → CoreSt) : (s.modCore c f).cascade = s.cascade := rfl
@[simp] theorem State.modCore_groves (c : Nat) (f : CoreSt → CoreSt) : (s.modCore c f).groves = s.groves := rfl
@[simp] theorem State.modCore_gcmd (c : Nat) (f : CoreSt → CoreSt) : (s.modCore c f).gcmd = s.gcmd := rfl
@[simp] theorem State.modCore_runStacks (c : Nat) (f : CoreSt → CoreSt) : (s.modCore c f).runStacks = s.runStacks := rfl
@[simp] theorem State.modCore_coh (c : Nat) (f : CoreSt → CoreSt) : (s.modCore c f).coh = s.coh := rfl
@[simp] theorem State.modCore_power (c : Nat) (f : CoreSt → CoreSt) : (s.modCore c f).power = s.power := rfl
@[simp] theorem State.modCore_pins (c : Nat) (f : CoreSt → CoreSt) : (s.modCore c f).pins = s.pins := rfl
@[simp] theorem State.modCore_met (c : Nat) (f : CoreSt → CoreSt) : (s.modCore c f).met = s.met := rfl
@[simp] theorem State.modCore_sec (c : Nat) (f : CoreSt → CoreSt) : (s.modCore c f).sec = s.sec := rfl
@[simp] theorem State.modCore_dma (c : Nat) (f : CoreSt → CoreSt) : (s.modCore c f).dma = s.dma := rfl
@[simp] theorem State.modCore_pci (c : Nat) (f : CoreSt → CoreSt) : (s.modCore c f).pci = s.pci := rfl
@[simp] theorem State.modCore_reg (c : Nat) (f : CoreSt → CoreSt) (i : Nat) : (s.modCore c f).reg i = s.reg i := rfl
@[simp] theorem State.modCore_get (c : Nat) (f : CoreSt → CoreSt) (g : Fld) : (s.modCore c f).get g = s.get g := rfl
@[simp] theorem State.modCore_byte (c : Nat) (f : CoreSt → CoreSt) (i : Nat) : (s.modCore c f).byte i = s.byte i := rfl
@[simp] theorem State.modCore_rdB (c : Nat) (f : CoreSt → CoreSt) (i k : Nat) : (s.modCore c f).rdB i k = s.rdB i k := rfl
@[simp] theorem State.modCore_rd (c : Nat) (f : CoreSt → CoreSt) (i k : Nat) : (s.modCore c f).rd i k = s.rd i k := rfl
@[simp] theorem State.modCore_grv (c : Nat) (f : CoreSt → CoreSt) (i : Nat) : (s.modCore c f).grv i = s.grv i := rfl
@[simp] theorem State.modCore_grv? (c : Nat) (f : CoreSt → CoreSt) (i : Nat) : (s.modCore c f).grv? i = s.grv? i := rfl
@[simp] theorem State.modCore_port (c : Nat) (f : CoreSt → CoreSt) (i : Nat) : (s.modCore c f).port i = s.port i := rfl
@[simp] theorem State.modCore_hawser (c : Nat) (f : CoreSt → CoreSt) (i : Nat) : (s.modCore c f).hawser i = s.hawser i := rfl
@[simp] theorem State.modCore_lane (c : Nat) (f : CoreSt → CoreSt) (i : Nat) : (s.modCore c f).lane i = s.lane i := rfl

/-! ### modCtx -/

@[simp] theorem State.modCtx_now (c : Nat) (f : Ctx → Ctx) : (s.modCtx c f).now = s.now := rfl
@[simp] theorem State.modCtx_regs (c : Nat) (f : Ctx → Ctx) : (s.modCtx c f).regs = s.regs := rfl
@[simp] theorem State.modCtx_mem (c : Nat) (f : Ctx → Ctx) : (s.modCtx c f).mem = s.mem := rfl
@[simp] theorem State.modCtx_flash (c : Nat) (f : Ctx → Ctx) : (s.modCtx c f).flash = s.flash := rfl
@[simp] theorem State.modCtx_pending (c : Nat) (f : Ctx → Ctx) : (s.modCtx c f).pending = s.pending := rfl
@[simp] theorem State.modCtx_resp (c : Nat) (f : Ctx → Ctx) : (s.modCtx c f).resp = s.resp := rfl
@[simp] theorem State.modCtx_freeCnt (c : Nat) (f : Ctx → Ctx) : (s.modCtx c f).freeCnt = s.freeCnt := rfl
@[simp] theorem State.modCtx_start (c : Nat) (f : Ctx → Ctx) : (s.modCtx c f).start = s.start := rfl
@[simp] theorem State.modCtx_frame (c : Nat) (f : Ctx → Ctx) : (s.modCtx c f).frame = s.frame := rfl
@[simp] theorem State.modCtx_signal (c : Nat) (f : Ctx → Ctx) : (s.modCtx c f).signal = s.signal := rfl
@[simp] theorem State.modCtx_loop (c : Nat) (f : Ctx → Ctx) : (s.modCtx c f).loop = s.loop := rfl
@[simp] theorem State.modCtx_field (c : Nat) (f : Ctx → Ctx) : (s.modCtx c f).field = s.field := rfl
@[simp] theorem State.modCtx_cascade (c : Nat) (f : Ctx → Ctx) : (s.modCtx c f).cascade = s.cascade := rfl
@[simp] theorem State.modCtx_groves (c : Nat) (f : Ctx → Ctx) : (s.modCtx c f).groves = s.groves := rfl
@[simp] theorem State.modCtx_gcmd (c : Nat) (f : Ctx → Ctx) : (s.modCtx c f).gcmd = s.gcmd := rfl
@[simp] theorem State.modCtx_runStacks (c : Nat) (f : Ctx → Ctx) : (s.modCtx c f).runStacks = s.runStacks := rfl
@[simp] theorem State.modCtx_coh (c : Nat) (f : Ctx → Ctx) : (s.modCtx c f).coh = s.coh := rfl
@[simp] theorem State.modCtx_power (c : Nat) (f : Ctx → Ctx) : (s.modCtx c f).power = s.power := rfl
@[simp] theorem State.modCtx_pins (c : Nat) (f : Ctx → Ctx) : (s.modCtx c f).pins = s.pins := rfl
@[simp] theorem State.modCtx_met (c : Nat) (f : Ctx → Ctx) : (s.modCtx c f).met = s.met := rfl
@[simp] theorem State.modCtx_sec (c : Nat) (f : Ctx → Ctx) : (s.modCtx c f).sec = s.sec := rfl
@[simp] theorem State.modCtx_dma (c : Nat) (f : Ctx → Ctx) : (s.modCtx c f).dma = s.dma := rfl
@[simp] theorem State.modCtx_pci (c : Nat) (f : Ctx → Ctx) : (s.modCtx c f).pci = s.pci := rfl
@[simp] theorem State.modCtx_reg (c : Nat) (f : Ctx → Ctx) (i : Nat) : (s.modCtx c f).reg i = s.reg i := rfl
@[simp] theorem State.modCtx_get (c : Nat) (f : Ctx → Ctx) (g : Fld) : (s.modCtx c f).get g = s.get g := rfl
@[simp] theorem State.modCtx_byte (c : Nat) (f : Ctx → Ctx) (i : Nat) : (s.modCtx c f).byte i = s.byte i := rfl
@[simp] theorem State.modCtx_rdB (c : Nat) (f : Ctx → Ctx) (i k : Nat) : (s.modCtx c f).rdB i k = s.rdB i k := rfl
@[simp] theorem State.modCtx_rd (c : Nat) (f : Ctx → Ctx) (i k : Nat) : (s.modCtx c f).rd i k = s.rd i k := rfl
@[simp] theorem State.modCtx_grv (c : Nat) (f : Ctx → Ctx) (i : Nat) : (s.modCtx c f).grv i = s.grv i := rfl
@[simp] theorem State.modCtx_grv? (c : Nat) (f : Ctx → Ctx) (i : Nat) : (s.modCtx c f).grv? i = s.grv? i := rfl
@[simp] theorem State.modCtx_port (c : Nat) (f : Ctx → Ctx) (i : Nat) : (s.modCtx c f).port i = s.port i := rfl
@[simp] theorem State.modCtx_hawser (c : Nat) (f : Ctx → Ctx) (i : Nat) : (s.modCtx c f).hawser i = s.hawser i := rfl
@[simp] theorem State.modCtx_lane (c : Nat) (f : Ctx → Ctx) (i : Nat) : (s.modCtx c f).lane i = s.lane i := rfl

/-! ### modLane -/

@[simp] theorem State.modLane_now (l : Nat) (f : LaneSt → LaneSt) : (s.modLane l f).now = s.now := rfl
@[simp] theorem State.modLane_regs (l : Nat) (f : LaneSt → LaneSt) : (s.modLane l f).regs = s.regs := rfl
@[simp] theorem State.modLane_mem (l : Nat) (f : LaneSt → LaneSt) : (s.modLane l f).mem = s.mem := rfl
@[simp] theorem State.modLane_flash (l : Nat) (f : LaneSt → LaneSt) : (s.modLane l f).flash = s.flash := rfl
@[simp] theorem State.modLane_pending (l : Nat) (f : LaneSt → LaneSt) : (s.modLane l f).pending = s.pending := rfl
@[simp] theorem State.modLane_resp (l : Nat) (f : LaneSt → LaneSt) : (s.modLane l f).resp = s.resp := rfl
@[simp] theorem State.modLane_freeCnt (l : Nat) (f : LaneSt → LaneSt) : (s.modLane l f).freeCnt = s.freeCnt := rfl
@[simp] theorem State.modLane_start (l : Nat) (f : LaneSt → LaneSt) : (s.modLane l f).start = s.start := rfl
@[simp] theorem State.modLane_frame (l : Nat) (f : LaneSt → LaneSt) : (s.modLane l f).frame = s.frame := rfl
@[simp] theorem State.modLane_signal (l : Nat) (f : LaneSt → LaneSt) : (s.modLane l f).signal = s.signal := rfl
@[simp] theorem State.modLane_field (l : Nat) (f : LaneSt → LaneSt) : (s.modLane l f).field = s.field := rfl
@[simp] theorem State.modLane_cascade (l : Nat) (f : LaneSt → LaneSt) : (s.modLane l f).cascade = s.cascade := rfl
@[simp] theorem State.modLane_groves (l : Nat) (f : LaneSt → LaneSt) : (s.modLane l f).groves = s.groves := rfl
@[simp] theorem State.modLane_gcmd (l : Nat) (f : LaneSt → LaneSt) : (s.modLane l f).gcmd = s.gcmd := rfl
@[simp] theorem State.modLane_cores (l : Nat) (f : LaneSt → LaneSt) : (s.modLane l f).cores = s.cores := rfl
@[simp] theorem State.modLane_runStacks (l : Nat) (f : LaneSt → LaneSt) : (s.modLane l f).runStacks = s.runStacks := rfl
@[simp] theorem State.modLane_coh (l : Nat) (f : LaneSt → LaneSt) : (s.modLane l f).coh = s.coh := rfl
@[simp] theorem State.modLane_power (l : Nat) (f : LaneSt → LaneSt) : (s.modLane l f).power = s.power := rfl
@[simp] theorem State.modLane_pins (l : Nat) (f : LaneSt → LaneSt) : (s.modLane l f).pins = s.pins := rfl
@[simp] theorem State.modLane_met (l : Nat) (f : LaneSt → LaneSt) : (s.modLane l f).met = s.met := rfl
@[simp] theorem State.modLane_sec (l : Nat) (f : LaneSt → LaneSt) : (s.modLane l f).sec = s.sec := rfl
@[simp] theorem State.modLane_dma (l : Nat) (f : LaneSt → LaneSt) : (s.modLane l f).dma = s.dma := rfl
@[simp] theorem State.modLane_pci (l : Nat) (f : LaneSt → LaneSt) : (s.modLane l f).pci = s.pci := rfl
@[simp] theorem State.modLane_reg (l : Nat) (f : LaneSt → LaneSt) (i : Nat) : (s.modLane l f).reg i = s.reg i := rfl
@[simp] theorem State.modLane_get (l : Nat) (f : LaneSt → LaneSt) (g : Fld) : (s.modLane l f).get g = s.get g := rfl
@[simp] theorem State.modLane_byte (l : Nat) (f : LaneSt → LaneSt) (i : Nat) : (s.modLane l f).byte i = s.byte i := rfl
@[simp] theorem State.modLane_rdB (l : Nat) (f : LaneSt → LaneSt) (i k : Nat) : (s.modLane l f).rdB i k = s.rdB i k := rfl
@[simp] theorem State.modLane_rd (l : Nat) (f : LaneSt → LaneSt) (i k : Nat) : (s.modLane l f).rd i k = s.rd i k := rfl
@[simp] theorem State.modLane_core (l : Nat) (f : LaneSt → LaneSt) (i : Nat) : (s.modLane l f).core i = s.core i := rfl
@[simp] theorem State.modLane_grv (l : Nat) (f : LaneSt → LaneSt) (i : Nat) : (s.modLane l f).grv i = s.grv i := rfl
@[simp] theorem State.modLane_grv? (l : Nat) (f : LaneSt → LaneSt) (i : Nat) : (s.modLane l f).grv? i = s.grv? i := rfl
@[simp] theorem State.modLane_port (l : Nat) (f : LaneSt → LaneSt) (i : Nat) : (s.modLane l f).port i = s.port i := rfl
@[simp] theorem State.modLane_hawser (l : Nat) (f : LaneSt → LaneSt) (i : Nat) : (s.modLane l f).hawser i = s.hawser i := rfl

/-! ### modPort -/

@[simp] theorem State.modPort_now (p : Nat) (f : PortSt → PortSt) : (s.modPort p f).now = s.now := rfl
@[simp] theorem State.modPort_regs (p : Nat) (f : PortSt → PortSt) : (s.modPort p f).regs = s.regs := rfl
@[simp] theorem State.modPort_mem (p : Nat) (f : PortSt → PortSt) : (s.modPort p f).mem = s.mem := rfl
@[simp] theorem State.modPort_flash (p : Nat) (f : PortSt → PortSt) : (s.modPort p f).flash = s.flash := rfl
@[simp] theorem State.modPort_pending (p : Nat) (f : PortSt → PortSt) : (s.modPort p f).pending = s.pending := rfl
@[simp] theorem State.modPort_resp (p : Nat) (f : PortSt → PortSt) : (s.modPort p f).resp = s.resp := rfl
@[simp] theorem State.modPort_freeCnt (p : Nat) (f : PortSt → PortSt) : (s.modPort p f).freeCnt = s.freeCnt := rfl
@[simp] theorem State.modPort_start (p : Nat) (f : PortSt → PortSt) : (s.modPort p f).start = s.start := rfl
@[simp] theorem State.modPort_frame (p : Nat) (f : PortSt → PortSt) : (s.modPort p f).frame = s.frame := rfl
@[simp] theorem State.modPort_signal (p : Nat) (f : PortSt → PortSt) : (s.modPort p f).signal = s.signal := rfl
@[simp] theorem State.modPort_loop (p : Nat) (f : PortSt → PortSt) : (s.modPort p f).loop = s.loop := rfl
@[simp] theorem State.modPort_cascade (p : Nat) (f : PortSt → PortSt) : (s.modPort p f).cascade = s.cascade := rfl
@[simp] theorem State.modPort_groves (p : Nat) (f : PortSt → PortSt) : (s.modPort p f).groves = s.groves := rfl
@[simp] theorem State.modPort_gcmd (p : Nat) (f : PortSt → PortSt) : (s.modPort p f).gcmd = s.gcmd := rfl
@[simp] theorem State.modPort_cores (p : Nat) (f : PortSt → PortSt) : (s.modPort p f).cores = s.cores := rfl
@[simp] theorem State.modPort_runStacks (p : Nat) (f : PortSt → PortSt) : (s.modPort p f).runStacks = s.runStacks := rfl
@[simp] theorem State.modPort_coh (p : Nat) (f : PortSt → PortSt) : (s.modPort p f).coh = s.coh := rfl
@[simp] theorem State.modPort_power (p : Nat) (f : PortSt → PortSt) : (s.modPort p f).power = s.power := rfl
@[simp] theorem State.modPort_pins (p : Nat) (f : PortSt → PortSt) : (s.modPort p f).pins = s.pins := rfl
@[simp] theorem State.modPort_met (p : Nat) (f : PortSt → PortSt) : (s.modPort p f).met = s.met := rfl
@[simp] theorem State.modPort_sec (p : Nat) (f : PortSt → PortSt) : (s.modPort p f).sec = s.sec := rfl
@[simp] theorem State.modPort_dma (p : Nat) (f : PortSt → PortSt) : (s.modPort p f).dma = s.dma := rfl
@[simp] theorem State.modPort_pci (p : Nat) (f : PortSt → PortSt) : (s.modPort p f).pci = s.pci := rfl
@[simp] theorem State.modPort_reg (p : Nat) (f : PortSt → PortSt) (i : Nat) : (s.modPort p f).reg i = s.reg i := rfl
@[simp] theorem State.modPort_get (p : Nat) (f : PortSt → PortSt) (g : Fld) : (s.modPort p f).get g = s.get g := rfl
@[simp] theorem State.modPort_byte (p : Nat) (f : PortSt → PortSt) (i : Nat) : (s.modPort p f).byte i = s.byte i := rfl
@[simp] theorem State.modPort_rdB (p : Nat) (f : PortSt → PortSt) (i k : Nat) : (s.modPort p f).rdB i k = s.rdB i k := rfl
@[simp] theorem State.modPort_rd (p : Nat) (f : PortSt → PortSt) (i k : Nat) : (s.modPort p f).rd i k = s.rd i k := rfl
@[simp] theorem State.modPort_core (p : Nat) (f : PortSt → PortSt) (i : Nat) : (s.modPort p f).core i = s.core i := rfl
@[simp] theorem State.modPort_grv (p : Nat) (f : PortSt → PortSt) (i : Nat) : (s.modPort p f).grv i = s.grv i := rfl
@[simp] theorem State.modPort_grv? (p : Nat) (f : PortSt → PortSt) (i : Nat) : (s.modPort p f).grv? i = s.grv? i := rfl
@[simp] theorem State.modPort_hawser (p : Nat) (f : PortSt → PortSt) (i : Nat) : (s.modPort p f).hawser i = s.hawser i := rfl
@[simp] theorem State.modPort_lane (p : Nat) (f : PortSt → PortSt) (i : Nat) : (s.modPort p f).lane i = s.lane i := rfl

/-! ### modHawser -/

@[simp] theorem State.modHawser_now (p : Nat) (f : HawserSt → HawserSt) : (s.modHawser p f).now = s.now := rfl
@[simp] theorem State.modHawser_regs (p : Nat) (f : HawserSt → HawserSt) : (s.modHawser p f).regs = s.regs := rfl
@[simp] theorem State.modHawser_mem (p : Nat) (f : HawserSt → HawserSt) : (s.modHawser p f).mem = s.mem := rfl
@[simp] theorem State.modHawser_flash (p : Nat) (f : HawserSt → HawserSt) : (s.modHawser p f).flash = s.flash := rfl
@[simp] theorem State.modHawser_pending (p : Nat) (f : HawserSt → HawserSt) : (s.modHawser p f).pending = s.pending := rfl
@[simp] theorem State.modHawser_resp (p : Nat) (f : HawserSt → HawserSt) : (s.modHawser p f).resp = s.resp := rfl
@[simp] theorem State.modHawser_freeCnt (p : Nat) (f : HawserSt → HawserSt) : (s.modHawser p f).freeCnt = s.freeCnt := rfl
@[simp] theorem State.modHawser_start (p : Nat) (f : HawserSt → HawserSt) : (s.modHawser p f).start = s.start := rfl
@[simp] theorem State.modHawser_frame (p : Nat) (f : HawserSt → HawserSt) : (s.modHawser p f).frame = s.frame := rfl
@[simp] theorem State.modHawser_signal (p : Nat) (f : HawserSt → HawserSt) : (s.modHawser p f).signal = s.signal := rfl
@[simp] theorem State.modHawser_loop (p : Nat) (f : HawserSt → HawserSt) : (s.modHawser p f).loop = s.loop := rfl
@[simp] theorem State.modHawser_field (p : Nat) (f : HawserSt → HawserSt) : (s.modHawser p f).field = s.field := rfl
@[simp] theorem State.modHawser_groves (p : Nat) (f : HawserSt → HawserSt) : (s.modHawser p f).groves = s.groves := rfl
@[simp] theorem State.modHawser_gcmd (p : Nat) (f : HawserSt → HawserSt) : (s.modHawser p f).gcmd = s.gcmd := rfl
@[simp] theorem State.modHawser_cores (p : Nat) (f : HawserSt → HawserSt) : (s.modHawser p f).cores = s.cores := rfl
@[simp] theorem State.modHawser_runStacks (p : Nat) (f : HawserSt → HawserSt) : (s.modHawser p f).runStacks = s.runStacks := rfl
@[simp] theorem State.modHawser_coh (p : Nat) (f : HawserSt → HawserSt) : (s.modHawser p f).coh = s.coh := rfl
@[simp] theorem State.modHawser_power (p : Nat) (f : HawserSt → HawserSt) : (s.modHawser p f).power = s.power := rfl
@[simp] theorem State.modHawser_pins (p : Nat) (f : HawserSt → HawserSt) : (s.modHawser p f).pins = s.pins := rfl
@[simp] theorem State.modHawser_met (p : Nat) (f : HawserSt → HawserSt) : (s.modHawser p f).met = s.met := rfl
@[simp] theorem State.modHawser_sec (p : Nat) (f : HawserSt → HawserSt) : (s.modHawser p f).sec = s.sec := rfl
@[simp] theorem State.modHawser_dma (p : Nat) (f : HawserSt → HawserSt) : (s.modHawser p f).dma = s.dma := rfl
@[simp] theorem State.modHawser_pci (p : Nat) (f : HawserSt → HawserSt) : (s.modHawser p f).pci = s.pci := rfl
@[simp] theorem State.modHawser_reg (p : Nat) (f : HawserSt → HawserSt) (i : Nat) : (s.modHawser p f).reg i = s.reg i := rfl
@[simp] theorem State.modHawser_get (p : Nat) (f : HawserSt → HawserSt) (g : Fld) : (s.modHawser p f).get g = s.get g := rfl
@[simp] theorem State.modHawser_byte (p : Nat) (f : HawserSt → HawserSt) (i : Nat) : (s.modHawser p f).byte i = s.byte i := rfl
@[simp] theorem State.modHawser_rdB (p : Nat) (f : HawserSt → HawserSt) (i k : Nat) : (s.modHawser p f).rdB i k = s.rdB i k := rfl
@[simp] theorem State.modHawser_rd (p : Nat) (f : HawserSt → HawserSt) (i k : Nat) : (s.modHawser p f).rd i k = s.rd i k := rfl
@[simp] theorem State.modHawser_core (p : Nat) (f : HawserSt → HawserSt) (i : Nat) : (s.modHawser p f).core i = s.core i := rfl
@[simp] theorem State.modHawser_grv (p : Nat) (f : HawserSt → HawserSt) (i : Nat) : (s.modHawser p f).grv i = s.grv i := rfl
@[simp] theorem State.modHawser_grv? (p : Nat) (f : HawserSt → HawserSt) (i : Nat) : (s.modHawser p f).grv? i = s.grv? i := rfl
@[simp] theorem State.modHawser_port (p : Nat) (f : HawserSt → HawserSt) (i : Nat) : (s.modHawser p f).port i = s.port i := rfl
@[simp] theorem State.modHawser_lane (p : Nat) (f : HawserSt → HawserSt) (i : Nat) : (s.modHawser p f).lane i = s.lane i := rfl

/-! ### modFrame -/

@[simp] theorem State.modFrame_now (f : FrameSt → FrameSt) : (s.modFrame f).now = s.now := rfl
@[simp] theorem State.modFrame_regs (f : FrameSt → FrameSt) : (s.modFrame f).regs = s.regs := rfl
@[simp] theorem State.modFrame_mem (f : FrameSt → FrameSt) : (s.modFrame f).mem = s.mem := rfl
@[simp] theorem State.modFrame_flash (f : FrameSt → FrameSt) : (s.modFrame f).flash = s.flash := rfl
@[simp] theorem State.modFrame_pending (f : FrameSt → FrameSt) : (s.modFrame f).pending = s.pending := rfl
@[simp] theorem State.modFrame_resp (f : FrameSt → FrameSt) : (s.modFrame f).resp = s.resp := rfl
@[simp] theorem State.modFrame_freeCnt (f : FrameSt → FrameSt) : (s.modFrame f).freeCnt = s.freeCnt := rfl
@[simp] theorem State.modFrame_start (f : FrameSt → FrameSt) : (s.modFrame f).start = s.start := rfl
@[simp] theorem State.modFrame_signal (f : FrameSt → FrameSt) : (s.modFrame f).signal = s.signal := rfl
@[simp] theorem State.modFrame_loop (f : FrameSt → FrameSt) : (s.modFrame f).loop = s.loop := rfl
@[simp] theorem State.modFrame_field (f : FrameSt → FrameSt) : (s.modFrame f).field = s.field := rfl
@[simp] theorem State.modFrame_cascade (f : FrameSt → FrameSt) : (s.modFrame f).cascade = s.cascade := rfl
@[simp] theorem State.modFrame_groves (f : FrameSt → FrameSt) : (s.modFrame f).groves = s.groves := rfl
@[simp] theorem State.modFrame_gcmd (f : FrameSt → FrameSt) : (s.modFrame f).gcmd = s.gcmd := rfl
@[simp] theorem State.modFrame_cores (f : FrameSt → FrameSt) : (s.modFrame f).cores = s.cores := rfl
@[simp] theorem State.modFrame_runStacks (f : FrameSt → FrameSt) : (s.modFrame f).runStacks = s.runStacks := rfl
@[simp] theorem State.modFrame_coh (f : FrameSt → FrameSt) : (s.modFrame f).coh = s.coh := rfl
@[simp] theorem State.modFrame_power (f : FrameSt → FrameSt) : (s.modFrame f).power = s.power := rfl
@[simp] theorem State.modFrame_pins (f : FrameSt → FrameSt) : (s.modFrame f).pins = s.pins := rfl
@[simp] theorem State.modFrame_met (f : FrameSt → FrameSt) : (s.modFrame f).met = s.met := rfl
@[simp] theorem State.modFrame_sec (f : FrameSt → FrameSt) : (s.modFrame f).sec = s.sec := rfl
@[simp] theorem State.modFrame_dma (f : FrameSt → FrameSt) : (s.modFrame f).dma = s.dma := rfl
@[simp] theorem State.modFrame_pci (f : FrameSt → FrameSt) : (s.modFrame f).pci = s.pci := rfl
@[simp] theorem State.modFrame_reg (f : FrameSt → FrameSt) (i : Nat) : (s.modFrame f).reg i = s.reg i := rfl
@[simp] theorem State.modFrame_get (f : FrameSt → FrameSt) (g : Fld) : (s.modFrame f).get g = s.get g := rfl
@[simp] theorem State.modFrame_byte (f : FrameSt → FrameSt) (i : Nat) : (s.modFrame f).byte i = s.byte i := rfl
@[simp] theorem State.modFrame_rdB (f : FrameSt → FrameSt) (i k : Nat) : (s.modFrame f).rdB i k = s.rdB i k := rfl
@[simp] theorem State.modFrame_rd (f : FrameSt → FrameSt) (i k : Nat) : (s.modFrame f).rd i k = s.rd i k := rfl
@[simp] theorem State.modFrame_core (f : FrameSt → FrameSt) (i : Nat) : (s.modFrame f).core i = s.core i := rfl
@[simp] theorem State.modFrame_grv (f : FrameSt → FrameSt) (i : Nat) : (s.modFrame f).grv i = s.grv i := rfl
@[simp] theorem State.modFrame_grv? (f : FrameSt → FrameSt) (i : Nat) : (s.modFrame f).grv? i = s.grv? i := rfl
@[simp] theorem State.modFrame_port (f : FrameSt → FrameSt) (i : Nat) : (s.modFrame f).port i = s.port i := rfl
@[simp] theorem State.modFrame_hawser (f : FrameSt → FrameSt) (i : Nat) : (s.modFrame f).hawser i = s.hawser i := rfl
@[simp] theorem State.modFrame_lane (f : FrameSt → FrameSt) (i : Nat) : (s.modFrame f).lane i = s.lane i := rfl

/-! ### modStart -/

@[simp] theorem State.modStart_now (f : StartSt → StartSt) : (s.modStart f).now = s.now := rfl
@[simp] theorem State.modStart_regs (f : StartSt → StartSt) : (s.modStart f).regs = s.regs := rfl
@[simp] theorem State.modStart_mem (f : StartSt → StartSt) : (s.modStart f).mem = s.mem := rfl
@[simp] theorem State.modStart_flash (f : StartSt → StartSt) : (s.modStart f).flash = s.flash := rfl
@[simp] theorem State.modStart_pending (f : StartSt → StartSt) : (s.modStart f).pending = s.pending := rfl
@[simp] theorem State.modStart_resp (f : StartSt → StartSt) : (s.modStart f).resp = s.resp := rfl
@[simp] theorem State.modStart_freeCnt (f : StartSt → StartSt) : (s.modStart f).freeCnt = s.freeCnt := rfl
@[simp] theorem State.modStart_frame (f : StartSt → StartSt) : (s.modStart f).frame = s.frame := rfl
@[simp] theorem State.modStart_signal (f : StartSt → StartSt) : (s.modStart f).signal = s.signal := rfl
@[simp] theorem State.modStart_loop (f : StartSt → StartSt) : (s.modStart f).loop = s.loop := rfl
@[simp] theorem State.modStart_field (f : StartSt → StartSt) : (s.modStart f).field = s.field := rfl
@[simp] theorem State.modStart_cascade (f : StartSt → StartSt) : (s.modStart f).cascade = s.cascade := rfl
@[simp] theorem State.modStart_groves (f : StartSt → StartSt) : (s.modStart f).groves = s.groves := rfl
@[simp] theorem State.modStart_gcmd (f : StartSt → StartSt) : (s.modStart f).gcmd = s.gcmd := rfl
@[simp] theorem State.modStart_cores (f : StartSt → StartSt) : (s.modStart f).cores = s.cores := rfl
@[simp] theorem State.modStart_runStacks (f : StartSt → StartSt) : (s.modStart f).runStacks = s.runStacks := rfl
@[simp] theorem State.modStart_coh (f : StartSt → StartSt) : (s.modStart f).coh = s.coh := rfl
@[simp] theorem State.modStart_power (f : StartSt → StartSt) : (s.modStart f).power = s.power := rfl
@[simp] theorem State.modStart_pins (f : StartSt → StartSt) : (s.modStart f).pins = s.pins := rfl
@[simp] theorem State.modStart_met (f : StartSt → StartSt) : (s.modStart f).met = s.met := rfl
@[simp] theorem State.modStart_sec (f : StartSt → StartSt) : (s.modStart f).sec = s.sec := rfl
@[simp] theorem State.modStart_dma (f : StartSt → StartSt) : (s.modStart f).dma = s.dma := rfl
@[simp] theorem State.modStart_pci (f : StartSt → StartSt) : (s.modStart f).pci = s.pci := rfl
@[simp] theorem State.modStart_reg (f : StartSt → StartSt) (i : Nat) : (s.modStart f).reg i = s.reg i := rfl
@[simp] theorem State.modStart_get (f : StartSt → StartSt) (g : Fld) : (s.modStart f).get g = s.get g := rfl
@[simp] theorem State.modStart_byte (f : StartSt → StartSt) (i : Nat) : (s.modStart f).byte i = s.byte i := rfl
@[simp] theorem State.modStart_rdB (f : StartSt → StartSt) (i k : Nat) : (s.modStart f).rdB i k = s.rdB i k := rfl
@[simp] theorem State.modStart_rd (f : StartSt → StartSt) (i k : Nat) : (s.modStart f).rd i k = s.rd i k := rfl
@[simp] theorem State.modStart_core (f : StartSt → StartSt) (i : Nat) : (s.modStart f).core i = s.core i := rfl
@[simp] theorem State.modStart_grv (f : StartSt → StartSt) (i : Nat) : (s.modStart f).grv i = s.grv i := rfl
@[simp] theorem State.modStart_grv? (f : StartSt → StartSt) (i : Nat) : (s.modStart f).grv? i = s.grv? i := rfl
@[simp] theorem State.modStart_port (f : StartSt → StartSt) (i : Nat) : (s.modStart f).port i = s.port i := rfl
@[simp] theorem State.modStart_hawser (f : StartSt → StartSt) (i : Nat) : (s.modStart f).hawser i = s.hawser i := rfl
@[simp] theorem State.modStart_lane (f : StartSt → StartSt) (i : Nat) : (s.modStart f).lane i = s.lane i := rfl

/-! ### modSignal -/

@[simp] theorem State.modSignal_now (f : SignalSt → SignalSt) : (s.modSignal f).now = s.now := rfl
@[simp] theorem State.modSignal_regs (f : SignalSt → SignalSt) : (s.modSignal f).regs = s.regs := rfl
@[simp] theorem State.modSignal_mem (f : SignalSt → SignalSt) : (s.modSignal f).mem = s.mem := rfl
@[simp] theorem State.modSignal_flash (f : SignalSt → SignalSt) : (s.modSignal f).flash = s.flash := rfl
@[simp] theorem State.modSignal_pending (f : SignalSt → SignalSt) : (s.modSignal f).pending = s.pending := rfl
@[simp] theorem State.modSignal_resp (f : SignalSt → SignalSt) : (s.modSignal f).resp = s.resp := rfl
@[simp] theorem State.modSignal_freeCnt (f : SignalSt → SignalSt) : (s.modSignal f).freeCnt = s.freeCnt := rfl
@[simp] theorem State.modSignal_start (f : SignalSt → SignalSt) : (s.modSignal f).start = s.start := rfl
@[simp] theorem State.modSignal_frame (f : SignalSt → SignalSt) : (s.modSignal f).frame = s.frame := rfl
@[simp] theorem State.modSignal_loop (f : SignalSt → SignalSt) : (s.modSignal f).loop = s.loop := rfl
@[simp] theorem State.modSignal_field (f : SignalSt → SignalSt) : (s.modSignal f).field = s.field := rfl
@[simp] theorem State.modSignal_cascade (f : SignalSt → SignalSt) : (s.modSignal f).cascade = s.cascade := rfl
@[simp] theorem State.modSignal_groves (f : SignalSt → SignalSt) : (s.modSignal f).groves = s.groves := rfl
@[simp] theorem State.modSignal_gcmd (f : SignalSt → SignalSt) : (s.modSignal f).gcmd = s.gcmd := rfl
@[simp] theorem State.modSignal_cores (f : SignalSt → SignalSt) : (s.modSignal f).cores = s.cores := rfl
@[simp] theorem State.modSignal_runStacks (f : SignalSt → SignalSt) : (s.modSignal f).runStacks = s.runStacks := rfl
@[simp] theorem State.modSignal_coh (f : SignalSt → SignalSt) : (s.modSignal f).coh = s.coh := rfl
@[simp] theorem State.modSignal_power (f : SignalSt → SignalSt) : (s.modSignal f).power = s.power := rfl
@[simp] theorem State.modSignal_pins (f : SignalSt → SignalSt) : (s.modSignal f).pins = s.pins := rfl
@[simp] theorem State.modSignal_met (f : SignalSt → SignalSt) : (s.modSignal f).met = s.met := rfl
@[simp] theorem State.modSignal_sec (f : SignalSt → SignalSt) : (s.modSignal f).sec = s.sec := rfl
@[simp] theorem State.modSignal_dma (f : SignalSt → SignalSt) : (s.modSignal f).dma = s.dma := rfl
@[simp] theorem State.modSignal_pci (f : SignalSt → SignalSt) : (s.modSignal f).pci = s.pci := rfl
@[simp] theorem State.modSignal_reg (f : SignalSt → SignalSt) (i : Nat) : (s.modSignal f).reg i = s.reg i := rfl
@[simp] theorem State.modSignal_get (f : SignalSt → SignalSt) (g : Fld) : (s.modSignal f).get g = s.get g := rfl
@[simp] theorem State.modSignal_byte (f : SignalSt → SignalSt) (i : Nat) : (s.modSignal f).byte i = s.byte i := rfl
@[simp] theorem State.modSignal_rdB (f : SignalSt → SignalSt) (i k : Nat) : (s.modSignal f).rdB i k = s.rdB i k := rfl
@[simp] theorem State.modSignal_rd (f : SignalSt → SignalSt) (i k : Nat) : (s.modSignal f).rd i k = s.rd i k := rfl
@[simp] theorem State.modSignal_core (f : SignalSt → SignalSt) (i : Nat) : (s.modSignal f).core i = s.core i := rfl
@[simp] theorem State.modSignal_grv (f : SignalSt → SignalSt) (i : Nat) : (s.modSignal f).grv i = s.grv i := rfl
@[simp] theorem State.modSignal_grv? (f : SignalSt → SignalSt) (i : Nat) : (s.modSignal f).grv? i = s.grv? i := rfl
@[simp] theorem State.modSignal_port (f : SignalSt → SignalSt) (i : Nat) : (s.modSignal f).port i = s.port i := rfl
@[simp] theorem State.modSignal_hawser (f : SignalSt → SignalSt) (i : Nat) : (s.modSignal f).hawser i = s.hawser i := rfl
@[simp] theorem State.modSignal_lane (f : SignalSt → SignalSt) (i : Nat) : (s.modSignal f).lane i = s.lane i := rfl

/-! ### modLoop -/

@[simp] theorem State.modLoop_now (f : LoopSt → LoopSt) : (s.modLoop f).now = s.now := rfl
@[simp] theorem State.modLoop_regs (f : LoopSt → LoopSt) : (s.modLoop f).regs = s.regs := rfl
@[simp] theorem State.modLoop_mem (f : LoopSt → LoopSt) : (s.modLoop f).mem = s.mem := rfl
@[simp] theorem State.modLoop_flash (f : LoopSt → LoopSt) : (s.modLoop f).flash = s.flash := rfl
@[simp] theorem State.modLoop_pending (f : LoopSt → LoopSt) : (s.modLoop f).pending = s.pending := rfl
@[simp] theorem State.modLoop_resp (f : LoopSt → LoopSt) : (s.modLoop f).resp = s.resp := rfl
@[simp] theorem State.modLoop_freeCnt (f : LoopSt → LoopSt) : (s.modLoop f).freeCnt = s.freeCnt := rfl
@[simp] theorem State.modLoop_start (f : LoopSt → LoopSt) : (s.modLoop f).start = s.start := rfl
@[simp] theorem State.modLoop_frame (f : LoopSt → LoopSt) : (s.modLoop f).frame = s.frame := rfl
@[simp] theorem State.modLoop_signal (f : LoopSt → LoopSt) : (s.modLoop f).signal = s.signal := rfl
@[simp] theorem State.modLoop_field (f : LoopSt → LoopSt) : (s.modLoop f).field = s.field := rfl
@[simp] theorem State.modLoop_cascade (f : LoopSt → LoopSt) : (s.modLoop f).cascade = s.cascade := rfl
@[simp] theorem State.modLoop_groves (f : LoopSt → LoopSt) : (s.modLoop f).groves = s.groves := rfl
@[simp] theorem State.modLoop_gcmd (f : LoopSt → LoopSt) : (s.modLoop f).gcmd = s.gcmd := rfl
@[simp] theorem State.modLoop_cores (f : LoopSt → LoopSt) : (s.modLoop f).cores = s.cores := rfl
@[simp] theorem State.modLoop_runStacks (f : LoopSt → LoopSt) : (s.modLoop f).runStacks = s.runStacks := rfl
@[simp] theorem State.modLoop_coh (f : LoopSt → LoopSt) : (s.modLoop f).coh = s.coh := rfl
@[simp] theorem State.modLoop_power (f : LoopSt → LoopSt) : (s.modLoop f).power = s.power := rfl
@[simp] theorem State.modLoop_pins (f : LoopSt → LoopSt) : (s.modLoop f).pins = s.pins := rfl
@[simp] theorem State.modLoop_met (f : LoopSt → LoopSt) : (s.modLoop f).met = s.met := rfl
@[simp] theorem State.modLoop_sec (f : LoopSt → LoopSt) : (s.modLoop f).sec = s.sec := rfl
@[simp] theorem State.modLoop_dma (f : LoopSt → LoopSt) : (s.modLoop f).dma = s.dma := rfl
@[simp] theorem State.modLoop_pci (f : LoopSt → LoopSt) : (s.modLoop f).pci = s.pci := rfl
@[simp] theorem State.modLoop_reg (f : LoopSt → LoopSt) (i : Nat) : (s.modLoop f).reg i = s.reg i := rfl
@[simp] theorem State.modLoop_get (f : LoopSt → LoopSt) (g : Fld) : (s.modLoop f).get g = s.get g := rfl
@[simp] theorem State.modLoop_byte (f : LoopSt → LoopSt) (i : Nat) : (s.modLoop f).byte i = s.byte i := rfl
@[simp] theorem State.modLoop_rdB (f : LoopSt → LoopSt) (i k : Nat) : (s.modLoop f).rdB i k = s.rdB i k := rfl
@[simp] theorem State.modLoop_rd (f : LoopSt → LoopSt) (i k : Nat) : (s.modLoop f).rd i k = s.rd i k := rfl
@[simp] theorem State.modLoop_core (f : LoopSt → LoopSt) (i : Nat) : (s.modLoop f).core i = s.core i := rfl
@[simp] theorem State.modLoop_grv (f : LoopSt → LoopSt) (i : Nat) : (s.modLoop f).grv i = s.grv i := rfl
@[simp] theorem State.modLoop_grv? (f : LoopSt → LoopSt) (i : Nat) : (s.modLoop f).grv? i = s.grv? i := rfl
@[simp] theorem State.modLoop_port (f : LoopSt → LoopSt) (i : Nat) : (s.modLoop f).port i = s.port i := rfl
@[simp] theorem State.modLoop_hawser (f : LoopSt → LoopSt) (i : Nat) : (s.modLoop f).hawser i = s.hawser i := rfl

/-! ### modField -/

@[simp] theorem State.modField_now (f : FieldSt → FieldSt) : (s.modField f).now = s.now := rfl
@[simp] theorem State.modField_regs (f : FieldSt → FieldSt) : (s.modField f).regs = s.regs := rfl
@[simp] theorem State.modField_mem (f : FieldSt → FieldSt) : (s.modField f).mem = s.mem := rfl
@[simp] theorem State.modField_flash (f : FieldSt → FieldSt) : (s.modField f).flash = s.flash := rfl
@[simp] theorem State.modField_pending (f : FieldSt → FieldSt) : (s.modField f).pending = s.pending := rfl
@[simp] theorem State.modField_resp (f : FieldSt → FieldSt) : (s.modField f).resp = s.resp := rfl
@[simp] theorem State.modField_freeCnt (f : FieldSt → FieldSt) : (s.modField f).freeCnt = s.freeCnt := rfl
@[simp] theorem State.modField_start (f : FieldSt → FieldSt) : (s.modField f).start = s.start := rfl
@[simp] theorem State.modField_frame (f : FieldSt → FieldSt) : (s.modField f).frame = s.frame := rfl
@[simp] theorem State.modField_signal (f : FieldSt → FieldSt) : (s.modField f).signal = s.signal := rfl
@[simp] theorem State.modField_loop (f : FieldSt → FieldSt) : (s.modField f).loop = s.loop := rfl
@[simp] theorem State.modField_cascade (f : FieldSt → FieldSt) : (s.modField f).cascade = s.cascade := rfl
@[simp] theorem State.modField_groves (f : FieldSt → FieldSt) : (s.modField f).groves = s.groves := rfl
@[simp] theorem State.modField_gcmd (f : FieldSt → FieldSt) : (s.modField f).gcmd = s.gcmd := rfl
@[simp] theorem State.modField_cores (f : FieldSt → FieldSt) : (s.modField f).cores = s.cores := rfl
@[simp] theorem State.modField_runStacks (f : FieldSt → FieldSt) : (s.modField f).runStacks = s.runStacks := rfl
@[simp] theorem State.modField_coh (f : FieldSt → FieldSt) : (s.modField f).coh = s.coh := rfl
@[simp] theorem State.modField_power (f : FieldSt → FieldSt) : (s.modField f).power = s.power := rfl
@[simp] theorem State.modField_pins (f : FieldSt → FieldSt) : (s.modField f).pins = s.pins := rfl
@[simp] theorem State.modField_met (f : FieldSt → FieldSt) : (s.modField f).met = s.met := rfl
@[simp] theorem State.modField_sec (f : FieldSt → FieldSt) : (s.modField f).sec = s.sec := rfl
@[simp] theorem State.modField_dma (f : FieldSt → FieldSt) : (s.modField f).dma = s.dma := rfl
@[simp] theorem State.modField_pci (f : FieldSt → FieldSt) : (s.modField f).pci = s.pci := rfl
@[simp] theorem State.modField_reg (f : FieldSt → FieldSt) (i : Nat) : (s.modField f).reg i = s.reg i := rfl
@[simp] theorem State.modField_get (f : FieldSt → FieldSt) (g : Fld) : (s.modField f).get g = s.get g := rfl
@[simp] theorem State.modField_byte (f : FieldSt → FieldSt) (i : Nat) : (s.modField f).byte i = s.byte i := rfl
@[simp] theorem State.modField_rdB (f : FieldSt → FieldSt) (i k : Nat) : (s.modField f).rdB i k = s.rdB i k := rfl
@[simp] theorem State.modField_rd (f : FieldSt → FieldSt) (i k : Nat) : (s.modField f).rd i k = s.rd i k := rfl
@[simp] theorem State.modField_core (f : FieldSt → FieldSt) (i : Nat) : (s.modField f).core i = s.core i := rfl
@[simp] theorem State.modField_grv (f : FieldSt → FieldSt) (i : Nat) : (s.modField f).grv i = s.grv i := rfl
@[simp] theorem State.modField_grv? (f : FieldSt → FieldSt) (i : Nat) : (s.modField f).grv? i = s.grv? i := rfl
@[simp] theorem State.modField_hawser (f : FieldSt → FieldSt) (i : Nat) : (s.modField f).hawser i = s.hawser i := rfl
@[simp] theorem State.modField_lane (f : FieldSt → FieldSt) (i : Nat) : (s.modField f).lane i = s.lane i := rfl

/-! ### modCas -/

@[simp] theorem State.modCas_now (f : CascadeSt → CascadeSt) : (s.modCas f).now = s.now := rfl
@[simp] theorem State.modCas_regs (f : CascadeSt → CascadeSt) : (s.modCas f).regs = s.regs := rfl
@[simp] theorem State.modCas_mem (f : CascadeSt → CascadeSt) : (s.modCas f).mem = s.mem := rfl
@[simp] theorem State.modCas_flash (f : CascadeSt → CascadeSt) : (s.modCas f).flash = s.flash := rfl
@[simp] theorem State.modCas_pending (f : CascadeSt → CascadeSt) : (s.modCas f).pending = s.pending := rfl
@[simp] theorem State.modCas_resp (f : CascadeSt → CascadeSt) : (s.modCas f).resp = s.resp := rfl
@[simp] theorem State.modCas_freeCnt (f : CascadeSt → CascadeSt) : (s.modCas f).freeCnt = s.freeCnt := rfl
@[simp] theorem State.modCas_start (f : CascadeSt → CascadeSt) : (s.modCas f).start = s.start := rfl
@[simp] theorem State.modCas_frame (f : CascadeSt → CascadeSt) : (s.modCas f).frame = s.frame := rfl
@[simp] theorem State.modCas_signal (f : CascadeSt → CascadeSt) : (s.modCas f).signal = s.signal := rfl
@[simp] theorem State.modCas_loop (f : CascadeSt → CascadeSt) : (s.modCas f).loop = s.loop := rfl
@[simp] theorem State.modCas_field (f : CascadeSt → CascadeSt) : (s.modCas f).field = s.field := rfl
@[simp] theorem State.modCas_groves (f : CascadeSt → CascadeSt) : (s.modCas f).groves = s.groves := rfl
@[simp] theorem State.modCas_gcmd (f : CascadeSt → CascadeSt) : (s.modCas f).gcmd = s.gcmd := rfl
@[simp] theorem State.modCas_cores (f : CascadeSt → CascadeSt) : (s.modCas f).cores = s.cores := rfl
@[simp] theorem State.modCas_runStacks (f : CascadeSt → CascadeSt) : (s.modCas f).runStacks = s.runStacks := rfl
@[simp] theorem State.modCas_coh (f : CascadeSt → CascadeSt) : (s.modCas f).coh = s.coh := rfl
@[simp] theorem State.modCas_power (f : CascadeSt → CascadeSt) : (s.modCas f).power = s.power := rfl
@[simp] theorem State.modCas_pins (f : CascadeSt → CascadeSt) : (s.modCas f).pins = s.pins := rfl
@[simp] theorem State.modCas_met (f : CascadeSt → CascadeSt) : (s.modCas f).met = s.met := rfl
@[simp] theorem State.modCas_sec (f : CascadeSt → CascadeSt) : (s.modCas f).sec = s.sec := rfl
@[simp] theorem State.modCas_dma (f : CascadeSt → CascadeSt) : (s.modCas f).dma = s.dma := rfl
@[simp] theorem State.modCas_pci (f : CascadeSt → CascadeSt) : (s.modCas f).pci = s.pci := rfl
@[simp] theorem State.modCas_reg (f : CascadeSt → CascadeSt) (i : Nat) : (s.modCas f).reg i = s.reg i := rfl
@[simp] theorem State.modCas_get (f : CascadeSt → CascadeSt) (g : Fld) : (s.modCas f).get g = s.get g := rfl
@[simp] theorem State.modCas_byte (f : CascadeSt → CascadeSt) (i : Nat) : (s.modCas f).byte i = s.byte i := rfl
@[simp] theorem State.modCas_rdB (f : CascadeSt → CascadeSt) (i k : Nat) : (s.modCas f).rdB i k = s.rdB i k := rfl
@[simp] theorem State.modCas_rd (f : CascadeSt → CascadeSt) (i k : Nat) : (s.modCas f).rd i k = s.rd i k := rfl
@[simp] theorem State.modCas_core (f : CascadeSt → CascadeSt) (i : Nat) : (s.modCas f).core i = s.core i := rfl
@[simp] theorem State.modCas_grv (f : CascadeSt → CascadeSt) (i : Nat) : (s.modCas f).grv i = s.grv i := rfl
@[simp] theorem State.modCas_grv? (f : CascadeSt → CascadeSt) (i : Nat) : (s.modCas f).grv? i = s.grv? i := rfl
@[simp] theorem State.modCas_port (f : CascadeSt → CascadeSt) (i : Nat) : (s.modCas f).port i = s.port i := rfl
@[simp] theorem State.modCas_lane (f : CascadeSt → CascadeSt) (i : Nat) : (s.modCas f).lane i = s.lane i := rfl

/-! ### modCoh -/

@[simp] theorem State.modCoh_now (f : CohSt → CohSt) : (s.modCoh f).now = s.now := rfl
@[simp] theorem State.modCoh_regs (f : CohSt → CohSt) : (s.modCoh f).regs = s.regs := rfl
@[simp] theorem State.modCoh_mem (f : CohSt → CohSt) : (s.modCoh f).mem = s.mem := rfl
@[simp] theorem State.modCoh_flash (f : CohSt → CohSt) : (s.modCoh f).flash = s.flash := rfl
@[simp] theorem State.modCoh_pending (f : CohSt → CohSt) : (s.modCoh f).pending = s.pending := rfl
@[simp] theorem State.modCoh_resp (f : CohSt → CohSt) : (s.modCoh f).resp = s.resp := rfl
@[simp] theorem State.modCoh_freeCnt (f : CohSt → CohSt) : (s.modCoh f).freeCnt = s.freeCnt := rfl
@[simp] theorem State.modCoh_start (f : CohSt → CohSt) : (s.modCoh f).start = s.start := rfl
@[simp] theorem State.modCoh_frame (f : CohSt → CohSt) : (s.modCoh f).frame = s.frame := rfl
@[simp] theorem State.modCoh_signal (f : CohSt → CohSt) : (s.modCoh f).signal = s.signal := rfl
@[simp] theorem State.modCoh_loop (f : CohSt → CohSt) : (s.modCoh f).loop = s.loop := rfl
@[simp] theorem State.modCoh_field (f : CohSt → CohSt) : (s.modCoh f).field = s.field := rfl
@[simp] theorem State.modCoh_cascade (f : CohSt → CohSt) : (s.modCoh f).cascade = s.cascade := rfl
@[simp] theorem State.modCoh_groves (f : CohSt → CohSt) : (s.modCoh f).groves = s.groves := rfl
@[simp] theorem State.modCoh_gcmd (f : CohSt → CohSt) : (s.modCoh f).gcmd = s.gcmd := rfl
@[simp] theorem State.modCoh_cores (f : CohSt → CohSt) : (s.modCoh f).cores = s.cores := rfl
@[simp] theorem State.modCoh_runStacks (f : CohSt → CohSt) : (s.modCoh f).runStacks = s.runStacks := rfl
@[simp] theorem State.modCoh_power (f : CohSt → CohSt) : (s.modCoh f).power = s.power := rfl
@[simp] theorem State.modCoh_pins (f : CohSt → CohSt) : (s.modCoh f).pins = s.pins := rfl
@[simp] theorem State.modCoh_met (f : CohSt → CohSt) : (s.modCoh f).met = s.met := rfl
@[simp] theorem State.modCoh_sec (f : CohSt → CohSt) : (s.modCoh f).sec = s.sec := rfl
@[simp] theorem State.modCoh_dma (f : CohSt → CohSt) : (s.modCoh f).dma = s.dma := rfl
@[simp] theorem State.modCoh_pci (f : CohSt → CohSt) : (s.modCoh f).pci = s.pci := rfl
@[simp] theorem State.modCoh_reg (f : CohSt → CohSt) (i : Nat) : (s.modCoh f).reg i = s.reg i := rfl
@[simp] theorem State.modCoh_get (f : CohSt → CohSt) (g : Fld) : (s.modCoh f).get g = s.get g := rfl
@[simp] theorem State.modCoh_byte (f : CohSt → CohSt) (i : Nat) : (s.modCoh f).byte i = s.byte i := rfl
@[simp] theorem State.modCoh_rdB (f : CohSt → CohSt) (i k : Nat) : (s.modCoh f).rdB i k = s.rdB i k := rfl
@[simp] theorem State.modCoh_rd (f : CohSt → CohSt) (i k : Nat) : (s.modCoh f).rd i k = s.rd i k := rfl
@[simp] theorem State.modCoh_core (f : CohSt → CohSt) (i : Nat) : (s.modCoh f).core i = s.core i := rfl
@[simp] theorem State.modCoh_grv (f : CohSt → CohSt) (i : Nat) : (s.modCoh f).grv i = s.grv i := rfl
@[simp] theorem State.modCoh_grv? (f : CohSt → CohSt) (i : Nat) : (s.modCoh f).grv? i = s.grv? i := rfl
@[simp] theorem State.modCoh_port (f : CohSt → CohSt) (i : Nat) : (s.modCoh f).port i = s.port i := rfl
@[simp] theorem State.modCoh_hawser (f : CohSt → CohSt) (i : Nat) : (s.modCoh f).hawser i = s.hawser i := rfl
@[simp] theorem State.modCoh_lane (f : CohSt → CohSt) (i : Nat) : (s.modCoh f).lane i = s.lane i := rfl

/-! ### modPci -/

@[simp] theorem State.modPci_now (f : PciSt → PciSt) : (s.modPci f).now = s.now := rfl
@[simp] theorem State.modPci_regs (f : PciSt → PciSt) : (s.modPci f).regs = s.regs := rfl
@[simp] theorem State.modPci_mem (f : PciSt → PciSt) : (s.modPci f).mem = s.mem := rfl
@[simp] theorem State.modPci_flash (f : PciSt → PciSt) : (s.modPci f).flash = s.flash := rfl
@[simp] theorem State.modPci_pending (f : PciSt → PciSt) : (s.modPci f).pending = s.pending := rfl
@[simp] theorem State.modPci_resp (f : PciSt → PciSt) : (s.modPci f).resp = s.resp := rfl
@[simp] theorem State.modPci_freeCnt (f : PciSt → PciSt) : (s.modPci f).freeCnt = s.freeCnt := rfl
@[simp] theorem State.modPci_start (f : PciSt → PciSt) : (s.modPci f).start = s.start := rfl
@[simp] theorem State.modPci_frame (f : PciSt → PciSt) : (s.modPci f).frame = s.frame := rfl
@[simp] theorem State.modPci_signal (f : PciSt → PciSt) : (s.modPci f).signal = s.signal := rfl
@[simp] theorem State.modPci_loop (f : PciSt → PciSt) : (s.modPci f).loop = s.loop := rfl
@[simp] theorem State.modPci_field (f : PciSt → PciSt) : (s.modPci f).field = s.field := rfl
@[simp] theorem State.modPci_cascade (f : PciSt → PciSt) : (s.modPci f).cascade = s.cascade := rfl
@[simp] theorem State.modPci_groves (f : PciSt → PciSt) : (s.modPci f).groves = s.groves := rfl
@[simp] theorem State.modPci_gcmd (f : PciSt → PciSt) : (s.modPci f).gcmd = s.gcmd := rfl
@[simp] theorem State.modPci_cores (f : PciSt → PciSt) : (s.modPci f).cores = s.cores := rfl
@[simp] theorem State.modPci_runStacks (f : PciSt → PciSt) : (s.modPci f).runStacks = s.runStacks := rfl
@[simp] theorem State.modPci_coh (f : PciSt → PciSt) : (s.modPci f).coh = s.coh := rfl
@[simp] theorem State.modPci_power (f : PciSt → PciSt) : (s.modPci f).power = s.power := rfl
@[simp] theorem State.modPci_pins (f : PciSt → PciSt) : (s.modPci f).pins = s.pins := rfl
@[simp] theorem State.modPci_met (f : PciSt → PciSt) : (s.modPci f).met = s.met := rfl
@[simp] theorem State.modPci_sec (f : PciSt → PciSt) : (s.modPci f).sec = s.sec := rfl
@[simp] theorem State.modPci_dma (f : PciSt → PciSt) : (s.modPci f).dma = s.dma := rfl
@[simp] theorem State.modPci_reg (f : PciSt → PciSt) (i : Nat) : (s.modPci f).reg i = s.reg i := rfl
@[simp] theorem State.modPci_get (f : PciSt → PciSt) (g : Fld) : (s.modPci f).get g = s.get g := rfl
@[simp] theorem State.modPci_byte (f : PciSt → PciSt) (i : Nat) : (s.modPci f).byte i = s.byte i := rfl
@[simp] theorem State.modPci_rdB (f : PciSt → PciSt) (i k : Nat) : (s.modPci f).rdB i k = s.rdB i k := rfl
@[simp] theorem State.modPci_rd (f : PciSt → PciSt) (i k : Nat) : (s.modPci f).rd i k = s.rd i k := rfl
@[simp] theorem State.modPci_core (f : PciSt → PciSt) (i : Nat) : (s.modPci f).core i = s.core i := rfl
@[simp] theorem State.modPci_grv (f : PciSt → PciSt) (i : Nat) : (s.modPci f).grv i = s.grv i := rfl
@[simp] theorem State.modPci_grv? (f : PciSt → PciSt) (i : Nat) : (s.modPci f).grv? i = s.grv? i := rfl
@[simp] theorem State.modPci_port (f : PciSt → PciSt) (i : Nat) : (s.modPci f).port i = s.port i := rfl
@[simp] theorem State.modPci_hawser (f : PciSt → PciSt) (i : Nat) : (s.modPci f).hawser i = s.hawser i := rfl
@[simp] theorem State.modPci_lane (f : PciSt → PciSt) (i : Nat) : (s.modPci f).lane i = s.lane i := rfl

/-! ### modSec -/

@[simp] theorem State.modSec_now (f : SecSt → SecSt) : (s.modSec f).now = s.now := rfl
@[simp] theorem State.modSec_regs (f : SecSt → SecSt) : (s.modSec f).regs = s.regs := rfl
@[simp] theorem State.modSec_mem (f : SecSt → SecSt) : (s.modSec f).mem = s.mem := rfl
@[simp] theorem State.modSec_flash (f : SecSt → SecSt) : (s.modSec f).flash = s.flash := rfl
@[simp] theorem State.modSec_pending (f : SecSt → SecSt) : (s.modSec f).pending = s.pending := rfl
@[simp] theorem State.modSec_resp (f : SecSt → SecSt) : (s.modSec f).resp = s.resp := rfl
@[simp] theorem State.modSec_freeCnt (f : SecSt → SecSt) : (s.modSec f).freeCnt = s.freeCnt := rfl
@[simp] theorem State.modSec_start (f : SecSt → SecSt) : (s.modSec f).start = s.start := rfl
@[simp] theorem State.modSec_frame (f : SecSt → SecSt) : (s.modSec f).frame = s.frame := rfl
@[simp] theorem State.modSec_signal (f : SecSt → SecSt) : (s.modSec f).signal = s.signal := rfl
@[simp] theorem State.modSec_loop (f : SecSt → SecSt) : (s.modSec f).loop = s.loop := rfl
@[simp] theorem State.modSec_field (f : SecSt → SecSt) : (s.modSec f).field = s.field := rfl
@[simp] theorem State.modSec_cascade (f : SecSt → SecSt) : (s.modSec f).cascade = s.cascade := rfl
@[simp] theorem State.modSec_groves (f : SecSt → SecSt) : (s.modSec f).groves = s.groves := rfl
@[simp] theorem State.modSec_gcmd (f : SecSt → SecSt) : (s.modSec f).gcmd = s.gcmd := rfl
@[simp] theorem State.modSec_cores (f : SecSt → SecSt) : (s.modSec f).cores = s.cores := rfl
@[simp] theorem State.modSec_runStacks (f : SecSt → SecSt) : (s.modSec f).runStacks = s.runStacks := rfl
@[simp] theorem State.modSec_coh (f : SecSt → SecSt) : (s.modSec f).coh = s.coh := rfl
@[simp] theorem State.modSec_power (f : SecSt → SecSt) : (s.modSec f).power = s.power := rfl
@[simp] theorem State.modSec_pins (f : SecSt → SecSt) : (s.modSec f).pins = s.pins := rfl
@[simp] theorem State.modSec_met (f : SecSt → SecSt) : (s.modSec f).met = s.met := rfl
@[simp] theorem State.modSec_dma (f : SecSt → SecSt) : (s.modSec f).dma = s.dma := rfl
@[simp] theorem State.modSec_pci (f : SecSt → SecSt) : (s.modSec f).pci = s.pci := rfl
@[simp] theorem State.modSec_reg (f : SecSt → SecSt) (i : Nat) : (s.modSec f).reg i = s.reg i := rfl
@[simp] theorem State.modSec_get (f : SecSt → SecSt) (g : Fld) : (s.modSec f).get g = s.get g := rfl
@[simp] theorem State.modSec_byte (f : SecSt → SecSt) (i : Nat) : (s.modSec f).byte i = s.byte i := rfl
@[simp] theorem State.modSec_rdB (f : SecSt → SecSt) (i k : Nat) : (s.modSec f).rdB i k = s.rdB i k := rfl
@[simp] theorem State.modSec_rd (f : SecSt → SecSt) (i k : Nat) : (s.modSec f).rd i k = s.rd i k := rfl
@[simp] theorem State.modSec_core (f : SecSt → SecSt) (i : Nat) : (s.modSec f).core i = s.core i := rfl
@[simp] theorem State.modSec_grv (f : SecSt → SecSt) (i : Nat) : (s.modSec f).grv i = s.grv i := rfl
@[simp] theorem State.modSec_grv? (f : SecSt → SecSt) (i : Nat) : (s.modSec f).grv? i = s.grv? i := rfl
@[simp] theorem State.modSec_port (f : SecSt → SecSt) (i : Nat) : (s.modSec f).port i = s.port i := rfl
@[simp] theorem State.modSec_hawser (f : SecSt → SecSt) (i : Nat) : (s.modSec f).hawser i = s.hawser i := rfl
@[simp] theorem State.modSec_lane (f : SecSt → SecSt) (i : Nat) : (s.modSec f).lane i = s.lane i := rfl

/-! ### modDma -/

@[simp] theorem State.modDma_now (f : DmaSt → DmaSt) : (s.modDma f).now = s.now := rfl
@[simp] theorem State.modDma_regs (f : DmaSt → DmaSt) : (s.modDma f).regs = s.regs := rfl
@[simp] theorem State.modDma_mem (f : DmaSt → DmaSt) : (s.modDma f).mem = s.mem := rfl
@[simp] theorem State.modDma_flash (f : DmaSt → DmaSt) : (s.modDma f).flash = s.flash := rfl
@[simp] theorem State.modDma_pending (f : DmaSt → DmaSt) : (s.modDma f).pending = s.pending := rfl
@[simp] theorem State.modDma_resp (f : DmaSt → DmaSt) : (s.modDma f).resp = s.resp := rfl
@[simp] theorem State.modDma_freeCnt (f : DmaSt → DmaSt) : (s.modDma f).freeCnt = s.freeCnt := rfl
@[simp] theorem State.modDma_start (f : DmaSt → DmaSt) : (s.modDma f).start = s.start := rfl
@[simp] theorem State.modDma_frame (f : DmaSt → DmaSt) : (s.modDma f).frame = s.frame := rfl
@[simp] theorem State.modDma_signal (f : DmaSt → DmaSt) : (s.modDma f).signal = s.signal := rfl
@[simp] theorem State.modDma_loop (f : DmaSt → DmaSt) : (s.modDma f).loop = s.loop := rfl
@[simp] theorem State.modDma_field (f : DmaSt → DmaSt) : (s.modDma f).field = s.field := rfl
@[simp] theorem State.modDma_cascade (f : DmaSt → DmaSt) : (s.modDma f).cascade = s.cascade := rfl
@[simp] theorem State.modDma_groves (f : DmaSt → DmaSt) : (s.modDma f).groves = s.groves := rfl
@[simp] theorem State.modDma_gcmd (f : DmaSt → DmaSt) : (s.modDma f).gcmd = s.gcmd := rfl
@[simp] theorem State.modDma_cores (f : DmaSt → DmaSt) : (s.modDma f).cores = s.cores := rfl
@[simp] theorem State.modDma_runStacks (f : DmaSt → DmaSt) : (s.modDma f).runStacks = s.runStacks := rfl
@[simp] theorem State.modDma_coh (f : DmaSt → DmaSt) : (s.modDma f).coh = s.coh := rfl
@[simp] theorem State.modDma_power (f : DmaSt → DmaSt) : (s.modDma f).power = s.power := rfl
@[simp] theorem State.modDma_pins (f : DmaSt → DmaSt) : (s.modDma f).pins = s.pins := rfl
@[simp] theorem State.modDma_met (f : DmaSt → DmaSt) : (s.modDma f).met = s.met := rfl
@[simp] theorem State.modDma_sec (f : DmaSt → DmaSt) : (s.modDma f).sec = s.sec := rfl
@[simp] theorem State.modDma_pci (f : DmaSt → DmaSt) : (s.modDma f).pci = s.pci := rfl
@[simp] theorem State.modDma_reg (f : DmaSt → DmaSt) (i : Nat) : (s.modDma f).reg i = s.reg i := rfl
@[simp] theorem State.modDma_get (f : DmaSt → DmaSt) (g : Fld) : (s.modDma f).get g = s.get g := rfl
@[simp] theorem State.modDma_byte (f : DmaSt → DmaSt) (i : Nat) : (s.modDma f).byte i = s.byte i := rfl
@[simp] theorem State.modDma_rdB (f : DmaSt → DmaSt) (i k : Nat) : (s.modDma f).rdB i k = s.rdB i k := rfl
@[simp] theorem State.modDma_rd (f : DmaSt → DmaSt) (i k : Nat) : (s.modDma f).rd i k = s.rd i k := rfl
@[simp] theorem State.modDma_core (f : DmaSt → DmaSt) (i : Nat) : (s.modDma f).core i = s.core i := rfl
@[simp] theorem State.modDma_grv (f : DmaSt → DmaSt) (i : Nat) : (s.modDma f).grv i = s.grv i := rfl
@[simp] theorem State.modDma_grv? (f : DmaSt → DmaSt) (i : Nat) : (s.modDma f).grv? i = s.grv? i := rfl
@[simp] theorem State.modDma_port (f : DmaSt → DmaSt) (i : Nat) : (s.modDma f).port i = s.port i := rfl
@[simp] theorem State.modDma_hawser (f : DmaSt → DmaSt) (i : Nat) : (s.modDma f).hawser i = s.hawser i := rfl
@[simp] theorem State.modDma_lane (f : DmaSt → DmaSt) (i : Nat) : (s.modDma f).lane i = s.lane i := rfl

/-! ### modMet -/

@[simp] theorem State.modMet_now (f : MetSt → MetSt) : (s.modMet f).now = s.now := rfl
@[simp] theorem State.modMet_regs (f : MetSt → MetSt) : (s.modMet f).regs = s.regs := rfl
@[simp] theorem State.modMet_mem (f : MetSt → MetSt) : (s.modMet f).mem = s.mem := rfl
@[simp] theorem State.modMet_flash (f : MetSt → MetSt) : (s.modMet f).flash = s.flash := rfl
@[simp] theorem State.modMet_pending (f : MetSt → MetSt) : (s.modMet f).pending = s.pending := rfl
@[simp] theorem State.modMet_resp (f : MetSt → MetSt) : (s.modMet f).resp = s.resp := rfl
@[simp] theorem State.modMet_freeCnt (f : MetSt → MetSt) : (s.modMet f).freeCnt = s.freeCnt := rfl
@[simp] theorem State.modMet_start (f : MetSt → MetSt) : (s.modMet f).start = s.start := rfl
@[simp] theorem State.modMet_frame (f : MetSt → MetSt) : (s.modMet f).frame = s.frame := rfl
@[simp] theorem State.modMet_signal (f : MetSt → MetSt) : (s.modMet f).signal = s.signal := rfl
@[simp] theorem State.modMet_loop (f : MetSt → MetSt) : (s.modMet f).loop = s.loop := rfl
@[simp] theorem State.modMet_field (f : MetSt → MetSt) : (s.modMet f).field = s.field := rfl
@[simp] theorem State.modMet_cascade (f : MetSt → MetSt) : (s.modMet f).cascade = s.cascade := rfl
@[simp] theorem State.modMet_groves (f : MetSt → MetSt) : (s.modMet f).groves = s.groves := rfl
@[simp] theorem State.modMet_gcmd (f : MetSt → MetSt) : (s.modMet f).gcmd = s.gcmd := rfl
@[simp] theorem State.modMet_cores (f : MetSt → MetSt) : (s.modMet f).cores = s.cores := rfl
@[simp] theorem State.modMet_runStacks (f : MetSt → MetSt) : (s.modMet f).runStacks = s.runStacks := rfl
@[simp] theorem State.modMet_coh (f : MetSt → MetSt) : (s.modMet f).coh = s.coh := rfl
@[simp] theorem State.modMet_power (f : MetSt → MetSt) : (s.modMet f).power = s.power := rfl
@[simp] theorem State.modMet_pins (f : MetSt → MetSt) : (s.modMet f).pins = s.pins := rfl
@[simp] theorem State.modMet_sec (f : MetSt → MetSt) : (s.modMet f).sec = s.sec := rfl
@[simp] theorem State.modMet_dma (f : MetSt → MetSt) : (s.modMet f).dma = s.dma := rfl
@[simp] theorem State.modMet_pci (f : MetSt → MetSt) : (s.modMet f).pci = s.pci := rfl
@[simp] theorem State.modMet_reg (f : MetSt → MetSt) (i : Nat) : (s.modMet f).reg i = s.reg i := rfl
@[simp] theorem State.modMet_get (f : MetSt → MetSt) (g : Fld) : (s.modMet f).get g = s.get g := rfl
@[simp] theorem State.modMet_byte (f : MetSt → MetSt) (i : Nat) : (s.modMet f).byte i = s.byte i := rfl
@[simp] theorem State.modMet_rdB (f : MetSt → MetSt) (i k : Nat) : (s.modMet f).rdB i k = s.rdB i k := rfl
@[simp] theorem State.modMet_rd (f : MetSt → MetSt) (i k : Nat) : (s.modMet f).rd i k = s.rd i k := rfl
@[simp] theorem State.modMet_core (f : MetSt → MetSt) (i : Nat) : (s.modMet f).core i = s.core i := rfl
@[simp] theorem State.modMet_grv (f : MetSt → MetSt) (i : Nat) : (s.modMet f).grv i = s.grv i := rfl
@[simp] theorem State.modMet_grv? (f : MetSt → MetSt) (i : Nat) : (s.modMet f).grv? i = s.grv? i := rfl
@[simp] theorem State.modMet_port (f : MetSt → MetSt) (i : Nat) : (s.modMet f).port i = s.port i := rfl
@[simp] theorem State.modMet_hawser (f : MetSt → MetSt) (i : Nat) : (s.modMet f).hawser i = s.hawser i := rfl
@[simp] theorem State.modMet_lane (f : MetSt → MetSt) (i : Nat) : (s.modMet f).lane i = s.lane i := rfl

/-! ### modPower -/

@[simp] theorem State.modPower_now (f : PowerSt → PowerSt) : (s.modPower f).now = s.now := rfl
@[simp] theorem State.modPower_regs (f : PowerSt → PowerSt) : (s.modPower f).regs = s.regs := rfl
@[simp] theorem State.modPower_mem (f : PowerSt → PowerSt) : (s.modPower f).mem = s.mem := rfl
@[simp] theorem State.modPower_flash (f : PowerSt → PowerSt) : (s.modPower f).flash = s.flash := rfl
@[simp] theorem State.modPower_pending (f : PowerSt → PowerSt) : (s.modPower f).pending = s.pending := rfl
@[simp] theorem State.modPower_resp (f : PowerSt → PowerSt) : (s.modPower f).resp = s.resp := rfl
@[simp] theorem State.modPower_freeCnt (f : PowerSt → PowerSt) : (s.modPower f).freeCnt = s.freeCnt := rfl
@[simp] theorem State.modPower_start (f : PowerSt → PowerSt) : (s.modPower f).start = s.start := rfl
@[simp] theorem State.modPower_frame (f : PowerSt → PowerSt) : (s.modPower f).frame = s.frame := rfl
@[simp] theorem State.modPower_signal (f : PowerSt → PowerSt) : (s.modPower f).signal = s.signal := rfl
@[simp] theorem State.modPower_loop (f : PowerSt → PowerSt) : (s.modPower f).loop = s.loop := rfl
@[simp] theorem State.modPower_field (f : PowerSt → PowerSt) : (s.modPower f).field = s.field := rfl
@[simp] theorem State.modPower_cascade (f : PowerSt → PowerSt) : (s.modPower f).cascade = s.cascade := rfl
@[simp] theorem State.modPower_groves (f : PowerSt → PowerSt) : (s.modPower f).groves = s.groves := rfl
@[simp] theorem State.modPower_gcmd (f : PowerSt → PowerSt) : (s.modPower f).gcmd = s.gcmd := rfl
@[simp] theorem State.modPower_cores (f : PowerSt → PowerSt) : (s.modPower f).cores = s.cores := rfl
@[simp] theorem State.modPower_runStacks (f : PowerSt → PowerSt) : (s.modPower f).runStacks = s.runStacks := rfl
@[simp] theorem State.modPower_coh (f : PowerSt → PowerSt) : (s.modPower f).coh = s.coh := rfl
@[simp] theorem State.modPower_pins (f : PowerSt → PowerSt) : (s.modPower f).pins = s.pins := rfl
@[simp] theorem State.modPower_met (f : PowerSt → PowerSt) : (s.modPower f).met = s.met := rfl
@[simp] theorem State.modPower_sec (f : PowerSt → PowerSt) : (s.modPower f).sec = s.sec := rfl
@[simp] theorem State.modPower_dma (f : PowerSt → PowerSt) : (s.modPower f).dma = s.dma := rfl
@[simp] theorem State.modPower_pci (f : PowerSt → PowerSt) : (s.modPower f).pci = s.pci := rfl
@[simp] theorem State.modPower_reg (f : PowerSt → PowerSt) (i : Nat) : (s.modPower f).reg i = s.reg i := rfl
@[simp] theorem State.modPower_get (f : PowerSt → PowerSt) (g : Fld) : (s.modPower f).get g = s.get g := rfl
@[simp] theorem State.modPower_byte (f : PowerSt → PowerSt) (i : Nat) : (s.modPower f).byte i = s.byte i := rfl
@[simp] theorem State.modPower_rdB (f : PowerSt → PowerSt) (i k : Nat) : (s.modPower f).rdB i k = s.rdB i k := rfl
@[simp] theorem State.modPower_rd (f : PowerSt → PowerSt) (i k : Nat) : (s.modPower f).rd i k = s.rd i k := rfl
@[simp] theorem State.modPower_core (f : PowerSt → PowerSt) (i : Nat) : (s.modPower f).core i = s.core i := rfl
@[simp] theorem State.modPower_grv (f : PowerSt → PowerSt) (i : Nat) : (s.modPower f).grv i = s.grv i := rfl
@[simp] theorem State.modPower_grv? (f : PowerSt → PowerSt) (i : Nat) : (s.modPower f).grv? i = s.grv? i := rfl
@[simp] theorem State.modPower_port (f : PowerSt → PowerSt) (i : Nat) : (s.modPower f).port i = s.port i := rfl
@[simp] theorem State.modPower_hawser (f : PowerSt → PowerSt) (i : Nat) : (s.modPower f).hawser i = s.hawser i := rfl
@[simp] theorem State.modPower_lane (f : PowerSt → PowerSt) (i : Nat) : (s.modPower f).lane i = s.lane i := rfl

/-! ### setStack -/

@[simp] theorem State.setStack_now (c : Nat) (l : List (Nat × Nat)) : (s.setStack c l).now = s.now := rfl
@[simp] theorem State.setStack_regs (c : Nat) (l : List (Nat × Nat)) : (s.setStack c l).regs = s.regs := rfl
@[simp] theorem State.setStack_mem (c : Nat) (l : List (Nat × Nat)) : (s.setStack c l).mem = s.mem := rfl
@[simp] theorem State.setStack_flash (c : Nat) (l : List (Nat × Nat)) : (s.setStack c l).flash = s.flash := rfl
@[simp] theorem State.setStack_pending (c : Nat) (l : List (Nat × Nat)) : (s.setStack c l).pending = s.pending := rfl
@[simp] theorem State.setStack_resp (c : Nat) (l : List (Nat × Nat)) : (s.setStack c l).resp = s.resp := rfl
@[simp] theorem State.setStack_freeCnt (c : Nat) (l : List (Nat × Nat)) : (s.setStack c l).freeCnt = s.freeCnt := rfl
@[simp] theorem State.setStack_start (c : Nat) (l : List (Nat × Nat)) : (s.setStack c l).start = s.start := rfl
@[simp] theorem State.setStack_frame (c : Nat) (l : List (Nat × Nat)) : (s.setStack c l).frame = s.frame := rfl
@[simp] theorem State.setStack_signal (c : Nat) (l : List (Nat × Nat)) : (s.setStack c l).signal = s.signal := rfl
@[simp] theorem State.setStack_loop (c : Nat) (l : List (Nat × Nat)) : (s.setStack c l).loop = s.loop := rfl
@[simp] theorem State.setStack_field (c : Nat) (l : List (Nat × Nat)) : (s.setStack c l).field = s.field := rfl
@[simp] theorem State.setStack_cascade (c : Nat) (l : List (Nat × Nat)) : (s.setStack c l).cascade = s.cascade := rfl
@[simp] theorem State.setStack_groves (c : Nat) (l : List (Nat × Nat)) : (s.setStack c l).groves = s.groves := rfl
@[simp] theorem State.setStack_gcmd (c : Nat) (l : List (Nat × Nat)) : (s.setStack c l).gcmd = s.gcmd := rfl
@[simp] theorem State.setStack_cores (c : Nat) (l : List (Nat × Nat)) : (s.setStack c l).cores = s.cores := rfl
@[simp] theorem State.setStack_coh (c : Nat) (l : List (Nat × Nat)) : (s.setStack c l).coh = s.coh := rfl
@[simp] theorem State.setStack_power (c : Nat) (l : List (Nat × Nat)) : (s.setStack c l).power = s.power := rfl
@[simp] theorem State.setStack_pins (c : Nat) (l : List (Nat × Nat)) : (s.setStack c l).pins = s.pins := rfl
@[simp] theorem State.setStack_met (c : Nat) (l : List (Nat × Nat)) : (s.setStack c l).met = s.met := rfl
@[simp] theorem State.setStack_sec (c : Nat) (l : List (Nat × Nat)) : (s.setStack c l).sec = s.sec := rfl
@[simp] theorem State.setStack_dma (c : Nat) (l : List (Nat × Nat)) : (s.setStack c l).dma = s.dma := rfl
@[simp] theorem State.setStack_pci (c : Nat) (l : List (Nat × Nat)) : (s.setStack c l).pci = s.pci := rfl
@[simp] theorem State.setStack_reg (c : Nat) (l : List (Nat × Nat)) (i : Nat) : (s.setStack c l).reg i = s.reg i := rfl
@[simp] theorem State.setStack_get (c : Nat) (l : List (Nat × Nat)) (g : Fld) : (s.setStack c l).get g = s.get g := rfl
@[simp] theorem State.setStack_byte (c : Nat) (l : List (Nat × Nat)) (i : Nat) : (s.setStack c l).byte i = s.byte i := rfl
@[simp] theorem State.setStack_rdB (c : Nat) (l : List (Nat × Nat)) (i k : Nat) : (s.setStack c l).rdB i k = s.rdB i k := rfl
@[simp] theorem State.setStack_rd (c : Nat) (l : List (Nat × Nat)) (i k : Nat) : (s.setStack c l).rd i k = s.rd i k := rfl
@[simp] theorem State.setStack_core (c : Nat) (l : List (Nat × Nat)) (i : Nat) : (s.setStack c l).core i = s.core i := rfl
@[simp] theorem State.setStack_grv (c : Nat) (l : List (Nat × Nat)) (i : Nat) : (s.setStack c l).grv i = s.grv i := rfl
@[simp] theorem State.setStack_grv? (c : Nat) (l : List (Nat × Nat)) (i : Nat) : (s.setStack c l).grv? i = s.grv? i := rfl
@[simp] theorem State.setStack_port (c : Nat) (l : List (Nat × Nat)) (i : Nat) : (s.setStack c l).port i = s.port i := rfl
@[simp] theorem State.setStack_hawser (c : Nat) (l : List (Nat × Nat)) (i : Nat) : (s.setStack c l).hawser i = s.hawser i := rfl
@[simp] theorem State.setStack_lane (c : Nat) (l : List (Nat × Nat)) (i : Nat) : (s.setStack c l).lane i = s.lane i := rfl

/-! ### answer -/

@[simp] theorem State.answer_now (r : Response) : (s.answer r).now = s.now := rfl
@[simp] theorem State.answer_regs (r : Response) : (s.answer r).regs = s.regs := rfl
@[simp] theorem State.answer_mem (r : Response) : (s.answer r).mem = s.mem := rfl
@[simp] theorem State.answer_flash (r : Response) : (s.answer r).flash = s.flash := rfl
@[simp] theorem State.answer_pending (r : Response) : (s.answer r).pending = s.pending := rfl
@[simp] theorem State.answer_freeCnt (r : Response) : (s.answer r).freeCnt = s.freeCnt := rfl
@[simp] theorem State.answer_start (r : Response) : (s.answer r).start = s.start := rfl
@[simp] theorem State.answer_frame (r : Response) : (s.answer r).frame = s.frame := rfl
@[simp] theorem State.answer_signal (r : Response) : (s.answer r).signal = s.signal := rfl
@[simp] theorem State.answer_loop (r : Response) : (s.answer r).loop = s.loop := rfl
@[simp] theorem State.answer_field (r : Response) : (s.answer r).field = s.field := rfl
@[simp] theorem State.answer_cascade (r : Response) : (s.answer r).cascade = s.cascade := rfl
@[simp] theorem State.answer_groves (r : Response) : (s.answer r).groves = s.groves := rfl
@[simp] theorem State.answer_gcmd (r : Response) : (s.answer r).gcmd = s.gcmd := rfl
@[simp] theorem State.answer_cores (r : Response) : (s.answer r).cores = s.cores := rfl
@[simp] theorem State.answer_runStacks (r : Response) : (s.answer r).runStacks = s.runStacks := rfl
@[simp] theorem State.answer_coh (r : Response) : (s.answer r).coh = s.coh := rfl
@[simp] theorem State.answer_power (r : Response) : (s.answer r).power = s.power := rfl
@[simp] theorem State.answer_pins (r : Response) : (s.answer r).pins = s.pins := rfl
@[simp] theorem State.answer_met (r : Response) : (s.answer r).met = s.met := rfl
@[simp] theorem State.answer_sec (r : Response) : (s.answer r).sec = s.sec := rfl
@[simp] theorem State.answer_dma (r : Response) : (s.answer r).dma = s.dma := rfl
@[simp] theorem State.answer_pci (r : Response) : (s.answer r).pci = s.pci := rfl
@[simp] theorem State.answer_reg (r : Response) (i : Nat) : (s.answer r).reg i = s.reg i := rfl
@[simp] theorem State.answer_get (r : Response) (g : Fld) : (s.answer r).get g = s.get g := rfl
@[simp] theorem State.answer_byte (r : Response) (i : Nat) : (s.answer r).byte i = s.byte i := rfl
@[simp] theorem State.answer_rdB (r : Response) (i k : Nat) : (s.answer r).rdB i k = s.rdB i k := rfl
@[simp] theorem State.answer_rd (r : Response) (i k : Nat) : (s.answer r).rd i k = s.rd i k := rfl
@[simp] theorem State.answer_core (r : Response) (i : Nat) : (s.answer r).core i = s.core i := rfl
@[simp] theorem State.answer_grv (r : Response) (i : Nat) : (s.answer r).grv i = s.grv i := rfl
@[simp] theorem State.answer_grv? (r : Response) (i : Nat) : (s.answer r).grv? i = s.grv? i := rfl
@[simp] theorem State.answer_port (r : Response) (i : Nat) : (s.answer r).port i = s.port i := rfl
@[simp] theorem State.answer_hawser (r : Response) (i : Nat) : (s.answer r).hawser i = s.hawser i := rfl
@[simp] theorem State.answer_lane (r : Response) (i : Nat) : (s.answer r).lane i = s.lane i := rfl

/-! ### drawn -/

@[simp] theorem State.drawn_now : (s.drawn).now = s.now := rfl
@[simp] theorem State.drawn_regs : (s.drawn).regs = s.regs := rfl
@[simp] theorem State.drawn_mem : (s.drawn).mem = s.mem := rfl
@[simp] theorem State.drawn_flash : (s.drawn).flash = s.flash := rfl
@[simp] theorem State.drawn_pending : (s.drawn).pending = s.pending := rfl
@[simp] theorem State.drawn_resp : (s.drawn).resp = s.resp := rfl
@[simp] theorem State.drawn_start : (s.drawn).start = s.start := rfl
@[simp] theorem State.drawn_frame : (s.drawn).frame = s.frame := rfl
@[simp] theorem State.drawn_signal : (s.drawn).signal = s.signal := rfl
@[simp] theorem State.drawn_loop : (s.drawn).loop = s.loop := rfl
@[simp] theorem State.drawn_field : (s.drawn).field = s.field := rfl
@[simp] theorem State.drawn_cascade : (s.drawn).cascade = s.cascade := rfl
@[simp] theorem State.drawn_groves : (s.drawn).groves = s.groves := rfl
@[simp] theorem State.drawn_gcmd : (s.drawn).gcmd = s.gcmd := rfl
@[simp] theorem State.drawn_cores : (s.drawn).cores = s.cores := rfl
@[simp] theorem State.drawn_runStacks : (s.drawn).runStacks = s.runStacks := rfl
@[simp] theorem State.drawn_coh : (s.drawn).coh = s.coh := rfl
@[simp] theorem State.drawn_power : (s.drawn).power = s.power := rfl
@[simp] theorem State.drawn_pins : (s.drawn).pins = s.pins := rfl
@[simp] theorem State.drawn_met : (s.drawn).met = s.met := rfl
@[simp] theorem State.drawn_sec : (s.drawn).sec = s.sec := rfl
@[simp] theorem State.drawn_dma : (s.drawn).dma = s.dma := rfl
@[simp] theorem State.drawn_pci : (s.drawn).pci = s.pci := rfl
@[simp] theorem State.drawn_reg (i : Nat) : (s.drawn).reg i = s.reg i := rfl
@[simp] theorem State.drawn_get (g : Fld) : (s.drawn).get g = s.get g := rfl
@[simp] theorem State.drawn_byte (i : Nat) : (s.drawn).byte i = s.byte i := rfl
@[simp] theorem State.drawn_rdB (i k : Nat) : (s.drawn).rdB i k = s.rdB i k := rfl
@[simp] theorem State.drawn_rd (i k : Nat) : (s.drawn).rd i k = s.rd i k := rfl
@[simp] theorem State.drawn_core (i : Nat) : (s.drawn).core i = s.core i := rfl
@[simp] theorem State.drawn_grv (i : Nat) : (s.drawn).grv i = s.grv i := rfl
@[simp] theorem State.drawn_grv? (i : Nat) : (s.drawn).grv? i = s.grv? i := rfl
@[simp] theorem State.drawn_port (i : Nat) : (s.drawn).port i = s.port i := rfl
@[simp] theorem State.drawn_hawser (i : Nat) : (s.drawn).hawser i = s.hawser i := rfl
@[simp] theorem State.drawn_lane (i : Nat) : (s.drawn).lane i = s.lane i := rfl

/-! ### atTime -/

@[simp] theorem State.atTime_regs (t : Nat) : (s.atTime t).regs = s.regs := rfl
@[simp] theorem State.atTime_mem (t : Nat) : (s.atTime t).mem = s.mem := rfl
@[simp] theorem State.atTime_flash (t : Nat) : (s.atTime t).flash = s.flash := rfl
@[simp] theorem State.atTime_pending (t : Nat) : (s.atTime t).pending = s.pending := rfl
@[simp] theorem State.atTime_resp (t : Nat) : (s.atTime t).resp = s.resp := rfl
@[simp] theorem State.atTime_freeCnt (t : Nat) : (s.atTime t).freeCnt = s.freeCnt := rfl
@[simp] theorem State.atTime_start (t : Nat) : (s.atTime t).start = s.start := rfl
@[simp] theorem State.atTime_frame (t : Nat) : (s.atTime t).frame = s.frame := rfl
@[simp] theorem State.atTime_signal (t : Nat) : (s.atTime t).signal = s.signal := rfl
@[simp] theorem State.atTime_loop (t : Nat) : (s.atTime t).loop = s.loop := rfl
@[simp] theorem State.atTime_field (t : Nat) : (s.atTime t).field = s.field := rfl
@[simp] theorem State.atTime_cascade (t : Nat) : (s.atTime t).cascade = s.cascade := rfl
@[simp] theorem State.atTime_groves (t : Nat) : (s.atTime t).groves = s.groves := rfl
@[simp] theorem State.atTime_gcmd (t : Nat) : (s.atTime t).gcmd = s.gcmd := rfl
@[simp] theorem State.atTime_cores (t : Nat) : (s.atTime t).cores = s.cores := rfl
@[simp] theorem State.atTime_runStacks (t : Nat) : (s.atTime t).runStacks = s.runStacks := rfl
@[simp] theorem State.atTime_coh (t : Nat) : (s.atTime t).coh = s.coh := rfl
@[simp] theorem State.atTime_power (t : Nat) : (s.atTime t).power = s.power := rfl
@[simp] theorem State.atTime_pins (t : Nat) : (s.atTime t).pins = s.pins := rfl
@[simp] theorem State.atTime_met (t : Nat) : (s.atTime t).met = s.met := rfl
@[simp] theorem State.atTime_sec (t : Nat) : (s.atTime t).sec = s.sec := rfl
@[simp] theorem State.atTime_dma (t : Nat) : (s.atTime t).dma = s.dma := rfl
@[simp] theorem State.atTime_pci (t : Nat) : (s.atTime t).pci = s.pci := rfl
@[simp] theorem State.atTime_reg (t : Nat) (i : Nat) : (s.atTime t).reg i = s.reg i := rfl
@[simp] theorem State.atTime_get (t : Nat) (g : Fld) : (s.atTime t).get g = s.get g := rfl
@[simp] theorem State.atTime_byte (t : Nat) (i : Nat) : (s.atTime t).byte i = s.byte i := rfl
@[simp] theorem State.atTime_rdB (t : Nat) (i k : Nat) : (s.atTime t).rdB i k = s.rdB i k := rfl
@[simp] theorem State.atTime_rd (t : Nat) (i k : Nat) : (s.atTime t).rd i k = s.rd i k := rfl
@[simp] theorem State.atTime_core (t : Nat) (i : Nat) : (s.atTime t).core i = s.core i := rfl
@[simp] theorem State.atTime_grv (t : Nat) (i : Nat) : (s.atTime t).grv i = s.grv i := rfl
@[simp] theorem State.atTime_grv? (t : Nat) (i : Nat) : (s.atTime t).grv? i = s.grv? i := rfl
@[simp] theorem State.atTime_port (t : Nat) (i : Nat) : (s.atTime t).port i = s.port i := rfl
@[simp] theorem State.atTime_hawser (t : Nat) (i : Nat) : (s.atTime t).hawser i = s.hawser i := rfl
@[simp] theorem State.atTime_lane (t : Nat) (i : Nat) : (s.atTime t).lane i = s.lane i := rfl

/-! ### What an update changes -/

@[simp] theorem State.modFrame_frame (f : FrameSt → FrameSt) : (s.modFrame f).frame = f s.frame := rfl
@[simp] theorem State.modStart_start (f : StartSt → StartSt) : (s.modStart f).start = f s.start := rfl
@[simp] theorem State.modSignal_signal (f : SignalSt → SignalSt) : (s.modSignal f).signal = f s.signal := rfl
@[simp] theorem State.modLoop_loop (f : LoopSt → LoopSt) : (s.modLoop f).loop = f s.loop := rfl
@[simp] theorem State.modField_field (f : FieldSt → FieldSt) : (s.modField f).field = f s.field := rfl
@[simp] theorem State.modCas_cascade (f : CascadeSt → CascadeSt) : (s.modCas f).cascade = f s.cascade := rfl
@[simp] theorem State.modCoh_coh (f : CohSt → CohSt) : (s.modCoh f).coh = f s.coh := rfl
@[simp] theorem State.modPci_pci (f : PciSt → PciSt) : (s.modPci f).pci = f s.pci := rfl
@[simp] theorem State.modSec_sec (f : SecSt → SecSt) : (s.modSec f).sec = f s.sec := rfl
@[simp] theorem State.modDma_dma (f : DmaSt → DmaSt) : (s.modDma f).dma = f s.dma := rfl
@[simp] theorem State.modMet_met (f : MetSt → MetSt) : (s.modMet f).met = f s.met := rfl
@[simp] theorem State.modPower_power (f : PowerSt → PowerSt) : (s.modPower f).power = f s.power := rfl
@[simp] theorem State.answer_resp (r : Response) : (s.answer r).resp = some r := rfl
@[simp] theorem State.drawn_freeCnt : s.drawn.freeCnt = s.freeCnt + 1 := rfl
@[simp] theorem State.atTime_now (t : Nat) : (s.atTime t).now = max s.now t := rfl

end Sys2Proof.Machine
end

