-- ==== Sys2Proof/Laws/Access.lean ====
section
/-! SUPPORT. What a write does on its way to its target: the check of the firewall draws at most one free value, the requester is
answered, and then the target's own effect follows. -/

namespace Sys2Proof.Machine

variable (s : State) (r : Requester)

theorem State.fwUsed_cases : s.fwUsed r = s ∨ s.fwUsed r = s.drawn := by
  unfold State.fwUsed State.fwDrawn
  split
  · split
    · exact .inl rfl
    · exact .inr rfl
  · exact .inl rfl

@[simp] theorem State.fwUsed_now : (s.fwUsed r).now = s.now := by rcases s.fwUsed_cases r with e | e <;> rw [e] <;> rfl
@[simp] theorem State.fwUsed_regs : (s.fwUsed r).regs = s.regs := by rcases s.fwUsed_cases r with e | e <;> rw [e] <;> rfl
@[simp] theorem State.fwUsed_mem : (s.fwUsed r).mem = s.mem := by rcases s.fwUsed_cases r with e | e <;> rw [e] <;> rfl
@[simp] theorem State.fwUsed_flash : (s.fwUsed r).flash = s.flash := by rcases s.fwUsed_cases r with e | e <;> rw [e] <;> rfl
@[simp] theorem State.fwUsed_pending : (s.fwUsed r).pending = s.pending := by rcases s.fwUsed_cases r with e | e <;> rw [e] <;> rfl
@[simp] theorem State.fwUsed_resp : (s.fwUsed r).resp = s.resp := by rcases s.fwUsed_cases r with e | e <;> rw [e] <;> rfl
@[simp] theorem State.fwUsed_start : (s.fwUsed r).start = s.start := by rcases s.fwUsed_cases r with e | e <;> rw [e] <;> rfl
@[simp] theorem State.fwUsed_frame : (s.fwUsed r).frame = s.frame := by rcases s.fwUsed_cases r with e | e <;> rw [e] <;> rfl
@[simp] theorem State.fwUsed_signal : (s.fwUsed r).signal = s.signal := by rcases s.fwUsed_cases r with e | e <;> rw [e] <;> rfl
@[simp] theorem State.fwUsed_loop : (s.fwUsed r).loop = s.loop := by rcases s.fwUsed_cases r with e | e <;> rw [e] <;> rfl
@[simp] theorem State.fwUsed_field : (s.fwUsed r).field = s.field := by rcases s.fwUsed_cases r with e | e <;> rw [e] <;> rfl
@[simp] theorem State.fwUsed_cascade : (s.fwUsed r).cascade = s.cascade := by rcases s.fwUsed_cases r with e | e <;> rw [e] <;> rfl
@[simp] theorem State.fwUsed_groves : (s.fwUsed r).groves = s.groves := by rcases s.fwUsed_cases r with e | e <;> rw [e] <;> rfl
@[simp] theorem State.fwUsed_gcmd : (s.fwUsed r).gcmd = s.gcmd := by rcases s.fwUsed_cases r with e | e <;> rw [e] <;> rfl
@[simp] theorem State.fwUsed_cores : (s.fwUsed r).cores = s.cores := by rcases s.fwUsed_cases r with e | e <;> rw [e] <;> rfl
@[simp] theorem State.fwUsed_runStacks : (s.fwUsed r).runStacks = s.runStacks := by rcases s.fwUsed_cases r with e | e <;> rw [e] <;> rfl
@[simp] theorem State.fwUsed_coh : (s.fwUsed r).coh = s.coh := by rcases s.fwUsed_cases r with e | e <;> rw [e] <;> rfl
@[simp] theorem State.fwUsed_power : (s.fwUsed r).power = s.power := by rcases s.fwUsed_cases r with e | e <;> rw [e] <;> rfl
@[simp] theorem State.fwUsed_pins : (s.fwUsed r).pins = s.pins := by rcases s.fwUsed_cases r with e | e <;> rw [e] <;> rfl
@[simp] theorem State.fwUsed_met : (s.fwUsed r).met = s.met := by rcases s.fwUsed_cases r with e | e <;> rw [e] <;> rfl
@[simp] theorem State.fwUsed_sec : (s.fwUsed r).sec = s.sec := by rcases s.fwUsed_cases r with e | e <;> rw [e] <;> rfl
@[simp] theorem State.fwUsed_dma : (s.fwUsed r).dma = s.dma := by rcases s.fwUsed_cases r with e | e <;> rw [e] <;> rfl
@[simp] theorem State.fwUsed_pci : (s.fwUsed r).pci = s.pci := by rcases s.fwUsed_cases r with e | e <;> rw [e] <;> rfl
@[simp] theorem State.fwUsed_reg (i : Nat) : (s.fwUsed r).reg i = s.reg i := by rcases s.fwUsed_cases r with e | e <;> rw [e] <;> rfl
@[simp] theorem State.fwUsed_get (g : Fld) : (s.fwUsed r).get g = s.get g := by rcases s.fwUsed_cases r with e | e <;> rw [e] <;> rfl
@[simp] theorem State.fwUsed_byte (i : Nat) : (s.fwUsed r).byte i = s.byte i := by rcases s.fwUsed_cases r with e | e <;> rw [e] <;> rfl
@[simp] theorem State.fwUsed_rdB (i k : Nat) : (s.fwUsed r).rdB i k = s.rdB i k := by rcases s.fwUsed_cases r with e | e <;> rw [e] <;> rfl
@[simp] theorem State.fwUsed_rd (i k : Nat) : (s.fwUsed r).rd i k = s.rd i k := by rcases s.fwUsed_cases r with e | e <;> rw [e] <;> rfl
@[simp] theorem State.fwUsed_core (i : Nat) : (s.fwUsed r).core i = s.core i := by rcases s.fwUsed_cases r with e | e <;> rw [e] <;> rfl
@[simp] theorem State.fwUsed_grv (i : Nat) : (s.fwUsed r).grv i = s.grv i := by rcases s.fwUsed_cases r with e | e <;> rw [e] <;> rfl
@[simp] theorem State.fwUsed_grv? (i : Nat) : (s.fwUsed r).grv? i = s.grv? i := by rcases s.fwUsed_cases r with e | e <;> rw [e] <;> rfl
@[simp] theorem State.fwUsed_port (i : Nat) : (s.fwUsed r).port i = s.port i := by rcases s.fwUsed_cases r with e | e <;> rw [e] <;> rfl
@[simp] theorem State.fwUsed_hawser (i : Nat) : (s.fwUsed r).hawser i = s.hawser i := by rcases s.fwUsed_cases r with e | e <;> rw [e] <;> rfl
@[simp] theorem State.fwUsed_lane (i : Nat) : (s.fwUsed r).lane i = s.lane i := by rcases s.fwUsed_cases r with e | e <;> rw [e] <;> rfl

/-- A write that reaches its target has its effect after its answer. -/
theorem State.writeAt_of {a n : Nat} (f : State → State) (hp : s.present r = true) (h : s.reaches r .write a n = true) :
    s.writeAt r a n f = f ((s.fwUsed r).answer .ok) := by simp [State.writeAt, hp, h]

theorem State.regWriteAt_of {off n : Nat} (f : State → State) (hp : s.present r = true)
    (h : s.reaches r .write (winBase + off) n = true) : s.regWriteAt r off n f = f ((s.fwUsed r).answer .ok) :=
  s.writeAt_of r f hp h

end Sys2Proof.Machine
end

