-- ==== Sys2Proof/Laws/Lines.lean ====
section
/-! SUPPORT. The caches and the directory: what moves a line touches the coherence state, the free counter and the caches, reservations and
loads in progress of the cores. -/

namespace Sys2Proof.Machine

/-- A core but for its caches, its reservation, its loads in progress and its performance counters. -/
def CoreSt.bare (k : CoreSt) : CoreSt :=
  { k with rsv := none, l1d := [], l1i := [], shadow := [], misses := [], lq := [], pcsr := [], pmcAt := 0 }

/-- What no line that moves touches: the state but for the cores, the coherence state and the free counter; and the cores, bare. -/
def State.uncached (s : State) : State × (Nat → CoreSt) := ({ s with cores := [], coh := {}, freeCnt := 0 }, fun d => (s.core d).bare)

theorem CoreSt.dropShadow_bare (k : CoreSt) (line : Nat) : (k.dropShadow line).bare = k.bare := by
  unfold CoreSt.dropShadow
  split
  · rfl
  · dsimp only; split <;> rfl

theorem CoreSt.dropLine_bare (k : CoreSt) (line : Nat) : (k.dropLine line).bare = k.bare := (k.dropL1 line).dropShadow_bare line

variable (s : State)

@[simp] theorem State.modCoh_uncached (f : CohSt → CohSt) : (s.modCoh f).uncached = s.uncached := rfl
theorem State.modCore_uncached (c : Nat) (f : CoreSt → CoreSt) (h : ∀ k, (f k).bare = k.bare) : (s.modCore c f).uncached = s.uncached := by
  refine Prod.ext rfl (funext fun d => ?_)
  show ((s.setCore c (f (s.core c))).core d).bare = (s.core d).bare
  unfold State.core State.setCore
  rw [mapGet_set]; split
  · subst_vars; exact h _
  · rfl
@[simp] theorem State.setPcsr_uncached (c n v : Nat) : (s.setPcsr c n v).uncached = s.uncached := s.modCore_uncached _ _ fun _ => rfl
@[simp] theorem State.drawn_uncached : s.drawn.uncached = s.uncached := rfl

@[simp] theorem State.iff_uncached (b : Bool) (f : State → State) (h : ∀ t : State, (f t).uncached = t.uncached) :
    (s.iff b f).uncached = s.uncached := by
  unfold State.iff; split
  · exact h s
  · rfl

@[simp] theorem State.each_uncached {α : Type} (l : List α) (f : State → α → State)
    (h : ∀ (t : State) (a : α), (f t a).uncached = t.uncached) : (s.each l f).uncached = s.uncached := by
  unfold State.each
  induction l generalizing s with
  | nil => rfl
  | cons a l ih => exact (ih (f s a)).trans (h s a)

@[simp] theorem State.mendLine_uncached (line : Nat) : (s.mendLine line).uncached = s.uncached := by unfold State.mendLine; split <;> simp
@[simp] theorem State.toL3_uncached (line : Nat) (d : Bool) : (s.toL3 line d).uncached = s.uncached := by
  unfold State.toL3; dsimp only; split <;> simp
@[simp] theorem State.dropAt_uncached (cl line : Nat) : (s.dropAt cl line).uncached = s.uncached := by
  unfold State.dropAt; exact State.each_uncached _ _ _ fun t d => t.modCore_uncached _ _ fun k => k.dropLine_bare line
@[simp] theorem State.dirMod_uncached (line : Nat) (f : DirEntry → DirEntry) : (s.dirMod line f).uncached = s.uncached := by
  unfold State.dirMod; split
  · rfl
  · dsimp only; split <;> simp
@[simp] theorem State.clearPresence_uncached (cl line : Nat) : (s.clearPresence cl line).uncached = s.uncached := by
  unfold State.clearPresence; simp
@[simp] theorem State.dropOthers_uncached (line : Nat) (k : Option Nat) : (s.dropOthers line k).uncached = s.uncached := by
  unfold State.dropOthers; dsimp only; split <;> simp
@[simp] theorem State.setWb_uncached (cl line : Nat) (on : Bool) : (s.setWb cl line on).uncached = s.uncached := by
  unfold State.setWb; simp
@[simp] theorem State.evictL2_uncached (cl line : Nat) (st : LineState) : (s.evictL2 cl line st).uncached = s.uncached := by
  unfold State.evictL2; dsimp only; split
  · split <;> split <;> simp
  · simp
@[simp] theorem State.fillL2_uncached (cl line : Nat) (st : LineState) : (s.fillL2 cl line st).uncached = s.uncached := by
  unfold State.fillL2; dsimp only; split <;> simp
@[simp] theorem State.setL2_uncached (cl line : Nat) (st : LineState) : (s.setL2 cl line st).uncached = s.uncached := by
  unfold State.setL2; dsimp only; split
  · exact State.each_uncached _ _ _ fun t _ => t.modCore_uncached _ _ fun _ => rfl
  · rfl
@[simp] theorem State.dirPut_uncached (line : Nat) (rt : Bool) (o : Option Nat) (u : Bool) (p : Nat) :
    (s.dirPut line rt o u p).uncached = s.uncached := by
  unfold State.dirPut; dsimp only; split
  · rfl
  · rfl
  · rw [State.modCoh_uncached, State.dropOthers_uncached, State.iff_uncached _ _ _ fun _ => State.toL3_uncached ..]
  · rfl
@[simp] theorem State.fillL1I_uncached (c line : Nat) : (s.fillL1I c line).uncached = s.uncached := by
  unfold State.fillL1I; dsimp only
  rw [State.drawn_uncached]; exact s.modCore_uncached _ _ fun _ => rfl
@[simp] theorem State.fillL1D_uncached (c line : Nat) (st : LineState) : (s.fillL1D c line st).uncached = s.uncached := by
  unfold State.fillL1D; dsimp only
  rw [State.drawn_uncached]; exact s.modCore_uncached _ _ fun _ => rfl
@[simp] theorem State.shareL2_uncached (cl line : Nat) (rt fetch : Bool) (o : Option Nat) :
    (s.shareL2 cl line rt fetch o).uncached = s.uncached := by
  unfold State.shareL2; split <;> simp
@[simp] theorem State.shareL1_uncached (c line : Nat) (fetch : Bool) : (s.shareL1 c line fetch).uncached = s.uncached := by
  unfold State.shareL1; split
  · simp
  · dsimp only; split
    · simp
    · rw [State.fillL1D_uncached]; exact State.each_uncached _ _ _ fun t _ => t.modCore_uncached _ _ fun _ => rfl
@[simp] theorem State.promote_uncached (c line : Nat) (fetch : Bool) : (s.promote c line fetch).uncached = s.uncached := by
  unfold State.promote; split
  · rfl
  · rw [State.shareL1_uncached, State.shareL2_uncached]; exact s.modCore_uncached _ _ fun _ => rfl
@[simp] theorem State.pmcAccrue_uncached (c : Nat) : (s.pmcAccrue c).uncached = s.uncached := by
  unfold State.pmcAccrue; dsimp only; split
  · rfl
  · have e := s.modCore_uncached c (fun k => { k with pmcAt := s.clk }) fun _ => rfl
    split
    · exact e
    · refine (State.each_uncached _ _ _ fun t n => ?_).trans e
      rw [State.drawn_uncached, State.setPcsr_uncached]

end Sys2Proof.Machine
end

