-- ==== Sys2Proof/Laws/Reads.lean ====
section
/-! SUPPORT. What a read gives after an update of the same table: registers and their fields, memory, cores, groves, lanes, ports. -/

namespace Sys2Proof.Machine

/-! ### Bit fields -/

theorem bits_lt (v hi lo : Nat) : bits v hi lo < 2 ^ (hi + 1 - lo) := Nat.mod_lt _ (Nat.two_pow_pos _)

/-- A field read back after it is written. -/
theorem bits_setBits (v x hi lo : Nat) : bits (setBits v hi lo x) hi lo = x % 2 ^ (hi + 1 - lo) := by
  have hb : 0 < 2 ^ lo := Nat.two_pow_pos _
  have hv := Nat.div_add_mod v (2 ^ lo)
  have hq := Nat.div_add_mod (v / 2 ^ lo) (2 ^ (hi + 1 - lo))
  generalize hq' : v / 2 ^ lo / 2 ^ (hi + 1 - lo) = q at hq
  generalize hm : (v / 2 ^ lo) % 2 ^ (hi + 1 - lo) = m at hq
  generalize hr : v % 2 ^ lo = r at hv
  have hrl : r < 2 ^ lo := hr ▸ Nat.mod_lt _ hb
  have hxl : x % 2 ^ (hi + 1 - lo) < 2 ^ (hi + 1 - lo) := Nat.mod_lt _ (Nat.two_pow_pos _)
  have e : setBits v hi lo x = (2 ^ (hi + 1 - lo) * q + x % 2 ^ (hi + 1 - lo)) * 2 ^ lo + r := by
    unfold setBits bits
    rw [hm, ← hv, ← hq, Nat.mul_add, Nat.add_mul, Nat.mul_comm (2 ^ lo) m]
    have : 2 ^ lo * (2 ^ (hi + 1 - lo) * q) = 2 ^ (hi + 1 - lo) * q * 2 ^ lo := Nat.mul_comm _ _
    omega
  unfold bits
  rw [e, Nat.mul_comm _ (2 ^ lo), Nat.mul_add_div hb, Nat.div_eq_of_lt hrl, Nat.add_zero, Nat.mul_add_mod,
    Nat.mod_eq_of_lt hxl]

/-- A field write leaves every bit above the field alone. -/
theorem setBits_div (v x hi lo : Nat) (hl : lo ≤ hi + 1) : setBits v hi lo x / 2 ^ (hi + 1) = v / 2 ^ (hi + 1) := by
  have hb : 0 < 2 ^ lo := Nat.two_pow_pos _
  have hw : 0 < 2 ^ (hi + 1 - lo) := Nat.two_pow_pos _
  have hs : 2 ^ (hi + 1) = 2 ^ lo * 2 ^ (hi + 1 - lo) := by rw [← Nat.pow_add]; congr 1; omega
  have hv := Nat.div_add_mod v (2 ^ lo)
  have hq := Nat.div_add_mod (v / 2 ^ lo) (2 ^ (hi + 1 - lo))
  rw [hs, ← Nat.div_div_eq_div_mul, ← Nat.div_div_eq_div_mul]
  generalize hq' : v / 2 ^ lo / 2 ^ (hi + 1 - lo) = q at hq ⊢
  generalize hm : (v / 2 ^ lo) % 2 ^ (hi + 1 - lo) = m at hq
  generalize hr : v % 2 ^ lo = r at hv
  have hrl : r < 2 ^ lo := hr ▸ Nat.mod_lt _ hb
  have hxl : x % 2 ^ (hi + 1 - lo) < 2 ^ (hi + 1 - lo) := Nat.mod_lt _ hw
  have e : setBits v hi lo x = 2 ^ lo * (2 ^ (hi + 1 - lo) * q + x % 2 ^ (hi + 1 - lo)) + r := by
    unfold setBits bits
    rw [hm, ← hv, ← hq, Nat.mul_add, Nat.mul_add, Nat.mul_comm (2 ^ lo) m, Nat.mul_comm (2 ^ lo) (x % _)]
    omega
  rw [e, Nat.mul_add_div hb, Nat.div_eq_of_lt hrl, Nat.add_zero, Nat.mul_add_div hw, Nat.div_eq_of_lt hxl, Nat.add_zero]

/-- A field write leaves a field above it alone. -/
theorem bits_setBits_above (v x hi lo hi' lo' : Nat) (h : hi < lo') (hl : lo ≤ hi + 1) :
    bits (setBits v hi lo x) hi' lo' = bits v hi' lo' := by
  have hs : 2 ^ lo' = 2 ^ (hi + 1) * 2 ^ (lo' - (hi + 1)) := by rw [← Nat.pow_add]; congr 1; omega
  unfold bits
  rw [hs, ← Nat.div_div_eq_div_mul, ← Nat.div_div_eq_div_mul, setBits_div v x hi lo hl]

/-- A field write leaves a field below it alone. -/
theorem bits_setBits_below (v x hi lo hi' lo' : Nat) (h : hi' < lo) (hl : lo' ≤ hi' + 1) :
    bits (setBits v hi lo x) hi' lo' = bits v hi' lo' := by
  have hs : 2 ^ lo = 2 ^ lo' * (2 ^ (hi' + 1 - lo') * 2 ^ (lo - lo' - (hi' + 1 - lo'))) := by
    rw [← Nat.pow_add, ← Nat.pow_add]; congr 1; omega
  have e : ∃ q, setBits v hi lo x = v % 2 ^ lo + 2 ^ lo * q := by
    have hv := Nat.div_add_mod v (2 ^ lo)
    have hq := Nat.div_add_mod (v / 2 ^ lo) (2 ^ (hi + 1 - lo))
    refine ⟨2 ^ (hi + 1 - lo) * (v / 2 ^ lo / 2 ^ (hi + 1 - lo)) + x % 2 ^ (hi + 1 - lo), ?_⟩
    unfold setBits bits
    generalize x % 2 ^ (hi + 1 - lo) = y
    generalize v % 2 ^ lo = r at hv ⊢
    generalize v / 2 ^ lo / 2 ^ (hi + 1 - lo) = q at hq ⊢
    generalize (v / 2 ^ lo) % 2 ^ (hi + 1 - lo) = m at hq ⊢
    rw [← hv, ← hq, Nat.mul_add, Nat.mul_add, Nat.mul_comm (2 ^ lo) m, Nat.mul_comm (2 ^ lo) y]
    omega
  obtain ⟨q, e⟩ := e
  have f : ∀ q, (v % 2 ^ lo + 2 ^ lo * q) / 2 ^ lo' % 2 ^ (hi' + 1 - lo') = v % 2 ^ lo / 2 ^ lo' % 2 ^ (hi' + 1 - lo') := by
    intro q
    have : 2 ^ lo * q = 2 ^ lo' * (2 ^ (hi' + 1 - lo') * (2 ^ (lo - lo' - (hi' + 1 - lo')) * q)) := by
      rw [hs, Nat.mul_assoc, Nat.mul_assoc]
    rw [this, Nat.add_mul_div_left _ _ (Nat.two_pow_pos _), Nat.add_mul_mod_self_left]
  unfold bits
  rw [e, f]
  conv => rhs; rw [← Nat.mod_add_div v (2 ^ lo), f]

/-- A field write keeps the width of the register that holds it. -/
theorem setBits_lt {v x hi lo w : Nat} (hv : v < 2 ^ w) (h : hi < w) (hl : lo ≤ hi + 1) : setBits v hi lo x < 2 ^ w := by
  have hw : 0 < 2 ^ (hi + 1) := Nat.two_pow_pos _
  have ht : 2 ^ w = 2 ^ (hi + 1) * 2 ^ (w - (hi + 1)) := by rw [← Nat.pow_add]; congr 1; omega
  have : v / 2 ^ (hi + 1) < 2 ^ (w - (hi + 1)) := (Nat.div_lt_iff_lt_mul hw).mpr (by rw [Nat.mul_comm, ← ht]; exact hv)
  rw [ht, Nat.mul_comm]
  exact (Nat.div_lt_iff_lt_mul hw).mp (setBits_div v x hi lo hl ▸ this)

/-! ### Registers -/

variable (s : State)

theorem State.reg_lt (i : Nat) : s.reg i < 2 ^ 64 := (mapGet 0 s.regs i).isLt

/-- A register read after it is written. -/
theorem State.reg_setReg (i v : Nat) : (s.setReg i v).reg i = v % 2 ^ 64 := by
  unfold State.reg State.setReg
  show (mapGet 0 (mapSet 0 s.regs i (BitVec.ofNat 64 v)) i).toNat = _
  rw [mapGet_set]; simp

theorem State.reg_setReg_ne {i j : Nat} (v : Nat) (h : i ≠ j) : (s.setReg i v).reg j = s.reg j := by
  unfold State.reg State.setReg
  show (mapGet 0 (mapSet 0 s.regs i (BitVec.ofNat 64 v)) j).toNat = _
  rw [mapGet_set_ne _ _ _ h]

/-- A field read after it is written. -/
theorem State.get_set (f : Fld) (v : Nat) (h : f.hi < 64) (hl : f.lo ≤ f.hi + 1) :
    (s.set f v).get f = v % 2 ^ (f.hi + 1 - f.lo) := by
  unfold State.get State.set
  rw [State.reg_setReg s, Nat.mod_eq_of_lt (setBits_lt (s.reg_lt _) h hl), bits_setBits]

/-- A field of another register is unchanged. -/
theorem State.get_set_ne {f g : Fld} (v : Nat) (h : f.off ≠ g.off) : (s.set f v).get g = s.get g := by
  unfold State.get State.set
  rw [State.reg_setReg_ne s _ h]

/-- A field above the written one is unchanged. -/
theorem State.get_set_above {f g : Fld} (v : Nat) (ho : f.off = g.off) (h : f.hi < 64) (hl : f.lo ≤ f.hi + 1)
    (ha : f.hi < g.lo) : (s.set f v).get g = s.get g := by
  unfold State.get State.set
  rw [← ho, State.reg_setReg s, Nat.mod_eq_of_lt (setBits_lt (s.reg_lt _) h hl), bits_setBits_above _ _ _ _ _ _ ha hl]

/-- A field below the written one is unchanged. -/
theorem State.get_set_below {f g : Fld} (v : Nat) (ho : f.off = g.off) (h : f.hi < 64) (hl : f.lo ≤ f.hi + 1)
    (hb : g.hi < f.lo) (hg : g.lo ≤ g.hi + 1) : (s.set f v).get g = s.get g := by
  unfold State.get State.set
  rw [← ho, State.reg_setReg s, Nat.mod_eq_of_lt (setBits_lt (s.reg_lt _) h hl), bits_setBits_below _ _ _ _ _ _ hb hg]

/-! ### Memory -/

/-- A byte outside a written range is unchanged. -/
theorem State.byte_wrB_out (bs : List Byte) {a x : Nat} (h : x < a ∨ a + bs.length ≤ x) : (s.wrB a bs).byte x = s.byte x :=
  memByte_put_out 0 bs s.mem h

/-- A byte inside a written range is the one written. -/
theorem State.byte_wrB_in (bs : List Byte) (a i : Nat) (hi : i < bs.length) : (s.wrB a bs).byte (a + i) = bs[i] :=
  memByte_put_in bs i hi

theorem State.byte_clearMem_in {lo hi x : Nat} (h1 : lo ≤ x) (h2 : x < hi) : (s.clearMem lo hi).byte x = 0 :=
  mapGet_clear_in 0 s.mem h1 h2

theorem State.byte_clearMem_out {lo hi x : Nat} (h : x < lo ∨ hi ≤ x) : (s.clearMem lo hi).byte x = s.byte x :=
  mapGet_clear_out 0 s.mem h

/-! ### Groves -/

@[simp] theorem State.grv?_setGrv (g j : Nat) (x : GroveSt) : (s.setGrv g x).grv? j = if g = j then some x else s.grv? j :=
  mapGet?_put s.groves g j x

end Sys2Proof.Machine
end

