-- ==== Sys2Proof/Laws/Doorbell.lean ====
section
/-! SUPPORT. A doorbell write, and the waits that it ends, touch only the Interrupt Router's registers, the cores, the
caches and the free counter. -/

namespace Sys2Proof.Machine

/-- `t` is `s` but for the Interrupt Router's registers (chapter 12), the cores, the caches and the free counter. -/
structure IrqOnly (s t : State) : Prop where
  regs : ∀ i, i < Rg.IRQ_CTL ∨ Rg.IRQ_SRC_CFG 4096 ≤ i → t.reg i = s.reg i
  rest : { t with regs := [], cores := [], coh := {}, freeCnt := 0 } = { s with regs := [], cores := [], coh := {}, freeCnt := 0 }

variable {s t u : State}

theorem IrqOnly.refl (s : State) : IrqOnly s s := ⟨fun _ _ => rfl, rfl⟩
theorem IrqOnly.get (h : IrqOnly s t) (f : Fld) (hf : f.off < Rg.IRQ_CTL ∨ Rg.IRQ_SRC_CFG 4096 ≤ f.off) : t.get f = s.get f := by
  unfold State.get; rw [h.regs f.off hf]
theorem IrqOnly.power (h : IrqOnly s t) : t.power = s.power := by have e := congrArg State.power h.rest; exact e
theorem IrqOnly.start (h : IrqOnly s t) : t.start = s.start := by have e := congrArg State.start h.rest; exact e
theorem IrqOnly.sec (h : IrqOnly s t) : t.sec = s.sec := by have e := congrArg State.sec h.rest; exact e
theorem IrqOnly.groves (h : IrqOnly s t) : t.groves = s.groves := by have e := congrArg State.groves h.rest; exact e
theorem IrqOnly.mem (h : IrqOnly s t) : t.mem = s.mem := by have e := congrArg State.mem h.rest; exact e

theorem IrqOnly.setReg (h : IrqOnly s t) {o : Nat} (v : Nat) (ho : Rg.IRQ_CTL ≤ o ∧ o < Rg.IRQ_SRC_CFG 4096) : IrqOnly s (t.setReg o v) :=
  ⟨fun i hi => (State.reg_setReg_ne t v (by omega)).trans (h.regs i hi), h.rest⟩
theorem IrqOnly.set (h : IrqOnly s t) {f : Fld} (v : Nat) (ho : Rg.IRQ_CTL ≤ f.off ∧ f.off < Rg.IRQ_SRC_CFG 4096) : IrqOnly s (t.set f v) :=
  h.setReg _ ho
theorem IrqOnly.setIf (h : IrqOnly s t) (c : Bool) {f : Fld} (v : Nat) (ho : Rg.IRQ_CTL ≤ f.off ∧ f.off < Rg.IRQ_SRC_CFG 4096) :
    IrqOnly s (t.setIf c f v) := by
  unfold State.setIf; split
  · exact h.set v ho
  · exact h

theorem IrqOnly.each {α : Type} (l : List α) (f : State → α → State) (h : IrqOnly s t) (hf : ∀ u a, IrqOnly s u → IrqOnly s (f u a)) :
    IrqOnly s (t.each l f) := by
  unfold State.each
  induction l generalizing t with
  | nil => exact h
  | cons a l ih => exact ih (hf t a h)

theorem IrqOnly.uncached (h : IrqOnly s t) (e : u.uncached = t.uncached) : IrqOnly s u :=
  ⟨fun i hi => by
    unfold State.reg
    rw [show u.regs = t.regs from congrArg (fun x => x.1.regs) e]
    exact h.regs i hi, (congrArg (fun x => { x.1 with regs := [] }) e).trans h.rest⟩
theorem IrqOnly.modCore (h : IrqOnly s t) (c : Nat) (f : CoreSt → CoreSt) : IrqOnly s (t.modCore c f) := ⟨h.regs, h.rest⟩
theorem IrqOnly.setCsr (h : IrqOnly s t) (c n v : Nat) : IrqOnly s (t.setCsr c n v) := ⟨h.regs, h.rest⟩
theorem IrqOnly.setPcsr (h : IrqOnly s t) (c n v : Nat) : IrqOnly s (t.setPcsr c n v) := ⟨h.regs, h.rest⟩
theorem IrqOnly.setPc (h : IrqOnly s t) (c v : Nat) : IrqOnly s (t.setPc c v) := ⟨h.regs, h.rest⟩
theorem IrqOnly.setX (h : IrqOnly s t) (c i v : Nat) : IrqOnly s (t.setX c i v) := by
  unfold State.setX; split
  · exact h
  · exact ⟨h.regs, h.rest⟩

theorem srcCfg_in {src : Nat} (h : src < 4096) : Rg.IRQ_CTL ≤ Rg.IRQ_SRC_CFG src ∧ Rg.IRQ_SRC_CFG src < Rg.IRQ_SRC_CFG 4096 := by
  unfold Rg.IRQ_CTL Rg.IRQ_SRC_CFG; omega

theorem State.signalSource_irqOnly (h : IrqOnly s t) {src : Nat} (hs : src < 4096) (op : Nat) : IrqOnly s (t.signalSource src op) := by
  have k := srcCfg_in hs
  unfold State.signalSource
  extract_lets a
  split
  · exact h.set 1 k
  · split
    · exact (h.set 1 k).setIf _ 1 k
    · exact (h.set 0 k).setIf _ 0 k

theorem State.recordDrop_irqOnly (h : IrqOnly s t) (w : Writer) (src op why : Nat) : IrqOnly s (t.recordDrop w src op why) := by
  unfold State.recordDrop
  extract_lets g
  refine IrqOnly.set (IrqOnly.setReg (h.set (f := Fd.IRQ_DROP_CNT.COUNT) _ ?_) _ ?_) 1 ?_ <;> decide

theorem State.ring_irqOnly (h : IrqOnly s t) (w : Writer) {src : Nat} (hs : src < 4096) (op : Nat) : IrqOnly s (t.ring w src op) := by
  unfold State.ring
  split
  · exact h
  · split
    · exact State.signalSource_irqOnly h hs op
    · extract_lets was u ds
      have hu : IrqOnly s u := State.recordDrop_irqOnly h _ _ _ _
      have hd : ds < 4096 := bits_lt ..
      split
      · exact hu
      · split
        · exact State.signalSource_irqOnly hu hd 0
        · exact State.recordDrop_irqOnly hu _ _ _ _

theorem State.pmcWrap_irqOnly (h : IrqOnly s t) (c n : Nat) : IrqOnly s (t.pmcWrap c n) := by
  unfold State.pmcWrap
  extract_lets v u
  have hu : IrqOnly s u := (h.setPcsr _ _ _).setPcsr _ _ _
  split
  · exact h
  · split
    · exact hu
    · split
      · exact State.ring_irqOnly hu _ (bits_lt ..) 0
      · exact hu

theorem State.pmcAdd_irqOnly (h : IrqOnly s t) (c n k : Nat) : IrqOnly s (t.pmcAdd c n k) :=
  State.pmcWrap_irqOnly (h.setPcsr c _ _) c n

theorem State.pmcBump_irqOnly (h : IrqOnly s t) (c n k : Nat) : IrqOnly s (t.pmcBump c n k) := by
  unfold State.pmcBump
  extract_lets w u
  have hu : IrqOnly s u := State.pmcAdd_irqOnly h c n k
  split
  · exact State.pmcAdd_irqOnly hu c _ _
  · exact hu

theorem State.pmcSync_irqOnly (h : IrqOnly s t) (c : Nat) : IrqOnly s (t.pmcSync c) := by
  unfold State.pmcSync
  extract_lets u
  have hu : IrqOnly s u := h.uncached (State.pmcAccrue_uncached t c)
  split
  · exact IrqOnly.each _ _ hu fun _ n k => State.pmcBump_irqOnly k c n 0
  · exact hu

theorem State.eventAt_irqOnly (h : IrqOnly s t) (c : Nat) (lv : Level) (ev : Nat) : IrqOnly s (t.eventAt c lv ev) := by
  unfold State.eventAt
  split
  · exact h
  · refine IrqOnly.each _ _ h fun u n hu => ?_
    extract_lets e
    split
    · exact State.pmcBump_irqOnly hu c n 1
    · exact hu

theorem State.events_irqOnly (h : IrqOnly s t) (c : Nat) (lv : Level) (evs : List Nat) : IrqOnly s (t.events c lv evs) :=
  IrqOnly.each _ _ h fun _ ev k => State.eventAt_irqOnly k c lv ev

theorem State.counted_irqOnly (h : IrqOnly s t) (c : Nat) : IrqOnly s (t.counted c) := by
  unfold State.counted
  extract_lets k used walks evs u
  have hu : IrqOnly s u := h.modCore c _
  exact State.events_irqOnly (IrqOnly.each _ _ hu fun v e k => k.uncached (State.promote_uncached v c e.1 e.2)) _ _ _

theorem State.retire_irqOnly (h : IrqOnly s t) (c len : Nat) : IrqOnly s (t.retire c len) := by
  unfold State.retire
  extract_lets u next cfg n
  have hu : IrqOnly s u := State.counted_irqOnly h c
  split
  · split
    · exact State.eventAt_irqOnly ((hu.setCsr _ _ _).setPc _ _) c _ _
    · split
      · exact ((hu.setCsr _ _ _).setCsr _ _ _).setPc _ _
      · exact hu.setPc _ _
  · exact hu.setPc _ _

theorem State.settle_irqOnly (h : IrqOnly s t) : IrqOnly s t.settle := by
  have wake : ∀ k (u : State), IrqOnly s u → IrqOnly s (State.wakeAux k u) := by
    intro k
    induction k with
    | zero => exact fun u hu => hu
    | succ k ih =>
      intro u hu
      unfold State.wakeAux
      extract_lets os
      split
      · refine ih _ ?_
        unfold State.endWait
        split
        · exact State.retire_irqOnly (((State.pmcSync_irqOnly hu _).modCore _ _).setX _ _ _) _ _
        · exact hu
      · exact hu
  unfold State.settle
  split
  · exact wake 64 t h
  · exact h

/-- A doorbell write, and the waits it ends, touch only the router's registers, the cores, the caches and the free counter. -/
theorem State.doorbell_irqOnly (s : State) (w : Writer) {src : Nat} (hs : src < 4096) (op : Nat) : IrqOnly s (s.doorbell w src op) :=
  State.settle_irqOnly (State.ring_irqOnly (IrqOnly.refl s) w hs op)

theorem State.pulse_irqOnly (s : State) {src : Nat} (hs : src < 4096) : IrqOnly s (s.pulse src) := s.doorbell_irqOnly .hw hs 0

end Sys2Proof.Machine
end

