-- ==== Sys2Proof/Laws/Cores.lean ====
section
/-! SUPPORT. Reads of a core after updates: its state, its CSRs and integer registers; a counted event touches its performance counters only. -/

namespace Sys2Proof.Machine

variable (s : State)

theorem State.core_setCore (c d : Nat) (x : CoreSt) : (s.setCore c x).core d = if c = d then x else s.core d := by
  unfold State.core State.setCore; exact mapGet_set c d x

theorem State.core_modCore (c d : Nat) (f : CoreSt → CoreSt) : (s.modCore c f).core d = if c = d then f (s.core c) else s.core d :=
  s.core_setCore c d _

theorem State.csr_setCsr (c n m v : Nat) : (s.setCsr c n v).csr c m = if n = m then v % 2 ^ 64 else s.csr c m := by
  unfold State.csr State.setCsr State.modCtx
  rw [State.core_modCore, if_pos rfl]
  show (mapGet 0 (mapSet 0 (s.core c).ctx.csr n (BitVec.ofNat 64 v)) m).toNat = _
  rw [mapGet_set]; split <;> simp

theorem State.x_setX (c i j v : Nat) : (s.setX c i v).x c j = if i = j ∧ i ≠ 0 then v % 2 ^ 64 else s.x c j := by
  unfold State.x State.setX State.modCtx
  by_cases hi : i = 0
  · simp [hi]
  · by_cases hj : j = 0
    · subst hj; simp [hi]
    · simp only [beq_iff_eq, hi, hj, if_false, State.core_modCore, if_true, mapGet_set, ne_eq, not_false_eq_true, and_true]
      split <;> simp

/-- `t` is `s` but for the Interrupt Router's registers and the performance counters of core `c`. -/
structure Counts (c : Nat) (s t : State) : Prop where
  irq  : IrqOnly s t
  self : ∃ p, t.core c = { s.core c with pcsr := p }
  rest : ∀ d, d ≠ c → t.core d = s.core d

variable {s} {t u : State} {c : Nat}

theorem Counts.refl (c : Nat) (s : State) : Counts c s s := ⟨.refl s, ⟨(s.core c).pcsr, rfl⟩, fun _ _ => rfl⟩

theorem Counts.ctx (h : Counts c s t) : (t.core c).ctx = (s.core c).ctx := by obtain ⟨p, e⟩ := h.self; rw [e]

theorem Counts.cores (h : Counts c s t) (k : IrqOnly s u) (e : u.cores = t.cores) : Counts c s u :=
  ⟨k, by unfold State.core; rw [e]; exact h.self, fun d hd => by unfold State.core; rw [e]; exact h.rest d hd⟩

theorem Counts.setPcsr (h : Counts c s t) (n v : Nat) : Counts c s (t.setPcsr c n v) := by
  obtain ⟨p, e⟩ := h.self
  refine ⟨h.irq.setPcsr _ _ _, ⟨mapSet 0 p n (BitVec.ofNat 64 v), ?_⟩, fun d hd => ?_⟩
  · unfold State.setPcsr; rw [State.core_modCore, if_pos rfl, e]
  · unfold State.setPcsr; rw [State.core_modCore, if_neg (Ne.symm hd), h.rest d hd]

theorem State.setIf_cores (s : State) (b : Bool) (f : Fld) (v : Nat) : (s.setIf b f v).cores = s.cores := by
  unfold State.setIf; split
  · exact State.set_cores ..
  · rfl

theorem State.signalSource_cores (s : State) (src op : Nat) : (s.signalSource src op).cores = s.cores := by
  unfold State.signalSource
  extract_lets a
  split
  · exact State.set_cores ..
  · split <;> rw [State.setIf_cores] <;> exact State.set_cores ..

theorem State.ring_cores (s : State) (w : Writer) (src op : Nat) : (s.ring w src op).cores = s.cores := by
  have hd (t : State) (w : Writer) (src op why : Nat) : (t.recordDrop w src op why).cores = t.cores := by
    unfold State.recordDrop State.raise
    extract_lets g
    rw [State.set_cores, State.setReg_cores]
    exact State.set_cores ..
  unfold State.ring
  split
  · rfl
  · split
    · exact State.signalSource_cores _ _ _
    · extract_lets was u ds
      split
      · exact hd _ _ _ _ _
      · split
        · rw [State.signalSource_cores]; exact hd _ _ _ _ _
        · rw [hd]; exact hd _ _ _ _ _

theorem State.pmcAdd_counts (h : Counts c s t) (n k : Nat) : Counts c s (t.pmcAdd c n k) := by
  unfold State.pmcAdd State.pmcWrap
  extract_lets v u
  have h := h.setPcsr (csrPmc n) (t.pcsr c (csrPmc n) + k)
  have hu : Counts c s u := (h.setPcsr _ _).setPcsr _ _
  split
  · exact h
  · split
    · exact hu
    · split
      · exact hu.cores (State.ring_irqOnly hu.irq _ (bits_lt ..) 0) (State.ring_cores ..)
      · exact hu

theorem State.pmcBump_counts (h : Counts c s t) (n k : Nat) : Counts c s (t.pmcBump c n k) := by
  unfold State.pmcBump
  extract_lets w u
  have hu : Counts c s u := State.pmcAdd_counts h n k
  split
  · exact State.pmcAdd_counts hu (n + 1) _
  · exact hu

theorem Counts.each {α : Type} (l : List α) (f : State → α → State) (h : Counts c s t) (hf : ∀ u a, Counts c s u → Counts c s (f u a)) :
    Counts c s (t.each l f) := by
  unfold State.each
  induction l generalizing t with
  | nil => exact h
  | cons a l ih => exact ih (hf t a h)

/-- An event at any level touches the counters of its core and, by an overflow doorbell, the router. -/
theorem State.eventAt_counts (s : State) (c : Nat) (lv : Level) (ev : Nat) : Counts c s (s.eventAt c lv ev) := by
  unfold State.eventAt
  split
  · exact .refl c s
  · refine Counts.each _ _ (.refl c s) fun u n h => ?_
    extract_lets e
    split
    · exact State.pmcBump_counts h n 1
    · exact h

theorem Counts.trans (h : Counts c s t) (k : Counts c t u) : Counts c s u := by
  obtain ⟨p, e⟩ := h.self
  obtain ⟨q, f⟩ := k.self
  refine ⟨⟨fun i hi => (k.irq.regs i hi).trans (h.irq.regs i hi), ?_⟩, ⟨q, by rw [f, e]⟩, fun d hd => (k.rest d hd).trans (h.rest d hd)⟩
  have a := h.irq.rest
  rw [← k.irq.rest] at a
  exact a

theorem State.events_counts (s : State) (c : Nat) (lv : Level) (evs : List Nat) : Counts c s (s.events c lv evs) :=
  Counts.each _ _ (.refl c s) fun u ev h => h.trans (u.eventAt_counts c lv ev)

theorem Counts.bare (h : Counts c s t) (d : Nat) : (t.core d).bare = (s.core d).bare := by
  by_cases e : d = c
  · obtain ⟨p, q⟩ := h.self; rw [e, q]; rfl
  · rw [h.rest d e]

/-- An instruction counts as retired: but for caches, reservations, loads in progress and performance counters, the cores are as its
retirement leaves them. -/
theorem State.counted_bare (s : State) (c d : Nat) : ((s.counted c).core d).bare = ((s.modCore c (·.retired)).core d).bare := by
  unfold State.counted
  extract_lets k used walks evs u
  have e : (u.each used fun s e => s.promote c e.1 e.2).uncached = u.uncached :=
    State.each_uncached _ _ _ fun v e => v.promote_uncached c e.1 e.2
  exact (Counts.bare (State.events_counts ..) d).trans (congrFun (congrArg Prod.snd e) d)

/-- When it takes no line from the shadow buffer, only the performance counters change besides. -/
theorem State.counted_counts (s : State) (c : Nat) (h : (s.core c).used = []) : Counts c (s.modCore c (·.retired)) (s.counted c) := by
  unfold State.counted
  extract_lets k used walks evs u
  have e : used = [] := by simp only [used, k, h, List.filter_nil]
  rw [e]
  exact State.events_counts ..

end Sys2Proof.Machine
end

