-- ==== Sys2Proof/Laws/Kept.lean ====
section
/-! SUPPORT. What every operation keeps: the queue of commands, the module's constants, and the canonical forms of memory, flash and
registers. One lemma per operation says so; the files Kept… go through the model in its order. -/

namespace Sys2Proof.Machine

/-- The queue, the variant, the flash device and the canonical forms of `s` stand in `t`. So do memory, flash, the enclave, the loop engine,
the field ports, the cascade and the groves, each under a proposition of its own: an operation that leaves a unit alone keeps it whatever the
proposition, one that may change it is kept for `False`. -/
structure Kept (K F M L P C G : Prop) (s t : State) : Prop where
  pending : t.pending = s.pending
  mx      : t.mx = s.mx
  size    : t.flashBytes = s.flashBytes
  slow    : t.flashSlow = s.flashSlow
  wf      : s.wf → t.wf
  mem     : K → t.mem = s.mem
  flash   : F → t.flash = s.flash
  met     : M → t.met = s.met
  loop    : L → t.loop = s.loop
  field   : P → t.field = s.field
  cascade : C → t.cascade = s.cascade
  groves  : G → t.groves = s.groves

variable {z s : State} {K F M L P C G : Prop}

theorem Kept.refl (s : State) : Kept K F M L P C G s s :=
  ⟨rfl, rfl, rfl, rfl, id, fun _ => rfl, fun _ => rfl, fun _ => rfl, fun _ => rfl, fun _ => rfl, fun _ => rfl, fun _ => rfl⟩

theorem Kept.same (s : State) : Kept False False False False False False False s s := Kept.refl s

theorem Kept.trans {a b c : State} (h : Kept K F M L P C G a b) (k : Kept K F M L P C G b c) : Kept K F M L P C G a c :=
  ⟨k.pending.trans h.pending, k.mx.trans h.mx, k.size.trans h.size, k.slow.trans h.slow, fun w => k.wf (h.wf w),
    fun x => (k.mem x).trans (h.mem x), fun x => (k.flash x).trans (h.flash x), fun x => (k.met x).trans (h.met x),
    fun x => (k.loop x).trans (h.loop x), fun x => (k.field x).trans (h.field x), fun x => (k.cascade x).trans (h.cascade x),
    fun x => (k.groves x).trans (h.groves x)⟩

/-- A state that agrees with a kept one in the fields that are always kept, and in each unit that is, is kept. -/
theorem Kept.units {t : State} (h : Kept K F M L P C G z s)
    (e : (t.pending, t.mx, t.flashBytes, t.flashSlow) = (s.pending, s.mx, s.flashBytes, s.flashSlow)) (w : s.wf → t.wf)
    (k : K → t.mem = s.mem := by exact fun _ => rfl) (f : F → t.flash = s.flash := by exact fun _ => rfl)
    (m : M → t.met = s.met := by exact fun _ => rfl) (l : L → t.loop = s.loop := by exact fun _ => rfl)
    (p : P → t.field = s.field := by exact fun _ => rfl) (c : C → t.cascade = s.cascade := by exact fun _ => rfl)
    (g : G → t.groves = s.groves := by exact fun _ => rfl) : Kept K F M L P C G z t := by
  simp only [Prod.mk.injEq] at e
  obtain ⟨a, b, d, e⟩ := e
  exact ⟨a.trans h.pending, b.trans h.mx, d.trans h.size, e.trans h.slow, fun x => w (h.wf x), fun x => (k x).trans (h.mem x),
    fun x => (f x).trans (h.flash x), fun x => (m x).trans (h.met x), fun x => (l x).trans (h.loop x), fun x => (p x).trans (h.field x),
    fun x => (c x).trans (h.cascade x), fun x => (g x).trans (h.groves x)⟩

theorem Kept.ite {c : Prop} [Decidable c] {a b : State} (ha : Kept K F M L P C G z a) (hb : Kept K F M L P C G z b) : Kept K F M L P C G z (if c then a else b) := by
  split
  · exact ha
  · exact hb

theorem Kept.ite_snd {α : Type} {c : Prop} [Decidable c] {a b : α × State} (ha : Kept K F M L P C G z a.2) (hb : Kept K F M L P C G z b.2) :
    Kept K F M L P C G z (if c then a else b).2 := by
  split
  · exact ha
  · exact hb

/-- A state that may be there is kept. -/
def OptKept (K F M L P C G : Prop) (z : State) (o : Option State) : Prop := ∀ t, o = some t → Kept K F M L P C G z t

/-- An update of fields that are not followed. -/
theorem Kept.upd {now : Nat} {resp : Option Response} {freeCnt : Nat} {shadows : Table HalfWord} {holds : Table HalfWord} {openTrans :
    Table Nat} {heldTrans : List Nat} {start : StartSt} {frame : FrameSt} {signal : SignalSt} {gcmd : Option GroveCmd} {cores : Table CoreSt}
    {runStacks : Table (List (Nat × Nat))} {coh : CohSt} {power : PowerSt} {pins : PinSt} {sec : SecSt} {dma : DmaSt} {pci : PciSt} : Kept K F M L P
    C G z (State.mk now s.mx s.regs s.mem s.flash s.flashBytes s.flashSlow s.pending resp freeCnt shadows holds openTrans heldTrans start
    frame signal s.loop s.field s.cascade s.groves gcmd cores runStacks coh power pins s.met sec dma pci) ↔ Kept K F M L P C G z s :=
  ⟨fun h => h.units rfl id, fun h => h.units rfl id⟩

/-- The enclave changes. -/
theorem Kept.updMet {now : Nat} {resp : Option Response} {freeCnt : Nat} {shadows : Table HalfWord} {holds : Table HalfWord} {openTrans :
    Table Nat} {heldTrans : List Nat} {start : StartSt} {frame : FrameSt} {signal : SignalSt} {gcmd : Option GroveCmd} {cores : Table CoreSt}
    {runStacks : Table (List (Nat × Nat))} {coh : CohSt} {power : PowerSt} {pins : PinSt} {sec : SecSt} {dma : DmaSt} {pci : PciSt} {met : MetSt} :
    Kept K F False L P C G z (State.mk now s.mx s.regs s.mem s.flash s.flashBytes s.flashSlow s.pending resp freeCnt shadows holds openTrans
    heldTrans start frame signal s.loop s.field s.cascade s.groves gcmd cores runStacks coh power pins met sec dma pci) ↔ Kept K F False L P
    C G z s :=
  ⟨fun h => h.units rfl id (m := False.elim), fun h => h.units rfl id (m := False.elim)⟩

/-- The loop engine changes. -/
theorem Kept.updLoop {now : Nat} {resp : Option Response} {freeCnt : Nat} {shadows : Table HalfWord} {holds : Table HalfWord} {openTrans
    : Table Nat} {heldTrans : List Nat} {start : StartSt} {frame : FrameSt} {signal : SignalSt} {gcmd : Option GroveCmd} {cores : Table
    CoreSt} {runStacks : Table (List (Nat × Nat))} {coh : CohSt} {power : PowerSt} {pins : PinSt} {sec : SecSt} {dma : DmaSt} {pci : PciSt} {loop :
    LoopSt} : Kept K F M False P C G z (State.mk now s.mx s.regs s.mem s.flash s.flashBytes s.flashSlow s.pending resp freeCnt shadows holds
    openTrans heldTrans start frame signal loop s.field s.cascade s.groves gcmd cores runStacks coh power pins s.met sec dma pci) ↔ Kept K F
    M False P C G z s :=
  ⟨fun h => h.units rfl id (l := False.elim), fun h => h.units rfl id (l := False.elim)⟩

/-- The field ports change. -/
theorem Kept.updField {now : Nat} {resp : Option Response} {freeCnt : Nat} {shadows : Table HalfWord} {holds : Table HalfWord} {openTrans
    : Table Nat} {heldTrans : List Nat} {start : StartSt} {frame : FrameSt} {signal : SignalSt} {gcmd : Option GroveCmd} {cores : Table
    CoreSt} {runStacks : Table (List (Nat × Nat))} {coh : CohSt} {power : PowerSt} {pins : PinSt} {sec : SecSt} {dma : DmaSt} {pci : PciSt} {field :
    FieldSt} : Kept K F M L False C G z (State.mk now s.mx s.regs s.mem s.flash s.flashBytes s.flashSlow s.pending resp freeCnt shadows holds
    openTrans heldTrans start frame signal s.loop field s.cascade s.groves gcmd cores runStacks coh power pins s.met sec dma pci) ↔ Kept K F
    M L False C G z s :=
  ⟨fun h => h.units rfl id (p := False.elim), fun h => h.units rfl id (p := False.elim)⟩

/-- The cascade changes. -/
theorem Kept.updCascade {now : Nat} {resp : Option Response} {freeCnt : Nat} {shadows : Table HalfWord} {holds : Table HalfWord}
    {openTrans : Table Nat} {heldTrans : List Nat} {start : StartSt} {frame : FrameSt} {signal : SignalSt} {gcmd : Option GroveCmd} {cores :
    Table CoreSt} {runStacks : Table (List (Nat × Nat))} {coh : CohSt} {power : PowerSt} {pins : PinSt} {sec : SecSt} {dma : DmaSt} {pci : PciSt}
    {cascade : CascadeSt} : Kept K F M L P False G z (State.mk now s.mx s.regs s.mem s.flash s.flashBytes s.flashSlow s.pending resp freeCnt
    shadows holds openTrans heldTrans start frame signal s.loop s.field cascade s.groves gcmd cores runStacks coh power pins s.met sec dma
    pci) ↔ Kept K F M L P False G z s :=
  ⟨fun h => h.units rfl id (c := False.elim), fun h => h.units rfl id (c := False.elim)⟩

/-- The groves change. -/
theorem Kept.updGroves {now : Nat} {resp : Option Response} {freeCnt : Nat} {shadows : Table HalfWord} {holds : Table HalfWord}
    {openTrans : Table Nat} {heldTrans : List Nat} {start : StartSt} {frame : FrameSt} {signal : SignalSt} {gcmd : Option GroveCmd} {cores :
    Table CoreSt} {runStacks : Table (List (Nat × Nat))} {coh : CohSt} {power : PowerSt} {pins : PinSt} {sec : SecSt} {dma : DmaSt} {pci : PciSt}
    {groves : Table GroveSt} : Kept K F M L P C False z (State.mk now s.mx s.regs s.mem s.flash s.flashBytes s.flashSlow s.pending resp
    freeCnt shadows holds openTrans heldTrans start frame signal s.loop s.field s.cascade groves gcmd cores runStacks coh power pins s.met
    sec dma pci) ↔ Kept K F M L P C False z s :=
  ⟨fun h => h.units rfl id (g := False.elim), fun h => h.units rfl id (g := False.elim)⟩

/-- Loop engine, field ports, cascade and groves change. -/
theorem Kept.updUnits {now : Nat} {resp : Option Response} {freeCnt : Nat} {shadows : Table HalfWord} {holds : Table HalfWord} {openTrans
    : Table Nat} {heldTrans : List Nat} {start : StartSt} {frame : FrameSt} {signal : SignalSt} {gcmd : Option GroveCmd} {cores : Table
    CoreSt} {runStacks : Table (List (Nat × Nat))} {coh : CohSt} {power : PowerSt} {pins : PinSt} {sec : SecSt} {dma : DmaSt} {pci : PciSt} {loop :
    LoopSt} {field : FieldSt} {cascade : CascadeSt} {groves : Table GroveSt}  : Kept K F M False False False False z
    (State.mk now s.mx s.regs s.mem s.flash s.flashBytes s.flashSlow s.pending resp freeCnt shadows holds openTrans heldTrans start frame
    signal loop field cascade groves gcmd cores runStacks coh power pins s.met sec dma pci) ↔ Kept K F M False False False False z s :=
  ⟨fun h => h.units rfl id (l := False.elim) (p := False.elim) (c := False.elim) (g := False.elim), fun h => h.units rfl id (l := False.elim) (p := False.elim) (c := False.elim) (g := False.elim)⟩

/-- Memory is cleared. -/
theorem Kept.clear (h : Kept False F M L P C G z s) {now : Nat} {resp : Option Response} {freeCnt : Nat} {shadows
    : Table HalfWord} {holds : Table HalfWord} {openTrans : Table Nat} {heldTrans : List Nat} {start : StartSt} {frame : FrameSt} {signal :
    SignalSt} {gcmd : Option GroveCmd} {cores : Table
    CoreSt} {runStacks : Table (List (Nat × Nat))} {coh : CohSt} {power : PowerSt} {pins : PinSt} {sec : SecSt} {dma : DmaSt} {pci :
    PciSt} : Kept False F M L P C G z (State.mk now s.mx s.regs [] s.flash s.flashBytes s.flashSlow s.pending resp
    freeCnt shadows holds openTrans heldTrans start frame signal s.loop s.field s.cascade s.groves gcmd cores runStacks coh power pins s.met sec dma
    pci) :=
  h.units rfl (fun w => ⟨rfl, w.2⟩) (k := False.elim)

/-- Every unit changes, and memory is cleared. -/
theorem Kept.updClear (h : Kept False F False False False False False z s) {now : Nat} {resp : Option Response} {freeCnt : Nat} {shadows
    : Table HalfWord} {holds : Table HalfWord} {openTrans : Table Nat} {heldTrans : List Nat} {start : StartSt} {frame : FrameSt} {signal :
    SignalSt} {loop : LoopSt} {field : FieldSt} {cascade : CascadeSt} {groves : Table GroveSt} {gcmd : Option GroveCmd} {cores : Table
    CoreSt} {runStacks : Table (List (Nat × Nat))} {coh : CohSt} {power : PowerSt} {pins : PinSt} {met : MetSt} {sec : SecSt} {dma : DmaSt} {pci :
    PciSt} : Kept False F False False False False False z (State.mk now s.mx s.regs [] s.flash s.flashBytes s.flashSlow s.pending resp
    freeCnt shadows holds openTrans heldTrans start frame signal loop field cascade groves gcmd cores runStacks coh power pins met sec dma
    pci) :=
  h.units rfl (fun w => ⟨rfl, w.2⟩) (k := False.elim) (m := False.elim) (l := False.elim) (p := False.elim) (c := False.elim)
    (g := False.elim)

/-- The second part of a pair that is kept. -/
theorem Kept.snd {α : Type} {p : α × State} {a : α} {t : State} (e : p = (a, t)) (h : Kept K F M L P C G z p.2) : Kept K F M L P C G z t := by
  subst e; exact h

theorem OptKept.of {o : Option State} {t : State} (e : o = some t) (h : OptKept K F M L P C G z o) : Kept K F M L P C G z t := h t e

theorem OptKept.none : OptKept K F M L P C G z none := fun _ h => nomatch h

theorem OptKept.some (h : Kept K F M L P C G z s) : OptKept K F M L P C G z (some s) := fun _ e => Option.some.inj e ▸ h

/-- Memory alone changes, and is in form. -/
theorem Kept.memForm {m : Memory} (h : Kept False F M L P C G z s) (hm : mapWf 0 s.mem = true → mapWf 0 m = true) :
    Kept False F M L P C G z { s with mem := m } := h.units rfl (fun w => ⟨hm w.1, w.2⟩) (k := False.elim)

/-- Registers alone change, and are in form. -/
theorem Kept.regForm {r : Table Word} (h : Kept K F M L P C G z s) (hr : mapWf (0 : Word) s.regs = true → mapWf (0 : Word) r = true) :
    Kept K F M L P C G z { s with regs := r } := h.units rfl fun w => ⟨w.1, w.2.1, hr w.2.2⟩

/-- Flash alone changes, and is in form. -/
theorem Kept.flashForm {m : Memory} (h : Kept K False M L P C G z s) (hm : mapWf 0xFF s.flash = true → mapWf 0xFF m = true) :
    Kept K False M L P C G z { s with flash := m } := h.units rfl (fun w => ⟨w.1, hm w.2.1, w.2.2⟩) (f := False.elim)

/-- The registers at reset are in form. -/
theorem resetRegs_wf : mapWf (0 : Word) resetRegs = true := by decide

/-! ### Primitive updates -/

theorem State.setReg_kept (h : Kept K F M L P C G z s) (off v : Nat) : Kept K F M L P C G z (s.setReg off v) := h.regForm mapWf_set

theorem State.wrB_kept (h : Kept False F M L P C G z s) (a : Nat) (bs : List Byte) : Kept False F M L P C G z (s.wrB a bs) :=
  h.memForm memPut_wf

theorem State.clearMem_kept (h : Kept False F M L P C G z s) (lo hi : Nat) : Kept False F M L P C G z (s.clearMem lo hi) :=
  h.memForm mapWf_clear

theorem State.flashPut_kept (h : Kept K False M L P C G z s) (off : Nat) (bs : List Byte) : Kept K False M L P C G z (s.flashPut off bs) :=
  h.flashForm memPut_wf

theorem State.flashErase_kept (h : Kept K False M L P C G z s) (lo hi : Nat) : Kept K False M L P C G z (s.flashErase lo hi) :=
  h.flashForm mapWf_clear

theorem State.each_kept {α : Type} (h : Kept K F M L P C G z s) (l : List α) (f : State → α → State)
    (hf : ∀ t a, Kept K F M L P C G z t → Kept K F M L P C G z (f t a)) : Kept K F M L P C G z (s.each l f) := by
  unfold State.each
  induction l generalizing s with
  | nil => exact h
  | cons a l ih => exact ih (hf s a h)

theorem State.iff_kept (h : Kept K F M L P C G z s) (c : Bool) (f : State → State) (hf : ∀ t, Kept K F M L P C G z t → Kept K F M L P C G z (f t)) : Kept K F M L P C G z (s.iff c f) := by
  unfold State.iff; split
  · exact hf s h
  · exact h

theorem foldl_kept {α : Type} (h : Kept K F M L P C G z s) (l : List α) (f : State → α → State)
    (hf : ∀ t a, Kept K F M L P C G z t → Kept K F M L P C G z (f t a)) : Kept K F M L P C G z (l.foldl f s) := State.each_kept h l f hf

theorem foldl_pair_kept {α β : Type} {p : β × State} (h : Kept K F M L P C G z p.2) (l : List α) (f : β × State → α → β × State)
    (hf : ∀ q a, Kept K F M L P C G z q.2 → Kept K F M L P C G z (f q a).2) : Kept K F M L P C G z (l.foldl f p).2 := by
  induction l generalizing p with
  | nil => exact h
  | cons a l ih => exact ih (hf p a h)

end Sys2Proof.Machine
end

