-- ==== Sys2Proof/Laws/KeptOps.lean ====
section
/-! SUPPORT. What the operations of Ops.lean keep. -/

namespace Sys2Proof.Machine

variable {z s : State} {K F M L P C G : Prop}

theorem State.set_kept (h : Kept K F M L P C G z s) (f : Fld) (v : Nat) : Kept K F M L P C G z (s.set f v) := by
  unfold State.set
  repeat'
    first
    | (with_reducible assumption)
    | (with_reducible apply State.setReg_kept)

theorem State.raise_kept (h : Kept K F M L P C G z s) (f : Fld) : Kept K F M L P C G z (s.raise f) := by
  unfold State.raise
  repeat'
    first
    | (with_reducible assumption)
    | (with_reducible apply State.set_kept)

theorem State.lower_kept (h : Kept K F M L P C G z s) (f : Fld) : Kept K F M L P C G z (s.lower f) := by
  unfold State.lower
  repeat'
    first
    | (with_reducible assumption)
    | (with_reducible apply State.set_kept)

theorem State.setIf_kept (h : Kept K F M L P C G z s) (c : Bool) (f : Fld) (v : Nat) : Kept K F M L P C G z (s.setIf c f v) := by
  unfold State.setIf
  repeat'
    first
    | (with_reducible assumption)
    | (with_reducible first | apply Kept.ite | apply State.set_kept)
    | split

theorem State.count_kept (h : Kept K F M L P C G z s) (f : Fld) (n : Nat) : Kept K F M L P C G z (s.count f n) := by
  unfold State.count
  repeat'
    first
    | (with_reducible assumption)
    | (with_reducible apply State.set_kept)

theorem State.inc_kept (h : Kept K F M L P C G z s) (f : Fld) : Kept K F M L P C G z (s.inc f) := by
  unfold State.inc
  repeat'
    first
    | (with_reducible assumption)
    | (with_reducible apply State.count_kept)

theorem State.setMax_kept (h : Kept K F M L P C G z s) (f : Fld) (v : Nat) : Kept K F M L P C G z (s.setMax f v) := by
  unfold State.setMax
  repeat'
    first
    | (with_reducible assumption)
    | (with_reducible apply State.set_kept)

theorem State.wr_kept (h : Kept False F M L P C G z s) (a n v : Nat) : Kept False F M L P C G z (s.wr a n v) := by
  unfold State.wr
  repeat'
    first
    | (with_reducible assumption)
    | (with_reducible apply State.wrB_kept)

theorem State.setGrv_kept (h : Kept K F M L P C False z s) (g : Nat) (x : GroveSt) : Kept K F M L P C False z (s.setGrv g x) := by
  unfold State.setGrv
  repeat'
    first
    | (with_reducible assumption)
    | simp only [Kept.updGroves]

theorem State.modGrv_kept (h : Kept K F M L P C False z s) (g : Nat) (f : GroveSt → GroveSt) : Kept K F M L P C False z (s.modGrv g f) := by
  unfold State.modGrv
  repeat'
    first
    | (with_reducible assumption)
    | (with_reducible apply State.setGrv_kept)
    | split

theorem State.setCore_kept (h : Kept K F M L P C G z s) (c : Nat) (x : CoreSt) : Kept K F M L P C G z (s.setCore c x) := by
  unfold State.setCore
  repeat'
    first
    | (with_reducible assumption)
    | simp only [Kept.upd]

theorem State.modCore_kept (h : Kept K F M L P C G z s) (c : Nat) (f : CoreSt → CoreSt) : Kept K F M L P C G z (s.modCore c f) := by
  unfold State.modCore
  repeat'
    first
    | (with_reducible assumption)
    | (with_reducible apply State.setCore_kept)

theorem State.modCtx_kept (h : Kept K F M L P C G z s) (c : Nat) (f : Ctx → Ctx) : Kept K F M L P C G z (s.modCtx c f) := by
  unfold State.modCtx
  repeat'
    first
    | (with_reducible assumption)
    | (with_reducible apply State.modCore_kept)
    | (intro t; intros; try dsimp only)

theorem State.setLane_kept (h : Kept K F M False P C G z s) (l : Nat) (x : LaneSt) : Kept K F M False P C G z (s.setLane l x) := by
  unfold State.setLane
  repeat'
    first
    | (with_reducible assumption)
    | simp only [Kept.updLoop]

theorem State.modLane_kept (h : Kept K F M False P C G z s) (l : Nat) (f : LaneSt → LaneSt) : Kept K F M False P C G z (s.modLane l f) := by
  unfold State.modLane
  repeat'
    first
    | (with_reducible assumption)
    | (with_reducible apply State.setLane_kept)

theorem State.setPort_kept (h : Kept K F M L False C G z s) (p : Nat) (x : PortSt) : Kept K F M L False C G z (s.setPort p x) := by
  unfold State.setPort
  repeat'
    first
    | (with_reducible assumption)
    | simp only [Kept.updField]

theorem State.modPort_kept (h : Kept K F M L False C G z s) (p : Nat) (f : PortSt → PortSt) : Kept K F M L False C G z (s.modPort p f) := by
  unfold State.modPort
  repeat'
    first
    | (with_reducible assumption)
    | (with_reducible apply State.setPort_kept)

theorem State.setHawser_kept (h : Kept K F M L P False G z s) (p : Nat) (x : HawserSt) : Kept K F M L P False G z (s.setHawser p x) := by
  unfold State.setHawser
  repeat'
    first
    | (with_reducible assumption)
    | simp only [Kept.updCascade]

theorem State.modHawser_kept (h : Kept K F M L P False G z s) (p : Nat) (f : HawserSt → HawserSt) : Kept K F M L P False G z (s.modHawser p f) := by
  unfold State.modHawser
  repeat'
    first
    | (with_reducible assumption)
    | (with_reducible apply State.setHawser_kept)

theorem State.modFrame_kept (h : Kept K F M L P C G z s) (f : FrameSt → FrameSt) : Kept K F M L P C G z (s.modFrame f) := by
  unfold State.modFrame
  repeat'
    first
    | (with_reducible assumption)
    | simp only [Kept.upd]

theorem State.modStart_kept (h : Kept K F M L P C G z s) (f : StartSt → StartSt) : Kept K F M L P C G z (s.modStart f) := by
  unfold State.modStart
  repeat'
    first
    | (with_reducible assumption)
    | simp only [Kept.upd]

theorem State.modSignal_kept (h : Kept K F M L P C G z s) (f : SignalSt → SignalSt) : Kept K F M L P C G z (s.modSignal f) := by
  unfold State.modSignal
  repeat'
    first
    | (with_reducible assumption)
    | simp only [Kept.upd]

theorem State.modLoop_kept (h : Kept K F M False P C G z s) (f : LoopSt → LoopSt) : Kept K F M False P C G z (s.modLoop f) := by
  unfold State.modLoop
  repeat'
    first
    | (with_reducible assumption)
    | simp only [Kept.updLoop]

theorem State.modField_kept (h : Kept K F M L False C G z s) (f : FieldSt → FieldSt) : Kept K F M L False C G z (s.modField f) := by
  unfold State.modField
  repeat'
    first
    | (with_reducible assumption)
    | simp only [Kept.updField]

theorem State.modCas_kept (h : Kept K F M L P False G z s) (f : CascadeSt → CascadeSt) : Kept K F M L P False G z (s.modCas f) := by
  unfold State.modCas
  repeat'
    first
    | (with_reducible assumption)
    | simp only [Kept.updCascade]

theorem State.modCoh_kept (h : Kept K F M L P C G z s) (f : CohSt → CohSt) : Kept K F M L P C G z (s.modCoh f) := by
  unfold State.modCoh
  repeat'
    first
    | (with_reducible assumption)
    | simp only [Kept.upd]

theorem State.setRt_kept (h : Kept K F M L P C G z s) (t : Nat) (x : TagRt) : Kept K F M L P C G z (s.setRt t x) := by
  unfold State.setRt
  repeat'
    first
    | (with_reducible assumption)
    | (with_reducible apply State.modSignal_kept)
    | (intro t; intros; try dsimp only)

theorem State.atTime_kept (h : Kept K F M L P C G z s) (t : Nat) : Kept K F M L P C G z (s.atTime t) := by
  unfold State.atTime
  repeat'
    first
    | (with_reducible assumption)
    | simp only [Kept.upd]

theorem State.setTime_kept (h : Kept K F False L P C G z s) (t : Nat) : Kept K F False L P C G z (s.setTime t) := by
  unfold State.setTime
  repeat'
    first
    | (with_reducible assumption)
    | (extract_lets +onlyGivenNames x; clear_value x)
    | simp only [Kept.upd, Kept.updMet]

theorem State.answer_kept (h : Kept K F M L P C G z s) (r : Response) : Kept K F M L P C G z (s.answer r) := by
  unfold State.answer
  repeat'
    first
    | (with_reducible assumption)
    | simp only [Kept.upd]

theorem State.drawn_kept (h : Kept K F M L P C G z s)  : Kept K F M L P C G z (s.drawn) := by
  unfold State.drawn
  repeat'
    first
    | (with_reducible assumption)
    | simp only [Kept.upd]

theorem State.modPci_kept (h : Kept K F M L P C G z s) (f : PciSt → PciSt) : Kept K F M L P C G z (s.modPci f) := by
  unfold State.modPci
  repeat'
    first
    | (with_reducible assumption)
    | simp only [Kept.upd]

theorem State.msix_kept (h : Kept K F M L P C G z s) (f v : Nat) : Kept K F M L P C G z (s.msix f v) := by
  unfold State.msix
  repeat'
    first
    | (with_reducible assumption)
    | (extract_lets +onlyGivenNames x; clear_value x)
    | (with_reducible first | apply Kept.ite | apply State.modPci_kept)
    | split
    | (intro t; intros; try dsimp only)

end Sys2Proof.Machine
end

