-- ==== Sys2Proof/Laws/KeptLines.lean ====
section
/-! SUPPORT. What the operations of Lines.lean keep. -/

namespace Sys2Proof.Machine

variable {z s : State} {K F M L P C G : Prop}

theorem State.failLine_kept (h : Kept K F M L P C G z s) (line : Nat) (mac : Bool) : Kept K F M L P C G z (s.failLine line mac) := by
  unfold State.failLine
  repeat'
    first
    | (with_reducible assumption)
    | (with_reducible first | apply Kept.ite | apply State.modCoh_kept)
    | split
    | (intro t; intros; try dsimp only)

theorem State.mendLine_kept (h : Kept K F M L P C G z s) (line : Nat) : Kept K F M L P C G z (s.mendLine line) := by
  unfold State.mendLine
  repeat'
    first
    | (with_reducible assumption)
    | (with_reducible first | apply Kept.ite | apply State.modCoh_kept)
    | split
    | (intro t; intros; try dsimp only)

theorem State.poison_kept (h : Kept K F M L P C G z s) (a : Nat) : Kept K F M L P C G z (s.poison a) := by
  unfold State.poison
  repeat'
    first
    | (with_reducible assumption)
    | (with_reducible first | apply Kept.ite | apply State.modCoh_kept)
    | split
    | (intro t; intros; try dsimp only)

theorem State.toL3_kept (h : Kept K F M L P C G z s) (line : Nat) (dirty : Bool) : Kept K F M L P C G z (s.toL3 line dirty) := by
  unfold State.toL3
  repeat'
    first
    | (with_reducible assumption)
    | (extract_lets +onlyGivenNames x; first | (refine (fun hx : Kept K F M L P C G z x => ?_) ?_; clear_value x; rotate_left; subst x) | clear_value x)
    | (with_reducible first | apply State.mendLine_kept | apply State.modCoh_kept)
    | split
    | (intro t; intros; try dsimp only)

theorem State.dropL3_kept (h : Kept K F M L P C G z s) (line : Nat) : Kept K F M L P C G z (s.dropL3 line) := by
  unfold State.dropL3
  repeat'
    first
    | (with_reducible assumption)
    | (with_reducible apply State.modCoh_kept)
    | (intro t; intros; try dsimp only)

theorem State.l2Drop_kept (h : Kept K F M L P C G z s) (cl line : Nat) : Kept K F M L P C G z (s.l2Drop cl line) := by
  unfold State.l2Drop
  repeat'
    first
    | (with_reducible assumption)
    | (with_reducible apply State.modCoh_kept)
    | (intro t; intros; try dsimp only)

theorem State.dropAt_kept (h : Kept K F M L P C G z s) (cl line : Nat) : Kept K F M L P C G z (s.dropAt cl line) := by
  unfold State.dropAt
  repeat'
    first
    | (with_reducible assumption)
    | (extract_lets +onlyGivenNames x; clear_value x)
    | (with_reducible first | apply State.each_kept | apply State.l2Drop_kept | apply State.modCore_kept)
    | (intro t; intros; try dsimp only)

theorem State.dirMod_kept (h : Kept K F M L P C G z s) (line : Nat) (f : DirEntry → DirEntry) : Kept K F M L P C G z (s.dirMod line f) := by
  unfold State.dirMod
  repeat'
    first
    | (with_reducible assumption)
    | (extract_lets +onlyGivenNames x; clear_value x)
    | (with_reducible first | apply Kept.ite | apply State.modCoh_kept)
    | split
    | (intro t; intros; try dsimp only)

theorem State.clearPresence_kept (h : Kept K F M L P C G z s) (cl line : Nat) : Kept K F M L P C G z (s.clearPresence cl line) := by
  unfold State.clearPresence
  repeat'
    first
    | (with_reducible assumption)
    | (with_reducible apply State.dirMod_kept)
    | (intro t; intros; try dsimp only)

theorem State.dropOthers_kept (h : Kept K F M L P C G z s) (line : Nat) (keep : Option Nat) : Kept K F M L P C G z (s.dropOthers line keep) := by
  unfold State.dropOthers
  repeat'
    first
    | (with_reducible assumption)
    | (extract_lets +onlyGivenNames x; first | (refine (fun hx : Kept K F M L P C G z x => ?_) ?_; clear_value x; rotate_left; subst x) | clear_value x)
    | (with_reducible first | apply State.dirMod_kept | apply State.dropAt_kept | apply State.each_kept | apply State.modCoh_kept)
    | split
    | (intro t; intros; try dsimp only)

theorem State.invalidatingWrite_kept (h : Kept False F M L P C G z s) (a : Nat) (bs : List Byte) : Kept False F M L P C G z (s.invalidatingWrite a bs) := by
  unfold State.invalidatingWrite
  repeat'
    first
    | (with_reducible assumption)
    | (extract_lets +onlyGivenNames x; first | (refine (fun hx : Kept False F M L P C G z x => ?_) ?_; clear_value x; rotate_left; subst x) | clear_value x)
    | (with_reducible first | apply State.dropOthers_kept | apply State.each_kept | apply State.iff_kept | apply State.mendLine_kept | apply State.modCoh_kept | apply State.wrB_kept)
    | (intro t; intros; try dsimp only)

theorem State.setWb_kept (h : Kept K F M L P C G z s) (cl line : Nat) (on : Bool) : Kept K F M L P C G z (s.setWb cl line on) := by
  unfold State.setWb
  repeat'
    first
    | (with_reducible assumption)
    | (extract_lets +onlyGivenNames x; clear_value x)
    | (with_reducible first | apply Kept.ite | apply State.modCoh_kept)
    | split
    | (intro t; intros; try dsimp only)

theorem State.evictL2_kept (h : Kept K F M L P C G z s) (cl line : Nat) (st : LineState) : Kept K F M L P C G z (s.evictL2 cl line st) := by
  unfold State.evictL2
  repeat'
    first
    | (with_reducible assumption)
    | (extract_lets +onlyGivenNames x; first | (refine (fun hx : Kept K F M L P C G z x => ?_) ?_; clear_value x; rotate_left; subst x) | clear_value x)
    | (with_reducible first | apply Kept.ite | apply State.clearPresence_kept | apply State.dropAt_kept | apply State.iff_kept | apply State.modCoh_kept | apply State.setWb_kept | apply State.toL3_kept)
    | split
    | (intro t; intros; try dsimp only)

theorem State.fillL2_kept (h : Kept K F M L P C G z s) (cl line : Nat) (st : LineState) : Kept K F M L P C G z (s.fillL2 cl line st) := by
  unfold State.fillL2
  repeat'
    first
    | (with_reducible assumption)
    | (extract_lets +onlyGivenNames x; first | (refine (fun hx : Kept K F M L P C G z x => ?_) ?_; clear_value x; rotate_left; subst x) | clear_value x)
    | (with_reducible first | apply State.evictL2_kept | apply State.modCoh_kept)
    | split
    | (intro t; intros; try dsimp only)

theorem State.setL2_kept (h : Kept K F M L P C G z s) (cl line : Nat) (st : LineState) : Kept K F M L P C G z (s.setL2 cl line st) := by
  unfold State.setL2
  repeat'
    first
    | (with_reducible assumption)
    | (extract_lets +onlyGivenNames x; first | (refine (fun hx : Kept K F M L P C G z x => ?_) ?_; clear_value x; rotate_left; subst x) | clear_value x)
    | (with_reducible first | apply Kept.ite | apply State.each_kept | apply State.modCoh_kept | apply State.modCore_kept)
    | split
    | (intro t; intros; try dsimp only)

theorem State.dirPut_kept (h : Kept K F M L P C G z s) (line : Nat) (rt : Bool) (own : Option Nat) (unique : Bool) (presence : Nat) : Kept K F M L P C G z (s.dirPut line rt own unique presence) := by
  unfold State.dirPut
  repeat'
    first
    | (with_reducible assumption)
    | (extract_lets +onlyGivenNames x; first | (refine (fun hx : Kept K F M L P C G z x => ?_) ?_; clear_value x; rotate_left; subst x) | (refine (fun hx : Kept K F M L P C G z x.2 => ?_) ?_; clear_value x; rotate_left; subst x) | (refine (fun hx : ∀ t, Kept K F M L P C G z t → Kept K F M L P C G z (x t) => ?_) ?_; clear_value x; rotate_left; subst x) | (refine (fun hx : ∀ t a, Kept K F M L P C G z t → Kept K F M L P C G z (x t a) => ?_) ?_; clear_value x; rotate_left; subst x) | (refine (fun hx : ∀ a t, Kept K F M L P C G z t → Kept K F M L P C G z (x a t) => ?_) ?_; clear_value x; rotate_left; subst x) | (refine (fun hx : ∀ t a b d, Kept K F M L P C G z t → Kept K F M L P C G z (x t a b d) => ?_) ?_; clear_value x; rotate_left; subst x) | (refine (fun hx : ∀ a b, Kept K F M L P C G z (x a b) => ?_) ?_; clear_value x; rotate_left; subst x) | clear_value x)
    | (with_reducible first | apply Kept.ite_snd | apply Kept.ite | apply State.dropOthers_kept | apply State.iff_kept | apply State.modCoh_kept | apply State.toL3_kept | apply foldl_kept | apply foldl_pair_kept)
    | split
    | (intro t; intros; try dsimp only)
    | (with_reducible refine Kept.snd (by assumption) ?_)
    | (with_reducible refine OptKept.of (by assumption) ?_)
    | with_reducible apply_assumption

theorem State.ask_kept (h : Kept K F M L P C G z s) (c line : Nat) (rt : Bool) : Kept K F M L P C G z (s.ask c line rt).2 := by
  unfold State.ask
  repeat'
    first
    | (with_reducible assumption)
    | (extract_lets +onlyGivenNames x; clear_value x)
    | (with_reducible first | apply Kept.ite_snd | apply Kept.ite | apply State.modCoh_kept)
    | split
    | (intro t; intros; try dsimp only)
    | (with_reducible refine Kept.snd (by assumption) ?_)

theorem State.asked_kept (h : Kept K F M L P C G z s) (c line : Nat) : Kept K F M L P C G z (s.asked c line) := by
  unfold State.asked
  repeat'
    first
    | (with_reducible assumption)
    | (with_reducible first | apply Kept.ite | apply State.modCoh_kept)
    | split
    | (intro t; intros; try dsimp only)

theorem State.dropAsked_kept (h : Kept K F M L P C G z s) (c : Nat) : Kept K F M L P C G z (s.dropAsked c) := by
  unfold State.dropAsked
  repeat'
    first
    | (with_reducible assumption)
    | (extract_lets +onlyGivenNames x; clear_value x)
    | (with_reducible first | apply Kept.ite | apply State.modCoh_kept)
    | split
    | (intro t; intros; try dsimp only)

theorem State.fillL1I_kept (h : Kept K F M L P C G z s) (c line : Nat) : Kept K F M L P C G z (s.fillL1I c line) := by
  unfold State.fillL1I
  repeat'
    first
    | (with_reducible assumption)
    | (extract_lets +onlyGivenNames x; clear_value x)
    | (with_reducible first | apply State.drawn_kept | apply State.modCore_kept)
    | (intro t; intros; try dsimp only)

theorem State.fillL1D_kept (h : Kept K F M L P C G z s) (c line : Nat) (st : LineState) : Kept K F M L P C G z (s.fillL1D c line st) := by
  unfold State.fillL1D
  repeat'
    first
    | (with_reducible assumption)
    | (extract_lets +onlyGivenNames x; clear_value x)
    | (with_reducible first | apply Kept.ite | apply State.drawn_kept | apply State.modCore_kept)
    | split
    | (intro t; intros; try dsimp only)

theorem State.takeL2_kept (h : Kept K F M L P C G z s) (c line : Nat) (rt : Bool) (st : LineState) : Kept K F M L P C G z (s.takeL2 c line rt st) := by
  unfold State.takeL2
  repeat'
    first
    | (with_reducible assumption)
    | (extract_lets +onlyGivenNames x; first | (refine (fun hx : Kept K F M L P C G z x => ?_) ?_; clear_value x; rotate_left; subst x) | clear_value x)
    | (with_reducible first | apply Kept.ite | apply State.asked_kept | apply State.dirPut_kept | apply State.dropOthers_kept | apply State.fillL2_kept | apply State.iff_kept | apply State.toL3_kept)
    | split
    | (intro t; intros; try dsimp only)

theorem State.takeLine_kept (h : Kept K F M L P C G z s) (c line : Nat) (rt : Bool) (st : LineState) : Kept K F M L P C G z (s.takeLine c line rt st) := by
  unfold State.takeLine
  repeat'
    first
    | (with_reducible assumption)
    | (extract_lets +onlyGivenNames x; first | (refine (fun hx : Kept K F M L P C G z x => ?_) ?_; clear_value x; rotate_left; subst x) | clear_value x)
    | (with_reducible first | apply State.each_kept | apply State.fillL1D_kept | apply State.modCore_kept | apply State.takeL2_kept)
    | split
    | (intro t; intros; try dsimp only)

theorem State.shareL2_kept (h : Kept K F M L P C G z s) (cl line : Nat) (rt fetch : Bool) (own : Option Nat) : Kept K F M L P C G z (s.shareL2 cl line rt fetch own) := by
  unfold State.shareL2
  repeat'
    first
    | (with_reducible assumption)
    | (extract_lets +onlyGivenNames x; first | (refine (fun hx : Kept K F M L P C G z x => ?_) ?_; clear_value x; rotate_left; subst x) | clear_value x)
    | (with_reducible first | apply Kept.ite | apply State.dirPut_kept | apply State.each_kept | apply State.fillL2_kept | apply State.iff_kept | apply State.setL2_kept | apply State.toL3_kept)
    | split
    | (intro t; intros; try dsimp only)
    | (with_reducible refine OptKept.of (by assumption) ?_)

theorem State.shareL1_kept (h : Kept K F M L P C G z s) (c line : Nat) (fetch : Bool) : Kept K F M L P C G z (s.shareL1 c line fetch) := by
  unfold State.shareL1
  repeat'
    first
    | (with_reducible assumption)
    | (extract_lets +onlyGivenNames x; clear_value x)
    | (with_reducible first | apply Kept.ite | apply State.each_kept | apply State.fillL1D_kept | apply State.fillL1I_kept | apply State.modCore_kept)
    | split
    | (intro t; intros; try dsimp only)

theorem State.shareLine_kept (h : Kept K F M L P C G z s) (c line : Nat) (rt fetch : Bool) : Kept K F M L P C G z (s.shareLine c line rt fetch) := by
  unfold State.shareLine
  repeat'
    first
    | (with_reducible assumption)
    | (with_reducible first | apply State.asked_kept | apply State.shareL1_kept | apply State.shareL2_kept)

theorem State.promote_kept (h : Kept K F M L P C G z s) (c line : Nat) (fetch : Bool) : Kept K F M L P C G z (s.promote c line fetch) := by
  unfold State.promote
  repeat'
    first
    | (with_reducible assumption)
    | (extract_lets +onlyGivenNames x; first | (refine (fun hx : Kept K F M L P C G z x => ?_) ?_; clear_value x; rotate_left; subst x) | clear_value x)
    | (with_reducible first | apply Kept.ite | apply State.modCore_kept | apply State.shareL1_kept | apply State.shareL2_kept)
    | split
    | (intro t; intros; try dsimp only)

end Sys2Proof.Machine
end

