-- ==== Sys2Proof/Laws/KeptCoreOps.lean ====
section
/-! SUPPORT. What the operations of CoreOps.lean keep. -/

namespace Sys2Proof.Machine

variable {z s : State} {K F M L P C G : Prop}

theorem State.setPc_kept (h : Kept K F M L P C G z s) (c pc : Nat) : Kept K F M L P C G z (s.setPc c pc) := by
  unfold State.setPc
  repeat'
    first
    | (with_reducible assumption)
    | (with_reducible apply State.modCtx_kept)
    | (intro t; intros; try dsimp only)

theorem State.setLevel_kept (h : Kept K F M L P C G z s) (c : Nat) (l : Level) : Kept K F M L P C G z (s.setLevel c l) := by
  unfold State.setLevel
  repeat'
    first
    | (with_reducible assumption)
    | (with_reducible apply State.modCtx_kept)
    | (intro t; intros; try dsimp only)

theorem State.setX_kept (h : Kept K F M L P C G z s) (c i v : Nat) : Kept K F M L P C G z (s.setX c i v) := by
  unfold State.setX
  repeat'
    first
    | (with_reducible assumption)
    | (with_reducible first | apply Kept.ite | apply State.modCtx_kept)
    | split
    | (intro t; intros; try dsimp only)

theorem State.setFr_kept (h : Kept K F M L P C G z s) (c i v : Nat) : Kept K F M L P C G z (s.setFr c i v) := by
  unfold State.setFr
  repeat'
    first
    | (with_reducible assumption)
    | (with_reducible apply State.modCtx_kept)
    | (intro t; intros; try dsimp only)

theorem State.setCsr_kept (h : Kept K F M L P C G z s) (c n v : Nat) : Kept K F M L P C G z (s.setCsr c n v) := by
  unfold State.setCsr
  repeat'
    first
    | (with_reducible assumption)
    | (with_reducible apply State.modCtx_kept)
    | (intro t; intros; try dsimp only)

theorem State.setPcsr_kept (h : Kept K F M L P C G z s) (c n v : Nat) : Kept K F M L P C G z (s.setPcsr c n v) := by
  unfold State.setPcsr
  repeat'
    first
    | (with_reducible assumption)
    | (with_reducible apply State.modCore_kept)
    | (intro t; intros; try dsimp only)

theorem State.flushPredictor_kept (h : Kept K F M L P C G z s) (c : Nat) : Kept K F M L P C G z (s.flushPredictor c) := by
  unfold State.flushPredictor
  repeat'
    first
    | (with_reducible assumption)
    | (with_reducible apply State.modCore_kept)
    | (intro t; intros; try dsimp only)

theorem State.pmcAccrue_kept (h : Kept K F M L P C G z s) (c : Nat) : Kept K F M L P C G z (s.pmcAccrue c) := by
  unfold State.pmcAccrue
  repeat'
    first
    | (with_reducible assumption)
    | (extract_lets +onlyGivenNames x; first | (refine (fun hx : Kept K F M L P C G z x => ?_) ?_; clear_value x; rotate_left; subst x) | clear_value x)
    | (with_reducible first | apply Kept.ite | apply State.drawn_kept | apply State.each_kept | apply State.modCore_kept | apply State.setPcsr_kept)
    | split
    | (intro t; intros; try dsimp only)

theorem State.markRunning_kept (h : Kept False F M L P C G z s) (id : Nat) (r : Bool) : Kept False F M L P C G z (s.markRunning id r) := by
  unfold State.markRunning
  repeat'
    first
    | (with_reducible assumption)
    | (extract_lets +onlyGivenNames x; clear_value x)
    | (with_reducible apply State.invalidatingWrite_kept)

theorem State.saveCtx_kept (h : Kept False F M L P C G z s) (c : Nat) (running : Bool) : Kept False F M L P C G z (s.saveCtx c running) := by
  unfold State.saveCtx
  repeat'
    first
    | (with_reducible assumption)
    | (with_reducible apply State.invalidatingWrite_kept)
    | split

theorem State.groveSwitch_kept (h : Kept K F M L P C G z s) (c : Nat) : Kept K F M L P C G z (s.groveSwitch c) := by
  unfold State.groveSwitch
  repeat'
    first
    | (with_reducible assumption)
    | (with_reducible first | apply State.flushPredictor_kept | apply State.modCoh_kept | apply State.modCore_kept | apply State.modCtx_kept)
    | (intro t; intros; try dsimp only)

theorem State.loadCtx_kept (h : Kept False F M L P C G z s) (c id : Nat) (leftIsolated : Bool) : Kept False F M L P C G z (s.loadCtx c id leftIsolated) := by
  unfold State.loadCtx
  repeat'
    first
    | (with_reducible assumption)
    | (extract_lets +onlyGivenNames x; first | (refine (fun hx : Kept False F M L P C G z x => ?_) ?_; clear_value x; rotate_left; subst x) | clear_value x)
    | (with_reducible first | apply State.flushPredictor_kept | apply State.groveSwitch_kept | apply State.iff_kept | apply State.markRunning_kept | apply State.modCore_kept | apply State.pmcAccrue_kept)
    | split
    | (intro t; intros; try dsimp only)

theorem State.bootGrove_kept (h : Kept False F M L P C G z s) (g : Nat) : Kept False F M L P C G z (s.bootGrove g) := by
  unfold State.bootGrove
  repeat'
    first
    | (with_reducible assumption)
    | (extract_lets +onlyGivenNames x; first | (refine (fun hx : Kept False F M L P C G z x => ?_) ?_; clear_value x; rotate_left; subst x) | clear_value x)
    | (with_reducible first | apply State.invalidatingWrite_kept | apply State.loadCtx_kept)
    | split

end Sys2Proof.Machine
end

