-- ==== Sys2Proof/Laws/KeptIrq.lean ====
section
/-! SUPPORT. What the operations of Irq.lean keep. -/

namespace Sys2Proof.Machine

variable {z s : State} {K F M L P C G : Prop}

theorem State.signalSource_kept (h : Kept K F M L P C G z s) (src op : Nat) : Kept K F M L P C G z (s.signalSource src op) := by
  unfold State.signalSource
  repeat'
    first
    | (with_reducible assumption)
    | (extract_lets +onlyGivenNames x; clear_value x)
    | (with_reducible first | apply Kept.ite | apply State.lower_kept | apply State.raise_kept | apply State.setIf_kept)
    | split

theorem State.recordDrop_kept (h : Kept K F M L P C G z s) (w : Writer) (src op : Nat) (reason : Nat) : Kept K F M L P C G z (s.recordDrop w src op reason) := by
  unfold State.recordDrop
  repeat'
    first
    | (with_reducible assumption)
    | (extract_lets +onlyGivenNames x; clear_value x)
    | (with_reducible first | apply State.inc_kept | apply State.raise_kept | apply State.setReg_kept)
    | split

theorem State.ring_kept (h : Kept K F M L P C G z s) (w : Writer) (src op : Nat) : Kept K F M L P C G z (s.ring w src op) := by
  unfold State.ring
  repeat'
    first
    | (with_reducible assumption)
    | (extract_lets +onlyGivenNames x; first | (refine (fun hx : Kept K F M L P C G z x => ?_) ?_; clear_value x; rotate_left; subst x) | clear_value x)
    | (with_reducible first | apply Kept.ite | apply State.recordDrop_kept | apply State.signalSource_kept)
    | split

theorem State.setStack_kept (h : Kept K F M L P C G z s) (c : Nat) (l : List (Nat × Nat)) : Kept K F M L P C G z (s.setStack c l) := by
  unfold State.setStack
  repeat'
    first
    | (with_reducible assumption)
    | simp only [Kept.upd]

theorem State.accept_kept (h : Kept K F M L P C G z s) (c src : Nat) : Kept K F M L P C G z (s.accept c src) := by
  unfold State.accept
  repeat'
    first
    | (with_reducible assumption)
    | (with_reducible first | apply State.lower_kept | apply State.raise_kept | apply State.set_kept | apply State.setStack_kept)
    | (with_reducible refine Kept.snd (by assumption) ?_)

theorem State.pmcWrap_kept (h : Kept K F M L P C G z s) (c n : Nat) : Kept K F M L P C G z (s.pmcWrap c n) := by
  unfold State.pmcWrap
  repeat'
    first
    | (with_reducible assumption)
    | (extract_lets +onlyGivenNames x; first | (refine (fun hx : Kept K F M L P C G z x => ?_) ?_; clear_value x; rotate_left; subst x) | clear_value x)
    | (with_reducible first | apply Kept.ite | apply State.ring_kept | apply State.setPcsr_kept)
    | split

theorem State.pmcAdd_kept (h : Kept K F M L P C G z s) (c n k : Nat) : Kept K F M L P C G z (s.pmcAdd c n k) := by
  unfold State.pmcAdd
  repeat'
    first
    | (with_reducible assumption)
    | (with_reducible first | apply State.pmcWrap_kept | apply State.setPcsr_kept)

theorem State.pmcBump_kept (h : Kept K F M L P C G z s) (c n k : Nat) : Kept K F M L P C G z (s.pmcBump c n k) := by
  unfold State.pmcBump
  repeat'
    first
    | (with_reducible assumption)
    | (extract_lets +onlyGivenNames x; first | (refine (fun hx : Kept K F M L P C G z x => ?_) ?_; clear_value x; rotate_left; subst x) | clear_value x)
    | (with_reducible first | apply Kept.ite | apply State.pmcAdd_kept)
    | split

theorem State.pmcSync_kept (h : Kept K F M L P C G z s) (c : Nat) : Kept K F M L P C G z (s.pmcSync c) := by
  unfold State.pmcSync
  repeat'
    first
    | (with_reducible assumption)
    | (extract_lets +onlyGivenNames x; first | (refine (fun hx : Kept K F M L P C G z x => ?_) ?_; clear_value x; rotate_left; subst x) | clear_value x)
    | (with_reducible first | apply Kept.ite | apply State.each_kept | apply State.pmcAccrue_kept | apply State.pmcBump_kept)
    | split
    | (intro t; intros; try dsimp only)

theorem State.eventAt_kept (h : Kept K F M L P C G z s) (c : Nat) (lv : Level) (ev : Nat) : Kept K F M L P C G z (s.eventAt c lv ev) := by
  unfold State.eventAt
  repeat'
    first
    | (with_reducible assumption)
    | (extract_lets +onlyGivenNames x; clear_value x)
    | (with_reducible first | apply Kept.ite | apply State.each_kept | apply State.pmcBump_kept)
    | split
    | (intro t; intros; try dsimp only)

theorem State.event_kept (h : Kept K F M L P C G z s) (c ev : Nat) : Kept K F M L P C G z (s.event c ev) := by
  unfold State.event
  repeat'
    first
    | (with_reducible assumption)
    | (with_reducible apply State.eventAt_kept)

theorem State.events_kept (h : Kept K F M L P C G z s) (c : Nat) (lv : Level) (evs : List Nat) : Kept K F M L P C G z (s.events c lv evs) := by
  unfold State.events
  repeat'
    first
    | (with_reducible assumption)
    | (with_reducible first | apply State.each_kept | apply State.eventAt_kept)
    | (intro t; intros; try dsimp only)

theorem State.condEdge_kept (h : Kept K F M L P C G z s) (c ev : Nat) : Kept K F M L P C G z (s.condEdge c ev) := by
  unfold State.condEdge
  repeat'
    first
    | (with_reducible assumption)
    | (extract_lets +onlyGivenNames x; clear_value x)
    | (with_reducible first | apply Kept.ite | apply State.each_kept | apply State.pmcBump_kept)
    | split
    | (intro t; intros; try dsimp only)

theorem State.counted_kept (h : Kept K F M L P C G z s) (c : Nat) : Kept K F M L P C G z (s.counted c) := by
  unfold State.counted
  repeat'
    first
    | (with_reducible assumption)
    | (extract_lets +onlyGivenNames x; first | (refine (fun hx : Kept K F M L P C G z x => ?_) ?_; clear_value x; rotate_left; subst x) | clear_value x)
    | (with_reducible first | apply Kept.ite | apply State.each_kept | apply State.events_kept | apply State.modCore_kept | apply State.promote_kept)
    | split
    | (intro t; intros; try dsimp only)

theorem State.retire_kept (h : Kept K F M L P C G z s) (c len : Nat) : Kept K F M L P C G z (s.retire c len) := by
  unfold State.retire
  repeat'
    first
    | (with_reducible assumption)
    | (extract_lets +onlyGivenNames x; first | (refine (fun hx : Kept K F M L P C G z x => ?_) ?_; clear_value x; rotate_left; subst x) | clear_value x)
    | (with_reducible first | apply Kept.ite | apply State.counted_kept | apply State.event_kept | apply State.setCsr_kept | apply State.setPc_kept)
    | split

theorem State.retireTo_kept (h : Kept K F M L P C G z s) (c target : Nat) : Kept K F M L P C G z (s.retireTo c target) := by
  unfold State.retireTo
  repeat'
    first
    | (with_reducible assumption)
    | (with_reducible first | apply State.counted_kept | apply State.setPc_kept)

theorem State.endWait_kept (h : Kept K F M L P C G z s) (c : Nat) : Kept K F M L P C G z (s.endWait c) := by
  unfold State.endWait
  repeat'
    first
    | (with_reducible assumption)
    | (with_reducible first | apply State.modCore_kept | apply State.pmcSync_kept | apply State.retire_kept | apply State.setX_kept)
    | split
    | (intro t; intros; try dsimp only)

theorem State.wakeAux_kept (h : Kept K F M L P C G z s)  (k : Nat) : Kept K F M L P C G z (State.wakeAux k s) := by
  induction k generalizing s with
  | zero => exact h
  | succ k ih =>
    unfold State.wakeAux
    repeat'
      first
      | (with_reducible assumption)
      | (extract_lets +onlyGivenNames x; first | (refine (fun hx : Kept K F M L P C G z x => ?_) ?_; clear_value x; rotate_left; subst x) | (refine (fun hx : Kept K F M L P C G z x.2 => ?_) ?_; clear_value x; rotate_left; subst x) | (refine (fun hx : ∀ t, Kept K F M L P C G z t → Kept K F M L P C G z (x t) => ?_) ?_; clear_value x; rotate_left; subst x) | (refine (fun hx : ∀ t a, Kept K F M L P C G z t → Kept K F M L P C G z (x t a) => ?_) ?_; clear_value x; rotate_left; subst x) | (refine (fun hx : ∀ a t, Kept K F M L P C G z t → Kept K F M L P C G z (x a t) => ?_) ?_; clear_value x; rotate_left; subst x) | (refine (fun hx : ∀ t a b d, Kept K F M L P C G z t → Kept K F M L P C G z (x t a b d) => ?_) ?_; clear_value x; rotate_left; subst x) | (refine (fun hx : ∀ a b, Kept K F M L P C G z (x a b) => ?_) ?_; clear_value x; rotate_left; subst x) | clear_value x)
      | (with_reducible first | apply ih | apply State.endWait_kept)
      | split | (intro t; intros; try dsimp only) | (with_reducible refine Kept.snd (by assumption) ?_)

theorem State.settle_kept (h : Kept K F M L P C G z s)  : Kept K F M L P C G z (s.settle) := by
  unfold State.settle
  repeat'
    first
    | (with_reducible assumption)
    | (with_reducible first | apply Kept.ite | apply State.wakeAux_kept)
    | split
    | (intro t; intros; try dsimp only)

theorem State.doorbell_kept (h : Kept K F M L P C G z s) (w : Writer) (src op : Nat) : Kept K F M L P C G z (s.doorbell w src op) := by
  unfold State.doorbell
  repeat'
    first
    | (with_reducible assumption)
    | (with_reducible first | apply State.ring_kept | apply State.settle_kept)

theorem State.pulse_kept (h : Kept K F M L P C G z s) (src : Nat) : Kept K F M L P C G z (s.pulse src) := by
  unfold State.pulse
  repeat'
    first
    | (with_reducible assumption)
    | (with_reducible apply State.doorbell_kept)

theorem State.trapEntry_kept (h : Kept K F M L P C G z s) (c : Nat) (h : Level) (cause tval target : Nat) : Kept K F M L P C G z (s.trapEntry c h cause tval target) := by
  unfold State.trapEntry
  repeat'
    first
    | (with_reducible assumption)
    | (extract_lets +onlyGivenNames x; first | (refine (fun hx : Kept K F M L P C G z x => ?_) ?_; clear_value x; rotate_left; subst x) | clear_value x)
    | (with_reducible first | apply State.dropAsked_kept | apply State.event_kept | apply State.flushPredictor_kept | apply State.iff_kept | apply State.modCore_kept | apply State.pmcSync_kept | apply State.setCsr_kept | apply State.setLevel_kept | apply State.setPc_kept)
    | (intro t; intros; try dsimp only)

theorem State.trap_kept (h : Kept K F M L P C G z s) (c code synd tval : Nat) : Kept K F M L P C G z (s.trap c code synd tval) := by
  unfold State.trap
  repeat'
    first
    | (with_reducible assumption)
    | (extract_lets +onlyGivenNames x; clear_value x)
    | (with_reducible apply State.trapEntry_kept)

theorem State.takeInterrupt_kept (h : Kept K F M L P C G z s) (c src : Nat) : Kept K F M L P C G z (s.takeInterrupt c src) := by
  unfold State.takeInterrupt
  repeat'
    first
    | (with_reducible assumption)
    | (extract_lets +onlyGivenNames x; clear_value x)
    | (with_reducible first | apply Kept.ite | apply State.accept_kept | apply State.event_kept | apply State.trapEntry_kept)
    | split

theorem State.trapReturn_kept (h : Kept K F M L P C G z s) (c : Nat) (h : Level) : Kept K F M L P C G z (s.trapReturn c h) := by
  unfold State.trapReturn
  repeat'
    first
    | (with_reducible assumption)
    | (extract_lets +onlyGivenNames x; first | (refine (fun hx : Kept K F M L P C G z x => ?_) ?_; clear_value x; rotate_left; subst x) | clear_value x)
    | (with_reducible first | apply State.flushPredictor_kept | apply State.iff_kept | apply State.modCore_kept | apply State.pmcSync_kept | apply State.setCsr_kept | apply State.setLevel_kept | apply State.setPc_kept)
    | (intro t; intros; try dsimp only)

theorem State.bankBit_kept (h : Kept K F M L P C G z s) (b : Bank) (src : Nat) : Kept K F M L P C G z (s.bankBit b src) := by
  unfold State.bankBit
  repeat'
    first
    | (with_reducible assumption)
    | (with_reducible first | apply State.lower_kept | apply State.raise_kept)
    | split

theorem State.bankWrite_kept (h : Kept K F M L P C G z s) (r : Requester) (b : Bank) (w v : Nat) : Kept K F M L P C G z (s.bankWrite r b w v) := by
  unfold State.bankWrite
  repeat'
    first
    | (with_reducible assumption)
    | (with_reducible first | apply Kept.ite | apply State.bankBit_kept | apply State.each_kept | apply State.settle_kept)
    | split
    | (intro t; intros; try dsimp only)

theorem State.claim_kept (h : Kept K F M L P C G z s) (c : Nat) : Kept K F M L P C G z (s.claim c).2 := by
  unfold State.claim
  repeat'
    first
    | (with_reducible assumption)
    | (with_reducible first | apply Kept.ite_snd | apply Kept.ite | apply State.accept_kept)
    | split
    | (with_reducible refine Kept.snd (by assumption) ?_)
    | (with_reducible refine OptKept.of (by assumption) ?_)

theorem State.endActive_kept (h : Kept K F M L P C G z s) (src : Nat) : Kept K F M L P C G z (s.endActive src) := by
  unfold State.endActive
  repeat'
    first
    | (with_reducible assumption)
    | (with_reducible first | apply State.lower_kept | apply State.setIf_kept)

theorem State.eoi_kept (h : Kept K F M L P C G z s) (c src : Nat) : Kept K F M L P C G z (s.eoi c src) := by
  unfold State.eoi
  repeat'
    first
    | (with_reducible assumption)
    | (with_reducible first | apply Kept.ite | apply State.endActive_kept | apply State.raise_kept | apply State.setStack_kept | apply State.settle_kept)
    | split

theorem State.configSource_kept (h : Kept K F M L P C G z s) (r : Requester) (src v : Nat) : Kept K F M L P C G z (s.configSource r src v) := by
  unfold State.configSource
  repeat'
    first
    | (with_reducible assumption)
    | (extract_lets +onlyGivenNames x; first | (refine (fun hx : Kept K F M L P C G z x => ?_) ?_; clear_value x; rotate_left; subst x) | clear_value x)
    | (with_reducible first | apply Kept.ite | apply State.set_kept | apply State.setIf_kept | apply State.settle_kept)
    | split

theorem State.compatWrite_kept (h : Kept K F M L P C G z s) (r : Requester) (g v : Nat) : Kept K F M L P C G z (s.compatWrite r g v) := by
  unfold State.compatWrite
  repeat'
    first
    | (with_reducible assumption)
    | (with_reducible first | apply Kept.ite | apply State.set_kept | apply State.settle_kept)
    | split
    | (intro t; intros; try dsimp only)

end Sys2Proof.Machine
end

