-- ==== Sys2Proof/Laws/KeptAudit.lean ====
section
/-! SUPPORT. What the operations of Audit.lean keep. -/

namespace Sys2Proof.Machine

variable {z s : State} {K F M L P C G : Prop}

theorem State.modSec_kept (h : Kept K F M L P C G z s) (f : SecSt → SecSt) : Kept K F M L P C G z (s.modSec f) := by
  unfold State.modSec
  repeat'
    first
    | (with_reducible assumption)
    | simp only [Kept.upd]

theorem State.audit_kept (h : Kept K F M L P C G z s) (event arg0 arg1 : Nat) (data : List Byte) : Kept K F M L P C G z (s.audit event arg0 arg1 data) := by
  unfold State.audit
  repeat'
    first
    | (with_reducible assumption)
    | (with_reducible first | apply State.modSec_kept | apply State.set_kept)
    | (intro t; intros; try dsimp only)

end Sys2Proof.Machine
end

