-- ==== Sys2Proof/Laws/KeptFirewall.lean ====
section
/-! SUPPORT. What the operations of Firewall.lean keep. -/

namespace Sys2Proof.Machine

variable {z s : State} {K F M L P C G : Prop}

theorem State.setGstate_kept (h : Kept K F M L P C G z s) (g st : Nat) : Kept K F M L P C G z (s.setGstate g st) := by
  unfold State.setGstate
  repeat'
    first
    | (with_reducible assumption)
    | (with_reducible apply State.set_kept)

theorem State.fwRefuse_kept (h : Kept K F M L P C G z s) (g : Nat) (k : FwKind) (req a n : Nat) : Kept K F M L P C G z (s.fwRefuse g k req a n) := by
  unfold State.fwRefuse
  repeat'
    first
    | (with_reducible assumption)
    | (with_reducible first | apply State.raise_kept | apply State.setReg_kept)

theorem State.fwDrawn_kept (h : Kept K F M L P C G z s) (g : Nat) : Kept K F M L P C G z (s.fwDrawn g) := by
  unfold State.fwDrawn
  repeat'
    first
    | (with_reducible assumption)
    | (with_reducible first | apply Kept.ite | apply State.drawn_kept)
    | split

theorem State.fwCheck_kept (h : Kept K F M L P C G z s) (g : Nat) (k : FwKind) (req a n : Nat) : Kept K F M L P C G z (s.fwCheck g k req a n).2 := by
  unfold State.fwCheck
  repeat'
    first
    | (with_reducible assumption)
    | (with_reducible first | apply Kept.ite_snd | apply Kept.ite | apply State.fwDrawn_kept | apply State.fwRefuse_kept)
    | split
    | (with_reducible refine Kept.snd (by assumption) ?_)

end Sys2Proof.Machine
end

