-- ==== Sys2Proof/Laws/KeptFrameOps.lean ====
section
/-! SUPPORT. What the operations of FrameOps.lean keep. -/

namespace Sys2Proof.Machine

variable {z s : State} {K F M L P C G : Prop}

theorem State.fsAny_kept (h : Kept K F M L P C G z s)  : Kept K F M L P C G z (s.fsAny) := by
  unfold State.fsAny
  repeat'
    first
    | (with_reducible assumption)
    | (with_reducible apply State.set_kept)
    | (intro t; intros; try dsimp only)

theorem State.enterFailsafe_kept (h : Kept K F M L P C False z s) (g : Nat) : Kept K F M L P C False z (s.enterFailsafe g) := by
  unfold State.enterFailsafe
  repeat'
    first
    | (with_reducible assumption)
    | (with_reducible first | apply State.fsAny_kept | apply State.lower_kept | apply State.modGrv_kept | apply State.raise_kept)
    | (intro t; intros; try dsimp only)

theorem State.leaveFailsafe_kept (h : Kept K F M L P C False z s) (g : Nat) : Kept K F M L P C False z (s.leaveFailsafe g) := by
  unfold State.leaveFailsafe
  repeat'
    first
    | (with_reducible assumption)
    | (with_reducible first | apply State.fsAny_kept | apply State.lower_kept | apply State.modGrv_kept)
    | (intro t; intros; try dsimp only)

end Sys2Proof.Machine
end

