-- ==== Sys2Proof/Laws/KeptIntegrity.lean ====
section
/-! SUPPORT. What the operations of Integrity.lean keep. -/

namespace Sys2Proof.Machine

variable {z s : State} {K F M L P C G : Prop}

theorem State.memBell_kept (h : Kept K F M L P C G z s)  : Kept K F M L P C G z (s.memBell) := by
  unfold State.memBell
  repeat'
    first
    | (with_reducible assumption)
    | (with_reducible first | apply Kept.ite | apply State.pulse_kept)
    | split

theorem State.memRaise_kept (h : Kept K F M L P C G z s) (f : Fld) : Kept K F M L P C G z (s.memRaise f) := by
  unfold State.memRaise
  repeat'
    first
    | (with_reducible assumption)
    | (extract_lets +onlyGivenNames x; clear_value x)
    | (with_reducible first | apply State.iff_kept | apply State.memBell_kept | apply State.raise_kept)
    | (intro t; intros; try dsimp only)

theorem State.memErr_kept (h : Kept K F M L P C G z s) (a kind dev src : Nat) (maint : Bool) : Kept K F M L P C G z (s.memErr a kind dev src maint) := by
  unfold State.memErr
  repeat'
    first
    | (with_reducible assumption)
    | (extract_lets +onlyGivenNames x; clear_value x)
    | (with_reducible first | apply Kept.ite | apply State.setReg_kept)
    | split

theorem State.spare_kept (h : Kept K F M L P C G z s) (dev : Nat) : Kept K F M L P C G z (s.spare dev) := by
  unfold State.spare
  repeat'
    first
    | (with_reducible assumption)
    | (with_reducible first | apply Kept.ite | apply State.audit_kept | apply State.memBell_kept | apply State.modCoh_kept | apply State.modSec_kept | apply State.raise_kept)
    | split
    | (intro t; intros; try dsimp only)

theorem State.meetFailed_kept (h : Kept K F M L P C G z s) (line : Nat) (maint : Bool) : Kept K F M L P C G z (s.meetFailed line maint) := by
  unfold State.meetFailed
  repeat'
    first
    | (with_reducible assumption)
    | (extract_lets +onlyGivenNames x; first | (refine (fun hx : Kept K F M L P C G z x => ?_) ?_; clear_value x; rotate_left; subst x) | clear_value x)
    | (with_reducible first | apply Kept.ite | apply State.inc_kept | apply State.memErr_kept | apply State.memRaise_kept | apply State.modSec_kept)
    | split
    | (intro t; intros; try dsimp only)

theorem State.corrected_kept (h : Kept K F M L P C G z s) (a dev : Nat) (big maint : Bool) : Kept K F M L P C G z (s.corrected a dev big maint) := by
  unfold State.corrected
  repeat'
    first
    | (with_reducible assumption)
    | (extract_lets +onlyGivenNames x; first | (refine (fun hx : Kept K F M L P C G z x => ?_) ?_; clear_value x; rotate_left; subst x) | clear_value x)
    | (with_reducible first | apply Kept.ite | apply State.failLine_kept | apply State.inc_kept | apply State.memErr_kept | apply State.raise_kept | apply State.spare_kept)
    | split

theorem State.meetPoison_kept (h : Kept K F M L P C G z s) (a : Nat) : Kept K F M L P C G z (s.meetPoison a) := by
  unfold State.meetPoison
  repeat'
    first
    | (with_reducible assumption)
    | (with_reducible first | apply Kept.ite | apply State.inc_kept | apply State.memErr_kept | apply State.memRaise_kept)
    | split

theorem State.sramCorrected_kept (h : Kept K F M L P C G z s) (a src : Nat) : Kept K F M L P C G z (s.sramCorrected a src) := by
  unfold State.sramCorrected
  repeat'
    first
    | (with_reducible assumption)
    | (with_reducible first | apply State.inc_kept | apply State.memErr_kept | apply State.raise_kept)

theorem State.sramLost_kept (h : Kept K F M L P C G z s) (a src : Nat) : Kept K F M L P C G z (s.sramLost a src) := by
  unfold State.sramLost
  repeat'
    first
    | (with_reducible assumption)
    | (with_reducible first | apply State.inc_kept | apply State.memErr_kept | apply State.memRaise_kept)

theorem State.loseLine_kept (h : Kept K F M L P C G z s) (line a src : Nat) : Kept K F M L P C G z (s.loseLine line a src) := by
  unfold State.loseLine
  repeat'
    first
    | (with_reducible assumption)
    | (with_reducible first | apply State.dropL3_kept | apply State.dropOthers_kept | apply State.failLine_kept | apply State.sramLost_kept)

theorem State.lostL2_kept (h : Kept K F M L P C G z s) (cl line a : Nat) : Kept K F M L P C G z (s.lostL2 cl line a) := by
  unfold State.lostL2
  repeat'
    first
    | (with_reducible assumption)
    | (with_reducible first | apply State.clearPresence_kept | apply State.dropAt_kept | apply State.loseLine_kept | apply State.sramCorrected_kept)
    | split

theorem State.sramError_kept (h : Kept K F M L P C G z s) (at_ : Option Nat) (a src : Nat) : Kept K F M L P C G z (s.sramError at_ a src) := by
  unfold State.sramError
  repeat'
    first
    | (with_reducible assumption)
    | (extract_lets +onlyGivenNames x; clear_value x)
    | (with_reducible first | apply Kept.ite | apply State.dropL3_kept | apply State.dropOthers_kept | apply State.each_kept | apply State.failLine_kept | apply State.iff_kept | apply State.loseLine_kept | apply State.lostL2_kept | apply State.modCore_kept | apply State.poison_kept | apply State.sramCorrected_kept | apply State.sramLost_kept | apply State.toL3_kept)
    | split
    | (intro t; intros; try dsimp only)

theorem State.memFault_kept (h : Kept K F M L P C G z s) (at_ : Option Nat) (a : Nat) (f : MemFault) : Kept K F M L P C G z (s.memFault at_ a f) := by
  unfold State.memFault
  repeat'
    first
    | (with_reducible assumption)
    | (extract_lets +onlyGivenNames x; clear_value x)
    | (with_reducible first | apply Kept.ite | apply State.corrected_kept | apply State.failLine_kept | apply State.iff_kept | apply State.sramCorrected_kept | apply State.sramError_kept | apply State.sramLost_kept)
    | split
    | (intro t; intros; try dsimp only)

theorem State.patrolFind_kept (h : Kept K F M L P C G z s) (a : Nat) (f : MemFault) : Kept K F M L P C G z (s.patrolFind a f) := by
  unfold State.patrolFind
  repeat'
    first
    | (with_reducible assumption)
    | (with_reducible first | apply Kept.ite | apply State.corrected_kept | apply State.failLine_kept)
    | split

theorem State.rtAccess_kept (h : Kept K F M L P C G z s) (a : Nat) : Kept K F M L P C G z (s.rtAccess a).2 := by
  unfold State.rtAccess
  repeat'
    first
    | (with_reducible assumption)
    | (extract_lets +onlyGivenNames x; first | (refine (fun hx : Kept K F M L P C G z x => ?_) ?_; clear_value x; rotate_left; subst x) | clear_value x)
    | (with_reducible first | apply Kept.ite_snd | apply Kept.ite | apply State.inc_kept | apply State.memRaise_kept | apply State.modCoh_kept)
    | split
    | (intro t; intros; try dsimp only)
    | (with_reducible refine Kept.snd (by assumption) ?_)

theorem State.rtTouch_kept (h : Kept K F M L P C G z s) (line : Nat) (rt : Bool) : Kept K F M L P C G z (s.rtTouch line rt) := by
  unfold State.rtTouch
  repeat'
    first
    | (with_reducible assumption)
    | (with_reducible first | apply Kept.ite | apply State.rtAccess_kept)
    | split

theorem State.rtWrite_kept (h : Kept K F M L P C G z s) (line : Nat) (rt : Bool) : Kept K F M L P C G z (s.rtWrite line rt) := by
  unfold State.rtWrite
  repeat'
    first
    | (with_reducible assumption)
    | (with_reducible first | apply Kept.ite | apply State.rtAccess_kept)
    | split

theorem State.wake_kept (h : Kept K F M L P C G z s) (a : Nat) : Kept K F M L P C G z (s.wake a) := by
  unfold State.wake
  repeat'
    first
    | (with_reducible assumption)
    | (with_reducible first | apply Kept.ite | apply State.modCoh_kept)
    | split
    | (intro t; intros; try dsimp only)

theorem State.wakeNow_kept (h : Kept K F M L P C G z s) (a : Nat) : Kept K F M L P C G z (s.wakeNow a) := by
  unfold State.wakeNow
  repeat'
    first
    | (with_reducible assumption)
    | (with_reducible first | apply Kept.ite | apply State.modCoh_kept | apply State.set_kept)
    | split
    | (intro t; intros; try dsimp only)

theorem State.wordWrite_kept (h : Kept False F M L P C G z s) (a : Nat) (bs : List Byte) : Kept False F M L P C G z (s.wordWrite a bs).2 := by
  unfold State.wordWrite
  repeat'
    first
    | (with_reducible assumption)
    | (with_reducible first | apply Kept.ite_snd | apply Kept.ite | apply State.meetPoison_kept | apply State.modCoh_kept | apply State.wrB_kept)
    | split
    | (intro t; intros; try dsimp only)
    | (with_reducible refine Kept.snd (by assumption) ?_)

theorem State.wordPut_kept (h : Kept False F M L P C G z s) (a : Nat) (bs : List Byte) : Kept False F M L P C G z (s.wordPut a bs) := by
  unfold State.wordPut
  repeat'
    first
    | (with_reducible assumption)
    | (with_reducible apply State.wordWrite_kept)

theorem State.unitWrite_kept (h : Kept False F M L P C G z s) (a : Nat) (bs : List Byte) (rt : Bool) : Kept False F M L P C G z (s.unitWrite a bs rt).2 := by
  unfold State.unitWrite
  repeat'
    first
    | (with_reducible assumption)
    | (with_reducible first | apply State.each_kept | apply State.invalidatingWrite_kept | apply State.meetFailed_kept | apply State.rtWrite_kept)
    | split
    | (intro t; intros; try dsimp only)
    | (with_reducible refine Kept.snd (by assumption) ?_)

theorem State.unitRead_kept (h : Kept K F M L P C G z s) (a n : Nat) (rt : Bool) : Kept K F M L P C G z (s.unitRead a n rt).2 := by
  unfold State.unitRead
  repeat'
    first
    | (with_reducible assumption)
    | (extract_lets +onlyGivenNames x; first | (refine (fun hx : Kept K F M L P C G z x => ?_) ?_; clear_value x; rotate_left; subst x) | clear_value x)
    | (with_reducible first | apply State.each_kept | apply State.meetFailed_kept | apply State.rtTouch_kept)
    | split
    | (intro t; intros; try dsimp only)
    | (with_reducible refine Kept.snd (by assumption) ?_)

theorem State.homeWrite_kept (h : Kept False F M L P C G z s) (who a : Nat) (bs : List Byte) : Kept False F M L P C G z (s.homeWrite who a bs) := by
  unfold State.homeWrite
  repeat'
    first
    | (with_reducible assumption)
    | (with_reducible first | apply Kept.ite | apply State.modCoh_kept | apply State.unitWrite_kept)
    | split
    | (intro t; intros; try dsimp only)

theorem State.transTake_kept (h : Kept K F M L P C G z s) (r n : Nat) : Kept K F M L P C G z (s.transTake r n).2 := by
  unfold State.transTake
  repeat'
    first
    | (with_reducible assumption)
    | (with_reducible first | apply Kept.ite_snd | apply Kept.ite)
    | split
    | (intro t; intros; try dsimp only)
    | (with_reducible refine Kept.snd (by assumption) ?_)
    | simp only [Kept.upd]

theorem State.transCount_kept (h : Kept K F M L P C G z s) (r n : Nat) : Kept K F M L P C G z (s.transCount r n) := by
  unfold State.transCount
  repeat'
    first
    | (with_reducible assumption)
    | (with_reducible apply Kept.ite)
    | split
    | simp only [Kept.upd]

theorem State.transBegin_kept (h : Kept K F M L P C G z s) (r : Nat) : Kept K F M L P C G z (s.transBegin r).2 := by
  unfold State.transBegin
  repeat'
    first
    | (with_reducible assumption)
    | (with_reducible first | apply State.transCount_kept | apply State.transTake_kept)
    | split
    | (with_reducible refine Kept.snd (by assumption) ?_)

theorem State.transDone_kept (h : Kept K F M L P C G z s) (r : Nat) : Kept K F M L P C G z (s.transDone r) := by
  unfold State.transDone
  repeat'
    first
    | (with_reducible assumption)
    | (with_reducible apply Kept.ite)
    | split
    | (intro t; intros; try dsimp only)
    | simp only [Kept.upd]

end Sys2Proof.Machine
end

