-- ==== Sys2Proof/Laws/KeptSignal.lean ====
section
/-! SUPPORT. What the operations of Signal.lean keep. -/

namespace Sys2Proof.Machine

variable {z s : State} {K F M L P C G : Prop}

theorem State.slotValue_kept (h : Kept False F M L P C G z s) (half i data ts q : Nat) : Kept False F M L P C G z (s.slotValue half i data ts q) := by
  unfold State.slotValue
  repeat'
    first
    | (with_reducible assumption)
    | (extract_lets +onlyGivenNames x; clear_value x)
    | (with_reducible apply State.wordPut_kept)

theorem State.slotQual_kept (h : Kept False F M L P C G z s) (half i q : Nat) : Kept False F M L P C G z (s.slotQual half i q) := by
  unfold State.slotQual
  repeat'
    first
    | (with_reducible assumption)
    | (extract_lets +onlyGivenNames x; clear_value x)
    | (with_reducible apply State.wordPut_kept)

theorem State.clearSlot_kept (h : Kept False F M L P C G z s) (half i : Nat) : Kept False F M L P C G z (s.clearSlot half i) := by
  unfold State.clearSlot
  repeat'
    first
    | (with_reducible assumption)
    | (with_reducible apply State.wordPut_kept)

theorem State.gatherDrop_kept (h : Kept K F M L P C G z s)  : Kept K F M L P C G z (s.gatherDrop) := by
  unfold State.gatherDrop
  repeat'
    first
    | (with_reducible assumption)
    | (extract_lets +onlyGivenNames x; first | (refine (fun hx : Kept K F M L P C G z x => ?_) ?_; clear_value x; rotate_left; subst x) | clear_value x)
    | (with_reducible first | apply Kept.ite | apply State.inc_kept | apply State.pulse_kept | apply State.raise_kept)
    | split

theorem State.tagConflict_kept (h : Kept K F M L P C G z s) (tag kind reason windex : Nat) : Kept K F M L P C G z (s.tagConflict tag kind reason windex) := by
  unfold State.tagConflict
  repeat'
    first
    | (with_reducible assumption)
    | (extract_lets +onlyGivenNames x; first | (refine (fun hx : Kept K F M L P C G z x => ?_) ?_; clear_value x; rotate_left; subst x) | clear_value x)
    | (with_reducible first | apply Kept.ite | apply State.inc_kept | apply State.pulse_kept | apply State.raise_kept | apply State.setReg_kept)
    | split

theorem State.gather_kept (h : Kept False F M L P C G z s) (w : GatherWriter) (tag : Nat) (op : GatherOp) : Kept False F M L P C G z (s.gather w tag op) := by
  unfold State.gather
  repeat'
    first
    | (with_reducible assumption)
    | (extract_lets +onlyGivenNames x; first | (refine (fun hx : Kept False F M L P C G z x => ?_) ?_; clear_value x; rotate_left; subst x) | clear_value x)
    | (with_reducible first | apply Kept.ite | apply State.gatherDrop_kept | apply State.slotQual_kept | apply State.slotValue_kept | apply State.tagConflict_kept)
    | split

theorem State.markChanged_kept (h : Kept K F M L P C G z s) (tag : Nat) : Kept K F M L P C G z (s.markChanged tag) := by
  unfold State.markChanged
  repeat'
    first
    | (with_reducible assumption)
    | (with_reducible apply State.setRt_kept)

theorem State.computeWrite_kept (h : Kept K F M L P C G z s) (tag key : Nat) (f : State → State) (hf : ∀ t, Kept K F M L P C G z t → Kept K F M L P C G z (f t)) : Kept K F M L P C G z (s.computeWrite tag key f) := by
  unfold State.computeWrite
  repeat'
    first
    | (with_reducible assumption)
    | (extract_lets +onlyGivenNames x; first | (refine (fun hx : Kept K F M L P C G z x => ?_) ?_; clear_value x; rotate_left; subst x) | clear_value x)
    | (with_reducible first | apply Kept.ite | apply State.inc_kept | apply State.setRt_kept | apply hf)
    | split
    | (with_reducible refine OptKept.of (by assumption) ?_)

theorem State.computeValue_kept (h : Kept False F M L P C G z s) (tag key v q : Nat) : Kept False F M L P C G z (s.computeValue tag key v q) := by
  unfold State.computeValue
  repeat'
    first
    | (with_reducible assumption)
    | (extract_lets +onlyGivenNames x; first | (refine (fun hx : Kept False F M L P C G z x => ?_) ?_; clear_value x; rotate_left; subst x) | clear_value x)
    | (with_reducible first | apply State.computeWrite_kept | apply State.wr_kept)
    | (intro t; intros; try dsimp only)

theorem State.computeQual_kept (h : Kept False F M L P C G z s) (tag key q : Nat) : Kept False F M L P C G z (s.computeQual tag key q) := by
  unfold State.computeQual
  repeat'
    first
    | (with_reducible assumption)
    | (with_reducible first | apply State.computeWrite_kept | apply State.wr_kept)
    | (intro t; intros; try dsimp only)

theorem State.ownWrite_kept (h : Kept False F M L P C G z s) (r : Requester) (tag : Nat) (isValue : Bool) (v : Nat) : Kept False F M L P C G z (s.ownWrite r tag isValue v) := by
  unfold State.ownWrite
  repeat'
    first
    | (with_reducible assumption)
    | (extract_lets +onlyGivenNames x; first | (refine (fun hx : Kept False F M L P C G z x => ?_) ?_; clear_value x; rotate_left; subst x) | clear_value x)
    | (with_reducible first | apply Kept.ite | apply State.computeQual_kept | apply State.computeValue_kept | apply State.gatherDrop_kept | apply State.slotQual_kept | apply State.slotValue_kept)
    | split
    | (with_reducible refine Kept.snd (by assumption) ?_)

theorem State.tagWrite_kept (h : Kept False F M L P C G z s) (r : Requester) (tag off size v : Nat) : Kept False F M L P C G z (s.tagWrite r tag off size v) := by
  unfold State.tagWrite
  repeat'
    first
    | (with_reducible assumption)
    | (with_reducible first | apply State.markChanged_kept | apply State.ownWrite_kept | apply State.tagConflict_kept | apply State.wr_kept)
    | split

theorem State.foldSlot_kept (h : Kept False F M L P C G z s) (h i : Nat) : Kept False F M L P C G z (s.foldSlot h i) := by
  unfold State.foldSlot
  repeat'
    first
    | (with_reducible assumption)
    | (extract_lets +onlyGivenNames x; first | (refine (fun hx : Kept False F M L P C G z x => ?_) ?_; clear_value x; rotate_left; subst x) | clear_value x)
    | (with_reducible first | apply Kept.ite | apply State.clearSlot_kept | apply State.count_kept | apply State.wordPut_kept)
    | split

theorem State.fold_kept (h : Kept False F M L P C G z s) (tags : List Nat) : Kept False F M L P C G z (s.fold tags) := by
  unfold State.fold
  repeat'
    first
    | (with_reducible assumption)
    | (with_reducible first | apply State.each_kept | apply State.foldSlot_kept)
    | (intro t; intros; try dsimp only)

theorem State.aqLose_kept (h : Kept K F M L P C G z s) (g : Nat) : Kept K F M L P C G z (s.aqLose g) := by
  unfold State.aqLose
  repeat'
    first
    | (with_reducible assumption)
    | (extract_lets +onlyGivenNames x; first | (refine (fun hx : Kept K F M L P C G z x => ?_) ?_; clear_value x; rotate_left; subst x) | clear_value x)
    | (with_reducible first | apply State.inc_kept | apply State.modSignal_kept | apply State.raise_kept)
    | (intro t; intros; try dsimp only)

theorem State.aqEnter_kept (h : Kept K F M L P C G z s) (g : Nat) (bs : List Byte) : Kept K F M L P C G z (s.aqEnter g bs) := by
  unfold State.aqEnter
  repeat'
    first
    | (with_reducible assumption)
    | (extract_lets +onlyGivenNames x; first | (refine (fun hx : Kept K F M L P C G z x => ?_) ?_; clear_value x; rotate_left; subst x) | clear_value x)
    | (with_reducible first | apply Kept.ite | apply State.aqLose_kept | apply State.modSignal_kept)
    | split
    | (intro t; intros; try dsimp only)

theorem State.aqPut_kept (h : Kept False F M L P C G z s) (g : Nat) (bs : List Byte) : Kept False F M L P C G z (s.aqPut g bs) := by
  unfold State.aqPut
  repeat'
    first
    | (with_reducible assumption)
    | (extract_lets +onlyGivenNames x; first | (refine (fun hx : Kept False F M L P C G z x => ?_) ?_; clear_value x; rotate_left; subst x) | clear_value x)
    | (with_reducible first | apply Kept.ite | apply State.modSignal_kept | apply State.set_kept | apply State.unitWrite_kept)
    | split
    | (intro t; intros; try dsimp only)

theorem State.aqRefuse_kept (h : Kept K F M L P C G z s) (g a : Nat) : Kept K F M L P C G z (s.aqRefuse g a) := by
  unfold State.aqRefuse
  repeat'
    first
    | (with_reducible assumption)
    | (extract_lets +onlyGivenNames x; first | (refine (fun hx : Kept K F M L P C G z x => ?_) ?_; clear_value x; rotate_left; subst x) | clear_value x)
    | (with_reducible first | apply Kept.ite | apply State.fwRefuse_kept | apply State.lower_kept | apply State.pulse_kept | apply State.raise_kept)
    | split

theorem State.aqWrite_kept (h : Kept False F M L P C G z s) (g : Nat) (bs : List Byte) : Kept False F M L P C G z (s.aqWrite g bs) := by
  unfold State.aqWrite
  repeat'
    first
    | (with_reducible assumption)
    | (extract_lets +onlyGivenNames x; first | (refine (fun hx : Kept False F M L P C G z x => ?_) ?_; clear_value x; rotate_left; subst x) | clear_value x)
    | (with_reducible first | apply Kept.ite | apply State.aqLose_kept | apply State.aqPut_kept | apply State.aqRefuse_kept | apply State.modSignal_kept)
    | split
    | (intro t; intros; try dsimp only)

theorem State.aqTest_kept (h : Kept K F M L P C G z s) (g n : Nat) : Kept K F M L P C G z (s.aqTest g n) := by
  unfold State.aqTest
  repeat'
    first
    | (with_reducible assumption)
    | (extract_lets +onlyGivenNames x; first | (refine (fun hx : Kept K F M L P C G z x => ?_) ?_; clear_value x; rotate_left; subst x) | clear_value x)
    | (with_reducible first | apply Kept.ite | apply State.modSignal_kept | apply State.pulse_kept)
    | split
    | (intro t; intros; try dsimp only)

theorem State.aqFull_kept (h : Kept K F M L P C G z s) (g : Nat) : Kept K F M L P C G z (s.aqFull g) := by
  unfold State.aqFull
  repeat'
    first
    | (with_reducible assumption)
    | (with_reducible apply State.set_kept)

theorem State.mirrorSignal_kept (h : Kept K F M L P C G z s)  : Kept K F M L P C G z (s.mirrorSignal) := by
  unfold State.mirrorSignal
  repeat'
    first
    | (with_reducible assumption)
    | (with_reducible first | apply Kept.ite | apply State.modSignal_kept | apply State.msix_kept)
    | split
    | (intro t; intros; try dsimp only)

theorem State.alarmDrain_kept (h : Kept False F M L P C G z s)  : Kept False F M L P C G z (s.alarmDrain) := by
  unfold State.alarmDrain
  repeat'
    first
    | (with_reducible assumption)
    | (extract_lets +onlyGivenNames x; first | (refine (fun hx : Kept False F M L P C G z x => ?_) ?_; clear_value x; rotate_left; subst x) | clear_value x)
    | (with_reducible first | apply Kept.ite | apply State.aqFull_kept | apply State.aqTest_kept | apply State.aqWrite_kept | apply State.fwDrawn_kept | apply State.mirrorSignal_kept | apply State.modSignal_kept)
    | split
    | (intro t; intros; try dsimp only)

theorem State.sweepAlarm_kept (h : Kept K F M L P C G z s) (i : Nat) (t : Tag) (rt : TagRt) (av : Option Nat) (value ts q : Nat) (acc : Nat) (k : Nat) : Kept K F M L P C G z (s.sweepAlarm i t rt av value ts q acc k).2 := by
  unfold State.sweepAlarm
  repeat'
    first
    | (with_reducible assumption)
    | (extract_lets +onlyGivenNames x; first | (refine (fun hx : Kept K F M L P C G z x.2 => ?_) ?_; clear_value x; rotate_left; subst x) | clear_value x)
    | (with_reducible first | apply Kept.ite_snd | apply Kept.ite | apply State.aqEnter_kept | apply State.drawn_kept)
    | split
    | (with_reducible refine Kept.snd (by assumption) ?_)

theorem State.sweepTag_kept (h : Kept False F M L P C G z s) (i : Nat) : Kept False F M L P C G z (s.sweepTag i) := by
  unfold State.sweepTag
  repeat'
    first
    | (with_reducible assumption)
    | (extract_lets +onlyGivenNames x; first | (refine (fun hx : Kept False F M L P C G z x => ?_) ?_; clear_value x; rotate_left; subst x) | (refine (fun hx : Kept False F M L P C G z x.2 => ?_) ?_; clear_value x; rotate_left; subst x) | clear_value x)
    | (with_reducible first | apply Kept.ite | apply State.clearSlot_kept | apply State.count_kept | apply State.setRt_kept | apply State.sweepAlarm_kept | apply State.wr_kept | apply foldl_kept | apply foldl_pair_kept)
    | split
    | (intro t; intros; try dsimp only)
    | (with_reducible refine Kept.snd (by assumption) ?_)

theorem State.sweep_kept (h : Kept False F M L P C G z s)  : Kept False F M L P C G z (s.sweep) := by
  unfold State.sweep
  repeat'
    first
    | (with_reducible assumption)
    | (extract_lets +onlyGivenNames x; first | (refine (fun hx : Kept False F M L P C G z x => ?_) ?_; clear_value x; rotate_left; subst x) | clear_value x)
    | (with_reducible first | apply Kept.ite | apply State.aqTest_kept | apply State.clearSlot_kept | apply State.each_kept | apply State.fold_kept | apply State.sweepTag_kept)
    | split
    | (intro t; intros; try dsimp only)

theorem State.aqTail_kept (h : Kept K F M L P C G z s) (g v : Nat) : Kept K F M L P C G z (s.aqTail g v) := by
  unfold State.aqTail
  repeat'
    first
    | (with_reducible assumption)
    | (extract_lets +onlyGivenNames x; clear_value x)
    | (with_reducible first | apply Kept.ite | apply State.aqFull_kept | apply State.set_kept)
    | split

theorem State.aqConfig_kept (h : Kept K F M L P C G z s) (g v : Nat) : Kept K F M L P C G z (s.aqConfig g v) := by
  unfold State.aqConfig
  repeat'
    first
    | (with_reducible assumption)
    | (extract_lets +onlyGivenNames x; clear_value x)
    | (with_reducible first | apply Kept.ite | apply State.aqFull_kept | apply State.set_kept)
    | split

theorem State.aqBase_kept (h : Kept K F M L P C G z s) (g v : Nat) : Kept K F M L P C G z (s.aqBase g v) := by
  unfold State.aqBase
  repeat'
    first
    | (with_reducible assumption)
    | (with_reducible first | apply Kept.ite | apply State.set_kept)
    | split

theorem State.aqStat_kept (h : Kept K F M L P C G z s) (g v : Nat) : Kept K F M L P C G z (s.aqStat g v) := by
  unfold State.aqStat
  repeat'
    first
    | (with_reducible assumption)
    | (extract_lets +onlyGivenNames x; first | (refine (fun hx : Kept K F M L P C G z x => ?_) ?_; clear_value x; rotate_left; subst x) | clear_value x)
    | (with_reducible first | apply Kept.ite | apply State.lower_kept)
    | split

theorem State.seCntClr_kept (h : Kept K F M L P C G z s)  : Kept K F M L P C G z (s.seCntClr) := by
  unfold State.seCntClr
  repeat'
    first
    | (with_reducible assumption)
    | (with_reducible apply State.lower_kept)

end Sys2Proof.Machine
end

