-- ==== Sys2Proof/Laws/KeptCascade.lean ====
section
/-! SUPPORT. What the operations of Cascade.lean keep. -/

namespace Sys2Proof.Machine

variable {z s : State} {K F M L P C G : Prop}

theorem State.queueCell_kept (h : Kept K F M L P False G z s) (p : Nat) (c : TxCell) : Kept K F M L P False G z (s.queueCell p c) := by
  unfold State.queueCell
  repeat'
    first
    | (with_reducible assumption)
    | (extract_lets +onlyGivenNames x; clear_value x)
    | (with_reducible apply State.modHawser_kept)
    | (intro t; intros; try dsimp only)

theorem State.noRoute_kept (h : Kept K F M L P C G z s) (n : Nat) : Kept K F M L P C G z (s.noRoute n) := by
  unfold State.noRoute
  repeat'
    first
    | (with_reducible assumption)
    | (with_reducible first | apply Kept.ite | apply State.count_kept)
    | split

theorem State.sendMgmt_kept (h : Kept K F M L P False G z s) (p kind cf : Nat) (payload : List Byte) : Kept K F M L P False G z (s.sendMgmt p kind cf payload) := by
  unfold State.sendMgmt
  repeat'
    first
    | (with_reducible assumption)
    | (extract_lets +onlyGivenNames x; clear_value x)
    | (with_reducible first | apply Kept.ite | apply State.modHawser_kept | apply State.queueCell_kept)
    | split
    | (intro t; intros; try dsimp only)

theorem State.sendHello_kept (h : Kept K F M L P False G z s) (p : Nat) : Kept K F M L P False G z (s.sendHello p) := by
  unfold State.sendHello
  repeat'
    first
    | (with_reducible assumption)
    | (with_reducible first | apply State.modHawser_kept | apply State.sendMgmt_kept)
    | (intro t; intros; try dsimp only)

theorem State.setHw_kept (h : Kept K F M L P C G z s) (p st : Nat) : Kept K F M L P C G z (s.setHw p st) := by
  unfold State.setHw
  repeat'
    first
    | (with_reducible assumption)
    | (extract_lets +onlyGivenNames x; first | (refine (fun hx : Kept K F M L P C G z x => ?_) ?_; clear_value x; rotate_left; subst x) | clear_value x)
    | (with_reducible first | apply Kept.ite | apply State.pulse_kept | apply State.raise_kept | apply State.set_kept)
    | split

theorem State.releaseHeld_kept (h : Kept K F M L P False G z s) (cells : List TxCell) : Kept K F M L P False G z (s.releaseHeld cells) := by
  unfold State.releaseHeld
  repeat'
    first
    | (with_reducible assumption)
    | (with_reducible first | apply State.each_kept | apply State.modHawser_kept)
    | split
    | (intro t; intros; try dsimp only)

theorem State.bringUp_kept (h : Kept K F M L P False G z s) (p : Nat) : Kept K F M L P False G z (s.bringUp p) := by
  unfold State.bringUp
  repeat'
    first
    | (with_reducible assumption)
    | (extract_lets +onlyGivenNames x; first | (refine (fun hx : Kept K F M L P False G z x => ?_) ?_; clear_value x; rotate_left; subst x) | clear_value x)
    | (with_reducible first | apply Kept.ite | apply State.each_kept | apply State.inc_kept | apply State.modHawser_kept | apply State.setHawser_kept | apply State.setHw_kept)
    | split
    | (intro t; intros; try dsimp only)

theorem State.hwFail_kept (h : Kept K F M L P False G z s) (p : Nat) : Kept K F M L P False G z (s.hwFail p) := by
  unfold State.hwFail
  repeat'
    first
    | (with_reducible assumption)
    | (extract_lets +onlyGivenNames x; clear_value x)
    | (with_reducible first | apply State.modHawser_kept | apply State.noRoute_kept | apply State.releaseHeld_kept | apply State.setHw_kept)
    | (intro t; intros; try dsimp only)

theorem State.hwFailCause_kept (h : Kept K F M L P False G z s) (p cause : Nat) : Kept K F M L P False G z (s.hwFailCause p cause) := by
  unfold State.hwFailCause
  repeat'
    first
    | (with_reducible assumption)
    | (with_reducible first | apply State.hwFail_kept | apply State.set_kept)

theorem State.hwHold_kept (h : Kept K F M L P C G z s) (p cause : Nat) : Kept K F M L P C G z (s.hwHold p cause) := by
  unfold State.hwHold
  repeat'
    first
    | (with_reducible assumption)
    | (with_reducible first | apply State.pulse_kept | apply State.set_kept | apply State.setHw_kept)

theorem State.blockLock_kept (h : Kept K F M L P False G z s) (p : Nat) : Kept K F M L P False G z (s.blockLock p) := by
  unfold State.blockLock
  repeat'
    first
    | (with_reducible assumption)
    | (with_reducible first | apply Kept.ite | apply State.sendHello_kept | apply State.setHw_kept)
    | split

theorem State.blockLockTimeout_kept (h : Kept K F M L P False G z s) (p : Nat) : Kept K F M L P False G z (s.blockLockTimeout p) := by
  unfold State.blockLockTimeout
  repeat'
    first
    | (with_reducible assumption)
    | (with_reducible first | apply Kept.ite | apply State.atTime_kept | apply State.hwFailCause_kept)
    | split

theorem State.bringUpRetry_kept (h : Kept K F M L P False G z s) (p : Nat) : Kept K F M L P False G z (s.bringUpRetry p) := by
  unfold State.bringUpRetry
  repeat'
    first
    | (with_reducible assumption)
    | (with_reducible first | apply State.atTime_kept | apply State.bringUp_kept)
    | split

theorem State.heldHello_kept (h : Kept K F M L P False G z s) (p : Nat) : Kept K F M L P False G z (s.heldHello p) := by
  unfold State.heldHello
  repeat'
    first
    | (with_reducible assumption)
    | (with_reducible first | apply Kept.ite | apply State.sendHello_kept)
    | split

theorem State.hawserDown_kept (h : Kept K F M L P False G z s) (p : Nat) : Kept K F M L P False G z (s.hawserDown p) := by
  unfold State.hawserDown
  repeat'
    first
    | (with_reducible assumption)
    | (extract_lets +onlyGivenNames x; clear_value x)
    | (with_reducible first | apply Kept.ite | apply State.hwFail_kept | apply State.hwFailCause_kept)
    | split

theorem State.sendChunks_kept (h : Kept K F M L P False G z s) (p kind : Nat) (bs : List Byte) : Kept K F M L P False G z (s.sendChunks p kind bs) := by
  unfold State.sendChunks
  repeat'
    first
    | (with_reducible assumption)
    | (extract_lets +onlyGivenNames x; clear_value x)
    | (with_reducible first | apply State.each_kept | apply State.sendMgmt_kept)
    | (intro t; intros; try dsimp only)

theorem State.sendKeying_kept (h : Kept K F M L P False G z s) (p : Nat) : Kept K F M L P False G z (s.sendKeying p) := by
  unfold State.sendKeying
  repeat'
    first
    | (with_reducible assumption)
    | (extract_lets +onlyGivenNames x; clear_value x)
    | (with_reducible first | apply State.drawn_kept | apply State.modHawser_kept | apply State.sendChunks_kept)
    | split
    | (intro t; intros; try dsimp only)

theorem State.helloIn_kept (h : Kept K F M L P False G z s) (p : Nat) (c : List Byte) : Kept K F M L P False G z (s.helloIn p c) := by
  unfold State.helloIn
  repeat'
    first
    | (with_reducible assumption)
    | (extract_lets +onlyGivenNames x; first | (refine (fun hx : Kept K F M L P False G z x => ?_) ?_; clear_value x; rotate_left; subst x) | clear_value x)
    | (with_reducible first | apply Kept.ite | apply State.bringUp_kept | apply State.hwHold_kept | apply State.modHawser_kept | apply State.sendKeying_kept | apply State.set_kept | apply State.setHw_kept)
    | split
    | (intro t; intros; try dsimp only)

theorem State.chunkIn_kept (h : Kept K F M L P False G z s) (p : Nat) (keyx : Bool) (c : List Byte) : Kept K F M L P False G z (s.chunkIn p keyx c) := by
  unfold State.chunkIn
  repeat'
    first
    | (with_reducible assumption)
    | (extract_lets +onlyGivenNames x; clear_value x)
    | (with_reducible first | apply Kept.ite | apply State.modHawser_kept)
    | split
    | (intro t; intros; try dsimp only)

theorem State.keysDerived_kept (h : Kept K F M L P False G z s) (p : Nat) : Kept K F M L P False G z (s.keysDerived p) := by
  unfold State.keysDerived
  repeat'
    first
    | (with_reducible assumption)
    | (extract_lets +onlyGivenNames x; first | (refine (fun hx : Kept K F M L P False G z x => ?_) ?_; clear_value x; rotate_left; subst x) | clear_value x)
    | (with_reducible first | apply Kept.ite | apply State.hwHold_kept | apply State.modHawser_kept | apply State.sendMgmt_kept)
    | split
    | (intro t; intros; try dsimp only)

theorem State.confirmFail_kept (h : Kept K F M L P False G z s) (p : Nat) : Kept K F M L P False G z (s.confirmFail p) := by
  unfold State.confirmFail
  repeat'
    first
    | (with_reducible assumption)
    | (with_reducible first | apply State.hwHold_kept | apply State.modHawser_kept)
    | (intro t; intros; try dsimp only)

theorem State.confirmIn_kept (h : Kept K F M L P False G z s) (p : Nat) (c : List Byte) : Kept K F M L P False G z (s.confirmIn p c) := by
  unfold State.confirmIn
  repeat'
    first
    | (with_reducible assumption)
    | (extract_lets +onlyGivenNames x; clear_value x)
    | (with_reducible first | apply Kept.ite | apply State.confirmFail_kept | apply State.setHw_kept)
    | split

theorem State.diagReqIn_kept (h : Kept K F M L P False G z s) (p : Nat) (c : List Byte) : Kept K F M L P False G z (s.diagReqIn p c) := by
  unfold State.diagReqIn
  repeat'
    first
    | (with_reducible assumption)
    | (with_reducible first | apply Kept.ite | apply State.sendMgmt_kept)
    | split

theorem State.diagRspIn_kept (h : Kept K F M L P False G z s) (p : Nat) (c : List Byte) : Kept K F M L P False G z (s.diagRspIn p c) := by
  unfold State.diagRspIn
  repeat'
    first
    | (with_reducible assumption)
    | (with_reducible first | apply Kept.ite | apply State.modHawser_kept)
    | split
    | (intro t; intros; try dsimp only)

theorem State.closeIn_kept (h : Kept K F M L P False G z s) (p : Nat) : Kept K F M L P False G z (s.closeIn p) := by
  unfold State.closeIn
  repeat'
    first
    | (with_reducible assumption)
    | (with_reducible first | apply Kept.ite | apply State.hwFailCause_kept)
    | split

theorem State.showDelay_kept (h : Kept K F M L P C G z s) (p : Nat) : Kept K F M L P C G z (s.showDelay p) := by
  unfold State.showDelay
  repeat'
    first
    | (with_reducible assumption)
    | (with_reducible apply State.set_kept)

theorem State.dreqOut_kept (h : Kept K F M L P False G z s) (p : Nat) : Kept K F M L P False G z (s.dreqOut p) := by
  unfold State.dreqOut
  repeat'
    first
    | (with_reducible assumption)
    | (extract_lets +onlyGivenNames x; clear_value x)
    | (with_reducible first | apply Kept.ite | apply State.modHawser_kept | apply State.queueCell_kept)
    | split
    | (intro t; intros; try dsimp only)

theorem State.dreqIn_kept (h : Kept K F M L P False G z s) (p : Nat) (c : List Byte) (rx : Nat) : Kept K F M L P False G z (s.dreqIn p c rx) := by
  unfold State.dreqIn
  repeat'
    first
    | (with_reducible assumption)
    | (extract_lets +onlyGivenNames x; clear_value x)
    | (with_reducible first | apply Kept.ite | apply State.queueCell_kept)
    | split

theorem State.drspIn_kept (h : Kept K F M L P False G z s) (p : Nat) (c : List Byte) (rx : Nat) : Kept K F M L P False G z (s.drspIn p c rx) := by
  unfold State.drspIn
  repeat'
    first
    | (with_reducible assumption)
    | (extract_lets +onlyGivenNames x; clear_value x)
    | (with_reducible first | apply Kept.ite | apply State.modHawser_kept | apply State.showDelay_kept | apply foldl_kept | apply foldl_pair_kept)
    | split
    | (intro t; intros; try dsimp only)

theorem State.delayTimeout_kept (h : Kept K F M L P False G z s) (p : Nat) : Kept K F M L P False G z (s.delayTimeout p) := by
  unfold State.delayTimeout
  repeat'
    first
    | (with_reducible assumption)
    | (with_reducible first | apply Kept.ite | apply State.atTime_kept | apply State.hwFailCause_kept)
    | split

theorem State.floodBeat_kept (h : Kept K F M L P False G z s) (from? : Option Nat) (c : List Byte) (rx : Nat) : Kept K F M L P False G z (s.floodBeat from? c rx) := by
  unfold State.floodBeat
  repeat'
    first
    | (with_reducible assumption)
    | (extract_lets +onlyGivenNames x; clear_value x)
    | (with_reducible first | apply Kept.ite | apply State.each_kept | apply State.noRoute_kept | apply State.queueCell_kept)
    | split
    | (intro t; intros; try dsimp only)

theorem State.sendBeat_kept (h : Kept K F M L P False G z s) (m t : Nat) : Kept K F M L P False G z (s.sendBeat m t) := by
  unfold State.sendBeat
  repeat'
    first
    | (with_reducible assumption)
    | (extract_lets +onlyGivenNames x; clear_value x)
    | (with_reducible first | apply State.floodBeat_kept | apply State.modCas_kept)
    | (intro t; intros; try dsimp only)
    | (with_reducible refine Kept.snd (by assumption) ?_)

theorem State.stepTime_kept (h : Kept K F False L P False G z s) (o : Int) : Kept K F False L P False G z (s.stepTime o) := by
  unfold State.stepTime
  repeat'
    first
    | (with_reducible assumption)
    | (extract_lets +onlyGivenNames x; first | (refine (fun hx : Kept K F False L P False G z x => ?_) ?_; clear_value x; rotate_left; subst x) | clear_value x)
    | (with_reducible first | apply State.each_kept | apply State.modHawser_kept | apply State.setTime_kept)
    | (intro t; intros; try dsimp only)

theorem State.steer_kept (h : Kept K F False L P False G z s) (r a : Int) : Kept K F False L P False G z (s.steer r a) := by
  unfold State.steer
  repeat'
    first
    | (with_reducible assumption)
    | (extract_lets +onlyGivenNames x; first | (refine (fun hx : Kept K F False L P False G z x => ?_) ?_; clear_value x; rotate_left; subst x) | clear_value x)
    | (with_reducible first | apply Kept.ite | apply State.drawn_kept | apply State.iff_kept | apply State.modCas_kept | apply State.raise_kept | apply State.set_kept | apply State.stepTime_kept)
    | split
    | (intro t; intros; try dsimp only)

theorem State.becomeFollower_kept (h : Kept K F M L P False G z s) (demoted : Bool) : Kept K F M L P False G z (s.becomeFollower demoted) := by
  unfold State.becomeFollower
  repeat'
    first
    | (with_reducible assumption)
    | (with_reducible first | apply State.modCas_kept | apply State.set_kept | apply State.setIf_kept)
    | (intro t; intros; try dsimp only)

theorem State.beatIn_kept (h : Kept K F False L P False G z s) (p : Nat) (c : List Byte) (rx : Nat) : Kept K F False L P False G z (s.beatIn p c rx) := by
  unfold State.beatIn
  repeat'
    first
    | (with_reducible assumption)
    | (extract_lets +onlyGivenNames x; first | (refine (fun hx : Kept K F False L P False G z x => ?_) ?_; clear_value x; rotate_left; subst x) | clear_value x)
    | (with_reducible first | apply Kept.ite | apply State.becomeFollower_kept | apply State.floodBeat_kept | apply State.iff_kept | apply State.lower_kept | apply State.modCas_kept | apply State.set_kept | apply State.steer_kept)
    | split
    | (intro t; intros; try dsimp only)

theorem State.beatMiss_kept (h : Kept K F M L P False G z s)  : Kept K F M L P False G z (s.beatMiss) := by
  unfold State.beatMiss
  repeat'
    first
    | (with_reducible assumption)
    | (extract_lets +onlyGivenNames x; first | (refine (fun hx : Kept K F M L P False G z x => ?_) ?_; clear_value x; rotate_left; subst x) | clear_value x)
    | (with_reducible first | apply Kept.ite | apply State.atTime_kept | apply State.modCas_kept | apply State.pulse_kept | apply State.raise_kept | apply State.set_kept)
    | split
    | (intro t; intros; try dsimp only)

theorem State.timeTakeover_kept (h : Kept K F M L False False G z s)  : Kept K F M L False False G z (s.timeTakeover) := by
  unfold State.timeTakeover
  repeat'
    first
    | (with_reducible assumption)
    | (extract_lets +onlyGivenNames x; first | (refine (fun hx : Kept K F M L False False G z x => ?_) ?_; clear_value x; rotate_left; subst x) | clear_value x)
    | (with_reducible first | apply Kept.ite | apply State.modCas_kept | apply State.modField_kept | apply State.raise_kept | apply State.set_kept)
    | split
    | (intro t; intros; try dsimp only)

theorem State.startupWait_kept (h : Kept K F M L False False G z s)  : Kept K F M L False False G z (s.startupWait) := by
  unfold State.startupWait
  repeat'
    first
    | (with_reducible assumption)
    | (with_reducible first | apply Kept.ite | apply State.atTime_kept | apply State.timeTakeover_kept)
    | split

theorem State.taprootStart_kept (h : Kept K F M L P False G z s)  : Kept K F M L P False G z (s.taprootStart) := by
  unfold State.taprootStart
  repeat'
    first
    | (with_reducible assumption)
    | (extract_lets +onlyGivenNames x; first | (refine (fun hx : Kept K F M L P False G z x => ?_) ?_; clear_value x; rotate_left; subst x) | clear_value x)
    | (with_reducible first | apply Kept.ite | apply State.atTime_kept | apply State.becomeFollower_kept | apply State.modCas_kept)
    | split
    | (intro t; intros; try dsimp only)

theorem State.cascadeTick_kept (h : Kept K F M L False False G z s) (m t : Nat) : Kept K F M L False False G z (s.cascadeTick m t) := by
  unfold State.cascadeTick
  repeat'
    first
    | (with_reducible assumption)
    | (extract_lets +onlyGivenNames x; first | (refine (fun hx : Kept K F M L False False G z x => ?_) ?_; clear_value x; rotate_left; subst x) | clear_value x)
    | (with_reducible first | apply State.each_kept | apply State.iff_kept | apply State.modHawser_kept | apply State.sendBeat_kept | apply State.setHw_kept | apply State.timeTakeover_kept)
    | (intro t; intros; try dsimp only)

theorem State.emitFrame_kept (h : Kept K F M L P False G z s) (p cq cn : Nat) (cell : Option TxCell) : Kept K F M L P False G z (s.emitFrame p cq cn cell) := by
  unfold State.emitFrame
  repeat'
    first
    | (with_reducible assumption)
    | (extract_lets +onlyGivenNames x; first | (refine (fun hx : Kept K F M L P False G z x => ?_) ?_; clear_value x; rotate_left; subst x) | clear_value x)
    | (with_reducible first | apply Kept.ite | apply State.drawn_kept | apply State.modCas_kept | apply State.setHawser_kept)
    | split
    | (intro t; intros; try dsimp only)

theorem State.linkTransmit_kept (h : Kept K F M L P False G z s) (p : Nat) : Kept K F M L P False G z (s.linkTransmit p) := by
  unfold State.linkTransmit
  repeat'
    first
    | (with_reducible assumption)
    | (extract_lets +onlyGivenNames x; first | (refine (fun hx : Kept K F M L P False G z x => ?_) ?_; clear_value x; rotate_left; subst x) | clear_value x)
    | (with_reducible first | apply Kept.ite | apply State.emitFrame_kept | apply State.releaseHeld_kept | apply State.setHawser_kept)
    | split

theorem State.gap_kept (h : Kept K F M L P C G z s) (p n : Nat) : Kept K F M L P C G z (s.gap p n) := by
  unfold State.gap
  repeat'
    first
    | (with_reducible assumption)
    | (with_reducible first | apply Kept.ite | apply State.count_kept)
    | split

theorem State.authFail_kept (h : Kept K F M L P False G z s) (p : Nat) : Kept K F M L P False G z (s.authFail p) := by
  unfold State.authFail
  repeat'
    first
    | (with_reducible assumption)
    | (extract_lets +onlyGivenNames x; first | (refine (fun hx : Kept K F M L P False G z x => ?_) ?_; clear_value x; rotate_left; subst x) | clear_value x)
    | (with_reducible first | apply Kept.ite | apply State.audit_kept | apply State.emitFrame_kept | apply State.hwFailCause_kept | apply State.iff_kept | apply State.inc_kept | apply State.modHawser_kept | apply State.raise_kept)
    | split
    | (intro t; intros; try dsimp only)

theorem State.takeCredits_kept (h : Kept K F M L P False G z s) (p w : Nat) : Kept K F M L P False G z (s.takeCredits p w) := by
  unfold State.takeCredits
  repeat'
    first
    | (with_reducible assumption)
    | (extract_lets +onlyGivenNames x; clear_value x)
    | (with_reducible apply State.modHawser_kept)
    | (intro t; intros; try dsimp only)

theorem State.cellTaken_kept (h : Kept K F M L P False G z s) (p : Nat) (c : List Byte) : Kept K F M L P False G z (s.cellTaken p c) := by
  unfold State.cellTaken
  repeat'
    first
    | (with_reducible assumption)
    | (with_reducible first | apply Kept.ite | apply State.releaseHeld_kept)
    | split

theorem State.linkAccept_kept (h : Kept K F M L P False G z s) (p : Nat) (f : LinkFrame) : Kept K F M L P False G z (s.linkAccept p f).2 := by
  unfold State.linkAccept
  repeat'
    first
    | (with_reducible assumption)
    | (extract_lets +onlyGivenNames x; first | (refine (fun hx : Kept K F M L P False G z x => ?_) ?_; clear_value x; rotate_left; subst x) | clear_value x)
    | (with_reducible first | apply Kept.ite_snd | apply Kept.ite | apply State.authFail_kept | apply State.confirmFail_kept | apply State.gap_kept | apply State.iff_kept | apply State.modHawser_kept | apply State.takeCredits_kept)
    | split
    | (intro t; intros; try dsimp only)
    | (with_reducible refine Kept.snd (by assumption) ?_)

theorem State.originate_kept (h : Kept K F M L P False G z s) (c : List Byte) (pub : Option (Nat × Nat)) : Kept K F M L P False G z (s.originate c pub) := by
  unfold State.originate
  repeat'
    first
    | (with_reducible assumption)
    | (with_reducible first | apply State.noRoute_kept | apply State.queueCell_kept)
    | split

theorem State.stageSplices_kept (h : Kept K F M L P False G z s) (g : Nat) : Kept K F M L P False G z (s.stageSplices g) := by
  unfold State.stageSplices
  repeat'
    first
    | (with_reducible assumption)
    | (extract_lets +onlyGivenNames x; clear_value x)
    | (with_reducible first | apply Kept.ite | apply State.each_kept | apply State.originate_kept)
    | split
    | (intro t; intros; try dsimp only)
    | (with_reducible refine Kept.snd (by assumption) ?_)

theorem State.withdraw_kept (h : Kept K F M L P False G z s) (g n : Nat) : Kept K F M L P False G z (s.withdraw g n) := by
  unfold State.withdraw
  repeat'
    first
    | (with_reducible assumption)
    | (with_reducible first | apply State.each_kept | apply State.modHawser_kept)
    | (intro t; intros; try dsimp only)

theorem State.replLate_kept (h : Kept K F M L P C G z s)  : Kept K F M L P C G z (s.replLate) := by
  unfold State.replLate
  repeat'
    first
    | (with_reducible assumption)
    | (extract_lets +onlyGivenNames x; first | (refine (fun hx : Kept K F M L P C G z x => ?_) ?_; clear_value x; rotate_left; subst x) | clear_value x)
    | (with_reducible first | apply Kept.ite | apply State.inc_kept | apply State.pulse_kept | apply State.raise_kept)
    | split

theorem State.dataSlot_kept (h : Kept False F M L P C G z s) (c : List Byte) (k : Nat) : Kept False F M L P C G z (s.dataSlot c k) := by
  unfold State.dataSlot
  repeat'
    first
    | (with_reducible assumption)
    | (extract_lets +onlyGivenNames x; clear_value x)
    | (with_reducible first | apply Kept.ite | apply State.gather_kept | apply State.inc_kept | apply State.replLate_kept)
    | split
    | (intro t; intros; try dsimp only)

theorem State.dataIn_kept (h : Kept False F M L P C G z s) (c : List Byte) : Kept False F M L P C G z (s.dataIn c) := by
  unfold State.dataIn
  repeat'
    first
    | (with_reducible assumption)
    | (with_reducible first | apply State.dataSlot_kept | apply State.each_kept)
    | (intro t; intros; try dsimp only)

theorem State.msgBell_kept (h : Kept K F M L P False G z s) (g : Nat) : Kept K F M L P False G z (s.msgBell g) := by
  unfold State.msgBell
  repeat'
    first
    | (with_reducible assumption)
    | (extract_lets +onlyGivenNames x; first | (refine (fun hx : Kept K F M L P False G z x => ?_) ?_; clear_value x; rotate_left; subst x) | (refine (fun hx : Kept K F M L P False G z x.2 => ?_) ?_; clear_value x; rotate_left; subst x) | (refine (fun hx : ∀ t, Kept K F M L P False G z t → Kept K F M L P False G z (x t) => ?_) ?_; clear_value x; rotate_left; subst x) | (refine (fun hx : ∀ t a, Kept K F M L P False G z t → Kept K F M L P False G z (x t a) => ?_) ?_; clear_value x; rotate_left; subst x) | (refine (fun hx : ∀ a t, Kept K F M L P False G z t → Kept K F M L P False G z (x a t) => ?_) ?_; clear_value x; rotate_left; subst x) | (refine (fun hx : ∀ t a b d, Kept K F M L P False G z t → Kept K F M L P False G z (x t a b d) => ?_) ?_; clear_value x; rotate_left; subst x) | (refine (fun hx : ∀ a b, Kept K F M L P False G z (x a b) => ?_) ?_; clear_value x; rotate_left; subst x) | clear_value x)
    | (with_reducible first | apply Kept.ite_snd | apply Kept.ite | apply State.modCas_kept | apply State.pulse_kept | apply foldl_kept | apply foldl_pair_kept)
    | split
    | (intro t; intros; try dsimp only)
    | (with_reducible refine Kept.snd (by assumption) ?_)
    | (with_reducible refine OptKept.of (by assumption) ?_)
    | with_reducible apply_assumption

theorem State.msgBellEnd_kept (h : Kept K F M L P False G z s) (g : Nat) : Kept K F M L P False G z (s.msgBellEnd g) := by
  unfold State.msgBellEnd
  repeat'
    first
    | (with_reducible assumption)
    | (extract_lets +onlyGivenNames x; first | (refine (fun hx : Kept K F M L P False G z x => ?_) ?_; clear_value x; rotate_left; subst x) | clear_value x)
    | (with_reducible first | apply State.atTime_kept | apply State.modCas_kept | apply State.pulse_kept)
    | split
    | (intro t; intros; try dsimp only)
    | (with_reducible refine OptKept.of (by assumption) ?_)

theorem State.ringRefuse_kept (h : Kept K F M L P False G z s) (g : Nat) (tx : Bool) : Kept K F M L P False G z (s.ringRefuse g tx) := by
  unfold State.ringRefuse
  repeat'
    first
    | (with_reducible assumption)
    | (with_reducible first | apply Kept.ite | apply State.lower_kept | apply State.msgBell_kept | apply State.raise_kept)
    | split

theorem State.ringAccess_kept (h : Kept K F M L P C G z s) (g : Nat) (k : FwKind) (a n : Nat) : Kept K F M L P C G z (s.ringAccess g k a n).2 := by
  unfold State.ringAccess
  repeat'
    first
    | (with_reducible assumption)
    | (with_reducible first | apply Kept.ite_snd | apply Kept.ite | apply State.fwCheck_kept)
    | split
    | (with_reducible refine Kept.snd (by assumption) ?_)

theorem State.ringWrite_kept (h : Kept False F M L P C G z s) (a : Nat) (bs : List Byte) : Kept False F M L P C G z (s.ringWrite a bs) := by
  unfold State.ringWrite
  repeat'
    first
    | (with_reducible assumption)
    | (with_reducible apply State.homeWrite_kept)

theorem State.descDone_kept (h : Kept False F M L P False G z s) (g i status : Nat) : Kept False F M L P False G z (s.descDone g i status) := by
  unfold State.descDone
  repeat'
    first
    | (with_reducible assumption)
    | (extract_lets +onlyGivenNames x; first | (refine (fun hx : Kept False F M L P False G z x => ?_) ?_; clear_value x; rotate_left; subst x) | (refine (fun hx : Kept False F M L P False G z x.2 => ?_) ?_; clear_value x; rotate_left; subst x) | clear_value x)
    | (with_reducible first | apply Kept.ite | apply State.modCas_kept | apply State.msgBell_kept | apply State.ringAccess_kept | apply State.ringRefuse_kept | apply State.ringWrite_kept | apply State.set_kept)
    | split
    | (intro t; intros; try dsimp only)
    | (with_reducible refine Kept.snd (by assumption) ?_)

theorem State.showTags_kept (h : Kept K F M L P C G z s) (g : Nat) : Kept K F M L P C G z (s.showTags g) := by
  unfold State.showTags
  repeat'
    first
    | (with_reducible assumption)
    | (extract_lets +onlyGivenNames x; clear_value x)
    | (with_reducible apply State.set_kept)
    | (intro t; intros; try dsimp only)

theorem State.setMtag_kept (h : Kept K F M L P False G z s) (t : Nat) (x : MTag) : Kept K F M L P False G z (s.setMtag t x) := by
  unfold State.setMtag
  repeat'
    first
    | (with_reducible assumption)
    | (with_reducible first | apply State.modCas_kept | apply State.showTags_kept)
    | (intro t; intros; try dsimp only)

theorem State.closeTag_kept (h : Kept K F M L P False G z s) (t : Nat) : Kept K F M L P False G z (s.closeTag t) := by
  unfold State.closeTag
  repeat'
    first
    | (with_reducible assumption)
    | (extract_lets +onlyGivenNames x; clear_value x)
    | (with_reducible first | apply State.setMtag_kept | apply State.transDone_kept)

theorem State.openTag_kept (h : Kept K F M L P False G z s) (t g : Nat) (desc : Option Nat) : Kept K F M L P False G z (s.openTag t g desc) := by
  unfold State.openTag
  repeat'
    first
    | (with_reducible assumption)
    | (with_reducible apply State.setMtag_kept)

theorem State.reqRing_kept (h : Kept False F M L P False G z s) (c : List Byte) : Kept False F M L P False G z (s.reqRing c).2 := by
  unfold State.reqRing
  repeat'
    first
    | (with_reducible assumption)
    | (extract_lets +onlyGivenNames x; first | (refine (fun hx : Kept False F M L P False G z x.2 => ?_) ?_; clear_value x; rotate_left; subst x) | clear_value x)
    | (with_reducible first | apply Kept.ite_snd | apply Kept.ite | apply State.msgBell_kept | apply State.raise_kept | apply State.ringAccess_kept | apply State.ringRefuse_kept | apply State.ringWrite_kept | apply State.set_kept)
    | split
    | (with_reducible refine Kept.snd (by assumption) ?_)

theorem State.xferAck_kept (h : Kept K F M L P C False z s) (g : Nat) : Kept K F M L P C False z (s.xferAck g) := by
  unfold State.xferAck
  repeat'
    first
    | (with_reducible assumption)
    | (with_reducible first | apply State.lower_kept | apply State.modGrv_kept)
    | (intro t; intros; try dsimp only)

theorem State.rspTake_kept (h : Kept False F M L P False False z s) (c : List Byte) : Kept False F M L P False False z (s.rspTake c) := by
  unfold State.rspTake
  repeat'
    first
    | (with_reducible assumption)
    | (extract_lets +onlyGivenNames x; first | (refine (fun hx : Kept False F M L P False False z x => ?_) ?_; clear_value x; rotate_left; subst x) | clear_value x)
    | (with_reducible first | apply Kept.ite | apply State.closeTag_kept | apply State.descDone_kept | apply State.inc_kept | apply State.xferAck_kept)
    | split

theorem State.msgIssue_kept (h : Kept False F M L P False False z s) (g : Nat) : Kept False F M L P False False z (s.msgIssue g) := by
  unfold State.msgIssue
  repeat'
    first
    | (with_reducible assumption)
    | (extract_lets +onlyGivenNames x; first | (refine (fun hx : Kept False F M L P False False z x => ?_) ?_; clear_value x; rotate_left; subst x) | (refine (fun hx : Kept False F M L P False False z x.2 => ?_) ?_; clear_value x; rotate_left; subst x) | (refine (fun hx : ∀ t, Kept False F M L P False False z t → Kept False F M L P False False z (x t) => ?_) ?_; clear_value x; rotate_left; subst x) | (refine (fun hx : ∀ t a, Kept False F M L P False False z t → Kept False F M L P False False z (x t a) => ?_) ?_; clear_value x; rotate_left; subst x) | (refine (fun hx : ∀ a t, Kept False F M L P False False z t → Kept False F M L P False False z (x a t) => ?_) ?_; clear_value x; rotate_left; subst x) | (refine (fun hx : ∀ t a b d, Kept False F M L P False False z t → Kept False F M L P False False z (x t a b d) => ?_) ?_; clear_value x; rotate_left; subst x) | (refine (fun hx : ∀ a b, Kept False F M L P False False z (x a b) => ?_) ?_; clear_value x; rotate_left; subst x) | clear_value x)
    | (with_reducible first | apply Kept.ite_snd | apply Kept.ite | apply State.descDone_kept | apply State.drawn_kept | apply State.modCas_kept | apply State.noRoute_kept | apply State.openTag_kept | apply State.queueCell_kept | apply State.reqRing_kept | apply State.ringAccess_kept | apply State.ringRefuse_kept | apply State.ringWrite_kept | apply State.rspTake_kept | apply State.transTake_kept | apply State.unitRead_kept | apply foldl_kept | apply foldl_pair_kept)
    | split
    | (intro t; intros; try dsimp only)
    | (with_reducible refine Kept.snd (by assumption) ?_)
    | (with_reducible refine OptKept.of (by assumption) ?_)
    | with_reducible apply_assumption

theorem State.msgExpire_kept (h : Kept False F M L P False G z s) (t : Nat) : Kept False F M L P False G z (s.msgExpire t) := by
  unfold State.msgExpire
  repeat'
    first
    | (with_reducible assumption)
    | (extract_lets +onlyGivenNames x; first | (refine (fun hx : Kept False F M L P False G z x => ?_) ?_; clear_value x; rotate_left; subst x) | clear_value x)
    | (with_reducible first | apply Kept.ite | apply State.atTime_kept | apply State.closeTag_kept | apply State.descDone_kept)
    | split

theorem State.txHeadWrite_kept (h : Kept K F M L P C G z s) (g v : Nat) : Kept K F M L P C G z (s.txHeadWrite g v) := by
  unfold State.txHeadWrite
  repeat'
    first
    | (with_reducible assumption)
    | (with_reducible first | apply Kept.ite | apply State.set_kept)
    | split

theorem State.rxTailWrite_kept (h : Kept K F M L P C G z s) (g v : Nat) : Kept K F M L P C G z (s.rxTailWrite g v) := by
  unfold State.rxTailWrite
  repeat'
    first
    | (with_reducible assumption)
    | (with_reducible first | apply Kept.ite | apply State.set_kept)
    | split

theorem State.casCntClr_kept (h : Kept K F M L P C G z s)  : Kept K F M L P C G z (s.casCntClr) := by
  unfold State.casCntClr
  repeat'
    first
    | (with_reducible assumption)
    | (extract_lets +onlyGivenNames x; first | (refine (fun hx : Kept K F M L P C G z x => ?_) ?_; clear_value x; rotate_left; subst x) | clear_value x)
    | (with_reducible first | apply State.each_kept | apply State.lower_kept)
    | (intro t; intros; try dsimp only)

end Sys2Proof.Machine
end

