-- ==== Sys2Proof/Laws/KeptLoop.lean ====
section
/-! SUPPORT. What the operations of Loop.lean keep. -/

namespace Sys2Proof.Machine

variable {z s : State} {K F M L P C G : Prop}

theorem State.laneReg_kept (h : Kept K F M False P C G z s) (l r v c : Nat) : Kept K F M False P C G z (s.laneReg l r v c) := by
  unfold State.laneReg
  repeat'
    first
    | (with_reducible assumption)
    | (with_reducible apply State.modLane_kept)
    | (intro t; intros; try dsimp only)

theorem State.exchPut_kept (h : Kept False F M L P C G z s) (e v c : Nat) : Kept False F M L P C G z (s.exchPut e v c) := by
  unfold State.exchPut
  repeat'
    first
    | (with_reducible assumption)
    | (with_reducible apply State.wordPut_kept)

theorem State.writeOut_kept (h : Kept False F M False P C G z s) (l b : Nat) (o : Option Opnd) (v c : Nat) (y64 yq : Option Nat) : Kept False F M False P C G z (s.writeOut l b o v c y64 yq) := by
  unfold State.writeOut
  repeat'
    first
    | (with_reducible assumption)
    | (extract_lets +onlyGivenNames x; first | (refine (fun hx : Kept False F M False P C G z x => ?_) ?_; clear_value x; rotate_left; subst x) | clear_value x)
    | (with_reducible first | apply Kept.ite | apply State.computeQual_kept | apply State.computeValue_kept | apply State.exchPut_kept | apply State.laneReg_kept | apply State.tagConflict_kept)
    | split

theorem State.writeBad_kept (h : Kept False F M False P C G z s) (l b : Nat) (o : Option Opnd) : Kept False F M False P C G z (s.writeBad l b o) := by
  unfold State.writeBad
  repeat'
    first
    | (with_reducible assumption)
    | (with_reducible first | apply Kept.ite | apply State.computeQual_kept | apply State.exchPut_kept | apply State.laneReg_kept | apply State.tagConflict_kept)
    | split

theorem State.laneShow_kept (h : Kept K F M L P C G z s) (l : Nat) : Kept K F M L P C G z (s.laneShow l) := by
  unfold State.laneShow
  repeat'
    first
    | (with_reducible assumption)
    | (extract_lets +onlyGivenNames x; first | (refine (fun hx : Kept K F M L P C G z x => ?_) ?_; clear_value x; rotate_left; subst x) | clear_value x)
    | (with_reducible apply State.set_kept)
    | split
    | (intro t; intros; try dsimp only)

theorem State.beginStrand_kept (h : Kept K F M False P C G z s) (l : Nat) : Kept K F M False P C G z (s.beginStrand l) := by
  unfold State.beginStrand
  repeat'
    first
    | (with_reducible assumption)
    | (extract_lets +onlyGivenNames x; clear_value x)
    | (with_reducible first | apply State.laneShow_kept | apply State.set_kept | apply State.setLane_kept)
    | split
    | (with_reducible refine Kept.snd (by assumption) ?_)
    | (with_reducible refine OptKept.of (by assumption) ?_)

theorem State.nextBlock_kept (h : Kept K F M False P C G z s) (l b : Nat) : Kept K F M False P C G z (s.nextBlock l b) := by
  unfold State.nextBlock
  repeat'
    first
    | (with_reducible assumption)
    | (extract_lets +onlyGivenNames x; clear_value x)
    | (with_reducible first | apply Kept.ite | apply State.beginStrand_kept | apply State.count_kept | apply State.laneShow_kept | apply State.setLane_kept)
    | split

theorem State.strandFault_kept (h : Kept K F M False P C False z s) (l b code : Nat) : Kept K F M False P C False z (s.strandFault l b code) := by
  unfold State.strandFault
  repeat'
    first
    | (with_reducible assumption)
    | (extract_lets +onlyGivenNames x; first | (refine (fun hx : Kept K F M False P C False z x => ?_) ?_; clear_value x; rotate_left; subst x) | clear_value x)
    | (with_reducible first | apply Kept.ite | apply State.beginStrand_kept | apply State.inc_kept | apply State.modGrv_kept | apply State.pulse_kept | apply State.raise_kept | apply State.set_kept | apply State.setLane_kept | apply State.setReg_kept)
    | split
    | (intro t; intros; try dsimp only)

theorem State.blockReports_kept (h : Kept K F M L P C G z s) (b : Nat) (bs : List Byte) : Kept K F M L P C G z (s.blockReports b bs) := by
  unfold State.blockReports
  repeat'
    first
    | (with_reducible assumption)
    | (with_reducible first | apply State.each_kept | apply State.meetPoison_kept)
    | split
    | (intro t; intros; try dsimp only)

theorem State.blockArith_kept (h : Kept False F M False P C G z s) (l b : Nat) (bs : List Byte) (o : BOut) : Kept False F M False P C G z (s.blockArith l b bs o) := by
  unfold State.blockArith
  repeat'
    first
    | (with_reducible assumption)
    | (extract_lets +onlyGivenNames x; first | (refine (fun hx : Kept False F M False P C G z x => ?_) ?_; clear_value x; rotate_left; subst x) | clear_value x)
    | (with_reducible first | apply Kept.ite | apply State.inc_kept | apply State.raise_kept | apply State.writeBad_kept)
    | split

theorem State.blockState_kept (h : Kept False F M L P C G z s) (b : Nat) (bs : List Byte) (o : BOut) : Kept False F M L P C G z (s.blockState b bs o) := by
  unfold State.blockState
  repeat'
    first
    | (with_reducible assumption)
    | (extract_lets +onlyGivenNames x; first | (refine (fun hx : Kept False F M L P C G z x => ?_) ?_; clear_value x; rotate_left; subst x) | clear_value x)
    | (with_reducible first | apply State.each_kept | apply State.exchPut_kept | apply State.wr_kept)
    | split
    | (intro t; intros; try dsimp only)

theorem State.blockResults_kept (h : Kept False F M False P C G z s) (l b : Nat) (bs : List Byte) (o : BOut) : Kept False F M False P C G z (s.blockResults l b bs o) := by
  unfold State.blockResults
  repeat'
    first
    | (with_reducible assumption)
    | (extract_lets +onlyGivenNames x; first | (refine (fun hx : Kept False F M False P C G z x => ?_) ?_; clear_value x; rotate_left; subst x) | clear_value x)
    | (with_reducible first | apply Kept.ite | apply State.blockArith_kept | apply State.blockState_kept | apply State.writeOut_kept)
    | split

theorem State.blockEnd_kept (h : Kept K F M False P C G z s) (l b : Nat) (bs : List Byte) (t : Nat) : Kept K F M False P C G z (s.blockEnd l b bs t) := by
  unfold State.blockEnd
  repeat'
    first
    | (with_reducible assumption)
    | (extract_lets +onlyGivenNames x; first | (refine (fun hx : Kept K F M False P C G z x => ?_) ?_; clear_value x; rotate_left; subst x) | clear_value x)
    | (with_reducible first | apply Kept.ite | apply State.atTime_kept | apply State.modLane_kept | apply State.modLoop_kept | apply State.nextBlock_kept)
    | split
    | (intro t; intros; try dsimp only)

theorem State.blockFaulted_kept (h : Kept K F M False P C G z s) (l b t : Nat) : Kept K F M False P C G z (s.blockFaulted l b t) := by
  unfold State.blockFaulted
  repeat'
    first
    | (with_reducible assumption)
    | (extract_lets +onlyGivenNames x; first | (refine (fun hx : Kept K F M False P C G z x => ?_) ?_; clear_value x; rotate_left; subst x) | clear_value x)
    | (with_reducible first | apply State.meetPoison_kept | apply State.modLane_kept)
    | split
    | (intro t; intros; try dsimp only)

theorem State.blockRun_kept (h : Kept False F M False P C False z s) (l op : Nat) (f : BIn → BOut) : Kept False F M False P C False z (s.blockRun l op f) := by
  unfold State.blockRun
  repeat'
    first
    | (with_reducible assumption)
    | (extract_lets +onlyGivenNames x; first | (refine (fun hx : Kept False F M False P C False z x => ?_) ?_; clear_value x; rotate_left; subst x) | clear_value x)
    | (with_reducible first | apply State.blockEnd_kept | apply State.blockFaulted_kept | apply State.blockReports_kept | apply State.blockResults_kept | apply State.set_kept | apply State.strandFault_kept)
    | split
    | (with_reducible refine Kept.snd (by assumption) ?_)

theorem State.setFlag_kept (h : Kept K F M L P C G z s) (f : Nat) : Kept K F M L P C G z (s.setFlag f) := by
  unfold State.setFlag
  repeat'
    first
    | (with_reducible assumption)
    | (extract_lets +onlyGivenNames x; first | (refine (fun hx : Kept K F M L P C G z x => ?_) ?_; clear_value x; rotate_left; subst x) | clear_value x)
    | (with_reducible first | apply Kept.ite | apply State.atTime_kept | apply State.each_kept | apply State.laneShow_kept | apply State.setReg_kept)
    | split
    | (intro t; intros; try dsimp only)

theorem State.callBegin_kept (h : Kept K F M False P C False z s) (l : Nat) : Kept K F M False P C False z (s.callBegin l) := by
  unfold State.callBegin
  repeat'
    first
    | (with_reducible assumption)
    | (extract_lets +onlyGivenNames x; first | (refine (fun hx : Kept K F M False P C False z x => ?_) ?_; clear_value x; rotate_left; subst x) | clear_value x)
    | (with_reducible first | apply State.atTime_kept | apply State.blockFaulted_kept | apply State.blockReports_kept | apply State.laneShow_kept | apply State.modLane_kept | apply State.modLoop_kept | apply State.pulse_kept | apply State.raise_kept | apply State.set_kept | apply State.setReg_kept | apply State.strandFault_kept)
    | split
    | (intro t; intros; try dsimp only)
    | (with_reducible refine Kept.snd (by assumption) ?_)
    | (with_reducible refine OptKept.of (by assumption) ?_)

theorem State.callClear_kept (h : Kept K F M False P C G z s) (n : Nat) : Kept K F M False P C G z (s.callClear n) := by
  unfold State.callClear
  repeat'
    first
    | (with_reducible assumption)
    | (with_reducible first | apply State.lower_kept | apply State.modLoop_kept)
    | (intro t; intros; try dsimp only)

theorem State.leDrop_kept (h : Kept K F M L P C G z s)  : Kept K F M L P C G z (s.leDrop) := by
  unfold State.leDrop
  repeat'
    first
    | (with_reducible assumption)
    | (with_reducible first | apply State.inc_kept | apply State.raise_kept)

theorem State.callFinish_kept (h : Kept False F M False P C G z s) (n q : Nat) : Kept False F M False P C G z (s.callFinish n q) := by
  unfold State.callFinish
  repeat'
    first
    | (with_reducible assumption)
    | (extract_lets +onlyGivenNames x; first | (refine (fun hx : Kept False F M False P C G z x => ?_) ?_; clear_value x; rotate_left; subst x) | clear_value x)
    | (with_reducible first | apply State.blockEnd_kept | apply State.blockResults_kept | apply State.callClear_kept | apply State.modLane_kept)
    | split
    | (intro t; intros; try dsimp only)

theorem State.callLate_kept (h : Kept K F M L P C G z s) (n : Nat) : Kept K F M L P C G z (s.callLate n) := by
  unfold State.callLate
  repeat'
    first
    | (with_reducible assumption)
    | (with_reducible first | apply State.inc_kept | apply State.raise_kept)

theorem State.callDone_kept (h : Kept False F M False P C G z s) (r : Requester) (n q : Nat) : Kept False F M False P C G z (s.callDone r n q) := by
  unfold State.callDone
  repeat'
    first
    | (with_reducible assumption)
    | (with_reducible first | apply Kept.ite | apply State.callFinish_kept | apply State.callLate_kept | apply State.leDrop_kept)
    | split

theorem State.callTimeout_kept (h : Kept K F M False P C False z s) (n : Nat) : Kept K F M False P C False z (s.callTimeout n) := by
  unfold State.callTimeout
  repeat'
    first
    | (with_reducible assumption)
    | (extract_lets +onlyGivenNames x; first | (refine (fun hx : Kept K F M False P C False z x => ?_) ?_; clear_value x; rotate_left; subst x) | clear_value x)
    | (with_reducible first | apply State.atTime_kept | apply State.callClear_kept | apply State.modLane_kept | apply State.strandFault_kept)
    | split
    | (intro t; intros; try dsimp only)
    | (with_reducible refine Kept.snd (by assumption) ?_)

theorem State.callRet_kept (h : Kept K F M L P C G z s) (r : Requester) (n v : Nat) : Kept K F M L P C G z (s.callRet r n v) := by
  unfold State.callRet
  repeat'
    first
    | (with_reducible assumption)
    | (with_reducible first | apply Kept.ite | apply State.leDrop_kept | apply State.setReg_kept)
    | split

theorem State.tuneShow_kept (h : Kept K F M L P C G z s)  : Kept K F M L P C G z (s.tuneShow) := by
  unfold State.tuneShow
  repeat'
    first
    | (with_reducible assumption)
    | (extract_lets +onlyGivenNames x; clear_value x)
    | (with_reducible first | apply Kept.ite | apply State.set_kept | apply State.setReg_kept | apply foldl_kept | apply foldl_pair_kept)
    | split
    | (intro t; intros; try dsimp only)

theorem State.leApply_kept (h : Kept False F M False P C G z s) (who a size v : Nat) : Kept False F M False P C G z (s.leApply who a size v) := by
  unfold State.leApply
  repeat'
    first
    | (with_reducible assumption)
    | (extract_lets +onlyGivenNames x; clear_value x)
    | (with_reducible first | apply Kept.ite | apply State.modLoop_kept | apply State.tuneShow_kept | apply State.wordPut_kept)
    | split
    | (intro t; intros; try dsimp only)

theorem State.leWrite_kept (h : Kept False F M False P C G z s) (r : Requester) (a size v : Nat) : Kept False F M False P C G z (s.leWrite r a size v) := by
  unfold State.leWrite
  repeat'
    first
    | (with_reducible assumption)
    | (with_reducible first | apply Kept.ite | apply State.leApply_kept | apply State.leDrop_kept)
    | split

theorem State.applyTune_kept (h : Kept False F M False P C G z s) (g : Nat) : Kept False F M False P C G z (s.applyTune g) := by
  unfold State.applyTune
  repeat'
    first
    | (with_reducible assumption)
    | (extract_lets +onlyGivenNames x; first | (refine (fun hx : Kept False F M False P C G z x => ?_) ?_; clear_value x; rotate_left; subst x) | clear_value x)
    | (with_reducible first | apply State.each_kept | apply State.modLoop_kept | apply State.tuneShow_kept | apply State.wordPut_kept)
    | (intro t; intros; try dsimp only)

theorem State.leCntClr_kept (h : Kept K F M L P C G z s)  : Kept K F M L P C G z (s.leCntClr) := by
  unfold State.leCntClr
  repeat'
    first
    | (with_reducible assumption)
    | (with_reducible apply State.lower_kept)

end Sys2Proof.Machine
end

