-- ==== Sys2Proof/Laws/KeptFabric.lean ====
section
/-! SUPPORT. What the operations of Fabric.lean keep. -/

namespace Sys2Proof.Machine

variable {z s : State} {K F M L P C G : Prop}

theorem State.obFail_kept (h : Kept K F M L P C G z s)  : Kept K F M L P C G z (s.obFail) := by
  unfold State.obFail
  repeat'
    first
    | (with_reducible assumption)
    | (with_reducible first | apply State.inc_kept | apply State.raise_kept)

theorem State.obRead_kept (h : Kept K F M L P C G z s) (who a n : Nat) : Kept K F M L P C G z (s.obRead who a n).2 := by
  unfold State.obRead
  repeat'
    first
    | (with_reducible assumption)
    | (extract_lets +onlyGivenNames x; first | (refine (fun hx : Kept K F M L P C G z x => ?_) ?_; clear_value x; rotate_left; subst x) | clear_value x)
    | (with_reducible first | apply Kept.ite_snd | apply Kept.ite | apply State.modPci_kept | apply State.obFail_kept | apply State.transBegin_kept)
    | split
    | (intro t; intros; try dsimp only)
    | (with_reducible refine Kept.snd (by assumption) ?_)

theorem State.obWrite_kept (h : Kept K F M L P C G z s) (a : Nat) (bs : List Byte) : Kept K F M L P C G z (s.obWrite a bs) := by
  unfold State.obWrite
  repeat'
    first
    | (with_reducible assumption)
    | (with_reducible first | apply Kept.ite | apply State.inc_kept | apply State.modPci_kept)
    | split
    | (intro t; intros; try dsimp only)

theorem State.wordRead_kept (h : Kept K F M L P C G z s) (a n : Nat) (bs : List Byte) : Kept K F M L P C G z (s.wordRead a n bs).2 := by
  unfold State.wordRead
  repeat'
    first
    | (with_reducible assumption)
    | (with_reducible first | apply Kept.ite_snd | apply Kept.ite | apply State.meetPoison_kept)
    | split
    | (with_reducible refine Kept.snd (by assumption) ?_)

theorem State.wordStore_kept (h : Kept False F M L P C G z s) (a : Nat) (bs : List Byte) : Kept False F M L P C G z (s.wordStore a bs).2 := by
  unfold State.wordStore
  repeat'
    first
    | (with_reducible assumption)
    | (with_reducible apply State.wordWrite_kept)
    | split
    | (with_reducible refine Kept.snd (by assumption) ?_)

theorem State.memRead_kept (h : Kept K F M L P C G z s) (who a n : Nat) (rt : Bool) : Kept K F M L P C G z (s.memRead who a n rt).2 := by
  unfold State.memRead
  repeat'
    first
    | (with_reducible assumption)
    | (with_reducible first | apply Kept.ite_snd | apply Kept.ite | apply State.obRead_kept | apply State.unitRead_kept | apply State.wake_kept | apply State.wordRead_kept)
    | split
    | (with_reducible refine Kept.snd (by assumption) ?_)

theorem State.tagStore_kept (h : Kept False F M L P C G z s) (r : Requester) (a n v : Nat) : Kept False F M L P C G z (s.tagStore r a n v).2 := by
  unfold State.tagStore
  repeat'
    first
    | (with_reducible assumption)
    | (extract_lets +onlyGivenNames x; clear_value x)
    | (with_reducible first | apply Kept.ite_snd | apply Kept.ite | apply State.markChanged_kept | apply State.tagConflict_kept | apply State.tagWrite_kept | apply State.wordWrite_kept)
    | split
    | (with_reducible refine Kept.snd (by assumption) ?_)

theorem State.memWrite_kept (h : Kept False F M False P C G z s) (r : Requester) (a n v : Nat) (rt : Bool) : Kept False F M False P C G z (s.memWrite r a n v rt).2 := by
  unfold State.memWrite
  repeat'
    first
    | (with_reducible assumption)
    | (extract_lets +onlyGivenNames x; clear_value x)
    | (with_reducible first | apply Kept.ite_snd | apply Kept.ite | apply State.gatherDrop_kept | apply State.leWrite_kept | apply State.obWrite_kept | apply State.tagStore_kept | apply State.unitWrite_kept | apply State.wake_kept | apply State.wordStore_kept)
    | split
    | (with_reducible refine Kept.snd (by assumption) ?_)

end Sys2Proof.Machine
end

