-- ==== Sys2Proof/Laws/KeptAccess.lean ====
section
/-! SUPPORT. What the operations of Access.lean keep. -/

namespace Sys2Proof.Machine

variable {z s : State} {K F M L P C G : Prop}

theorem State.hostDrop_kept (h : Kept K F M L P C G z s)  : Kept K F M L P C G z (s.hostDrop) := by
  unfold State.hostDrop
  repeat'
    first
    | (with_reducible assumption)
    | (with_reducible first | apply State.inc_kept | apply State.raise_kept)

theorem State.fwUsed_kept (h : Kept K F M L P C G z s) (r : Requester) : Kept K F M L P C G z (s.fwUsed r) := by
  unfold State.fwUsed
  repeat'
    first
    | (with_reducible assumption)
    | (with_reducible apply State.fwDrawn_kept)
    | split

theorem State.turnAway_kept (h : Kept K F M L P C G z s) (r : Requester) (k : FwKind) (a n : Nat) : Kept K F M L P C G z (s.turnAway r k a n) := by
  unfold State.turnAway
  repeat'
    first
    | (with_reducible assumption)
    | (extract_lets +onlyGivenNames x; first | (refine (fun hx : Kept K F M L P C G z x => ?_) ?_; clear_value x; rotate_left; subst x) | clear_value x)
    | (with_reducible first | apply Kept.ite | apply State.answer_kept | apply State.fwRefuse_kept | apply State.fwUsed_kept | apply State.hostDrop_kept)
    | split

theorem State.writeAt_kept (h : Kept K F M L P C G z s) (r : Requester) (a n : Nat) (f : State → State) (hf : ∀ t, Kept K F M L P C G z t → Kept K F M L P C G z (f t)) : Kept K F M L P C G z (s.writeAt r a n f) := by
  unfold State.writeAt
  repeat'
    first
    | (with_reducible assumption)
    | (with_reducible first | apply Kept.ite | apply State.answer_kept | apply State.fwUsed_kept | apply State.turnAway_kept | apply hf)
    | split

theorem State.regWriteAt_kept (h : Kept K F M L P C G z s) (r : Requester) (off n : Nat) (f : State → State) (hf : ∀ t, Kept K F M L P C G z t → Kept K F M L P C G z (f t)) : Kept K F M L P C G z (s.regWriteAt r off n f) := by
  unfold State.regWriteAt
  repeat'
    first
    | (with_reducible assumption)
    | (with_reducible first | apply State.writeAt_kept | apply hf)

end Sys2Proof.Machine
end

