-- ==== Sys2Proof/Laws/KeptPorts.lean ====
section
/-! SUPPORT. What the operations of Ports.lean keep. -/

namespace Sys2Proof.Machine

variable {z s : State} {K F M L P C G : Prop}

theorem State.shortCount_kept (h : Kept K F M L P C G z s) (p : Nat) : Kept K F M L P C G z (s.shortCount p) := by
  unfold State.shortCount
  repeat'
    first
    | (with_reducible assumption)
    | (with_reducible first | apply State.inc_kept | apply State.raise_kept)

theorem State.applyMap_kept (h : Kept False F M L P C G z s) (p : Nat) (h : FrameHead) (capture : Nat) (e : List Byte) (i : Nat) : Kept False F M L P C G z (s.applyMap p h capture e i) := by
  unfold State.applyMap
  repeat'
    first
    | (with_reducible assumption)
    | (with_reducible first | apply Kept.ite | apply State.gather_kept | apply State.shortCount_kept)
    | split

theorem State.eliminate_kept (h : Kept K F M L False C G z s) (p : Nat) (h : FrameHead) (tie : Bool) : Kept K F M L False C G z (s.eliminate p h tie).2 := by
  unfold State.eliminate
  repeat'
    first
    | (with_reducible assumption)
    | (extract_lets +onlyGivenNames x; first | (refine (fun hx : Kept K F M L False C G z x => ?_) ?_; clear_value x; rotate_left; subst x) | clear_value x)
    | (with_reducible first | apply Kept.ite_snd | apply Kept.ite | apply State.inc_kept | apply State.modField_kept)
    | split
    | (intro t; intros; try dsimp only)
    | (with_reducible refine Kept.snd (by assumption) ?_)
    | (with_reducible refine OptKept.of (by assumption) ?_)

theorem State.nrtDrop_kept (h : Kept K F M L P C G z s) (p : Nat) : Kept K F M L P C G z (s.nrtDrop p) := by
  unfold State.nrtDrop
  repeat'
    first
    | (with_reducible assumption)
    | (with_reducible apply State.inc_kept)

theorem State.nrtQueue_kept (h : Kept K F M L False C G z s) (p : Nat) (h : FrameHead) (f : RxFrame) : Kept K F M L False C G z (s.nrtQueue p h f) := by
  unfold State.nrtQueue
  repeat'
    first
    | (with_reducible assumption)
    | (with_reducible apply State.modPort_kept)
    | (intro t; intros; try dsimp only)

theorem State.applyMaps_kept (h : Kept False F M L P C G z s) (p : Nat) (h : FrameHead) (capture : Nat) (es : List (List Byte × Nat)) : Kept False F M L P C G z (s.applyMaps p h capture es) := by
  unfold State.applyMaps
  repeat'
    first
    | (with_reducible assumption)
    | (extract_lets +onlyGivenNames x; first | (refine (fun hx : Kept False F M L P C G z x => ?_) ?_; clear_value x; rotate_left; subst x) | clear_value x)
    | (with_reducible first | apply Kept.ite | apply State.applyMap_kept | apply State.each_kept | apply State.shortCount_kept)
    | split
    | (intro t; intros; try dsimp only)

theorem State.receiveFrame_kept (h : Kept False F M L False C G z s) (p : Nat) (f : RxFrame) : Kept False F M L False C G z (s.receiveFrame p f) := by
  unfold State.receiveFrame
  repeat'
    first
    | (with_reducible assumption)
    | (extract_lets +onlyGivenNames x; first | (refine (fun hx : Kept False F M L False C G z x => ?_) ?_; clear_value x; rotate_left; subst x) | (refine (fun hx : Kept False F M L False C G z x.2 => ?_) ?_; clear_value x; rotate_left; subst x) | clear_value x)
    | (with_reducible first | apply Kept.ite | apply State.applyMaps_kept | apply State.drawn_kept | apply State.eliminate_kept | apply State.inc_kept | apply State.nrtDrop_kept | apply State.nrtQueue_kept | apply State.raise_kept)
    | split
    | (with_reducible refine Kept.snd (by assumption) ?_)

theorem State.cbReset_kept (h : Kept K F M L False C G z s) (i : Nat) : Kept K F M L False C G z (s.cbReset i) := by
  unfold State.cbReset
  repeat'
    first
    | (with_reducible assumption)
    | (with_reducible first | apply State.atTime_kept | apply State.modField_kept | apply State.set_kept)
    | split
    | (intro t; intros; try dsimp only)
    | (with_reducible refine OptKept.of (by assumption) ?_)

theorem State.setTemplate_kept (h : Kept K F M L False C G z s) (i : Nat) (t : Template) : Kept K F M L False C G z (s.setTemplate i t) := by
  unfold State.setTemplate
  repeat'
    first
    | (with_reducible assumption)
    | (with_reducible apply State.modField_kept)
    | (intro t; intros; try dsimp only)

theorem State.stageTemplates_kept (h : Kept K F M L False C G z s) (g : Nat) : Kept K F M L False C G z (s.stageTemplates g) := by
  unfold State.stageTemplates
  repeat'
    first
    | (with_reducible assumption)
    | (with_reducible first | apply State.each_kept | apply State.setTemplate_kept)
    | (intro t; intros; try dsimp only)

theorem State.endTemplates_kept (h : Kept K F M L False C G z s) (g : Nat) (ok : Bool) : Kept K F M L False C G z (s.endTemplates g ok) := by
  unfold State.endTemplates
  repeat'
    first
    | (with_reducible assumption)
    | (with_reducible first | apply Kept.ite | apply State.each_kept | apply State.setTemplate_kept)
    | split
    | (intro t; intros; try dsimp only)

theorem State.tplDrop_kept (h : Kept K F M L P C G z s) (p n : Nat) : Kept K F M L P C G z (s.tplDrop p n) := by
  unfold State.tplDrop
  repeat'
    first
    | (with_reducible assumption)
    | (with_reducible first | apply Kept.ite | apply State.count_kept | apply State.raise_kept)
    | split

theorem State.enqueue_kept (h : Kept K F M L False C G z s) (p tc : Nat) (f : TxFrame) : Kept K F M L False C G z (s.enqueue p tc f) := by
  unfold State.enqueue
  repeat'
    first
    | (with_reducible assumption)
    | (with_reducible apply State.modPort_kept)
    | (intro t; intros; try dsimp only)

theorem State.releaseOn_kept (h : Kept K F M L False C G z s) (p i tc : Nat) (bs : List Byte) : Kept K F M L False C G z (s.releaseOn p i tc bs) := by
  unfold State.releaseOn
  repeat'
    first
    | (with_reducible assumption)
    | (with_reducible first | apply Kept.ite | apply State.enqueue_kept | apply State.tplDrop_kept)
    | split

theorem State.sendTemplate_kept (h : Kept K F M L False C G z s) (i tc : Nat) (t : Template) (bs : List Byte) : Kept K F M L False C G z (s.sendTemplate i tc t bs) := by
  unfold State.sendTemplate
  repeat'
    first
    | (with_reducible assumption)
    | (extract_lets +onlyGivenNames x; clear_value x)
    | (with_reducible first | apply Kept.ite | apply State.releaseOn_kept | apply State.setTemplate_kept)
    | split

theorem State.releaseTemplate_kept (h : Kept K F M L False C G z s) (k i : Nat) (t : Template) : Kept K F M L False C G z (s.releaseTemplate k i t) := by
  unfold State.releaseTemplate
  repeat'
    first
    | (with_reducible assumption)
    | (with_reducible apply State.sendTemplate_kept)
    | split

theorem State.templateRelease_kept (h : Kept K F M L False C G z s) (p : Nat) : Kept K F M L False C G z (s.templateRelease p) := by
  unfold State.templateRelease
  repeat'
    first
    | (with_reducible assumption)
    | (extract_lets +onlyGivenNames x; first | (refine (fun hx : Kept K F M L False C G z x => ?_) ?_; clear_value x; rotate_left; subst x) | clear_value x)
    | (with_reducible first | apply Kept.ite | apply State.atTime_kept | apply State.each_kept | apply State.modPort_kept | apply State.releaseTemplate_kept)
    | split
    | (intro t; intros; try dsimp only)
    | (with_reducible refine Kept.snd (by assumption) ?_)

theorem State.powerFailRelease_kept (h : Kept K F M L False C G z s) (p : Nat) : Kept K F M L False C G z (s.powerFailRelease p) := by
  unfold State.powerFailRelease
  repeat'
    first
    | (with_reducible assumption)
    | (extract_lets +onlyGivenNames x; first | (refine (fun hx : Kept K F M L False C G z x => ?_) ?_; clear_value x; rotate_left; subst x) | clear_value x)
    | (with_reducible first | apply Kept.ite | apply State.each_kept | apply State.iff_kept | apply State.modPort_kept | apply State.sendTemplate_kept)
    | split
    | (intro t; intros; try dsimp only)

theorem State.gateChange_kept (h : Kept K F M L False C G z s) (p : Nat) : Kept K F M L False C G z (s.gateChange p) := by
  unfold State.gateChange
  repeat'
    first
    | (with_reducible assumption)
    | (extract_lets +onlyGivenNames x; first | (refine (fun hx : Kept K F M L False C G z x => ?_) ?_; clear_value x; rotate_left; subst x) | clear_value x)
    | (with_reducible first | apply Kept.ite | apply State.atTime_kept | apply State.modPort_kept | apply State.set_kept)
    | split
    | (intro t; intros; try dsimp only)

theorem State.ptpSend_kept (h : Kept K F M L False C G z s) (p msg : Nat) (bs : List Byte) : Kept K F M L False C G z (s.ptpSend p msg bs) := by
  unfold State.ptpSend
  repeat'
    first
    | (with_reducible assumption)
    | (with_reducible apply State.enqueue_kept)

theorem State.ptpSent_kept (h : Kept K F M L False C G z s) (p : Nat) (f : TxFrame) (stamp : Nat) : Kept K F M L False C G z (s.ptpSent p f stamp) := by
  unfold State.ptpSent
  repeat'
    first
    | (with_reducible assumption)
    | (extract_lets +onlyGivenNames x; clear_value x)
    | (with_reducible first | apply State.modPort_kept | apply State.ptpSend_kept)
    | split
    | (intro t; intros; try dsimp only)
    | (with_reducible refine OptKept.of (by assumption) ?_)

theorem State.queueTransmit_kept (h : Kept K F M L False C G z s) (p tc : Nat) : Kept K F M L False C G z (s.queueTransmit p tc) := by
  unfold State.queueTransmit
  repeat'
    first
    | (with_reducible assumption)
    | (extract_lets +onlyGivenNames x; clear_value x)
    | (with_reducible first | apply Kept.ite | apply State.drawn_kept | apply State.modPort_kept | apply State.ptpSent_kept)
    | split
    | (intro t; intros; try dsimp only)

theorem State.linkChange_kept (h : Kept K F M L P C G z s) (p : Nat) (up : Bool) : Kept K F M L P C G z (s.linkChange p up) := by
  unfold State.linkChange
  repeat'
    first
    | (with_reducible assumption)
    | (extract_lets +onlyGivenNames x; first | (refine (fun hx : Kept K F M L P C G z x => ?_) ?_; clear_value x; rotate_left; subst x) | clear_value x)
    | (with_reducible first | apply State.pulse_kept | apply State.raise_kept | apply State.set_kept | apply State.setReg_kept)

theorem State.fieldDown_kept (h : Kept K F M L False C G z s) (p : Nat) : Kept K F M L False C G z (s.fieldDown p) := by
  unfold State.fieldDown
  repeat'
    first
    | (with_reducible assumption)
    | (extract_lets +onlyGivenNames x; first | (refine (fun hx : Kept K F M L False C G z x => ?_) ?_; clear_value x; rotate_left; subst x) | clear_value x)
    | (with_reducible first | apply Kept.ite | apply State.linkChange_kept | apply State.lower_kept | apply State.modPort_kept | apply State.tplDrop_kept | apply foldl_kept | apply foldl_pair_kept)
    | split
    | (intro t; intros; try dsimp only)

theorem State.fieldUp_kept (h : Kept K F M L P C G z s) (p : Nat) : Kept K F M L P C G z (s.fieldUp p) := by
  unfold State.fieldUp
  repeat'
    first
    | (with_reducible assumption)
    | (with_reducible first | apply Kept.ite | apply State.linkChange_kept | apply State.set_kept)
    | split

theorem State.stepSync_kept (h : Kept K F False L P C G z s) (o : Int) : Kept K F False L P C G z (s.stepSync o) := by
  unfold State.stepSync
  repeat'
    first
    | (with_reducible assumption)
    | (with_reducible apply State.setTime_kept)

theorem State.syncReceived_kept (h : Kept K F False L False C G z s) (p : Nat) (m : SyncMsg) : Kept K F False L False C G z (s.syncReceived p m) := by
  unfold State.syncReceived
  repeat'
    first
    | (with_reducible assumption)
    | (extract_lets +onlyGivenNames x; first | (refine (fun hx : Kept K F False L False C G z x => ?_) ?_; clear_value x; rotate_left; subst x) | clear_value x)
    | (with_reducible first | apply Kept.ite | apply State.lower_kept | apply State.modField_kept | apply State.raise_kept | apply State.set_kept | apply State.stepSync_kept)
    | split
    | (intro t; intros; try dsimp only)
    | (with_reducible refine OptKept.of (by assumption) ?_)

theorem State.fieldTimeLost_kept (h : Kept K F M L P C G z s)  : Kept K F M L P C G z (s.fieldTimeLost) := by
  unfold State.fieldTimeLost
  repeat'
    first
    | (with_reducible assumption)
    | (extract_lets +onlyGivenNames x; first | (refine (fun hx : Kept K F M L P C G z x => ?_) ?_; clear_value x; rotate_left; subst x) | clear_value x)
    | (with_reducible first | apply Kept.ite | apply State.atTime_kept | apply State.pulse_kept | apply State.raise_kept)
    | split

theorem State.syncTransmit_kept (h : Kept K F M L False C G z s) (p : Nat) : Kept K F M L False C G z (s.syncTransmit p) := by
  unfold State.syncTransmit
  repeat'
    first
    | (with_reducible assumption)
    | (extract_lets +onlyGivenNames x; first | (refine (fun hx : Kept K F M L False C G z x => ?_) ?_; clear_value x; rotate_left; subst x) | clear_value x)
    | (with_reducible first | apply Kept.ite | apply State.modPort_kept | apply State.ptpSend_kept)
    | split
    | (intro t; intros; try dsimp only)

theorem State.announceTransmit_kept (h : Kept K F M L False C G z s) (p : Nat) : Kept K F M L False C G z (s.announceTransmit p) := by
  unfold State.announceTransmit
  repeat'
    first
    | (with_reducible assumption)
    | (extract_lets +onlyGivenNames x; clear_value x)
    | (with_reducible first | apply Kept.ite | apply State.modPort_kept | apply State.ptpSend_kept)
    | split
    | (intro t; intros; try dsimp only)

theorem State.pdelayReq_kept (h : Kept K F M L False C G z s) (p : Nat) : Kept K F M L False C G z (s.pdelayReq p) := by
  unfold State.pdelayReq
  repeat'
    first
    | (with_reducible assumption)
    | (extract_lets +onlyGivenNames x; clear_value x)
    | (with_reducible first | apply Kept.ite | apply State.modPort_kept | apply State.ptpSend_kept)
    | split
    | (intro t; intros; try dsimp only)

theorem State.pdelayAnswer_kept (h : Kept K F M L False C G z s) (p seq rx clock num : Nat) : Kept K F M L False C G z (s.pdelayAnswer p seq rx clock num) := by
  unfold State.pdelayAnswer
  repeat'
    first
    | (with_reducible assumption)
    | (with_reducible first | apply Kept.ite | apply State.ptpSend_kept)
    | split

theorem State.pdelayDone_kept (h : Kept K F M L False C G z s) (p : Nat) (m : PdelayMsg) : Kept K F M L False C G z (s.pdelayDone p m) := by
  unfold State.pdelayDone
  repeat'
    first
    | (with_reducible assumption)
    | (extract_lets +onlyGivenNames x; clear_value x)
    | (with_reducible first | apply Kept.ite | apply State.modPort_kept)
    | split
    | (intro t; intros; try dsimp only)

theorem State.fpCntClr_kept (h : Kept K F M L P C G z s) : Kept K F M L P C G z (s.fpCntClr) := h.regForm (mapWf_filter _)

end Sys2Proof.Machine
end

