-- ==== Sys2Proof/Laws/KeptAdmit.lean ====
section
/-! SUPPORT. What the operations of Admit.lean keep. -/

namespace Sys2Proof.Machine

variable {z s : State} {K F M L P C G : Prop}

theorem State.showAdmission_kept (h : Kept K F M L P C G z s) (a : Admission) : Kept K F M L P C G z (s.showAdmission a) := by
  unfold State.showAdmission
  repeat'
    first
    | (with_reducible assumption)
    | (with_reducible apply State.set_kept)

end Sys2Proof.Machine
end

