-- ==== Sys2Proof/Laws/KeptDma.lean ====
section
/-! SUPPORT. What the operations of Dma.lean keep. -/

namespace Sys2Proof.Machine

variable {z s : State} {K F M L P C G : Prop}

theorem State.modDma_kept (h : Kept K F M L P C G z s) (f : DmaSt → DmaSt) : Kept K F M L P C G z (s.modDma f) := by
  unfold State.modDma
  repeat'
    first
    | (with_reducible assumption)
    | simp only [Kept.upd]

theorem State.setEng_kept (h : Kept K F M L P C G z s) (e : Nat) (x : DmaEng) : Kept K F M L P C G z (s.setEng e x) := by
  unfold State.setEng
  repeat'
    first
    | (with_reducible assumption)
    | (with_reducible apply State.modDma_kept)
    | (intro t; intros; try dsimp only)

theorem State.setChan_kept (h : Kept K F M L P C G z s) (e c : Nat) (x : DmaCh) : Kept K F M L P C G z (s.setChan e c x) := by
  unfold State.setChan
  repeat'
    first
    | (with_reducible assumption)
    | (with_reducible apply State.modDma_kept)
    | (intro t; intros; try dsimp only)

theorem State.chBell_kept (h : Kept K F M L P C G z s) (e c : Nat) : Kept K F M L P C G z (s.chBell e c) := by
  unfold State.chBell
  repeat'
    first
    | (with_reducible assumption)
    | (with_reducible apply State.pulse_kept)

theorem State.chEvent_kept (h : Kept K F M L P C G z s) (e c : Nat) (f : Fld) (bell : Bool) : Kept K F M L P C G z (s.chEvent e c f bell) := by
  unfold State.chEvent
  repeat'
    first
    | (with_reducible assumption)
    | (extract_lets +onlyGivenNames x; first | (refine (fun hx : Kept K F M L P C G z x => ?_) ?_; clear_value x; rotate_left; subst x) | clear_value x)
    | (with_reducible first | apply Kept.ite | apply State.chBell_kept | apply State.raise_kept)
    | split

theorem State.chHalt_kept (h : Kept K F M L P C G z s) (e c : Nat) : Kept K F M L P C G z (s.chHalt e c) := by
  unfold State.chHalt
  repeat'
    first
    | (with_reducible assumption)
    | (with_reducible first | apply State.lower_kept | apply State.setChan_kept)

theorem State.jobEnd_kept (h : Kept K F M L P C G z s) (e : Nat) : Kept K F M L P C G z (s.jobEnd e) := by
  unfold State.jobEnd
  repeat'
    first
    | (with_reducible assumption)
    | (with_reducible first | apply State.lower_kept | apply State.setEng_kept)
    | split

theorem State.engError_kept (h : Kept K F M L P C G z s) (e a : Nat) (wr desc : Bool) (kind ch : Nat) : Kept K F M L P C G z (s.engError e a wr desc kind ch) := by
  unfold State.engError
  repeat'
    first
    | (with_reducible assumption)
    | (extract_lets +onlyGivenNames x; first | (refine (fun hx : Kept K F M L P C G z x => ?_) ?_; clear_value x; rotate_left; subst x) | clear_value x)
    | (with_reducible first | apply Kept.ite | apply State.chEvent_kept | apply State.chHalt_kept | apply State.each_kept | apply State.inc_kept | apply State.jobEnd_kept | apply State.pulse_kept | apply State.raise_kept | apply State.setReg_kept)
    | split
    | (intro t; intros; try dsimp only)

theorem State.dmaCheck_kept (h : Kept K F M L P C G z s) (e c : Nat) (k : FwKind) (a n : Nat) : Kept K F M L P C G z (s.dmaCheck e c k a n).2 := by
  unfold State.dmaCheck
  repeat'
    first
    | (with_reducible assumption)
    | (extract_lets +onlyGivenNames x; first | (refine (fun hx : Kept K F M L P C G z x.2 => ?_) ?_; clear_value x; rotate_left; subst x) | clear_value x)
    | (with_reducible first | apply Kept.ite_snd | apply Kept.ite | apply State.fwCheck_kept)
    | split
    | (with_reducible refine Kept.snd (by assumption) ?_)

theorem State.dmaIssue_kept (h : Kept K F M L P C G z s) (e c a : Nat) (f : State → MemRes × State) (hf : ∀ t, Kept K F M L P C G z t → Kept K F M L P C G z (f t).2) : Kept K F M L P C G z (s.dmaIssue e c a f).2 := by
  unfold State.dmaIssue
  repeat'
    first
    | (with_reducible assumption)
    | (extract_lets +onlyGivenNames x; first | (refine (fun hx : Kept K F M L P C G z x.2 => ?_) ?_; clear_value x; rotate_left; subst x) | clear_value x)
    | (with_reducible first | apply Kept.ite_snd | apply Kept.ite | apply State.transTake_kept | apply hf)
    | split
    | (with_reducible refine Kept.snd (by assumption) ?_)

theorem State.dmaRead_kept (h : Kept K F M L P C G z s) (e c a n : Nat) (rt : Bool) : Kept K F M L P C G z (s.dmaRead e c a n rt).2 := by
  unfold State.dmaRead
  repeat'
    first
    | (with_reducible assumption)
    | (with_reducible first | apply State.dmaCheck_kept | apply State.dmaIssue_kept | apply State.memRead_kept)
    | split
    | (intro t; intros; try dsimp only)
    | (with_reducible refine Kept.snd (by assumption) ?_)

theorem State.dmaWrite_kept (h : Kept False F M False P C G z s) (e c a : Nat) (bs : List Byte) (rt : Bool) : Kept False F M False P C G z (s.dmaWrite e c a bs rt).2 := by
  unfold State.dmaWrite
  repeat'
    first
    | (with_reducible assumption)
    | (with_reducible first | apply State.dmaCheck_kept | apply State.dmaIssue_kept | apply State.memWrite_kept)
    | split
    | (intro t; intros; try dsimp only)
    | (with_reducible refine Kept.snd (by assumption) ?_)

theorem State.descEnd_kept (h : Kept False F M False P C G z s) (e : Nat) (j : DmaJob) (d : List Byte) (status queue xlen tstamp : Nat) : Kept False F M False P C G z (s.descEnd e j d status queue xlen tstamp) := by
  unfold State.descEnd
  repeat'
    first
    | (with_reducible assumption)
    | (extract_lets +onlyGivenNames x; first | (refine (fun hx : Kept False F M False P C G z x => ?_) ?_; clear_value x; rotate_left; subst x) | clear_value x)
    | (with_reducible first | apply Kept.ite | apply State.chEvent_kept | apply State.chHalt_kept | apply State.dmaWrite_kept | apply State.engError_kept | apply State.iff_kept | apply State.jobEnd_kept | apply State.set_kept | apply State.setEng_kept)
    | split
    | (intro t; intros; try dsimp only)
    | (with_reducible refine Kept.snd (by assumption) ?_)

theorem State.descRetry_kept (h : Kept False F M False P C G z s) (e : Nat) : Kept False F M False P C G z (s.descRetry e) := by
  unfold State.descRetry
  repeat'
    first
    | (with_reducible assumption)
    | (with_reducible apply State.descEnd_kept)
    | split

theorem State.descRead_kept (h : Kept False F M False P C G z s) (e : Nat) (k : Nat) : Kept False F M False P C G z (s.descRead e k) := by
  induction k generalizing s with
  | zero => exact h
  | succ k ih =>
    unfold State.descRead
    repeat'
      first
      | (with_reducible assumption)
      | (extract_lets +onlyGivenNames x; first | (refine (fun hx : Kept False F M False P C G z x => ?_) ?_; clear_value x; rotate_left; subst x) | (refine (fun hx : Kept False F M False P C G z x.2 => ?_) ?_; clear_value x; rotate_left; subst x) | (refine (fun hx : ∀ t, Kept False F M False P C G z t → Kept False F M False P C G z (x t) => ?_) ?_; clear_value x; rotate_left; subst x) | (refine (fun hx : ∀ t a, Kept False F M False P C G z t → Kept False F M False P C G z (x t a) => ?_) ?_; clear_value x; rotate_left; subst x) | (refine (fun hx : ∀ a t, Kept False F M False P C G z t → Kept False F M False P C G z (x a t) => ?_) ?_; clear_value x; rotate_left; subst x) | (refine (fun hx : ∀ t a b d, Kept False F M False P C G z t → Kept False F M False P C G z (x t a b d) => ?_) ?_; clear_value x; rotate_left; subst x) | (refine (fun hx : ∀ a b, Kept False F M False P C G z (x a b) => ?_) ?_; clear_value x; rotate_left; subst x) | clear_value x)
      | (with_reducible first | apply ih | apply State.descEnd_kept | apply State.engError_kept | apply State.setEng_kept | apply State.dmaRead_kept)
      | split | (intro t; intros; try dsimp only) | (with_reducible refine Kept.snd (by assumption) ?_)

theorem State.jobBegin_kept (h : Kept K F M L P C G z s) (e c : Nat) : Kept K F M L P C G z (s.jobBegin e c) := by
  unfold State.jobBegin
  repeat'
    first
    | (with_reducible assumption)
    | (extract_lets +onlyGivenNames x; first | (refine (fun hx : Kept K F M L P C G z x => ?_) ?_; clear_value x; rotate_left; subst x) | clear_value x)
    | (with_reducible first | apply State.raise_kept | apply State.set_kept | apply State.setEng_kept)

theorem State.jobStart_kept (h : Kept False F M False P C G z s) (e : Nat) : Kept False F M False P C G z (s.jobStart e) := by
  unfold State.jobStart
  repeat'
    first
    | (with_reducible assumption)
    | (with_reducible first | apply Kept.ite | apply State.descRead_kept | apply State.jobBegin_kept)
    | split

theorem State.elemRun_kept (h : Kept False F M False P C G z s) (e : Nat) : Kept False F M False P C G z (s.elemRun e) := by
  unfold State.elemRun
  repeat'
    first
    | (with_reducible assumption)
    | (extract_lets +onlyGivenNames x; first | (refine (fun hx : Kept False F M False P C G z x => ?_) ?_; clear_value x; rotate_left; subst x) | (refine (fun hx : Kept False F M False P C G z x.2 => ?_) ?_; clear_value x; rotate_left; subst x) | clear_value x)
    | (with_reducible first | apply Kept.ite | apply State.chEvent_kept | apply State.descRead_kept | apply State.dmaRead_kept | apply State.dmaWrite_kept | apply State.engError_kept | apply State.iff_kept | apply State.setEng_kept)
    | split
    | (intro t; intros; try dsimp only)
    | (with_reducible refine Kept.snd (by assumption) ?_)

theorem State.descComplete_kept (h : Kept False F M False P C G z s) (e : Nat) : Kept False F M False P C G z (s.descComplete e) := by
  unfold State.descComplete
  repeat'
    first
    | (with_reducible assumption)
    | (extract_lets +onlyGivenNames x; first | (refine (fun hx : Kept False F M False P C G z x => ?_) ?_; clear_value x; rotate_left; subst x) | clear_value x)
    | (with_reducible first | apply Kept.ite | apply State.descEnd_kept | apply State.descRead_kept | apply State.descRetry_kept)
    | split

theorem State.rxSettle_kept (h : Kept K F M L False C G z s) (p q : Nat) : Kept K F M L False C G z (s.rxSettle p q) := by
  unfold State.rxSettle
  repeat'
    first
    | (with_reducible assumption)
    | (extract_lets +onlyGivenNames x; clear_value x)
    | (with_reducible first | apply Kept.ite | apply State.count_kept | apply State.modPort_kept)
    | split
    | (intro t; intros; try dsimp only)

theorem State.rxArrive_kept (h : Kept K F M L False C G z s) (p : Nat) : Kept K F M L False C G z (s.rxArrive p) := by
  unfold State.rxArrive
  repeat'
    first
    | (with_reducible assumption)
    | (extract_lets +onlyGivenNames x; clear_value x)
    | (with_reducible first | apply Kept.ite | apply State.modPort_kept | apply State.nrtDrop_kept | apply State.rxSettle_kept | apply foldl_kept | apply foldl_pair_kept)
    | split
    | (intro t; intros; try dsimp only)

theorem State.frameIn_kept (h : Kept False F M L False C G z s) (p : Nat) (f : RxFrame) : Kept False F M L False C G z (s.frameIn p f) := by
  unfold State.frameIn
  repeat'
    first
    | (with_reducible assumption)
    | (extract_lets +onlyGivenNames x; first | (refine (fun hx : Kept False F M L False C G z x => ?_) ?_; clear_value x; rotate_left; subst x) | clear_value x)
    | (with_reducible first | apply Kept.ite | apply State.receiveFrame_kept | apply State.rxArrive_kept)
    | split

theorem State.packetJob_kept (h : Kept False F M False P C G z s) (e c : Nat) : Kept False F M False P C G z (s.packetJob e c) := by
  unfold State.packetJob
  repeat'
    first
    | (with_reducible assumption)
    | (with_reducible first | apply Kept.ite | apply State.descRead_kept | apply State.jobBegin_kept)
    | split

theorem State.rxJob_kept (h : Kept False F M False False C G z s) (e c : Nat) : Kept False F M False False C G z (s.rxJob e c) := by
  unfold State.rxJob
  repeat'
    first
    | (with_reducible assumption)
    | (extract_lets +onlyGivenNames x; first | (refine (fun hx : Kept False F M False False C G z x => ?_) ?_; clear_value x; rotate_left; subst x) | clear_value x)
    | (with_reducible first | apply Kept.ite | apply State.descEnd_kept | apply State.descRetry_kept | apply State.dmaWrite_kept | apply State.engError_kept | apply State.modPort_kept | apply State.packetJob_kept | apply State.rxSettle_kept)
    | split
    | (intro t; intros; try dsimp only)
    | (with_reducible refine Kept.snd (by assumption) ?_)

theorem State.txJob_kept (h : Kept False F M False False C G z s) (e c : Nat) : Kept False F M False False C G z (s.txJob e c) := by
  unfold State.txJob
  repeat'
    first
    | (with_reducible assumption)
    | (extract_lets +onlyGivenNames x; first | (refine (fun hx : Kept False F M False False C G z x => ?_) ?_; clear_value x; rotate_left; subst x) | clear_value x)
    | (with_reducible first | apply Kept.ite | apply State.descEnd_kept | apply State.descRetry_kept | apply State.dmaRead_kept | apply State.engError_kept | apply State.enqueue_kept | apply State.packetJob_kept | apply State.setEng_kept)
    | split
    | (with_reducible refine Kept.snd (by assumption) ?_)

theorem State.txDone?_kept (h : Kept False F M False P C G z s) (k : TxKind) (status stamp : Nat) : Kept False F M False P C G z (s.txDone? k status stamp) := by
  unfold State.txDone?
  repeat'
    first
    | (with_reducible assumption)
    | (with_reducible first | apply Kept.ite | apply State.descEnd_kept)
    | split

theorem State.transmissionEnd_kept (h : Kept False F M False False C G z s) (p : Nat) : Kept False F M False False C G z (s.transmissionEnd p) := by
  unfold State.transmissionEnd
  repeat'
    first
    | (with_reducible assumption)
    | (extract_lets +onlyGivenNames x; first | (refine (fun hx : Kept False F M False False C G z x => ?_) ?_; clear_value x; rotate_left; subst x) | clear_value x)
    | (with_reducible first | apply State.modField_kept | apply State.modPort_kept | apply State.txDone?_kept)
    | split
    | (intro t; intros; try dsimp only)

theorem State.fieldLinkDown_kept (h : Kept False F M False False C G z s) (p : Nat) : Kept False F M False False C G z (s.fieldLinkDown p) := by
  unfold State.fieldLinkDown
  repeat'
    first
    | (with_reducible assumption)
    | (extract_lets +onlyGivenNames x; first | (refine (fun hx : Kept False F M False False C G z x => ?_) ?_; clear_value x; rotate_left; subst x) | clear_value x)
    | (with_reducible first | apply Kept.ite | apply State.each_kept | apply State.fieldDown_kept | apply State.modPort_kept | apply State.txDone?_kept)
    | split
    | (intro t; intros; try dsimp only)

theorem State.dmaHead_kept (h : Kept K F M L P C G z s) (r : Requester) (e c v : Nat) : Kept K F M L P C G z (s.dmaHead r e c v) := by
  unfold State.dmaHead
  repeat'
    first
    | (with_reducible assumption)
    | (with_reducible first | apply Kept.ite | apply State.set_kept)
    | split

theorem State.dmaStart_kept (h : Kept K F M L P C G z s) (r : Requester) (e c : Nat) : Kept K F M L P C G z (s.dmaStart r e c) := by
  unfold State.dmaStart
  repeat'
    first
    | (with_reducible assumption)
    | (with_reducible first | apply Kept.ite | apply State.raise_kept)
    | split

theorem State.chStop_kept (h : Kept K F M L P C G z s) (e c : Nat) : Kept K F M L P C G z (s.chStop e c) := by
  unfold State.chStop
  repeat'
    first
    | (with_reducible assumption)
    | (with_reducible first | apply Kept.ite | apply State.chHalt_kept | apply State.setChan_kept)
    | split

theorem State.dmaStop_kept (h : Kept K F M L P C G z s) (r : Requester) (e c : Nat) : Kept K F M L P C G z (s.dmaStop r e c) := by
  unfold State.dmaStop
  repeat'
    first
    | (with_reducible assumption)
    | (with_reducible first | apply Kept.ite | apply State.chStop_kept)
    | split

theorem State.dmaFreeze_kept (h : Kept K F M L P C G z s) (g : Nat) : Kept K F M L P C G z (s.dmaFreeze g) := by
  unfold State.dmaFreeze
  repeat'
    first
    | (with_reducible assumption)
    | (with_reducible first | apply Kept.ite | apply State.chStop_kept | apply State.each_kept | apply State.setChan_kept)
    | split
    | (intro t; intros; try dsimp only)

theorem State.dmaThaw_kept (h : Kept K F M L P C G z s) (g : Nat) : Kept K F M L P C G z (s.dmaThaw g) := by
  unfold State.dmaThaw
  repeat'
    first
    | (with_reducible assumption)
    | (with_reducible first | apply Kept.ite | apply State.each_kept | apply State.raise_kept | apply State.setChan_kept)
    | split
    | (intro t; intros; try dsimp only)

theorem State.dmaAbort_kept (h : Kept K F M L P C G z s) (g : Nat) : Kept K F M L P C G z (s.dmaAbort g) := by
  unfold State.dmaAbort
  repeat'
    first
    | (with_reducible assumption)
    | (with_reducible first | apply State.chHalt_kept | apply State.each_kept | apply State.jobEnd_kept | apply State.setChan_kept)
    | (intro t; intros; try dsimp only)

theorem State.dmaCntClr_kept (h : Kept K F M L P C G z s) (r : Requester) : Kept K F M L P C G z (s.dmaCntClr r) := by
  unfold State.dmaCntClr
  repeat'
    first
    | (with_reducible assumption)
    | (with_reducible first | apply Kept.ite | apply State.each_kept | apply State.lower_kept)
    | split
    | (intro t; intros; try dsimp only)

end Sys2Proof.Machine
end

