-- ==== Sys2Proof/Laws/KeptFreezeImage.lean ====
section
/-! SUPPORT. What the operations of FreezeImage.lean keep. -/

namespace Sys2Proof.Machine

variable {z s : State} {K F M L P C G : Prop}

theorem State.wakeRange_kept (h : Kept K F M L P C G z s) (a n : Nat) : Kept K F M L P C G z (s.wakeRange a n) := by
  unfold State.wakeRange
  repeat'
    first
    | (with_reducible assumption)
    | (with_reducible first | apply Kept.ite | apply State.each_kept | apply State.wakeNow_kept)
    | split
    | (intro t; intros; try dsimp only)

theorem State.imgWrite_kept (h : Kept False F M L P C G z s) (a : Nat) (bs : List Byte) : Kept False F M L P C G z (s.imgWrite a bs) := by
  unfold State.imgWrite
  repeat'
    first
    | (with_reducible assumption)
    | (with_reducible first | apply Kept.ite | apply State.unitWrite_kept | apply State.wakeRange_kept | apply State.wordPut_kept)
    | split

theorem State.loadTag_kept (h : Kept False F M L P C G z s) (i : Nat) (b : List Byte) : Kept False F M L P C G z (s.loadTag i b) := by
  unfold State.loadTag
  repeat'
    first
    | (with_reducible assumption)
    | (extract_lets +onlyGivenNames x; first | (refine (fun hx : Kept False F M L P C G z x => ?_) ?_; clear_value x; rotate_left; subst x) | clear_value x)
    | (with_reducible first | apply State.setRt_kept | apply State.wordPut_kept)

theorem State.loadTracked_kept (h : Kept False F M L P False False z s) (g : Nat) (b : List Byte) : Kept False F M L P False False z (s.loadTracked g b).2 := by
  unfold State.loadTracked
  repeat'
    first
    | (with_reducible assumption)
    | (extract_lets +onlyGivenNames x; first | (refine (fun hx : Kept False F M L P False False z x => ?_) ?_; clear_value x; rotate_left; subst x) | clear_value x)
    | (with_reducible first | apply Kept.ite_snd | apply Kept.ite | apply State.each_kept | apply State.fsAny_kept | apply State.imgWrite_kept | apply State.loadTag_kept | apply State.modCas_kept | apply State.modGrv_kept | apply State.set_kept | apply State.wordPut_kept)
    | split
    | (intro t; intros; try dsimp only)

theorem State.loadChannel_kept (h : Kept K F M L P C G z s) (e c : Nat) (b : List Byte) : Kept K F M L P C G z (s.loadChannel e c b) := by
  unfold State.loadChannel
  repeat'
    first
    | (with_reducible assumption)
    | (extract_lets +onlyGivenNames x; first | (refine (fun hx : Kept K F M L P C G z x => ?_) ?_; clear_value x; rotate_left; subst x) | clear_value x)
    | (with_reducible first | apply Kept.ite | apply State.setChan_kept | apply State.setEng_kept | apply State.setReg_kept)
    | split

theorem State.loadCore_kept (h : Kept False F M L P C G z s) (c : Nat) (b : List Byte) : Kept False F M L P C G z (s.loadCore c b) := by
  unfold State.loadCore
  repeat'
    first
    | (with_reducible assumption)
    | (extract_lets +onlyGivenNames x; first | (refine (fun hx : Kept False F M L P C G z x => ?_) ?_; clear_value x; rotate_left; subst x) | clear_value x)
    | (with_reducible first | apply State.each_kept | apply State.loadCtx_kept | apply State.modCore_kept | apply State.modFrame_kept | apply State.setStack_kept)
    | split
    | (intro t; intros; try dsimp only)

theorem State.loadFull_kept (h : Kept False F M L P False False z s) (g : Nat) (b : List Byte) : Kept False F M L P False False z (s.loadFull g b) := by
  unfold State.loadFull
  repeat'
    first
    | (with_reducible assumption)
    | (extract_lets +onlyGivenNames x; first | (refine (fun hx : Kept False F M L P False False z x => ?_) ?_; clear_value x; rotate_left; subst x) | (refine (fun hx : Kept False F M L P False False z x.2 => ?_) ?_; clear_value x; rotate_left; subst x) | clear_value x)
    | (with_reducible first | apply State.each_kept | apply State.imgWrite_kept | apply State.loadChannel_kept | apply State.loadCore_kept | apply State.loadTracked_kept | apply State.modGrv_kept | apply State.setReg_kept)
    | split
    | (intro t; intros; try dsimp only)
    | (with_reducible refine Kept.snd (by assumption) ?_)

theorem State.xferTag_kept (h : Kept K F M L P False G z s) (g : Nat) : Kept K F M L P False G z (s.xferTag g).2 := by
  unfold State.xferTag
  repeat'
    first
    | (with_reducible assumption)
    | (with_reducible first | apply State.drawn_kept | apply State.openTag_kept | apply State.transTake_kept)
    | split
    | (with_reducible refine Kept.snd (by assumption) ?_)

theorem State.xferSend_kept (h : Kept K F M L P False G z s) (g sub flags : Nat) (image : Option (List Byte)) : Kept K F M L P False G z (s.xferSend g sub flags image) := by
  unfold State.xferSend
  repeat'
    first
    | (with_reducible assumption)
    | (extract_lets +onlyGivenNames x; first | (refine (fun hx : Kept K F M L P False G z x => ?_) ?_; clear_value x; rotate_left; subst x) | clear_value x)
    | (with_reducible first | apply Kept.ite | apply State.each_kept | apply State.originate_kept | apply State.xferTag_kept)
    | split
    | (intro t; intros; try dsimp only)
    | (with_reducible refine Kept.snd (by assumption) ?_)

theorem State.xferTaken_kept (h : Kept K F M L P False G z s) (g : Nat) : Kept K F M L P False G z (s.xferTaken g) := by
  unfold State.xferTaken
  repeat'
    first
    | (with_reducible assumption)
    | (with_reducible first | apply State.originate_kept | apply State.xferTag_kept)
    | split
    | (with_reducible refine Kept.snd (by assumption) ?_)

end Sys2Proof.Machine
end

