-- ==== Sys2Proof/Laws/KeptGroves.lean ====
section
/-! SUPPORT. What the operations of Groves.lean keep. -/

namespace Sys2Proof.Machine

variable {z s : State} {K F M L P C G : Prop}

theorem State.cmdReport_kept (h : Kept K F M L P C G z s) (result detail : Nat) : Kept K F M L P C G z (s.cmdReport result detail) := by
  unfold State.cmdReport
  repeat'
    first
    | (with_reducible assumption)
    | (with_reducible first | apply State.pulse_kept | apply State.set_kept)

theorem State.cmdEnd_kept (h : Kept K F M L P C G z s) (result detail : Nat) : Kept K F M L P C G z (s.cmdEnd result detail) := by
  unfold State.cmdEnd
  repeat'
    first
    | (with_reducible assumption)
    | (with_reducible first | apply State.cmdReport_kept | apply State.lower_kept)
    | simp only [Kept.upd]

theorem State.cmdBegin_kept (h : Kept K F M L P C G z s) (c : GroveCmd) : Kept K F M L P C G z (s.cmdBegin c) := by
  unfold State.cmdBegin
  repeat'
    first
    | (with_reducible assumption)
    | (with_reducible apply State.raise_kept)
    | simp only [Kept.upd]

theorem State.cmdOk_kept (h : Kept K F M L P C G z s) (g : Nat) (ops : List Nat) : Kept K F M L P C G z (s.cmdOk g ops) := by
  unfold State.cmdOk
  repeat'
    first
    | (with_reducible assumption)
    | (with_reducible first | apply Kept.ite | apply State.cmdEnd_kept)
    | split

theorem State.unfreeze_kept (h : Kept K F M L P C False z s) (g : Nat) : Kept K F M L P C False z (s.unfreeze g) := by
  unfold State.unfreeze
  repeat'
    first
    | (with_reducible assumption)
    | (extract_lets +onlyGivenNames x; clear_value x)
    | (with_reducible first | apply State.dmaThaw_kept | apply State.iff_kept | apply State.modGrv_kept)
    | (intro t; intros; try dsimp only)

theorem State.abandon_kept (h : Kept K F M L P C False z s) (op : Nat) : Kept K F M L P C False z (s.abandon op) := by
  unfold State.abandon
  repeat'
    first
    | (with_reducible assumption)
    | (extract_lets +onlyGivenNames x; first | (refine (fun hx : Kept K F M L P C False z x => ?_) ?_; clear_value x; rotate_left; subst x) | clear_value x)
    | (with_reducible first | apply Kept.ite | apply State.cmdEnd_kept | apply State.modGrv_kept | apply State.unfreeze_kept)
    | split
    | (intro t; intros; try dsimp only)

theorem State.grvCmd_kept (h : Kept K F M L P C False z s) (r : Requester) (op g arg : Nat) (run : State → State) (hrun : ∀ t, Kept K F M L P C False z t → Kept K F M L P C False z (run t)) : Kept K F M L P C False z (s.grvCmd r op g arg run) := by
  unfold State.grvCmd
  repeat'
    first
    | (with_reducible assumption)
    | (extract_lets +onlyGivenNames x; clear_value x)
    | (with_reducible first | apply Kept.ite | apply State.abandon_kept | apply State.cmdReport_kept | apply hrun)
    | split

theorem State.showFree_kept (h : Kept K F M L P C G z s)  : Kept K F M L P C G z (s.showFree) := by
  unfold State.showFree
  repeat'
    first
    | (with_reducible assumption)
    | (extract_lets +onlyGivenNames x; first | (refine (fun hx : Kept K F M L P C G z x => ?_) ?_; clear_value x; rotate_left; subst x) | clear_value x)
    | (with_reducible first | apply State.each_kept | apply State.set_kept | apply foldl_kept | apply foldl_pair_kept)
    | (intro t; intros; try dsimp only)

theorem State.showGrove_kept (h : Kept K F M L P C G z s) (g st : Nat) : Kept K F M L P C G z (s.showGrove g st) := by
  unfold State.showGrove
  repeat'
    first
    | (with_reducible assumption)
    | (extract_lets +onlyGivenNames x; first | (refine (fun hx : Kept K F M L P C G z x => ?_) ?_; clear_value x; rotate_left; subst x) | clear_value x)
    | (with_reducible first | apply State.set_kept | apply State.setGstate_kept)

theorem State.install_kept (h : Kept K F M False P C False z s) (g : Nat) (n : NewGrove) : Kept K F M False P C False z (s.install g n) := by
  unfold State.install
  repeat'
    first
    | (with_reducible assumption)
    | (extract_lets +onlyGivenNames x; first | (refine (fun hx : Kept K F M False P C False z x => ?_) ?_; clear_value x; rotate_left; subst x) | clear_value x)
    | (with_reducible first | apply State.each_kept | apply State.modFrame_kept | apply State.modLoop_kept | apply State.setGrv_kept | apply State.setReg_kept | apply State.showGrove_kept)
    | (intro t; intros; try dsimp only)

theorem State.create_kept (h : Kept K F M False P C False z s) (r : Requester) (g : Nat) : Kept K F M False P C False z (s.create r g) := by
  unfold State.create
  repeat'
    first
    | (with_reducible assumption)
    | (extract_lets +onlyGivenNames x; first | (refine (fun hx : Kept K F M False P C False z x => ?_) ?_; clear_value x; rotate_left; subst x) | clear_value x)
    | (with_reducible first | apply Kept.ite | apply State.cmdReport_kept | apply State.install_kept | apply State.showFree_kept | apply State.unitRead_kept)
    | split
    | (with_reducible refine Kept.snd (by assumption) ?_)

theorem State.squashReads_kept (h : Kept K F M L P C G z s) (c : Nat) : Kept K F M L P C G z (s.squashReads c) := by
  unfold State.squashReads
  repeat'
    first
    | (with_reducible assumption)
    | (extract_lets +onlyGivenNames x; clear_value x)
    | (with_reducible first | apply Kept.ite | apply State.modCoh_kept)
    | split
    | (intro t; intros; try dsimp only)

theorem State.stopCore_kept (h : Kept K F M L P C G z s) (c : Nat) : Kept K F M L P C G z (s.stopCore c) := by
  unfold State.stopCore
  repeat'
    first
    | (with_reducible assumption)
    | (with_reducible first | apply Kept.ite | apply State.modCore_kept | apply State.pmcAccrue_kept | apply State.squashReads_kept)
    | split
    | (intro t; intros; try dsimp only)

theorem State.stopLane_kept (h : Kept K F M False P C G z s) (l : Nat) : Kept K F M False P C G z (s.stopLane l) := by
  unfold State.stopLane
  repeat'
    first
    | (with_reducible assumption)
    | (extract_lets +onlyGivenNames x; first | (refine (fun hx : Kept K F M False P C G z x => ?_) ?_; clear_value x; rotate_left; subst x) | clear_value x)
    | (with_reducible first | apply Kept.ite | apply State.callClear_kept | apply State.laneShow_kept | apply State.setLane_kept)
    | split
    | (intro t; intros; try dsimp only)

theorem State.drainHost_kept (h : Kept K F M L P C G z s) (g : Nat) : Kept K F M L P C G z (s.drainHost g) := by
  unfold State.drainHost
  repeat'
    first
    | (with_reducible assumption)
    | (extract_lets +onlyGivenNames x; first | (refine (fun hx : Kept K F M L P C G z x => ?_) ?_; clear_value x; rotate_left; subst x) | clear_value x)
    | (with_reducible first | apply Kept.ite | apply State.each_kept | apply State.lower_kept | apply State.modPci_kept)
    | split
    | (intro t; intros; try dsimp only)

theorem State.drain_kept (h : Kept K F M False False False False z s) (g : Nat) (destroy : Bool) : Kept K F M False False False False z (s.drain g destroy) := by
  unfold State.drain
  repeat'
    first
    | (with_reducible assumption)
    | (extract_lets +onlyGivenNames x; first | (refine (fun hx : Kept K F M False False False False z x => ?_) ?_; clear_value x; rotate_left; subst x) | clear_value x)
    | (with_reducible first | apply Kept.ite | apply State.dmaAbort_kept | apply State.drainHost_kept | apply State.each_kept | apply State.endTemplates_kept | apply State.lower_kept | apply State.modCas_kept | apply State.modGrv_kept | apply State.modLoop_kept | apply State.setGstate_kept | apply State.stopCore_kept | apply State.stopLane_kept | apply State.tuneShow_kept)
    | split
    | (intro t; intros; try dsimp only)

theorem State.drainComplete_kept (h : Kept K F M L P C G z s) (g : Nat) : Kept K F M L P C G z (s.drainComplete g) := by
  unfold State.drainComplete
  repeat'
    first
    | (with_reducible assumption)
    | (with_reducible first | apply Kept.ite | apply State.cmdOk_kept | apply State.setGstate_kept)
    | split

theorem State.zeroMemory_kept (h : Kept False F M L P C G z s) (ranges : List (Nat × Nat)) : Kept False F M L P C G z (s.zeroMemory ranges) := by
  unfold State.zeroMemory
  repeat'
    first
    | (with_reducible assumption)
    | (extract_lets +onlyGivenNames x; first | (refine (fun hx : Kept False F M L P C G z x => ?_) ?_; clear_value x; rotate_left; subst x) | clear_value x)
    | (with_reducible first | apply State.clearMem_kept | apply State.dropOthers_kept | apply State.each_kept | apply State.modCoh_kept | apply State.wakeRange_kept)
    | (intro t; intros; try dsimp only)

theorem State.resetTag_kept (h : Kept False F M L P C G z s) (i : Nat) : Kept False F M L P C G z (s.resetTag i) := by
  unfold State.resetTag
  repeat'
    first
    | (with_reducible assumption)
    | (extract_lets +onlyGivenNames x; first | (refine (fun hx : Kept False F M L P C G z x => ?_) ?_; clear_value x; rotate_left; subst x) | clear_value x)
    | (with_reducible first | apply Kept.ite | apply State.clearSlot_kept | apply State.setRt_kept | apply State.wordPut_kept)
    | split

theorem State.resetInstances_kept (h : Kept False F M L P C G z s) (g : Nat) : Kept False F M L P C G z (s.resetInstances g) := by
  unfold State.resetInstances
  repeat'
    first
    | (with_reducible assumption)
    | (extract_lets +onlyGivenNames x; first | (refine (fun hx : Kept False F M L P C G z x => ?_) ?_; clear_value x; rotate_left; subst x) | clear_value x)
    | (with_reducible first | apply State.each_kept | apply State.exchPut_kept | apply State.wordPut_kept)
    | (intro t; intros; try dsimp only)

theorem State.resetSources_kept (h : Kept K F M L P C G z s) (g : Nat) : Kept K F M L P C G z (s.resetSources g) := by
  unfold State.resetSources
  repeat'
    first
    | (with_reducible assumption)
    | (extract_lets +onlyGivenNames x; first | (refine (fun hx : Kept K F M L P C G z x => ?_) ?_; clear_value x; rotate_left; subst x) | clear_value x)
    | (with_reducible first | apply State.each_kept | apply State.lower_kept | apply State.set_kept | apply State.setStack_kept)
    | (intro t; intros; try dsimp only)

theorem State.dropRecords_kept (h : Kept K F M L False False G z s) (g : Nat) : Kept K F M L False False G z (s.dropRecords g) := by
  unfold State.dropRecords
  repeat'
    first
    | (with_reducible assumption)
    | (extract_lets +onlyGivenNames x; first | (refine (fun hx : Kept K F M L False False G z x => ?_) ?_; clear_value x; rotate_left; subst x) | clear_value x)
    | (with_reducible first | apply Kept.ite | apply State.modCas_kept | apply State.modField_kept)
    | split
    | (intro t; intros; try dsimp only)

theorem State.releasePorts_kept (h : Kept False F M False False C G z s) (g : Nat) : Kept False F M False False C G z (s.releasePorts g) := by
  unfold State.releasePorts
  repeat'
    first
    | (with_reducible assumption)
    | (extract_lets +onlyGivenNames x; first | (refine (fun hx : Kept False F M False False C G z x => ?_) ?_; clear_value x; rotate_left; subst x) | clear_value x)
    | (with_reducible first | apply Kept.ite | apply State.count_kept | apply State.each_kept | apply State.fieldLinkDown_kept | apply State.modPort_kept)
    | split
    | (intro t; intros; try dsimp only)

theorem State.release_kept (h : Kept False F M False False False False z s) (g : Nat) : Kept False F M False False False False z (s.release g) := by
  unfold State.release
  repeat'
    first
    | (with_reducible assumption)
    | (extract_lets +onlyGivenNames x; first | (refine (fun hx : Kept False F M False False False False z x => ?_) ?_; clear_value x; rotate_left; subst x) | clear_value x)
    | (with_reducible first | apply Kept.ite | apply State.dropRecords_kept | apply State.each_kept | apply State.modCore_kept | apply State.modFrame_kept | apply State.modLoop_kept | apply State.releasePorts_kept | apply State.setReg_kept | apply State.setRt_kept | apply State.showFree_kept | apply State.wordPut_kept)
    | split
    | (intro t; intros; try dsimp only)
    | simp only [Kept.updGroves]

theorem State.clearingComplete_kept (h : Kept False F M False False False False z s) (g : Nat) : Kept False F M False False False False z (s.clearingComplete g) := by
  unfold State.clearingComplete
  repeat'
    first
    | (with_reducible assumption)
    | (extract_lets +onlyGivenNames x; first | (refine (fun hx : Kept False F M False False False False z x => ?_) ?_; clear_value x; rotate_left; subst x) | clear_value x)
    | (with_reducible first | apply Kept.ite | apply State.each_kept | apply State.enterFailsafe_kept | apply State.lower_kept | apply State.modFrame_kept | apply State.release_kept | apply State.resetInstances_kept | apply State.resetSources_kept | apply State.resetTag_kept | apply State.set_kept | apply State.setGstate_kept | apply State.setReg_kept | apply State.zeroMemory_kept)
    | split
    | (intro t; intros; try dsimp only)

theorem State.freezeAccept_kept (h : Kept K F M L P C False z s) (g arg : Nat) : Kept K F M L P C False z (s.freezeAccept g arg) := by
  unfold State.freezeAccept
  repeat'
    first
    | (with_reducible assumption)
    | (with_reducible first | apply Kept.ite | apply State.cmdBegin_kept | apply State.modGrv_kept)
    | split
    | (intro t; intros; try dsimp only)

theorem State.freezePoint_kept (h : Kept K F M L P C False z s) (g : Nat) : Kept K F M L P C False z (s.freezePoint g) := by
  unfold State.freezePoint
  repeat'
    first
    | (with_reducible assumption)
    | (extract_lets +onlyGivenNames x; clear_value x)
    | (with_reducible first | apply Kept.ite | apply State.dmaFreeze_kept | apply State.modGrv_kept)
    | split
    | (intro t; intros; try dsimp only)

theorem State.freezeComplete_kept (h : Kept False F M L P C False z s) (g : Nat) : Kept False F M L P C False z (s.freezeComplete g) := by
  unfold State.freezeComplete
  repeat'
    first
    | (with_reducible assumption)
    | (extract_lets +onlyGivenNames x; first | (refine (fun hx : Kept False F M L P C False z x => ?_) ?_; clear_value x; rotate_left; subst x) | clear_value x)
    | (with_reducible first | apply Kept.ite | apply State.cmdOk_kept | apply State.each_kept | apply State.modGrv_kept | apply State.saveCtx_kept | apply State.set_kept | apply State.setGstate_kept)
    | split
    | (intro t; intros; try dsimp only)

theorem State.saveAccept_kept (h : Kept K F M L P C G z s) (r : Requester) (g arg : Nat) : Kept K F M L P C G z (s.saveAccept r g arg) := by
  unfold State.saveAccept
  repeat'
    first
    | (with_reducible assumption)
    | (extract_lets +onlyGivenNames x; clear_value x)
    | (with_reducible first | apply Kept.ite | apply State.cmdBegin_kept | apply State.cmdReport_kept)
    | split
    | (intro t; intros; try dsimp only)

theorem State.wakeImage_kept (h : Kept K F M L P C G z s) (g : Nat) : Kept K F M L P C G z (s.wakeImage g) := by
  unfold State.wakeImage
  repeat'
    first
    | (with_reducible assumption)
    | (extract_lets +onlyGivenNames x; clear_value x)
    | (with_reducible first | apply State.each_kept | apply State.wakeRange_kept)
    | (intro t; intros; try dsimp only)

theorem State.saveComplete_kept (h : Kept False F M L P False G z s) (g : Nat) (fail : Nat) : Kept False F M L P False G z (s.saveComplete g fail) := by
  unfold State.saveComplete
  repeat'
    first
    | (with_reducible assumption)
    | (extract_lets +onlyGivenNames x; first | (refine (fun hx : Kept False F M L P False G z x => ?_) ?_; clear_value x; rotate_left; subst x) | clear_value x)
    | (with_reducible first | apply Kept.ite | apply State.cmdEnd_kept | apply State.imgWrite_kept | apply State.wakeImage_kept | apply State.xferSend_kept)
    | split

theorem State.restore_kept (h : Kept False F M L P False False z s) (r : Requester) (g : Nat) : Kept False F M L P False False z (s.restore r g) := by
  unfold State.restore
  repeat'
    first
    | (with_reducible assumption)
    | (extract_lets +onlyGivenNames x; clear_value x)
    | (with_reducible first | apply Kept.ite | apply State.cmdReport_kept | apply State.loadFull_kept | apply State.setGstate_kept | apply State.unitRead_kept)
    | split
    | (with_reducible refine Kept.snd (by assumption) ?_)

theorem State.pairBell_kept (h : Kept K F M L P C G z s) (g : Nat) : Kept K F M L P C G z (s.pairBell g) := by
  unfold State.pairBell
  repeat'
    first
    | (with_reducible assumption)
    | (with_reducible apply State.pulse_kept)

theorem State.switchAccept_kept (h : Kept K F M L P C False z s) (g : Nat) : Kept K F M L P C False z (s.switchAccept g) := by
  unfold State.switchAccept
  repeat'
    first
    | (with_reducible assumption)
    | (with_reducible first | apply Kept.ite | apply State.cmdBegin_kept | apply State.cmdReport_kept | apply State.modGrv_kept)
    | split
    | (intro t; intros; try dsimp only)

theorem State.track_kept (h : Kept K F M L P False False z s) (g : Nat) (overrun : Bool) : Kept K F M L P False False z (s.track g overrun) := by
  unfold State.track
  repeat'
    first
    | (with_reducible assumption)
    | (extract_lets +onlyGivenNames x; first | (refine (fun hx : Kept K F M L P False False z x => ?_) ?_; clear_value x; rotate_left; subst x) | clear_value x)
    | (with_reducible first | apply Kept.ite | apply State.ask_kept | apply State.modGrv_kept | apply State.wakeRange_kept | apply State.xferSend_kept)
    | split
    | (intro t; intros; try dsimp only)

theorem State.freshTasks_kept (h : Kept K F M L P C G z s) (g : Nat) : Kept K F M L P C G z (s.freshTasks g) := by
  unfold State.freshTasks
  repeat'
    first
    | (with_reducible assumption)
    | (extract_lets +onlyGivenNames x; first | (refine (fun hx : Kept K F M L P C G z x => ?_) ?_; clear_value x; rotate_left; subst x) | clear_value x)
    | (with_reducible first | apply Kept.ite | apply State.each_kept | apply State.modCore_kept | apply State.modFrame_kept)
    | split
    | (intro t; intros; try dsimp only)

theorem State.takeover_kept (h : Kept K F M L P False False z s) (g : Nat) : Kept K F M L P False False z (s.takeover g) := by
  unfold State.takeover
  repeat'
    first
    | (with_reducible assumption)
    | (extract_lets +onlyGivenNames x; first | (refine (fun hx : Kept K F M L P False False z x => ?_) ?_; clear_value x; rotate_left; subst x) | clear_value x)
    | (with_reducible first | apply State.cmdOk_kept | apply State.freshTasks_kept | apply State.modGrv_kept | apply State.pairBell_kept | apply State.raise_kept | apply State.set_kept | apply State.setGstate_kept | apply State.xferTaken_kept)
    | (intro t; intros; try dsimp only)
    | (with_reducible refine OptKept.of (by assumption) ?_)

theorem State.depose_kept (h : Kept K F M L P C False z s) (g : Nat) (switch : Bool) : Kept K F M L P C False z (s.depose g switch) := by
  unfold State.depose
  repeat'
    first
    | (with_reducible assumption)
    | (extract_lets +onlyGivenNames x; first | (refine (fun hx : Kept K F M L P C False z x => ?_) ?_; clear_value x; rotate_left; subst x) | clear_value x)
    | (with_reducible first | apply State.cmdOk_kept | apply State.lower_kept | apply State.modGrv_kept | apply State.pairBell_kept | apply State.raise_kept | apply State.set_kept | apply State.setGstate_kept)
    | (intro t; intros; try dsimp only)

theorem State.xferBegin_kept (h : Kept K F M L P C False z s) (g : Nat) : Kept K F M L P C False z (s.xferBegin g) := by
  unfold State.xferBegin
  repeat'
    first
    | (with_reducible assumption)
    | (extract_lets +onlyGivenNames x; clear_value x)
    | (with_reducible first | apply Kept.ite | apply State.modGrv_kept)
    | split
    | (intro t; intros; try dsimp only)

theorem State.xferFrame_kept (h : Kept False F M L P C False z s) (g off : Nat) (body : List Byte) : Kept False F M L P C False z (s.xferFrame g off body) := by
  unfold State.xferFrame
  repeat'
    first
    | (with_reducible assumption)
    | (extract_lets +onlyGivenNames x; first | (refine (fun hx : Kept False F M L P C False z x => ?_) ?_; clear_value x; rotate_left; subst x) | clear_value x)
    | (with_reducible first | apply Kept.ite | apply State.imgWrite_kept | apply State.modGrv_kept | apply State.xferBegin_kept)
    | split
    | (intro t; intros; try dsimp only)

theorem State.xferResolve_kept (h : Kept K F M L P C False z s) (g flags src : Nat) : Kept K F M L P C False z (s.xferResolve g flags src) := by
  unfold State.xferResolve
  repeat'
    first
    | (with_reducible assumption)
    | (extract_lets +onlyGivenNames x; clear_value x)
    | (with_reducible first | apply Kept.ite | apply State.depose_kept | apply State.modGrv_kept)
    | split
    | (intro t; intros; try dsimp only)

theorem State.xferLoad_kept (h : Kept False F M L P False False z s) (g size crc : Nat) : Kept False F M L P False False z (s.xferLoad g size crc) := by
  unfold State.xferLoad
  repeat'
    first
    | (with_reducible assumption)
    | (extract_lets +onlyGivenNames x; first | (refine (fun hx : Kept False F M L P False False z x => ?_) ?_; clear_value x; rotate_left; subst x) | clear_value x)
    | (with_reducible first | apply Kept.ite | apply State.inc_kept | apply State.loadFull_kept | apply State.modGrv_kept | apply State.setGstate_kept)
    | split
    | (intro t; intros; try dsimp only)

theorem State.xferIn_kept (h : Kept False F M L P False False z s) (c : List Byte) : Kept False F M L P False False z (s.xferIn c) := by
  unfold State.xferIn
  repeat'
    first
    | (with_reducible assumption)
    | (extract_lets +onlyGivenNames x; first | (refine (fun hx : Kept False F M L P False False z x => ?_) ?_; clear_value x; rotate_left; subst x) | clear_value x)
    | (with_reducible first | apply Kept.ite | apply State.depose_kept | apply State.modGrv_kept | apply State.originate_kept | apply State.xferBegin_kept | apply State.xferFrame_kept | apply State.xferLoad_kept | apply State.xferResolve_kept)
    | split
    | (intro t; intros; try dsimp only)

theorem State.trackLost_kept (h : Kept K F M L P C G z s) (g : Nat) (mismatch : Bool) : Kept K F M L P C G z (s.trackLost g mismatch) := by
  unfold State.trackLost
  repeat'
    first
    | (with_reducible assumption)
    | (with_reducible first | apply State.inc_kept | apply State.raise_kept | apply State.setIf_kept)

theorem State.trackTick_kept (h : Kept False F M L P False False z s) (g j : Nat) : Kept False F M L P False False z (s.trackTick g j) := by
  unfold State.trackTick
  repeat'
    first
    | (with_reducible assumption)
    | (extract_lets +onlyGivenNames x; first | (refine (fun hx : Kept False F M L P False False z x => ?_) ?_; clear_value x; rotate_left; subst x) | (refine (fun hx : Kept False F M L P False False z x.2 => ?_) ?_; clear_value x; rotate_left; subst x) | clear_value x)
    | (with_reducible first | apply Kept.ite | apply State.loadTracked_kept | apply State.modGrv_kept | apply State.takeover_kept | apply State.trackLost_kept | apply State.unitRead_kept)
    | split
    | (intro t; intros; try dsimp only)
    | (with_reducible refine Kept.snd (by assumption) ?_)

theorem State.applyComplete_kept (h : Kept K F M L P C False z s) (g : Nat) : Kept K F M L P C False z (s.applyComplete g) := by
  unfold State.applyComplete
  repeat'
    first
    | (with_reducible assumption)
    | (with_reducible first | apply Kept.ite | apply State.modGrv_kept | apply State.setIf_kept)
    | split
    | (intro t; intros; try dsimp only)

theorem State.ackTick_kept (h : Kept K F M L P C False z s) (g m : Nat) : Kept K F M L P C False z (s.ackTick g m) := by
  unfold State.ackTick
  repeat'
    first
    | (with_reducible assumption)
    | (with_reducible first | apply Kept.ite | apply State.modGrv_kept)
    | split
    | (intro t; intros; try dsimp only)

theorem State.partnerLost_kept (h : Kept K F M L P C G z s) (g : Nat) : Kept K F M L P C G z (s.partnerLost g) := by
  unfold State.partnerLost
  repeat'
    first
    | (with_reducible assumption)
    | (with_reducible first | apply Kept.ite | apply State.pairBell_kept | apply State.raise_kept)
    | split

theorem State.tickAsk_kept (h : Kept False F M L P False False z s) (g : Nat) : Kept False F M L P False False z (s.tickAsk g) := by
  unfold State.tickAsk
  repeat'
    first
    | (with_reducible assumption)
    | (extract_lets +onlyGivenNames x; first | (refine (fun hx : Kept False F M L P False False z x => ?_) ?_; clear_value x; rotate_left; subst x) | clear_value x)
    | (with_reducible first | apply State.ask_kept | apply State.bootGrove_kept | apply State.cmdOk_kept | apply State.depose_kept | apply State.dmaThaw_kept | apply State.freshTasks_kept | apply State.lower_kept | apply State.modGrv_kept | apply State.promote_kept | apply State.setGstate_kept | apply State.takeover_kept)
    | split
    | (intro t; intros; try dsimp only)

theorem State.askTick_kept (h : Kept K F M L P C False z s) (op g : Nat) (ask : TickAsk) : Kept K F M L P C False z (s.askTick op g ask) := by
  unfold State.askTick
  repeat'
    first
    | (with_reducible assumption)
    | (with_reducible first | apply State.cmdBegin_kept | apply State.modGrv_kept)
    | (intro t; intros; try dsimp only)

theorem State.fwWrite_kept (h : Kept K F M L P C False z s) (r : Requester) (g i v : Nat) : Kept K F M L P C False z (s.fwWrite r g i v) := by
  unfold State.fwWrite
  repeat'
    first
    | (with_reducible assumption)
    | (extract_lets +onlyGivenNames x; first | (refine (fun hx : Kept K F M L P C False z x => ?_) ?_; clear_value x; rotate_left; subst x) | clear_value x)
    | (with_reducible first | apply Kept.ite | apply State.modCoh_kept | apply State.modGrv_kept | apply State.setReg_kept)
    | split
    | (intro t; intros; try dsimp only)
    | (with_reducible refine Kept.snd (by assumption) ?_)

end Sys2Proof.Machine
end

