-- ==== Sys2Proof/Laws/KeptCascadeRows.lean ====
section
/-! SUPPORT. What the operations of CascadeRows.lean keep. -/

namespace Sys2Proof.Machine

variable {z s : State} {K F M L P C G : Prop}

theorem State.reqIn_kept (h : Kept False F M L P False False z s) (c : List Byte) : Kept False F M L P False False z (s.reqIn c) := by
  unfold State.reqIn
  repeat'
    first
    | (with_reducible assumption)
    | (extract_lets +onlyGivenNames x; first | (refine (fun hx : Kept False F M L P False False z x.2 => ?_) ?_; clear_value x; rotate_left; subst x) | clear_value x)
    | (with_reducible first | apply Kept.ite | apply State.originate_kept | apply State.reqRing_kept | apply State.xferIn_kept)
    | split
    | (with_reducible refine Kept.snd (by assumption) ?_)

theorem State.unexpired_kept (h : Kept K F M L P C G z s) (c : List Byte) (f : State → State) (hf : ∀ t, Kept K F M L P C G z t → Kept K F M L P C G z (f t)) : Kept K F M L P C G z (s.unexpired c f) := by
  unfold State.unexpired
  repeat'
    first
    | (with_reducible assumption)
    | (with_reducible first | apply Kept.ite | apply State.inc_kept | apply hf)
    | split

theorem State.deliver_kept (h : Kept False F M L P False False z s) (c : List Byte) : Kept False F M L P False False z (s.deliver c) := by
  unfold State.deliver
  repeat'
    first
    | (with_reducible assumption)
    | (extract_lets +onlyGivenNames x; clear_value x)
    | (with_reducible first | apply Kept.ite | apply State.dataIn_kept | apply State.reqIn_kept | apply State.rspTake_kept)
    | split

theorem State.forward_kept (h : Kept False F M L P False False z s) (p : Nat) (c : List Byte) : Kept False F M L P False False z (s.forward p c) := by
  unfold State.forward
  repeat'
    first
    | (with_reducible assumption)
    | (with_reducible first | apply State.cellTaken_kept | apply State.deliver_kept | apply State.noRoute_kept | apply State.queueCell_kept)
    | split

theorem State.linkCell_kept (h : Kept K F False L P False G z s) (p : Nat) (c : List Byte) (rx : Nat) : Kept K F False L P False G z (s.linkCell p c rx) := by
  unfold State.linkCell
  repeat'
    first
    | (with_reducible assumption)
    | (extract_lets +onlyGivenNames x; clear_value x)
    | (with_reducible first | apply State.beatIn_kept | apply State.chunkIn_kept | apply State.closeIn_kept | apply State.confirmIn_kept | apply State.diagReqIn_kept | apply State.diagRspIn_kept | apply State.dreqIn_kept | apply State.drspIn_kept | apply State.helloIn_kept)
    | split

theorem State.linkReceive_kept (h : Kept False F False L P False False z s) (p : Nat) (f : LinkFrame) : Kept False F False L P False False z (s.linkReceive p f) := by
  unfold State.linkReceive
  repeat'
    first
    | (with_reducible assumption)
    | (extract_lets +onlyGivenNames x; clear_value x)
    | (with_reducible first | apply Kept.ite | apply State.cellTaken_kept | apply State.forward_kept | apply State.gap_kept | apply State.inc_kept | apply State.linkAccept_kept | apply State.linkCell_kept)
    | split
    | (with_reducible refine Kept.snd (by assumption) ?_)

end Sys2Proof.Machine
end

