-- ==== Sys2Proof/Laws/KeptDmaRows.lean ====
section
/-! SUPPORT. What the operations of DmaRows.lean keep. -/

namespace Sys2Proof.Machine

variable {z s : State} {K F M L P C G : Prop}

theorem State.targetError_kept (h : Kept K F M L P C G z s) (e a : Nat) (wr desc failed : Bool) (ch : Option Nat) : Kept K F M L P C G z (s.targetError e a wr desc failed ch) := by
  unfold State.targetError
  repeat'
    first
    | (with_reducible assumption)
    | (with_reducible first | apply Kept.ite | apply State.engError_kept)
    | split

end Sys2Proof.Machine
end

