-- ==== Sys2Proof/Laws/KeptSprint.lean ====
section
/-! SUPPORT. What the operations of Sprint.lean keep. -/

namespace Sys2Proof.Machine

variable {z s : State} {K F M L P C G : Prop}

theorem State.modPower_kept (h : Kept K F M L P C G z s) (f : PowerSt → PowerSt) : Kept K F M L P C G z (s.modPower f) := by
  unfold State.modPower
  repeat'
    first
    | (with_reducible assumption)
    | simp only [Kept.upd]

theorem State.sprintBell_kept (h : Kept K F M L P C G z s)  : Kept K F M L P C G z (s.sprintBell) := by
  unfold State.sprintBell
  repeat'
    first
    | (with_reducible assumption)
    | (with_reducible apply State.pulse_kept)

theorem State.sprintCap_kept (h : Kept K F M L P C G z s)  : Kept K F M L P C G z (s.sprintCap) := by
  unfold State.sprintCap
  repeat'
    first
    | (with_reducible assumption)
    | (with_reducible first | apply Kept.ite | apply State.raise_kept)
    | split

theorem State.sprintGrant_kept (h : Kept K F M L P C G z s)  : Kept K F M L P C G z (s.sprintGrant) := by
  unfold State.sprintGrant
  repeat'
    first
    | (with_reducible assumption)
    | (extract_lets +onlyGivenNames x; first | (refine (fun hx : Kept K F M L P C G z x => ?_) ?_; clear_value x; rotate_left; subst x) | clear_value x)
    | (with_reducible first | apply State.lower_kept | apply State.modPower_kept | apply State.raise_kept | apply State.set_kept | apply State.sprintBell_kept | apply State.sprintCap_kept)
    | (intro t; intros; try dsimp only)
    | (with_reducible refine OptKept.of (by assumption) ?_)

theorem State.sprintEnd_kept (h : Kept K F M L P C G z s) (t0 : Nat) : Kept K F M L P C G z (s.sprintEnd t0) := by
  unfold State.sprintEnd
  repeat'
    first
    | (with_reducible assumption)
    | (extract_lets +onlyGivenNames x; first | (refine (fun hx : Kept K F M L P C G z x => ?_) ?_; clear_value x; rotate_left; subst x) | clear_value x)
    | (with_reducible first | apply State.lower_kept | apply State.modPower_kept | apply State.raise_kept | apply State.set_kept | apply State.sprintBell_kept)
    | (intro t; intros; try dsimp only)

theorem State.coolEnd_kept (h : Kept K F M L P C G z s)  : Kept K F M L P C G z (s.coolEnd) := by
  unfold State.coolEnd
  repeat'
    first
    | (with_reducible assumption)
    | (with_reducible first | apply Kept.ite | apply State.atTime_kept | apply State.lower_kept)
    | split

theorem State.sprintTick_kept (h : Kept K F M L P C G z s) (t period : Nat) : Kept K F M L P C G z (s.sprintTick t period) := by
  unfold State.sprintTick
  repeat'
    first
    | (with_reducible assumption)
    | (extract_lets +onlyGivenNames x; first | (refine (fun hx : Kept K F M L P C G z x => ?_) ?_; clear_value x; rotate_left; subst x) | clear_value x)
    | (with_reducible first | apply Kept.ite | apply State.lower_kept | apply State.set_kept | apply State.sprintEnd_kept | apply State.sprintGrant_kept)
    | split

end Sys2Proof.Machine
end

