-- ==== Sys2Proof/Laws/KeptFrame.lean ====
section
/-! SUPPORT. What the operations of Frame.lean keep. -/

namespace Sys2Proof.Machine

variable {z s : State} {K F M L P C G : Prop}

theorem State.closeCompute_kept (h : Kept False F M False P C False z s) (g : Nat) : Kept False F M False P C False z (s.closeCompute g) := by
  unfold State.closeCompute
  repeat'
    first
    | (with_reducible assumption)
    | (with_reducible first | apply State.applyTune_kept | apply State.modGrv_kept)
    | (intro t; intros; try dsimp only)

theorem State.computeCheck_kept (h : Kept False F M False False False False z s) (g : Nat) : Kept False F M False False False False z (s.computeCheck g) := by
  unfold State.computeCheck
  repeat'
    first
    | (with_reducible assumption)
    | (extract_lets +onlyGivenNames x; first | (refine (fun hx : Kept False F M False False False False z x => ?_) ?_; clear_value x; rotate_left; subst x) | clear_value x)
    | (with_reducible first | apply Kept.ite | apply State.closeCompute_kept | apply State.modGrv_kept | apply State.stageSplices_kept | apply State.stageTemplates_kept)
    | split
    | (intro t; intros; try dsimp only)
    | (with_reducible refine OptKept.of (by assumption) ?_)

theorem State.suspend_kept (h : Kept K F M L P C G z s) (c : Nat) : Kept K F M L P C G z (s.suspend c) := by
  unfold State.suspend
  repeat'
    first
    | (with_reducible assumption)
    | (with_reducible first | apply Kept.ite | apply State.modCore_kept | apply State.pmcAccrue_kept)
    | split
    | (intro t; intros; try dsimp only)

theorem State.resumeCtx_kept (h : Kept K F M L P C G z s) (c : Nat) : Kept K F M L P C G z (s.resumeCtx c) := by
  unfold State.resumeCtx
  repeat'
    first
    | (with_reducible assumption)
    | (extract_lets +onlyGivenNames x; first | (refine (fun hx : Kept K F M L P C G z x => ?_) ?_; clear_value x; rotate_left; subst x) | clear_value x)
    | (with_reducible first | apply State.flushPredictor_kept | apply State.iff_kept | apply State.modCore_kept | apply State.pmcAccrue_kept)
    | split
    | (intro t; intros; try dsimp only)

theorem State.dispatch_kept (h : Kept False F M L P C G z s) (c i : Nat) (t : Task) : Kept False F M L P C G z (s.dispatch c i t) := by
  unfold State.dispatch
  repeat'
    first
    | (with_reducible assumption)
    | (extract_lets +onlyGivenNames x; first | (refine (fun hx : Kept False F M L P C G z x => ?_) ?_; clear_value x; rotate_left; subst x) | clear_value x)
    | (with_reducible first | apply Kept.ite | apply State.loadCtx_kept | apply State.modCore_kept | apply State.modFrame_kept | apply State.setPc_kept | apply State.setX_kept | apply State.suspend_kept)
    | split
    | (intro t; intros; try dsimp only)

theorem State.nextWork_kept (h : Kept False F M L P C G z s) (c : Nat) : Kept False F M L P C G z (s.nextWork c) := by
  unfold State.nextWork
  repeat'
    first
    | (with_reducible assumption)
    | (with_reducible first | apply Kept.ite | apply State.dispatch_kept | apply State.resumeCtx_kept)
    | split
    | (with_reducible refine Kept.snd (by assumption) ?_)

theorem State.saveTask_kept (h : Kept False F M L P C G z s) (c : Nat) : Kept False F M L P C G z (s.saveTask c) := by
  unfold State.saveTask
  repeat'
    first
    | (with_reducible assumption)
    | (with_reducible apply State.saveCtx_kept)

theorem State.budgetOut_kept (h : Kept False F M L P C G z s) (c i : Nat) (t : Task) : Kept False F M L P C G z (s.budgetOut c i t) := by
  unfold State.budgetOut
  repeat'
    first
    | (with_reducible assumption)
    | (extract_lets +onlyGivenNames x; first | (refine (fun hx : Kept False F M L P C G z x => ?_) ?_; clear_value x; rotate_left; subst x) | clear_value x)
    | (with_reducible first | apply State.atTime_kept | apply State.dispatch_kept | apply State.modFrame_kept | apply State.raise_kept | apply State.saveTask_kept)
    | (intro t; intros; try dsimp only)

theorem State.budgetExpiry_kept (h : Kept False F M L P C G z s) (c : Nat) : Kept False F M L P C G z (s.budgetExpiry c) := by
  unfold State.budgetExpiry
  repeat'
    first
    | (with_reducible assumption)
    | (extract_lets +onlyGivenNames x; first | (refine (fun hx : Kept False F M L P C G z x => ?_) ?_; clear_value x; rotate_left; subst x) | clear_value x)
    | (with_reducible first | apply State.budgetOut_kept | apply State.nextWork_kept | apply State.pulse_kept)
    | split

theorem State.preempt_kept (h : Kept False F M L P C G z s) (c : Nat) : Kept False F M L P C G z (s.preempt c) := by
  unfold State.preempt
  repeat'
    first
    | (with_reducible assumption)
    | (with_reducible first | apply Kept.ite | apply State.resumeCtx_kept | apply State.saveTask_kept)
    | split

theorem State.taskWait_kept (h : Kept False F M False False False False z s) (c rd : Nat) : Kept False F M False False False False z (s.taskWait c rd) := by
  unfold State.taskWait
  repeat'
    first
    | (with_reducible assumption)
    | (extract_lets +onlyGivenNames x; first | (refine (fun hx : Kept False F M False False False False z x => ?_) ?_; clear_value x; rotate_left; subst x) | clear_value x)
    | (with_reducible first | apply State.computeCheck_kept | apply State.modCore_kept | apply State.modFrame_kept | apply State.nextWork_kept | apply State.retire_kept | apply State.saveTask_kept)
    | split
    | (intro t; intros; try dsimp only)

theorem State.tickRegs_kept (h : Kept K F M L P C G z s) (t : Nat) : Kept K F M L P C G z (s.tickRegs t) := by
  unfold State.tickRegs
  repeat'
    first
    | (with_reducible assumption)
    | (extract_lets +onlyGivenNames x; first | (refine (fun hx : Kept K F M L P C G z x => ?_) ?_; clear_value x; rotate_left; subst x) | clear_value x)
    | (with_reducible first | apply Kept.ite | apply State.modFrame_kept | apply State.raise_kept | apply State.set_kept | apply State.setReg_kept | apply foldl_kept | apply foldl_pair_kept)
    | split
    | (intro t; intros; try dsimp only)

theorem State.groveTick_kept (h : Kept False F M L P False False z s) (g : Nat) : Kept False F M L P False False z (s.groveTick g) := by
  unfold State.groveTick
  repeat'
    first
    | (with_reducible assumption)
    | (extract_lets +onlyGivenNames x; first | (refine (fun hx : Kept False F M L P False False z x => ?_) ?_; clear_value x; rotate_left; subst x) | clear_value x)
    | (with_reducible first | apply Kept.ite | apply State.ackTick_kept | apply State.enterFailsafe_kept | apply State.modGrv_kept | apply State.tickAsk_kept | apply State.trackTick_kept)
    | split
    | (intro t; intros; try dsimp only)

theorem State.evaluate_kept (h : Kept False F M L P C G z s)  : Kept False F M L P C G z (s.evaluate) := by
  unfold State.evaluate
  repeat'
    first
    | (with_reducible assumption)
    | (extract_lets +onlyGivenNames x; clear_value x)
    | (with_reducible first | apply State.modFrame_kept | apply State.raise_kept | apply State.sweep_kept)
    | (intro t; intros; try dsimp only)

theorem State.wakeAll_kept (h : Kept K F M L P C G z s)  : Kept K F M L P C G z (s.wakeAll) := by
  unfold State.wakeAll
  repeat'
    first
    | (with_reducible assumption)
    | (with_reducible first | apply State.each_kept | apply State.endWait_kept)
    | (intro t; intros; try dsimp only)

theorem State.tickStart_kept (h : Kept K F M L P C G z s) (t : Nat) : Kept K F M L P C G z (s.tickStart t) := by
  unfold State.tickStart
  repeat'
    first
    | (with_reducible assumption)
    | (with_reducible first | apply State.atTime_kept | apply State.tickRegs_kept)
    | simp only [Kept.upd]

theorem State.tickRest_kept (h : Kept False F M L False False False z s) (t : Nat) : Kept False F M L False False False z (s.tickRest t) := by
  unfold State.tickRest
  repeat'
    first
    | (with_reducible assumption)
    | (extract_lets +onlyGivenNames x; first | (refine (fun hx : Kept False F M L False False False z x => ?_) ?_; clear_value x; rotate_left; subst x) | clear_value x)
    | (with_reducible first | apply Kept.ite | apply State.cascadeTick_kept | apply State.each_kept | apply State.evaluate_kept | apply State.groveTick_kept | apply State.pulse_kept | apply State.sprintTick_kept | apply State.wakeAll_kept)
    | split
    | (intro t; intros; try dsimp only)

theorem State.gridTick_kept (h : Kept K F M L False False G z s)  : Kept K F M L False False G z (s.gridTick) := by
  unfold State.gridTick
  repeat'
    first
    | (with_reducible assumption)
    | (extract_lets +onlyGivenNames x; first | (refine (fun hx : Kept K F M L False False G z x => ?_) ?_; clear_value x; rotate_left; subst x) | clear_value x)
    | (with_reducible first | apply Kept.ite | apply State.atTime_kept | apply State.cascadeTick_kept)
    | split

theorem State.tick_kept (h : Kept False F M L False False False z s)  : Kept False F M L False False False z (s.tick) := by
  unfold State.tick
  repeat'
    first
    | (with_reducible assumption)
    | (extract_lets +onlyGivenNames x; first | (refine (fun hx : Kept False F M L False False False z x => ?_) ?_; clear_value x; rotate_left; subst x) | clear_value x)
    | (with_reducible first | apply Kept.ite | apply State.atTime_kept | apply State.gridTick_kept | apply State.lower_kept | apply State.sprintTick_kept | apply State.tickRest_kept | apply State.tickStart_kept)
    | split

theorem State.laneBegin_kept (h : Kept K F M False P C G z s) (l : Nat) : Kept K F M False P C G z (s.laneBegin l) := by
  unfold State.laneBegin
  repeat'
    first
    | (with_reducible assumption)
    | (extract_lets +onlyGivenNames x; clear_value x)
    | (with_reducible first | apply State.beginStrand_kept | apply State.setLane_kept)
    | (intro t; intros; try dsimp only)
    | (with_reducible refine Kept.snd (by assumption) ?_)

theorem State.sweepRegs_kept (h : Kept K F M False P C G z s)  : Kept K F M False P C G z (s.sweepRegs) := by
  unfold State.sweepRegs
  repeat'
    first
    | (with_reducible assumption)
    | (extract_lets +onlyGivenNames x; first | (refine (fun hx : Kept K F M False P C G z x => ?_) ?_; clear_value x; rotate_left; subst x) | clear_value x)
    | (with_reducible first | apply State.atTime_kept | apply State.each_kept | apply State.lower_kept | apply State.mirrorSignal_kept | apply State.modFrame_kept | apply State.modLoop_kept | apply State.set_kept | apply State.setMax_kept | apply State.setReg_kept)
    | (intro t; intros; try dsimp only)

theorem State.beginCompute_kept (h : Kept False F M False False False False z s)  : Kept False F M False False False False z (s.beginCompute) := by
  unfold State.beginCompute
  repeat'
    first
    | (with_reducible assumption)
    | (extract_lets +onlyGivenNames x; first | (refine (fun hx : Kept False F M False False False False z x => ?_) ?_; clear_value x; rotate_left; subst x) | clear_value x)
    | (with_reducible first | apply State.computeCheck_kept | apply State.each_kept | apply State.laneBegin_kept | apply State.modGrv_kept | apply State.nextWork_kept)
    | (intro t; intros; try dsimp only)

theorem State.sweepEnd_kept (h : Kept False F M False False False False z s)  : Kept False F M False False False False z (s.sweepEnd) := by
  unfold State.sweepEnd
  repeat'
    first
    | (with_reducible assumption)
    | (with_reducible first | apply Kept.ite | apply State.beginCompute_kept | apply State.lower_kept | apply State.sweepRegs_kept)
    | split

theorem State.committed_kept (h : Kept K F M L False C False z s) (g : Nat) : Kept K F M L False C False z (s.committed g) := by
  unfold State.committed
  repeat'
    first
    | (with_reducible assumption)
    | (extract_lets +onlyGivenNames x; first | (refine (fun hx : Kept K F M L False C False z x => ?_) ?_; clear_value x; rotate_left; subst x) | clear_value x)
    | (with_reducible first | apply Kept.ite | apply State.endTemplates_kept | apply State.leaveFailsafe_kept | apply State.modGrv_kept)
    | split
    | (intro t; intros; try dsimp only)
    | (with_reducible refine OptKept.of (by assumption) ?_)

theorem State.stagingEnd_kept (h : Kept K F M L False False False z s) (g : Nat) : Kept K F M L False False False z (s.stagingEnd g) := by
  unfold State.stagingEnd
  repeat'
    first
    | (with_reducible assumption)
    | (with_reducible first | apply Kept.ite | apply State.committed_kept | apply State.freezePoint_kept | apply State.track_kept)
    | split

theorem State.heldApply_kept (h : Kept False F M L P C G z s) (e : Nat × StoreEntry) : Kept False F M L P C G z (s.heldApply e) := by
  unfold State.heldApply
  repeat'
    first
    | (with_reducible assumption)
    | (extract_lets +onlyGivenNames x; first | (refine (fun hx : Kept False F M L P C G z x => ?_) ?_; clear_value x; rotate_left; subst x) | clear_value x)
    | (with_reducible first | apply State.event_kept | apply State.modCore_kept | apply State.retire_kept | apply State.wordPut_kept)
    | (intro t; intros; try dsimp only)

theorem State.closeLate_kept (h : Kept False F M False P C False z s) (g : Nat) : Kept False F M False P C False z (s.closeLate g) := by
  unfold State.closeLate
  repeat'
    first
    | (with_reducible assumption)
    | (extract_lets +onlyGivenNames x; clear_value x)
    | (with_reducible first | apply Kept.ite | apply State.closeCompute_kept | apply State.each_kept | apply State.heldApply_kept)
    | split
    | (intro t; intros; try dsimp only)

theorem State.overrun_kept (h : Kept False F M False False False False z s) (g : Nat) : Kept False F M False False False False z (s.overrun g) := by
  unfold State.overrun
  repeat'
    first
    | (with_reducible assumption)
    | (extract_lets +onlyGivenNames x; first | (refine (fun hx : Kept False F M False False False False z x => ?_) ?_; clear_value x; rotate_left; subst x) | clear_value x)
    | (with_reducible first | apply Kept.ite | apply State.closeLate_kept | apply State.each_kept | apply State.endTemplates_kept | apply State.enterFailsafe_kept | apply State.freezePoint_kept | apply State.inc_kept | apply State.modGrv_kept | apply State.preempt_kept | apply State.pulse_kept | apply State.raise_kept | apply State.setIf_kept | apply State.stopLane_kept | apply State.track_kept | apply State.withdraw_kept)
    | split
    | (intro t; intros; try dsimp only)
    | (with_reducible refine OptKept.of (by assumption) ?_)

theorem State.deadlineDecide_kept (h : Kept False F M False False False False z s)  : Kept False F M False False False False z (s.deadlineDecide) := by
  unfold State.deadlineDecide
  repeat'
    first
    | (with_reducible assumption)
    | (extract_lets +onlyGivenNames x; first | (refine (fun hx : Kept False F M False False False False z x => ?_) ?_; clear_value x; rotate_left; subst x) | clear_value x)
    | (with_reducible first | apply Kept.ite | apply State.atTime_kept | apply State.each_kept | apply State.lower_kept | apply State.modFrame_kept | apply State.overrun_kept | apply State.set_kept | apply State.setReg_kept)
    | split
    | (intro t; intros; try dsimp only)

theorem State.abandonFrame_kept (h : Kept False F M False False False False z s)  : Kept False F M False False False False z (s.abandonFrame) := by
  unfold State.abandonFrame
  repeat'
    first
    | (with_reducible assumption)
    | (extract_lets +onlyGivenNames x; first | (refine (fun hx : Kept False F M False False False False z x => ?_) ?_; clear_value x; rotate_left; subst x) | clear_value x)
    | (with_reducible first | apply Kept.ite | apply State.closeLate_kept | apply State.each_kept | apply State.endTemplates_kept | apply State.modFrame_kept | apply State.modGrv_kept | apply State.preempt_kept | apply State.stopLane_kept | apply State.withdraw_kept)
    | split
    | (intro t; intros; try dsimp only)

theorem State.framesStop_kept (h : Kept False F M False False False False z s)  : Kept False F M False False False False z (s.framesStop) := by
  unfold State.framesStop
  repeat'
    first
    | (with_reducible assumption)
    | (extract_lets +onlyGivenNames x; first | (refine (fun hx : Kept False F M False False False False z x => ?_) ?_; clear_value x; rotate_left; subst x) | clear_value x)
    | (with_reducible first | apply Kept.ite | apply State.abandonFrame_kept | apply State.modFrame_kept)
    | split
    | (intro t; intros; try dsimp only)

theorem State.releaseArm_kept (h : Kept K F M L P C False z s) (g : Nat) : Kept K F M L P C False z (s.releaseArm g) := by
  unfold State.releaseArm
  repeat'
    first
    | (with_reducible assumption)
    | (with_reducible first | apply Kept.ite | apply State.modGrv_kept | apply State.raise_kept)
    | split
    | (intro t; intros; try dsimp only)
    | (with_reducible refine OptKept.of (by assumption) ?_)

theorem State.forceFs_kept (h : Kept K F M L P C False z s) (g : Nat) : Kept K F M L P C False z (s.forceFs g) := by
  unfold State.forceFs
  repeat'
    first
    | (with_reducible assumption)
    | (with_reducible first | apply State.enterFailsafe_kept | apply State.modGrv_kept)
    | (intro t; intros; try dsimp only)

theorem State.frameSnap_kept (h : Kept K F M L P C G z s)  : Kept K F M L P C G z (s.frameSnap) := by
  unfold State.frameSnap
  repeat'
    first
    | (with_reducible assumption)
    | (with_reducible apply State.setReg_kept)

theorem State.ovrCntClr_kept (h : Kept K F M L P C G z s)  : Kept K F M L P C G z (s.ovrCntClr) := by
  unfold State.ovrCntClr
  repeat'
    first
    | (with_reducible assumption)
    | (with_reducible first | apply State.each_kept | apply State.setReg_kept)
    | (intro t; intros; try dsimp only)

theorem State.statsClr_kept (h : Kept K F M L P C G z s)  : Kept K F M L P C G z (s.statsClr) := by
  unfold State.statsClr
  repeat'
    first
    | (with_reducible assumption)
    | (with_reducible apply State.setReg_kept)

end Sys2Proof.Machine
end

