-- ==== Sys2Proof/Laws/KeptMainReset.lean ====
section
/-! SUPPORT. What the operations of MainReset.lean keep. -/

namespace Sys2Proof.Machine

variable {z s : State} {K F M L P C G : Prop}

theorem State.mbxResult_kept (h : Kept K F M L P C G z s) (m result detail len : Nat) : Kept K F M L P C G z (s.mbxResult m result detail len) := by
  unfold State.mbxResult
  repeat'
    first
    | (with_reducible assumption)
    | (extract_lets +onlyGivenNames x; first | (refine (fun hx : Kept K F M L P C G z x => ?_) ?_; clear_value x; rotate_left; subst x) | clear_value x)
    | (with_reducible first | apply State.lower_kept | apply State.raise_kept | apply State.set_kept)

theorem State.mbxBell_kept (h : Kept K F M L P C G z s) (m : Nat) : Kept K F M L P C G z (s.mbxBell m) := by
  unfold State.mbxBell
  repeat'
    first
    | (with_reducible assumption)
    | (with_reducible first | apply Kept.ite | apply State.msix_kept | apply State.pulse_kept)
    | split

theorem State.mbxFront_kept (h : Kept K F M L P C G z s)  (k : Nat) : Kept K F M L P C G z (s.mbxFront k) := by
  induction k generalizing s with
  | zero => exact h
  | succ k ih =>
    unfold State.mbxFront
    repeat'
      first
      | (with_reducible assumption)
      | (extract_lets +onlyGivenNames x; first | (refine (fun hx : Kept K F M L P C G z x => ?_) ?_; clear_value x; rotate_left; subst x) | (refine (fun hx : Kept K F M L P C G z x.2 => ?_) ?_; clear_value x; rotate_left; subst x) | (refine (fun hx : ∀ t, Kept K F M L P C G z t → Kept K F M L P C G z (x t) => ?_) ?_; clear_value x; rotate_left; subst x) | (refine (fun hx : ∀ t a, Kept K F M L P C G z t → Kept K F M L P C G z (x t a) => ?_) ?_; clear_value x; rotate_left; subst x) | (refine (fun hx : ∀ a t, Kept K F M L P C G z t → Kept K F M L P C G z (x a t) => ?_) ?_; clear_value x; rotate_left; subst x) | (refine (fun hx : ∀ t a b d, Kept K F M L P C G z t → Kept K F M L P C G z (x t a b d) => ?_) ?_; clear_value x; rotate_left; subst x) | (refine (fun hx : ∀ a b, Kept K F M L P C G z (x a b) => ?_) ?_; clear_value x; rotate_left; subst x) | clear_value x)
      | (with_reducible first | apply ih | apply State.raise_kept | apply State.lower_kept | apply State.mbxBell_kept | apply State.mbxResult_kept | apply State.modSec_kept)
      | split | (intro t; intros; try dsimp only) | (with_reducible refine Kept.snd (by assumption) ?_)

theorem State.mbxEnd_kept (h : Kept K F M L P C G z s) (m result detail len : Nat) : Kept K F M L P C G z (s.mbxEnd m result detail len) := by
  unfold State.mbxEnd
  repeat'
    first
    | (with_reducible assumption)
    | (with_reducible first | apply State.mbxBell_kept | apply State.mbxFront_kept | apply State.mbxResult_kept | apply State.modSec_kept)
    | (intro t; intros; try dsimp only)

theorem State.mbxGo_kept (h : Kept K F M L P C G z s) (m : Nat) : Kept K F M L P C G z (s.mbxGo m) := by
  unfold State.mbxGo
  repeat'
    first
    | (with_reducible assumption)
    | (extract_lets +onlyGivenNames x; first | (refine (fun hx : Kept K F M L P C G z x => ?_) ?_; clear_value x; rotate_left; subst x) | clear_value x)
    | (with_reducible first | apply Kept.ite | apply State.mbxFront_kept | apply State.modSec_kept | apply State.raise_kept)
    | split
    | (intro t; intros; try dsimp only)

theorem State.resetRegisters_kept (h : Kept K F M L P C G z s) (kept : List Fld) : Kept K F M L P C G z (s.resetRegisters kept) :=
  State.each_kept (h.regForm fun _ => resetRegs_wf) _ _ fun _ _ k => State.set_kept k _ _

theorem State.showFacts_kept (h : Kept K F M L P C G z s)  : Kept K F M L P C G z (s.showFacts) := by
  unfold State.showFacts
  repeat'
    first
    | (with_reducible assumption)
    | (extract_lets +onlyGivenNames x; first | (refine (fun hx : Kept K F M L P C G z x => ?_) ?_; clear_value x; rotate_left; subst x) | clear_value x)
    | (with_reducible apply State.set_kept)

theorem State.resetUnits_kept (h : Kept K F M False False False False z s)  : Kept K F M False False False False z (s.resetUnits) := by
  unfold State.resetUnits
  repeat'
    first
    | (with_reducible assumption)
    | simp only [Kept.updUnits]

theorem State.setPhase_kept (h : Kept K F M L P C G z s) (p : StartPhase) : Kept K F M L P C G z (s.setPhase p) := by
  unfold State.setPhase
  repeat'
    first
    | (with_reducible assumption)
    | (with_reducible apply State.modStart_kept)
    | (intro t; intros; try dsimp only)

theorem State.resetCause_kept (h : Kept K F M L P C G z s) (kind src : Nat) : Kept K F M L P C G z (s.resetCause kind src) := by
  unfold State.resetCause
  repeat'
    first
    | (with_reducible assumption)
    | (extract_lets +onlyGivenNames x; clear_value x)
    | (with_reducible first | apply Kept.ite | apply State.set_kept)
    | split

theorem State.stagingCut_kept (h : Kept K False M L P C G z s)  : Kept K False M L P C G z (s.stagingCut) := by
  unfold State.stagingCut
  repeat'
    first
    | (with_reducible assumption)
    | (extract_lets +onlyGivenNames x; clear_value x)
    | (with_reducible first | apply State.drawn_kept | apply State.flashPut_kept | apply State.modStart_kept)
    | split
    | (intro t; intros; try dsimp only)

theorem State.debugClose_kept (h : Kept K F M L P C G z s) (cause : Nat) : Kept K F M L P C G z (s.debugClose cause) := by
  unfold State.debugClose
  repeat'
    first
    | (with_reducible assumption)
    | (with_reducible first | apply Kept.ite | apply State.audit_kept | apply State.lower_kept)
    | split

theorem State.mbxAbort_kept (h : Kept K F M L P C G z s) (ms : List Nat) : Kept K F M L P C G z (s.mbxAbort ms) := by
  unfold State.mbxAbort
  repeat'
    first
    | (with_reducible assumption)
    | (with_reducible first | apply State.each_kept | apply State.mbxResult_kept)
    | (intro t; intros; try dsimp only)

theorem State.sprintCut_kept (h : Kept K F M L P C G z s)  : Kept K F M L P C G z (s.sprintCut) := by
  unfold State.sprintCut
  repeat'
    first
    | (with_reducible assumption)
    | (with_reducible apply State.modPower_kept)
    | split
    | (intro t; intros; try dsimp only)

theorem State.enterMain_kept (h : Kept K False False False False False False z s) (debugCause : Nat) : Kept K False False False False False False z (s.enterMain debugCause) := by
  unfold State.enterMain
  repeat'
    first
    | (with_reducible assumption)
    | (extract_lets +onlyGivenNames x; first | (refine (fun hx : Kept K False False False False False False z x => ?_) ?_; clear_value x; rotate_left; subst x) | clear_value x)
    | (with_reducible first | apply State.debugClose_kept | apply State.mbxAbort_kept | apply State.modSec_kept | apply State.modStart_kept | apply State.resetRegisters_kept | apply State.resetUnits_kept | apply State.sprintCut_kept | apply State.stagingCut_kept)
    | (intro t; intros; try dsimp only)
    | simp only [Kept.updMet]

theorem State.enterReset_kept (h : Kept K False False False False False False z s) (kind src debugCause : Nat) : Kept K False False False False False False z (s.enterReset kind src debugCause) := by
  unfold State.enterReset
  repeat'
    first
    | (with_reducible assumption)
    | (extract_lets +onlyGivenNames x; first | (refine (fun hx : Kept K False False False False False False z x => ?_) ?_; clear_value x; rotate_left; subst x) | clear_value x)
    | (with_reducible first | apply Kept.ite | apply State.enterMain_kept | apply State.modPower_kept | apply State.resetCause_kept)
    | split
    | (intro t; intros; try dsimp only)

end Sys2Proof.Machine
end

