-- ==== Sys2Proof/Laws/KeptStart.lean ====
section
/-! SUPPORT. What the operations of Start.lean keep. -/

namespace Sys2Proof.Machine

variable {z s : State} {K F M L P C G : Prop}

theorem State.readBootPtr_kept (h : Kept K F M L P C G z s)  : Kept K F M L P C G z (s.readBootPtr) := by
  unfold State.readBootPtr
  repeat'
    first
    | (with_reducible assumption)
    | (extract_lets +onlyGivenNames x; first | (refine (fun hx : Kept K F M L P C G z x => ?_) ?_; clear_value x; rotate_left; subst x) | (refine (fun hx : Kept K F M L P C G z x.2 => ?_) ?_; clear_value x; rotate_left; subst x) | (refine (fun hx : ∀ t, Kept K F M L P C G z t → Kept K F M L P C G z (x t) => ?_) ?_; clear_value x; rotate_left; subst x) | (refine (fun hx : ∀ t a, Kept K F M L P C G z t → Kept K F M L P C G z (x t a) => ?_) ?_; clear_value x; rotate_left; subst x) | (refine (fun hx : ∀ a t, Kept K F M L P C G z t → Kept K F M L P C G z (x a t) => ?_) ?_; clear_value x; rotate_left; subst x) | (refine (fun hx : ∀ t a b d, Kept K F M L P C G z t → Kept K F M L P C G z (x t a b d) => ?_) ?_; clear_value x; rotate_left; subst x) | (refine (fun hx : ∀ a b, Kept K F M L P C G z (x a b) => ?_) ?_; clear_value x; rotate_left; subst x) | clear_value x)
    | (with_reducible first | apply Kept.ite_snd | apply Kept.ite | apply State.modStart_kept | apply State.raise_kept | apply foldl_kept | apply foldl_pair_kept | apply Kept.clear | apply Kept.updClear)
    | split
    | (intro t; intros; try dsimp only)
    | (with_reducible refine Kept.snd (by assumption) ?_)
    | (with_reducible refine OptKept.of (by assumption) ?_)
    | with_reducible apply_assumption

theorem State.writeBootPtr_kept (h : Kept K False M L P C G z s) (slot : Nat) : Kept K False M L P C G z (s.writeBootPtr slot) := by
  unfold State.writeBootPtr
  repeat'
    first
    | (with_reducible assumption)
    | (extract_lets +onlyGivenNames x; first | (refine (fun hx : Kept K False M L P C G z x => ?_) ?_; clear_value x; rotate_left; subst x) | clear_value x)
    | (with_reducible first | apply Kept.ite | apply State.audit_kept | apply State.drawn_kept | apply State.flashErase_kept | apply State.flashPut_kept | apply State.modStart_kept)
    | split
    | (intro t; intros; try dsimp only)
    | (with_reducible refine Kept.snd (by assumption) ?_)

theorem State.startFirmware_kept (h : Kept K F M L P C G z s)  : Kept K F M L P C G z (s.startFirmware) := by
  unfold State.startFirmware
  repeat'
    first
    | (with_reducible assumption)
    | (extract_lets +onlyGivenNames x; clear_value x)
    | (with_reducible first | apply Kept.ite | apply State.modSec_kept | apply State.modStart_kept | apply State.set_kept)
    | split
    | (intro t; intros; try dsimp only)

theorem State.otpProgram_kept (h : Kept K F M L P C G z s) (k v : Nat) : Kept K F M L P C G z (s.otpProgram k v) := by
  unfold State.otpProgram
  repeat'
    first
    | (with_reducible assumption)
    | (with_reducible apply State.set_kept)

theorem State.otpCopy_kept (h : Kept K F M L P C G z s) (k : Nat) : Kept K F M L P C G z (s.otpCopy k) := by
  unfold State.otpCopy
  repeat'
    first
    | (with_reducible assumption)
    | (with_reducible apply State.modSec_kept)
    | (intro t; intros; try dsimp only)

theorem State.otpUnclean_kept (h : Kept K F M L P C G z s) (k : Nat) : Kept K F M L P C G z (s.otpUnclean k) := by
  unfold State.otpUnclean
  repeat'
    first
    | (with_reducible assumption)
    | (with_reducible first | apply Kept.ite | apply State.otpProgram_kept)
    | split

theorem State.changeStands_kept (h : Kept K F M L P C G z s) (c : Change) : Kept K F M L P C G z (s.changeStands c) := by
  unfold State.changeStands
  repeat'
    first
    | (with_reducible assumption)
    | (extract_lets +onlyGivenNames x; first | (refine (fun hx : Kept K F M L P C G z x => ?_) ?_; clear_value x; rotate_left; subst x) | clear_value x)
    | (with_reducible first | apply Kept.ite | apply State.modSec_kept | apply State.otpCopy_kept | apply State.raise_kept | apply State.set_kept)
    | split
    | (intro t; intros; try dsimp only)

theorem State.changeStep_kept (h : Kept K F M L P C G z s) (c : Change) : Kept K F M L P C G z (s.changeStep c) := by
  unfold State.changeStep
  repeat'
    first
    | (with_reducible assumption)
    | (with_reducible first | apply State.changeStands_kept | apply State.modSec_kept | apply State.otpProgram_kept)
    | split

theorem State.lcApply_kept (h : Kept K F M L P C G z s)  : Kept K F M L P C G z (s.lcApply) := by
  unfold State.lcApply
  repeat'
    first
    | (with_reducible assumption)
    | (extract_lets +onlyGivenNames x; first | (refine (fun hx : Kept K F M L P C G z x => ?_) ?_; clear_value x; rotate_left; subst x) | clear_value x)
    | (with_reducible first | apply Kept.ite | apply State.each_kept | apply State.lower_kept | apply State.modSec_kept | apply State.otpCopy_kept | apply State.set_kept)
    | split
    | (intro t; intros; try dsimp only)

theorem State.lcResume_kept (h : Kept K F M L P C G z s)  : Kept K F M L P C G z (s.lcResume) := by
  unfold State.lcResume
  repeat'
    first
    | (with_reducible assumption)
    | (extract_lets +onlyGivenNames x; first | (refine (fun hx : Kept K F M L P C G z x => ?_) ?_; clear_value x; rotate_left; subst x) | clear_value x)
    | (with_reducible first | apply Kept.ite | apply State.audit_kept | apply State.changeStands_kept | apply State.each_kept | apply State.lcApply_kept | apply State.modSec_kept | apply State.otpCopy_kept | apply State.otpUnclean_kept)
    | split
    | (intro t; intros; try dsimp only)

theorem State.keyInForce_kept (h : Kept K F M L P C G z s)  : Kept K F M L P C G z (s.keyInForce) := by
  unfold State.keyInForce
  repeat'
    first
    | (with_reducible assumption)
    | (extract_lets +onlyGivenNames x; first | (refine (fun hx : Kept K F M L P C G z x => ?_) ?_; clear_value x; rotate_left; subst x) | clear_value x)
    | (with_reducible first | apply Kept.ite | apply State.lower_kept | apply State.modSec_kept | apply State.set_kept)
    | split
    | (intro t; intros; try dsimp only)

theorem State.loadFrames_kept (h : Kept K F M L P C G z s) (x : Img) : Kept K F M L P C G z (s.loadFrames x) := by
  unfold State.loadFrames
  repeat'
    first
    | (with_reducible assumption)
    | (extract_lets +onlyGivenNames x; first | (refine (fun hx : Kept K F M L P C G z x => ?_) ?_; clear_value x; rotate_left; subst x) | clear_value x)
    | (with_reducible first | apply State.each_kept | apply State.modFrame_kept | apply State.set_kept)
    | (intro t; intros; try dsimp only)

theorem State.loadTags_kept (h : Kept False F M L P C G z s) (x : Img) : Kept False F M L P C G z (s.loadTags x) := by
  unfold State.loadTags
  repeat'
    first
    | (with_reducible assumption)
    | (extract_lets +onlyGivenNames x; first | (refine (fun hx : Kept False F M L P C G z x => ?_) ?_; clear_value x; rotate_left; subst x) | clear_value x)
    | (with_reducible first | apply State.each_kept | apply State.modSignal_kept | apply State.set_kept | apply State.wrB_kept)
    | (intro t; intros; try dsimp only)

theorem State.startExchange_kept (h : Kept False F M L P C G z s) : Kept False F M L P C G z (s.startExchange) := by
  refine h.memForm fun w => ?_
  have hx : mapWf (0 : Byte) exchStart = true :=
    mapWf_range (by decide) (fun e => exchAddr e + 4) (fun i j hij => by simp only [exchAddr]; omega) exchCount
  have hk : ∀ x ∈ exchStart, exchBase ≤ x.1 ∧ x.1 < exchBase + 8 * exchCount := by
    intro x hx
    simp only [exchStart, List.mem_map, List.mem_range] at hx
    obtain ⟨e, he, rfl⟩ := hx
    simp only [exchAddr]; omega
  refine mapWf_append (mapWf_append (mapWf_filter _ w) hx ?_) (mapWf_filter _ w) ?_
  · intro x h1 y h2
    have := of_decide_eq_true (List.mem_filter.mp h1).2
    have := (hk y h2).1; omega
  · intro x h1 y h2
    have hy := of_decide_eq_true (List.mem_filter.mp h2).2
    rcases List.mem_append.mp h1 with h1 | h1
    · have := of_decide_eq_true (List.mem_filter.mp h1).2; omega
    · have := (hk x h1).2; omega

theorem State.loadStrands_kept (h : Kept False F M False P C G z s) (x : Img) : Kept False F M False P C G z (s.loadStrands x) := by
  unfold State.loadStrands
  repeat'
    first
    | (with_reducible assumption)
    | (extract_lets +onlyGivenNames x; first | (refine (fun hx : Kept False F M False P C G z x => ?_) ?_; clear_value x; rotate_left; subst x) | clear_value x)
    | (with_reducible first | apply State.each_kept | apply State.modLoop_kept | apply State.set_kept | apply State.startExchange_kept | apply State.wrB_kept)
    | (intro t; intros; try dsimp only)

theorem State.loadPort_kept (h : Kept K F M L False C G z s) (r : List Byte) : Kept K F M L False C G z (s.loadPort r) := by
  unfold State.loadPort
  repeat'
    first
    | (with_reducible assumption)
    | (extract_lets +onlyGivenNames x; first | (refine (fun hx : Kept K F M L False C G z x => ?_) ?_; clear_value x; rotate_left; subst x) | clear_value x)
    | (with_reducible first | apply Kept.ite | apply State.modPort_kept | apply State.raise_kept | apply State.set_kept | apply State.setIf_kept)
    | split
    | (intro t; intros; try dsimp only)

theorem State.loadPorts_kept (h : Kept K F M L False C G z s) (x : Img) : Kept K F M L False C G z (s.loadPorts x) := by
  unfold State.loadPorts
  repeat'
    first
    | (with_reducible assumption)
    | (extract_lets +onlyGivenNames x; first | (refine (fun hx : Kept K F M L False C G z x => ?_) ?_; clear_value x; rotate_left; subst x) | clear_value x)
    | (with_reducible first | apply State.each_kept | apply State.loadPort_kept | apply State.modField_kept | apply State.set_kept | apply foldl_kept | apply foldl_pair_kept)
    | (intro t; intros; try dsimp only)

theorem State.loadSplices_kept (h : Kept K F M L P False G z s) (x : Img) : Kept K F M L P False G z (s.loadSplices x) := by
  unfold State.loadSplices
  repeat'
    first
    | (with_reducible assumption)
    | (extract_lets +onlyGivenNames x; first | (refine (fun hx : Kept K F M L P False G z x => ?_) ?_; clear_value x; rotate_left; subst x) | clear_value x)
    | (with_reducible first | apply State.each_kept | apply State.modCas_kept | apply State.set_kept | apply foldl_kept | apply foldl_pair_kept)
    | (intro t; intros; try dsimp only)

theorem State.loadGroves_kept (h : Kept K F M L P C False z s) (x : Img) : Kept K F M L P C False z (s.loadGroves x) := by
  unfold State.loadGroves
  repeat'
    first
    | (with_reducible assumption)
    | (extract_lets +onlyGivenNames x; first | (refine (fun hx : Kept K F M L P C False z x => ?_) ?_; clear_value x; rotate_left; subst x) | clear_value x)
    | (with_reducible first | apply State.each_kept | apply State.set_kept | apply State.setGrv_kept | apply State.setReg_kept | apply State.showGrove_kept)
    | (intro t; intros; try dsimp only)

theorem State.loadImage_kept (h : Kept False F M False False False False z s) (x : Img) : Kept False F M False False False False z (s.loadImage x) := by
  unfold State.loadImage
  repeat'
    first
    | (with_reducible assumption)
    | (extract_lets +onlyGivenNames x; first | (refine (fun hx : Kept False F M False False False False z x => ?_) ?_; clear_value x; rotate_left; subst x) | clear_value x)
    | (with_reducible first | apply State.each_kept | apply State.loadFrames_kept | apply State.loadGroves_kept | apply State.loadPorts_kept | apply State.loadSplices_kept | apply State.loadStrands_kept | apply State.loadTags_kept | apply State.modCas_kept | apply State.showFree_kept | apply State.wrB_kept)
    | (intro t; intros; try dsimp only)

theorem State.startGroves_kept (h : Kept False F M L P C G z s)  : Kept False F M L P C G z (s.startGroves) := by
  unfold State.startGroves
  repeat'
    first
    | (with_reducible assumption)
    | (with_reducible first | apply Kept.ite | apply State.bootGrove_kept | apply State.each_kept | apply State.setGstate_kept)
    | split
    | (intro t; intros; try dsimp only)

theorem State.startTime_kept (h : Kept K F M L P False G z s)  : Kept K F M L P False G z (s.startTime) := by
  unfold State.startTime
  repeat'
    first
    | (with_reducible assumption)
    | (extract_lets +onlyGivenNames x; first | (refine (fun hx : Kept K F M L P False G z x => ?_) ?_; clear_value x; rotate_left; subst x) | clear_value x)
    | (with_reducible first | apply Kept.ite | apply State.modCas_kept | apply State.raise_kept | apply State.set_kept)
    | split
    | (intro t; intros; try dsimp only)

theorem State.startCompletes_kept (h : Kept False F M L P False G z s) (host : Nat) : Kept False F M L P False G z (s.startCompletes host) := by
  unfold State.startCompletes
  repeat'
    first
    | (with_reducible assumption)
    | (extract_lets +onlyGivenNames x; first | (refine (fun hx : Kept False F M L P False G z x => ?_) ?_; clear_value x; rotate_left; subst x) | clear_value x)
    | (with_reducible first | apply State.bringUp_kept | apply State.each_kept | apply State.modSec_kept | apply State.msix_kept | apply State.raise_kept | apply State.set_kept | apply State.setPhase_kept | apply State.showFree_kept | apply State.startGroves_kept | apply State.startTime_kept)
    | (intro t; intros; try dsimp only)

theorem State.raiseArb_kept (h : Kept K F M L P C G z s) (a : Nat) : Kept K F M L P C G z (s.raiseArb a) := by
  unfold State.raiseArb
  repeat'
    first
    | (with_reducible assumption)
    | (extract_lets +onlyGivenNames x; clear_value x)
    | (with_reducible first | apply Kept.ite | apply State.audit_kept | apply State.otpCopy_kept | apply State.otpProgram_kept)
    | split

theorem State.slotPasses_kept (h : Kept False F M L P False G z s)  : Kept False F M L P False G z (s.slotPasses) := by
  unfold State.slotPasses
  repeat'
    first
    | (with_reducible assumption)
    | (extract_lets +onlyGivenNames x; first | (refine (fun hx : Kept False F M L P False G z x => ?_) ?_; clear_value x; rotate_left; subst x) | clear_value x)
    | (with_reducible first | apply State.audit_kept | apply State.iff_kept | apply State.modStart_kept | apply State.raiseArb_kept | apply State.set_kept | apply State.setIf_kept | apply State.startCompletes_kept)
    | (intro t; intros; try dsimp only)
    | (with_reducible refine OptKept.of (by assumption) ?_)

theorem State.maintenanceGrove_kept (h : Kept K F M L P C False z s)  : Kept K F M L P C False z (s.maintenanceGrove) := by
  unfold State.maintenanceGrove
  repeat'
    first
    | (with_reducible assumption)
    | (extract_lets +onlyGivenNames x; clear_value x)
    | (with_reducible first | apply State.drawn_kept | apply State.setGrv_kept | apply State.showGrove_kept)

theorem State.safeHold_kept (h : Kept False F M L P False False z s)  : Kept False F M L P False False z (s.safeHold) := by
  unfold State.safeHold
  repeat'
    first
    | (with_reducible assumption)
    | (extract_lets +onlyGivenNames x; first | (refine (fun hx : Kept False F M L P False False z x => ?_) ?_; clear_value x; rotate_left; subst x) | clear_value x)
    | (with_reducible first | apply State.audit_kept | apply State.maintenanceGrove_kept | apply State.modStart_kept | apply State.raise_kept | apply State.set_kept | apply State.startCompletes_kept | apply State.startExchange_kept)
    | (intro t; intros; try dsimp only)

theorem State.unload_kept (h : Kept False F M False False False False z s) : Kept False F M False False False False z (s.unload) := by
  unfold State.unload
  extract_lets t
  have ht : Kept False F M False False False False z t := h.units rfl (fun w => ⟨rfl, w.2.1, mapWf_filter _ w.2.2⟩) (k := False.elim) (l := False.elim) (p := False.elim)
    (c := False.elim) (g := False.elim)
  exact State.modStart_kept (State.each_kept ht _ _ fun _ _ k => State.setReg_kept k _ _) _

theorem State.slotFails_kept (h : Kept False F M False False False False z s) (f : SlotFail) : Kept False F M False False False False z (s.slotFails f) := by
  unfold State.slotFails
  repeat'
    first
    | (with_reducible assumption)
    | (extract_lets +onlyGivenNames x; first | (refine (fun hx : Kept False F M False False False False z x => ?_) ?_; clear_value x; rotate_left; subst x) | clear_value x)
    | (with_reducible first | apply Kept.ite | apply State.audit_kept | apply State.modStart_kept | apply State.safeHold_kept | apply State.set_kept | apply State.unload_kept)
    | split
    | (intro t; intros; try dsimp only)

theorem State.recoveryStart_kept (h : Kept False F M L P False False z s)  : Kept False F M L P False False z (s.recoveryStart) := by
  unfold State.recoveryStart
  repeat'
    first
    | (with_reducible assumption)
    | (extract_lets +onlyGivenNames x; first | (refine (fun hx : Kept False F M L P False False z x => ?_) ?_; clear_value x; rotate_left; subst x) | clear_value x)
    | (with_reducible first | apply State.audit_kept | apply State.modSec_kept | apply State.raise_kept | apply State.safeHold_kept | apply Kept.clear | apply Kept.updClear)
    | (intro t; intros; try dsimp only)
    | simp only [Kept.upd]

theorem State.spareStart_kept (h : Kept K F M L P C G z s)  : Kept K F M L P C G z (s.spareStart) := by
  unfold State.spareStart
  repeat'
    first
    | (with_reducible assumption)
    | (with_reducible first | apply State.lower_kept | apply State.raise_kept | apply State.set_kept)
    | split

theorem State.releaseMain_kept (h : Kept False F False L P False False z s)  : Kept False F False L P False False z (s.releaseMain) := by
  unfold State.releaseMain
  repeat'
    first
    | (with_reducible assumption)
    | (extract_lets +onlyGivenNames x; first | (refine (fun hx : Kept False F False L P False False z x => ?_) ?_; clear_value x; rotate_left; subst x) | clear_value x)
    | (with_reducible first | apply Kept.ite | apply State.lcResume_kept | apply State.modPower_kept | apply State.modSec_kept | apply State.readBootPtr_kept | apply State.recoveryStart_kept | apply State.set_kept | apply State.setPhase_kept | apply State.setTime_kept | apply State.showFacts_kept | apply State.spareStart_kept)
    | split
    | (intro t; intros; try dsimp only)
    | simp only [Kept.upd]

theorem State.powerGood_kept (h : Kept K F M L P C G z s)  : Kept K F M L P C G z (s.powerGood) := by
  unfold State.powerGood
  repeat'
    first
    | (with_reducible assumption)
    | (with_reducible first | apply Kept.ite | apply State.setPhase_kept)
    | split

theorem State.romComplete_kept (h : Kept False F False L P False False z s) : Kept False F False L P False False z (s.romComplete) := by
  unfold State.romComplete
  repeat'
    first
    | (with_reducible assumption)
    | (extract_lets +onlyGivenNames x; first | (refine (fun hx : Kept False F False L P False False z x => ?_) ?_; clear_value x; rotate_left; subst x) | clear_value x)
    | (with_reducible first | apply Kept.ite | apply State.releaseMain_kept | apply State.setPhase_kept | apply State.startFirmware_kept)
    | split
    | (intro t; intros; try dsimp only)

theorem State.mainRelease_kept (h : Kept False F False L P False False z s)  : Kept False F False L P False False z (s.mainRelease) := by
  unfold State.mainRelease
  repeat'
    first
    | (with_reducible assumption)
    | (with_reducible first | apply Kept.ite | apply State.releaseMain_kept)
    | split

theorem State.readFailed_kept (h : Kept False F M False False False False z s) (off : Nat) : Kept False F M False False False False z (s.readFailed off) := by
  unfold State.readFailed
  repeat'
    first
    | (with_reducible assumption)
    | (extract_lets +onlyGivenNames x; first | (refine (fun hx : Kept False F M False False False False z x => ?_) ?_; clear_value x; rotate_left; subst x) | clear_value x)
    | (with_reducible first | apply Kept.ite | apply State.modStart_kept | apply State.readBootPtr_kept | apply State.slotFails_kept)
    | split
    | (intro t; intros; try dsimp only)
    | (with_reducible refine Kept.snd (by assumption) ?_)

theorem State.flashRead_kept (h : Kept False F M False False False False z s) (off : Nat) (ok : Bool) : Kept False F M False False False False z (s.flashRead off ok) := by
  unfold State.flashRead
  repeat'
    first
    | (with_reducible assumption)
    | (extract_lets +onlyGivenNames x; first | (refine (fun hx : Kept False F M False False False False z x => ?_) ?_; clear_value x; rotate_left; subst x) | clear_value x)
    | (with_reducible first | apply Kept.ite | apply State.modStart_kept | apply State.readFailed_kept)
    | split
    | (intro t; intros; try dsimp only)

theorem State.wipeComplete_kept (h : Kept False F M L P C G z s)  : Kept False F M L P C G z (s.wipeComplete) := by
  unfold State.wipeComplete
  repeat'
    first
    | (with_reducible assumption)
    | (extract_lets +onlyGivenNames x; first | (refine (fun hx : Kept False F M L P C G z x => ?_) ?_; clear_value x; rotate_left; subst x) | clear_value x)
    | (with_reducible first | apply Kept.ite | apply State.keyInForce_kept | apply State.modSec_kept | apply State.modStart_kept | apply Kept.clear | apply Kept.updClear)
    | split
    | (intro t; intros; try dsimp only)
    | simp only [Kept.upd]

theorem State.slotRead_kept (h : Kept False F M False False False False z s)  : Kept False F M False False False False z (s.slotRead) := by
  unfold State.slotRead
  repeat'
    first
    | (with_reducible assumption)
    | (with_reducible first | apply Kept.ite | apply State.modStart_kept | apply State.slotFails_kept)
    | split
    | (intro t; intros; try dsimp only)

theorem State.semanticChecks_kept (h : Kept False F M False False False False z s)  : Kept False F M False False False False z (s.semanticChecks) := by
  unfold State.semanticChecks
  repeat'
    first
    | (with_reducible assumption)
    | (with_reducible first | apply Kept.ite | apply State.drawn_kept | apply State.setPhase_kept | apply State.slotFails_kept)
    | split

theorem State.sectionsLoaded_kept (h : Kept False F M False False False False z s)  : Kept False F M False False False False z (s.sectionsLoaded) := by
  unfold State.sectionsLoaded
  repeat'
    first
    | (with_reducible assumption)
    | (with_reducible first | apply Kept.ite | apply State.loadImage_kept | apply State.setPhase_kept)
    | split

theorem State.admissionChecked_kept (h : Kept False F M False False False False z s)  : Kept False F M False False False False z (s.admissionChecked) := by
  unfold State.admissionChecked
  repeat'
    first
    | (with_reducible assumption)
    | (extract_lets +onlyGivenNames x; first | (refine (fun hx : Kept False F M False False False False z x => ?_) ?_; clear_value x; rotate_left; subst x) | clear_value x)
    | (with_reducible first | apply Kept.ite | apply State.showAdmission_kept | apply State.slotFails_kept | apply State.slotPasses_kept)
    | split

theorem State.bootPointerDue_kept (h : Kept K False M L P C G z s)  : Kept K False M L P C G z (s.bootPointerDue) := by
  unfold State.bootPointerDue
  repeat'
    first
    | (with_reducible assumption)
    | (with_reducible apply State.writeBootPtr_kept)
    | split
    | (with_reducible refine OptKept.of (by assumption) ?_)

theorem State.stagingBegin_kept (h : Kept K False M L P C G z s) (m : Nat) (image : List Byte) : Kept K False M L P C G z (s.stagingBegin m image) := by
  unfold State.stagingBegin
  repeat'
    first
    | (with_reducible assumption)
    | (extract_lets +onlyGivenNames x; first | (refine (fun hx : Kept K False M L P C G z x => ?_) ?_; clear_value x; rotate_left; subst x) | clear_value x)
    | (with_reducible first | apply State.flashErase_kept | apply State.modStart_kept | apply State.raise_kept | apply State.set_kept)
    | (intro t; intros; try dsimp only)

theorem State.stagingEnds_kept (h : Kept K False M L P C G z s)  : Kept K False M L P C G z (s.stagingEnds) := by
  unfold State.stagingEnds
  repeat'
    first
    | (with_reducible assumption)
    | (extract_lets +onlyGivenNames x; first | (refine (fun hx : Kept K False M L P C G z x => ?_) ?_; clear_value x; rotate_left; subst x) | clear_value x)
    | (with_reducible first | apply State.audit_kept | apply State.flashPut_kept | apply State.lower_kept | apply State.mbxEnd_kept | apply State.modStart_kept | apply State.raise_kept | apply State.set_kept | apply State.writeBootPtr_kept)
    | split
    | (intro t; intros; try dsimp only)

end Sys2Proof.Machine
end

