-- ==== Sys2Proof/Laws/KeptHeartwood.lean ====
section
/-! SUPPORT. What the operations of Heartwood.lean keep. -/

namespace Sys2Proof.Machine

variable {z s : State} {K F M L P C G : Prop}

theorem State.mbxPut_kept (h : Kept K F M L P C G z s) (m : Nat) (bs : List Byte) : Kept K F M L P C G z (s.mbxPut m bs) := by
  unfold State.mbxPut
  repeat'
    first
    | (with_reducible assumption)
    | (extract_lets +onlyGivenNames x; clear_value x)
    | (with_reducible first | apply State.each_kept | apply State.setReg_kept)
    | (intro t; intros; try dsimp only)

theorem State.mbxReply_kept (h : Kept K F M L P C G z s) (m : Nat) (bs : List Byte) : Kept K F M L P C G z (s.mbxReply m bs) := by
  unfold State.mbxReply
  repeat'
    first
    | (with_reducible assumption)
    | (with_reducible first | apply State.mbxEnd_kept | apply State.mbxPut_kept)

theorem State.mbxRefuse_kept (h : Kept K F M L P C G z s) (m result detail : Nat) : Kept K F M L P C G z (s.mbxRefuse m result detail) := by
  unfold State.mbxRefuse
  repeat'
    first
    | (with_reducible assumption)
    | (with_reducible apply State.mbxEnd_kept)

theorem State.setBox_kept (h : Kept K F M L P C G z s) (m : Nat) (x : MailboxSt) : Kept K F M L P C G z (s.setBox m x) := by
  unfold State.setBox
  repeat'
    first
    | (with_reducible assumption)
    | (with_reducible apply State.modSec_kept)
    | (intro t; intros; try dsimp only)

theorem State.dropNonce_kept (h : Kept K F M L P C G z s) (m : Nat) : Kept K F M L P C G z (s.dropNonce m) := by
  unfold State.dropNonce
  repeat'
    first
    | (with_reducible assumption)
    | (with_reducible apply State.setBox_kept)

theorem State.mbxRow_kept (h : Kept K F M L P C G z s) (m code len : Nat) (permitted block : Bool) (f : State → List Byte → State) (hf : ∀ t a, Kept K F M L P C G z t → Kept K F M L P C G z (f t a)) : Kept K F M L P C G z (s.mbxRow m code len permitted block f) := by
  unfold State.mbxRow
  repeat'
    first
    | (with_reducible assumption)
    | (with_reducible first | apply Kept.ite | apply State.dropNonce_kept | apply State.iff_kept | apply State.mbxRefuse_kept | apply hf)
    | split
    | (intro t; intros; try dsimp only)

theorem State.authFails_kept (h : Kept K F M L P C G z s) (m code result : Nat) : Kept K F M L P C G z (s.authFails m code result) := by
  unfold State.authFails
  repeat'
    first
    | (with_reducible assumption)
    | (extract_lets +onlyGivenNames x; first | (refine (fun hx : Kept K F M L P C G z x => ?_) ?_; clear_value x; rotate_left; subst x) | clear_value x)
    | (with_reducible first | apply Kept.ite | apply State.audit_kept | apply State.mbxRefuse_kept | apply State.raise_kept | apply State.setBox_kept)
    | split

theorem State.authorised_kept (h : Kept K F M L P C G z s) (m code : Nat) (req : List Byte) (f : State → List Byte → State) (hf : ∀ t a, Kept K F M L P C G z t → Kept K F M L P C G z (f t a)) : Kept K F M L P C G z (s.authorised m code req f) := by
  unfold State.authorised
  repeat'
    first
    | (with_reducible assumption)
    | (extract_lets +onlyGivenNames x; first | (refine (fun hx : Kept K F M L P C G z x => ?_) ?_; clear_value x; rotate_left; subst x) | clear_value x)
    | (with_reducible first | apply Kept.ite | apply State.authFails_kept | apply State.dropNonce_kept | apply State.mbxRefuse_kept | apply State.setBox_kept | apply hf)
    | split
    | (with_reducible refine Kept.snd (by assumption) ?_)

theorem State.getInfo_kept (h : Kept K F M L P C G z s) (m : Nat) : Kept K F M L P C G z (s.getInfo m) := by
  unfold State.getInfo
  repeat'
    first
    | (with_reducible assumption)
    | (with_reducible first | apply State.mbxReply_kept | apply State.mbxRow_kept)
    | (intro t; intros; try dsimp only)

theorem State.getNonce_kept (h : Kept K F M L P C G z s) (m : Nat) : Kept K F M L P C G z (s.getNonce m) := by
  unfold State.getNonce
  repeat'
    first
    | (with_reducible assumption)
    | (extract_lets +onlyGivenNames x; clear_value x)
    | (with_reducible first | apply State.mbxReply_kept | apply State.mbxRow_kept | apply State.setBox_kept)
    | (intro t; intros; try dsimp only)
    | (with_reducible refine Kept.snd (by assumption) ?_)
    | simp only [Kept.upd]

theorem State.getIdentity_kept (h : Kept K F M L P C G z s) (m : Nat) : Kept K F M L P C G z (s.getIdentity m) := by
  unfold State.getIdentity
  repeat'
    first
    | (with_reducible assumption)
    | (with_reducible first | apply State.mbxReply_kept | apply State.mbxRow_kept)
    | (intro t; intros; try dsimp only)

theorem State.attest_kept (h : Kept K F M L P C G z s) (m : Nat) : Kept K F M L P C G z (s.attest m) := by
  unfold State.attest
  repeat'
    first
    | (with_reducible assumption)
    | (with_reducible first | apply State.mbxReply_kept | apply State.mbxRow_kept)
    | (intro t; intros; try dsimp only)

theorem State.auditRead_kept (h : Kept K F M L P C G z s) (m : Nat) : Kept K F M L P C G z (s.auditRead m) := by
  unfold State.auditRead
  repeat'
    first
    | (with_reducible assumption)
    | (extract_lets +onlyGivenNames x; clear_value x)
    | (with_reducible first | apply Kept.ite | apply State.audit_kept | apply State.mbxRefuse_kept | apply State.mbxReply_kept | apply State.mbxRow_kept)
    | split
    | (intro t; intros; try dsimp only)

theorem State.mbxBuffer_kept (h : Kept K F M L P C G z s) (m addr len : Nat) (f : State → List Byte → State) (hf : ∀ t a, Kept K F M L P C G z t → Kept K F M L P C G z (f t a)) : Kept K F M L P C G z (s.mbxBuffer m addr len f) := by
  unfold State.mbxBuffer
  repeat'
    first
    | (with_reducible assumption)
    | (extract_lets +onlyGivenNames x; clear_value x)
    | (with_reducible first | apply Kept.ite | apply State.mbxRefuse_kept | apply State.unitRead_kept | apply hf)
    | split
    | (with_reducible refine Kept.snd (by assumption) ?_)

theorem State.stage_kept (h : Kept K False M L P C G z s) (m : Nat) : Kept K False M L P C G z (s.stage m) := by
  unfold State.stage
  repeat'
    first
    | (with_reducible assumption)
    | (extract_lets +onlyGivenNames x; clear_value x)
    | (with_reducible first | apply Kept.ite | apply State.mbxBuffer_kept | apply State.mbxRefuse_kept | apply State.mbxRow_kept | apply State.stagingBegin_kept)
    | split
    | (intro t; intros; try dsimp only)

theorem State.firmwareWrite_kept (h : Kept K False M L P C G z s) (b : List Byte) (whole : Bool) : Kept K False M L P C G z (s.firmwareWrite b whole) := by
  unfold State.firmwareWrite
  repeat'
    first
    | (with_reducible assumption)
    | (extract_lets +onlyGivenNames x; first | (refine (fun hx : Kept K False M L P C G z x => ?_) ?_; clear_value x; rotate_left; subst x) | clear_value x)
    | (with_reducible first | apply Kept.ite | apply State.drawn_kept | apply State.flashErase_kept | apply State.flashPut_kept | apply State.modSec_kept)
    | split
    | (intro t; intros; try dsimp only)

theorem State.firmwareStore_kept (h : Kept K False M L P C G z s) (m : Nat) (b : List Byte) (w : FwWrite) : Kept K False M L P C G z (s.firmwareStore m b w) := by
  unfold State.firmwareStore
  repeat'
    first
    | (with_reducible assumption)
    | (with_reducible first | apply State.firmwareWrite_kept | apply State.mbxRefuse_kept | apply State.mbxReply_kept | apply State.modSec_kept)
    | split
    | (intro t; intros; try dsimp only)

theorem State.hwfwUpdate_kept (h : Kept K False M L P C G z s) (m : Nat) (w : FwWrite) : Kept K False M L P C G z (s.hwfwUpdate m w) := by
  unfold State.hwfwUpdate
  repeat'
    first
    | (with_reducible assumption)
    | (extract_lets +onlyGivenNames x; clear_value x)
    | (with_reducible first | apply Kept.ite | apply State.audit_kept | apply State.firmwareStore_kept | apply State.mbxBuffer_kept | apply State.mbxRefuse_kept | apply State.mbxRow_kept)
    | split
    | (intro t; intros; try dsimp only)

theorem State.changeEnds_kept (h : Kept K F M L P C G z s) (c : Change) : Kept K F M L P C G z (s.changeEnds c) := by
  unfold State.changeEnds
  repeat'
    first
    | (with_reducible assumption)
    | (with_reducible first | apply State.changeStep_kept | apply State.mbxReply_kept)

theorem State.changeGoes_kept (h : Kept K F M L P C G z s) (c : Change) (e : ChangeEnd) : Kept K F M L P C G z (s.changeGoes c e) := by
  unfold State.changeGoes
  repeat'
    first
    | (with_reducible assumption)
    | (with_reducible first | apply Kept.ite | apply State.changeEnds_kept | apply State.modSec_kept)
    | split
    | (intro t; intros; try dsimp only)

theorem State.changeRow_kept (h : Kept K F M L P C G z s) (m code : Nat) (e : ChangeEnd) (begin_ : State → State) (hbegin_ : ∀ t, Kept K F M L P C G z t → Kept K F M L P C G z (begin_ t)) : Kept K F M L P C G z (s.changeRow m code e begin_) := by
  unfold State.changeRow
  repeat'
    first
    | (with_reducible assumption)
    | (with_reducible first | apply Kept.ite | apply State.changeGoes_kept | apply hbegin_)
    | split

theorem State.lcAccept_kept (h : Kept K F M L P C G z s) (m new : Nat) (e : ChangeEnd) : Kept K F M L P C G z (s.lcAccept m new e) := by
  unfold State.lcAccept
  repeat'
    first
    | (with_reducible assumption)
    | (extract_lets +onlyGivenNames x; clear_value x)
    | (with_reducible first | apply Kept.ite | apply State.audit_kept | apply State.changeGoes_kept | apply State.mbxRefuse_kept)
    | split

theorem State.lcChange_kept (h : Kept K F M L P C G z s) (m : Nat) (e : ChangeEnd) : Kept K F M L P C G z (s.lcChange m e) := by
  unfold State.lcChange
  repeat'
    first
    | (with_reducible assumption)
    | (extract_lets +onlyGivenNames x; clear_value x)
    | (with_reducible first | apply Kept.ite | apply State.authorised_kept | apply State.changeRow_kept | apply State.dropNonce_kept | apply State.iff_kept | apply State.lcAccept_kept | apply State.mbxRefuse_kept | apply State.mbxRow_kept)
    | split
    | (intro t; intros; try dsimp only)

theorem State.installKey_kept (h : Kept K F M L P C G z s) (m : Nat) (req : List Byte) (provision : Bool) (e : ChangeEnd) : Kept K F M L P C G z (s.installKey m req provision e) := by
  unfold State.installKey
  repeat'
    first
    | (with_reducible assumption)
    | (extract_lets +onlyGivenNames x; first | (refine (fun hx : Kept K F M L P C G z x => ?_) ?_; clear_value x; rotate_left; subst x) | clear_value x)
    | (with_reducible first | apply Kept.ite | apply State.audit_kept | apply State.changeGoes_kept | apply State.mbxRefuse_kept)
    | split

theorem State.provision_kept (h : Kept K F M L P C G z s) (m : Nat) (e : ChangeEnd) : Kept K F M L P C G z (s.provision m e) := by
  unfold State.provision
  repeat'
    first
    | (with_reducible assumption)
    | (with_reducible first | apply State.changeRow_kept | apply State.installKey_kept | apply State.mbxRow_kept)
    | (intro t; intros; try dsimp only)

theorem State.keyRotate_kept (h : Kept K F M L P C G z s) (m : Nat) (e : ChangeEnd) : Kept K F M L P C G z (s.keyRotate m e) := by
  unfold State.keyRotate
  repeat'
    first
    | (with_reducible assumption)
    | (with_reducible first | apply State.authorised_kept | apply State.changeRow_kept | apply State.installKey_kept | apply State.mbxRow_kept)
    | (intro t; intros; try dsimp only)

theorem State.certInstall_kept (h : Kept K F M L P C G z s) (m : Nat) : Kept K F M L P C G z (s.certInstall m) := by
  unfold State.certInstall
  repeat'
    first
    | (with_reducible assumption)
    | (extract_lets +onlyGivenNames x; first | (refine (fun hx : Kept K F M L P C G z x => ?_) ?_; clear_value x; rotate_left; subst x) | clear_value x)
    | (with_reducible first | apply Kept.ite | apply State.audit_kept | apply State.mbxRefuse_kept | apply State.mbxReply_kept | apply State.mbxRow_kept | apply State.modSec_kept)
    | split
    | (intro t; intros; try dsimp only)

theorem State.imageKeyInstall_kept (h : Kept K F M L P C G z s) (m : Nat) : Kept K F M L P C G z (s.imageKeyInstall m) := by
  unfold State.imageKeyInstall
  repeat'
    first
    | (with_reducible assumption)
    | (extract_lets +onlyGivenNames x; first | (refine (fun hx : Kept K F M L P C G z x => ?_) ?_; clear_value x; rotate_left; subst x) | clear_value x)
    | (with_reducible first | apply Kept.ite | apply State.audit_kept | apply State.authorised_kept | apply State.mbxRefuse_kept | apply State.mbxReply_kept | apply State.mbxRow_kept | apply State.modSec_kept | apply State.raise_kept)
    | split
    | (intro t; intros; try dsimp only)

theorem State.debugOpen_kept (h : Kept K F M L P C G z s) (m : Nat) : Kept K F M L P C G z (s.debugOpen m) := by
  unfold State.debugOpen
  repeat'
    first
    | (with_reducible assumption)
    | (with_reducible first | apply State.audit_kept | apply State.authorised_kept | apply State.mbxReply_kept | apply State.mbxRow_kept | apply State.raise_kept)
    | (intro t; intros; try dsimp only)

theorem State.debugClosed_kept (h : Kept K F M L P C G z s) (m : Nat) : Kept K F M L P C G z (s.debugClosed m) := by
  unfold State.debugClosed
  repeat'
    first
    | (with_reducible assumption)
    | (with_reducible first | apply State.debugClose_kept | apply State.mbxReply_kept | apply State.mbxRow_kept)
    | (intro t; intros; try dsimp only)

theorem State.nonceLapse_kept (h : Kept K F M L P C G z s)  : Kept K F M L P C G z (s.nonceLapse) := by
  unfold State.nonceLapse
  repeat'
    first
    | (with_reducible assumption)
    | (extract_lets +onlyGivenNames x; first | (refine (fun hx : Kept K F M L P C G z x => ?_) ?_; clear_value x; rotate_left; subst x) | clear_value x)
    | (with_reducible first | apply Kept.ite | apply State.atTime_kept | apply State.modSec_kept)
    | split
    | (intro t; intros; try dsimp only)

theorem State.lcReset_kept (h : Kept K False False False False False False z s)  : Kept K False False False False False False z (s.lcReset) := by
  unfold State.lcReset
  repeat'
    first
    | (with_reducible assumption)
    | (with_reducible first | apply Kept.ite | apply State.enterReset_kept | apply State.lcApply_kept | apply State.modCoh_kept)
    | split
    | (intro t; intros; try dsimp only)

theorem State.sealWipe_kept (h : Kept K F M L P C G z s)  : Kept K F M L P C G z (s.sealWipe) := by
  unfold State.sealWipe
  repeat'
    first
    | (with_reducible assumption)
    | (with_reducible apply State.modCoh_kept)
    | (intro t; intros; try dsimp only)

theorem State.zeroise_kept (h : Kept K False False False False False False z s)  : Kept K False False False False False False z (s.zeroise) := by
  unfold State.zeroise
  repeat'
    first
    | (with_reducible assumption)
    | (extract_lets +onlyGivenNames x; first | (refine (fun hx : Kept K False False False False False False z x => ?_) ?_; clear_value x; rotate_left; subst x) | clear_value x)
    | (with_reducible first | apply State.enterReset_kept | apply State.lower_kept | apply State.modSec_kept | apply State.raise_kept | apply State.sealWipe_kept)
    | (intro t; intros; try dsimp only)

theorem State.tamper_kept (h : Kept K False False False False False False z s) (k : Nat) : Kept K False False False False False False z (s.tamper k) := by
  unfold State.tamper
  repeat'
    first
    | (with_reducible assumption)
    | (extract_lets +onlyGivenNames x; first | (refine (fun hx : Kept K False False False False False False z x => ?_) ?_; clear_value x; rotate_left; subst x) | clear_value x)
    | (with_reducible first | apply Kept.ite | apply State.audit_kept | apply State.enterReset_kept | apply State.inc_kept | apply State.modSec_kept | apply State.pulse_kept | apply State.sealWipe_kept | apply State.set_kept | apply State.zeroise_kept)
    | split
    | (intro t; intros; try dsimp only)

theorem State.tamperAbsent_kept (h : Kept K F M L P C G z s) (k : Nat) : Kept K F M L P C G z (s.tamperAbsent k) := by
  unfold State.tamperAbsent
  repeat'
    first
    | (with_reducible assumption)
    | (with_reducible first | apply Kept.ite | apply State.modSec_kept | apply State.set_kept)
    | split
    | (intro t; intros; try dsimp only)

theorem State.endCause_kept (h : Kept K F M L P C G z s) (src : Nat) : Kept K F M L P C G z (s.endCause src) := by
  unfold State.endCause
  repeat'
    first
    | (with_reducible assumption)
    | (with_reducible apply State.modPower_kept)
    | (intro t; intros; try dsimp only)

theorem State.releaseIfFree_kept (h : Kept False F False L P False False z s)  : Kept False F False L P False False z (s.releaseIfFree) := by
  unfold State.releaseIfFree
  repeat'
    first
    | (with_reducible assumption)
    | (with_reducible first | apply Kept.ite | apply State.releaseMain_kept)
    | split

theorem State.sensorHoldEnd_kept (h : Kept False F False L P False False z s)  : Kept False F False L P False False z (s.sensorHoldEnd) := by
  unfold State.sensorHoldEnd
  repeat'
    first
    | (with_reducible assumption)
    | (with_reducible first | apply Kept.ite | apply State.atTime_kept | apply State.endCause_kept | apply State.releaseIfFree_kept)
    | split

theorem State.heartwoodRestart_kept (h : Kept K F M L P C G z s)  : Kept K F M L P C G z (s.heartwoodRestart) := by
  unfold State.heartwoodRestart
  repeat'
    first
    | (with_reducible assumption)
    | (extract_lets +onlyGivenNames x; first | (refine (fun hx : Kept K F M L P C G z x => ?_) ?_; clear_value x; rotate_left; subst x) | clear_value x)
    | (with_reducible first | apply Kept.ite | apply State.atTime_kept | apply State.endCause_kept)
    | split
    | simp only [Kept.upd]

theorem State.resetRelease_kept (h : Kept False F False L P False False z s)  : Kept False F False L P False False z (s.resetRelease) := by
  unfold State.resetRelease
  repeat'
    first
    | (with_reducible assumption)
    | (with_reducible first | apply State.endCause_kept | apply State.releaseIfFree_kept)

theorem State.clockSync_kept (h : Kept K F M L P C G z s)  : Kept K F M L P C G z (s.clockSync) := by
  unfold State.clockSync
  repeat'
    first
    | (with_reducible assumption)
    | (with_reducible first | apply Kept.ite | apply State.modSec_kept)
    | split
    | (intro t; intros; try dsimp only)

theorem State.tapLoad_kept (h : Kept False False False False False False False z s) (code : Nat) : Kept False False False False False False False z (s.tapLoad code) := by
  unfold State.tapLoad
  repeat'
    first
    | (with_reducible assumption)
    | (extract_lets +onlyGivenNames x; first | (refine (fun hx : Kept False False False False False False False z x => ?_) ?_; clear_value x; rotate_left; subst x) | clear_value x)
    | (with_reducible first | apply Kept.ite | apply State.audit_kept | apply State.endCause_kept | apply State.enterReset_kept | apply State.modSec_kept | apply State.releaseIfFree_kept)
    | split
    | (intro t; intros; try dsimp only)

end Sys2Proof.Machine
end

