-- ==== Sys2Proof/Laws/KeptHostIf.lean ====
section
/-! SUPPORT. What the operations of HostIf.lean keep. -/

namespace Sys2Proof.Machine

variable {z s : State} {K F M L P C G : Prop}

theorem State.linkChanged_kept (h : Kept K F M L P C G z s)  : Kept K F M L P C G z (s.linkChanged) := by
  unfold State.linkChanged
  repeat'
    first
    | (with_reducible assumption)
    | (with_reducible first | apply State.pulse_kept | apply State.raise_kept)

theorem State.linkUp_kept (h : Kept K F M L P C G z s) (speed : Nat) (x8 : Bool) : Kept K F M L P C G z (s.linkUp speed x8) := by
  unfold State.linkUp
  repeat'
    first
    | (with_reducible assumption)
    | (extract_lets +onlyGivenNames x; first | (refine (fun hx : Kept K F M L P C G z x => ?_) ?_; clear_value x; rotate_left; subst x) | clear_value x)
    | (with_reducible first | apply Kept.ite | apply State.linkChanged_kept | apply State.raise_kept | apply State.set_kept)
    | split

theorem State.obEnd_kept (h : Kept K F M L P C G z s) (id : Nat) (v : Option Nat) : Kept K F M L P C G z (s.obEnd id v) := by
  unfold State.obEnd
  repeat'
    first
    | (with_reducible assumption)
    | (extract_lets +onlyGivenNames x; first | (refine (fun hx : Kept K F M L P C G z x => ?_) ?_; clear_value x; rotate_left; subst x) | clear_value x)
    | (with_reducible first | apply Kept.ite | apply State.modPci_kept | apply State.obFail_kept)
    | split
    | (intro t; intros; try dsimp only)

theorem State.linkDown_kept (h : Kept False F M L P C G z s)  : Kept False F M L P C G z (s.linkDown) := by
  unfold State.linkDown
  repeat'
    first
    | (with_reducible assumption)
    | (extract_lets +onlyGivenNames x; first | (refine (fun hx : Kept False F M L P C G z x => ?_) ?_; clear_value x; rotate_left; subst x) | clear_value x)
    | (with_reducible first | apply Kept.ite | apply State.each_kept | apply State.linkChanged_kept | apply State.obEnd_kept | apply State.setReg_kept | apply State.tagStore_kept)
    | split
    | (intro t; intros; try dsimp only)

theorem State.flr_kept (h : Kept K F M L P C G z s) (f : Nat) : Kept K F M L P C G z (s.flr f) := by
  unfold State.flr
  repeat'
    first
    | (with_reducible assumption)
    | (extract_lets +onlyGivenNames x; first | (refine (fun hx : Kept K F M L P C G z x => ?_) ?_; clear_value x; rotate_left; subst x) | clear_value x)
    | (with_reducible first | apply Kept.ite | apply State.each_kept | apply State.lower_kept | apply State.modPci_kept | apply State.msix_kept)
    | split
    | (intro t; intros; try dsimp only)

theorem State.perst_kept (h : Kept False F M L P C G z s)  : Kept False F M L P C G z (s.perst) := by
  unfold State.perst
  repeat'
    first
    | (with_reducible assumption)
    | (with_reducible first | apply Kept.ite | apply State.flr_kept | apply State.linkDown_kept | apply State.modPci_kept)
    | split
    | (intro t; intros; try dsimp only)

theorem State.pf1_kept (h : Kept K F M L P C G z s) (f : State → State) (hf : ∀ t, Kept K F M L P C G z t → Kept K F M L P C G z (f t)) : Kept K F M L P C G z (s.pf1 f) := by
  unfold State.pf1
  repeat'
    first
    | (with_reducible assumption)
    | (with_reducible first | apply Kept.ite | apply State.hostDrop_kept | apply hf)
    | split

theorem State.hostValue_kept (h : Kept False F M L P C G z s) (tag v : Nat) : Kept False F M L P C G z (s.hostValue tag v) := by
  unfold State.hostValue
  repeat'
    first
    | (with_reducible assumption)
    | (extract_lets +onlyGivenNames x; clear_value x)
    | (with_reducible apply State.tagStore_kept)

theorem State.hostQual_kept (h : Kept False F M L P C G z s) (tag q : Nat) : Kept False F M L P C G z (s.hostQual tag q) := by
  unfold State.hostQual
  repeat'
    first
    | (with_reducible assumption)
    | (with_reducible apply State.tagStore_kept)

theorem State.hostDoorbell_kept (h : Kept K F M L P C G z s) (v : Nat) : Kept K F M L P C G z (s.hostDoorbell v) := by
  unfold State.hostDoorbell
  repeat'
    first
    | (with_reducible assumption)
    | (with_reducible first | apply State.doorbell_kept | apply State.writeAt_kept)
    | (intro t; intros; try dsimp only)

theorem State.setSnap_kept (h : Kept K F M L P C G z s) (w : Nat) (x : SnapSt) : Kept K F M L P C G z (s.setSnap w x) := by
  unfold State.setSnap
  repeat'
    first
    | (with_reducible assumption)
    | (with_reducible apply State.modPci_kept)
    | (intro t; intros; try dsimp only)

theorem State.snapBegin_kept (h : Kept False F M L P C G z s) (w : Nat) : Kept False F M L P C G z (s.snapBegin w) := by
  unfold State.snapBegin
  repeat'
    first
    | (with_reducible assumption)
    | (extract_lets +onlyGivenNames x; clear_value x)
    | (with_reducible first | apply Kept.ite | apply State.homeWrite_kept | apply State.raise_kept | apply State.setSnap_kept)
    | split
    | (intro t; intros; try dsimp only)

theorem State.snapshotCopy_kept (h : Kept False F M L P C G z s)  : Kept False F M L P C G z (s.snapshotCopy) := by
  unfold State.snapshotCopy
  repeat'
    first
    | (with_reducible assumption)
    | (extract_lets +onlyGivenNames x; first | (refine (fun hx : Kept False F M L P C G z x => ?_) ?_; clear_value x; rotate_left; subst x) | clear_value x)
    | (with_reducible first | apply Kept.ite | apply State.atTime_kept | apply State.each_kept | apply State.modPci_kept | apply State.snapBegin_kept)
    | split
    | (intro t; intros; try dsimp only)
    | (with_reducible refine OptKept.of (by assumption) ?_)

theorem State.snapshotEnd_kept (h : Kept False F M L P C G z s) (w : Nat) : Kept False F M L P C G z (s.snapshotEnd w) := by
  unfold State.snapshotEnd
  repeat'
    first
    | (with_reducible assumption)
    | (extract_lets +onlyGivenNames x; first | (refine (fun hx : Kept False F M L P C G z x => ?_) ?_; clear_value x; rotate_left; subst x) | clear_value x)
    | (with_reducible first | apply Kept.ite | apply State.homeWrite_kept | apply State.msix_kept | apply State.set_kept | apply State.setSnap_kept)
    | split

theorem State.snapCfg_kept (h : Kept K F M L P C G z s) (w v : Nat) : Kept K F M L P C G z (s.snapCfg w v) := by
  unfold State.snapCfg
  repeat'
    first
    | (with_reducible assumption)
    | (extract_lets +onlyGivenNames x; first | (refine (fun hx : Kept K F M L P C G z x => ?_) ?_; clear_value x; rotate_left; subst x) | clear_value x)
    | (with_reducible first | apply Kept.ite | apply State.set_kept | apply foldl_kept | apply foldl_pair_kept)
    | split
    | (intro t; intros; try dsimp only)

theorem State.snapBase_kept (h : Kept K F M L P C G z s) (w v : Nat) : Kept K F M L P C G z (s.snapBase w v) := by
  unfold State.snapBase
  repeat'
    first
    | (with_reducible assumption)
    | (with_reducible first | apply Kept.ite | apply State.set_kept)
    | split

theorem State.mqCfg_kept (h : Kept K F M L P C G z s) (q v : Nat) : Kept K F M L P C G z (s.mqCfg q v) := by
  unfold State.mqCfg
  repeat'
    first
    | (with_reducible assumption)
    | (extract_lets +onlyGivenNames x; first | (refine (fun hx : Kept K F M L P C G z x => ?_) ?_; clear_value x; rotate_left; subst x) | clear_value x)
    | (with_reducible first | apply Kept.ite | apply State.set_kept)
    | split

theorem State.mqBase_kept (h : Kept K F M L P C G z s) (q : Nat) (f : Fld) (v : Nat) : Kept K F M L P C G z (s.mqBase q f v) := by
  unfold State.mqBase
  repeat'
    first
    | (with_reducible assumption)
    | (with_reducible first | apply Kept.ite | apply State.set_kept)
    | split

theorem State.mqH2dTail_kept (h : Kept K F M L P C G z s) (q v : Nat) : Kept K F M L P C G z (s.mqH2dTail q v) := by
  unfold State.mqH2dTail
  repeat'
    first
    | (with_reducible assumption)
    | (with_reducible first | apply Kept.ite | apply State.set_kept)
    | split

theorem State.mqD2hHead_kept (h : Kept K F M L P C G z s) (q v : Nat) : Kept K F M L P C G z (s.mqD2hHead q v) := by
  unfold State.mqD2hHead
  repeat'
    first
    | (with_reducible assumption)
    | (with_reducible first | apply Kept.ite | apply State.msix_kept | apply State.set_kept)
    | split

theorem State.hostQueue_kept (h : Kept K F M L P C G z s) (q : Nat) (f : State → State) (hf : ∀ t, Kept K F M L P C G z t → Kept K F M L P C G z (f t)) : Kept K F M L P C G z (s.hostQueue q f) := by
  unfold State.hostQueue
  repeat'
    first
    | (with_reducible assumption)
    | (with_reducible first | apply Kept.ite | apply State.hostDrop_kept | apply State.pf1_kept | apply hf)
    | split
    | (intro t; intros; try dsimp only)

theorem State.mqH2dHead_kept (h : Kept K F M L P C G z s) (q v : Nat) : Kept K F M L P C G z (s.mqH2dHead q v) := by
  unfold State.mqH2dHead
  repeat'
    first
    | (with_reducible assumption)
    | (with_reducible first | apply Kept.ite | apply State.pulse_kept | apply State.set_kept)
    | split

theorem State.mqD2hTail_kept (h : Kept K F M L P C G z s) (q v : Nat) : Kept K F M L P C G z (s.mqD2hTail q v) := by
  unfold State.mqD2hTail
  repeat'
    first
    | (with_reducible assumption)
    | (with_reducible first | apply Kept.ite | apply State.set_kept)
    | split

theorem State.pciCntClr_kept (h : Kept K F M L P C G z s)  : Kept K F M L P C G z (s.pciCntClr) := by
  unfold State.pciCntClr
  repeat'
    first
    | (with_reducible assumption)
    | (with_reducible apply State.lower_kept)

theorem State.pciCtl_kept (h : Kept K F M L P C G z s) (v : Nat) : Kept K F M L P C G z (s.pciCtl v) := by
  unfold State.pciCtl
  repeat'
    first
    | (with_reducible assumption)
    | (extract_lets +onlyGivenNames x; first | (refine (fun hx : Kept K F M L P C G z x => ?_) ?_; clear_value x; rotate_left; subst x) | clear_value x)
    | (with_reducible first | apply Kept.ite | apply State.msix_kept | apply State.pciCntClr_kept)
    | split

theorem State.pciWrite_kept (h : Kept K F M L P C G z s) (r : Requester) (off n : Nat) (f : State → State) (hf : ∀ t, Kept K F M L P C G z t → Kept K F M L P C G z (f t)) : Kept K F M L P C G z (s.pciWrite r off n f) := by
  unfold State.pciWrite
  repeat'
    first
    | (with_reducible assumption)
    | (with_reducible first | apply Kept.ite | apply State.regWriteAt_kept | apply hf)
    | split
    | (intro t; intros; try dsimp only)

end Sys2Proof.Machine
end

