-- ==== Sys2Proof/Laws/KeptIrqRows.lean ====
section
/-! SUPPORT. What the operations of IrqRows.lean keep. -/

namespace Sys2Proof.Machine

variable {z s : State} {K F M L P C G : Prop}

theorem State.doorbellWrite_kept (h : Kept K F M L P C G z s) (r : Requester) (src op : Nat) : Kept K F M L P C G z (s.doorbellWrite r src op) := by
  unfold State.doorbellWrite
  repeat'
    first
    | (with_reducible assumption)
    | (extract_lets +onlyGivenNames x; first | (refine (fun hx : Kept K F M L P C G z x => ?_) ?_; clear_value x; rotate_left; subst x) | (refine (fun hx : Kept K F M L P C G z x.2 => ?_) ?_; clear_value x; rotate_left; subst x) | (refine (fun hx : ∀ t, Kept K F M L P C G z t → Kept K F M L P C G z (x t) => ?_) ?_; clear_value x; rotate_left; subst x) | (refine (fun hx : ∀ t a, Kept K F M L P C G z t → Kept K F M L P C G z (x t a) => ?_) ?_; clear_value x; rotate_left; subst x) | (refine (fun hx : ∀ a t, Kept K F M L P C G z t → Kept K F M L P C G z (x a t) => ?_) ?_; clear_value x; rotate_left; subst x) | (refine (fun hx : ∀ t a b d, Kept K F M L P C G z t → Kept K F M L P C G z (x t a b d) => ?_) ?_; clear_value x; rotate_left; subst x) | (refine (fun hx : ∀ a b, Kept K F M L P C G z (x a b) => ?_) ?_; clear_value x; rotate_left; subst x) | clear_value x)
    | (with_reducible first | apply Kept.ite_snd | apply Kept.ite | apply State.doorbell_kept | apply State.regWriteAt_kept | apply foldl_kept | apply foldl_pair_kept)
    | split
    | (intro t; intros; try dsimp only)
    | (with_reducible refine Kept.snd (by assumption) ?_)
    | (with_reducible refine OptKept.of (by assumption) ?_)
    | with_reducible apply_assumption

theorem State.irqCntClr_kept (h : Kept K F M L P C G z s) (r : Requester) : Kept K F M L P C G z (s.irqCntClr r) := by
  unfold State.irqCntClr
  repeat'
    first
    | (with_reducible assumption)
    | (with_reducible first | apply Kept.ite | apply State.lower_kept)
    | split

theorem State.claimRead_kept (h : Kept K F M L P C G z s) (c : Nat) : Kept K F M L P C G z (s.claimRead c) := by
  unfold State.claimRead
  repeat'
    first
    | (with_reducible assumption)
    | (extract_lets +onlyGivenNames x; first | (refine (fun hx : Kept K F M L P C G z x.2 => ?_) ?_; clear_value x; rotate_left; subst x) | clear_value x)
    | (with_reducible first | apply State.answer_kept | apply State.claim_kept)
    | split
    | (with_reducible refine Kept.snd (by assumption) ?_)

end Sys2Proof.Machine
end

