-- ==== Sys2Proof/Laws/KeptLoopRows.lean ====
section
/-! SUPPORT. What the operations of LoopRows.lean keep. -/

namespace Sys2Proof.Machine

variable {z s : State} {K F M L P C G : Prop}

theorem State.block_kept (h : Kept False F M False False False False z s) (l op : Nat) (f : BIn → BOut) : Kept False F M False False False False z (s.block l op f) := by
  unfold State.block
  repeat'
    first
    | (with_reducible assumption)
    | (extract_lets +onlyGivenNames x; first | (refine (fun hx : Kept False F M False False False False z x => ?_) ?_; clear_value x; rotate_left; subst x) | clear_value x)
    | (with_reducible first | apply State.blockRun_kept | apply State.computeCheck_kept)
    | split

theorem State.slotCheck_kept (h : Kept False F M False False False False z s) (n : Nat) : Kept False F M False False False False z (s.slotCheck n) := by
  unfold State.slotCheck
  repeat'
    first
    | (with_reducible assumption)
    | (with_reducible apply State.computeCheck_kept)
    | split

end Sys2Proof.Machine
end

