-- ==== Sys2Proof/Laws/KeptMetrology.lean ====
section
/-! SUPPORT. What the operations of Metrology.lean keep. -/

namespace Sys2Proof.Machine

variable {z s : State} {K F M L P C G : Prop}

theorem State.modMet_kept (h : Kept K F False L P C G z s) (f : MetSt → MetSt) : Kept K F False L P C G z (s.modMet f) := by
  unfold State.modMet
  repeat'
    first
    | (with_reducible assumption)
    | simp only [Kept.updMet]

theorem State.metLog_kept (h : Kept K F False L P C G z s) (evcnt code arg data : Nat) : Kept K F False L P C G z (s.metLog evcnt code arg data) := by
  unfold State.metLog
  repeat'
    first
    | (with_reducible assumption)
    | (extract_lets +onlyGivenNames x; clear_value x)
    | (with_reducible apply State.modMet_kept)
    | (intro t; intros; try dsimp only)

theorem State.intervalEnd_kept (h : Kept K F False L P C G z s) (fs : List FeederInterval) : Kept K F False L P C G z (s.intervalEnd fs) := by
  unfold State.intervalEnd
  repeat'
    first
    | (with_reducible assumption)
    | (extract_lets +onlyGivenNames x; clear_value x)
    | (with_reducible first | apply Kept.ite | apply State.modMet_kept | apply foldl_kept | apply foldl_pair_kept)
    | split
    | (intro t; intros; try dsimp only)

theorem State.pulseEdge_kept (h : Kept K F False L P C G z s) (p : Nat) : Kept K F False L P C G z (s.pulseEdge p) := by
  unfold State.pulseEdge
  repeat'
    first
    | (with_reducible assumption)
    | (with_reducible first | apply Kept.ite | apply State.modMet_kept)
    | split
    | (intro t; intros; try dsimp only)

theorem State.publish_kept (h : Kept False F M L P C G z s)  : Kept False F M L P C G z (s.publish) := by
  unfold State.publish
  repeat'
    first
    | (with_reducible assumption)
    | (extract_lets +onlyGivenNames x; first | (refine (fun hx : Kept False F M L P C G z x => ?_) ?_; clear_value x; rotate_left; subst x) | clear_value x)
    | (with_reducible first | apply State.each_kept | apply State.gather_kept)
    | split
    | (intro t; intros; try dsimp only)

theorem State.timeSet_kept (h : Kept K F False L P C G z s) (arg : Nat) : Kept K F False L P C G z (s.timeSet arg).2 := by
  unfold State.timeSet
  repeat'
    first
    | (with_reducible assumption)
    | (extract_lets +onlyGivenNames x; first | (refine (fun hx : Kept K F False L P C G z x => ?_) ?_; clear_value x; rotate_left; subst x) | (refine (fun hx : Kept K F False L P C G z x.2 => ?_) ?_; clear_value x; rotate_left; subst x) | (refine (fun hx : ∀ t, Kept K F False L P C G z t → Kept K F False L P C G z (x t) => ?_) ?_; clear_value x; rotate_left; subst x) | (refine (fun hx : ∀ t a, Kept K F False L P C G z t → Kept K F False L P C G z (x t a) => ?_) ?_; clear_value x; rotate_left; subst x) | (refine (fun hx : ∀ a t, Kept K F False L P C G z t → Kept K F False L P C G z (x a t) => ?_) ?_; clear_value x; rotate_left; subst x) | (refine (fun hx : ∀ t a b d, Kept K F False L P C G z t → Kept K F False L P C G z (x t a b d) => ?_) ?_; clear_value x; rotate_left; subst x) | (refine (fun hx : ∀ a b, Kept K F False L P C G z (x a b) => ?_) ?_; clear_value x; rotate_left; subst x) | clear_value x)
    | (with_reducible first | apply Kept.ite_snd | apply Kept.ite | apply State.events_kept | apply State.metLog_kept | apply State.modMet_kept | apply foldl_kept | apply foldl_pair_kept)
    | split
    | (intro t; intros; try dsimp only)
    | (with_reducible refine Kept.snd (by assumption) ?_)
    | (with_reducible refine OptKept.of (by assumption) ?_)
    | with_reducible apply_assumption

theorem State.metServe_kept (h : Kept K F False L P C G z s) (c : MetCmd) : Kept K F False L P C G z (s.metServe c).2 := by
  unfold State.metServe
  repeat'
    first
    | (with_reducible assumption)
    | (extract_lets +onlyGivenNames x; first | (refine (fun hx : Kept K F False L P C G z x => ?_) ?_; clear_value x; rotate_left; subst x) | clear_value x)
    | (with_reducible first | apply Kept.ite_snd | apply Kept.ite | apply State.events_kept | apply State.metLog_kept | apply State.modMet_kept | apply State.timeSet_kept)
    | split
    | (intro t; intros; try dsimp only)
    | (with_reducible refine Kept.snd (by assumption) ?_)

theorem State.metCommand_kept (h : Kept K F False L P C G z s)  : Kept K F False L P C G z (s.metCommand) := by
  unfold State.metCommand
  repeat'
    first
    | (with_reducible assumption)
    | (extract_lets +onlyGivenNames x; first | (refine (fun hx : Kept K F False L P C G z x.2 => ?_) ?_; clear_value x; rotate_left; subst x) | clear_value x)
    | (with_reducible first | apply State.metServe_kept | apply State.modMet_kept)
    | split
    | (intro t; intros; try dsimp only)
    | (with_reducible refine Kept.snd (by assumption) ?_)

theorem State.metWrite_kept (h : Kept K F False L P C G z s) (r : Requester) (op tag arg : Nat) : Kept K F False L P C G z (s.metWrite r op tag arg) := by
  unfold State.metWrite
  repeat'
    first
    | (with_reducible assumption)
    | (with_reducible first | apply Kept.ite | apply State.modMet_kept | apply State.raise_kept)
    | split
    | (intro t; intros; try dsimp only)

theorem State.showFeeder_kept (h : Kept K F M L P C G z s) (f : Nat) : Kept K F M L P C G z (s.showFeeder f) := by
  unfold State.showFeeder
  repeat'
    first
    | (with_reducible assumption)
    | (extract_lets +onlyGivenNames x; first | (refine (fun hx : Kept K F M L P C G z x => ?_) ?_; clear_value x; rotate_left; subst x) | clear_value x)
    | (with_reducible first | apply State.each_kept | apply State.setReg_kept)
    | (intro t; intros; try dsimp only)

theorem State.metWindow_kept (h : Kept K F False L P C G z s)  : Kept K F False L P C G z (s.metWindow) := by
  unfold State.metWindow
  repeat'
    first
    | (with_reducible assumption)
    | (extract_lets +onlyGivenNames x; first | (refine (fun hx : Kept K F False L P C G z x => ?_) ?_; clear_value x; rotate_left; subst x) | clear_value x)
    | (with_reducible first | apply State.each_kept | apply State.events_kept | apply State.modMet_kept | apply State.set_kept | apply State.setReg_kept | apply State.showFeeder_kept)
    | (intro t; intros; try dsimp only)

theorem State.metStore_kept (h : Kept K F False L P C G z s)  : Kept K F False L P C G z (s.metStore) := by
  unfold State.metStore
  repeat'
    first
    | (with_reducible assumption)
    | (with_reducible apply State.modMet_kept)
    | (intro t; intros; try dsimp only)

theorem State.boundary_kept (h : Kept False F False L P C G z s)  : Kept False F False L P C G z (s.boundary) := by
  unfold State.boundary
  repeat'
    first
    | (with_reducible assumption)
    | (extract_lets +onlyGivenNames x; first | (refine (fun hx : Kept False F False L P C G z x => ?_) ?_; clear_value x; rotate_left; subst x) | clear_value x)
    | (with_reducible first | apply Kept.ite | apply State.metCommand_kept | apply State.metStore_kept | apply State.metWindow_kept | apply State.modMet_kept | apply State.publish_kept)
    | split
    | (intro t; intros; try dsimp only)

theorem State.metPowerFail_kept (h : Kept K F False L P C G z s)  : Kept K F False L P C G z (s.metPowerFail) := by
  unfold State.metPowerFail
  repeat'
    first
    | (with_reducible assumption)
    | (extract_lets +onlyGivenNames x; first | (refine (fun hx : Kept K F False L P C G z x => ?_) ?_; clear_value x; rotate_left; subst x) | clear_value x)
    | (with_reducible first | apply Kept.ite | apply State.events_kept | apply State.metLog_kept | apply State.metStore_kept | apply State.modMet_kept)
    | split
    | (intro t; intros; try dsimp only)

theorem State.metRecovered_kept (h : Kept K F False L P C G z s)  : Kept K F False L P C G z (s.metRecovered) := by
  unfold State.metRecovered
  repeat'
    first
    | (with_reducible assumption)
    | (with_reducible first | apply Kept.ite | apply State.events_kept | apply State.metLog_kept | apply State.modMet_kept)
    | split
    | (intro t; intros; try dsimp only)

theorem State.metCheck_kept (h : Kept K F False L P C G z s) (crc : Nat) : Kept K F False L P C G z (s.metCheck crc) := by
  unfold State.metCheck
  repeat'
    first
    | (with_reducible assumption)
    | (extract_lets +onlyGivenNames x; first | (refine (fun hx : Kept K F False L P C G z x => ?_) ?_; clear_value x; rotate_left; subst x) | clear_value x)
    | (with_reducible first | apply Kept.ite | apply State.events_kept | apply State.metLog_kept | apply State.modMet_kept)
    | split
    | (intro t; intros; try dsimp only)

theorem State.metStart_kept (h : Kept K F False L P C G z s) (watchdog : Bool) (crc : Nat) : Kept K F False L P C G z (s.metStart watchdog crc) := by
  unfold State.metStart
  repeat'
    first
    | (with_reducible assumption)
    | (extract_lets +onlyGivenNames x; first | (refine (fun hx : Kept K F False L P C G z x => ?_) ?_; clear_value x; rotate_left; subst x) | clear_value x)
    | (with_reducible first | apply Kept.ite | apply State.events_kept | apply State.metCheck_kept | apply State.metLog_kept | apply State.modMet_kept)
    | split
    | (intro t; intros; try dsimp only)

theorem State.converterStart_kept (h : Kept K F False L P C G z s) (crc : Nat) : Kept K F False L P C G z (s.converterStart crc) := by
  unfold State.converterStart
  repeat'
    first
    | (with_reducible assumption)
    | (with_reducible first | apply Kept.ite | apply State.metStart_kept)
    | split

theorem State.metWatchdog_kept (h : Kept K F False L P C G z s) (crc : Nat) : Kept K F False L P C G z (s.metWatchdog crc) := by
  unfold State.metWatchdog
  repeat'
    first
    | (with_reducible assumption)
    | (with_reducible first | apply Kept.ite | apply State.metStart_kept)
    | split

theorem State.metDaily_kept (h : Kept K F False L P C G z s) (crc : Nat) : Kept K F False L P C G z (s.metDaily crc) := by
  unfold State.metDaily
  repeat'
    first
    | (with_reducible assumption)
    | (with_reducible first | apply Kept.ite | apply State.metCheck_kept)
    | split

theorem State.converterFault_kept (h : Kept K F False L P C G z s) (c : Nat) (bad : Bool) : Kept K F False L P C G z (s.converterFault c bad) := by
  unfold State.converterFault
  repeat'
    first
    | (with_reducible assumption)
    | (with_reducible first | apply Kept.ite | apply State.events_kept | apply State.metLog_kept | apply State.modMet_kept)
    | split
    | (intro t; intros; try dsimp only)

theorem State.sealOn_kept (h : Kept K F False L P C G z s)  : Kept K F False L P C G z (s.sealOn) := by
  unfold State.sealOn
  repeat'
    first
    | (with_reducible assumption)
    | (extract_lets +onlyGivenNames x; first | (refine (fun hx : Kept K F False L P C G z x => ?_) ?_; clear_value x; rotate_left; subst x) | clear_value x)
    | (with_reducible first | apply Kept.ite | apply State.events_kept | apply State.metLog_kept | apply State.modMet_kept)
    | split
    | (intro t; intros; try dsimp only)

theorem State.dropPending_kept (h : Kept K F False L P C G z s)  : Kept K F False L P C G z (s.dropPending) := by
  unfold State.dropPending
  repeat'
    first
    | (with_reducible assumption)
    | (extract_lets +onlyGivenNames x; first | (refine (fun hx : Kept K F False L P C G z x => ?_) ?_; clear_value x; rotate_left; subst x) | clear_value x)
    | (with_reducible first | apply Kept.ite | apply State.events_kept | apply State.metLog_kept | apply State.modMet_kept)
    | split
    | (intro t; intros; try dsimp only)

theorem State.sealOff_kept (h : Kept K F False L P C G z s)  : Kept K F False L P C G z (s.sealOff) := by
  unfold State.sealOff
  repeat'
    first
    | (with_reducible assumption)
    | (with_reducible first | apply Kept.ite | apply State.dropPending_kept | apply State.events_kept | apply State.metLog_kept | apply State.modMet_kept)
    | split
    | (intro t; intros; try dsimp only)

theorem State.calReply_kept (h : Kept K F False L P C G z s) (cmd status : Nat) (body : List Byte) : Kept K F False L P C G z (s.calReply cmd status body) := by
  unfold State.calReply
  repeat'
    first
    | (with_reducible assumption)
    | (extract_lets +onlyGivenNames x; clear_value x)
    | (with_reducible apply State.modMet_kept)
    | (intro t; intros; try dsimp only)

theorem State.calIdent_kept (h : Kept K F False L P C G z s)  : Kept K F False L P C G z (s.calIdent) := by
  unfold State.calIdent
  repeat'
    first
    | (with_reducible assumption)
    | (with_reducible first | apply Kept.ite | apply State.calReply_kept | apply State.events_kept)
    | split

theorem State.calRead_kept (h : Kept K F False L P C G z s) (i : Nat) : Kept K F False L P C G z (s.calRead i) := by
  unfold State.calRead
  repeat'
    first
    | (with_reducible assumption)
    | (with_reducible first | apply Kept.ite | apply State.calReply_kept)
    | split

theorem State.calWrite_kept (h : Kept K F False L P C G z s) (i v : Nat) : Kept K F False L P C G z (s.calWrite i v) := by
  unfold State.calWrite
  repeat'
    first
    | (with_reducible assumption)
    | (with_reducible first | apply Kept.ite | apply State.calReply_kept | apply State.modMet_kept)
    | split
    | (intro t; intros; try dsimp only)

theorem State.calCommit_kept (h : Kept K F False L P C G z s)  : Kept K F False L P C G z (s.calCommit) := by
  unfold State.calCommit
  repeat'
    first
    | (with_reducible assumption)
    | (extract_lets +onlyGivenNames x; first | (refine (fun hx : Kept K F False L P C G z x => ?_) ?_; clear_value x; rotate_left; subst x) | clear_value x)
    | (with_reducible first | apply Kept.ite | apply State.calReply_kept | apply State.events_kept | apply State.metLog_kept | apply State.modMet_kept)
    | split
    | (intro t; intros; try dsimp only)

theorem State.calAbort_kept (h : Kept K F False L P C G z s)  : Kept K F False L P C G z (s.calAbort) := by
  unfold State.calAbort
  repeat'
    first
    | (with_reducible assumption)
    | (with_reducible first | apply Kept.ite | apply State.calReply_kept | apply State.dropPending_kept)
    | split

theorem State.calLogRead_kept (h : Kept K F False L P C G z s) (seq : Nat) : Kept K F False L P C G z (s.calLogRead seq) := by
  unfold State.calLogRead
  repeat'
    first
    | (with_reducible assumption)
    | (with_reducible first | apply Kept.ite | apply State.calReply_kept)
    | split

theorem State.calMeasure_kept (h : Kept K F False L P C G z s) (f : Nat) : Kept K F False L P C G z (s.calMeasure f) := by
  unfold State.calMeasure
  repeat'
    first
    | (with_reducible assumption)
    | (with_reducible first | apply Kept.ite | apply State.calReply_kept)
    | split
    | (intro t; intros; try dsimp only)

end Sys2Proof.Machine
end

