-- ==== Sys2Proof/Laws/Forms.lean ====
section
/-! SUPPORT. Each update keeps the canonical forms: the state's `wf` after it, for reads that need it. -/

namespace Sys2Proof.Machine

variable {s : State}

theorem State.setReg_wf (h : s.wf) (o v : Nat) : (s.setReg o v).wf := (State.setReg_kept (Kept.same s) _ _).wf h
theorem State.set_wf (h : s.wf) (f : Fld) (v : Nat) : (s.set f v).wf := (State.set_kept (Kept.same s) _ _).wf h
theorem State.wrB_wf (h : s.wf) (a : Nat) (bs : List Byte) : (s.wrB a bs).wf := (State.wrB_kept (Kept.same s) _ _).wf h
theorem State.wr_wf (h : s.wf) (a n v : Nat) : (s.wr a n v).wf := (State.wr_kept (Kept.same s) _ _ _).wf h
theorem State.clearMem_wf (h : s.wf) (lo hi : Nat) : (s.clearMem lo hi).wf := (State.clearMem_kept (Kept.same s) _ _).wf h
theorem State.setGrv_wf (h : s.wf) (j : Nat) (x : GroveSt) : (s.setGrv j x).wf := (State.setGrv_kept (Kept.same s) _ _).wf h
theorem State.setCore_wf (h : s.wf) (c : Nat) (x : CoreSt) : (s.setCore c x).wf := (State.setCore_kept (Kept.same s) _ _).wf h
theorem State.modCore_wf (h : s.wf) (c : Nat) (f : CoreSt → CoreSt) : (s.modCore c f).wf := (State.modCore_kept (Kept.same s) _ _).wf h
theorem State.modCtx_wf (h : s.wf) (c : Nat) (f : Ctx → Ctx) : (s.modCtx c f).wf := (State.modCtx_kept (Kept.same s) _ _).wf h
theorem State.modLane_wf (h : s.wf) (l : Nat) (f : LaneSt → LaneSt) : (s.modLane l f).wf := (State.modLane_kept (Kept.same s) _ _).wf h
theorem State.modPort_wf (h : s.wf) (p : Nat) (f : PortSt → PortSt) : (s.modPort p f).wf := (State.modPort_kept (Kept.same s) _ _).wf h
theorem State.modHawser_wf (h : s.wf) (p : Nat) (f : HawserSt → HawserSt) : (s.modHawser p f).wf := (State.modHawser_kept (Kept.same s) _ _).wf h
theorem State.modFrame_wf (h : s.wf) (f : FrameSt → FrameSt) : (s.modFrame f).wf := (State.modFrame_kept (Kept.same s) _).wf h
theorem State.modStart_wf (h : s.wf) (f : StartSt → StartSt) : (s.modStart f).wf := (State.modStart_kept (Kept.same s) _).wf h
theorem State.modSignal_wf (h : s.wf) (f : SignalSt → SignalSt) : (s.modSignal f).wf := (State.modSignal_kept (Kept.same s) _).wf h
theorem State.modLoop_wf (h : s.wf) (f : LoopSt → LoopSt) : (s.modLoop f).wf := (State.modLoop_kept (Kept.same s) _).wf h
theorem State.modField_wf (h : s.wf) (f : FieldSt → FieldSt) : (s.modField f).wf := (State.modField_kept (Kept.same s) _).wf h
theorem State.modCas_wf (h : s.wf) (f : CascadeSt → CascadeSt) : (s.modCas f).wf := (State.modCas_kept (Kept.same s) _).wf h
theorem State.modCoh_wf (h : s.wf) (f : CohSt → CohSt) : (s.modCoh f).wf := (State.modCoh_kept (Kept.same s) _).wf h
theorem State.modPci_wf (h : s.wf) (f : PciSt → PciSt) : (s.modPci f).wf := (State.modPci_kept (Kept.same s) _).wf h
theorem State.modSec_wf (h : s.wf) (f : SecSt → SecSt) : (s.modSec f).wf := (State.modSec_kept (Kept.same s) _).wf h
theorem State.modDma_wf (h : s.wf) (f : DmaSt → DmaSt) : (s.modDma f).wf := (State.modDma_kept (Kept.same s) _).wf h
theorem State.modMet_wf (h : s.wf) (f : MetSt → MetSt) : (s.modMet f).wf := (State.modMet_kept (Kept.same s) _).wf h
theorem State.modPower_wf (h : s.wf) (f : PowerSt → PowerSt) : (s.modPower f).wf := (State.modPower_kept (Kept.same s) _).wf h
theorem State.setStack_wf (h : s.wf) (c : Nat) (l : List (Nat × Nat)) : (s.setStack c l).wf := (State.setStack_kept (Kept.same s) _ _).wf h
theorem State.answer_wf (h : s.wf) (r : Response) : (s.answer r).wf := (State.answer_kept (Kept.same s) _).wf h
theorem State.drawn_wf (h : s.wf) : (s.drawn).wf := (State.drawn_kept (Kept.same s)).wf h
theorem State.atTime_wf (h : s.wf) (t : Nat) : (s.atTime t).wf := (State.atTime_kept (Kept.same s) _).wf h
theorem State.raise_wf (h : s.wf) (f : Fld) : (s.raise f).wf := (State.raise_kept (Kept.same s) _).wf h
theorem State.lower_wf (h : s.wf) (f : Fld) : (s.lower f).wf := (State.lower_kept (Kept.same s) _).wf h
theorem State.setIf_wf (h : s.wf) (c : Bool) (f : Fld) (v : Nat) : (s.setIf c f v).wf := (State.setIf_kept (Kept.same s) _ _ _).wf h
theorem State.count_wf (h : s.wf) (f : Fld) (n : Nat) : (s.count f n).wf := (State.count_kept (Kept.same s) _ _).wf h
theorem State.inc_wf (h : s.wf) (f : Fld) : (s.inc f).wf := (State.inc_kept (Kept.same s) _).wf h
theorem State.setMax_wf (h : s.wf) (f : Fld) (v : Nat) : (s.setMax f v).wf := (State.setMax_kept (Kept.same s) _ _).wf h

end Sys2Proof.Machine
end

