-- ==== Sys2Proof/Laws/Integrity.lean ====
section
/-! SUPPORT. What a line is stored as and what reading it finds (R397, R399). -/

namespace Sys2Proof.Machine

/-- A line that is not failed reads back as it was written. -/
theorem State.stored_plain (s : State) (line : Nat) (h : s.isFailed line = false) :
    (s.stored line).read s.sec.memKeys line = .plain := by
  simp [State.stored, h, StoredLine.read, encodeLine]

/-- A failed line does not: its ECC names no word, or its MAC does not verify. -/
theorem State.stored_failed (s : State) (line : Nat) (h : s.isFailed line = true) :
    (s.stored line).read s.sec.memKeys line = if s.macBad line then .macMismatch else .uncorrectable := by
  have one (m : BitVec 32) : m + 1#32 ≠ m := fun e => by simp at e
  cases hb : s.macBad line <;> simp [State.stored, h, hb, StoredLine.read, encodeLine, one]

end Sys2Proof.Machine
end

