-- ==== Sys2Proof/Laws/KeptPower.lean ====
section
/-! SUPPORT. What the operations of Power.lean keep. -/

namespace Sys2Proof.Machine

variable {z s : State} {K F M L P C G : Prop}

theorem State.lockoutRelease_kept (h : Kept K F M L P C G z s) (a b : Bool) : Kept K F M L P C G z (s.lockoutRelease a b) := by
  unfold State.lockoutRelease
  repeat'
    first
    | (with_reducible assumption)
    | (extract_lets +onlyGivenNames x; first | (refine (fun hx : Kept K F M L P C G z x => ?_) ?_; clear_value x; rotate_left; subst x) | clear_value x)
    | (with_reducible first | apply Kept.ite | apply State.drawn_kept | apply State.modPower_kept | apply State.modSec_kept | apply State.set_kept | apply State.setPhase_kept | apply State.showFacts_kept)
    | split
    | (intro t; intros; try dsimp only)
    | (with_reducible refine OptKept.of (by assumption) ?_)
    | simp only [Kept.upd]

theorem State.lockout_kept (h : Kept False False False False False False False z s)  : Kept False False False False False False False z (s.lockout) := by
  unfold State.lockout
  repeat'
    first
    | (with_reducible assumption)
    | (extract_lets +onlyGivenNames x; first | (refine (fun hx : Kept False False False False False False False z x => ?_) ?_; clear_value x; rotate_left; subst x) | clear_value x)
    | (with_reducible first | apply Kept.ite | apply State.resetRegisters_kept | apply State.resetUnits_kept | apply State.sprintCut_kept | apply State.stagingCut_kept | apply Kept.clear | apply Kept.updClear)
    | split
    | simp only [Kept.upd, Kept.updMet]

theorem State.feed_kept (h : Kept K F M L P C G z s) (b good : Bool) : Kept K F M L P C G z (s.feed b good) := by
  unfold State.feed
  repeat'
    first
    | (with_reducible assumption)
    | (extract_lets +onlyGivenNames x; first | (refine (fun hx : Kept K F M L P C G z x => ?_) ?_; clear_value x; rotate_left; subst x) | clear_value x)
    | (with_reducible first | apply Kept.ite | apply State.modPower_kept | apply State.pulse_kept | apply State.raise_kept | apply State.showFacts_kept)
    | split
    | (intro t; intros; try dsimp only)

theorem State.holdLow_kept (h : Kept K F M L P C G z s)  : Kept K F M L P C G z (s.holdLow) := by
  unfold State.holdLow
  repeat'
    first
    | (with_reducible assumption)
    | (with_reducible first | apply Kept.ite | apply State.modPower_kept | apply State.pulse_kept | apply State.showFacts_kept)
    | split
    | (intro t; intros; try dsimp only)

theorem State.holdCharged_kept (h : Kept K F M L P C G z s)  : Kept K F M L P C G z (s.holdCharged) := by
  unfold State.holdCharged
  repeat'
    first
    | (with_reducible assumption)
    | (with_reducible first | apply Kept.ite | apply State.modPower_kept | apply State.showFacts_kept)
    | split
    | (intro t; intros; try dsimp only)

theorem State.powerFailWarning_kept (h : Kept False False M False False False False z s)  : Kept False False M False False False False z (s.powerFailWarning) := by
  unfold State.powerFailWarning
  repeat'
    first
    | (with_reducible assumption)
    | (extract_lets +onlyGivenNames x; first | (refine (fun hx : Kept False False M False False False False z x => ?_) ?_; clear_value x; rotate_left; subst x) | clear_value x)
    | (with_reducible first | apply Kept.ite | apply State.each_kept | apply State.feed_kept | apply State.framesStop_kept | apply State.lower_kept | apply State.mbxEnd_kept | apply State.modPower_kept | apply State.modSec_kept | apply State.raise_kept | apply State.setPhase_kept | apply State.stagingCut_kept)
    | split
    | (intro t; intros; try dsimp only)

theorem State.powerFailReset_kept (h : Kept K False False False False False False z s)  : Kept K False False False False False False z (s.powerFailReset) := by
  unfold State.powerFailReset
  repeat'
    first
    | (with_reducible assumption)
    | (extract_lets +onlyGivenNames x; first | (refine (fun hx : Kept K False False False False False False z x => ?_) ?_; clear_value x; rotate_left; subst x) | clear_value x)
    | (with_reducible first | apply Kept.ite | apply State.atTime_kept | apply State.enterReset_kept | apply State.lower_kept | apply State.modSec_kept)
    | split
    | (intro t; intros; try dsimp only)

theorem State.powerFailPorts_kept (h : Kept K F M L False C G z s)  : Kept K F M L False C G z (s.powerFailPorts) := by
  unfold State.powerFailPorts
  repeat'
    first
    | (with_reducible assumption)
    | (with_reducible first | apply Kept.ite | apply State.atTime_kept | apply State.each_kept | apply State.powerFailRelease_kept)
    | split
    | (intro t; intros; try dsimp only)

theorem State.coldReset_kept (h : Kept K False False False False False False z s)  : Kept K False False False False False False z (s.coldReset) := by
  unfold State.coldReset
  repeat'
    first
    | (with_reducible assumption)
    | (extract_lets +onlyGivenNames x; first | (refine (fun hx : Kept K False False False False False False z x => ?_) ?_; clear_value x; rotate_left; subst x) | clear_value x)
    | (with_reducible first | apply Kept.ite | apply State.enterReset_kept | apply State.lower_kept | apply State.modSec_kept)
    | split
    | (intro t; intros; try dsimp only)

theorem State.pwrCtl_kept (h : Kept K False False False False False False z s) (r : Requester) (warm key : Nat) : Kept K False False False False False False z (s.pwrCtl r warm key) := by
  unfold State.pwrCtl
  repeat'
    first
    | (with_reducible assumption)
    | (with_reducible first | apply Kept.ite | apply State.enterReset_kept)
    | split

theorem State.retention_kept (h : Kept K F M L P C G z s) (r : Requester) (v : Nat) : Kept K F M L P C G z (s.retention r v) := by
  unfold State.retention
  repeat'
    first
    | (with_reducible assumption)
    | (with_reducible first | apply Kept.ite | apply State.set_kept)
    | split

theorem State.sprintRequest_kept (h : Kept K F M L P C G z s) (r : Requester) (on : Bool) : Kept K F M L P C G z (s.sprintRequest r on) := by
  unfold State.sprintRequest
  repeat'
    first
    | (with_reducible assumption)
    | (with_reducible first | apply Kept.ite | apply State.set_kept)
    | split

theorem State.sprintLimit_kept (h : Kept K F M L P C G z s)  : Kept K F M L P C G z (s.sprintLimit) := by
  unfold State.sprintLimit
  repeat'
    first
    | (with_reducible assumption)
    | (with_reducible first | apply Kept.ite | apply State.sprintEnd_kept)
    | split

theorem State.poweredMinute_kept (h : Kept K F M L P C G z s)  : Kept K F M L P C G z (s.poweredMinute) := by
  unfold State.poweredMinute
  repeat'
    first
    | (with_reducible assumption)
    | (with_reducible first | apply Kept.ite | apply State.set_kept)
    | split

theorem State.thermalReading_kept (h : Kept K F M L P C G z s) (k v : Nat) : Kept K F M L P C G z (s.thermalReading k v) := by
  unfold State.thermalReading
  repeat'
    first
    | (with_reducible assumption)
    | (extract_lets +onlyGivenNames x; first | (refine (fun hx : Kept K F M L P C G z x => ?_) ?_; clear_value x; rotate_left; subst x) | clear_value x)
    | (with_reducible first | apply Kept.ite | apply State.raise_kept | apply State.set_kept)
    | split

theorem State.thermalSample_kept (h : Kept K F M L P C G z s) (t : List Half) : Kept K F M L P C G z (s.thermalSample t) := by
  unfold State.thermalSample
  repeat'
    first
    | (with_reducible assumption)
    | (extract_lets +onlyGivenNames x; first | (refine (fun hx : Kept K F M L P C G z x => ?_) ?_; clear_value x; rotate_left; subst x) | clear_value x)
    | (with_reducible first | apply Kept.ite | apply State.each_kept | apply State.iff_kept | apply State.modPower_kept | apply State.pulse_kept | apply State.setIf_kept | apply State.thermalReading_kept)
    | split
    | (intro t; intros; try dsimp only)

theorem State.maxClr_kept (h : Kept K F M L P C G z s) (r : Requester) : Kept K F M L P C G z (s.maxClr r) := by
  unfold State.maxClr
  repeat'
    first
    | (with_reducible assumption)
    | (with_reducible first | apply Kept.ite | apply State.each_kept | apply State.set_kept)
    | split
    | (intro t; intros; try dsimp only)

theorem State.ppsOut_kept (h : Kept K F M L P C G z s)  : Kept K F M L P C G z (s.ppsOut) := by
  unfold State.ppsOut
  repeat'
    first
    | (with_reducible assumption)
    | (extract_lets +onlyGivenNames x; first | (refine (fun hx : Kept K F M L P C G z x => ?_) ?_; clear_value x; rotate_left; subst x) | clear_value x)
    | (with_reducible first | apply Kept.ite | apply State.atTime_kept)
    | split
    | simp only [Kept.upd]

end Sys2Proof.Machine
end

