-- ==== Sys2Proof/Laws/KeptRegAccess.lean ====
section
/-! SUPPORT. What the operations of RegAccess.lean keep. -/

namespace Sys2Proof.Machine

variable {z s : State} {K F M L P C G : Prop}

theorem State.wholeRead_kept (h : Kept K F M L P C G z s) (r : Requester) (d : RegDesc) (off : Nat) : Kept K F M L P C G z (s.wholeRead r d off).2 := by
  unfold State.wholeRead
  repeat'
    first
    | (with_reducible assumption)
    | (with_reducible first | apply Kept.ite_snd | apply Kept.ite | apply State.claim_kept | apply State.drawn_kept | apply foldl_kept | apply foldl_pair_kept)
    | split
    | (intro t; intros; try dsimp only)
    | (with_reducible refine Kept.snd (by assumption) ?_)

theorem State.setShadow_kept (h : Kept K F M L P C G z s) (r : Requester) (h : Option HalfWord) : Kept K F M L P C G z (s.setShadow r h) := by
  unfold State.setShadow
  repeat'
    first
    | (with_reducible assumption)
    | split
    | simp only [Kept.upd]

theorem State.setHold_kept (h : Kept K F M L P C G z s) (r : Requester) (h : Option HalfWord) : Kept K F M L P C G z (s.setHold r h) := by
  unfold State.setHold
  repeat'
    first
    | (with_reducible assumption)
    | split
    | simp only [Kept.upd]

theorem State.windowRead_kept (h : Kept K F M L P C G z s) (r : Requester) (off n : Nat) : Kept K F M L P C G z (s.windowRead r off n).2 := by
  unfold State.windowRead
  repeat'
    first
    | (with_reducible assumption)
    | (extract_lets +onlyGivenNames x; first | (refine (fun hx : Kept K F M L P C G z x.2 => ?_) ?_; clear_value x; rotate_left; subst x) | clear_value x)
    | (with_reducible first | apply Kept.ite_snd | apply Kept.ite | apply State.setShadow_kept | apply State.wholeRead_kept)
    | split
    | (with_reducible refine Kept.snd (by assumption) ?_)

theorem State.store_kept (h : Kept K F M L P C G z s) (d : RegDesc) (off mask v : Nat) : Kept K F M L P C G z (s.store d off mask v) := by
  unfold State.store
  repeat'
    first
    | (with_reducible assumption)
    | (with_reducible apply State.setReg_kept)

theorem State.writeFrm_kept (h : Kept K F M L P C False z s) (d : RegDesc) (off mask v : Nat) : Kept K F M L P C False z (s.writeFrm d off mask v) := by
  unfold State.writeFrm
  repeat'
    first
    | (with_reducible assumption)
    | (extract_lets +onlyGivenNames x; first | (refine (fun hx : Kept K F M L P C False z x => ?_) ?_; clear_value x; rotate_left; subst x) | clear_value x)
    | (with_reducible first | apply Kept.ite | apply State.forceFs_kept | apply State.frameSnap_kept | apply State.iff_kept | apply State.ovrCntClr_kept | apply State.releaseArm_kept | apply State.statsClr_kept | apply State.store_kept)
    | split
    | (intro t; intros; try dsimp only)

theorem State.writeSe_kept (h : Kept K F M L P C G z s) (d : RegDesc) (off mask v : Nat) : Kept K F M L P C G z (s.writeSe d off mask v) := by
  unfold State.writeSe
  repeat'
    first
    | (with_reducible assumption)
    | (with_reducible first | apply Kept.ite | apply State.aqBase_kept | apply State.aqConfig_kept | apply State.aqStat_kept | apply State.aqTail_kept | apply State.iff_kept | apply State.seCntClr_kept | apply State.store_kept)
    | split
    | (intro t; intros; try dsimp only)

theorem State.writeLe_kept (h : Kept False F M False False False False z s) (r : Requester) (d : RegDesc) (off mask v : Nat) : Kept False F M False False False False z (s.writeLe r d off mask v) := by
  unfold State.writeLe
  repeat'
    first
    | (with_reducible assumption)
    | (extract_lets +onlyGivenNames x; clear_value x)
    | (with_reducible first | apply Kept.ite | apply State.callDone_kept | apply State.callRet_kept | apply State.iff_kept | apply State.leCntClr_kept | apply State.leDrop_kept | apply State.slotCheck_kept | apply State.store_kept)
    | split
    | (intro t; intros; try dsimp only)

theorem State.writeCas_kept (h : Kept K F M L P C G z s) (d : RegDesc) (off mask v : Nat) : Kept K F M L P C G z (s.writeCas d off mask v) := by
  unfold State.writeCas
  repeat'
    first
    | (with_reducible assumption)
    | (extract_lets +onlyGivenNames x; clear_value x)
    | (with_reducible first | apply Kept.ite | apply State.casCntClr_kept | apply State.iff_kept | apply State.rxTailWrite_kept | apply State.store_kept | apply State.txHeadWrite_kept)
    | split
    | (intro t; intros; try dsimp only)

theorem State.grvRun_kept (h : Kept False F M False False False False z s) (r : Requester) (op g arg : Nat) : Kept False F M False False False False z (s.grvRun r op g arg) := by
  unfold State.grvRun
  repeat'
    first
    | (with_reducible assumption)
    | (extract_lets +onlyGivenNames x; clear_value x)
    | (with_reducible first | apply State.askTick_kept | apply State.cmdBegin_kept | apply State.create_kept | apply State.drain_kept | apply State.freezeAccept_kept | apply State.grvCmd_kept | apply State.promote_kept | apply State.restore_kept | apply State.saveAccept_kept | apply State.switchAccept_kept)
    | split
    | (intro t; intros; try dsimp only)

theorem State.writeGrv_kept (h : Kept False F M False False False False z s) (r : Requester) (d : RegDesc) (off mask v : Nat) : Kept False F M False False False False z (s.writeGrv r d off mask v) := by
  unfold State.writeGrv
  repeat'
    first
    | (with_reducible assumption)
    | (extract_lets +onlyGivenNames x; clear_value x)
    | (with_reducible first | apply Kept.ite | apply State.fwWrite_kept | apply State.grvRun_kept | apply State.store_kept)
    | split

theorem State.writeIrq_kept (h : Kept K F M L P C G z s) (r : Requester) (d : RegDesc) (off mask v : Nat) : Kept K F M L P C G z (s.writeIrq r d off mask v) := by
  unfold State.writeIrq
  repeat'
    first
    | (with_reducible assumption)
    | (extract_lets +onlyGivenNames x; clear_value x)
    | (with_reducible first | apply Kept.ite | apply State.bankWrite_kept | apply State.compatWrite_kept | apply State.configSource_kept | apply State.doorbell_kept | apply State.eoi_kept | apply State.iff_kept | apply State.irqCntClr_kept | apply State.settle_kept | apply State.store_kept)
    | split
    | (intro t; intros; try dsimp only)

theorem State.writeDma_kept (h : Kept K F M L P C G z s) (r : Requester) (d : RegDesc) (off mask v : Nat) : Kept K F M L P C G z (s.writeDma r d off mask v) := by
  unfold State.writeDma
  repeat'
    first
    | (with_reducible assumption)
    | (extract_lets +onlyGivenNames x; clear_value x)
    | (with_reducible first | apply Kept.ite | apply State.dmaCntClr_kept | apply State.dmaHead_kept | apply State.dmaStart_kept | apply State.dmaStop_kept | apply State.iff_kept | apply State.store_kept)
    | split
    | (intro t; intros; try dsimp only)

theorem State.memCntClr_kept (h : Kept K F M L P C G z s)  : Kept K F M L P C G z (s.memCntClr) := by
  unfold State.memCntClr
  repeat'
    first
    | (with_reducible assumption)
    | (extract_lets +onlyGivenNames x; first | (refine (fun hx : Kept K F M L P C G z x => ?_) ?_; clear_value x; rotate_left; subst x) | clear_value x)
    | (with_reducible first | apply State.each_kept | apply State.lower_kept | apply State.setReg_kept)
    | (intro t; intros; try dsimp only)

theorem State.writeHwd_kept (h : Kept K F M L P C G z s) (r : Requester) (d : RegDesc) (off mask v : Nat) : Kept K F M L P C G z (s.writeHwd r d off mask v) := by
  unfold State.writeHwd
  repeat'
    first
    | (with_reducible assumption)
    | (extract_lets +onlyGivenNames x; clear_value x)
    | (with_reducible first | apply Kept.ite | apply State.iff_kept | apply State.mbxGo_kept | apply State.memCntClr_kept | apply State.store_kept)
    | split
    | (intro t; intros; try dsimp only)

theorem State.writePci_kept (h : Kept K F M L P C G z s) (r : Requester) (d : RegDesc) (off mask v : Nat) : Kept K F M L P C G z (s.writePci r d off mask v) := by
  unfold State.writePci
  repeat'
    first
    | (with_reducible assumption)
    | (extract_lets +onlyGivenNames x; clear_value x)
    | (with_reducible first | apply Kept.ite | apply State.mqBase_kept | apply State.mqCfg_kept | apply State.mqD2hHead_kept | apply State.mqH2dTail_kept | apply State.pciCtl_kept | apply State.snapBase_kept | apply State.snapCfg_kept | apply State.store_kept)
    | split

theorem State.writePwr_kept (h : Kept K False False False False False False z s) (r : Requester) (d : RegDesc) (off mask v : Nat) : Kept K False False False False False False z (s.writePwr r d off mask v) := by
  unfold State.writePwr
  repeat'
    first
    | (with_reducible assumption)
    | (with_reducible first | apply Kept.ite | apply State.iff_kept | apply State.maxClr_kept | apply State.pwrCtl_kept | apply State.retention_kept | apply State.sprintRequest_kept | apply State.store_kept)
    | split
    | (intro t; intros; try dsimp only)

theorem State.regSet_kept (h : Kept False False False False False False False z s) (r : Requester) (d : RegDesc) (off mask v : Nat) : Kept False False False False False False False z (s.regSet r d off mask v) := by
  unfold State.regSet
  repeat'
    first
    | (with_reducible assumption)
    | (with_reducible first | apply Kept.ite | apply State.doorbell_kept | apply State.fpCntClr_kept | apply State.iff_kept | apply State.metWrite_kept | apply State.store_kept | apply State.writeCas_kept | apply State.writeDma_kept | apply State.writeFrm_kept | apply State.writeGrv_kept | apply State.writeHwd_kept | apply State.writeIrq_kept | apply State.writeLe_kept | apply State.writePci_kept | apply State.writePwr_kept | apply State.writeSe_kept)
    | split
    | (intro t; intros; try dsimp only)

theorem State.windowWrite_kept (h : Kept False False False False False False False z s) (r : Requester) (off n v : Nat) : OptKept False False False False False False False z (s.windowWrite r off n v) := by
  unfold State.windowWrite
  repeat'
    first
    | (with_reducible assumption)
    | (extract_lets +onlyGivenNames x; clear_value x)
    | (with_reducible first | apply Kept.ite | apply State.regSet_kept | apply State.setHold_kept | apply OptKept.none | apply OptKept.some)
    | split
    | (with_reducible refine OptKept.of (by assumption) ?_)

theorem State.answerMem_kept (h : Kept K F M L P C G z s) (r : MemRes) : Kept K F M L P C G z (s.answerMem r) := by
  cases r <;> first | exact h | exact State.answer_kept h _

theorem State.busRead_kept (h : Kept K F M L P C G z s) (r : Requester) (a n : Nat) : Kept K F M L P C G z (s.busRead r a n) := by
  unfold State.busRead
  repeat'
    first
    | (with_reducible assumption)
    | (extract_lets +onlyGivenNames x; first | (refine (fun hx : Kept K F M L P C G z x => ?_) ?_; clear_value x; rotate_left; subst x) | (refine (fun hx : Kept K F M L P C G z x.2 => ?_) ?_; clear_value x; rotate_left; subst x) | clear_value x)
    | (with_reducible first | apply Kept.ite | apply State.answer_kept | apply State.answerMem_kept | apply State.fwUsed_kept | apply State.memRead_kept | apply State.turnAway_kept | apply State.windowRead_kept)
    | split
    | (with_reducible refine Kept.snd (by assumption) ?_)

theorem State.busWrite_kept (h : Kept False False False False False False False z s) (r : Requester) (a n v : Nat) : Kept False False False False False False False z (s.busWrite r a n v) := by
  unfold State.busWrite
  repeat'
    first
    | (with_reducible assumption)
    | (with_reducible first | apply Kept.ite | apply State.answer_kept | apply State.hostDrop_kept | apply State.memWrite_kept | apply State.windowWrite_kept | apply State.writeAt_kept)
    | split
    | (intro t; intros; try dsimp only)
    | (with_reducible refine Kept.snd (by assumption) ?_)
    | (with_reducible refine OptKept.of (by assumption) ?_)
    | simp only [Kept.upd]

theorem State.transEnd_kept (h : Kept K F M L P C G z s) (r : Requester) : Kept K F M L P C G z (s.transEnd r) := by
  unfold State.transEnd
  repeat'
    first
    | (with_reducible assumption)
    | (extract_lets +onlyGivenNames x; clear_value x)
    | (with_reducible first | apply Kept.ite | apply State.transDone_kept)
    | split
    | simp only [Kept.upd]

end Sys2Proof.Machine
end

