-- ==== Sys2Proof/Laws/KeptCsr.lean ====
section
/-! SUPPORT. What the operations of Csr.lean keep. -/

namespace Sys2Proof.Machine

variable {z s : State} {K F M L P C G : Prop}

theorem State.pmcRead_kept (h : Kept K F M L P C G z s) (c n : Nat) : Kept K F M L P C G z (s.pmcRead c n).2 := by
  unfold State.pmcRead
  repeat'
    first
    | (with_reducible assumption)
    | (extract_lets +onlyGivenNames x; first | (refine (fun hx : Kept K F M L P C G z x => ?_) ?_; clear_value x; rotate_left; subst x) | clear_value x)
    | (with_reducible apply State.pmcSync_kept)
    | (with_reducible refine Kept.snd (by assumption) ?_)

theorem State.csrRead_kept (h : Kept K F M L P C G z s) (c n : Nat) : Kept K F M L P C G z (s.csrRead c n).2 := by
  unfold State.csrRead
  repeat'
    first
    | (with_reducible assumption)
    | (extract_lets +onlyGivenNames x; first | (refine (fun hx : Kept K F M L P C G z x => ?_) ?_; clear_value x; rotate_left; subst x) | clear_value x)
    | (with_reducible first | apply Kept.ite_snd | apply Kept.ite | apply State.pmcRead_kept | apply State.pmcSync_kept)
    | split
    | (with_reducible refine Kept.snd (by assumption) ?_)

theorem State.fcsrWrite_kept (h : Kept K F M L P C G z s) (c n v : Nat) : Kept K F M L P C G z (s.fcsrWrite c n v) := by
  unfold State.fcsrWrite
  repeat'
    first
    | (with_reducible assumption)
    | (extract_lets +onlyGivenNames x; clear_value x)
    | (with_reducible first | apply Kept.ite | apply State.modCtx_kept)
    | split
    | (intro t; intros; try dsimp only)

theorem State.csrWrite_kept (h : Kept K F M L P C G z s) (c n v : Nat) : Kept K F M L P C G z (s.csrWrite c n v) := by
  unfold State.csrWrite
  repeat'
    first
    | (with_reducible assumption)
    | (extract_lets +onlyGivenNames x; first | (refine (fun hx : Kept K F M L P C G z x => ?_) ?_; clear_value x; rotate_left; subst x) | clear_value x)
    | (with_reducible first | apply Kept.ite | apply State.fcsrWrite_kept | apply State.flushPredictor_kept | apply State.iff_kept | apply State.modCore_kept | apply State.pmcSync_kept | apply State.setCsr_kept | apply State.setPcsr_kept)
    | split
    | (intro t; intros; try dsimp only)

end Sys2Proof.Machine
end

