-- ==== Sys2Proof/Laws/KeptTranslate.lean ====
section
/-! SUPPORT. What the operations of Translate.lean keep. -/

namespace Sys2Proof.Machine

variable {z s : State} {K F M L P C G : Prop}

theorem State.checkPhys_kept (h : Kept K F M L P C G z s) (c : CoreId) (k : AccKind) (va n va0 : Nat) (mis : Bool) (pa type : Nat) (rt : Bool) : Kept K F M L P C G z (s.checkPhys c k va n va0 mis pa type rt).2 := by
  unfold State.checkPhys
  repeat'
    first
    | (with_reducible assumption)
    | (extract_lets +onlyGivenNames x; first | (refine (fun hx : Kept K F M L P C G z x.2 => ?_) ?_; clear_value x; rotate_left; subst x) | clear_value x)
    | (with_reducible first | apply Kept.ite_snd | apply Kept.ite | apply State.fwCheck_kept | apply State.trap_kept)
    | split
    | (with_reducible refine Kept.snd (by assumption) ?_)

theorem State.check_kept (h : Kept K F M L P C G z s) (c : CoreId) (k : AccKind) (va n va0 : Nat) (mis : Bool) : Kept K F M L P C G z (s.check c k va n va0 mis).2 := by
  unfold State.check
  repeat'
    first
    | (with_reducible assumption)
    | (with_reducible first | apply Kept.ite_snd | apply Kept.ite | apply State.checkPhys_kept | apply State.trap_kept)
    | split
    | (with_reducible refine Kept.snd (by assumption) ?_)

theorem State.checkParts_kept (c : CoreId) (k : AccKind) (va : Nat) (mis : Bool) (l : List (Nat × Nat)) (h : Kept K F M L P C G z s) : Kept K F M L P C G z (State.checkParts c k va mis l s).2 := by
  induction l generalizing s with
  | nil => exact h
  | cons e l ih =>
    unfold State.checkParts
    repeat'
      first
      | (with_reducible assumption)
      | (extract_lets +onlyGivenNames x; first | (refine (fun hx : Kept K F M L P C G z x => ?_) ?_; clear_value x; rotate_left; subst x) | (refine (fun hx : Kept K F M L P C G z x.2 => ?_) ?_; clear_value x; rotate_left; subst x) | (refine (fun hx : ∀ t, Kept K F M L P C G z t → Kept K F M L P C G z (x t) => ?_) ?_; clear_value x; rotate_left; subst x) | (refine (fun hx : ∀ t a, Kept K F M L P C G z t → Kept K F M L P C G z (x t a) => ?_) ?_; clear_value x; rotate_left; subst x) | (refine (fun hx : ∀ a t, Kept K F M L P C G z t → Kept K F M L P C G z (x a t) => ?_) ?_; clear_value x; rotate_left; subst x) | (refine (fun hx : ∀ t a b d, Kept K F M L P C G z t → Kept K F M L P C G z (x t a b d) => ?_) ?_; clear_value x; rotate_left; subst x) | (refine (fun hx : ∀ a b, Kept K F M L P C G z (x a b) => ?_) ?_; clear_value x; rotate_left; subst x) | clear_value x)
      | (with_reducible first | apply ih | apply State.check_kept)
      | split | (intro t; intros; try dsimp only) | (with_reducible refine Kept.snd (by assumption) ?_)

theorem State.checkAll_kept (h : Kept K F M L P C G z s) (c : CoreId) (k : AccKind) (va n : Nat) : Kept K F M L P C G z (s.checkAll c k va n).2 := by
  unfold State.checkAll
  repeat'
    first
    | (with_reducible assumption)
    | (with_reducible apply State.checkParts_kept)

theorem State.walkBegin_kept (h : Kept K F M L P C G z s) (c va kind : Nat) : Kept K F M L P C G z (s.walkBegin c va kind) := by
  unfold State.walkBegin
  repeat'
    first
    | (with_reducible assumption)
    | (with_reducible first | apply Kept.ite | apply State.modCore_kept)
    | split
    | (intro t; intros; try dsimp only)

theorem State.entryType_kept (h : Kept K F M L P C G z s) (e : RlbEntry) : Kept K F M L P C G z (s.entryType e).2 := by
  unfold State.entryType
  repeat'
    first
    | (with_reducible assumption)
    | (with_reducible first | apply Kept.ite_snd | apply Kept.ite | apply State.drawn_kept)
    | split
    | (with_reducible refine Kept.snd (by assumption) ?_)

theorem State.walkEnd_kept (h : Kept K F M L P C G z s) (c : Nat) (w : Walk) : Kept K F M L P C G z (s.walkEnd c w) := by
  unfold State.walkEnd
  repeat'
    first
    | (with_reducible assumption)
    | (extract_lets +onlyGivenNames x; first | (refine (fun hx : Kept K F M L P C G z x => ?_) ?_; clear_value x; rotate_left; subst x) | (refine (fun hx : Kept K F M L P C G z x.2 => ?_) ?_; clear_value x; rotate_left; subst x) | (refine (fun hx : ∀ t, Kept K F M L P C G z t → Kept K F M L P C G z (x t) => ?_) ?_; clear_value x; rotate_left; subst x) | (refine (fun hx : ∀ t a, Kept K F M L P C G z t → Kept K F M L P C G z (x t a) => ?_) ?_; clear_value x; rotate_left; subst x) | (refine (fun hx : ∀ a t, Kept K F M L P C G z t → Kept K F M L P C G z (x a t) => ?_) ?_; clear_value x; rotate_left; subst x) | (refine (fun hx : ∀ t a b d, Kept K F M L P C G z t → Kept K F M L P C G z (x t a b d) => ?_) ?_; clear_value x; rotate_left; subst x) | (refine (fun hx : ∀ a b, Kept K F M L P C G z (x a b) => ?_) ?_; clear_value x; rotate_left; subst x) | clear_value x)
    | (with_reducible first | apply Kept.ite_snd | apply Kept.ite | apply State.entryType_kept | apply State.modCore_kept | apply State.trap_kept | apply foldl_kept | apply foldl_pair_kept | apply OptKept.none | apply OptKept.some)
    | split
    | (intro t; intros; try dsimp only)
    | (with_reducible refine Kept.snd (by assumption) ?_)
    | (with_reducible refine OptKept.of (by assumption) ?_)
    | with_reducible apply_assumption

theorem State.probeCheck_kept (h : Kept K F M L P C G z s) (c : CoreId) (a : Nat) (f : MemFault) (rt : Bool) : Kept K F M L P C G z (s.probeCheck c a f rt).2 := by
  unfold State.probeCheck
  repeat'
    first
    | (with_reducible assumption)
    | (extract_lets +onlyGivenNames x; first | (refine (fun hx : Kept K F M L P C G z x.2 => ?_) ?_; clear_value x; rotate_left; subst x) | clear_value x)
    | (with_reducible first | apply Kept.ite_snd | apply Kept.ite | apply State.drawn_kept | apply State.fwCheck_kept | apply State.memFault_kept | apply State.memRead_kept)
    | split
    | (with_reducible refine Kept.snd (by assumption) ?_)

theorem State.probeReturn_kept (h : Kept K F M L P C G z s) (c : CoreId) (f : MemFault) (rt : Bool) : Kept K F M L P C G z (s.probeReturn c f rt) := by
  unfold State.probeReturn
  repeat'
    first
    | (with_reducible assumption)
    | (extract_lets +onlyGivenNames x; clear_value x)
    | (with_reducible first | apply Kept.ite | apply State.modCore_kept | apply State.probeCheck_kept | apply State.trap_kept | apply State.walkEnd_kept)
    | split
    | (intro t; intros; try dsimp only)
    | (with_reducible refine Kept.snd (by assumption) ?_)
    | (with_reducible refine OptKept.of (by assumption) ?_)

theorem State.walkProbe_kept (h : Kept K F M L P C G z s) (c : CoreId) (f : MemFault) : Kept K F M L P C G z (s.walkProbe c f) :=
  State.probeReturn_kept (State.drawn_kept h) c f _

end Sys2Proof.Machine
end

