-- ==== Sys2Proof/Laws/KeptCores.lean ====
section
/-! SUPPORT. What the operations of Cores.lean keep. -/

namespace Sys2Proof.Machine

variable {z s : State} {K F M L P C G : Prop}

/-- Every state that the result holds is kept. -/
def Ran.Kept (K F M L P C G : Prop) (z : State) : Ran → Prop
  | .done s => Machine.Kept K F M L P C G z s
  | .wait s => Machine.Kept K F M L P C G z s
  | .trap s _ _ _ => Machine.Kept K F M L P C G z s

theorem ran_kept_done (h : Kept K F M L P C G z s)  : Ran.Kept K F M L P C G z (.done s) := h

theorem ran_of_done {r : Ran} {t : State}  (e : r = .done t) (h : Ran.Kept K F M L P C G z r) : Kept K F M L P C G z t := by
  subst e; exact h

theorem ran_kept_wait (h : Kept K F M L P C G z s)  : Ran.Kept K F M L P C G z (.wait s) := h

theorem ran_of_wait {r : Ran} {t : State}  (e : r = .wait t) (h : Ran.Kept K F M L P C G z r) : Kept K F M L P C G z t := by
  subst e; exact h

theorem ran_kept_trap (h : Kept K F M L P C G z s) (a : Nat) (b : Nat) (d : Nat) : Ran.Kept K F M L P C G z (.trap s a b d) := h

theorem ran_of_trap {r : Ran} {t : State} {a : Nat} {b : Nat} {d : Nat} (e : r = .trap t a b d) (h : Ran.Kept K F M L P C G z r) : Kept K F M L P C G z t := by
  subst e; exact h

theorem ran_kept_ite {c : Prop} [Decidable c] {a b : Ran} (ha : Ran.Kept K F M L P C G z a) (hb : Ran.Kept K F M L P C G z b) :
    Ran.Kept K F M L P C G z (if c then a else b) := by
  split
  · exact ha
  · exact hb

/-- Every state that the result holds is kept. -/
def Fetched.Kept (K F M L P C G : Prop) (z : State) : Fetched → Prop
  | .ok s => Machine.Kept K F M L P C G z s
  | .wait s => Machine.Kept K F M L P C G z s
  | .trap s _ _ _ => Machine.Kept K F M L P C G z s

theorem fetched_kept_ok (h : Kept K F M L P C G z s)  : Fetched.Kept K F M L P C G z (.ok s) := h

theorem fetched_of_ok {r : Fetched} {t : State}  (e : r = .ok t) (h : Fetched.Kept K F M L P C G z r) : Kept K F M L P C G z t := by
  subst e; exact h

theorem fetched_kept_wait (h : Kept K F M L P C G z s)  : Fetched.Kept K F M L P C G z (.wait s) := h

theorem fetched_of_wait {r : Fetched} {t : State}  (e : r = .wait t) (h : Fetched.Kept K F M L P C G z r) : Kept K F M L P C G z t := by
  subst e; exact h

theorem fetched_kept_trap (h : Kept K F M L P C G z s) (a : Nat) (b : Nat) (d : Nat) : Fetched.Kept K F M L P C G z (.trap s a b d) := h

theorem fetched_of_trap {r : Fetched} {t : State} {a : Nat} {b : Nat} {d : Nat} (e : r = .trap t a b d) (h : Fetched.Kept K F M L P C G z r) : Kept K F M L P C G z t := by
  subst e; exact h

theorem fetched_kept_ite {c : Prop} [Decidable c] {a b : Fetched} (ha : Fetched.Kept K F M L P C G z a) (hb : Fetched.Kept K F M L P C G z b) :
    Fetched.Kept K F M L P C G z (if c then a else b) := by
  split
  · exact ha
  · exact hb

theorem State.illegal_kept (h : Kept K F M L P C G z s) (i : Insn) : Ran.Kept K F M L P C G z (illegal s i) := h

theorem State.missesBegin_kept (h : Kept K F M L P C G z s) (c : Nat) (ms : List Miss) : Kept K F M L P C G z (s.missesBegin c ms) := by
  unfold State.missesBegin
  repeat'
    first
    | (with_reducible assumption)
    | (with_reducible first | apply Kept.ite | apply State.modCore_kept | apply State.transCount_kept)
    | split
    | (intro t; intros; try dsimp only)

theorem State.useShadow_kept (h : Kept K F M L P C G z s) (c : Nat) (lines : List Nat) (fetch : Bool) : Kept K F M L P C G z (s.useShadow c lines fetch) := by
  unfold State.useShadow
  repeat'
    first
    | (with_reducible assumption)
    | (extract_lets +onlyGivenNames x; clear_value x)
    | (with_reducible first | apply Kept.ite | apply State.modCore_kept)
    | split
    | (intro t; intros; try dsimp only)

theorem State.fetchLines_kept (h : Kept K F M L P C G z s) (c va : Nat) (ps : List (Phys × Nat)) : Fetched.Kept K F M L P C G z (s.fetchLines c va ps) := by
  unfold State.fetchLines
  repeat'
    first
    | (with_reducible assumption)
    | (extract_lets +onlyGivenNames x; first | (refine (fun hx : Kept K F M L P C G z x => ?_) ?_; clear_value x; rotate_left; subst x) | clear_value x)
    | (with_reducible first | apply Kept.ite | apply State.meetFailed_kept | apply State.missesBegin_kept | apply State.modCore_kept | apply State.transTake_kept | apply State.trap_kept | apply State.useShadow_kept | apply fetched_kept_ok | apply fetched_kept_wait | apply fetched_kept_trap | apply fetched_kept_ite | refine fetched_of_ok (by assumption) ?_ | refine fetched_of_wait (by assumption) ?_ | refine fetched_of_trap (by assumption) ?_)
    | split
    | (intro t; intros; try dsimp only)
    | (with_reducible refine Kept.snd (by assumption) ?_)

theorem State.fetch_kept (h : Kept K F M L P C G z s) (c : CoreId) (len : Nat) : Fetched.Kept K F M L P C G z (s.fetch c len) := by
  unfold State.fetch
  repeat'
    first
    | (with_reducible assumption)
    | (extract_lets +onlyGivenNames x; clear_value x)
    | (with_reducible first | apply Kept.ite | apply State.checkParts_kept | apply State.fetchLines_kept | apply State.trap_kept | apply State.walkBegin_kept | apply fetched_kept_ok | apply fetched_kept_wait | apply fetched_kept_trap | apply fetched_kept_ite | refine fetched_of_ok (by assumption) ?_ | refine fetched_of_wait (by assumption) ?_ | refine fetched_of_trap (by assumption) ?_)
    | split
    | (with_reducible refine Kept.snd (by assumption) ?_)

theorem State.except_kept (h : Kept K F M L P C G z s) (c : Nat) (t : State) (code synd tval : Nat) (ht : Kept K F M L P C G z t) : Kept K F M L P C G z (s.except c t code synd tval) := by
  unfold State.except
  repeat'
    first
    | (with_reducible assumption)
    | (with_reducible first | apply State.settle_kept | apply State.takeInterrupt_kept | apply State.trap_kept | apply ht)
    | split
    | (with_reducible refine OptKept.of (by assumption) ?_)

theorem State.coreInsn_kept (h : Kept K F M L P C G z s) (c : CoreId) (insn : Nat) (row : RvRow) (f : State → Insn → Ran) (hf : ∀ t a, Kept K F M L P C G z t → Ran.Kept K F M L P C G z (f t a)) : Kept K F M L P C G z (s.coreInsn c insn row f) := by
  unfold State.coreInsn
  repeat'
    first
    | (with_reducible assumption)
    | (extract_lets +onlyGivenNames x; clear_value x)
    | (with_reducible first | apply Kept.ite | apply State.except_kept | apply State.fetch_kept | apply State.settle_kept | apply State.trap_kept | apply OptKept.none | apply OptKept.some | apply ran_kept_done | apply ran_kept_wait | apply ran_kept_trap | apply ran_kept_ite | apply fetched_kept_ok | apply fetched_kept_wait | apply fetched_kept_trap | apply fetched_kept_ite | refine ran_of_done (by assumption) ?_ | refine ran_of_wait (by assumption) ?_ | refine ran_of_trap (by assumption) ?_ | refine fetched_of_ok (by assumption) ?_ | refine fetched_of_wait (by assumption) ?_ | refine fetched_of_trap (by assumption) ?_ | apply hf)
    | split

theorem State.devRead_kept (h : Kept K F M L P C G z s) (c : CoreId) (a n : Nat) (rt : Bool) : Kept K F M L P C G z (s.devRead c a n rt).2 := by
  unfold State.devRead
  repeat'
    first
    | (with_reducible assumption)
    | (with_reducible first | apply Kept.ite_snd | apply Kept.ite | apply State.memRead_kept | apply State.windowRead_kept)
    | split
    | (with_reducible refine Kept.snd (by assumption) ?_)

theorem State.partRead_kept (h : Kept K F M L P C G z s) (c : Nat) (p : Phys) (n : Nat) : Kept K F M L P C G z (s.partRead c p n).2 := by
  unfold State.partRead
  repeat'
    first
    | (with_reducible assumption)
    | (with_reducible first | apply Kept.ite_snd | apply Kept.ite | apply State.memRead_kept)
    | split
    | (with_reducible refine Kept.snd (by assumption) ?_)

theorem State.readParts_kept (c : Nat) (f : MemFault) (off : Nat) (l : List (Phys × Nat)) (h : Kept K F M L P C G z s) : Kept K F M L P C G z (State.readParts c f l off s).2 := by
  induction l generalizing s off with
  | nil => exact h
  | cons e l ih =>
    unfold State.readParts
    repeat'
      first
      | (with_reducible assumption)
      | (extract_lets +onlyGivenNames x; first | (refine (fun hx : Kept K F M L P C G z x => ?_) ?_; clear_value x; rotate_left; subst x) | (refine (fun hx : Kept K F M L P C G z x.2 => ?_) ?_; clear_value x; rotate_left; subst x) | (refine (fun hx : ∀ t, Kept K F M L P C G z t → Kept K F M L P C G z (x t) => ?_) ?_; clear_value x; rotate_left; subst x) | (refine (fun hx : ∀ t a, Kept K F M L P C G z t → Kept K F M L P C G z (x t a) => ?_) ?_; clear_value x; rotate_left; subst x) | (refine (fun hx : ∀ a t, Kept K F M L P C G z t → Kept K F M L P C G z (x a t) => ?_) ?_; clear_value x; rotate_left; subst x) | (refine (fun hx : ∀ t a b d, Kept K F M L P C G z t → Kept K F M L P C G z (x t a b d) => ?_) ?_; clear_value x; rotate_left; subst x) | (refine (fun hx : ∀ a b, Kept K F M L P C G z (x a b) => ?_) ?_; clear_value x; rotate_left; subst x) | clear_value x)
      | (with_reducible first | apply ih | apply State.memFault_kept | apply State.partRead_kept | apply Kept.ite_snd)
      | split | (intro t; intros; try dsimp only) | (with_reducible refine Kept.snd (by assumption) ?_)

theorem State.devLoad_kept (h : Kept K F M L P C G z s) (c : CoreId) (f : MemFault) (p : Phys) (n : Nat) : Kept K F M L P C G z (s.devLoad c f p n).2 := by
  unfold State.devLoad
  repeat'
    first
    | (with_reducible assumption)
    | (with_reducible first | apply Kept.ite_snd | apply Kept.ite | apply State.devRead_kept | apply State.memFault_kept | apply State.modCore_kept)
    | split
    | (intro t; intros; try dsimp only)
    | (with_reducible refine Kept.snd (by assumption) ?_)

theorem State.loadBytes_kept (h : Kept K F M L P C G z s) (c : CoreId) (f : MemFault) (ps : List (Phys × Nat)) : Kept K F M L P C G z (s.loadBytes c f ps).2 := by
  unfold State.loadBytes
  repeat'
    first
    | (with_reducible assumption)
    | (extract_lets +onlyGivenNames x; clear_value x)
    | (with_reducible first | apply Kept.ite_snd | apply Kept.ite | apply State.devLoad_kept | apply State.missesBegin_kept | apply State.readParts_kept | apply State.transTake_kept | apply State.useShadow_kept)
    | split
    | (intro t; intros; try dsimp only)
    | (with_reducible refine Kept.snd (by assumption) ?_)

theorem State.load_kept (h : Kept K F M L P C G z s) (c : CoreId) (f : MemFault) (i : Insn) : Ran.Kept K F M L P C G z (s.load c f i) := by
  unfold State.load
  repeat'
    first
    | (with_reducible assumption)
    | (extract_lets +onlyGivenNames x; first | (refine (fun hx : Kept K F M L P C G z x => ?_) ?_; clear_value x; rotate_left; subst x) | clear_value x)
    | (with_reducible first | apply Kept.ite | apply State.checkAll_kept | apply State.events_kept | apply State.loadBytes_kept | apply State.modCore_kept | apply State.retire_kept | apply State.setFr_kept | apply State.setX_kept | apply State.trap_kept | apply State.walkBegin_kept | apply foldl_kept | apply foldl_pair_kept | apply ran_kept_done | apply ran_kept_wait | apply ran_kept_trap | apply ran_kept_ite | refine ran_of_done (by assumption) ?_ | refine ran_of_wait (by assumption) ?_ | refine ran_of_trap (by assumption) ?_)
    | split
    | (intro t; intros; try dsimp only)
    | (with_reducible refine Kept.snd (by assumption) ?_)

theorem State.earlyLoad_kept (h : Kept K F M L P C G z s) (c : CoreId) (insn : Nat) (e : EarlyAccess) : Kept K F M L P C G z (s.earlyLoad c insn e) := by
  unfold State.earlyLoad
  repeat'
    first
    | (with_reducible assumption)
    | (extract_lets +onlyGivenNames x; clear_value x)
    | (with_reducible first | apply Kept.ite | apply State.checkAll_kept | apply State.load_kept | apply State.modCore_kept)
    | split
    | (intro t; intros; try dsimp only)
    | (with_reducible refine Kept.snd (by assumption) ?_)

theorem State.obtain_kept (h : Kept K F M L P C G z s) (c line : Nat) (rt own : Bool) : Kept K F M L P C G z (s.obtain c line rt own).2 := by
  unfold State.obtain
  repeat'
    first
    | (with_reducible assumption)
    | (with_reducible first | apply Kept.ite_snd | apply Kept.ite | apply State.ask_kept)
    | split
    | (with_reducible refine Kept.snd (by assumption) ?_)

theorem State.missDone_kept (h : Kept K F M L P C G z s) (c : CoreId) (m : Miss) : Kept K F M L P C G z (s.missDone c m) := by
  unfold State.missDone
  repeat'
    first
    | (with_reducible assumption)
    | (extract_lets +onlyGivenNames x; first | (refine (fun hx : Kept K F M L P C G z x => ?_) ?_; clear_value x; rotate_left; subst x) | clear_value x)
    | (with_reducible first | apply Kept.ite | apply State.modCore_kept | apply State.transEnd_kept)
    | split
    | (intro t; intros; try dsimp only)

theorem State.missFill_kept (h : Kept K F M L P C G z s) (c : CoreId) (f : MemFault) : Kept K F M L P C G z (s.missFill c f) := by
  unfold State.missFill
  repeat'
    first
    | (with_reducible assumption)
    | (extract_lets +onlyGivenNames x; first | (refine (fun hx : Kept K F M L P C G z x => ?_) ?_; clear_value x; rotate_left; subst x) | clear_value x)
    | (with_reducible first | apply Kept.ite | apply State.asked_kept | apply State.fetch_kept | apply State.memFault_kept | apply State.missDone_kept | apply State.modCore_kept | apply State.obtain_kept | apply State.rtTouch_kept | apply State.shareLine_kept)
    | split
    | (intro t; intros; try dsimp only)
    | (with_reducible refine Kept.snd (by assumption) ?_)

theorem State.replayOver_kept (h : Kept K F M L P C G z s) (c : Nat) (ps : List (Phys × Nat)) : Kept K F M L P C G z (s.replayOver c ps) := by
  unfold State.replayOver
  repeat'
    first
    | (with_reducible assumption)
    | (extract_lets +onlyGivenNames x; clear_value x)
    | (with_reducible apply State.modCore_kept)
    | split
    | (intro t; intros; try dsimp only)

theorem State.storeInsn_kept (h : Kept K F M L P C G z s) (c : CoreId) (i : Insn) : Ran.Kept K F M L P C G z (s.storeInsn c i) := by
  unfold State.storeInsn
  repeat'
    first
    | (with_reducible assumption)
    | (extract_lets +onlyGivenNames x; first | (refine (fun hx : Kept K F M L P C G z x => ?_) ?_; clear_value x; rotate_left; subst x) | clear_value x)
    | (with_reducible first | apply Kept.ite | apply State.checkAll_kept | apply State.events_kept | apply State.modCore_kept | apply State.replayOver_kept | apply State.retire_kept | apply State.store_kept | apply State.trap_kept | apply State.walkBegin_kept | apply ran_kept_done | apply ran_kept_wait | apply ran_kept_trap | apply ran_kept_ite | refine ran_of_done (by assumption) ?_ | refine ran_of_wait (by assumption) ?_ | refine ran_of_trap (by assumption) ?_)
    | split
    | (intro t; intros; try dsimp only)
    | (with_reducible refine Kept.snd (by assumption) ?_)

theorem State.storeLost_kept (h : Kept K F M L P C G z s) (a : Nat) : Kept K F M L P C G z (s.storeLost a) := by
  unfold State.storeLost
  repeat'
    first
    | (with_reducible assumption)
    | (with_reducible first | apply State.inc_kept | apply State.memErr_kept | apply State.memRaise_kept)

theorem State.sbPop_kept (h : Kept K F M L P C G z s) (c : Nat) : Kept K F M L P C G z (s.sbPop c) := by
  unfold State.sbPop
  repeat'
    first
    | (with_reducible assumption)
    | (with_reducible apply State.modCore_kept)
    | (intro t; intros; try dsimp only)

theorem State.devWrite_kept (h : Kept False False False False False False False z s) (c : CoreId) (a n v : Nat) (rt : Bool) : Kept False False False False False False False z (s.devWrite c a n v rt).2 := by
  unfold State.devWrite
  repeat'
    first
    | (with_reducible assumption)
    | (with_reducible first | apply Kept.ite_snd | apply Kept.ite | apply State.memWrite_kept | apply State.windowWrite_kept)
    | split
    | (with_reducible refine Kept.snd (by assumption) ?_)
    | (with_reducible refine OptKept.of (by assumption) ?_)

theorem State.devDrain_kept (h : Kept False False False False False False False z s) (c : CoreId) (e : StoreEntry) : Kept False False False False False False False z (s.devDrain c e) := by
  unfold State.devDrain
  repeat'
    first
    | (with_reducible assumption)
    | (extract_lets +onlyGivenNames x; first | (refine (fun hx : Kept False False False False False False False z x => ?_) ?_; clear_value x; rotate_left; subst x) | (refine (fun hx : Kept False False False False False False False z x.2 => ?_) ?_; clear_value x; rotate_left; subst x) | (refine (fun hx : ∀ t, Kept False False False False False False False z t → Kept False False False False False False False z (x t) => ?_) ?_; clear_value x; rotate_left; subst x) | (refine (fun hx : ∀ t a, Kept False False False False False False False z t → Kept False False False False False False False z (x t a) => ?_) ?_; clear_value x; rotate_left; subst x) | (refine (fun hx : ∀ a t, Kept False False False False False False False z t → Kept False False False False False False False z (x a t) => ?_) ?_; clear_value x; rotate_left; subst x) | (refine (fun hx : ∀ t a b d, Kept False False False False False False False z t → Kept False False False False False False False z (x t a b d) => ?_) ?_; clear_value x; rotate_left; subst x) | (refine (fun hx : ∀ a b, Kept False False False False False False False z (x a b) => ?_) ?_; clear_value x; rotate_left; subst x) | clear_value x)
    | (with_reducible first | apply Kept.ite_snd | apply Kept.ite | apply State.devWrite_kept | apply State.events_kept | apply State.modCore_kept | apply State.retire_kept | apply State.sbPop_kept | apply State.settle_kept | apply State.trap_kept | apply foldl_kept | apply foldl_pair_kept | apply OptKept.none | apply OptKept.some | apply ran_kept_done | apply ran_kept_wait | apply ran_kept_trap | apply ran_kept_ite | apply fetched_kept_ok | apply fetched_kept_wait | apply fetched_kept_trap | apply fetched_kept_ite | refine ran_of_done (by assumption) ?_ | refine ran_of_wait (by assumption) ?_ | refine ran_of_trap (by assumption) ?_ | refine fetched_of_ok (by assumption) ?_ | refine fetched_of_wait (by assumption) ?_ | refine fetched_of_trap (by assumption) ?_)
    | split
    | (intro t; intros; try dsimp only)
    | (with_reducible refine Kept.snd (by assumption) ?_)
    | (with_reducible refine OptKept.of (by assumption) ?_)
    | with_reducible apply_assumption

theorem State.storeDrain_kept (h : Kept False False False False False False False z s) (c : CoreId) (f : MemFault) : Kept False False False False False False False z (s.storeDrain c f) := by
  unfold State.storeDrain
  repeat'
    first
    | (with_reducible assumption)
    | (extract_lets +onlyGivenNames x; first | (refine (fun hx : Kept False False False False False False False z x => ?_) ?_; clear_value x; rotate_left; subst x) | clear_value x)
    | (with_reducible first | apply Kept.ite | apply State.asked_kept | apply State.devDrain_kept | apply State.memFault_kept | apply State.memWrite_kept | apply State.obtain_kept | apply State.rtTouch_kept | apply State.sbPop_kept | apply State.storeLost_kept | apply State.takeLine_kept | apply State.wr_kept)
    | split
    | (with_reducible refine Kept.snd (by assumption) ?_)

theorem State.atomicPlace_kept (h : Kept K F M L P C G z s) (c : CoreId) (k : AccKind) (i : Insn) (g : State → Phys → Nat → Ran) (hg : ∀ t a b, Kept K F M L P C G z t → Ran.Kept K F M L P C G z (g t a b)) : Ran.Kept K F M L P C G z (s.atomicPlace c k i g) := by
  unfold State.atomicPlace
  repeat'
    first
    | (with_reducible assumption)
    | (extract_lets +onlyGivenNames x; clear_value x)
    | (with_reducible first | apply Kept.ite | apply State.checkAll_kept | apply State.trap_kept | apply State.walkBegin_kept | apply ran_kept_done | apply ran_kept_wait | apply ran_kept_trap | apply ran_kept_ite | refine ran_of_done (by assumption) ?_ | refine ran_of_wait (by assumption) ?_ | refine ran_of_trap (by assumption) ?_ | apply hg)
    | split
    | (with_reducible refine Kept.snd (by assumption) ?_)

theorem State.contendStep_kept (h : Kept K F M L P C G z s) (c a : Nat) (up : Bool) : Kept K F M L P C G z (s.contendStep c a up) := by
  unfold State.contendStep
  repeat'
    first
    | (with_reducible assumption)
    | (extract_lets +onlyGivenNames x; clear_value x)
    | (with_reducible first | apply Kept.ite | apply State.modCoh_kept)
    | split
    | (intro t; intros; try dsimp only)

theorem State.nearLine_kept (h : Kept K F M L P C G z s) (c : CoreId) (p : Phys) (f : MemFault) (code va : Nat) (g : State → Ran) (hg : ∀ t, Kept K F M L P C G z t → Ran.Kept K F M L P C G z (g t)) : Ran.Kept K F M L P C G z (s.nearLine c p f code va g) := by
  unfold State.nearLine
  repeat'
    first
    | (with_reducible assumption)
    | (extract_lets +onlyGivenNames x; first | (refine (fun hx : Kept K F M L P C G z x => ?_) ?_; clear_value x; rotate_left; subst x) | clear_value x)
    | (with_reducible first | apply Kept.ite | apply State.asked_kept | apply State.meetFailed_kept | apply State.memFault_kept | apply State.obtain_kept | apply State.rtTouch_kept | apply State.trap_kept | apply ran_kept_done | apply ran_kept_wait | apply ran_kept_trap | apply ran_kept_ite | refine ran_of_done (by assumption) ?_ | refine ran_of_wait (by assumption) ?_ | refine ran_of_trap (by assumption) ?_ | apply hg)
    | split
    | (with_reducible refine Kept.snd (by assumption) ?_)

theorem State.lr_kept (h : Kept K F M L P C G z s) (c : CoreId) (f : MemFault) (i : Insn) : Ran.Kept K F M L P C G z (s.lr c f i) := by
  unfold State.lr
  repeat'
    first
    | (with_reducible assumption)
    | (extract_lets +onlyGivenNames x; first | (refine (fun hx : Kept K F M L P C G z x => ?_) ?_; clear_value x; rotate_left; subst x) | clear_value x)
    | (with_reducible first | apply State.atomicPlace_kept | apply State.events_kept | apply State.modCore_kept | apply State.nearLine_kept | apply State.retire_kept | apply State.setX_kept | apply State.takeLine_kept | apply ran_kept_done | apply ran_kept_wait | apply ran_kept_trap | apply ran_kept_ite | refine ran_of_done (by assumption) ?_ | refine ran_of_wait (by assumption) ?_ | refine ran_of_trap (by assumption) ?_)
    | (intro t; intros; try dsimp only)

theorem State.sc_kept (h : Kept False F M L P C G z s) (c : CoreId) (i : Insn) : Ran.Kept False F M L P C G z (s.sc c i) := by
  unfold State.sc
  repeat'
    first
    | (with_reducible assumption)
    | (extract_lets +onlyGivenNames x; first | (refine (fun hx : Kept False F M L P C G z x => ?_) ?_; clear_value x; rotate_left; subst x) | clear_value x)
    | (with_reducible first | apply Kept.ite | apply State.atomicPlace_kept | apply State.events_kept | apply State.modCore_kept | apply State.obtain_kept | apply State.replayOver_kept | apply State.retire_kept | apply State.setX_kept | apply State.takeLine_kept | apply State.wr_kept | apply ran_kept_done | apply ran_kept_wait | apply ran_kept_trap | apply ran_kept_ite | refine ran_of_done (by assumption) ?_ | refine ran_of_wait (by assumption) ?_ | refine ran_of_trap (by assumption) ?_)
    | split
    | (intro t; intros; try dsimp only)
    | (with_reducible refine Kept.snd (by assumption) ?_)

theorem State.amoPerform_kept (h : Kept False F M L P C G z s) (c pa n : Nat) (w len : Nat) (evs : List Nat) : Kept False F M L P C G z (s.amoPerform c pa n w len evs) := by
  unfold State.amoPerform
  repeat'
    first
    | (with_reducible assumption)
    | (extract_lets +onlyGivenNames x; first | (refine (fun hx : Kept False F M L P C G z x => ?_) ?_; clear_value x; rotate_left; subst x) | clear_value x)
    | (with_reducible first | apply State.events_kept | apply State.retire_kept | apply State.setX_kept | apply State.wr_kept)

theorem State.amo_kept (h : Kept False F M L P C G z s) (c : CoreId) (f : MemFault) (i : Insn) : Ran.Kept False F M L P C G z (s.amo c f i) := by
  unfold State.amo
  repeat'
    first
    | (with_reducible assumption)
    | (extract_lets +onlyGivenNames x; first | (refine (fun hx : Kept False F M L P C G z x => ?_) ?_; clear_value x; rotate_left; subst x) | clear_value x)
    | (with_reducible first | apply Kept.ite | apply State.amoPerform_kept | apply State.atomicPlace_kept | apply State.contendStep_kept | apply State.modCore_kept | apply State.nearLine_kept | apply State.replayOver_kept | apply State.takeLine_kept | apply ran_kept_done | apply ran_kept_wait | apply ran_kept_trap | apply ran_kept_ite | refine ran_of_done (by assumption) ?_ | refine ran_of_wait (by assumption) ?_ | refine ran_of_trap (by assumption) ?_)
    | split
    | (intro t; intros; try dsimp only)

theorem State.fenceInsn_kept (h : Kept K F M L P C G z s) (c : CoreId) (i : Insn) : Ran.Kept K F M L P C G z (s.fenceInsn c i) := by
  unfold State.fenceInsn
  repeat'
    first
    | (with_reducible assumption)
    | (with_reducible first | apply Kept.ite | apply State.retire_kept | apply ran_kept_done | apply ran_kept_wait | apply ran_kept_trap | apply ran_kept_ite | refine ran_of_done (by assumption) ?_ | refine ran_of_wait (by assumption) ?_ | refine ran_of_trap (by assumption) ?_)
    | split

theorem State.fenceIInsn_kept (h : Kept K F M L P C G z s) (c : CoreId) (i : Insn) : Ran.Kept K F M L P C G z (s.fenceIInsn c i) := by
  unfold State.fenceIInsn
  repeat'
    first
    | (with_reducible assumption)
    | (with_reducible first | apply Kept.ite | apply State.modCore_kept | apply State.retire_kept | apply ran_kept_done | apply ran_kept_wait | apply ran_kept_trap | apply ran_kept_ite | refine ran_of_done (by assumption) ?_ | refine ran_of_wait (by assumption) ?_ | refine ran_of_trap (by assumption) ?_)
    | split
    | (intro t; intros; try dsimp only)

theorem State.frameWait_kept (h : Kept False F M False False False False z s) (c : CoreId) (i : Insn) : Ran.Kept False F M False False False False z (s.frameWait c i) := by
  unfold State.frameWait
  repeat'
    first
    | (with_reducible assumption)
    | (with_reducible first | apply Kept.ite | apply State.condEdge_kept | apply State.modCore_kept | apply State.pmcSync_kept | apply State.settle_kept | apply State.taskWait_kept | apply ran_kept_done | apply ran_kept_wait | apply ran_kept_trap | apply ran_kept_ite | refine ran_of_done (by assumption) ?_ | refine ran_of_wait (by assumption) ?_ | refine ran_of_trap (by assumption) ?_)
    | split
    | (intro t; intros; try dsimp only)

theorem State.regionInv_kept (h : Kept K F M L P C G z s) (c : CoreId) (i : Insn) : Ran.Kept K F M L P C G z (s.regionInv c i) := by
  unfold State.regionInv
  repeat'
    first
    | (with_reducible assumption)
    | (extract_lets +onlyGivenNames x; first | (refine (fun hx : Kept K F M L P C G z x => ?_) ?_; clear_value x; rotate_left; subst x) | (refine (fun hx : Kept K F M L P C G z x.2 => ?_) ?_; clear_value x; rotate_left; subst x) | (refine (fun hx : ∀ t, Kept K F M L P C G z t → Kept K F M L P C G z (x t) => ?_) ?_; clear_value x; rotate_left; subst x) | (refine (fun hx : ∀ t a, Kept K F M L P C G z t → Kept K F M L P C G z (x t a) => ?_) ?_; clear_value x; rotate_left; subst x) | (refine (fun hx : ∀ a t, Kept K F M L P C G z t → Kept K F M L P C G z (x a t) => ?_) ?_; clear_value x; rotate_left; subst x) | (refine (fun hx : ∀ t a b d, Kept K F M L P C G z t → Kept K F M L P C G z (x t a b d) => ?_) ?_; clear_value x; rotate_left; subst x) | (refine (fun hx : ∀ a b, Kept K F M L P C G z (x a b) => ?_) ?_; clear_value x; rotate_left; subst x) | clear_value x)
    | (with_reducible first | apply Kept.ite_snd | apply Kept.ite | apply State.modCore_kept | apply State.retire_kept | apply foldl_kept | apply foldl_pair_kept | apply OptKept.none | apply OptKept.some | apply ran_kept_done | apply ran_kept_wait | apply ran_kept_trap | apply ran_kept_ite | apply fetched_kept_ok | apply fetched_kept_wait | apply fetched_kept_trap | apply fetched_kept_ite | refine ran_of_done (by assumption) ?_ | refine ran_of_wait (by assumption) ?_ | refine ran_of_trap (by assumption) ?_ | refine fetched_of_ok (by assumption) ?_ | refine fetched_of_wait (by assumption) ?_ | refine fetched_of_trap (by assumption) ?_)
    | split
    | (intro t; intros; try dsimp only)
    | (with_reducible refine Kept.snd (by assumption) ?_)
    | (with_reducible refine OptKept.of (by assumption) ?_)
    | with_reducible apply_assumption

theorem State.fenceGrove_kept (h : Kept K F M L P C G z s) (c : CoreId) (i : Insn) : Ran.Kept K F M L P C G z (s.fenceGrove c i) := by
  unfold State.fenceGrove
  repeat'
    first
    | (with_reducible assumption)
    | (extract_lets +onlyGivenNames x; first | (refine (fun hx : Kept K F M L P C G z x => ?_) ?_; clear_value x; rotate_left; subst x) | (refine (fun hx : Kept K F M L P C G z x.2 => ?_) ?_; clear_value x; rotate_left; subst x) | (refine (fun hx : ∀ t, Kept K F M L P C G z t → Kept K F M L P C G z (x t) => ?_) ?_; clear_value x; rotate_left; subst x) | (refine (fun hx : ∀ t a, Kept K F M L P C G z t → Kept K F M L P C G z (x t a) => ?_) ?_; clear_value x; rotate_left; subst x) | (refine (fun hx : ∀ a t, Kept K F M L P C G z t → Kept K F M L P C G z (x a t) => ?_) ?_; clear_value x; rotate_left; subst x) | (refine (fun hx : ∀ t a b d, Kept K F M L P C G z t → Kept K F M L P C G z (x t a b d) => ?_) ?_; clear_value x; rotate_left; subst x) | (refine (fun hx : ∀ a b, Kept K F M L P C G z (x a b) => ?_) ?_; clear_value x; rotate_left; subst x) | clear_value x)
    | (with_reducible first | apply Kept.ite_snd | apply Kept.ite | apply State.modCore_kept | apply foldl_kept | apply foldl_pair_kept | apply OptKept.none | apply OptKept.some | apply ran_kept_done | apply ran_kept_wait | apply ran_kept_trap | apply ran_kept_ite | apply fetched_kept_ok | apply fetched_kept_wait | apply fetched_kept_trap | apply fetched_kept_ite | refine ran_of_done (by assumption) ?_ | refine ran_of_wait (by assumption) ?_ | refine ran_of_trap (by assumption) ?_ | refine fetched_of_ok (by assumption) ?_ | refine fetched_of_wait (by assumption) ?_ | refine fetched_of_trap (by assumption) ?_)
    | split
    | (intro t; intros; try dsimp only)
    | (with_reducible refine Kept.snd (by assumption) ?_)
    | (with_reducible refine OptKept.of (by assumption) ?_)
    | with_reducible apply_assumption

theorem State.fenceGroveEnd_kept (h : Kept K F M L P C False z s) (c : Nat) : Kept K F M L P C False z (s.fenceGroveEnd c) := by
  unfold State.fenceGroveEnd
  repeat'
    first
    | (with_reducible assumption)
    | (extract_lets +onlyGivenNames x; first | (refine (fun hx : Kept K F M L P C False z x => ?_) ?_; clear_value x; rotate_left; subst x) | clear_value x)
    | (with_reducible first | apply Kept.ite | apply State.each_kept | apply State.modCore_kept | apply State.modGrv_kept | apply State.retire_kept | apply State.settle_kept)
    | split
    | (intro t; intros; try dsimp only)

theorem State.loopSet_kept (h : Kept K F M L P C G z s) (c : CoreId) (i : Insn) : Ran.Kept K F M L P C G z (s.loopSet c i) := by
  unfold State.loopSet
  repeat'
    first
    | (with_reducible assumption)
    | (extract_lets +onlyGivenNames x; first | (refine (fun hx : Kept K F M L P C G z x => ?_) ?_; clear_value x; rotate_left; subst x) | clear_value x)
    | (with_reducible first | apply Kept.ite | apply State.retireTo_kept | apply State.setCsr_kept | apply ran_kept_done | apply ran_kept_wait | apply ran_kept_trap | apply ran_kept_ite | refine ran_of_done (by assumption) ?_ | refine ran_of_wait (by assumption) ?_ | refine ran_of_trap (by assumption) ?_)
    | split

theorem State.csrInsn_kept (h : Kept K F M L P C G z s) (c : CoreId) (i : Insn) : Ran.Kept K F M L P C G z (s.csrInsn c i) := by
  unfold State.csrInsn
  repeat'
    first
    | (with_reducible assumption)
    | (extract_lets +onlyGivenNames x; first | (refine (fun hx : Kept K F M L P C G z x => ?_) ?_; clear_value x; rotate_left; subst x) | (refine (fun hx : Kept K F M L P C G z x.2 => ?_) ?_; clear_value x; rotate_left; subst x) | (refine (fun hx : ∀ t, Kept K F M L P C G z t → Kept K F M L P C G z (x t) => ?_) ?_; clear_value x; rotate_left; subst x) | (refine (fun hx : ∀ t a, Kept K F M L P C G z t → Kept K F M L P C G z (x t a) => ?_) ?_; clear_value x; rotate_left; subst x) | (refine (fun hx : ∀ a t, Kept K F M L P C G z t → Kept K F M L P C G z (x a t) => ?_) ?_; clear_value x; rotate_left; subst x) | (refine (fun hx : ∀ t a b d, Kept K F M L P C G z t → Kept K F M L P C G z (x t a b d) => ?_) ?_; clear_value x; rotate_left; subst x) | (refine (fun hx : ∀ a b, Kept K F M L P C G z (x a b) => ?_) ?_; clear_value x; rotate_left; subst x) | clear_value x)
    | (with_reducible first | apply Kept.ite_snd | apply Kept.ite | apply State.csrRead_kept | apply State.csrWrite_kept | apply State.iff_kept | apply State.modCore_kept | apply State.retire_kept | apply State.setX_kept | apply foldl_kept | apply foldl_pair_kept | apply OptKept.none | apply OptKept.some | apply ran_kept_done | apply ran_kept_wait | apply ran_kept_trap | apply ran_kept_ite | apply fetched_kept_ok | apply fetched_kept_wait | apply fetched_kept_trap | apply fetched_kept_ite | refine ran_of_done (by assumption) ?_ | refine ran_of_wait (by assumption) ?_ | refine ran_of_trap (by assumption) ?_ | refine fetched_of_ok (by assumption) ?_ | refine fetched_of_wait (by assumption) ?_ | refine fetched_of_trap (by assumption) ?_)
    | split
    | (intro t; intros; try dsimp only)
    | (with_reducible refine Kept.snd (by assumption) ?_)
    | (with_reducible refine OptKept.of (by assumption) ?_)
    | with_reducible apply_assumption

theorem State.ctxSwitch_kept (h : Kept False F M L P C G z s) (c : CoreId) (i : Insn) : Ran.Kept False F M L P C G z (s.ctxSwitch c i) := by
  unfold State.ctxSwitch
  repeat'
    first
    | (with_reducible assumption)
    | (extract_lets +onlyGivenNames x; first | (refine (fun hx : Kept False F M L P C G z x => ?_) ?_; clear_value x; rotate_left; subst x) | (refine (fun hx : Kept False F M L P C G z x.2 => ?_) ?_; clear_value x; rotate_left; subst x) | (refine (fun hx : ∀ t, Kept False F M L P C G z t → Kept False F M L P C G z (x t) => ?_) ?_; clear_value x; rotate_left; subst x) | (refine (fun hx : ∀ t a, Kept False F M L P C G z t → Kept False F M L P C G z (x t a) => ?_) ?_; clear_value x; rotate_left; subst x) | (refine (fun hx : ∀ a t, Kept False F M L P C G z t → Kept False F M L P C G z (x a t) => ?_) ?_; clear_value x; rotate_left; subst x) | (refine (fun hx : ∀ t a b d, Kept False F M L P C G z t → Kept False F M L P C G z (x t a b d) => ?_) ?_; clear_value x; rotate_left; subst x) | (refine (fun hx : ∀ a b, Kept False F M L P C G z (x a b) => ?_) ?_; clear_value x; rotate_left; subst x) | clear_value x)
    | (with_reducible first | apply Kept.ite_snd | apply Kept.ite | apply State.loadCtx_kept | apply State.retire_kept | apply State.saveCtx_kept | apply State.setX_kept | apply State.trap_kept | apply foldl_kept | apply foldl_pair_kept | apply OptKept.none | apply OptKept.some | apply ran_kept_done | apply ran_kept_wait | apply ran_kept_trap | apply ran_kept_ite | apply fetched_kept_ok | apply fetched_kept_wait | apply fetched_kept_trap | apply fetched_kept_ite | refine ran_of_done (by assumption) ?_ | refine ran_of_wait (by assumption) ?_ | refine ran_of_trap (by assumption) ?_ | refine fetched_of_ok (by assumption) ?_ | refine fetched_of_wait (by assumption) ?_ | refine fetched_of_trap (by assumption) ?_)
    | split
    | (intro t; intros; try dsimp only)
    | (with_reducible refine Kept.snd (by assumption) ?_)
    | (with_reducible refine OptKept.of (by assumption) ?_)
    | with_reducible apply_assumption

theorem State.retInsn_kept (h : Kept K F M L P C G z s) (c : CoreId) (h : Level) (i : Insn) : Ran.Kept K F M L P C G z (s.retInsn c h i) := by
  unfold State.retInsn
  repeat'
    first
    | (with_reducible assumption)
    | (extract_lets +onlyGivenNames x; first | (refine (fun hx : Kept K F M L P C G z x => ?_) ?_; clear_value x; rotate_left; subst x) | (refine (fun hx : Kept K F M L P C G z x.2 => ?_) ?_; clear_value x; rotate_left; subst x) | (refine (fun hx : ∀ t, Kept K F M L P C G z t → Kept K F M L P C G z (x t) => ?_) ?_; clear_value x; rotate_left; subst x) | (refine (fun hx : ∀ t a, Kept K F M L P C G z t → Kept K F M L P C G z (x t a) => ?_) ?_; clear_value x; rotate_left; subst x) | (refine (fun hx : ∀ a t, Kept K F M L P C G z t → Kept K F M L P C G z (x a t) => ?_) ?_; clear_value x; rotate_left; subst x) | (refine (fun hx : ∀ t a b d, Kept K F M L P C G z t → Kept K F M L P C G z (x t a b d) => ?_) ?_; clear_value x; rotate_left; subst x) | (refine (fun hx : ∀ a b, Kept K F M L P C G z (x a b) => ?_) ?_; clear_value x; rotate_left; subst x) | clear_value x)
    | (with_reducible first | apply Kept.ite_snd | apply Kept.ite | apply State.counted_kept | apply State.setX_kept | apply State.trapReturn_kept | apply foldl_kept | apply foldl_pair_kept | apply OptKept.none | apply OptKept.some | apply ran_kept_done | apply ran_kept_wait | apply ran_kept_trap | apply ran_kept_ite | apply fetched_kept_ok | apply fetched_kept_wait | apply fetched_kept_trap | apply fetched_kept_ite | refine ran_of_done (by assumption) ?_ | refine ran_of_wait (by assumption) ?_ | refine ran_of_trap (by assumption) ?_ | refine fetched_of_ok (by assumption) ?_ | refine fetched_of_wait (by assumption) ?_ | refine fetched_of_trap (by assumption) ?_)
    | split
    | (intro t; intros; try dsimp only)
    | (with_reducible refine Kept.snd (by assumption) ?_)
    | (with_reducible refine OptKept.of (by assumption) ?_)
    | with_reducible apply_assumption

theorem State.trainPredictor_kept (h : Kept K F M L P C G z s) (c pc w next target : Nat) (taken : Bool) : Kept K F M L P C G z (s.trainPredictor c pc w next target taken) := by
  unfold State.trainPredictor
  repeat'
    first
    | (with_reducible assumption)
    | (extract_lets +onlyGivenNames x; first | (refine (fun hx : Kept K F M L P C G z x => ?_) ?_; clear_value x; rotate_left; subst x) | clear_value x)
    | (with_reducible first | apply Kept.ite | apply State.drawn_kept | apply State.modCore_kept)
    | split
    | (intro t; intros; try dsimp only)

theorem State.branch_kept (h : Kept K F M L P C G z s) (c : Nat) (i : Insn) (taken : Bool) (target : Nat) : Kept K F M L P C G z (s.branch c i taken target) := by
  unfold State.branch
  repeat'
    first
    | (with_reducible assumption)
    | (extract_lets +onlyGivenNames x; first | (refine (fun hx : Kept K F M L P C G z x => ?_) ?_; clear_value x; rotate_left; subst x) | clear_value x)
    | (with_reducible first | apply Kept.ite | apply State.events_kept | apply State.iff_kept | apply State.modCore_kept | apply State.retire_kept | apply State.retireTo_kept | apply State.trainPredictor_kept)
    | split
    | (intro t; intros; try dsimp only)

theorem State.intDone_kept (h : Kept K F M L P C G z s) (c : Nat) (i : Insn) (v : Option Nat) : Ran.Kept K F M L P C G z (s.intDone c i v) := by
  unfold State.intDone
  repeat'
    first
    | (with_reducible assumption)
    | (extract_lets +onlyGivenNames x; first | (refine (fun hx : Kept K F M L P C G z x => ?_) ?_; clear_value x; rotate_left; subst x) | (refine (fun hx : Kept K F M L P C G z x.2 => ?_) ?_; clear_value x; rotate_left; subst x) | (refine (fun hx : ∀ t, Kept K F M L P C G z t → Kept K F M L P C G z (x t) => ?_) ?_; clear_value x; rotate_left; subst x) | (refine (fun hx : ∀ t a, Kept K F M L P C G z t → Kept K F M L P C G z (x t a) => ?_) ?_; clear_value x; rotate_left; subst x) | (refine (fun hx : ∀ a t, Kept K F M L P C G z t → Kept K F M L P C G z (x a t) => ?_) ?_; clear_value x; rotate_left; subst x) | (refine (fun hx : ∀ t a b d, Kept K F M L P C G z t → Kept K F M L P C G z (x t a b d) => ?_) ?_; clear_value x; rotate_left; subst x) | (refine (fun hx : ∀ a b, Kept K F M L P C G z (x a b) => ?_) ?_; clear_value x; rotate_left; subst x) | clear_value x)
    | (with_reducible first | apply Kept.ite_snd | apply Kept.ite | apply State.events_kept | apply State.retire_kept | apply State.setX_kept | apply foldl_kept | apply foldl_pair_kept | apply OptKept.none | apply OptKept.some | apply ran_kept_done | apply ran_kept_wait | apply ran_kept_trap | apply ran_kept_ite | apply fetched_kept_ok | apply fetched_kept_wait | apply fetched_kept_trap | apply fetched_kept_ite | refine ran_of_done (by assumption) ?_ | refine ran_of_wait (by assumption) ?_ | refine ran_of_trap (by assumption) ?_ | refine fetched_of_ok (by assumption) ?_ | refine fetched_of_wait (by assumption) ?_ | refine fetched_of_trap (by assumption) ?_)
    | split
    | (intro t; intros; try dsimp only)
    | (with_reducible refine Kept.snd (by assumption) ?_)
    | (with_reducible refine OptKept.of (by assumption) ?_)
    | with_reducible apply_assumption

theorem State.accrue_kept (h : Kept K F M L P C G z s) (c flags : Nat) : Kept K F M L P C G z (s.accrue c flags) := by
  unfold State.accrue
  repeat'
    first
    | (with_reducible assumption)
    | (with_reducible first | apply Kept.ite | apply State.modCtx_kept)
    | split
    | (intro t; intros; try dsimp only)

theorem State.fpDone_kept (h : Kept K F M L P C G z s) (c : Nat) (i : Insn) (r : Option FpOut) : Ran.Kept K F M L P C G z (s.fpDone c i r) := by
  unfold State.fpDone
  repeat'
    first
    | (with_reducible assumption)
    | (extract_lets +onlyGivenNames x; first | (refine (fun hx : Kept K F M L P C G z x => ?_) ?_; clear_value x; rotate_left; subst x) | (refine (fun hx : Kept K F M L P C G z x.2 => ?_) ?_; clear_value x; rotate_left; subst x) | (refine (fun hx : ∀ t, Kept K F M L P C G z t → Kept K F M L P C G z (x t) => ?_) ?_; clear_value x; rotate_left; subst x) | (refine (fun hx : ∀ t a, Kept K F M L P C G z t → Kept K F M L P C G z (x t a) => ?_) ?_; clear_value x; rotate_left; subst x) | (refine (fun hx : ∀ a t, Kept K F M L P C G z t → Kept K F M L P C G z (x a t) => ?_) ?_; clear_value x; rotate_left; subst x) | (refine (fun hx : ∀ t a b d, Kept K F M L P C G z t → Kept K F M L P C G z (x t a b d) => ?_) ?_; clear_value x; rotate_left; subst x) | (refine (fun hx : ∀ a b, Kept K F M L P C G z (x a b) => ?_) ?_; clear_value x; rotate_left; subst x) | clear_value x)
    | (with_reducible first | apply Kept.ite_snd | apply Kept.ite | apply State.accrue_kept | apply State.events_kept | apply State.retire_kept | apply State.setFr_kept | apply State.setX_kept | apply foldl_kept | apply foldl_pair_kept | apply OptKept.none | apply OptKept.some | apply ran_kept_done | apply ran_kept_wait | apply ran_kept_trap | apply ran_kept_ite | apply fetched_kept_ok | apply fetched_kept_wait | apply fetched_kept_trap | apply fetched_kept_ite | refine ran_of_done (by assumption) ?_ | refine ran_of_wait (by assumption) ?_ | refine ran_of_trap (by assumption) ?_ | refine fetched_of_ok (by assumption) ?_ | refine fetched_of_wait (by assumption) ?_ | refine fetched_of_trap (by assumption) ?_)
    | split
    | (intro t; intros; try dsimp only)
    | (with_reducible refine Kept.snd (by assumption) ?_)
    | (with_reducible refine OptKept.of (by assumption) ?_)
    | with_reducible apply_assumption

theorem State.fma_kept (h : Kept K F M L P C G z s) (c : Nat) (i : Insn) : Ran.Kept K F M L P C G z (s.fma c i) := by
  unfold State.fma
  repeat'
    first
    | (with_reducible assumption)
    | (extract_lets +onlyGivenNames x; first | (refine (fun hx : Kept K F M L P C G z x => ?_) ?_; clear_value x; rotate_left; subst x) | (refine (fun hx : Kept K F M L P C G z x.2 => ?_) ?_; clear_value x; rotate_left; subst x) | (refine (fun hx : ∀ t, Kept K F M L P C G z t → Kept K F M L P C G z (x t) => ?_) ?_; clear_value x; rotate_left; subst x) | (refine (fun hx : ∀ t a, Kept K F M L P C G z t → Kept K F M L P C G z (x t a) => ?_) ?_; clear_value x; rotate_left; subst x) | (refine (fun hx : ∀ a t, Kept K F M L P C G z t → Kept K F M L P C G z (x a t) => ?_) ?_; clear_value x; rotate_left; subst x) | (refine (fun hx : ∀ t a b d, Kept K F M L P C G z t → Kept K F M L P C G z (x t a b d) => ?_) ?_; clear_value x; rotate_left; subst x) | (refine (fun hx : ∀ a b, Kept K F M L P C G z (x a b) => ?_) ?_; clear_value x; rotate_left; subst x) | clear_value x)
    | (with_reducible first | apply Kept.ite_snd | apply Kept.ite | apply State.fpDone_kept | apply foldl_kept | apply foldl_pair_kept | apply OptKept.none | apply OptKept.some | apply ran_kept_done | apply ran_kept_wait | apply ran_kept_trap | apply ran_kept_ite | apply fetched_kept_ok | apply fetched_kept_wait | apply fetched_kept_trap | apply fetched_kept_ite | refine ran_of_done (by assumption) ?_ | refine ran_of_wait (by assumption) ?_ | refine ran_of_trap (by assumption) ?_ | refine fetched_of_ok (by assumption) ?_ | refine fetched_of_wait (by assumption) ?_ | refine fetched_of_trap (by assumption) ?_)
    | split
    | (intro t; intros; try dsimp only)
    | (with_reducible refine Kept.snd (by assumption) ?_)
    | (with_reducible refine OptKept.of (by assumption) ?_)
    | with_reducible apply_assumption

theorem State.other_kept (h : Kept K F M L P C G z s) (c : CoreId) (i : Insn) : Ran.Kept K F M L P C G z (s.other c i) := by
  unfold State.other
  repeat'
    first
    | (with_reducible assumption)
    | (extract_lets +onlyGivenNames x; first | (refine (fun hx : Kept K F M L P C G z x => ?_) ?_; clear_value x; rotate_left; subst x) | (refine (fun hx : Kept K F M L P C G z x.2 => ?_) ?_; clear_value x; rotate_left; subst x) | (refine (fun hx : ∀ t, Kept K F M L P C G z t → Kept K F M L P C G z (x t) => ?_) ?_; clear_value x; rotate_left; subst x) | (refine (fun hx : ∀ t a, Kept K F M L P C G z t → Kept K F M L P C G z (x t a) => ?_) ?_; clear_value x; rotate_left; subst x) | (refine (fun hx : ∀ a t, Kept K F M L P C G z t → Kept K F M L P C G z (x a t) => ?_) ?_; clear_value x; rotate_left; subst x) | (refine (fun hx : ∀ t a b d, Kept K F M L P C G z t → Kept K F M L P C G z (x t a b d) => ?_) ?_; clear_value x; rotate_left; subst x) | (refine (fun hx : ∀ a b, Kept K F M L P C G z (x a b) => ?_) ?_; clear_value x; rotate_left; subst x) | clear_value x)
    | (with_reducible first | apply Kept.ite_snd | apply Kept.ite | apply State.branch_kept | apply State.csrInsn_kept | apply State.fma_kept | apply State.fpDone_kept | apply State.intDone_kept | apply State.setX_kept | apply foldl_kept | apply foldl_pair_kept | apply OptKept.none | apply OptKept.some | apply ran_kept_done | apply ran_kept_wait | apply ran_kept_trap | apply ran_kept_ite | apply fetched_kept_ok | apply fetched_kept_wait | apply fetched_kept_trap | apply fetched_kept_ite | refine ran_of_done (by assumption) ?_ | refine ran_of_wait (by assumption) ?_ | refine ran_of_trap (by assumption) ?_ | refine fetched_of_ok (by assumption) ?_ | refine fetched_of_wait (by assumption) ?_ | refine fetched_of_trap (by assumption) ?_)
    | split
    | (intro t; intros; try dsimp only)
    | (with_reducible refine Kept.snd (by assumption) ?_)
    | (with_reducible refine OptKept.of (by assumption) ?_)
    | with_reducible apply_assumption

theorem State.ecall_kept (h : Kept K F M L P C G z s) (c : Nat) : Ran.Kept K F M L P C G z (s.ecall c) := by
  unfold State.ecall
  repeat'
    first
    | (with_reducible assumption)
    | (with_reducible first | apply State.trap_kept | apply ran_kept_done | apply ran_kept_wait | apply ran_kept_trap | apply ran_kept_ite | refine ran_of_done (by assumption) ?_ | refine ran_of_wait (by assumption) ?_ | refine ran_of_trap (by assumption) ?_)
    | split

theorem State.ebreak_kept (h : Kept K F M L P C G z s) (c : Nat) : Ran.Kept K F M L P C G z (s.ebreak c) := by
  unfold State.ebreak
  repeat'
    first
    | (with_reducible assumption)
    | (with_reducible first | apply State.trap_kept | apply ran_kept_done | apply ran_kept_wait | apply ran_kept_trap | apply ran_kept_ite | refine ran_of_done (by assumption) ?_ | refine ran_of_wait (by assumption) ?_ | refine ran_of_trap (by assumption) ?_)

theorem State.interrupt_kept (h : Kept K F M L P C G z s) (c : Nat) : Kept K F M L P C G z (s.interrupt c) := by
  unfold State.interrupt
  repeat'
    first
    | (with_reducible assumption)
    | (with_reducible first | apply Kept.ite | apply State.endWait_kept | apply State.settle_kept | apply State.takeInterrupt_kept)
    | split
    | (intro t; intros; try dsimp only)
    | (with_reducible refine OptKept.of (by assumption) ?_)

theorem State.pmcOverflow_kept (h : Kept K F M L P C G z s) (c n : Nat) : Kept K F M L P C G z (s.pmcOverflow c n) := by
  unfold State.pmcOverflow
  repeat'
    first
    | (with_reducible assumption)
    | (with_reducible first | apply Kept.ite | apply State.pmcSync_kept | apply State.settle_kept)
    | split

end Sys2Proof.Machine
end

