-- ==== Sys2Proof/Laws/KeptCoherence.lean ====
section
/-! SUPPORT. What the operations of Coherence.lean keep. -/

namespace Sys2Proof.Machine

variable {z s : State} {K F M L P C G : Prop}

theorem State.setTx_kept (h : Kept K F M L P C G z s) (line : Nat) (t : Option OpenTx) : Kept K F M L P C G z (s.setTx line t) := by
  unfold State.setTx
  repeat'
    first
    | (with_reducible assumption)
    | (with_reducible apply State.modCoh_kept)
    | split
    | (intro t; intros; try dsimp only)

theorem State.answerTo_kept (h : Kept K F M L P C G z s) (q : HomeReq) (r : Response) : Kept K F M L P C G z (s.answerTo q r) := by
  unfold State.answerTo
  repeat'
    first
    | (with_reducible assumption)
    | (with_reducible first | apply Kept.ite | apply State.answer_kept)
    | split

theorem State.txClose_kept (h : Kept K F M L P C G z s) (line : Nat) : Kept K F M L P C G z (s.txClose line) := by
  unfold State.txClose
  repeat'
    first
    | (with_reducible assumption)
    | (extract_lets +onlyGivenNames x; first | (refine (fun hx : Kept K F M L P C G z x => ?_) ?_; clear_value x; rotate_left; subst x) | clear_value x)
    | (with_reducible first | apply Kept.ite | apply State.dirMod_kept | apply State.modCoh_kept | apply State.setTx_kept | apply State.transDone_kept)
    | split
    | (intro t; intros; try dsimp only)

theorem State.farPerform_kept (h : Kept False F M L P C G z s) (q : HomeReq) (snooped : Bool) : Kept False F M L P C G z (s.farPerform q snooped) := by
  unfold State.farPerform
  repeat'
    first
    | (with_reducible assumption)
    | (extract_lets +onlyGivenNames x; first | (refine (fun hx : Kept False F M L P C G z x => ?_) ?_; clear_value x; rotate_left; subst x) | (refine (fun hx : Kept False F M L P C G z x.2 => ?_) ?_; clear_value x; rotate_left; subst x) | (refine (fun hx : ∀ t, Kept False F M L P C G z t → Kept False F M L P C G z (x t) => ?_) ?_; clear_value x; rotate_left; subst x) | (refine (fun hx : ∀ t a, Kept False F M L P C G z t → Kept False F M L P C G z (x t a) => ?_) ?_; clear_value x; rotate_left; subst x) | (refine (fun hx : ∀ a t, Kept False F M L P C G z t → Kept False F M L P C G z (x a t) => ?_) ?_; clear_value x; rotate_left; subst x) | (refine (fun hx : ∀ t a b d, Kept False F M L P C G z t → Kept False F M L P C G z (x t a b d) => ?_) ?_; clear_value x; rotate_left; subst x) | (refine (fun hx : ∀ a b, Kept False F M L P C G z (x a b) => ?_) ?_; clear_value x; rotate_left; subst x) | clear_value x)
    | (with_reducible first | apply Kept.ite_snd | apply Kept.ite | apply State.amoPerform_kept | apply State.contendStep_kept | apply State.dropOthers_kept | apply State.modCore_kept | apply State.settle_kept | apply State.toL3_kept | apply State.wr_kept | apply foldl_kept | apply foldl_pair_kept | apply OptKept.none | apply OptKept.some)
    | split
    | (intro t; intros; try dsimp only)
    | (with_reducible refine Kept.snd (by assumption) ?_)
    | (with_reducible refine OptKept.of (by assumption) ?_)
    | with_reducible apply_assumption

theorem State.farFail_kept (h : Kept K F M L P C G z s) (q : HomeReq) : Kept K F M L P C G z (s.farFail q) := by
  unfold State.farFail
  repeat'
    first
    | (with_reducible assumption)
    | (with_reducible first | apply Kept.ite | apply State.modCore_kept | apply State.settle_kept | apply State.trap_kept)
    | split
    | (intro t; intros; try dsimp only)

theorem State.homeRead_kept (h : Kept K F M L P C G z s) (q : HomeReq) (f : MemFault) : Kept K F M L P C G z (s.homeRead q f) := by
  unfold State.homeRead
  repeat'
    first
    | (with_reducible assumption)
    | (extract_lets +onlyGivenNames x; first | (refine (fun hx : Kept K F M L P C G z x => ?_) ?_; clear_value x; rotate_left; subst x) | clear_value x)
    | (with_reducible first | apply Kept.ite | apply State.meetFailed_kept | apply State.memFault_kept | apply State.rtTouch_kept)
    | split

theorem State.grantOwn_kept (h : Kept K F M L P C G z s) (q : HomeReq) (cl : Nat) : Kept K F M L P C G z (s.grantOwn q cl) := by
  unfold State.grantOwn
  repeat'
    first
    | (with_reducible assumption)
    | (extract_lets +onlyGivenNames x; first | (refine (fun hx : Kept K F M L P C G z x => ?_) ?_; clear_value x; rotate_left; subst x) | clear_value x)
    | (with_reducible first | apply State.dirPut_kept | apply State.dropOthers_kept | apply State.each_kept | apply State.fillL2_kept | apply State.iff_kept | apply State.modCore_kept | apply State.toL3_kept)
    | (intro t; intros; try dsimp only)

theorem State.grantSpec_kept (h : Kept K F M L P C G z s) (q : HomeReq) (cl : Nat) : Kept K F M L P C G z (s.grantSpec q cl) := by
  unfold State.grantSpec
  repeat'
    first
    | (with_reducible assumption)
    | (extract_lets +onlyGivenNames x; first | (refine (fun hx : Kept K F M L P C G z x => ?_) ?_; clear_value x; rotate_left; subst x) | clear_value x)
    | (with_reducible first | apply Kept.ite | apply State.dirPut_kept | apply State.modCore_kept)
    | split
    | (intro t; intros; try dsimp only)

theorem State.homeServe_kept (h : Kept K F M L P C G z s) (q : HomeReq) (f : MemFault) (g : State → State) (hg : ∀ t, Kept K F M L P C G z t → Kept K F M L P C G z (g t)) : Kept K F M L P C G z (s.homeServe q f g) := by
  unfold State.homeServe
  repeat'
    first
    | (with_reducible assumption)
    | (extract_lets +onlyGivenNames x; first | (refine (fun hx : Kept K F M L P C G z x => ?_) ?_; clear_value x; rotate_left; subst x) | clear_value x)
    | (with_reducible first | apply Kept.ite | apply State.homeRead_kept | apply hg)
    | split

theorem State.homeWork_kept (h : Kept False F M L P C G z s) (q : HomeReq) (snooped : Bool) (f : MemFault) : Kept False F M L P C G z (s.homeWork q snooped f) := by
  unfold State.homeWork
  repeat'
    first
    | (with_reducible assumption)
    | (extract_lets +onlyGivenNames x; first | (refine (fun hx : Kept False F M L P C G z x => ?_) ?_; clear_value x; rotate_left; subst x) | clear_value x)
    | (with_reducible first | apply Kept.ite | apply State.answerTo_kept | apply State.clearPresence_kept | apply State.farFail_kept | apply State.farPerform_kept | apply State.grantOwn_kept | apply State.grantSpec_kept | apply State.homeRead_kept | apply State.homeServe_kept | apply State.iff_kept | apply State.memFault_kept | apply State.setWb_kept | apply State.shareL2_kept | apply State.toL3_kept | apply State.unitWrite_kept)
    | split
    | (intro t; intros; try dsimp only)
    | (with_reducible refine Kept.snd (by assumption) ?_)

theorem State.txFinish_kept (h : Kept False F M L P C G z s) (line : Nat) (f : MemFault) : Kept False F M L P C G z (s.txFinish line f) := by
  unfold State.txFinish
  repeat'
    first
    | (with_reducible assumption)
    | (extract_lets +onlyGivenNames x; first | (refine (fun hx : Kept False F M L P C G z x => ?_) ?_; clear_value x; rotate_left; subst x) | clear_value x)
    | (with_reducible first | apply Kept.ite | apply State.homeWork_kept | apply State.setTx_kept | apply State.txClose_kept)
    | split

theorem State.answerRetry_kept (h : Kept K F M L P C G z s) (q : HomeReq) : Kept K F M L P C G z (s.answerRetry q) := by
  unfold State.answerRetry
  repeat'
    first
    | (with_reducible assumption)
    | (with_reducible apply State.modCoh_kept)
    | (intro t; intros; try dsimp only)

theorem State.homeAccept_kept (h : Kept False F M L P C G z s) (q : HomeReq) (f : MemFault) : Kept False F M L P C G z (s.homeAccept q f) := by
  unfold State.homeAccept
  repeat'
    first
    | (with_reducible assumption)
    | (extract_lets +onlyGivenNames x; first | (refine (fun hx : Kept False F M L P C G z x => ?_) ?_; clear_value x; rotate_left; subst x) | clear_value x)
    | (with_reducible first | apply Kept.ite | apply State.answerRetry_kept | apply State.dirPut_kept | apply State.setTx_kept | apply State.txFinish_kept)
    | split
    | (intro t; intros; try dsimp only)

theorem State.homeDrain_kept (h : Kept False F M L P C G z s) (line : Nat) (k : Nat) : Kept False F M L P C G z (State.homeDrain line k s) := by
  induction k generalizing s with
  | zero => exact h
  | succ k ih =>
    unfold State.homeDrain
    repeat'
      first
      | (with_reducible assumption)
      | (extract_lets +onlyGivenNames x; first | (refine (fun hx : Kept False F M L P C G z x => ?_) ?_; clear_value x; rotate_left; subst x) | (refine (fun hx : Kept False F M L P C G z x.2 => ?_) ?_; clear_value x; rotate_left; subst x) | (refine (fun hx : ∀ t, Kept False F M L P C G z t → Kept False F M L P C G z (x t) => ?_) ?_; clear_value x; rotate_left; subst x) | (refine (fun hx : ∀ t a, Kept False F M L P C G z t → Kept False F M L P C G z (x t a) => ?_) ?_; clear_value x; rotate_left; subst x) | (refine (fun hx : ∀ a t, Kept False F M L P C G z t → Kept False F M L P C G z (x a t) => ?_) ?_; clear_value x; rotate_left; subst x) | (refine (fun hx : ∀ t a b d, Kept False F M L P C G z t → Kept False F M L P C G z (x t a b d) => ?_) ?_; clear_value x; rotate_left; subst x) | (refine (fun hx : ∀ a b, Kept False F M L P C G z (x a b) => ?_) ?_; clear_value x; rotate_left; subst x) | clear_value x)
      | (with_reducible first | apply ih | apply State.homeAccept_kept | apply State.modCoh_kept)
      | split | (intro t; intros; try dsimp only) | (with_reducible refine Kept.snd (by assumption) ?_)

theorem State.serveQueue_kept (h : Kept False F M L P C G z s) (line : Nat) : Kept False F M L P C G z (s.serveQueue line) := by
  unfold State.serveQueue
  repeat'
    first
    | (with_reducible assumption)
    | (with_reducible apply State.homeDrain_kept)

theorem State.homeArrive_kept (h : Kept False F M L P C G z s) (q : HomeReq) (f : MemFault) : Kept False F M L P C G z (s.homeArrive q f) := by
  unfold State.homeArrive
  repeat'
    first
    | (with_reducible assumption)
    | (extract_lets +onlyGivenNames x; clear_value x)
    | (with_reducible first | apply Kept.ite | apply State.homeAccept_kept | apply State.modCoh_kept | apply State.serveQueue_kept)
    | split
    | (intro t; intros; try dsimp only)

theorem State.homeSend_kept (h : Kept False F M L P C G z s) (q : HomeReq) (f : MemFault) : Kept False F M L P C G z (s.homeSend q f) := by
  unfold State.homeSend
  repeat'
    first
    | (with_reducible assumption)
    | (with_reducible first | apply State.homeArrive_kept | apply State.transTake_kept)
    | split
    | (with_reducible refine Kept.snd (by assumption) ?_)

theorem State.takeWriteBack_kept (h : Kept False F M L P C G z s) (cl line : Nat) : Kept False F M L P C G z (s.takeWriteBack cl line) := by
  unfold State.takeWriteBack
  repeat'
    first
    | (with_reducible assumption)
    | (extract_lets +onlyGivenNames x; first | (refine (fun hx : Kept False F M L P C G z x => ?_) ?_; clear_value x; rotate_left; subst x) | clear_value x)
    | (with_reducible first | apply State.clearPresence_kept | apply State.modCoh_kept | apply State.serveQueue_kept | apply State.setTx_kept | apply State.setWb_kept | apply State.toL3_kept | apply State.txFinish_kept)
    | split
    | (intro t; intros; try dsimp only)

theorem State.writeBack_kept (h : Kept False F M L P C G z s) (cl addr : Nat) : Kept False F M L P C G z (s.writeBack cl addr) := by
  unfold State.writeBack
  repeat'
    first
    | (with_reducible assumption)
    | (extract_lets +onlyGivenNames x; first | (refine (fun hx : Kept False F M L P C G z x => ?_) ?_; clear_value x; rotate_left; subst x) | clear_value x)
    | (with_reducible first | apply Kept.ite | apply State.dropAt_kept | apply State.homeArrive_kept | apply State.setWb_kept | apply State.takeWriteBack_kept | apply State.transTake_kept)
    | split
    | (with_reducible refine Kept.snd (by assumption) ?_)

theorem State.evictLine_kept (h : Kept False F M L P C G z s) (cl addr : Nat) : Kept False F M L P C G z (s.evictLine cl addr) := by
  unfold State.evictLine
  repeat'
    first
    | (with_reducible assumption)
    | (extract_lets +onlyGivenNames x; first | (refine (fun hx : Kept False F M L P C G z x => ?_) ?_; clear_value x; rotate_left; subst x) | (refine (fun hx : Kept False F M L P C G z x.2 => ?_) ?_; clear_value x; rotate_left; subst x) | (refine (fun hx : ∀ t, Kept False F M L P C G z t → Kept False F M L P C G z (x t) => ?_) ?_; clear_value x; rotate_left; subst x) | (refine (fun hx : ∀ t a, Kept False F M L P C G z t → Kept False F M L P C G z (x t a) => ?_) ?_; clear_value x; rotate_left; subst x) | (refine (fun hx : ∀ a t, Kept False F M L P C G z t → Kept False F M L P C G z (x a t) => ?_) ?_; clear_value x; rotate_left; subst x) | (refine (fun hx : ∀ t a b d, Kept False F M L P C G z t → Kept False F M L P C G z (x t a b d) => ?_) ?_; clear_value x; rotate_left; subst x) | (refine (fun hx : ∀ a b, Kept False F M L P C G z (x a b) => ?_) ?_; clear_value x; rotate_left; subst x) | clear_value x)
    | (with_reducible first | apply Kept.ite_snd | apply Kept.ite | apply State.dropAt_kept | apply State.homeArrive_kept | apply State.transTake_kept | apply foldl_kept | apply foldl_pair_kept | apply OptKept.none | apply OptKept.some)
    | split
    | (intro t; intros; try dsimp only)
    | (with_reducible refine Kept.snd (by assumption) ?_)
    | (with_reducible refine OptKept.of (by assumption) ?_)
    | with_reducible apply_assumption

theorem State.snoop_kept (h : Kept False F M L P C G z s) (cl addr : Nat) (evicting : Bool) : Kept False F M L P C G z (s.snoop cl addr evicting) := by
  unfold State.snoop
  repeat'
    first
    | (with_reducible assumption)
    | (extract_lets +onlyGivenNames x; first | (refine (fun hx : Kept False F M L P C G z x => ?_) ?_; clear_value x; rotate_left; subst x) | clear_value x)
    | (with_reducible first | apply Kept.ite | apply State.clearPresence_kept | apply State.dirMod_kept | apply State.dropAt_kept | apply State.iff_kept | apply State.serveQueue_kept | apply State.setL2_kept | apply State.setTx_kept | apply State.setWb_kept | apply State.takeWriteBack_kept | apply State.toL3_kept | apply State.txFinish_kept)
    | split
    | (intro t; intros; try dsimp only)

theorem State.completionAck_kept (h : Kept False F M L P C G z s) (addr : Nat) : Kept False F M L P C G z (s.completionAck addr) := by
  unfold State.completionAck
  repeat'
    first
    | (with_reducible assumption)
    | (extract_lets +onlyGivenNames x; clear_value x)
    | (with_reducible first | apply Kept.ite | apply State.serveQueue_kept | apply State.txClose_kept)
    | split

theorem State.reissue_kept (h : Kept False F M L P C G z s) (cl addr : Nat) : Kept False F M L P C G z (s.reissue cl addr) := by
  unfold State.reissue
  repeat'
    first
    | (with_reducible assumption)
    | (with_reducible first | apply Kept.ite | apply State.homeArrive_kept | apply State.modCoh_kept | apply State.transTake_kept)
    | split
    | (intro t; intros; try dsimp only)
    | (with_reducible refine Kept.snd (by assumption) ?_)

theorem State.atomicFar_kept (h : Kept False F M L P C G z s) (cl addr : Nat) (f : MemFault) : Kept False F M L P C G z (s.atomicFar cl addr f) := by
  unfold State.atomicFar
  repeat'
    first
    | (with_reducible assumption)
    | (extract_lets +onlyGivenNames x; clear_value x)
    | (with_reducible apply State.homeSend_kept)
    | split
    | (intro t; intros; try dsimp only)

theorem State.readCurrent_kept (h : Kept False F M L P C G z s) (r : Requester) (a n : Nat) (rt : Bool) (f : MemFault) : Kept False F M L P C G z (s.readCurrent r a n rt f) := by
  unfold State.readCurrent
  repeat'
    first
    | (with_reducible assumption)
    | (with_reducible first | apply Kept.ite | apply State.fwUsed_kept | apply State.homeSend_kept | apply State.turnAway_kept)
    | split

theorem State.writeInv_kept (h : Kept False F M L P C G z s) (r : Requester) (a : Nat) (bs : List Byte) (rt : Bool) (f : MemFault) : Kept False F M L P C G z (s.writeInv r a bs rt f) := by
  unfold State.writeInv
  repeat'
    first
    | (with_reducible assumption)
    | (with_reducible first | apply Kept.ite | apply State.fwUsed_kept | apply State.homeSend_kept | apply State.turnAway_kept)
    | split

theorem State.patrolEnd_kept (h : Kept K F M L P C G z s) (found : List (PAddr × MemFault)) : Kept K F M L P C G z (s.patrolEnd found) := by
  unfold State.patrolEnd
  repeat'
    first
    | (with_reducible assumption)
    | (extract_lets +onlyGivenNames x; first | (refine (fun hx : Kept K F M L P C G z x => ?_) ?_; clear_value x; rotate_left; subst x) | clear_value x)
    | (with_reducible first | apply State.each_kept | apply State.inc_kept | apply State.lower_kept | apply State.meetFailed_kept | apply State.patrolFind_kept)
    | (intro t; intros; try dsimp only)

theorem State.rebuildEnd_kept (h : Kept K F M L P C G z s)  : Kept K F M L P C G z (s.rebuildEnd) := by
  unfold State.rebuildEnd
  repeat'
    first
    | (with_reducible assumption)
    | (with_reducible first | apply State.lower_kept | apply State.memBell_kept | apply State.modCoh_kept | apply State.raise_kept | apply State.set_kept)
    | split
    | (intro t; intros; try dsimp only)

theorem State.bankAwake_kept (h : Kept K F M L P C G z s) (bank : Nat) : Kept K F M L P C G z (s.bankAwake bank) := by
  unfold State.bankAwake
  repeat'
    first
    | (with_reducible assumption)
    | (with_reducible first | apply Kept.ite | apply State.modCoh_kept | apply State.set_kept)
    | split
    | (intro t; intros; try dsimp only)

theorem State.sealedWiped_kept (h : Kept False F M L P C G z s)  : Kept False F M L P C G z (s.sealedWiped) := by
  unfold State.sealedWiped
  repeat'
    first
    | (with_reducible assumption)
    | (extract_lets +onlyGivenNames x; first | (refine (fun hx : Kept False F M L P C G z x => ?_) ?_; clear_value x; rotate_left; subst x) | clear_value x)
    | (with_reducible first | apply Kept.ite | apply State.clearMem_kept | apply State.modCoh_kept | apply State.set_kept)
    | split
    | (intro t; intros; try dsimp only)

end Sys2Proof.Machine
end

