-- ==== Sys2Proof/Laws/KeptDebug.lean ====
section
/-! SUPPORT. What the operations of Debug.lean keep. -/

namespace Sys2Proof.Machine

variable {z s : State} {K F M L P C G : Prop}

theorem State.dbgHalt_kept (h : Kept K F M L P C G z s) (c : Nat) : Kept K F M L P C G z (s.dbgHalt c) := by
  unfold State.dbgHalt
  repeat'
    first
    | (with_reducible assumption)
    | (with_reducible apply State.modCore_kept)
    | (intro t; intros; try dsimp only)

theorem State.dbgRun_kept (h : Kept K F M L P C G z s) (c : Nat) (step : Bool) : Kept K F M L P C G z (s.dbgRun c step) := by
  unfold State.dbgRun
  repeat'
    first
    | (with_reducible assumption)
    | (with_reducible first | apply Kept.ite | apply State.modCore_kept)
    | split
    | (intro t; intros; try dsimp only)

theorem State.asE_kept (h : Kept K F M L P C G z s) (c : Nat) (f : State → State) (hf : ∀ t, Kept K F M L P C G z t → Kept K F M L P C G z (f t)) : Kept K F M L P C G z (s.asE c f) := by
  unfold State.asE
  repeat'
    first
    | (with_reducible assumption)
    | (extract_lets +onlyGivenNames x; clear_value x)
    | (with_reducible first | apply State.setLevel_kept | apply hf)

theorem State.dbgReg_kept (h : Kept K F M L P C G z s) (c n : Nat) : Kept K F M L P C G z (s.dbgReg c n).2 := by
  unfold State.dbgReg
  repeat'
    first
    | (with_reducible assumption)
    | (extract_lets +onlyGivenNames x; first | (refine (fun hx : Kept K F M L P C G z x.2 => ?_) ?_; clear_value x; rotate_left; subst x) | clear_value x)
    | (with_reducible first | apply Kept.ite_snd | apply Kept.ite | apply State.csrRead_kept)
    | split
    | (with_reducible refine Kept.snd (by assumption) ?_)

theorem State.dbgSetReg_kept (h : Kept K F M L P C G z s) (c n v : Nat) : OptKept K F M L P C G z (s.dbgSetReg c n v) := by
  unfold State.dbgSetReg
  repeat'
    first
    | (with_reducible assumption)
    | (with_reducible first | apply Kept.ite | apply State.csrWrite_kept | apply State.setFr_kept | apply State.setPc_kept | apply State.setX_kept | apply OptKept.none | apply OptKept.some | apply ran_kept_done | apply ran_kept_wait | apply ran_kept_trap | apply ran_kept_ite | apply fetched_kept_ok | apply fetched_kept_wait | apply fetched_kept_trap | apply fetched_kept_ite | refine ran_of_done (by assumption) ?_ | refine ran_of_wait (by assumption) ?_ | refine ran_of_trap (by assumption) ?_ | refine fetched_of_ok (by assumption) ?_ | refine fetched_of_wait (by assumption) ?_ | refine fetched_of_trap (by assumption) ?_)
    | split

theorem State.dbgExec_kept (h : Kept False False False False False False False z s) (c : CoreId) (w : Nat) : OptKept False False False False False False False z (s.dbgExec c w) := by
  unfold State.dbgExec
  extract_lets i ended
  have he : ∀ r, Ran.Kept False False False False False False False z r → OptKept False False False False False False False z (ended r) := by
    intro r hr
    cases r with
    | done t => exact OptKept.some hr
    | wait t => exact OptKept.none
    | trap t => exact OptKept.none
  clear_value ended
  split
  · exact OptKept.none
  · split
    case h_2 =>
      have hs := State.storeInsn_kept h c i
      split
      · exact OptKept.some (State.storeDrain_kept (ran_of_done (by assumption) hs) c .none)
      · split
        · exact OptKept.none
        · exact OptKept.some (State.storeDrain_kept (ran_of_wait (by assumption) hs) c .none)
      · exact OptKept.none
    all_goals first
      | exact OptKept.none
      | exact he _ (State.load_kept h c .none i)
      | exact he _ (State.amo_kept h c .none i)
      | exact he _ (State.lr_kept h c .none i)
      | exact he _ (State.sc_kept h c i)
      | exact he _ (State.fenceInsn_kept h c i)
      | exact he _ (State.fenceIInsn_kept h c i)
      | exact he _ (State.csrInsn_kept h c i)
      | exact he _ (State.other_kept h c i)

theorem State.dbgProgbuf_kept (h : Kept False False False False False False False z s) (c : CoreId) (a b : Nat) : Kept False False False False False False False z (s.dbgProgbuf c a b) := by
  unfold State.dbgProgbuf
  extract_lets k run r
  split
  · exact State.answer_kept h _
  · have hr : OptKept False False False False False False False z r := by
      simp only [r, run]
      split
      · exact OptKept.some h
      · split
        · exact OptKept.none
        · have ht := OptKept.of (by assumption) (State.dbgExec_kept (State.setLevel_kept h c.val .e) c a)
          split
          · exact OptKept.some ht
          · exact State.dbgExec_kept ht c b
    clear_value r
    cases r with
    | none => exact State.answer_kept h _
    | some t =>
      exact State.answer_kept (State.setLevel_kept (State.setPc_kept (State.modCore_kept (hr t rfl) _ _) _ _) _ _) _

theorem State.dbgBus_kept (h : Kept K F M L P C G z s) (c : CoreId) (a n : Nat) (f : State → State) (hf : ∀ t, Kept K F M L P C G z t → Kept K F M L P C G z (f t)) : Kept K F M L P C G z (s.dbgBus c a n f) := by
  unfold State.dbgBus
  repeat'
    first
    | (with_reducible assumption)
    | (with_reducible first | apply Kept.ite | apply State.answer_kept | apply State.asE_kept | apply hf)
    | split

theorem State.dmi_kept (h : Kept False False False False False False False z s) (op : DmiOp) : Kept False False False False False False False z (s.dmi op) := by
  unfold State.dmi
  repeat'
    first
    | (with_reducible assumption)
    | (with_reducible first | apply Kept.ite | apply State.answer_kept | apply State.busRead_kept | apply State.busWrite_kept | apply State.dbgBus_kept | apply State.dbgHalt_kept | apply State.dbgProgbuf_kept | apply State.dbgReg_kept | apply State.dbgRun_kept | apply State.dbgSetReg_kept)
    | split
    | (intro t; intros; try dsimp only)
    | (with_reducible refine Kept.snd (by assumption) ?_)
    | (with_reducible refine OptKept.of (by assumption) ?_)

end Sys2Proof.Machine
end

