-- ==== Sys2Proof/Laws/KeptSignalRows.lean ====
section
/-! SUPPORT. What the operations of SignalRows.lean keep. -/

namespace Sys2Proof.Machine

variable {z s : State} {K F M L P C G : Prop}

theorem State.tagRow_kept (h : Kept False F M L P C G z s) (r : Requester) (tag off size v : Nat) : Kept False F M L P C G z (s.tagRow r tag off size v) := by
  unfold State.tagRow
  repeat'
    first
    | (with_reducible assumption)
    | (with_reducible first | apply Kept.ite | apply State.tagStore_kept | apply State.writeAt_kept)
    | split
    | (intro t; intros; try dsimp only)

end Sys2Proof.Machine
end

