-- ==== Sys2Proof/Tests/Slice0.lean ====
section
/-! SUPPORT. The model's own tests, on small states: which terms are ill formed; for every statement that has hypotheses, one theorem
for a state and operands that meet them, clause by clause; and a few single steps worked out by hand from the spec's rules. -/

namespace Sys2Proof.Tests
open Sys2Proof Sys2Proof.Machine
set_option Elab.async false

/-! ### Ill-formed commands -/

/-- R18: an access has 1, 2, 4 or 8 bytes, and its value fits. -/
theorem test_wf_access_size : (Instr.registerWrite .host 0 3 0).wf = false ∧ (Instr.registerWrite .host 0 4 0x1_0000_0000).wf = false ∧
    (Instr.valueWrite .host 0 0 0).wf = false ∧ (Instr.tuningWrite .host 0 0 1 0x100).wf = false ∧
    (Instr.configurationWrite .host 0 0 16 0).wf = false ∧ (Instr.leTuningWrite .host 0 5 0).wf = false ∧
    (Instr.readCurrent .host 0 65 ⟨false, .none⟩).wf = false ∧ (Instr.registerWrite .host 0 4 0xFFFF_FFFF).wf = true := by decide

/-- R224, R235, R391: link frames, cells and invalidating writes have their lengths. -/
theorem test_wf_lengths : (Instr.linkFrameReceived 0 ⟨List.replicate 9 0, false, 0⟩).wf = false ∧
    (Instr.linkFrameReceived 0 ⟨List.replicate 8 0, false, 0⟩).wf = true ∧
    (∀ c ∈ [Instr.hello 0, .cert 0, .keyx 0, .confirm 0, .diagReq 0, .diagRsp 0, fun m => .dreq 0 m 0, fun m => .drsp 0 m 0,
      fun m => .beat 0 m 0, .data, .req, .rsp, .xfer], (c (List.replicate 63 0)).wf = false ∧ (c (List.replicate 64 0)).wf = true) ∧
    (Instr.writeInv .host 0 ⟨[], false, .none⟩).wf = false ∧ (Instr.writeInv .host 0 ⟨List.replicate 65 0, false, .none⟩).wf = false ∧
    (Instr.writeInv .host 0 ⟨List.replicate 64 0, false, .none⟩).wf = true := by decide

/-- R471, R521: three phases of a feeder, nine readings of a temperature sample; a debug access has a size. -/
theorem test_wf_samples : (Instr.integrationIntervalEnd [⟨[0], [0, 0, 0], [0, 0, 0], [0, 0, 0], 0, 0, 0⟩]).wf = false ∧
    (Instr.integrationIntervalEnd [⟨[0, 0, 0], [0, 0, 0], [0, 0, 0], [0, 0, 0], 0, 0, 64⟩]).wf = false ∧
    (Instr.thermalSample (List.replicate 8 0)).wf = false ∧ (Instr.thermalSample (List.replicate 9 0)).wf = true ∧
    (Instr.dmiAccess (.busRead 0 0 3)).wf = false ∧ (Instr.dmiAccess (.busWrite 0 0 1 0x100)).wf = false ∧
    (Instr.dmiAccess (.halt 0)).wf = true := by decide

/-! ### States for the statements' hypotheses -/

/-- Set fields, in order. -/
def with_ (s : State) (l : List (Fld × Nat)) : State := l.foldl (fun t e => t.set e.1 e.2) s

/-- A core at E level. -/
def base : State := State.reset.setCore 0 { ctx := { level := .e }, ctxId := some 0 }

/-- The requester of the tests. -/
def r0 : Requester := .core 0

def admits (s : State) (r : Requester) (off n : Nat) : Bool := s.present r && s.reaches r .write (winBase + off) n

/-- A grove of units 0, in exec mode, that holds the first 100 grains of memory. -/
def rec0 : GroveRec := { exec := true, cores := 1, lanes := 1, engines := 1, ports := 3, tagFirst := 0, tagCount := 64, ctxFirst := 1, ctxCount := 8, irqFirst := 64, irqCount := 64, mem := [(0, 100)] }

/-- Start is complete, the time acquired, frame 5 of 1 ms frames computes; grove 0 runs and may access all memory, grove 1 is frozen. -/
def running : State :=
  (with_ (({ base with groves := [(0, { cfg := rec0 }), (1, {})], now := 5_000_100 }.setReg Rg.FRM_NUMBER 5).setReg Rg.FRM_TICK_TIME 5_000_000)
    [(⟨Rg.GRV_FW 0 0, 63, 0⟩, 0xF + 0x80_0000 * 2 ^ 40), (⟨Rg.GRV_FW 0 1, 63, 0⟩, 0xF + 0x100_0000 * 2 ^ 12 + 0x4_2000 * 2 ^ 40), (Fd.CFG_STAT.DONE, 1), (Fd.TIME_STAT.ACQUIRED, 1), (Fd.FRM_STAT.RUNNING, 1), (Fd.FRM_STAT.PHASE, 2), (Fd.FRM_PERIOD.PERIOD_NS, 1_000_000),
     (Fd.FRM_PHASE_OFS.GUARD_NS, 5000), (Fd.GRV_STAT.STATE 0, stRunning), (Fd.GRV_STAT.STATE 1, stFrozen)]).modStart fun x => { x with phase := .done }

theorem witness_base : admits base r0 Rg.FRM_CTL 4 = true ∧ running.runningGroves = [0] := by decide +kernel

/-! ### Hypotheses: structure and frames -/

theorem witness_StepRunsTheFrontCommand : ∃ s : State, s.pending = [Instr.tick, .sweepEnd] ∧ State.reset.pending = [] :=
  ⟨{ State.reset with pending := [.tick, .sweepEnd] }, rfl, rfl⟩

/-- A canonical state, a step that answers, and one that writes memory. -/
theorem witness_StepKeepsForms : ∃ s t : State, s.wf ∧ step s = .next t ∧ s.pending ≠ [] :=
  ⟨{ State.reset with pending := [.wheelTurn] }, _, by unfold State.wf; decide +kernel, rfl, by decide⟩

theorem witness_MemoryIsLittleEndian : (7 : Nat) < 8 ∧ ((0xFF : Nat) < 0x100 ∨ 0x100 + 8 ≤ 0xFF) ∧ ((0x108 : Nat) < 0x100 ∨ 0x100 + 8 ≤ 0x108) := by decide

theorem witness_TickBeginsAFrame : running.frame.stopped = false ∧ running.mayTick = true ∧ running.nextTick < 2 ^ 64 ∧
    running.frameNo + 1 < 2 ^ 64 := by decide +kernel

/-- Frame 5 after its sweep, and grove 0 committing. -/
def swept : State := running.modFrame fun f => { f with eTime := some 5_000_050 }
def staging : State := swept.modGrv 0 fun x => { x with staging := true, sTime := some 5_000_090 }

theorem witness_FramePhasesEnd :
    (running.frameRunning = true ∧ running.frame.eTime = none ∧ running.frame.decided = false ∧ running.frame.swept < 2 ^ 64 ∧ (7 : Nat) < 8) ∧
    (swept.frameRunning = true ∧ swept.frame.eTime.isSome = true ∧ swept.frame.decided = false ∧
      ∃ g ∈ swept.runningGroves, (swept.grv g).sTime = none) ∧
    (staging.frameRunning = true ∧ staging.frame.eTime.isSome = true ∧ staging.frame.decided = false ∧
      (∀ g ∈ staging.runningGroves, (staging.grv g).sTime ≠ none) ∧ staging.runningGroves ≠ []) ∧
    (staging.grv (0 : GroveId).val).staging = true := by decide +kernel

/-- A task of grove 63 runs on core 0; port 1 has a release to come; grove 63 is in fail-safe. -/
def tasked : State := ((running.modCore 0 fun k => { k with task := some 0 }).modFrame fun f => { f with
  tasks := [{ grove := 63, core := 0, cls := 0, order := 0, ctx := 1, budget := 1000, entry := 0, arg := 0 }] }).set (Fd.FRM_GRV_STAT.FAILSAFE 63) 1

theorem witness_FrameControls :
    ((tasked.core (0 : CoreId).val).task = some 0 ∧ (tasked.frame.tasks[0]?.map (·.grove)) = some 63) ∧
    running.releaseDue (71 : FieldPort).val = true ∧
    Admitted tasked r0 (Rg.FRM_GRV_CTL (63 : GroveId).val) 4 ∧ tasked.failsafe (63 : GroveId).val = true ∧
    Admitted tasked r0 Rg.FRM_CTL 4 ∧ tasked.now < 2 ^ 64 := by
  unfold Admitted; decide +kernel

/-! ### Hypotheses: the Loop Engine -/

/-- Lane 0 has instance 0 to run, of code `op`: OUT1 names exchange entry 0, S0 is `s0`. -/
def blockState (op s0 : Nat) : State :=
  (((running.wr (instrAddr 0) 1 op).wr (instrAddr 0 + 24) 4 0xC000_0000).wr (stateAddr 0) 4 s0).setLane 0 { block := some 0 }

/-- A lane's next block is ready and has no fault: the hypotheses of `BlockRuns`. -/
def runnable (s : State) (l : LaneId) (op : Nat) : Bool := match s.blockReady l.val op with
  | some (b, bs, _) => (s.blockFault b bs).isNone
  | none => false

/-- Each code of a block but CHAR and CALL, for the boundary values 1 and 4096 of a delay line's length. -/
theorem witness_BlockRuns : ∀ op ∈ List.range 0x31, op = 0 ∨ op = 0x12 ∨ op = 0x2E ∨
    (runnable (blockState op 1) 0 op = true ∧ runnable (blockState op 4096) 0 op = true) := by decide +kernel

theorem witness_BlockRuns_char : runnable ((blockState 0x12 0).modSignal fun x => { x with curveCount := 1 }) 0 0x12 = true := by
  decide +kernel

/-- An instance of lane 31 that waits for a flag which is set. -/
theorem witness_BlockRuns_flag : runnable
    (((((running.wr (instrAddr 7) 1 0x1A).wr (instrAddr 7 + 1) 1 1).wr (instrAddr 7 + 2) 1 255).setLane 31 { block := some 7 }).setReg
      (Rg.LE_BARRIER 7) (2 ^ 31)) 31 0x1A = true := by decide +kernel

/-- The hypotheses of the statements of the block families are those of `BlockRuns`; the selections have lists besides. -/
theorem witness_SelectionAndLogicBlocks : ∃ (better : Nat → Nat → Bool) (j : Nat) (l : List Nat), bestOf better l = some 1 ∧ j = 3 :=
  ⟨fun _ _ => false, 3, [1], by decide, rfl⟩

/-- Slot 0 belongs to grove 0 and to the CALL instance 0; its call pends. -/
def callState : State := (blockState 0x2E 0).modLoop fun x => { x with slots := [{ grove := 0, budget := 1000, inst := 0 }] }
def called : State := ((((callState.set (Fd.LE_CALL_STAT.PENDING 0) 1).modLoop fun x => { x with
  slots := [{ grove := 0, budget := 1000, inst := 0, since := some 5_000_060 }] }).setLane 0 { block := some 0, calling := true })).modFrame fun f =>
    { f with eTime := some 5_000_050 }

/-- A state in which grove 0 computes and has instances 0 to 9; `full`: its buffer holds 64 writes. -/
def tuned (busy : Bool) (full : Bool) : State := ((running.modLoop fun x => { x with
  strands := [{ lane := 0, cls := 0, order := 0, first := 0, count := 10 }]
  tuneBuf := [(0, List.replicate (if full then 64 else 63) { who := 0, addr := 0, size := 4, v := 0 })] })).modGrv 0 fun x => { x with computing := busy }

def kAddr : PAddr := BitVec.ofNat 40 (instrAddr 9 + 0x1C)

theorem witness_CallsFlagsAndTuning_calls :
    runnable callState 0 0x2E = true ∧
    (Admitted called r0 (Rg.LE_CALL_CTL (0 : SlotId).val) 4 ∧ (accepted called r0).ownsSlot r0 0 = true ∧ (0 : Fin 4).val ≠ 3 ∧
      (accepted called r0).get (Fd.LE_CALL_STAT.PENDING 0) ≠ 0 ∧ (accepted called r0).callLane 0 = some (0, 0)) ∧
    (Admitted callState r0 (Rg.LE_CALL_CTL 0) 4 ∧ (accepted callState r0).ownsSlot r0 0 = true ∧
      (accepted callState r0).get (Fd.LE_CALL_STAT.PENDING 0) = 0) ∧
    (Admitted callState r0 (Rg.LE_CALL_CTL (255 : SlotId).val) 4 ∧ (accepted callState r0).ownsSlot r0 255 = false) ∧
    Admitted callState r0 (Rg.LE_CALL_RET (255 : SlotId).val) 8 ∧
    (called.loop.slots[0]?.map (·.since)) = some (some 5_000_060) ∧ called.callLane 0 = some (0, 0) := by
  unfold Admitted; decide +kernel

theorem witness_CallsFlagsAndTuning_tuning :
    mapGet? (running.modLoop fun x => { x with flagTime := [(255, 34)] }).loop.flagTime (255 : Fin 256).val = some 34 ∧
    (leBase ≤ kAddr.toNat ∧ kAddr.toNat + 4 ≤ leEnd ∧
      (∀ b ∈ [false, true], ∀ f ∈ [false, true], (tuned b f).present r0 = true ∧ (tuned b f).reaches r0 .write kAddr.toNat 4 = true ∧
        (accepted (tuned b f) r0).leWriteOk r0 kAddr.toNat 4 = true ∧ (accepted (tuned b f) r0).groveOfInst 9 = some 0 ∧
        ((accepted (tuned b f) r0).grv 0).computing = b ∧
        ((mapGet [] (accepted (tuned b f) r0).loop.tuneBuf 0).length < 64 ↔ f = false))) ∧
    (accepted (tuned false false) r0).leWriteOk r0 (leEnd - 2) 2 = false ∧ (tuned false false).reaches r0 .write (leEnd - 2) 2 = true ∧
    Admitted running r0 Rg.LE_CTL 4 := by
  unfold Admitted; decide +kernel

/-! ### Hypotheses: the Signal Engine -/

/-- Tag `i` with its BIND, MODE and GSLOT. -/
def tagged (s : State) (i bind mode gslot : Nat) : State :=
  ((s.wr (tagAddr i + 0x14) 4 bind).wr (tagAddr i + 0x19) 1 mode).wr (tagAddr i + 0x1C) 2 gslot

/-- Writer kind 4 of grove 0, binary32, slot 0 or none. -/
def t4 : Nat := 0x0400_0000
def tag63 (slot : Bool) : State := tagged running 63 t4 0 (if slot then 0x8000 else 0)

theorem witness_GatherWrites : ((tag63 true).tag (63 : TagId).val).slotEn = true ∧ ((tag63 false).tag (63 : TagId).val).slotEn = false ∧
    (∀ b ∈ [true, false], bindNames ((tag63 b).tag 63) (.grove 0) ∧ ¬ bindNames ((tag63 b).tag 63) (.enclave 0) ∧
      ¬ bindNames ((tag63 b).tag 63) (.grove 63) ∧ (tag63 b).tagPoisoned 63 = false) ∧
    ((tag63 true).modCoh fun c => { c with poisoned := [(tagAddr 63 + 56) / 8] }).tagPoisoned 63 = true := by
  unfold bindNames; decide +kernel

/-- A valid value write of tag 63 by its writer, in Compute and outside it, with and without a slot. -/
theorem witness_TagWrites_own : ∀ slot ∈ [false, true], ∀ busy ∈ [false, true],
    let s := (tag63 slot).modGrv 0 fun x => { x with computing := busy }
    let u := accepted s r0
    s.present r0 = true ∧ s.reaches r0 .write (tagAddr (63 : TagId).val) 4 = true ∧ s.reaches r0 .write (tagAddr 63 + 0x18) 1 = true ∧
      u.tagPoisoned 63 = false ∧ 4 = valueSize (u.tag 63).vtype ∧ u.mayConfigTag r0 63 = false ∧ u.isWriter r0 (u.tag 63) = true ∧
      qualReserved (2 : Byte).toNat = false ∧ u.inCompute r0 = busy := by decide +kernel

/-- A tuning write of the last two bytes of tag 63; a configuration write of tag 65535, which no grove has; a write of a tag whose writer is
another, with the conflict flag down and up. -/
theorem witness_TagWrites_others :
    (let s := tag63 true; let u := accepted s r0
     sizeOk 2 = true ∧ (62 : Fin 64).val + 2 ≤ 64 ∧ s.present r0 = true ∧ s.reaches r0 .write (tagAddr 63 + 62) 2 = true ∧
      u.tagPoisoned 63 = false ∧ u.mayConfigTag r0 63 = false ∧ formTune 62 2 = true ∧ u.mayTune r0 (u.tag 63) = true ∧
      u.tuneOk (u.tag 63) 62 0x3C00 = true) ∧
    (let s := running; let u := accepted s r0
     sizeOk 8 = true ∧ (56 : Fin 64).val + 8 ≤ 64 ∧ (56 : Fin 64).val % 8 = 0 ∧ s.reaches r0 .write (tagAddr (65535 : TagId).val + 56) 8 = true ∧
      u.tagPoisoned 65535 = false ∧ u.mayConfigTag r0 65535 = true ∧
      (Tag.of (overlayB (u.rdB (tagAddr 65535) 64) 56 (leBytes 8 0))).legal = true ∧
      u.kindOk 65535 (Tag.of (overlayB (u.rdB (tagAddr 65535) 64) 56 (leBytes 8 0))).wKind = true) ∧
    (let s := (tag63 true).modCoh fun c => { c with poisoned := [(tagAddr 63) / 8] }
     s.reaches r0 .write (tagAddr 63 + 0x18) 1 = true ∧ (accepted s r0).tagPoisoned 63 = true ∧ (accepted s r0).mayConfigTag r0 63 = false) ∧
    (∀ c ∈ [0, 1], let s := (tagged running 0 0x0600_0000 0 0).set Fd.SE_STAT.CONFLICT c; let u := accepted s r0
     s.reaches r0 .write (tagAddr 0 + 0x18) 1 = true ∧ u.tagPoisoned 0 = false ∧ u.mayConfigTag r0 0 = false ∧
      u.isWriter r0 (u.tag 0) = false ∧ u.get Fd.SE_STAT.CONFLICT = c) := by decide +kernel

theorem witness_SweepTakesTheSlot : (65535 : Nat) < 65536 ∧ ((tagged running 65535 t4 0 0x8000).tag 65535).slotEn = true ∧
    (tagged running 65535 t4 0 0x8000).poisonedIn (statusAddr 1 0) 4 = false := by decide +kernel

/-- One entry waits for the ring of grove 0, which has 64 entries; `n` used, `lost` lost before it. -/
def ringed (en n lost : Nat) : State := (with_ running [(Fd.SE_AQ_CFG.EN 0, en), (Fd.SE_AQ_CFG.LOG2 0, 6), (Fd.SE_AQ_HEAD.HEAD 0, n),
  (Fd.SE_AQ_BASE.BASE 0, 1)]).modSignal fun x => { x with alarmBuf := [{ grove := 0, bytes := [], frame := 5 }], markers := mapSet 0 x.markers 0 lost }

def drained (s : State) : State := (s.modSignal fun x => { x with alarmBuf := [] }).fwDrawn 0

/-- A ring that is disabled, full, at its last place, at its last two places with a loss, and outside what the firewall grants. -/
theorem witness_AlarmQueues_drain :
    (drained (ringed 0 0 0)).get (Fd.SE_AQ_CFG.EN 0) = 0 ∧
    ((drained (ringed 1 64 0)).get (Fd.SE_AQ_CFG.EN 0) ≠ 0 ∧ 2 ^ 6 < (drained (ringed 1 64 0)).aqUsed 0 + 1) ∧
    ((drained (ringed 1 63 0)).aqUsed 0 + 1 ≤ 2 ^ 6 ∧ (drained (ringed 1 63 0)).aqReach 0 63 = true ∧
      mapGet 0 (drained (ringed 1 63 0)).signal.markers 0 = 0) ∧
    ((drained (ringed 1 62 5)).aqUsed 0 + 2 ≤ 2 ^ 6 ∧ (drained (ringed 1 62 5)).aqReach 0 62 = true ∧
      (drained (ringed 1 62 5)).aqReach 0 63 = true ∧ mapGet 0 (drained (ringed 1 62 5)).signal.markers 0 ≠ 0) ∧
    ((drained ((ringed 1 0 0).setReg (Rg.GRV_FW 0 0) 0)).aqReach 0 0 = false ∧
      (drained ((ringed 1 0 0).setReg (Rg.GRV_FW 0 0) 0)).aqUsed 0 + 1 ≤ 2 ^ 6) ∧
    (∀ n ∈ [0, 63, 64], ∀ line ∈ linesOf (64 + 64 * (n % 64)) 64, (ringed 1 n 0).blocked line = false) ∧
    (((ringed 1 0 0).setTx 1 (some { req := clusterReq .evict 0 1 false })).blocked 1 = true ∧ 1 ∈ linesOf 64 64) ∧
    running.signal.alarmBuf = [] := by decide +kernel

theorem witness_AlarmQueues_registers :
    Admitted running r0 (Rg.SE_AQ_TAIL (63 : GroveId).val) 4 ∧ Admitted running r0 (Rg.SE_AQ_CFG (63 : GroveId).val) 4 ∧
    Admitted running r0 (Rg.SE_AQ_STAT (63 : GroveId).val) 4 ∧ Admitted running r0 Rg.SE_CTL 4 ∧
    -- LOG2 5 and 21 are refused, 6 and 20 are not
    (bits (0x0500 : Word32).toNat 12 8 < 6 ∧ 20 < bits (0x1500 : Word32).toNat 12 8 ∧ 6 ≤ bits (0x0601 : Word32).toNat 12 8 ∧
      bits (0x1401 : Word32).toNat 12 8 ≤ 20 ∧ gddrSize ≥ 0 + 64 * 2 ^ 20) := by
  unfold Admitted; decide +kernel

/-! ### Hypotheses: field ports -/

/-- Port 71 of grove 0 has link at 1 Gb/s; frames of up to 1,522 bytes; `cb`: it is in a redundant pair. -/
def linked (cb : Nat) : State := ((with_ running [(Fd.FP_PORT_CFG.MODE 71, 1), (Fd.FP_PORT_STAT.LINK 71, 1), (Fd.FP_PORT_CFG.MAXLEN 71, 1522),
  (Fd.FP_PORT_CFG.CB 71, cb), (Fd.FP_PORT_CFG.PTP 71, 1)]).modGrv 0 fun x => { x with cfg := { x.cfg with ports := 2 ^ 71 } }).modField fun x => { x with
    maps := [0 :: 70 :: List.replicate 30 0] }

/-- A frame of `n` bytes to `d` with the EtherType bytes `a`, `b`, good or not. -/
def frame (d : Byte) (a b : Byte) (n : Nat) (ok : Bool) : RxFrame :=
  { bytes := [d, 0, 0, 0, 0, 9, 2, 0, 0, 0, 0, 1, a, b] ++ List.replicate (n - 14) 0, capture := 0, fcsOk := ok, codeError := false }

/-- Every clause of a received frame, at the shortest and the longest frame. -/
theorem witness_FramesReceived :
    (let s := linked 0; let p : FieldPort := 71
     s.get (Fd.FP_PORT_CFG.MODE p.val) ≠ 0 ∧ s.get (Fd.FP_PORT_STAT.LINK p.val) ≠ 0 ∧
      (frame 1 8 0 60 false).fcsOk = false ∧ (frame 1 8 0 59 true).bytes.length + 4 < 64 ∧
      s.get (Fd.FP_PORT_CFG.MAXLEN p.val) < (frame 1 8 0 1519 true).bytes.length + 4 ∧
      (∀ n ∈ [60, 1518], ¬ (s.get (Fd.FP_PORT_CFG.MAXLEN p.val) < (frame 1 8 0 n true).bytes.length + 4) ∧ ¬ ((frame 1 8 0 n true).bytes.length + 4 < 64)) ∧
      (let h := parseFrame ((frame 1 0x88 8 16 true).bytes.modify 15 fun _ => 1); h.etype = 0x8808 ∧ h.vid = none ∧ h.rtag = none ∧ beNat (h.payload.take 2) = 1) ∧ (parseFrame (frame 1 8 0 60 true).bytes).etype ≠ 0x8808 ∧
      bitOf (parseFrame (frame 1 8 0 60 true).bytes).dmac 40 = true ∧ (parseFrame (frame 1 8 0 60 true).bytes).rtag = none ∧
      (bitOf (parseFrame (frame 0 8 0 60 true).bytes).dmac 40 = false ∧ (parseFrame (frame 0 8 0 60 true).bytes).dmac ≠ s.get Fd.FP_MAC_BASE.MAC + 71 ∧
        ((s.modField fun x => { x with maps := [] }).matching p.val (parseFrame (frame 0 8 0 60 true).bytes)).isEmpty = true)) ∧
    (let s := linked 1; let u := s.inc (Fd.FP_PORT_RX_CNT.COUNT 71); let h := parseFrame (frame 1 0xF1 0xC1 64 true).bytes
     h.rtag = some 0 ∧ u.portCb 71 = true ∧ u.streamOf 71 h = some (0, 0)) ∧
    ((linked 0).modField fun x => { x with streams := [{ pair := 35, smac := 1, vid := 0 }] }).field.streams[(0 : Fin 1024).val]? =
      some { pair := 35, smac := 1, vid := 0 } := by decide +kernel

def tplFrame : TxFrame := { kind := .template 3, bytes := List.replicate 60 0 }

/-- A gate list at its first entry and in its last; a queue whose gate is open; a port that may get link; one with link; a frame on the wire. -/
theorem witness_PortTransmissionAndTime_ports :
    (let s := (linked 0).set (Fd.FP_PORT_GATE.GCL_COUNT 71) 16
     s.get (Fd.FP_PORT_GATE.GCL_COUNT (71 : FieldPort).val) ≠ 0 ∧ s.frameRunning = true ∧ (s.port 71).gateAt = none ∧
      ((s.modPort 71 fun x => { x with gateAt := some 5_000_000 }).port 71).gateAt = some 5_000_000) ∧
    (let s := ((linked 0).setReg (Rg.FP_GCL 71 0) 0x80).modPort 71 fun x => { x with queues := [(7, [tplFrame])] }
     mapGet [] (s.port 71).queues (7 : Fin 8).val = [tplFrame] ∧ (s.port 71).wire = none ∧ s.get (Fd.FP_PORT_STAT.LINK 71) ≠ 0 ∧
      s.mayStart 71 7 tplFrame = true) ∧
    (let s := (linked 0).set (Fd.FP_PORT_STAT.LINK 71) 0
     s.get (Fd.FP_PORT_STAT.LINK 71) = 0 ∧ s.get (Fd.FP_PORT_CFG.MODE 71) ≠ 0 ∧ (s.groveOfPort 71).isSome = true ∧
      s.get Fd.CFG_STAT.DONE ≠ 0 ∧ s.get Fd.CFG_STAT.SAFE_HOLD = 0) ∧
    (linked 0).get (Fd.FP_PORT_STAT.LINK 71) ≠ 0 ∧
    (((linked 0).modPort 71 fun x => { x with wire := some tplFrame }).port 71).wire = some tplFrame ∧
    (∀ e c d, TxKind.template 3 ≠ .software e c d true) ∧
    Admitted (linked 0) r0 Rg.FP_CTL 4 := by
  refine ⟨?_, ?_, ?_, ?_, ?_, ?_, ?_⟩ <;> first | (intro e c d h; cases h) | (unfold Admitted; decide +kernel) | decide +kernel

/-- A master port; a slave port with a request outstanding, before and after the first Sync; a source that is lost. -/
def slave (stepped : Bool) : State := ((with_ (linked 0) [(Fd.FP_PORT_CFG.PTP 71, 2), (Fd.FP_TIME_CFG.AS_SOURCE, 1), (Fd.CAS_TIME_STAT.ROLE, 1)]).modPort 71 fun x =>
  { x with pdT1 := some 100 }).modField fun x => { x with stepped := stepped, lastSync := some 4_000_000 }

theorem witness_PortTransmissionAndTime_time :
    ((linked 0).get (Fd.FP_PORT_CFG.PTP (71 : FieldPort).val) = 1 ∧ (linked 0).get (Fd.FP_PORT_STAT.LINK 71) ≠ 0) ∧
    (∀ b ∈ [false, true], (slave b).get (Fd.FP_PORT_CFG.PTP 71) = 2 ∧ (slave b).get (Fd.FP_PORT_STAT.LINK 71) ≠ 0 ∧
      ((slave b).port 71).pdT1 = some 100 ∧ (slave b).get Fd.FP_TIME_CFG.AS_SOURCE ≠ 0 ∧ (slave b).get Fd.CAS_TIME_STAT.ROLE = 1 ∧
      (slave b).field.stepped = b ∧ (slave b).field.lastSync = some 4_000_000 ∧ (slave b).get Fd.TIME_STAT.ACQUIRED ≠ 0 ∧
      (slave b).get Fd.TIME_STAT.HOLDOVER = 0) := by decide +kernel

/-! ### Hypotheses: DMA engines -/

/-- A memory descriptor: 2 elements of 8 bytes from 0x2000 to 0x3000. -/
def desc0 : List Byte := leBytes 8 0x2000 ++ leBytes 8 0x3000 ++ leBytes 4 2 ++ leBytes 4 8 ++ leBytes 4 8 ++ leBytes 2 3 ++ List.replicate 34 0

/-- Channel `c` of engine 0 in a mode, running, with one descriptor at 0x1000, and port 71 attached to channel 2k. -/
def dma (c mode : Nat) (d : List Byte) : State :=
  (with_ (((linked 0).wrB 0x1000 d).modPort 71 fun x => { x with rxQueue := [(3, frame 1 8 0 60 true)], dma := 14 })
    [(Fd.DMA_CH_CFG.MODE 0 c, mode), (Fd.DMA_CH_BASE.BASE 0 c, 0x40), (Fd.DMA_CH_STAT.RUN 0 c, 1), (Fd.DMA_CH_HEAD.HEAD 0 c, 1)])

def inJob (s : State) (j : DmaJob) : State := s.setEng 0 { last := some j.ch, job := some j }

theorem witness_DmaControlAndErrors :
    (Admitted (dma 15 0 desc0) r0 (Rg.DMA_CH_HEAD (31 : EngineId).val (15 : ChannelId).val) 4 ∧
      Admitted (dma 15 0 desc0) r0 (Rg.DMA_CH_CTL 31 15) 4 ∧ Admitted (dma 15 0 desc0) r0 (Rg.DMA_CH_CTL 0 15) 4 ∧ Admitted (dma 15 0 desc0) r0 Rg.DMA_CTL 4) ∧
    (let s := inJob (dma 15 0 desc0) { ch := 15, latch := 1 }; let u := accepted s r0
     u.mayWriteEngine r0 0 = true ∧ u.get (Fd.DMA_CH_STAT.RUN 0 15) ≠ 0 ∧ ((u.eng 0).job.map (·.ch)) = some 15 ∧
      u.get (Fd.DMA_CH_STAT.RUN 0 14) = 0) ∧
    ((accepted (dma 15 0 desc0) r0).eng 0).job = none ∧
    ((dma 15 0 desc0).get (Fd.DMA_CH_STAT.RUN 0 15) ≠ 0 ∧ (15 : Nat) < 16) ∧
    ((31 : Nat) < 32 ∧ 0x7F_FFFF_FFFF < 2 ^ 40 ∧ 7 < 8 ∧ 31 < 32) := by unfold Admitted; decide +kernel

def dmaOk : DmaRes × State → Bool
  | (.ok _, _) => true
  | _ => false

/-- An idle engine with a ready channel; an element whose read and write succeed, the first and the last; a descriptor with none left. -/
theorem witness_DmaJobs :
    (((dma 15 0 desc0).eng (0 : EngineId).val).job = none ∧ (dma 15 0 desc0).get (Fd.DMA_CH_STAT.RUN 0 15) ≠ 0 ∧ (dma 15 0 desc0).nextChannel 0 = some 15) ∧
    (∀ i ∈ [0, 1], let s := inJob (dma 15 0 desc0) { ch := 15, latch := 1, desc := some desc0, elem := i }
     s.get (Fd.DMA_CH_CFG.MODE 0 15) = 0 ∧ i < dCount desc0 ∧ dCirc desc0 = 0 ∧
      (match s.dmaRead 0 15 (dSrc desc0 + i * dSstride desc0) (dElem desc0) (dRt desc0) with
        | (.ok bs, u) => dmaOk (u.dmaWrite 0 15 (dDst desc0 + i * dDstride desc0) bs (dRt desc0))
        | _ => false) = true) ∧
    (dCount desc0 ≤ 2 ∧ dIrq desc0 = false ∧ dHalt desc0 = false ∧ (1 : Nat) ≠ 4) ∧
    (let s := inJob (dma 15 0 desc0) { ch := 15, latch := 1, desc := some desc0, elem := 2 }
     dmaOk (s.dmaWrite 0 15 (0x40 * 64 + 0x20) (leBytes 1 1 ++ leBytes 1 0 ++ leBytes 2 0 ++ leBytes 4 0 ++ leBytes 8 0) (dRt desc0)) = true ∧
      (s.chan 0 15).stop = false) := by decide +kernel

/-- A packet descriptor of `n` bytes at 0x3000. -/
def pktDesc (n tsReq : Nat) : List Byte :=
  leBytes 8 0x3000 ++ leBytes 8 0x3000 ++ leBytes 4 n ++ leBytes 8 0 ++ leBytes 2 (tsReq * 128) ++ leBytes 1 (tsReq * 5) ++ List.replicate 33 0

/-- A packet channel whose turn it is, with its descriptor read, its port found and its buffer reached. -/
def packetReady (s : State) (c : Nat) (mode : Nat) : Bool :=
  (match (s.eng 0).job with
    | some j => j.ch == c && j.sent.isNone
    | none => s.nextChannel 0 == some c) && s.get (Fd.DMA_CH_CFG.MODE 0 c) == mode && !s.descWaits 0 &&
  (let u := (if (s.eng 0).job = none then s.jobBegin 0 c else s).descRead 0 1
   match (u.eng 0).job with
   | some j => match j.desc with
     | some d => u.chPort 0 c == some 71 && (if mode == 1 then match (u.port 71).nextRx with
         | some (_, f) => dmaOk (u.dmaWrite 0 c (dDst d) (f.bytes.take (dCount d)) (dRt d))
         | none => false
       else dmaOk (u.dmaRead 0 c (dSrc d) (dCount d) (dRt d)))
     | none => false
   | none => false)

/-- A receive job; transmit jobs of 14 and 1,518 bytes, the longer with a timestamp. -/
theorem witness_DmaPackets : packetReady (dma 14 1 (pktDesc 64 0)) 14 1 = true ∧ packetReady (dma 15 2 (pktDesc 14 0)) 15 2 = true ∧
    packetReady (dma 15 2 (pktDesc 1518 1)) 15 2 = true ∧
    packetReady (inJob (dma 14 1 (pktDesc 64 0)) { ch := 14, latch := 1 }) 14 1 = true ∧
    packetReady (inJob (dma 15 2 (pktDesc 14 0)) { ch := 15, latch := 1 }) 15 2 = true ∧ dTsReq (pktDesc 14 0) = false ∧ dTsReq (pktDesc 1518 1) = true := by decide +kernel

/-! ### Hypotheses: the cascade -/

/-- Hawser port 5 in a state, or with something changed. -/
def hw (st : Nat) (f : HawserSt → HawserSt) : State := (running.set (Fd.CAS_PORT_STAT.STATE 5) st).modHawser 5 f

/-- A HELLO that agrees in no field. -/
def cell0 : List Byte := List.replicate 64 0

theorem witness_LinkStates_up :
    (∀ st ∈ [1, 6, 2, 3], (hw st id).get (Fd.CAS_PORT_STAT.STATE (5 : HawserPort).val) = st ∧ ((hw st id).hawser 5).retry = none) ∧
    ((hw 1 fun x => { x with retry := some 9 }).hawser 5).retry = some 9 ∧
    (let s := hw 2 id; let u := (s.set (Fd.CAS_PORT_STAT.NBR_DEV 5) 0).set (Fd.CAS_PORT_STAT.NBR_PORT 5) 0
     u.get (Fd.CAS_PORT_STAT.STATE 5) = 2) ∧
    (let x := (hw 3 fun x => { x with certRx := (List.range 6).map fun i => (i, [0]), keyxRx := (List.range 5).map fun i => (i, [0]) }).hawser 5
     joinChunks x.certRx 6 = some (List.replicate 6 0) ∧ joinChunks x.keyxRx 5 = some (List.replicate 5 0) ∧ x.keys = none) ∧
    ((hw 3 fun x => { x with keys := some [] }).hawser 5).keys.isSome = true := by decide +kernel

theorem witness_LinkStates_kept :
    (∀ st ∈ [4, 5], (hw st id).get (Fd.CAS_PORT_STAT.STATE (5 : HawserPort).val) = st ∧ 2 ≤ st ∧ ((hw st id).hawser 5).retry = none) ∧
    (∀ st ∈ [4, 5], ((hw st fun x => { x with dreqT1 := some 7 }).hawser 5).dreqT1 = some 7 ∧
      bits (cellField cell0) 15 0 = ((hw st fun x => { x with dreqT1 := some 7 }).hawser 5).dreqSeq) ∧
    ((hw 4 fun x => { x with samples := List.replicate 14 0 }).hawser 5).samples.length + 1 < 16 ∧
    16 ≤ ((hw 4 fun x => { x with samples := List.replicate 15 0 }).hawser 5).samples.length + 1 := by decide +kernel

/-- A link frame that carries a cell, before the link has keys. -/
def linkFrame (c : List Byte) : LinkFrame :=
  let body := leBytes 8 0 ++ c
  { bytes := body ++ leBytes 4 (crc32c body) ++ List.replicate 12 0, codeError := false, rx := 0 }

/-- A cell of a class and kind for this device, expiring at a tick index. -/
def cellOf (cls kind : Nat) (loc : Bool) (dest cf : Nat) : List Byte := mkCell (mkHdr cls kind loc dest 0) cf []

def acceptedCell (s : State) (c : List Byte) : Bool :=
  (s.linkAccept 5 (linkFrame c)).1 == some c && cellLegal c && classCrosses ((s.linkAccept 5 (linkFrame c)).2.get (Fd.CAS_PORT_STAT.STATE 5)) (hClass (cellHdr c))

theorem witness_LinkFrames_sent :
    (let s := hw 5 fun x => { x with queues := [(11, [{ bytes := cell0 }])] }
     s.nextQueue (5 : HawserPort).val = some 11 ∧ mapGet [] (s.hawser 5).queues 11 = [{ bytes := cell0 }] ∧
      2 ≤ s.get (Fd.CAS_PORT_STAT.STATE 5)) := by decide +kernel

/-- A code error; a frame of which the CRC differs; a link with keys (whether a tag then verifies is a free value); cells of every class that a clause names, an expired Message cell among them. -/
theorem witness_LinkFrames_received :
    (hw 2 id).get (Fd.CAS_PORT_STAT.STATE 5) ≠ 0 ∧ ((hw 2 id).hawser 5).keys = none ∧
    sliceB (List.replicate 88 (1 : Byte)) 72 16 ≠ leBytes 4 (crc32c (sliceB (List.replicate 88 (1 : Byte)) 0 72)) ++ List.replicate 12 0 ∧
    (List.replicate 88 (1 : Byte)).length ≠ 8 ∧
    (∀ st ∈ [3, 4], ((hw st fun x => { x with keys := some [] }).hawser 5).keys = some [] ∧ (hw st id).get (Fd.CAS_PORT_STAT.STATE 5) = st) ∧
    acceptedCell (hw 5 id) (cellOf 1 0 false 0 0) = true ∧
    (acceptedCell (hw 5 id) (cellOf 2 0 false 0 (2 ^ 32 + 2 ^ 16)) = true ∧
      (hw 5 id).msgExpired (cellOf 2 0 false 0 (2 ^ 32 + 2 ^ 16)) = true) ∧
    acceptedCell (hw 5 id) (cellOf 0 0 false 0 0) = true ∧ acceptedCell (hw 5 id) (cellOf 3 1 true 0 0) = true := by decide +kernel

/-- A subscribe record of splice 0, position 0, for tag 63 of device 0's cells of tick index 5. -/
theorem witness_LinkFrames_data :
    (let s := running.modCas fun x => { x with subscribe := [leBytes 8 0 ++ leBytes 2 63 ++ List.replicate 6 0] }
     let c := cellOf 1 0 false 0 (5 * 2 ^ 24)
     s.cascade.subscribe[0]? = some (leBytes 8 0 ++ leBytes 2 63 ++ List.replicate 6 0) ∧ (s.cascade.subscribe.findIdx? fun r => recDev r == hSrc (cellHdr c) && recSplice r == bits (cellField c) 11 0 &&
      recPos r == 3 * bits (cellField c) 23 12 + 0) = some 0 ∧ s.tickIndex s.now % 2 ^ 16 = bits (cellField c) 39 24) := by decide +kernel

theorem witness_SystemTime :
    (let s := hw 5 fun x => x; let c := cellOf 0 0 false 0 5
     s.get (Fd.CAS_PORT_STAT.STATE (5 : HawserPort).val) = 5 ∧ s.beatFresh (s.beatIndex (fieldB c 0x10 8) (bits (cellField c) 31 0)) (bits (cellField c) 32 32) = true ∧
      (s.modCas fun x => { x with epochSeen := 1 }).beatFresh 5 0 = false ∧ s.get Fd.CAS_TIME_STAT.ROLE = 0 ∧ s.cascade.sending = false) ∧
    (∀ n ∈ [1, 2], let s := (running.modCas fun x => { x with seen := [(4, 0)] }).set Fd.CAS_TIME_STAT.MISSES n
     s.get Fd.CAS_TIME_STAT.ROLE ≠ 1 ∧ s.cascade.seen ≠ [] ∧ (∀ x ∈ s.cascade.seen, x.1 ≠ s.tickIndex s.now) ∧
      s.cascade.missTick ≠ some (s.tickIndex s.now) ∧ (min 3 (s.get Fd.CAS_TIME_STAT.MISSES + 1) < 3 ↔ n = 1) ∧ s.get Fd.TIME_STAT.HOLDOVER = 0) ∧
    (let s := running.set Fd.CAS_TIME_STAT.ROLE 2
     s.get Fd.CAS_TIME_STAT.ROLE = 2 ∧ s.cascade.seen = [] ∧ s.get Fd.CFG_STAT.DONE ≠ 0) ∧
    (running.modCas fun x => { x with startHold := true }).cascade.startHold = true := by decide +kernel

/-! ### Hypotheses: messages -/

/-- Device 0 of 4 along X, port 0 up; grove 0 has one descriptor in its transmit ring at 0x1000: DEST, LEN and OP as given. -/
def mq (dest len op : Nat) : State :=
  (with_ ((((running.wr 0x1000 2 dest).wr 0x1003 1 len).wr 0x1004 1 op).modCas fun x => { x with sys := { x.sys with sizeX := 4 } })
    [(Fd.CAS_PORT_STAT.STATE 0, 5), (Fd.CAS_MQ_CFG.TX_EN 0, 1), (Fd.CAS_MQ_CFG.RX_EN 0, 1), (Fd.CAS_MQ_TXBASE.BASE 0, 0x40), (Fd.CAS_MQ_RXBASE.BASE 0, 0x80),
     (Fd.CAS_MQ_TXHEAD.HEAD 0, 1)])

theorem witness_Messages_rings :
    Admitted running r0 (Rg.CAS_MQ_TXHEAD (63 : GroveId).val) 4 ∧ Admitted running r0 (Rg.CAS_MQ_RXTAIL (63 : GroveId).val) 4 ∧
    Admitted running r0 Rg.CAS_CTL 4 := by unfold Admitted; decide +kernel

/-- A descriptor for transmission; ones that are bad (LEN 0 and 49, OP 2, a device that is not in the system); one without a route. -/
theorem witness_Messages_issue :
    (∀ s ∈ [mq 128 48 1, mq 128 0 1, mq 128 49 1, mq 128 1 2, mq 512 1 1, (mq 128 1 1).set (Fd.CAS_PORT_STAT.STATE 0) 2],
      s.get (Fd.CAS_MQ_CFG.TX_EN (0 : GroveId).val) ≠ 0 ∧ mapGet 0 s.cascade.issued 0 ≠ s.get (Fd.CAS_MQ_TXHEAD.HEAD 0) ∧ s.gstate 0 ≠ stFrozen ∧
      (s.grv 0).freezing = false ∧ s.txEntry 0 0 = 0x1000 ∧ (s.ringAccess 0 .read 0x1000 64).1 = true ∧
      s.linesFree 0x1000 64 = true ∧ (((s.ringAccess 0 .read 0x1000 64).2.unitRead 0x1000 64 false).1 = some (s.rdB 0x1000 64))) ∧
    (let u := ((mq 128 48 1).ringAccess 0 .read 0x1000 64).2
     u.rd 0x1003 1 = 48 ∧ u.rd 0x1004 1 = 1 ∧ u.cascade.sys.holds (u.rd 0x1000 2) = true ∧
      (match u.route (mkHdr 2 0 false 128 u.device) none with
        | .out _ _ => true
        | _ => false) = true ∧ (u.freeTag 0).isSome = true ∧ (u.transTake hawserReq 1).1 = true ∧ (u.drawn.ringAccess 0 .write 0x1006 2).1 = true) ∧
    (let u := ((mq 512 1 1).ringAccess 0 .read 0x1000 64).2; u.cascade.sys.holds (u.rd 0x1000 2) = false) ∧
    (let u := (((mq 128 1 1).set (Fd.CAS_PORT_STAT.STATE 0) 2).ringAccess 0 .read 0x1000 64).2
     u.route (mkHdr 2 0 false 128 u.device) none = .noRoute) := by decide +kernel

/-- Tag 4095 open for descriptor 7. -/
def openMsg (squashed : Bool) : State := (mq 128 1 1).setMtag 4095 { isOpen := true, gen := 3, grove := 0, desc := some 7, expiry := 8, squashed := squashed }

theorem witness_Messages_received :
    (let s := mq 128 1 1; let old := cellOf 2 0 false 0 (2 ^ 32 + 5 * 2 ^ 16); let c := cellOf 2 0 false 0 (2 ^ 32 + 6 * 2 ^ 16)
     s.msgExpired old = true ∧ s.msgExpired c = false ∧ mOp (cellField c) = 1 ∧ mDgrove (cellField c) = 0 ∧
      s.gstate 0 ≠ stAbsent ∧ s.gstate 0 ≠ stDraining ∧ s.gstate 0 ≠ stClearing ∧ s.get (Fd.CAS_MQ_CFG.RX_EN 0) ≠ 0 ∧
      (s.get (Fd.CAS_MQ_RXHEAD.HEAD 0) + 2 ^ 32 - s.get (Fd.CAS_MQ_RXTAIL.TAIL 0)) % 2 ^ 32 ≠ 2 ^ s.get (Fd.CAS_MQ_CFG.RX_LOG2 0) ∧
      (s.ringAccess 0 .write (s.rxEntry 0 0) 64).1 = true) ∧
    (∀ b ∈ [false, true], let x := (openMsg b).mtag 4095; let c := cellOf 2 0 false 0 (4095 + 3 * 2 ^ 12 + 2 ^ 32 + 6 * 2 ^ 16)
     (openMsg b).msgExpired c = false ∧ mMtag (cellField c) = 4095 ∧ x.isOpen = true ∧ x.gen = mGen (cellField c) ∧ x.squashed = b ∧ x.desc = some 7) ∧
    ((openMsg false).mtag (4095 : Fin 4096).val).isOpen = true ∧
    (let s := running.modCas fun x => { x with bells := [(63, { last := some 9, deferred := true })] }
     (mapGet {} s.cascade.bells (63 : GroveId).val).last = some 9 ∧ (mapGet {} s.cascade.bells 63).deferred = true) := by decide +kernel

/-! ### Hypotheses: registers and start -/

/-- The window address of an offset. -/
def winAddr (off : Nat) : PAddr := BitVec.ofNat 40 (winBase + off)

def accOf : RegAcc → Nat
  | .whole d _ => if d.direct then 9 else 0
  | .low d _ => if d.direct then 9 else 1
  | .high d _ => if d.direct then 9 else 2
  | .reserved => 3
  | .bad => 4

/-- Each kind of access of the window, at its first and last register; halves that are held; transactions that are open. -/
theorem witness_RegisterAccess :
    (∀ off ∈ [0, Rg.FRM_TICK_TIME, Rg.FRM_TICK_TIME + 4, 0x38FF_FFFC], let a := winAddr off
      targetOf a.toNat = .window ∧ base.present r0 = true ∧ base.reaches r0 .read a.toNat 4 = true ∧ base.reaches r0 .write a.toNat 4 = true ∧
        (base.fwUsed r0).blockOpen r0 (a.toNat - winBase) = true ∧ (accepted base r0).blockOpen r0 (a.toNat - winBase) = true) ∧
    accOf (regAcc Rg.FRM_TICK_TIME 4) = 1 ∧ accOf (regAcc (Rg.FRM_TICK_TIME + 4) 4) = 2 ∧ accOf (regAcc Rg.FRM_TICK_TIME 8) = 0 ∧
    accOf (regAcc Rg.FRM_CTL 4) = 0 ∧ accOf (regAcc 0x38FF_FFFC 4) = 3 ∧ accOf (regAcc Rg.FRM_CTL 8) = 4 ∧ accOf (regAcc 2 4) = 4 ∧
    (let s := (base.setShadow r0 (some ⟨Rg.FRM_TICK_TIME, 7⟩)).setHold r0 (some ⟨Rg.FRM_TICK_TIME, 7⟩)
     mapGet? (s.fwUsed r0).shadows (reqNo r0) = some ⟨Rg.FRM_TICK_TIME, 7⟩ ∧ mapGet? (accepted s r0).holds (reqNo r0) = some ⟨Rg.FRM_TICK_TIME, 7⟩) ∧
    mapGet 0 { base with openTrans := [(reqNo r0, 1)] }.openTrans (reqNo r0) ≠ 0 ∧
    -- a field of bit 63 alone and one of all 64 bits
    ((0 : Nat) < 63 + 1 - 63 ∧ 63 < 63 + 1 - 0) := by decide +kernel

/-- The phases of start, each of which some state is in. -/
theorem witness_StartSequence :
    (∀ p ∈ [StartPhase.rising, .rom, .romDone, .wiping, .reading, .checked10, .checked13, .loaded],
      (State.reset.modStart fun x => { x with phase := p }).start.phase = p ∧
        scanHolds (State.reset.modStart fun x => { x with phase := p }).sec.tapInstr = false) ∧ State.reset.power.rstHeld = [] ∧
    (State.reset.modStart fun x => { x with bpWrite := some 1 }).start.bpWrite = some 1 := by decide +kernel

/-- A boot pointer copy. -/
def bp (seq slot : Nat) : List Byte :=
  let b := leBytes 4 0x50424A53 ++ leBytes 4 seq ++ leBytes 4 slot ++ List.replicate 16 0
  b ++ leBytes 4 (crc32c b)

/-- Both copies of the boot pointer, of which `c` is in use. -/
def twoBps (q0 q1 c : Nat) : State := ((State.reset.flashPut 0 (bp q0 0)).flashPut 0x1_0000 (bp q1 1)).modStart fun x => { x with bpCopy := some c, phase := .romDone }

theorem witness_BootPointerAndStaging :
    (∀ c ∈ [0, 1], (twoBps 0xFFFF_FFFE 0xFFFF_FFFE c).start.bpCopy = some c ∧ (twoBps 0xFFFF_FFFE 0xFFFF_FFFE c).bootPtr c = some (0xFFFF_FFFE, c) ∧
      (0xFFFF_FFFE + 1 < 2 ^ 32) ∧ (twoBps 0xFFFF_FFFE 0xFFFF_FFFE c).start.badReads = []) ∧
    (State.reset.modStart fun x => { x with staging := some { slot := 1, image := [], mailbox := 1 } }).start.staging =
      some { slot := 1, image := [], mailbox := 1 } := by decide +kernel

theorem witness_SlotFallback : (255 : Nat) < 256 ∧ 0xFF_FFFF < 2 ^ 24 ∧
    ((1 - State.reset.start.slot) ∉ State.reset.start.tried ∧ State.reset.start.slot = 0) ∧
    (let s := State.reset.modStart fun x => { x with slot := 1, tried := [0] }; s.start.slot < 2 ∧ s.start.slot = 1 ∧ (1 - s.start.slot) ∈ s.start.tried) := by
  decide +kernel

/-- A tie, a higher sequence number in copy 1, one valid copy of each, and none. -/
theorem witness_BootPointerInUse :
    (∀ q ∈ [5, 6], (twoBps 5 q 0).bootPtr 0 = some (5, 0) ∧ (twoBps 5 q 0).bootPtr 1 = some (q, 1)) ∧
    ((State.reset.flashPut 0 (bp 5 1)).bootPtr 0 = some (5, 1) ∧ (State.reset.flashPut 0 (bp 5 1)).bootPtr 1 = none) ∧
    ((State.reset.flashPut 0x1_0000 (bp 5 1)).bootPtr 0 = none ∧ (State.reset.flashPut 0x1_0000 (bp 5 1)).bootPtr 1 = some (5, 1)) ∧
    (State.reset.bootPtr 0 = none ∧ State.reset.bootPtr 1 = none ∧ 1 ∉ State.reset.start.tried) ∧
    ((twoBps 5 5 0).start.phase = .romDone ∧ (twoBps 5 5 0).power.rstHeld = [] ∧ (twoBps 5 5 0).start.recovery = false) := by decide +kernel

/-! ### Hypotheses: groves -/

/-- A record of grove 63 for CREATE: core 63, 16 contexts, grain 100 of memory, boot address behind the context area. -/
def newGrove : List Byte :=
  [63, 0, 0, 0] ++ leBytes 4 0 ++ leBytes 8 (2 ^ 63) ++ List.replicate 32 0 ++ leBytes 2 32 ++ leBytes 2 16 ++ List.replicate 12 0 ++
    leBytes 4 (100 + 2 ^ 16) ++ List.replicate 52 0 ++ leBytes 8 0xC81_0000 ++ List.replicate 384 0

/-- That record stands at 0x1000, the address of the next command; grove 1 is in `st` with a role. -/
def cmdState (st role : Nat) : State := with_ (running.wrB 0x1000 newGrove) [(Fd.GRV_CMD_ADDR.ADDR, 0x40), (Fd.GRV_STAT.STATE 1, st), (Fd.GRV_STAT.ROLE 1, role)]

/-- Each command in a state that its row allows. -/
theorem witness_GroveCommands_taken :
    GroveCmdTaken (cmdState stHeld 0) r0 opStart (1 : GroveId).val 0 ∧ GroveCmdTaken (cmdState stFrozen 0) r0 opThaw 1 0 ∧
    GroveCmdTaken (cmdState stStandby 2) r0 opPromote 1 0 ∧ GroveCmdTaken (cmdState stRunning 0) r0 opReset 1 0 ∧
    GroveCmdTaken (cmdState stDraining 0) r0 opDestroy 1 0 ∧ GroveCmdTaken (cmdState stRunning 0) r0 opFreeze 1 0 ∧
    GroveCmdTaken (cmdState stRunning 0) r0 opFreeze 1 1 ∧
    (GroveCmdTaken (cmdState stFrozen 0) r0 opSave 1 0 ∧ (cmdState stFrozen 0).cmdAddrOk r0 1 0x1000 ((cmdState stFrozen 0).fullBytes 1) = true ∧
      ((cmdState stFrozen 0).unitRead 0x1000 ((cmdState stFrozen 0).fullBytes 1) false).1.isSome = true ∧
      (((cmdState stFrozen 0).modCoh fun c => { c with failed := [0x1000 / 64] }).unitRead 0x1000 ((cmdState stFrozen 0).fullBytes 1) false).1 = none ∧
      (∀ m ∈ ((cmdState stFrozen 0).grv 1).cfg.memory, overlaps 0x1000 ((cmdState stFrozen 0).fullBytes 1) m.1 (m.2 - m.1) = false)) ∧
    (GroveCmdTaken (cmdState stFrozen 1) r0 opSave 1 1 ∧ (cmdState stFrozen 1).get (Fd.GRV_STAT.PARTNER_LOST 1) = 0) ∧
    GroveCmdTaken (cmdState stHeld 0) r0 opRestore 1 0 ∧
    (let s := (cmdState stRunning 1).modGrv 1 fun x => { x with acked := true }
     GroveCmdTaken s r0 opSwitch 1 0 ∧ s.get (Fd.GRV_STAT.PARTNER_LOST 1) = 0 ∧ (s.grv 1).acked = true) := by
  unfold GroveCmdTaken; decide +kernel

theorem witness_GroveCommands_create :
    (let s := cmdState stHeld 0; let n := s.readNew 0x1000
     GroveCmdTaken s r0 opCreate (63 : GroveId).val 0 ∧ s.get Fd.GRV_CMD_ADDR.ADDR * 64 = 0x1000 ∧
      s.cmdAddrOk r0 63 0x1000 (512 + 64 * n.tasks.length + 32 * n.strands.length) = true ∧ n.failed = none ∧ s.poolFail n.cfg = none ∧ s.createFail 63 n = none ∧
      (s.install 63 n).admission.passes = true) := by
  unfold GroveCmdTaken; decide +kernel

/-- Refusals: below E level, in the power-fail sequence, in Safe Hold, while another command runs, in a state without the command. -/
theorem witness_GroveCommands_refused :
    State.reset.isE r0 = false ∧ (running.isE r0 = true ∧ running.get Fd.PWR_STAT.PFW = 0 ∧ running.get Fd.CFG_STAT.SAFE_HOLD = 0) ∧
    (running.set Fd.PWR_STAT.PFW 1).get Fd.PWR_STAT.PFW ≠ 0 ∧ (running.set Fd.CFG_STAT.SAFE_HOLD 1).get Fd.CFG_STAT.SAFE_HOLD ≠ 0 ∧
    (running.set Fd.GRV_CMD_STAT.BUSY 1).get Fd.GRV_CMD_STAT.BUSY ≠ 0 ∧
    (∀ e ∈ [(opCreate, 0), (opStart, 63), (opFreeze, 63), (opThaw, 63), (opSave, 63), (opRestore, 63), (opSwitch, 63), (opPromote, 63), (opReset, 63), (opDestroy, 63)],
      running.cmdAllowed e.1 e.2 0 = false) ∧
    (running.set Fd.GRV_CMD_STAT.BUSY 1).cmdAllowed opReset 0 0 = true := by decide +kernel

/-- Grove 1 in a state and with something changed. -/
def grove1 (st : Nat) (f : GroveSt → GroveSt) : State := (running.set (Fd.GRV_STAT.STATE 1) st).modGrv 1 f

theorem witness_GroveEvents :
    (grove1 stDraining id).gstate (1 : GroveId).val = stDraining ∧
    (let s := grove1 stClearing fun x => { x with cfg := { x.cfg with irqFirst := 4080, irqCount := 16 } }
     s.gstate 1 = stClearing ∧ (s.grv 1).destroying = false ∧ (s.grv 1).cfg.irqFirst + (s.grv 1).cfg.irqCount ≤ 4096 ∧ (s.grv? 1).isSome = true) ∧
    ((grove1 stClearing fun x => { x with destroying := true }).grv 1).destroying = true ∧
    (let s := grove1 stRunning fun x => { x with freezing := true }
     (s.grv 1).freezing = true ∧ s.dmaQuiet 1 = true ∧ s.get (Fd.CAS_MQ_STAT.OPEN 1) = 0) ∧
    ({ running with gcmd := some { op := opSave, grove := 1, arg := 0, addr := 64 } }.gcmd = some { op := opSave, grove := (1 : GroveId).val, arg := 0, addr := 64 } ∧
      { running with gcmd := some { op := opSave, grove := 1, arg := 1, addr := 0 } }.gcmd = some { op := opSave, grove := (1 : GroveId).val, arg := 1, addr := 0 } ∧
      running.imgUnreadable 1 = false) ∧
    ((grove1 stRunning fun x => { x with xApply := true }).grv 1).xApply = true ∧
    (3 ≤ ((grove1 stRunning fun x => { x with acksMissed := 3 }).grv 1).acksMissed ∧ running.get (Fd.GRV_STAT.PARTNER_LOST 1) = 0) ∧
    (running.isE r0 = true ∧ running.gstate 1 ≠ stAbsent ∧ fwWordOk (setBits ((0xF + 2 ^ 40 : Word).toNat % 2 ^ 64) 11 4 0) = true) ∧
    State.reset.isE r0 = false := by decide +kernel

/-- An expired XFER cell, and a frame cell of the partner's, at offset 0 and in a state that is a standby's. -/
theorem witness_GroveEvents_xfer :
    (let s := with_ (grove1 stStandby fun x => { x with cfg := { x.cfg with role := 2, partner := 9 } }) [(Fd.GRV_STAT.ROLE 1, 2)]
     let cell := fun (k : Nat) => mkCell (mkHdr 2 1 false 0 9) (0x81 * 2 ^ 32 + k * 2 ^ 16 + 2 ^ 52) [1]
     s.msgExpired (cell 5) = true ∧ s.msgExpired (cell 8) = false ∧ mDgrove (cellField (cell 8)) = 1 ∧ s.fromPartner 1 (cell 8) = true ∧
      s.xferCurrent (cell 8) = true ∧ s.gstate 1 = stStandby ∧ fieldB (sliceB (cell 8) 16 48) 0 1 = 1 ∧ 40 * 0 < (s.xferBegin 1).frameBytes 1) := by
  decide +kernel

theorem witness_FirewallAdmits : (0 : Nat) < 64 ∧ (∀ k ∈ [FwKind.read, .write, .fetch], running.fwPass 0 k (gddrSize - 64) 64 = true) ∧ (63 : Nat) < 64 := by
  decide +kernel

/-! ### Hypotheses: instructions of the cores -/

/-- The state after the fetch of an instruction that belongs to a row, if its fetch passes. -/
def fetched (s : State) (c : CoreId) (insn : Word32) (row : RvRow) : Option State :=
  let w := (rvWord insn.toNat).getD 0
  if s.ready c.val = true ∧ s.rowOf c.val w = row then match s.fetch c (rvLen insn.toNat) with
    | .ok u => some u
    | _ => none
  else none

/-- `fetched` answers the hypothesis `Fetches`. -/
theorem fetched_Fetches {s : State} {c : CoreId} {insn : Word32} {row : RvRow} {u : State} (h : fetched s c insn row = some u) :
    Fetches s c insn row { raw := rvBits insn.toNat, word := (rvWord insn.toNat).getD 0, len := rvLen insn.toNat } u := by
  unfold fetched at h
  dsimp only at h
  by_cases k : s.ready c.val = true ∧ s.rowOf c.val ((rvWord insn.toNat).getD 0) = row
  · rw [if_pos k] at h
    cases e : s.fetch c (rvLen insn.toNat) <;> rw [e] at h <;> cases h
    exact ⟨k.1, rfl, k.2, e⟩
  · rw [if_neg k] at h; cases h

/-- Core 0 at a level, its PC at 0x1_0000, x2 = 0x2_0000, x3 = 7. -/
def coreAt (l : Level) : State := running.setCore 0 { ctx := { level := l, pc := 0x1_0000, x := [(2, 0x2_0000), (3, 7)] }, ctxId := some 0 }

def fetchOk (s : State) (insn : Word32) (row : RvRow) (p : State → Bool) : Bool := (fetched s 0 insn row).any p

def physOk (r : Checked × State) (p : List (Phys × Nat) → State → Bool) : Bool := match r with
  | (.ok ps, v) => p ps v
  | _ => false

/-- The instruction's line is in the L1I. -/
def warm (s : State) : State := s.modCore 0 fun k => { k with l1i := [0x1_0000 / 64] }

/-- LW and SW in one line and across two; a load at an address beyond the address space and a store there. -/
theorem witness_LoadsStoresAndAtomics_loads : ∀ a ∈ [0x2_0000, 0x2_003E],
    let s := warm (((coreAt .e).setX 0 2 a).modCore 0 fun k => { k with l1d := [(0x800, .e), (0x801, .s)] })
    fetchOk s 0x0001_2083 .load (fun u => physOk (u.checkAll 0 .load (addOfs (u.x 0 2) (immI 0x0001_2083)) 4) fun ps v =>
      match v.loadBytes 0 .none ps with
        | (.ok _ _, _) => true
        | _ => false) = true ∧
    fetchOk s 0x0031_2023 .store (fun u => physOk (u.checkAll 0 .store (addOfs (u.x 0 2) (immS 0x0031_2023)) 4) fun ps v =>
      decide ((v.core 0).sb.length + (storeEntries ps (u.x 0 3)).length ≤ 48) && (storeEntries ps (u.x 0 3)).all fun e => !e.dev) = true ∧
    (let t := warm ((coreAt .e).setX 0 2 (2 ^ 40))
     fetchOk t 0x0001_2083 .load (fun u => match u.checkAll 0 .load (2 ^ 40) 4 with
      | (.trap _ _ _, _) => true
      | _ => false) = true ∧
     fetchOk t 0x0031_2023 .store (fun u => match u.checkAll 0 .store (2 ^ 40) 4 with
      | (.trap _ _ _, _) => true
      | _ => false) = true) := by decide +kernel

/-- A store that can drain, a miss that can fill. -/
theorem witness_LoadsStoresAndAtomics_lines :
    (let e : StoreEntry := { addr := 0x2_0000, size := 4, v := 7, dev := false, nc := false, rt := false }
     let s := (coreAt .e).modCore 0 fun k => { k with sb := [e] }
     (s.core (0 : CoreId).val).sb = [e] ∧ (s.obtain 0 (e.addr / 64) e.rt true).1 = true ∧
      (((s.obtain 0 (e.addr / 64) e.rt true).2.rtTouch (e.addr / 64) e.rt).memFault (some 0) e.addr .none).fails (e.addr / 64) = false) ∧
    (∀ k ∈ [MissKind.data, .fetch], let m : Miss := { line := 0x800, kind := k, rt := false }
      let s := (coreAt .e).modCore 0 fun x => { x with misses := [m] }
      (s.core 0).misses.find? (s.canFill 0) = some m ∧ (s.obtain 0 m.line m.rt false).1 = true ∧
        ((((s.obtain 0 m.line m.rt false).2.missDone 0 m).rtTouch m.line m.rt).memFault (some 0) (64 * m.line) .none).fails m.line = false) ∧
    (let m : Miss := { line := 0x800, kind := .spec, rt := false }
     let s := (coreAt .e).modCore 0 fun x => { x with shadow := List.replicate 15 0, misses := [m] }
     (s.core 0).misses.find? (s.canFill 0) = some m) := by
  decide +kernel

/-- One part, no store in its way, a line that can be had: LR, SC with and without its reservation, AMOADD. -/
theorem witness_LoadsStoresAndAtomics_atomics : ∀ r ∈ [none, some 0x800], let s := warm ((coreAt .e).modCore 0 fun k => { k with rsv := r })
    let part (k : AccKind) (more : State → Bool) (u : State) : Bool := physOk (u.checkAll 0 k (u.x 0 2) 4) fun ps v => match ps with
      | [(p, _)] => v.sbOver 0 p.pa 4 == [] && (v.core 0).sb == [] && (v.obtain 0 (p.pa / 64) p.rt true).1 && p.pa / 64 == 0x800 &&
          !(((v.obtain 0 0x800 p.rt true).2.rtTouch 0x800 p.rt).memFault (some 0) p.pa .none).fails 0x800 && decide ((v.core 0).rsv = r) && more v
      | _ => false
    fetchOk s 0x1001_20AF .lr (part .lr fun _ => true) = true ∧ fetchOk s 0x1831_20AF .sc (part .sc fun _ => true) = true ∧
    fetchOk s 0x0031_20AF .amo (part .amo fun v => v.contend 0 0x2_0000 < 2) = true := by decide +kernel

/-- The calls, returns and CSR instructions, at levels that may run them, and a context switch that is refused. -/
theorem witness_SystemInstructions_csrs :
    fetchOk (warm (coreAt .e)) 0x0000_0073 .ecall (fun _ => true) = true ∧ fetchOk (warm (coreAt .e)) 0x0010_0073 .ebreak (fun _ => true) = true ∧
    fetchOk (warm (coreAt .e)) 0x1500_1073 .sRet (fun u => u.csrOk 0 0x150 true) = true ∧
    fetchOk (warm (coreAt .e)) 0x3500_1073 .eRet (fun u => u.csrOk 0 0x350 true) = true ∧
    fetchOk (warm (coreAt .e)) 0x5E01_9073 .ctxSwitch (fun u => u.csrOk 0 0x5E0 true && decide ((u.core 0).ctxId ≠ some (u.csrValue 0 0x5E01_9073 0 % 2 ^ 14)) &&
      (u.switchRefused 0 (u.csrValue 0 0x5E01_9073 0 % 2 ^ 14)).isNone) = true ∧
    fetchOk (warm ((coreAt .e).setX 0 3 0x3FFF)) 0x5E01_9073 .ctxSwitch (fun u => (u.switchRefused 0 0x3FFF).isSome) = true ∧
    fetchOk (warm (coreAt .e)) 0x5A01_9073 .region (fun u => u.csrOk 0 0x5A0 true && csrWrites 0x5A01_9073 && !csrLoop 0x5A0) = true ∧
    fetchOk (warm (coreAt .e)) 0x5C01_9073 .predFlush (fun u => u.csrOk 0 0x5C0 true && csrWrites 0x5C01_9073) = true ∧
    fetchOk (warm (coreAt .e)) 0x3001_9073 .other (fun u => u.csrOk 0 0x300 true && csrWrites 0x3001_9073) = true ∧
    fetchOk (warm (coreAt .e)) 0xC001_9073 .other (fun u => !u.csrOk 0 0xC00 true) = true := by decide +kernel

/-- Fences with no store waiting; FRAME.WAIT of a task and of no task; the custom instructions. -/
theorem witness_SystemInstructions_fences :
    fetchOk (warm (coreAt .e)) 0x0FF0_000F .fence (fun u => (u.core 0).sb == []) = true ∧ fenceWaits 0x0100_000F = false ∧
    fetchOk (warm (coreAt .e)) 0x0000_100F .fenceI (fun u => (u.core 0).sb == []) = true ∧
    fetchOk (warm (coreAt .e)) 0x0000_000B .frameWait (fun u => (u.core 0).task == none && (u.core 0).sb == []) = true ∧
    fetchOk (warm ((coreAt .e).modCore 0 fun k => { k with task := some 0 })) 0x0000_000B .frameWait (fun u => (u.core 0).task.isSome && (u.core 0).sb == []) = true ∧
    fetchOk (warm (coreAt .e)) 0x0031_100B .regionInv (fun u => u.level 0 != .u && (u.core 0).sb == []) = true ∧
    fetchOk (warm (coreAt .e)) 0x0000_200B .fenceGrove (fun u => u.level 0 == .e) = true ∧
    fetchOk (warm (coreAt .e)) 0x0021_802B .loopSet (fun _ => true) = true ∧
    (let s := (coreAt .e).modCore 0 fun k => { k with fence := some 5 }; (s.core (0 : CoreId).val).fence = some 5 ∧ s.runs 0 = true ∧
      ∀ g ∈ s.groveList, (∀ e ∈ (s.grv g).fwPending, 5 ≤ e.2.2) ∨ s.oldAdmitted g = false) := by decide +kernel

/-- LUI, AUIPC, ADDI, ADDIW, ADD, ADDW, BEQ, JAL, JALR, FADD.S. -/
theorem witness_OrdinaryInstructions :
    ([0x0000_10B7, 0x0000_1097, 0x0011_0093, 0x0011_009B, 0x0031_00B3, 0x0031_00BB, 0x0031_0463, 0x0080_00EF, 0x0001_00E7, 0x0031_00D3].all
      fun w => fetchOk (warm (coreAt .e)) w .other fun _ => true) = true ∧
    (aluImm 0x0011_0093 0 5).isSome = true ∧ (aluImmW 0x0011_009B 0 5).isSome = true ∧ (aluReg 0 0 5 6).isSome = true ∧
    (aluRegW 0 0 3 5 6).isSome = true ∧ (brTaken 0 5 5).isSome = true ∧ (match fpOp 0x0031_00D3 0 0 0 ((coreAt .e).rounding 0 0x0031_00D3) with
      | some (.fp _ _) => true
      | _ => false) = true := by decide +kernel

theorem witness_TrapEntryAndReturn : Level.s ≠ .u ∧ Level.e ≠ .u ∧ 2 ^ 63 + 4095 * 2 ^ 16 < 2 ^ 64 ∧ 2 ^ 64 - 1 < 2 ^ 64 := by decide

/-- A loop whose exit is the next instruction, with a count of 2, of 1 and of 0. -/
theorem witness_Retirement : ∀ n ∈ [0, 1, 2], let s := (((coreAt .e).setCsr 0 csrLoopCount n).setCsr 0 csrLoopCfg 1).setCsr 0 csrLoopExit 0x1_0004
    bitOf (s.csr 0 csrLoopCfg) 0 = true ∧ s.csr 0 csrLoopExit = (s.pc 0 + 4) % 2 ^ 64 ∧ s.csr 0 csrLoopCount = n ∧
      ¬ (s.csr 0 csrLoopExit = (s.pc 0 + 2) % 2 ^ 64) := by decide +kernel

/-- Source 127 of grove 0 pends at core 0, which runs at U level; `compat`: the grove's mode. -/
def offered (compat : Nat) : State := with_ (coreAt .u) [(Fd.IRQ_SRC_CFG.EN 127, 1), (Fd.IRQ_SRC_CFG.PENDING 127, 1), (Fd.IRQ_SRC_CFG.PRIO 127, 5),
  (Fd.IRQ_SRC_TGT.CORES 127, 1), (Fd.IRQ_GRV_CFG.COMPAT 0, compat)]

theorem witness_CoreEvents_interrupt :
    ((offered 0).runs (0 : CoreId).val = true ∧ ((offered 0).core 0).issued = false ∧ (∀ e ∈ (offered 0).pci.reads, e.2.req ≠ 0) ∧ (offered 0).offerOf 0 = some 127) ∧
    ((offered 0).compatSource 127 = false ∧ ((offered 0).event 0 0x15).compatSource 127 = false) := by decide +kernel

/-- A walk over a table of one line, whose first probe it is; a counter of a condition event. -/
theorem witness_CoreEvents_walk :
    (let w : Walk := { va := 0x5000, kind := 1, step := 1, b := 0, line := [] }
     let s := ((coreAt .u).modCore 0 fun k => { k with walk := some w }).setCsr 0 csrRotCnt 1
     (s.core (0 : CoreId).val).walk = some w ∧ nextStep (ceilDiv (s.csr 0 csrRotCnt) 2) w.b 13 w.step = some 1 ∧
      ([true, false].all fun rt => match (s.drawn.probeCheck 0 (s.csr 0 csrRotBase + 64 * (w.b + 1 - 1)) .none rt).1 with
        | .line _ => true
        | _ => false) = true) ∧
    (let s := ((coreAt .u).setPcsr 0 csrPmcCtl 0x80).setPcsr 0 (csrPmcEvt 7) 0x220
     (s.core 0).pmcTimed (7 : Fin 8).val (levelNo (s.level 0)) = true ∧ (7 : Fin 8).val % 2 = 1) := by decide +kernel

/-! ### Hypotheses: caches and memory -/

/-- Line 0x1000 has a directory entry. -/
def shared (unique : Bool) (presence : Nat) (l2 : Option LineState) (cl : Nat) : State :=
  running.modCoh fun c => { c with
    dir := [(0x1000, { unique := unique, presence := presence, age := 0, way := 4 })]
    l2 := mapSet [] c.l2 cl (match l2 with
      | some st => [(0x1000, st)]
      | none => []) }

/-- The directory set of line 0x1000 holds entries of open transactions in all its ways. -/
def fullSet : State := running.modCoh fun c => { c with
  dir := (List.range 16).map fun k => (0x1_1000 + 0x1_0000 * k, { unique := false, presence := 1, age := k, way := k })
  opened := (List.range 16).map fun k => (0x1_1000 + 0x1_0000 * k, { req := coreReq .readUnique 0 (0x1_1000 + 0x1_0000 * k) false }) }

/-- A request whose transaction may begin. -/
def sentTo (s : State) (q : HomeReq) : State := (s.transTake q.requester 1).2

def mayGo (s : State) (q : HomeReq) : Bool :=
  (s.transTake q.requester 1).1 && targetOf (64 * q.line) == .gddr && !(sentTo s q).blocked q.line

/-- Requests that need no snoop: of a line in no cache, shared and not, at both ends of GDDR7; `c` shares the cluster of core 63. -/
theorem witness_HomeRequests_served :
    (∀ a ∈ [0, gddrSize - 1], ∀ k ∈ [ReqKind.readShared true, .readShared false], let q := clusterReq k (3 : Fin 4).val (a / 64) false
      mayGo running q = true ∧ (sentTo running q).dirRoom (a / 64) false none ≠ .full ∧ (sentTo running q).snoopsFor q = 0 ∧
        (readBy (openedFor (sentTo running q) q) q .none).fails (a / 64) = false) ∧
    (∀ a ∈ [0, gddrSize - 1], let q := coreReq .readUnique (63 : CoreId).val (a / 64) true
      mayGo running q = true ∧ (sentTo running q).dirRoom (a / 64) true none ≠ .full ∧ (sentTo running q).snoopsFor q = 0 ∧
        (readBy (openedFor (sentTo running q) q) q .none).fails (a / 64) = false) ∧
    (∀ k ∈ [ReqKind.readShared true, .readShared false], (shared false 3 (some .s) 0).snoopsFor (clusterReq k 3 0x1000 false) = 0) ∧
    (let s := shared false 8 (some .s) 3; let q := coreReq .upgrade 63 0x1000 false
     mayGo s q = true ∧ (sentTo s q).dirRoom 0x1000 false none ≠ .full ∧ (sentTo s q).snoopsFor q = 0 ∧
      ((openedFor (sentTo s q) q).l2State (clusterOf 63) 0x1000).isSome = true) ∧
    (let s := shared true 1 (some .e) 0; let q := coreReq .readSpec 63 0x1000 false
     mayGo s q = true ∧ (sentTo s q).ownedElsewhere q = true ∧ (sentTo s q).coh.waiting = []) ∧
    (let s := running; let q := coreReq .readSpec 63 0x1000 false
     mayGo s q = true ∧ (sentTo s q).ownedElsewhere q = false ∧ (sentTo s q).dirRoom 0x1000 false none ≠ .full ∧
      (readBy (openedFor (sentTo s q) q) q .none).fails 0x1000 = false) ∧
    (running.l2State 3 0x1000 = none ∧ (running.otherHolders 3 0x1000 = 0) ∧ (shared false 1 (some .s) 0).otherHolders 3 0x1000 ≠ 0) := by
  decide +kernel

/-- The limit of open transactions is reached. -/
def atLimit : State := { running with openTrans := [(0, 49152)] }

/-- A request that waits, one that is retried, one that snoops, one that is held. -/
theorem witness_HomeRequests_not_served :
    ∀ q ∈ [clusterReq (.readShared true) 3 0x1000 false, clusterReq (.readShared false) 3 0x1000 false, coreReq .readUnique 63 0x1000 false,
        coreReq .upgrade 63 0x1000 false],
      (atLimit.transTake q.requester 1).1 = false ∧
      (let s := (shared false 1 none 0).setTx 0x1000 (some { req := coreReq .readUnique 0 0x1000 false })
       (s.transTake q.requester 1).1 = true ∧ targetOf (64 * 0x1000) = .gddr ∧ (sentTo s q).blocked 0x1000 = true) ∧
      (mayGo fullSet q = true ∧ (sentTo fullSet q).coh.waiting = [] ∧ (sentTo fullSet q).dirRoom 0x1000 false none = .full) ∧
      (let s := shared true 1 (some .m) 0
       mayGo s q = true ∧ (sentTo s q).dirRoom 0x1000 false none ≠ .full ∧ (sentTo s q).snoopsFor q ≠ 0) := by decide +kernel

/-- A line held in each state that leaves; snoops that are awaited; an acknowledgement; a retried request. -/
theorem witness_TransactionSteps_clusters :
    (∀ st ∈ [LineState.m, .e, .s], let s := shared true 8 (some st) 3; let v := (s.transTake (clusterReqNo (3 : Fin 4).val) 1).2
      (s.transTake (clusterReqNo 3) 1).1 = true ∧ targetOf (64 * 0x1000) = .gddr ∧ v.blocked 0x1000 = false ∧ v.coh.waiting = [] ∧
        s.wbPendingAt 3 0x1000 = false ∧ s.l2State 3 0x1000 = some st) ∧
    (∀ k ∈ [ReqKind.readUnique, .upgrade, .writeInv, .atomicFar, .readCurrent, .readShared true, .readShared false], ∀ st ∈ [LineState.m, .s],
      let t : OpenTx := { req := clusterReq k 0 0x1000 false, snoops := 8, snooped := true }
      let s := (shared true 8 (some st) 3).setTx 0x1000 (some t)
      mapGet? s.coh.opened 0x1000 = some t ∧ bitOf t.snoops (3 : Fin 4).val = true ∧ s.wbPendingAt 3 0x1000 = false ∧ s.l2State 3 0x1000 = some st) ∧
    (∀ b ∈ [false, true], let t : OpenTx := { req := clusterReq .readUnique 0 0x1000 false, finished := b }
      mapGet? (running.setTx 0x1000 (some t)).coh.opened 0x1000 = some t) ∧
    (∀ b ∈ [false, true], ∀ w ∈ [none, some 4], let q := { coreReq .readUnique 63 0x1000 b with retries := 1, reserved := b, way := w }
      let s := fullSet.modCoh fun c => { c with retry := [q] }
      (s.coh.retry.find? fun q => !q.own && q.line == 0x4_0000 / 64 && q.cluster == some 3) = some q ∧ (s.transTake q.requester 1).1 = true ∧
        (w = none → s.dirRoom q.line q.rt none = .full)) := by
  decide +kernel

/-- Agents without a cache, at the last bytes of a line and of a whole line. -/
theorem witness_TransactionSteps_agents :
    (∀ n ∈ [1, 8, 64], let a := 0x4_0040 - n
      let q : HomeReq := { kind := .readCurrent, cluster := none, line := 0x1000, rt := false, who := reqNo r0, addr := a, size := n }
      n ≠ 0 ∧ a % 64 + n ≤ 64 ∧ running.agentReaches r0 .read a n = true ∧ mayGo (running.fwUsed r0) q = true ∧
        (sentTo (running.fwUsed r0) q).snoopsFor q = 0 ∧ (readBy (openedFor (sentTo (running.fwUsed r0) q) q) q .none).fails 0x1000 = false) ∧
    (∀ n ∈ [1, 64], let a := 0x4_0040 - n; let bs := List.replicate n (1 : Byte)
      let q : HomeReq := { kind := .writeInv, cluster := none, line := 0x1000, rt := false, who := reqNo r0, addr := a, size := n, bytes := bs }
      bs ≠ [] ∧ a % 64 + bs.length ≤ 64 ∧ running.agentReaches r0 .write a n = true ∧ mayGo (running.fwUsed r0) q = true ∧
        (sentTo (running.fwUsed r0) q).snoopsFor q = 0 ∧ ((openedFor (sentTo (running.fwUsed r0) q) q).memFault none 0x4_0000 .none).fails 0x1000 = false) := by
  decide +kernel

/-- A far atomic whose core awaits it. -/
theorem witness_TransactionSteps_far :
    let a : FarAtomic := { insn := 0x0031_20AF, v := 7, addr := 0x4_0000, rt := false, va := 0x4_0000, len := 4 }
    let s := (coreAt .e).modCore 0 fun k => { k with far := some a }
    let q := coreReq .atomicFar (0 : CoreId).val 0x1000 false
    let u := readBy (openedFor (sentTo s q) q) q .none
    (s.core 0).far = some a ∧ a.addr / 64 = 0x1000 ∧ 0 ∈ s.coreList ∧ s.cores.map (·.1) = [0] ∧ s.coh.waiting = [] ∧ s.coh.retry = [] ∧
      s.coh.opened = [] ∧ mayGo s q = true ∧ (sentTo s q).dirRoom 0x1000 false none ≠ .full ∧ (sentTo s q).snoopsFor q = 0 ∧ u.fails 0x1000 = false ∧
      (u.core 0).far = some a ∧ (u.core 0).ctxId.isSome = true ∧ u.runs 0 = true ∧ (0 : Fin 4).val = clusterOf 0 := by decide +kernel

theorem witness_MemoryService :
    (running.set Fd.HWD_MEM_STAT.SPARING 1).get Fd.HWD_MEM_STAT.SPARING ≠ 0 ∧
    ((running.modCoh fun c => { c with waking := [63] }).coh.waking.contains (36 + (27 : Fin 28).val) = true) ∧
    (running.modCoh fun c => { c with wiping := true }).coh.wiping = true ∧
    Admitted running r0 Rg.HWD_MEM_CTL 4 ∧ (accepted running r0).isE r0 = true ∧ (8 : Nat) < 9 := by unfold Admitted; decide +kernel

/-! ### Hypotheses: interrupts -/

theorem witness_Doorbells :
    Admitted (offered 0 |>.setCore 0 { ctx := { level := .e }, ctxId := some 0 }) r0 Rg.IRQ_DOORBELL 4 ∧
    (let s := (running.setReg (Rg.GRV_FW 0 2) (0xF + 0x200_0000 * 2 ^ 12 + 0x4_0000 * 2 ^ 40))
     Admitted (s.set Fd.PCI_LINK.UP 1) .host Rg.PCI_DOORBELL 4) ∧
    (∀ src ∈ [0, 4095], let s := with_ running [(Fd.IRQ_SRC_CFG.LEVEL src, 1), (Fd.IRQ_STAT.DROP, 1)]
      (4095 : Nat) < 4096 ∧ s.dropReason (.core 0) src 1 = none ∧ s.dropReason (.core 0) src 2 = none ∧ s.dropReason (.core 0) src 0 = some 1 ∧
        s.dropReason .host src 0 = some 0 ∧ s.get Fd.IRQ_STAT.DROP = 1 ∧ running.dropReason (.core 0) src 0 = none) := by
  unfold Admitted; decide +kernel

/-- The last bank; a claim of an offered source and refused ones; an end of interrupt, and a wrong one; idle and busy groves. -/
theorem witness_RouterAccess :
    (∀ off ∈ [Rg.IRQ_EN_SET (127 : Fin 128).val, Rg.IRQ_EN_CLR 127, Rg.IRQ_PEND_SET 127, Rg.IRQ_PEND_CLR 127, Rg.IRQ_EOI, Rg.IRQ_GRV_CFG (63 : GroveId).val, Rg.IRQ_CTL],
      admits running r0 off 4 = true) ∧
    (let s := ((offered 1).modCtx 0 fun k => { k with level := .s }).setReg (Rg.GRV_FW 0 2) (0xF + 0x200_0000 * 2 ^ 12 + 0x4_0000 * 2 ^ 40)
     let u := s.fwUsed r0
     s.reaches r0 .read (winBase + Rg.IRQ_CLAIM) 4 = true ∧ u.level 0 ≠ .u ∧ u.offerOf 0 = some 127 ∧ u.compatSource 127 = true) ∧
    (let u := running.fwUsed r0; running.reaches r0 .read (winBase + Rg.IRQ_CLAIM) 4 = true ∧ u.offerOf 0 = none) ∧
    (let u := accepted (running.setStack 0 [(4095, 3)]) r0; u.stack 0 = [(bits (4095 : Word32).toNat 11 0, 3)] ∧ u.level 0 ≠ .u ∧
      (u.stack 0).head?.map (·.1) ≠ some 4094) ∧
    (let u := accepted running r0; u.mayConfigGrove r0 0 = true ∧ (∀ c ∈ bitsSet 64 (u.grv 0).cfg.cores, u.stack c = []) ∧
      ∃ c ∈ bitsSet 64 ((accepted (running.setStack 0 [(7, 0)]) r0).grv 0).cfg.cores, (accepted (running.setStack 0 [(7, 0)]) r0).stack c ≠ []) ∧
    (accepted (coreAt .u) r0).mayConfigGrove r0 0 = false := by decide +kernel

/-- A canonical state with an offer. -/
theorem witness_OffersOfTheRouter : (offered 0).wf ∧ (offered 0).offers = [(0, 127)] ∧ (4095 : Nat) < 4096 ∧ (63 : Nat) < 64 ∧
    ((offered 0).accept 0 127).prio 63 ≤ ((offered 0).accept 0 127).prio 127 := by unfold State.wf; decide +kernel

/-- An interrupt that waits: below its level's enable, and above its level. -/
theorem witness_DeliverableInterrupts :
    (offered 0).offerOf (0 : CoreId).val = some 127 ∧
    ((coreAt .e).level 0 = (coreAt .e).intLevel 0 ∧ bits ((coreAt .e).csr 0 (hStatus .e)) 0 0 = 0) ∧
    (let s := (coreAt .e).modGrv 0 fun x => { x with cfg := { x.cfg with exec := false } }; levelNo (s.intLevel 0) < levelNo (s.level 0)) := by decide +kernel

/-- An edge source at the end of the range, active and not, enabled. -/
theorem witness_EdgeSources : ∀ a ∈ [0, 1], let s := with_ running [(Fd.IRQ_SRC_CFG.ACTIVE 4095, a), (Fd.IRQ_SRC_CFG.EN 4095, 1)]
    (4095 : Nat) < 4096 ∧ s.get (Fd.IRQ_SRC_CFG.LEVEL 4095) = 0 ∧ s.maySignal (.core 0) 4095 0 = true ∧ s.get (Fd.IRQ_SRC_CFG.EN 4095) ≠ 0 ∧
      (s.get (Fd.IRQ_SRC_CFG.ACTIVE 4095) ≠ 0 ↔ a = 1) := by decide +kernel

/-! ### Hypotheses: Heartwood

The verdicts of signatures, of authenticated decryption and of a firmware image are free values (log 6): what a hypothesis asks of them
is left to them, and all else is met. -/

/-- A command of mailbox 1 is in progress in a lifecycle state, with its request bytes. -/
def mbx (lc code : Nat) (bs : List Byte) : State :=
  (with_ (running.modSec fun x => { x with queue := [1] }) [(Fd.HWD_STAT.LC, lc), (Fd.HWD_MBX_CMD.CODE 1, code), (Fd.HWD_MBX_CMD.LEN 1, bs.length)]).mbxPut 1 bs

def served (s : State) (code len : Nat) : Bool :=
  s.heartwoodRuns && s.sec.queue.head? == some (1 : Fin 2).val && s.get (Fd.HWD_MBX_CMD.CODE 1) == code && s.get (Fd.HWD_MBX_CMD.LEN 1) == len

theorem served_Served {s : State} {code len : Nat} (h : served s code len = true) : Served s 1 code len := by
  simp only [served, Bool.and_eq_true, beq_iff_eq] at h
  exact ⟨h.1.1.1, h.1.1.2, h.1.2, h.2⟩

/-- A certificate record for key `k` of a module whose serial number and identity are all 0. -/
def cert (k : Byte) : List Byte := leBytes 4 0x54435748 ++ [1, 0, k] ++ List.replicate 249 0

/-- All of `ownCertOk` but the verdict. -/
def certForm (s : State) (b : List Byte) (k : Nat) : Bool :=
  fieldB b 0 4 == 0x54435748 && fieldB b 4 2 == 1 && fieldB b 6 1 == k && fieldB b 8 8 == s.reg Rg.HWD_SERIAL_LO &&
    fieldB b 0x10 8 == s.reg Rg.HWD_SERIAL_HI && sliceB b 0x20 97 == sliceB s.sec.idPub 0 97

/-- A firmware image of 512 bytes: its header, and the CRC of its first 384 bytes in the place of the CRC. -/
def firmwareHead : List Byte := leBytes 4 0x57465748 ++ leBytes 2 1 ++ [0, 0] ++ leBytes 4 0x200 ++ List.replicate 372 0
def firmware : List Byte := firmwareHead ++ leBytes 4 0xc98f5bb ++ List.replicate 124 0

/-- A request for 512 bytes of the buffer, which hold the image. -/
def firmwareState : State :=
  ((mbx 4 0x11 (List.replicate 8 0 ++ leBytes 4 0x200)).wrB (0x7_F000_0000 + 0) (leBytes 4 0x57465748 ++ [1, 0, 0, 0, 0, 2])).wrB 0x7_F000_0180 (leBytes 4 0xc98f5bb)

/-- `List.foldl` that has its accumulator evaluated at each byte. -/
def foldS (f : Nat → Byte → Nat) : List Byte → Nat → Nat
  | [], a => a
  | b :: l, 0 => foldS f l (f 0 b)
  | b :: l, a + 1 => foldS f l (f (a + 1) b)

theorem foldS_eq (f : Nat → Byte → Nat) (l : List Byte) (a : Nat) : foldS f l a = l.foldl f a := by
  induction l generalizing a with
  | nil => rfl
  | cons b l ih => cases a <;> exact ih _

theorem firmware_crc : crc32c (sliceB firmware 0 384) = 0xc98f5bb := by
  rw [crc32c, ← foldS_eq]; decide +kernel

theorem firmware_buffer : (firmwareState.unitRead (bufferAt 1 0) 0x200 false).1 = some firmware ∧ firmwareState.linesFree (bufferAt 1 0) 0x200 = true ∧
    bufferFits 1 0 0x200 := by unfold bufferFits; decide +kernel

theorem firmware_ok (h : Config.firmwareVerifies (sliceB firmware 0 0x200) = true) : firmwareState.firmwareOk firmware = true := by
  have e : fieldB firmware 8 4 = 0x200 := by decide +kernel
  unfold State.firmwareOk; dsimp only; rw [e, h, firmware_crc]; decide +kernel

theorem witness_MailboxCommands_update : let s := firmwareState
    served s 0x11 12 = true ∧ s.get Fd.HWD_STAT.LC < 5 ∧ s.sec.fwWriting = none ∧ fieldB (s.mbxBytes 1 12) 0 8 = 0 ∧ fieldB (s.mbxBytes 1 12) 8 4 = 0x200 ∧
      fieldB firmware 8 4 = fieldB (s.mbxBytes 1 12) 8 4 := by decide +kernel

/-- A write-back that was cut short goes on with its request still in progress. -/
theorem witness_MailboxCommands_resume : (firmwareState.modSec fun x => { x with fwWriting := some (1, firmware) }).sec.fwWriting = some ((1 : Fin 2).val, firmware) ∧
    firmwareState.inProgress (1 : Fin 2).val 0x11 = true := by decide +kernel

theorem witness_MailboxCommands_read :
    ([(1, 0), (2, 0), (3, 0), (4, 32), (0x31, 0)].all fun e => served (mbx 2 e.1 (List.replicate e.2 0)) e.1 e.2) = true ∧
    (mbx 2 4 []).lcRuns = true ∧ (mbx 2 4 []).start.recovery = false ∧ (mbx 2 4 []).start.staging = none ∧
    ([(1 : Fin 32), 31].all fun n => let s := mbx 2 5 (List.replicate 8 0 ++ [BitVec.ofNat 8 n.val])
      served s 5 9 && fieldB (s.mbxBytes 1 9) 8 1 == n.val) = true := by decide +kernel

theorem witness_MailboxCommands_stage :
    (let s := mbx 2 0x10 (List.replicate 8 0 ++ leBytes 4 64); let addr := fieldB (s.mbxBytes 1 12) 0 8; let len := fieldB (s.mbxBytes 1 12) 8 4
     served s 0x10 12 = true ∧ bufferFits 1 addr len ∧ s.linesFree (bufferAt 1 addr) len = true ∧ (s.unitRead (bufferAt 1 addr) len false).1.isSome = true ∧
      len ≤ (s.unitRead (bufferAt 1 addr) len false).2.slotSize) ∧
    (let s := mbx 2 0x10 (leBytes 8 0x1000_0000 ++ leBytes 4 1); served s 0x10 12 = true ∧
      ¬ bufferFits 1 (fieldB (s.mbxBytes 1 12) 0 8) (fieldB (s.mbxBytes 1 12) 8 4)) := by unfold bufferFits; decide +kernel

/-- A certificate of key 7 is installed: as that of the pending key (1), as that of the key in force (0). -/
def certState (n : Nat) : State :=
  ((mbx 3 0x23 (cert 7)).set Fd.HWD_STAT.KEY_PENDING n).modSec fun x => { x with owners := [(7, { digest := [], valid := true })] }

theorem witness_MailboxCommands_cert :
    ([0, 1].all fun n => let s := certState n
      served s 0x23 256 && fieldB (s.mbxBytes 1 256) 6 1 == 7 && certForm s (s.mbxBytes 1 256) 7 && s.get Fd.HWD_STAT.KEY_PENDING == n &&
        s.ownerIndex == some 7 && (s.set Fd.HWD_CNT.PENDING_INDEX 7).get Fd.HWD_CNT.PENDING_INDEX == 7) = true := by decide +kernel

theorem witness_MailboxCommands_length :
    ([(1, 0), (2, 0), (3, 0), (4, 32), (5, 9), (0x11, 12), (0x21, 356), (0x22, 484), (0x23, 256), (0x24, 288), (0x30, 128), (0x31, 0)].all fun e =>
      served (mbx 1 e.1 [0]) e.1 1 && 1 != e.2) = true ∧ (mbx 1 1 [0]).lcRuns = false ∧
    (mbx 1 1 [0]).sec.change = none ∧ (mbx 1 1 [0]).sec.fwWriting = none ∧
    ([(0x04, 32), (0x22, 484), (0x23, 256), (0x24, 288)].all fun e => served (mbx 1 e.1 (List.replicate e.2 0)) e.1 e.2) = true := by decide +kernel

/-- All of `OwnerAllows` but the verdict. -/
def ownerForm (s : State) (req : List Byte) : Bool :=
  s.get (Fd.HWD_MBX_STAT.LOCKED 1) == 0 && match (s.box 1).nonce with
    | some (b, t) => b == (sliceB req (req.length - 128) 128).take 32 && decide (s.hwTime < t + 600000000000)
    | none => false

theorem ownerForm_OwnerAllows {s : State} {code : Nat} {req : List Byte} (h : ownerForm s req = true)
    (hv : Config.signatureValid ((s.ownerIndex.map s.ownerDigest).getD [])
      (leBytes 8 (s.reg Rg.HWD_SERIAL_LO) ++ leBytes 8 (s.reg Rg.HWD_SERIAL_HI) ++ leBytes 2 code ++ req.take (req.length - 128) ++
        (sliceB req (req.length - 128) 128).take 32) ((sliceB req (req.length - 128) 128).drop 32) = true) : OwnerAllows s 1 code req := by
  unfold ownerForm at h
  simp only [Bool.and_eq_true, beq_iff_eq] at h
  refine ⟨h.1, ?_, hv⟩
  have h2 := h.2
  split at h2
  · rename_i b t e
    simp only [Bool.and_eq_true, beq_iff_eq, decide_eq_true_eq] at h2
    exact ⟨t, by rw [e, h2.1], h2.2⟩
  · cases h2

/-- A request that ends in an owner block whose nonce is outstanding, 600 s old but for a nanosecond. -/
def signed (lc code : Nat) (body : List Byte) : State :=
  let s := mbx lc code (body ++ List.replicate 128 0)
  ({ s with now := 599_999_999_999 }).setBox 1 { nonce := some (List.replicate 32 0, 0) }

theorem witness_OwnerCommands :
    (∀ e ∈ [(2, 3), (3, 4), (4, 3), (2, 1), (4, 5)], let s := signed e.1 0x20 [BitVec.ofNat 8 e.2, 0, 0, 0]
      served s 0x20 132 = true ∧ s.start.recovery = false ∧ bits (s.reg (Rg.HWD_MBX_DATA 1 0)) 7 0 = e.2 ∧ s.sec.lcTo = none ∧ s.sec.change = none ∧
        zeroB (s.mbxBytes 1 132) 1 3 = true ∧ lcTransition s.lc e.2 = some true ∧ ownerForm s (s.mbxBytes 1 132) = true) ∧
    (let s := mbx 1 0x20 [5, 0, 0, 0]; served s 0x20 4 = true ∧ lcTransition s.lc 5 = some false ∧ zeroB (s.mbxBytes 1 4) 1 3 = true) ∧
    (let s := mbx 1 0x21 (List.replicate 100 0 ++ cert 0); let b := s.mbxBytes 1 356
     served s 0x21 356 = true ∧ s.lc = 1 ∧ s.sec.lcTo = none ∧ s.sec.change = none ∧ s.get Fd.HWD_CNT.OWNER_INSTALLS < 8 ∧ zeroB b 97 3 = true ∧ certForm s (sliceB b 100 256) 0 = true) ∧
    (let s := (signed 2 0x22 (List.replicate 100 0 ++ cert 7)).set Fd.HWD_CNT.OWNER_INSTALLS 7; let b := s.mbxBytes 1 484
     served s 0x22 484 = true ∧ s.lcRuns = true ∧ s.get Fd.HWD_STAT.KEY_PENDING = 0 ∧ s.sec.change = none ∧ ownerForm s b = true ∧
      (ownerUsed s 1).get Fd.HWD_CNT.OWNER_INSTALLS = 7 ∧ zeroB (b.take 356) 97 3 = true ∧ certForm (ownerUsed s 1) (sliceB (b.take 356) 100 256) 7 = true) ∧
    (let s := signed 2 0x24 (List.replicate 160 0); served s 0x24 288 = true ∧ s.lcRuns = true ∧ ownerForm s (s.mbxBytes 1 288) = true ∧
      zeroB ((s.mbxBytes 1 288).take 160) 97 3 = true) ∧
    (∀ l ∈ [2, 4], let s := signed l 0x30 []; served s 0x30 128 = true ∧ s.lc = l ∧ ownerForm s (s.mbxBytes 1 128) = true) ∧
    (∀ n ∈ [15, 16], ((mbx 3 0x20 []).set Fd.HWD_CNT.SERVICE_ENTRIES n).lc = 3 ∧ (((mbx 3 0x20 []).set Fd.HWD_CNT.SERVICE_ENTRIES n).get Fd.HWD_CNT.SERVICE_ENTRIES < 16 ↔ n = 15)) ∧
    -- transitions that do not exist, with the owner block and without; a change that was cut short
    (let s := signed 2 0x20 [4, 0, 0, 0]; served s 0x20 132 = true ∧ lcTransition s.lc 4 = none ∧ bits (s.reg (Rg.HWD_MBX_DATA 1 0)) 7 0 = 4) ∧
    (let s := mbx 1 0x20 [4, 0, 0, 0]; served s 0x20 4 = true ∧ lcTransition s.lc 4 = none) ∧
    (∀ code ∈ [0x20, 0x21, 0x22], let c : Change := { seq := 0, mailbox := 1, lc := some 2, counter := none, key := none }
      ((mbx 2 code []).modSec fun x => { x with change := some c }).sec.change = some c ∧ c.mailbox = (1 : Fin 2).val ∧ (mbx 2 code []).inProgress 1 code = true) ∧
    -- a start after one: nothing programmed, and the cell of its counter left unclean, at its first and at its last step
    (∀ e ∈ [(0, []), (0, [0]), (7, [0])], let c : Change := { seq := 0, mailbox := 1, lc := none, counter := some 0, key := some (e.1, [], []) }
      let s := (running.set Fd.HWD_CNT.OWNER_INSTALLS e.1).modSec fun x => { x with change := some c, margin := e.2, copies := mapSet 0 [(2, 256)] 0 e.1 }
      s.sec.lcTo = none ∧ (∀ k < 3, s.get (otpCounter k) ≤ mapGet 0 s.sec.copies k) ∧ s.get (otpCounter 0) < otpLimit 0 ∧
        mapGet 0 s.sec.copies 0 = s.get (otpCounter 0) ∧ s.lcResume.sec.change = none ∧
        s.lcResume.get Fd.HWD_STAT.KEY_PENDING = e.2.length) ∧
    (¬ ((mbx 2 0x20 []).lc = 3 ∧ 3 = 4) ∧ running.get (Fd.HWD_MBX_STAT.LOCKED 1) = 0 ∧ (running.box 1).nonce = none) := by decide +kernel

/-- Every clause of Heartwood's events, for tamper conditions 0 and 7. -/
theorem witness_HeartwoodEvents :
    (running.modSec fun x => { x with lcTo := some 3 }).sec.lcTo = some 3 ∧ running.sec.boxes = [] ∧
    (let s := running.setBox 1 { nonce := some ([], 7) }; (s.sec.boxes = [(1, { nonce := some ([], 7) })])) ∧
    (∀ k ∈ [(0 : Fin 8), 7], let s := running.modCoh fun c => { c with macFailed := [0] }; s.alwaysOn = true ∧ bitOf s.sec.active k.val = false ∧
      bitOf (running.modSec fun x => { x with active := 2 ^ k.val }).sec.active k.val = true) ∧
    (running.modSec fun x => { x with macFails := List.replicate 64 running.now }).macTamper = true ∧
    (∀ b ∈ [false, true], let s := (running.modSec fun x => { x with active := if b then 0x80 else 0 }).modPower fun p => { p with rstHeld := [srcSensor] }
     srcSensor ∈ s.power.rstHeld ∧ bitOf s.sec.active 3 = false ∧ bitOf s.sec.active 4 = false ∧ bitOf s.sec.active 6 = false ∧ bitOf s.sec.active 7 = b) ∧
    (∀ b ∈ [false, true], let s := (running.modSec fun x => { x with active := if b then 1 else 0 }).modPower fun p => { p with rstHeld := [srcZeroise] }
     srcZeroise ∈ s.power.rstHeld ∧ bitOf s.sec.active 0 = b ∧ bitOf s.sec.active 1 = false ∧ bitOf s.sec.active 2 = false ∧ s.phase ≠ .rising) ∧
    running.get Fd.TIME_STAT.ACQUIRED ≠ 0 ∧ State.reset.get Fd.TIME_STAT.ACQUIRED = 0 := by decide +kernel

/-! ### Hypotheses: metrology, the host interface, power, debug, frames -/

/-- The enclave runs and meters; the seal is asserted or not, with a write or none in the session. -/
def metered (sealed : Bool) (written : Nat) : State := running.modMet fun x => { x with
  running := true, sealed := sealed, written := written, pendSet := if sealed then some [(0, 0x3F000000)] else none }

theorem witness_EnclaveEvents :
    ([(false, 0), (true, 0), (true, 1)].all fun e => (metered e.1 e.2).metRuns) = true ∧ (metered false 0).met.metering = true ∧
    (metered false 0).met.pfStored = false ∧ ((metered false 0).modSec fun x => { x with pfHeld := true }).sec.pfHeld = true ∧
    ((metered false 0).modPower fun p => { p with disarmed := true }).power.disarmed = true ∧
    ((metered false 0).modMet fun x => { x with pfStored := true }).met.pfStored = true ∧
    ([(0 : Fin 24), 23].all fun ch => !bitOf (metered false 0).met.faults ch.val &&
      bitOf ((metered false 0).modMet fun x => { x with faults := 2 ^ ch.val }).met.faults ch.val) = true ∧
    (∃ crc : Word32, crc.toNat = (metered false 0).met.expected) ∧ (∃ crc : Word32, crc.toNat ≠ (metered false 0).met.expected) ∧
    ([false, true].all fun b => let s := running.modPower fun p => { p with feedA := b, feedB := !b }
      s.mx && !s.met.running && (s.power.feedA || s.power.feedB)) = true ∧
    running.metRuns = false := by
  refine ⟨by decide +kernel, by decide +kernel, by decide +kernel, by decide +kernel, by decide +kernel, by decide +kernel, by decide +kernel,
    ⟨0, by decide +kernel⟩, ⟨1, by decide +kernel⟩, by decide +kernel, by decide +kernel⟩

theorem witness_CalibrationPort :
    (metered false 0).met.sealed = false ∧ ((metered true 0).met.sealed = true ∧ (metered true 0).met.written = 0) ∧
    ((metered true 1).met.sealed = true ∧ (metered true 1).met.written ≠ 0) ∧
    paramRange (0xFF : Byte).toNat = none ∧ paramRange (0 : Byte).toNat = some (0x3F000000, 0x40000000) ∧
    -- the ends of the range, and a value next to each outside it
    (fLe f32 0x3F000000 0x3F000000 = true ∧ fLe f32 0x3F000000 0x40000000 = true ∧ fLe f32 0x40000000 0x40000000 = true ∧
      fLe f32 0x3F000000 0x3EFFFFFF = false ∧ fLe f32 0x40000001 0x40000000 = false) ∧
    ([31, 32].all fun n => let s := (metered true 1).modMet fun x => { x with slots := List.replicate n (0, 0) }
      s.met.sealed && s.met.slots.length == n && s.met.pendSet == some [(0, 0x3F000000)]) = true ∧
    ([false, true].all fun b => ((metered true 1).modMet fun x => { x with useB := b }).met.useB == b) = true ∧
    admits (metered false 0) r0 Rg.MET_CMD 8 = true ∧ (metered false 0).mx = true ∧ (accepted (metered false 0) r0).isE r0 = true ∧
    ((3 : Byte).toNat < 4 ∧ ¬ (4 : Byte).toNat < 4) ∧ ((3 : Nat) ≤ 3 ∧ 3 ≠ (metered false 0).met.acc.tariff ∧ 3 < 4) := by decide +kernel

/-- The link is up, and not Safe Hold; message queue 15 is enabled, or not. -/
def linkUp (en : Nat) : State := with_ running [(Fd.PCI_LINK.UP, 1), (Fd.PCI_MQ_CFG.EN 15, en), (Fd.PCI_MQ_CFG.H2D_LOG2 15, 5), (Fd.PCI_MQ_CFG.D2H_LOG2 15, 5)]

theorem witness_HostInterface :
    running.inReset = false ∧ (1 : Fin 4).val ≠ 0 ∧ ((linkUp 0).get Fd.PCI_LINK.UP ≠ 0 ∧ (linkUp 0).pci.reads = []) ∧ running.get Fd.PCI_LINK.UP = 0 ∧
    (let x : ObRead := { req := 0, addr := 0, size := 8 }; mapGet? [(7, x)] 7 = some x ∧ x.result = none ∧ x.req ≠ reqNone) ∧
    ((linkUp 0).get Fd.CFG_STAT.SAFE_HOLD = 0 ∧ (linkUp 0).get (Fd.PCI_MQ_CFG.EN (15 : Fin 16).val) = 0) ∧
    -- the host's head index: one entry and a full ring are taken, one entry more is not
    (let s := linkUp 1; s.get (Fd.PCI_MQ_CFG.EN (15 : Fin 16).val) ≠ 0 ∧
      ([1, 32].all fun v => decide ((v + 2 ^ 16 - s.get (Fd.PCI_MQ_IDX.H2D_TAIL 15)) % 2 ^ 16 ≤ 2 ^ s.get (Fd.PCI_MQ_CFG.H2D_LOG2 15)) &&
        v != s.get (Fd.PCI_MQ_IDX.H2D_HEAD 15)) = true ∧
      2 ^ s.get (Fd.PCI_MQ_CFG.H2D_LOG2 15) < (33 + 2 ^ 16 - s.get (Fd.PCI_MQ_IDX.H2D_TAIL 15)) % 2 ^ 16 ∧
      admits s r0 (Rg.PCI_MQ_IDX (15 : Fin 16).val) 8 = true ∧ (accepted s r0).mayIndex r0 15 = true ∧
      32 ≠ (accepted s r0).get (Fd.PCI_MQ_IDX.D2H_HEAD 15) ∧
      (32 + 2 ^ 16 - (accepted s r0).get (Fd.PCI_MQ_IDX.D2H_TAIL 15)) % 2 ^ 16 ≤ 2 ^ (accepted s r0).get (Fd.PCI_MQ_CFG.D2H_LOG2 15)) ∧
    ((linkUp 0).set Fd.CFG_STAT.SAFE_HOLD 1).get Fd.CFG_STAT.SAFE_HOLD ≠ 0 ∧
    (let s := running.modFrame fun f => { f with decided := true }; s.frameRunning = true ∧ s.frame.decided = true ∧ s.pci.copied ≠ some s.frameNo) ∧
    ([false, true].all fun w => ((running.setSnap (3 : Fin 4).val { k := 1, writing := w }).snap (3 : Fin 4).val).writing == w) = true ∧
    (admits running r0 (Rg.PCI_SNAP_CFG (3 : Fin 4).val) 8 = true ∧ admits running r0 (Rg.PCI_MQ_CFG (15 : Fin 16).val) 8 = true ∧
      admits running r0 Rg.PCI_CTL 4 = true) := by decide +kernel

/-- The power fails. -/
def failing : State := running.set Fd.PWR_STAT.PFW 1

theorem witness_PowerAndResets :
    (State.reset.modStart fun x => { x with phase := .unpowered }).alwaysOn = false ∧
    (running.alwaysOn = true ∧ running.sec.pfHeld = false ∧ running.power.disarmed = false ∧ running.sec.queue = [] ∧ running.phase = .done) ∧
    ((failing.modSec fun x => { x with pfHeld := true }).sec.pfHeld = true ∧ (running.modPower fun p => { p with disarmed := true }).power.disarmed = true) ∧
    (failing.get Fd.PWR_STAT.PFW ≠ 0 ∧ failing.phase = .done) ∧ (running.set Fd.PWR_SPRINT.COOL 1).get Fd.PWR_SPRINT.COOL ≠ 0 ∧
    (let s := (running.modPower fun p => { p with sprintSince := some 0 }).set Fd.FRM_STAT.RUNNING 0; s.power.sprintSince = some 0 ∧ s.frameRunning = false) ∧
    -- the last tick in the 30 s, and the frame after it
    (let s := (running.modPower fun p => { p with sprintSince := some 5_000_000 }).setReg Rg.FRM_TICK_TIME 30_004_000_001
     s.frameRunning = true ∧ 5_000_000 + 30000000000 < s.tickTime + s.period) ∧
    (running.inReset = false ∧ running.get Fd.TIME_STAT.ACQUIRED ≠ 0 ∧ running.pins.ppsOut ≠ some (roundUp running.now 1000000000)) ∧
    ([Rg.PWR_CTL, Rg.PWR_SPRINT, Rg.PWR_RET, Rg.THM_CTL].all fun o => admits running r0 o 4) = true ∧
    ((accepted running r0).mayPower r0 = true ∧ bitsSet 28 (2 ^ 27) = [27] ∧ (accepted running r0).bankInUse 27 = false) := by decide +kernel

theorem witness_SprintAndTemperature :
    ([0, 750000].all fun ms => let s := with_ running [(Fd.PWR_SPRINT.REQ, 1), (Fd.PWR_LEDGER_POWERED.MS, ms)]
      s.power.sprintSince.isNone && s.get Fd.PWR_SPRINT.COOL == 0 && s.get Fd.PWR_SPRINT.REQ != 0 && (s.sprintRefusal == 0) == (ms != 0)) = true ∧
    running.get Fd.PWR_LEDGER_SPRINT.MS + 30000 < 2 ^ 64 ∧
    (let s := running.set Fd.PWR_LEDGER_SPRINT.MS 30000; s.now ≤ s.now ∧ s.now + 270000000000 < 2 ^ 64 ∧ 30000 ≤ s.get Fd.PWR_LEDGER_SPRINT.MS) ∧
    running.inReset = false ∧ (List.replicate 9 (1616 : Half)).length = 9 ∧
    -- 101 °C and 105 °C and a sixteenth at the last junction sensor, 95 °C and a sixteenth at the case
    101 * 16 ≤ sext 16 (1616 : Half).toNat ∧ 105 * 16 < sext 16 (1681 : Half).toNat ∧ 95 * 16 < sext 16 (1521 : Half).toNat := by decide +kernel

/-- Core debug is open, and core 63 is halted or not. -/
def debugging (halted : Bool) : State := (running.modSec fun x => { x with tapInstr := 0x11 }).modCore 63 fun k => { k with halted := halted }

theorem witness_CoreDebug :
    running.sec.tapInstr ≠ 0x11 ∧ ((with_ (debugging true) [(Fd.HWD_STAT.LC, 2)]).coreDebug = false) ∧
    ([false, true].all fun h => let s := debugging h
      s.sec.tapInstr == 0x11 && s.coreDebug && (s.core (63 : CoreId).val).halted == h) = true ∧
    (targetOf (0x1000 : PAddr).toNat ≠ .sealed ∧ targetOf ((0x1000 : PAddr).toNat + 8 - 1) ≠ .sealed) ∧ targetOf (BitVec.ofNat 40 sealedBase : PAddr).toNat = .sealed := by
  decide +kernel

/-- A command that may store nothing and is no unit's, and a next state of it. -/
theorem witness_Frames : ∃ t, exec .wheelTurn running = .next t ∧ mayStore .wheelTurn = false ∧ mayFlash .wheelTurn = false ∧
    mayMeter .wheelTurn = false ∧ mayLoop .wheelTurn = false ∧ mayField .wheelTurn = false ∧ mayCascade .wheelTurn = false ∧
    mayGroves .wheelTurn = false := ⟨_, rfl, rfl, rfl, rfl, rfl, rfl, rfl, rfl⟩

theorem witness_RegisterWidths :
    ([(Rg.FRM_CTL + 2, 4), (Rg.FRM_CTL, 2), (Rg.FRM_CTL, 8)].all fun e => accOf (regAcc e.1 e.2) == 4) = true ∧
    (∃ d o, regAt Rg.FRM_CTL = some (d, o) ∧ d.wide = false) ∧
    (let a := winAddr (Rg.FRM_CTL + 2); targetOf a.toNat = .window ∧ base.present r0 = true ∧ accOf (regAcc (a.toNat - winBase) 4) = 4 ∧
      base.reaches r0 .read a.toNat 4 = true ∧ base.reaches r0 .write a.toNat 4 = true) ∧
    (let a := winAddr Rg.FRM_CTL; targetOf a.toNat = .window ∧ accOf (regAcc (a.toNat - winBase) 8) = 4 ∧ base.reaches r0 .write a.toNat 8 = true) := by
  refine ⟨by decide +kernel, ?_, by decide +kernel, by decide +kernel⟩
  exact ⟨_, _, rfl, by decide +kernel⟩

/-! ### Worked examples of the spec -/

/-- 4.10: the tag of the refiner stock flow, square-root scaling with P0 = 0.7216878 and P1 = 276. -/
def flowTag : Tag := Tag.of (List.replicate 0x17 0 ++ [1, 0, 0x60] ++ List.replicate 6 0 ++ leBytes 4 (fOfRatio f32 7216878 10000000) ++
  leBytes 4 (fOfNat f32 276) ++ List.replicate 24 0)

/-- 4.10: 6,912 counts are 60.0000 L/s, 23,250 are 110.0426, 22,000 are 107.0436; below the cutoff the flow is 0. -/
theorem test_scale_sqrt : ([(6912, 600000), (23250, 1100426), (22000, 1070436)].all fun e => match State.reset.scaleValue flowTag (fOfNat f32 e.1) with
      | some (v, _) => fLt f32 (fOfRatio f32 (e.2 - 1) 10000) v && fLt f32 v (fOfRatio f32 (e.2 + 1) 10000)
      | none => false) = true ∧
    State.reset.scaleValue flowTag (fOfNat f32 275) = some (0, none) := by decide +kernel

/-- An entry of a Region Overflow Table. -/
def rot (vb pages pb attr : Nat) : List Byte := leBytes 8 vb ++ leBytes 8 pb ++ leBytes 4 pages ++ leBytes 2 attr ++ List.replicate 10 0

/-- 10.8: the table at 0x2C00_0000 (V is bit 0 of the attributes), a walk of core 0 for VA 0x123_4560. -/
def walking : State :=
  let s := (((coreAt .u).setCsr 0 csrRotBase 0x2C00_0000).setCsr 0 csrRotCnt 5).wrB 0x2C00_0000 (rot 0x40_0000 16 0x2C10_0000 1 ++
    rot 0x80_0000 256 0x2C20_0000 1 ++ rot 0x100_0000 1024 0x3A00_0000 1 ++ rot 0x200_0000 4096 0x3C00_0000 1 ++ rot 0x1000_0000 2 0x10_0120_0000 1)
  s.walkBegin 0 0x123_4560 1

/-- A free service class changes no test: what holds of a probe's return in both holds of it. -/
theorem walkProbe_either {s : State} {c : CoreId} {p : State → Prop} (h : ∀ rt, p (s.drawn.probeReturn c .none rt)) : p (s.walkProbe c .none) := h _

/-- 10.8: line 1 is read first, and the walk goes on behind it. -/
theorem test_walk : ((walking.walkProbe 0 .none).core 0).walk.map (fun w => (w.b, w.step)) = some (2, 1) :=
  walkProbe_either (p := fun u => (u.core 0).walk.map (fun w => (w.b, w.step)) = some (2, 1)) (by decide +kernel)

/-- 10.8: then line 2; entry 2 gives PA 0x3A23_4560. -/
theorem test_walk_end : let s := walking.modCore 0 fun k => { k with walk := k.walk.map fun w => { w with b := 2, step := 1, line := walking.rdB 0x2C00_0040 64 } }
    ((s.walkProbe 0 .none).core 0).walked.map (fun w => (w.va, w.entry.map fun e => e.pa 0x123_4560)) = [(0x123_4560, some 0x3A23_4560)] :=
  walkProbe_either (p := fun u => (u.core 0).walked.map (fun w => (w.va, w.entry.map fun e => e.pa 0x123_4560)) = [(0x123_4560, some 0x3A23_4560)])
    (by decide +kernel)

/-- 10.8: with the table in Frame SRAM the walk faults: CODE 0x0D, KIND 1, line 1. -/
theorem test_walk_fault : (walking.setCsr 0 csrRotBase 0x10_0120_0000).walkProbe 0 .none =
    (walking.setCsr 0 csrRotBase 0x10_0120_0000).drawn.trap 0 0x0D 0x0011 0x123_4560 :=
  walkProbe_either (p := fun u => u = (walking.setCsr 0 csrRotBase 0x10_0120_0000).drawn.trap 0 0x0D 0x0011 0x123_4560) (by decide +kernel)

end Sys2Proof.Tests
end

section
/-! The start state (phase, slots tried, firmware) under the operations that come before the boot pointer is read, and the boot pointer
in use (R50). -/

namespace Sys2Proof.Machine

variable (s : State)

/-! ### Operations that leave the start state alone -/

@[simp] theorem State.raise_start (f : Fld) : (s.raise f).start = s.start := rfl
@[simp] theorem State.lower_start (f : Fld) : (s.lower f).start = s.start := rfl
@[simp] theorem State.setTime_start (t : Nat) : (s.setTime t).start = s.start := rfl
@[simp] theorem State.showFacts_start : s.showFacts.start = s.start := rfl
@[simp] theorem State.audit_start (event arg0 arg1 : Nat) (data : List Byte) : (s.audit event arg0 arg1 data).start = s.start := rfl
@[simp] theorem State.otpCopy_start (k : Nat) : (s.otpCopy k).start = s.start := rfl

theorem State.each_start {α : Type} (l : List α) (f : State → α → State) (hf : ∀ t a, (f t a).start = t.start) :
    (s.each l f).start = s.start := by
  unfold State.each
  induction l generalizing s with
  | nil => rfl
  | cons a l ih => exact (ih (f s a)).trans (hf s a)

@[simp] theorem State.otpUnclean_start (k : Nat) : (s.otpUnclean k).start = s.start := by
  unfold State.otpUnclean
  split <;> rfl

@[simp] theorem State.spareStart_start : s.spareStart.start = s.start := by
  unfold State.spareStart
  split <;> rfl

@[simp] theorem State.changeStands_start (c : Change) : (s.changeStands c).start = s.start := by
  unfold State.changeStands
  extract_lets ended copied
  have hcopied : copied.start = s.start := by
    unfold copied
    split
    · split <;> rfl
    · rfl
  split
  · exact hcopied
  · split
    · rw [State.set_start, State.modSec_start, State.modSec_start, hcopied]
    · rw [State.set_start, State.raise_start, State.modSec_start, State.modSec_start, hcopied]

@[simp] theorem State.lcApply_start : s.lcApply.start = s.start := by
  have copied (t : State) : (t.each [0, 1] State.otpCopy).start = t.start := t.each_start _ _ State.otpCopy_start
  unfold State.lcApply
  split
  · rfl
  · extract_lets t u
    have hu : u.start = s.start := copied _
    split
    · rw [State.lower_start, State.lower_start, State.lower_start, State.lower_start, State.modSec_start, hu]
    · exact hu

@[simp] theorem State.lcResume_start : s.lcResume.start = s.start := by
  simp only [State.lcResume, State.lcApply_start]
  have reconciled (t : State) (l : List Nat) :
      (t.each l fun t k => (t.audit 0x00F1 k (t.get (otpCounter k))).otpCopy k).start = t.start := t.each_start l _ fun _ _ => rfl
  have margins : (s.each s.sec.margin State.otpUnclean).start = s.start := s.each_start _ _ State.otpUnclean_start
  split
  · simp only [reconciled, State.modSec_start, margins]
  · split <;> simp only [State.changeStands_start, State.modSec_start, State.audit_start, reconciled, margins]

/-! ### Operations that leave the flash alone -/

@[simp] theorem State.setTime_flash (t : Nat) : (s.setTime t).flash = s.flash := rfl
@[simp] theorem State.showFacts_flash : s.showFacts.flash = s.flash := rfl

@[simp] theorem State.spareStart_flash : s.spareStart.flash = s.flash :=
  (State.spareStart_kept (Kept.refl s : Kept True True True True True True True s s)).flash trivial

@[simp] theorem State.lcResume_flash : s.lcResume.flash = s.flash :=
  (State.lcResume_kept (Kept.refl s : Kept True True True True True True True s s)).flash trivial

/-! ### The boot pointer in use -/

variable {s} {q0 l0 q1 l1 : Nat}

theorem State.readBootPtr_of_both (h0 : s.bootPtr 0 = some (q0, l0)) (h1 : s.bootPtr 1 = some (q1, l1)) :
    s.readBootPtr = s.modStart fun x => { x with
      bpCopy := some (if q0 < q1 then 1 else 0), named := if q0 < q1 then l1 else l0, slot := if q0 < q1 then l1 else l0 } := by
  simp only [State.readBootPtr, h0, h1]
  split <;> rfl

theorem State.readBootPtr_of_copy0 (h0 : s.bootPtr 0 = some (q0, l0)) (h1 : s.bootPtr 1 = none) :
    s.readBootPtr = s.modStart fun x => { x with bpCopy := some 0, named := l0, slot := l0 } := by
  simp only [State.readBootPtr, h0, h1]

theorem State.readBootPtr_of_copy1 (h0 : s.bootPtr 0 = none) (h1 : s.bootPtr 1 = some (q1, l1)) :
    s.readBootPtr = s.modStart fun x => { x with bpCopy := some 1, named := l1, slot := l1 } := by
  simp only [State.readBootPtr, h0, h1]

theorem State.readBootPtr_of_none (h0 : s.bootPtr 0 = none) (h1 : s.bootPtr 1 = none) :
    s.readBootPtr = (s.modStart fun x => { x with bpCopy := none, named := 0, slot := 0 }).raise Fd.CFG_STAT.BP_INVALID := by
  simp only [State.readBootPtr, h0, h1]

/-! ### The slot tried after one that fails -/

@[simp] theorem State.unload_start : s.unload.start = { s.start with plain := [] } := by
  have reset (t : State) (l : Table Word) : (t.each l fun t e => t.setReg e.1 e.2.toNat).start = t.start :=
    t.each_start l _ fun _ _ => rfl
  simp only [State.unload, State.modStart_start, reset]

/-- R66: while the other slot has not been tried, a failing slot is followed by it, read from step 1. -/
theorem State.slotFails_start_of_untried (h : (1 - s.start.slot) ∉ s.start.tried) (f : SlotFail) :
    (s.slotFails f).start = { s.start with
      plain := [], phase := .reading, slot := 1 - s.start.slot, tried := s.start.slot :: s.start.tried
      readOff := 0, readFails := 0, badReads := [] } := by
  unfold State.slotFails
  extract_lets slot recorded cleared
  have hrecorded : recorded.start = s.start := by
    unfold recorded
    split <;> rw [State.set_start, State.set_start]
  have hcleared : cleared.start = { s.start with plain := [] } := by
    rw [State.unload_start, State.audit_start, hrecorded]
  have huntried : ¬cleared.start.tried.contains (1 - slot) = true := by
    rw [hcleared, List.contains_iff_mem]
    exact h
  rw [if_neg huntried, State.modStart_start, hcleared]

/-! ### The release of the main side -/

/-- R50, R65: firmware other than the recovery firmware ends the release by reading the boot pointer, with the flash as it was. -/
theorem State.releaseMain_reads_boot_pointer (h : s.start.recovery = false) :
    ∃ u : State, s.releaseMain = u.readBootPtr ∧ u.flash = s.flash := by
  simp only [State.releaseMain]
  rw [if_neg (by simp [h])]
  exact ⟨_, rfl, by simp [State.setPhase]⟩

theorem exec_mainSideRelease (hp : s.start.phase = .romDone) (hr : s.power.rstHeld = []) :
    exec .mainSideRelease s = .next s.releaseMain := by
  show done s.mainRelease = _
  simp [done, State.mainRelease, State.phase, hp, hr]

/-- Settles O31: one equation of the read per pair of copies; the fallback to slot B is R66's, the release reads the flash as it is. -/
theorem bootPointerInUse : Obligations.BootPointerInUse := by
  unfold Obligations.BootPointerInUse
  refine ⟨fun s q0 l0 q1 l1 h0 h1 => ?both, fun s q l h0 h1 => ?copy0, fun s q l h0 h1 => ?copy1, fun s h0 h1 => ?none,
    fun s hp hr hf => ?release⟩
  case both => simp [State.readBootPtr_of_both h0 h1]
  case copy0 => simp [State.readBootPtr_of_copy0 h0 h1]
  case copy1 => simp [State.readBootPtr_of_copy1 h0 h1]
  case none =>
    rw [State.readBootPtr_of_none h0 h1]
    refine ⟨rfl, State.get_set _ Fd.CFG_STAT.BP_INVALID 1 (by decide) (by decide), rfl, fun ht f => ?_⟩
    rw [State.slotFails_start_of_untried ht f]
    exact ⟨rfl, rfl⟩
  case release =>
    obtain ⟨u, hu, hflash⟩ := State.releaseMain_reads_boot_pointer hf
    exact ⟨u, by rw [exec_mainSideRelease hp hr, hu], hflash⟩

end Sys2Proof.Machine
end

section
/-! Interrupts that are deliverable (R350) and offered (R413, R414): the Interrupt Router offers a source to an eligible core only, so no
interrupt is taken by a core to which none is deliverable. -/

namespace Sys2Proof.Machine

/-! ### Members of a sorted list -/

@[simp] theorem mem_insertBy {α : Type} {key : α → Nat} {a b : α} {l : List α} : b ∈ insertBy key a l ↔ b = a ∨ b ∈ l := by
  induction l with
  | nil => simp [insertBy]
  | cons c l ih =>
    unfold insertBy
    split
    · exact List.mem_cons
    · rw [List.mem_cons, ih, List.mem_cons, or_left_comm]

theorem mem_of_mem_isort {α : Type} {key : α → Nat} {b : α} {l : List α} (h : b ∈ isort key l) : b ∈ l := by
  have inserted : ∀ a ∈ isort key l, a ∈ l :=
    List.foldlRecOn (motive := fun acc => ∀ a ∈ acc, a ∈ l) l _ (by simp)
      fun acc hacc a ha b hb => (mem_insertBy.mp hb).elim (fun e => e ▸ ha) (hacc b)
  exact inserted b h

/-! ### Deliverable interrupts and offers -/

variable {s : State} {c src : Nat}

theorem bitOf_zero_iff_bits (v : Nat) : bitOf v 0 = true ↔ bits v 0 0 = 1 := by simp [bitOf, bits]

/-- R350, as the model tests it. -/
theorem State.intDeliverable_iff : s.intDeliverable c = true ↔ s.runs c = true ∧
    (levelNo (s.level c) < levelNo (s.intLevel c) ∨
      (s.level c = s.intLevel c ∧ bits (s.csr c (hStatus (s.intLevel c))) 0 0 = 1)) := by
  simp [State.intDeliverable, bitOf_zero_iff_bits]

theorem State.intDeliverable_of_eligible (h : s.eligible src c = true) : s.intDeliverable c = true := by
  unfold State.eligible at h
  exact (Bool.and_eq_true_iff.mp h).2

theorem State.eligible_of_choose {taken : List (Nat × Nat)} (h : s.choose taken src = some c) : s.eligible src c = true := by
  obtain ⟨-, hc⟩ := List.mem_filter.mp (mem_of_mem_isort (List.mem_of_mem_head? h))
  exact (Bool.and_eq_true_iff.mp hc).1

/-- R414: every offer, of the pair (core, source), goes to a core that is eligible for the source. -/
theorem State.eligible_of_mem_offers {e : Nat × Nat} (h : e ∈ s.offers) : s.eligible e.2 e.1 = true := by
  unfold State.offers at h
  have hacc : ∀ o ∈ ([] : List (Nat × Nat)), s.eligible o.2 o.1 = true := List.forall_mem_nil _
  generalize s.candidates = srcs, ([] : List (Nat × Nat)) = acc at h hacc
  induction srcs generalizing acc with
  | nil => exact hacc e h
  | cons src srcs ih =>
    rw [List.foldl_cons] at h
    refine ih _ h ?_
    split
    next c hc => exact List.forall_mem_cons.mpr ⟨State.eligible_of_choose hc, hacc⟩
    next => exact hacc

theorem State.mem_offers_of_offerOf (h : s.offerOf c = some src) : (c, src) ∈ s.offers := by
  obtain ⟨e, he, rfl⟩ := Option.map_eq_some_iff.mp h
  have hcore : e.1 = c := by simpa using List.find?_some he
  exact hcore ▸ List.mem_of_find?_eq_some he

theorem State.intDeliverable_of_offerOf (h : s.offerOf c = some src) : s.intDeliverable c = true :=
  State.intDeliverable_of_eligible (State.eligible_of_mem_offers (State.mem_offers_of_offerOf h))

/-! ### An interrupt that waits -/

theorem exec_interruptTaken (c : CoreId) (s : State) : exec (.interruptTaken c) s = .next (s.interrupt c.val) := rfl

theorem State.interrupt_of_not_deliverable (h : ¬s.intDeliverable c = true) : s.interrupt c = s := by
  have none_offered : s.offerOf c = none :=
    Option.eq_none_iff_forall_ne_some.mpr fun _ ho => h (State.intDeliverable_of_offerOf ho)
  simp only [State.interrupt, none_offered, ite_self]

/-- R350: above the handler level, or at it with IE 0, no interrupt is deliverable. -/
theorem State.not_intDeliverable_of_above_or_disabled (h : levelNo (s.intLevel c) < levelNo (s.level c) ∨
    (s.level c = s.intLevel c ∧ bits (s.csr c (hStatus (s.intLevel c))) 0 0 = 0)) : ¬s.intDeliverable c = true := by
  intro hd
  obtain ⟨-, hd⟩ := State.intDeliverable_iff.mp hd
  obtain habove | ⟨hat, hdisabled⟩ := h
  · obtain hbelow | ⟨hat, -⟩ := hd
    · exact Nat.lt_asymm hbelow habove
    · rw [hat] at habove
      exact Nat.lt_irrefl _ habove
  · obtain hbelow | ⟨-, henabled⟩ := hd
    · rw [hat] at hbelow
      exact Nat.lt_irrefl _ hbelow
    · omega

/-- Settles O59: an offer goes to an eligible core only, for which R350 is one of the tests. -/
theorem deliverableInterrupts : Obligations.DeliverableInterrupts := by
  unfold Obligations.DeliverableInterrupts
  intro s c
  refine ⟨State.intDeliverable_iff, fun src => State.intDeliverable_of_offerOf, fun h => ?waits⟩
  case waits => rw [exec_interruptTaken, State.interrupt_of_not_deliverable (State.not_intDeliverable_of_above_or_disabled h)]

end Sys2Proof.Machine
end

section
/-! Edge sources (R407): what a PULSE, an OP that the source does not take and an end of interrupt do to `IRQ_SRC_CFGs`, and which
sources the Interrupt Router has to offer (R414). -/

namespace Sys2Proof.Machine

/-! ### Members of a sorted list, listed keys -/

theorem mem_isort {α : Type} {key : α → Nat} {b : α} {l : List α} : b ∈ isort key l ↔ b ∈ l := by
  have inserted (acc : List α) : b ∈ l.foldl (fun acc a => insertBy key a acc) acc ↔ b ∈ l ∨ b ∈ acc := by
    induction l generalizing acc with
    | nil => simp
    | cons a l ih => rw [List.foldl_cons, ih, mem_insertBy, List.mem_cons, or_left_comm, or_assoc]
  simpa [isort] using inserted []

theorem mem_of_mapGet?_eq_some {α : Type} {m : List (Nat × α)} {i : Nat} {x : α} (h : mapGet? m i = some x) : (i, x) ∈ m := by
  induction m with
  | nil => cases h
  | cons e m ih =>
    obtain ⟨k, v⟩ := e
    unfold mapGet? at h
    split at h
    next hk =>
      obtain rfl : k = i := by simpa using hk
      obtain rfl : v = x := by simpa using h
      exact List.mem_cons_self
    next => exact List.mem_cons_of_mem _ (ih h)

theorem mapKeys_bounds {α : Type} {m : List (Nat × α)} {lo hi i : Nat} (h : i ∈ mapKeys m lo hi) : lo ≤ i ∧ i < hi := by
  simp only [mapKeys, List.mem_map, List.mem_filter, Bool.and_eq_true, decide_eq_true_eq] at h
  obtain ⟨e, ⟨-, hbounds⟩, rfl⟩ := h
  exact hbounds

variable {s : State} {w : Writer} {src op : Nat}

theorem State.mem_mapKeys_of_reg_ne_zero {lo hi i : Nat} (h : s.reg i ≠ 0) (hlo : lo ≤ i) (hhi : i < hi) : i ∈ mapKeys s.regs lo hi := by
  cases hx : mapGet? s.regs i with
  | none => exact absurd (by simp [State.reg, mapGet, hx]) h
  | some x => exact List.mem_map_of_mem (List.mem_filter.mpr ⟨mem_of_mapGet?_eq_some hx, by simp [hlo, hhi]⟩)

theorem State.reg_ne_zero_of_get_ne_zero {f : Fld} (h : s.get f ≠ 0) : s.reg f.off ≠ 0 := by
  intro h0
  simp [State.get, h0, bits] at h

/-! ### Sources to be offered -/

/-- R414: the sources to be offered are those that are pending, enabled and not active. -/
theorem State.mem_candidates : src ∈ s.candidates ↔ src < 4096 ∧
    s.get (Fd.IRQ_SRC_CFG.PENDING src) ≠ 0 ∧ s.get (Fd.IRQ_SRC_CFG.EN src) ≠ 0 ∧ s.get (Fd.IRQ_SRC_CFG.ACTIVE src) = 0 := by
  have hoff : Rg.IRQ_SRC_CFG src = Rg.IRQ_SRC_CFG 0 + 4 * src := by simp [Rg.IRQ_SRC_CFG]
  have listed (hp : s.get (Fd.IRQ_SRC_CFG.PENDING src) ≠ 0) : (∃ off ∈ mapKeys s.regs (Rg.IRQ_SRC_CFG 0) (Rg.IRQ_SRC_CFG 0 + 0x4000),
      off % 4 = 0 ∧ (off - Rg.IRQ_SRC_CFG 0) / 4 = src) ↔ src < 4096 := by
    constructor
    · rintro ⟨off, hkey, -, rfl⟩
      have := mapKeys_bounds hkey
      omega
    · intro hsrc
      have hkey := State.mem_mapKeys_of_reg_ne_zero (State.reg_ne_zero_of_get_ne_zero hp)
        (lo := Rg.IRQ_SRC_CFG 0) (hi := Rg.IRQ_SRC_CFG 0 + 0x4000) (i := Rg.IRQ_SRC_CFG src) (by omega) (by omega)
      exact ⟨_, hkey, by unfold Rg.IRQ_SRC_CFG; omega, by omega⟩
  by_cases hp : s.get (Fd.IRQ_SRC_CFG.PENDING src) = 0
  · simp [State.candidates, mem_isort, State.on, hp]
  · simp [State.candidates, mem_isort, State.on, hp, ← listed hp, and_assoc]

/-! ### The fields of a source under a PULSE and an end of interrupt -/

theorem State.get_pending_of_pend : (s.set (Fd.IRQ_SRC_CFG.PENDING src) 1).get (Fd.IRQ_SRC_CFG.PENDING src) = 1 :=
  s.get_set (Fd.IRQ_SRC_CFG.PENDING src) 1 (of_decide_eq_true rfl) (of_decide_eq_true rfl)

theorem State.get_level_of_pend (v : Nat) :
    (s.set (Fd.IRQ_SRC_CFG.PENDING src) v).get (Fd.IRQ_SRC_CFG.LEVEL src) = s.get (Fd.IRQ_SRC_CFG.LEVEL src) :=
  s.get_set_below v rfl (of_decide_eq_true rfl) (of_decide_eq_true rfl) (of_decide_eq_true rfl) (of_decide_eq_true rfl)

theorem State.get_en_of_pend (v : Nat) :
    (s.set (Fd.IRQ_SRC_CFG.PENDING src) v).get (Fd.IRQ_SRC_CFG.EN src) = s.get (Fd.IRQ_SRC_CFG.EN src) :=
  s.get_set_below v rfl (of_decide_eq_true rfl) (of_decide_eq_true rfl) (of_decide_eq_true rfl) (of_decide_eq_true rfl)

theorem State.get_active_of_pend (v : Nat) :
    (s.set (Fd.IRQ_SRC_CFG.PENDING src) v).get (Fd.IRQ_SRC_CFG.ACTIVE src) = s.get (Fd.IRQ_SRC_CFG.ACTIVE src) :=
  s.get_set_above v rfl (of_decide_eq_true rfl) (of_decide_eq_true rfl) (of_decide_eq_true rfl)

/-- R408, R419: an edge source has no level to sample again when it ceases to be ACTIVE. -/
theorem State.endActive_of_edge (h : s.get (Fd.IRQ_SRC_CFG.LEVEL src) = 0) : s.endActive src = s.set (Fd.IRQ_SRC_CFG.ACTIVE src) 0 := by
  simp [State.endActive, State.setIf, State.on, State.lower, h]

/-- R414, R419: an edge source that is pended and enabled is to be offered once it has ceased to be ACTIVE. -/
theorem State.mem_candidates_endActive_of_edge (hsrc : src < 4096) (hl : s.get (Fd.IRQ_SRC_CFG.LEVEL src) = 0)
    (hp : s.get (Fd.IRQ_SRC_CFG.PENDING src) ≠ 0) (he : s.get (Fd.IRQ_SRC_CFG.EN src) ≠ 0) : src ∈ (s.endActive src).candidates := by
  have below {f : Fld} (ho : Rg.IRQ_SRC_CFG src = f.off) (hf : f.hi < 18) (hlo : f.lo ≤ f.hi + 1) :
      (s.set (Fd.IRQ_SRC_CFG.ACTIVE src) 0).get f = s.get f :=
    s.get_set_below 0 ho (of_decide_eq_true rfl) (of_decide_eq_true rfl) hf hlo
  rw [State.endActive_of_edge hl, State.mem_candidates]
  refine ⟨hsrc, ?pending, ?enabled, ?active⟩
  case pending => rwa [below rfl (of_decide_eq_true rfl) (of_decide_eq_true rfl)]
  case enabled => rwa [below rfl (of_decide_eq_true rfl) (of_decide_eq_true rfl)]
  case active => exact s.get_set (Fd.IRQ_SRC_CFG.ACTIVE src) 0 (of_decide_eq_true rfl) (of_decide_eq_true rfl)

/-! ### Doorbell writes to an edge source -/

/-- R407: an edge source takes a PULSE and no other OP. -/
theorem State.opFits_of_edge (h : s.get (Fd.IRQ_SRC_CFG.LEVEL src) = 0) : s.opFits src op = (op == 0) := by
  simp [State.opFits, State.on, h]

theorem State.dropReason_of_edge_of_ne_pulse (h : s.get (Fd.IRQ_SRC_CFG.LEVEL src) = 0) (hop : op ≠ 0) :
    ∃ why, s.dropReason w src op = some why := by
  unfold State.dropReason
  split
  · exact ⟨0, rfl⟩
  · exact ⟨1, by simp [State.opFits_of_edge h, hop]⟩

theorem State.ring_pulse_of_edge (h : s.get (Fd.IRQ_SRC_CFG.LEVEL src) = 0) (hw : s.maySignal w src 0 = true) :
    s.ring w src 0 = s.set (Fd.IRQ_SRC_CFG.PENDING src) 1 := by
  have admitted : s.dropReason w src 0 = none := by simp [State.dropReason, hw, State.opFits_of_edge h]
  simp [State.ring, admitted, State.signalSource, State.raise]

/-! ### Dropped doorbell writes -/

/-- R406: the record of a drop stands in registers of its own, below those of the sources. -/
theorem State.get_recordDrop {f : Fld} (h : Rg.IRQ_DROP_LAST < f.off) (why : Nat) : (s.recordDrop w src op why).get f = s.get f := by
  have hcount : Rg.IRQ_DROP_CNT ≠ f.off := by simp only [Rg.IRQ_DROP_CNT, Rg.IRQ_DROP_LAST] at h ⊢; omega
  have hstat : Rg.IRQ_STAT ≠ f.off := by simp only [Rg.IRQ_STAT, Rg.IRQ_DROP_LAST] at h ⊢; omega
  unfold State.recordDrop State.raise State.inc State.count
  extract_lets grove
  calc
    _ = State.get (State.setReg _ Rg.IRQ_DROP_LAST _) f := State.get_set_ne _ 1 hstat
    _ = State.get (State.set _ Fd.IRQ_DROP_CNT.COUNT _) f := by unfold State.get; rw [State.reg_setReg_ne _ _ (Nat.ne_of_lt h)]
    _ = s.get f := State.get_set_ne _ _ hcount

/-- R406: a dropped doorbell write does not pend its source; the doorbell that it brings about is one to another source. -/
theorem State.get_pending_ring_of_dropReason {why : Nat} (h : s.dropReason w src op = some why) :
    (s.ring w src op).get (Fd.IRQ_SRC_CFG.PENDING src) = s.get (Fd.IRQ_SRC_CFG.PENDING src) := by
  have recorded (t : State) (w : Writer) (i op why : Nat) :
      (t.recordDrop w i op why).get (Fd.IRQ_SRC_CFG.PENDING src) = t.get (Fd.IRQ_SRC_CFG.PENDING src) :=
    State.get_recordDrop (Nat.lt_of_lt_of_le (of_decide_eq_true rfl : _ < Rg.IRQ_SRC_CFG 0) (Nat.le_add_right _ _)) why
  unfold State.ring
  split
  · rfl
  · rw [h]
    dsimp only
    split
    · exact recorded ..
    next hother =>
      split
      · have hne : (s.recordDrop w src op why).get Fd.IRQ_CTL.DROP_SRC ≠ src := fun e => hother (by simp [e])
        exact (State.get_set_ne _ 1 (by simp only [Fd.IRQ_SRC_CFG.PENDING, Rg.IRQ_SRC_CFG]; omega)).trans (recorded ..)
      · exact (recorded ..).trans (recorded ..)

/-- Settles O60: an OP other than PULSE is dropped; a PULSE sets PENDING alone, and the end of interrupt clears ACTIVE alone. -/
theorem edgeSources : Obligations.EdgeSources := by
  unfold Obligations.EdgeSources
  intro s w src hsrc hedge
  refine ⟨fun op hop => ?dropped, fun hw => ?pulse⟩
  case dropped =>
    obtain ⟨why, hwhy⟩ := State.dropReason_of_edge_of_ne_pulse (w := w) hedge hop
    exact State.get_pending_ring_of_dropReason hwhy
  case pulse =>
    intro t
    have ht : t = s.set (Fd.IRQ_SRC_CFG.PENDING src) 1 := State.ring_pulse_of_edge hedge hw
    have hpending : t.get (Fd.IRQ_SRC_CFG.PENDING src) = 1 := ht ▸ State.get_pending_of_pend
    refine ⟨ht, hpending, fun hen => ?offered_after_end, fun hactive hmem => ?not_while_active⟩
    case offered_after_end =>
      refine State.mem_candidates_endActive_of_edge hsrc ?_ (by simp [hpending]) ?_
      · rwa [ht, State.get_level_of_pend]
      · rwa [ht, State.get_en_of_pend]
    case not_while_active =>
      obtain ⟨-, -, -, hinactive⟩ := State.mem_candidates.mp hmem
      rw [ht, State.get_active_of_pend] at hinactive
      exact hactive hinactive

end Sys2Proof.Machine
end

section
/-! Every command answers a next state, keeps the canonical forms, and leaves alone the units it is not named for: one case per row of
the dispatch, each by what its operation keeps (`Kept`). -/

namespace Sys2Proof.Machine

/-! ### Facts that the core library lacks -/

theorem ite_of_iff {α : Type} {P Q : Prop} [Decidable P] [Decidable Q] {x y u v : α} (h : P ↔ Q) (hx : x = u) (hy : y = v) :
    (if P then x else y) = if Q then u else v :=
  ite_congr (propext h) (fun _ => hx) (fun _ => hy)

theorem foldl_congr_of_mem {α β : Type} {f g : β → α → β} {l : List α} (h : ∀ (b : β), ∀ a ∈ l, f b a = g b a) (b : β) :
    l.foldl f b = l.foldl g b := by
  induction l generalizing b with
  | nil => rfl
  | cons a l ih =>
    rw [List.foldl_cons, List.foldl_cons, h b a List.mem_cons_self]
    exact ih (fun b x hx => h b x (List.mem_cons_of_mem _ hx)) _

/-! ### The frame of every command -/

/-- What the frame claims of a part of the state that a command may change or not: nothing, or all. -/
abbrev Spared (may : Bool) : Prop := cond may False True

theorem spared_of_eq_false {may : Bool} (h : may = false) : Spared may := by
  subst h
  trivial

/-- The frame of every command over the parts of the state that the obligations follow. -/
theorem exec_kept (c : Instr) (s : State) : ∃ t, exec c s = .next t ∧
    Kept (Spared (mayStore c)) (Spared (mayFlash c)) (Spared (mayMeter c)) (Spared (mayLoop c)) (Spared (mayField c))
      (Spared (mayCascade c)) (Spared (mayGroves c)) s t := by
  cases c with
  | registerWrite _ _ _ _ => exact ⟨_, rfl, State.busWrite_kept (.refl s) ..⟩
  | lowWordRead _ _ => exact ⟨_, rfl, State.busRead_kept (.refl s) ..⟩
  | highWordRead _ _ => exact ⟨_, rfl, State.busRead_kept (.refl s) ..⟩
  | lowWordWrite _ _ _ => exact ⟨_, rfl, State.busWrite_kept (.refl s) ..⟩
  | highWordWrite _ _ _ => exact ⟨_, rfl, State.busWrite_kept (.refl s) ..⟩
  | transactionComplete _ => exact ⟨_, rfl, State.transEnd_kept (.refl s) ..⟩
  | powerGood => exact ⟨_, rfl, State.powerGood_kept (.refl s) ..⟩
  | romSelfTestComplete => exact ⟨_, rfl, State.romComplete_kept (.refl s) ..⟩
  | mainSideRelease => exact ⟨_, rfl, State.mainRelease_kept (.refl s) ..⟩
  | flashReadComplete _ _ => exact ⟨_, rfl, State.flashRead_kept (.refl s) ..⟩
  | wipeComplete => exact ⟨_, rfl, State.wipeComplete_kept (.refl s) ..⟩
  | slotReadComplete => exact ⟨_, rfl, State.slotRead_kept (.refl s) ..⟩
  | semanticChecksComplete => exact ⟨_, rfl, State.semanticChecks_kept (.refl s) ..⟩
  | sectionsLoaded => exact ⟨_, rfl, State.sectionsLoaded_kept (.refl s) ..⟩
  | admissionCheckComplete => exact ⟨_, rfl, State.admissionChecked_kept (.refl s) ..⟩
  | bootPointerWrite => exact ⟨_, rfl, State.bootPointerDue_kept (.refl s) ..⟩
  | stagingComplete => exact ⟨_, rfl, State.stagingEnds_kept (.refl s) ..⟩
  | tick => exact ⟨_, rfl, State.tick_kept (.refl s) ..⟩
  | sweepEnd => exact ⟨_, rfl, State.sweepEnd_kept (.refl s) ..⟩
  | budgetExpiry _ => exact ⟨_, rfl, State.budgetExpiry_kept (.refl s) ..⟩
  | stagingEnd _ => exact ⟨_, rfl, State.stagingEnd_kept (.refl s) ..⟩
  | commitDeadline => exact ⟨_, rfl, State.deadlineDecide_kept (.refl s) ..⟩
  | templateRelease _ => exact ⟨_, rfl, State.templateRelease_kept (.refl s) ..⟩
  | release _ _ => exact ⟨_, rfl, State.regWriteAt_kept (.refl s) _ _ _ _ fun _ h => State.releaseArm_kept h ..⟩
  | forceFs _ _ => exact ⟨_, rfl, State.regWriteAt_kept (.refl s) _ _ _ _ fun _ h => State.forceFs_kept h ..⟩
  | snap _ => exact ⟨_, rfl, State.regWriteAt_kept (.refl s) _ _ _ _ fun _ h => State.frameSnap_kept h ..⟩
  | ovrCntClr _ => exact ⟨_, rfl, State.regWriteAt_kept (.refl s) _ _ _ _ fun _ h => State.ovrCntClr_kept h ..⟩
  | statsClr _ => exact ⟨_, rfl, State.regWriteAt_kept (.refl s) _ _ _ _ fun _ h => State.statsClr_kept h ..⟩
  | gatherWrite _ _ => exact ⟨_, rfl, State.gather_kept (.refl s) ..⟩
  | valueWrite _ _ _ _ => exact ⟨_, rfl, State.tagRow_kept (.refl s) ..⟩
  | qualityWrite _ _ _ => exact ⟨_, rfl, State.tagRow_kept (.refl s) ..⟩
  | tuningWrite _ _ _ _ _ => exact ⟨_, rfl, State.tagRow_kept (.refl s) ..⟩
  | configurationWrite _ _ _ _ _ => exact ⟨_, rfl, State.tagRow_kept (.refl s) ..⟩
  | alarmEntryDrain => exact ⟨_, rfl, State.alarmDrain_kept (.refl s) ..⟩
  | aqTailWrite _ _ _ => exact ⟨_, rfl, State.regWriteAt_kept (.refl s) _ _ _ _ fun _ h => State.aqTail_kept h ..⟩
  | aqEnable _ _ _ => exact ⟨_, rfl, State.regWriteAt_kept (.refl s) _ _ _ _ fun _ h => State.aqConfig_kept h ..⟩
  | aqLossClear _ _ => exact ⟨_, rfl, State.regWriteAt_kept (.refl s) _ _ _ _ fun _ h => State.aqStat_kept h ..⟩
  | seCntClr _ => exact ⟨_, rfl, State.regWriteAt_kept (.refl s) _ _ _ _ fun _ h => State.seCntClr_kept h ..⟩
  | pidIsa _ => exact ⟨_, rfl, State.block_kept (.refl s) ..⟩
  | pidPar _ => exact ⟨_, rfl, State.block_kept (.refl s) ..⟩
  | pidVel _ => exact ⟨_, rfl, State.block_kept (.refl s) ..⟩
  | pidExt _ => exact ⟨_, rfl, State.block_kept (.refl s) ..⟩
  | piGap _ => exact ⟨_, rfl, State.block_kept (.refl s) ..⟩
  | onoff _ => exact ⟨_, rfl, State.block_kept (.refl s) ..⟩
  | leadlag _ => exact ⟨_, rfl, State.block_kept (.refl s) ..⟩
  | lag1 _ => exact ⟨_, rfl, State.block_kept (.refl s) ..⟩
  | lag2 _ => exact ⟨_, rfl, State.block_kept (.refl s) ..⟩
  | deadtime _ => exact ⟨_, rfl, State.block_kept (.refl s) ..⟩
  | mavg _ => exact ⟨_, rfl, State.block_kept (.refl s) ..⟩
  | deriv _ => exact ⟨_, rfl, State.block_kept (.refl s) ..⟩
  | integ _ => exact ⟨_, rfl, State.block_kept (.refl s) ..⟩
  | total _ => exact ⟨_, rfl, State.block_kept (.refl s) ..⟩
  | ramp _ => exact ⟨_, rfl, State.block_kept (.refl s) ..⟩
  | ratelim _ => exact ⟨_, rfl, State.block_kept (.refl s) ..⟩
  | limit _ => exact ⟨_, rfl, State.block_kept (.refl s) ..⟩
  | char _ => exact ⟨_, rfl, State.block_kept (.refl s) ..⟩
  | linear _ => exact ⟨_, rfl, State.block_kept (.refl s) ..⟩
  | split _ => exact ⟨_, rfl, State.block_kept (.refl s) ..⟩
  | selhi _ => exact ⟨_, rfl, State.block_kept (.refl s) ..⟩
  | sello _ => exact ⟨_, rfl, State.block_kept (.refl s) ..⟩
  | selmid _ => exact ⟨_, rfl, State.block_kept (.refl s) ..⟩
  | selsw _ => exact ⟨_, rfl, State.block_kept (.refl s) ..⟩
  | selavg _ => exact ⟨_, rfl, State.block_kept (.refl s) ..⟩
  | add _ => exact ⟨_, rfl, State.block_kept (.refl s) ..⟩
  | mul _ => exact ⟨_, rfl, State.block_kept (.refl s) ..⟩
  | div _ => exact ⟨_, rfl, State.block_kept (.refl s) ..⟩
  | sqrt _ => exact ⟨_, rfl, State.block_kept (.refl s) ..⟩
  | abs _ => exact ⟨_, rfl, State.block_kept (.refl s) ..⟩
  | and _ => exact ⟨_, rfl, State.block_kept (.refl s) ..⟩
  | or _ => exact ⟨_, rfl, State.block_kept (.refl s) ..⟩
  | xor _ => exact ⟨_, rfl, State.block_kept (.refl s) ..⟩
  | not _ => exact ⟨_, rfl, State.block_kept (.refl s) ..⟩
  | cmp _ => exact ⟨_, rfl, State.block_kept (.refl s) ..⟩
  | srff _ => exact ⟨_, rfl, State.block_kept (.refl s) ..⟩
  | edge _ => exact ⟨_, rfl, State.block_kept (.refl s) ..⟩
  | ton _ => exact ⟨_, rfl, State.block_kept (.refl s) ..⟩
  | tof _ => exact ⟨_, rfl, State.block_kept (.refl s) ..⟩
  | tpulse _ => exact ⟨_, rfl, State.block_kept (.refl s) ..⟩
  | ctu _ => exact ⟨_, rfl, State.block_kept (.refl s) ..⟩
  | move _ => exact ⟨_, rfl, State.block_kept (.refl s) ..⟩
  | sample _ => exact ⟨_, rfl, State.block_kept (.refl s) ..⟩
  | mansta _ => exact ⟨_, rfl, State.block_kept (.refl s) ..⟩
  | ratio _ => exact ⟨_, rfl, State.block_kept (.refl s) ..⟩
  | call _ => exact ⟨_, rfl, State.callBegin_kept (.refl s) ..⟩
  | poly3 _ => exact ⟨_, rfl, State.block_kept (.refl s) ..⟩
  | gascomp _ => exact ⟨_, rfl, State.block_kept (.refl s) ..⟩
  | barrierFlagSet _ => exact ⟨_, rfl, State.setFlag_kept (.refl s) ..⟩
  | callDone _ _ _ => exact ⟨_, rfl, State.regWriteAt_kept (.refl s) _ _ _ _ fun _ h => State.slotCheck_kept (State.callDone_kept h ..) ..⟩
  | callTimeout _ => exact ⟨_, rfl, State.callTimeout_kept (.refl s) ..⟩
  | callRetWrite _ _ _ => exact ⟨_, rfl, State.regWriteAt_kept (.refl s) _ _ _ _ fun _ h => State.callRet_kept h ..⟩
  | leTuningWrite _ _ _ _ => exact ⟨_, rfl, .ite (.refl s) (State.writeAt_kept (.refl s) _ _ _ _ fun _ h => State.leWrite_kept h ..)⟩
  | leCntClr _ => exact ⟨_, rfl, State.regWriteAt_kept (.refl s) _ _ _ _ fun _ h => State.leCntClr_kept h ..⟩
  | frameReceived _ _ => exact ⟨_, rfl, State.frameIn_kept (.refl s) ..⟩
  | cbHistoryReset _ => exact ⟨_, rfl, State.cbReset_kept (.refl s) ..⟩
  | gateEntryChange _ => exact ⟨_, rfl, State.gateChange_kept (.refl s) ..⟩
  | queueTransmit _ _ => exact ⟨_, rfl, State.queueTransmit_kept (.refl s) ..⟩
  | fieldLinkDown _ => exact ⟨_, rfl, State.fieldLinkDown_kept (.refl s) ..⟩
  | fieldLinkUp _ => exact ⟨_, rfl, State.fieldUp_kept (.refl s) ..⟩
  | syncReceived _ _ => exact ⟨_, rfl, State.syncReceived_kept (.refl s) ..⟩
  | syncTransmit _ => exact ⟨_, rfl, State.syncTransmit_kept (.refl s) ..⟩
  | announceTransmit _ => exact ⟨_, rfl, State.announceTransmit_kept (.refl s) ..⟩
  | pdelayReqTransmit _ => exact ⟨_, rfl, State.pdelayReq_kept (.refl s) ..⟩
  | pdelayReqReceived _ _ _ => exact ⟨_, rfl, State.pdelayAnswer_kept (.refl s) ..⟩
  | fieldPortTimeSourceLost => exact ⟨_, rfl, State.fieldTimeLost_kept (.refl s) ..⟩
  | fpCntClr _ => exact ⟨_, rfl, State.regWriteAt_kept (.refl s) _ _ _ _ fun _ h => State.fpCntClr_kept h ..⟩
  | blockLock _ => exact ⟨_, rfl, State.blockLock_kept (.refl s) ..⟩
  | keyDerivationComplete _ => exact ⟨_, rfl, State.keysDerived_kept (.refl s) ..⟩
  | bringupRetry _ => exact ⟨_, rfl, State.bringUpRetry_kept (.refl s) ..⟩
  | heldHelloTransmit _ => exact ⟨_, rfl, State.heldHello_kept (.refl s) ..⟩
  | hawserLinkDown _ => exact ⟨_, rfl, State.hawserDown_kept (.refl s) ..⟩
  | linkFrameReceived _ _ => exact ⟨_, rfl, State.linkReceive_kept (.refl s) ..⟩
  | linkFrameTransmit _ => exact ⟨_, rfl, State.linkTransmit_kept (.refl s) ..⟩
  | hello _ _ => exact ⟨_, rfl, State.helloIn_kept (.refl s) ..⟩
  | cert _ _ => exact ⟨_, rfl, State.chunkIn_kept (.refl s) ..⟩
  | keyx _ _ => exact ⟨_, rfl, State.chunkIn_kept (.refl s) ..⟩
  | confirm _ _ => exact ⟨_, rfl, State.confirmIn_kept (.refl s) ..⟩
  | diagReq _ _ => exact ⟨_, rfl, State.diagReqIn_kept (.refl s) ..⟩
  | diagRsp _ _ => exact ⟨_, rfl, State.diagRspIn_kept (.refl s) ..⟩
  | close _ => exact ⟨_, rfl, State.closeIn_kept (.refl s) ..⟩
  | dreqTransmit _ => exact ⟨_, rfl, State.dreqOut_kept (.refl s) ..⟩
  | dreq _ _ _ => exact ⟨_, rfl, State.dreqIn_kept (.refl s) ..⟩
  | drsp _ _ _ => exact ⟨_, rfl, State.drspIn_kept (.refl s) ..⟩
  | beat _ _ _ => exact ⟨_, rfl, State.beatIn_kept (.refl s) ..⟩
  | beatMiss => exact ⟨_, rfl, State.beatMiss_kept (.refl s) ..⟩
  | startupWaitExpiry => exact ⟨_, rfl, State.startupWait_kept (.refl s) ..⟩
  | taprootStartDelay => exact ⟨_, rfl, State.taprootStart_kept (.refl s) ..⟩
  | data _ => exact ⟨_, rfl, State.dataIn_kept (.refl s) ..⟩
  | mqTxheadWrite _ _ _ => exact ⟨_, rfl, State.regWriteAt_kept (.refl s) _ _ _ _ fun _ h => State.txHeadWrite_kept h ..⟩
  | messageIssue _ => exact ⟨_, rfl, State.msgIssue_kept (.refl s) ..⟩
  | req _ => exact ⟨_, rfl, State.unexpired_kept (.refl s) _ _ fun _ h => State.reqIn_kept h ..⟩
  | rsp _ => exact ⟨_, rfl, State.unexpired_kept (.refl s) _ _ fun _ h => State.rspTake_kept h ..⟩
  | messageExpiry _ => exact ⟨_, rfl, State.msgExpire_kept (.refl s) ..⟩
  | mqDoorbellHoldoffEnd _ => exact ⟨_, rfl, State.msgBellEnd_kept (.refl s) ..⟩
  | mqRxtailWrite _ _ _ => exact ⟨_, rfl, State.regWriteAt_kept (.refl s) _ _ _ _ fun _ h => State.rxTailWrite_kept h ..⟩
  | casCntClr _ => exact ⟨_, rfl, State.regWriteAt_kept (.refl s) _ _ _ _ fun _ h => State.casCntClr_kept h ..⟩
  | create _ _ => exact ⟨_, rfl, State.grvCmd_kept (.refl s) _ _ _ _ _ fun _ h => State.create_kept h ..⟩
  | start _ _ => exact ⟨_, rfl, State.grvCmd_kept (.refl s) _ _ _ _ _ fun _ h => State.askTick_kept h ..⟩
  | reset _ _ => exact ⟨_, rfl, State.grvCmd_kept (.refl s) _ _ _ _ _ fun _ h => State.drain_kept (State.cmdBegin_kept h _) ..⟩
  | destroy _ _ => exact ⟨_, rfl, State.grvCmd_kept (.refl s) _ _ _ _ _ fun _ h => State.drain_kept (State.cmdBegin_kept h _) ..⟩
  | freeze _ _ _ => exact ⟨_, rfl, State.grvCmd_kept (.refl s) _ _ _ _ _ fun _ h => State.freezeAccept_kept h ..⟩
  | thaw _ _ => exact ⟨_, rfl, State.grvCmd_kept (.refl s) _ _ _ _ _ fun _ h => State.askTick_kept h ..⟩
  | save _ _ _ => exact ⟨_, rfl, State.grvCmd_kept (.refl s) _ _ _ _ _ fun _ h => State.saveAccept_kept h ..⟩
  | restore _ _ => exact ⟨_, rfl, State.grvCmd_kept (.refl s) _ _ _ _ _ fun _ h => State.restore_kept h ..⟩
  | switch _ _ => exact ⟨_, rfl, State.grvCmd_kept (.refl s) _ _ _ _ _ fun _ h => State.switchAccept_kept h ..⟩
  | promote _ _ => exact ⟨_, rfl, State.grvCmd_kept (.refl s) _ _ _ _ _ fun _ h => State.askTick_kept h ..⟩
  | drainComplete _ => exact ⟨_, rfl, State.drainComplete_kept (.refl s) ..⟩
  | clearingComplete _ => exact ⟨_, rfl, State.clearingComplete_kept (.refl s) ..⟩
  | freezeComplete _ => exact ⟨_, rfl, State.freezeComplete_kept (.refl s) ..⟩
  | saveComplete _ _ => exact ⟨_, rfl, State.saveComplete_kept (.refl s) ..⟩
  | xfer _ => exact ⟨_, rfl, .ite (State.inc_kept (.refl s) _) (State.xferIn_kept (.refl s) ..)⟩
  | trackingApplyComplete _ => exact ⟨_, rfl, State.applyComplete_kept (.refl s) ..⟩
  | partnerLost _ => exact ⟨_, rfl, State.partnerLost_kept (.refl s) ..⟩
  | firewallEntryWrite _ _ _ _ => exact ⟨_, rfl, State.fwWrite_kept (.refl s) ..⟩
  | load _ _ f =>
    obtain ⟨fault, early⟩ := f
    cases early with
    | none => exact ⟨_, rfl, State.coreInsn_kept (.refl s) _ _ _ _ fun _ _ h => State.load_kept h ..⟩
    | some => exact ⟨_, rfl, State.earlyLoad_kept (.refl s) ..⟩
  | loadMissFill _ _ => exact ⟨_, rfl, State.missFill_kept (.refl s) ..⟩
  | store _ _ => exact ⟨_, rfl, State.coreInsn_kept (.refl s) _ _ _ _ fun _ _ h => State.storeInsn_kept h ..⟩
  | storeDrain _ _ => exact ⟨_, rfl, State.storeDrain_kept (.refl s) ..⟩
  | atomic _ _ _ => exact ⟨_, rfl, State.coreInsn_kept (.refl s) _ _ _ _ fun _ _ h => State.amo_kept h ..⟩
  | lr _ _ _ => exact ⟨_, rfl, State.coreInsn_kept (.refl s) _ _ _ _ fun _ _ h => State.lr_kept h ..⟩
  | sc _ _ => exact ⟨_, rfl, State.coreInsn_kept (.refl s) _ _ _ _ fun _ _ h => State.sc_kept h ..⟩
  | fence _ _ => exact ⟨_, rfl, State.coreInsn_kept (.refl s) _ _ _ _ fun _ _ h => State.fenceInsn_kept h ..⟩
  | fenceI _ _ => exact ⟨_, rfl, State.coreInsn_kept (.refl s) _ _ _ _ fun _ _ h => State.fenceIInsn_kept h ..⟩
  | frameWait _ _ => exact ⟨_, rfl, State.coreInsn_kept (.refl s) _ _ _ _ fun _ _ h => State.frameWait_kept h ..⟩
  | regionInv _ _ => exact ⟨_, rfl, State.coreInsn_kept (.refl s) _ _ _ _ fun _ _ h => State.regionInv_kept h ..⟩
  | fenceGrove _ _ => exact ⟨_, rfl, State.coreInsn_kept (.refl s) _ _ _ _ fun _ _ h => State.fenceGrove_kept h ..⟩
  | fenceGroveComplete _ => exact ⟨_, rfl, State.fenceGroveEnd_kept (.refl s) ..⟩
  | loopSet _ _ => exact ⟨_, rfl, State.coreInsn_kept (.refl s) _ _ _ _ fun _ _ h => State.loopSet_kept h ..⟩
  | ecall _ _ => exact ⟨_, rfl, State.coreInsn_kept (.refl s) _ _ _ _ fun _ _ h => State.ecall_kept h ..⟩
  | ebreak _ _ => exact ⟨_, rfl, State.coreInsn_kept (.refl s) _ _ _ _ fun _ _ h => State.ebreak_kept h ..⟩
  | otherInstruction _ _ => exact ⟨_, rfl, State.coreInsn_kept (.refl s) _ _ _ _ fun _ _ h => State.other_kept h ..⟩
  | walkProbeResponse _ _ => exact ⟨_, rfl, State.settle_kept (State.walkProbe_kept (.refl s) ..)⟩
  | ctxSwitch _ _ => exact ⟨_, rfl, State.coreInsn_kept (.refl s) _ _ _ _ fun _ _ h => State.ctxSwitch_kept h ..⟩
  | sRet _ _ => exact ⟨_, rfl, State.coreInsn_kept (.refl s) _ _ _ _ fun _ _ h => State.retInsn_kept h ..⟩
  | eRet _ _ => exact ⟨_, rfl, State.coreInsn_kept (.refl s) _ _ _ _ fun _ _ h => State.retInsn_kept h ..⟩
  | interruptTaken _ => exact ⟨_, rfl, State.interrupt_kept (.refl s) ..⟩
  | regionRegisterWrite _ _ => exact ⟨_, rfl, State.coreInsn_kept (.refl s) _ _ _ _ fun _ _ h => State.csrInsn_kept h ..⟩
  | predFlush _ _ => exact ⟨_, rfl, State.coreInsn_kept (.refl s) _ _ _ _ fun _ _ h => State.csrInsn_kept h ..⟩
  | pmcOverflow _ _ => exact ⟨_, rfl, State.pmcOverflow_kept (.refl s) ..⟩
  | readShared _ _ _ _ _ => exact ⟨_, rfl, State.homeSend_kept (.refl s) ..⟩
  | readUnique _ _ _ _ => exact ⟨_, rfl, State.homeSend_kept (.refl s) ..⟩
  | upgrade _ _ _ _ => exact ⟨_, rfl, State.homeSend_kept (.refl s) ..⟩
  | readSpec _ _ _ _ => exact ⟨_, rfl, State.homeSend_kept (.refl s) ..⟩
  | writeBack _ _ => exact ⟨_, rfl, State.writeBack_kept (.refl s) ..⟩
  | evict _ _ => exact ⟨_, rfl, State.evictLine_kept (.refl s) ..⟩
  | readCurrent _ _ _ _ => exact ⟨_, rfl, State.readCurrent_kept (.refl s) ..⟩
  | writeInv _ _ _ => exact ⟨_, rfl, State.writeInv_kept (.refl s) ..⟩
  | atomicFar _ _ _ => exact ⟨_, rfl, State.atomicFar_kept (.refl s) ..⟩
  | snoopReceived _ _ _ => exact ⟨_, rfl, State.snoop_kept (.refl s) ..⟩
  | completionAck _ => exact ⟨_, rfl, State.completionAck_kept (.refl s) ..⟩
  | retryReissue _ _ => exact ⟨_, rfl, State.reissue_kept (.refl s) ..⟩
  | wheelTurn => exact ⟨_, rfl, State.modCoh_kept (.refl s) ..⟩
  | patrolPassComplete _ => exact ⟨_, rfl, State.patrolEnd_kept (.refl s) ..⟩
  | sparingRebuildComplete => exact ⟨_, rfl, State.rebuildEnd_kept (.refl s) ..⟩
  | retentionWakeComplete _ => exact ⟨_, rfl, State.bankAwake_kept (.refl s) ..⟩
  | sealedBankWipeComplete => exact ⟨_, rfl, State.sealedWiped_kept (.refl s) ..⟩
  | memCntClr _ => exact ⟨_, rfl, State.regWriteAt_kept (.refl s) _ _ _ _ fun _ h => State.iff_kept h _ _ fun _ h => State.memCntClr_kept h⟩
  | pulse _ _ => exact ⟨_, rfl, State.doorbellWrite_kept (.refl s) ..⟩
  | assert _ _ => exact ⟨_, rfl, State.doorbellWrite_kept (.refl s) ..⟩
  | deassert _ _ => exact ⟨_, rfl, State.doorbellWrite_kept (.refl s) ..⟩
  | irqEnSet _ _ _ => exact ⟨_, rfl, State.regWriteAt_kept (.refl s) _ _ _ _ fun _ h => State.bankWrite_kept h ..⟩
  | irqEnClr _ _ _ => exact ⟨_, rfl, State.regWriteAt_kept (.refl s) _ _ _ _ fun _ h => State.bankWrite_kept h ..⟩
  | irqPendSet _ _ _ => exact ⟨_, rfl, State.regWriteAt_kept (.refl s) _ _ _ _ fun _ h => State.bankWrite_kept h ..⟩
  | irqPendClr _ _ _ => exact ⟨_, rfl, State.regWriteAt_kept (.refl s) _ _ _ _ fun _ h => State.bankWrite_kept h ..⟩
  | irqClaim _ => exact ⟨_, rfl, .ite (State.claimRead_kept (State.fwUsed_kept (.refl s) _) _) (State.turnAway_kept (.refl s) ..)⟩
  | irqEoi _ _ => exact ⟨_, rfl, State.regWriteAt_kept (.refl s) _ _ _ _ fun _ h => State.eoi_kept h ..⟩
  | compatWrite _ _ _ => exact ⟨_, rfl, State.regWriteAt_kept (.refl s) _ _ _ _ fun _ h => State.compatWrite_kept h ..⟩
  | irqCntClr _ => exact ⟨_, rfl, State.regWriteAt_kept (.refl s) _ _ _ _ fun _ h => State.irqCntClr_kept h ..⟩
  | dmaHeadWrite _ _ _ _ => exact ⟨_, rfl, State.regWriteAt_kept (.refl s) _ _ _ _ fun _ h => State.dmaHead_kept h ..⟩
  | dmaStart _ _ _ => exact ⟨_, rfl, State.regWriteAt_kept (.refl s) _ _ _ _ fun _ h => State.dmaStart_kept h ..⟩
  | dmaStop _ _ _ => exact ⟨_, rfl, State.regWriteAt_kept (.refl s) _ _ _ _ fun _ h => State.dmaStop_kept h ..⟩
  | dmaJobStart _ => exact ⟨_, rfl, State.jobStart_kept (.refl s) ..⟩
  | dmaElementComplete _ => exact ⟨_, rfl, State.elemRun_kept (.refl s) ..⟩
  | descriptorComplete _ => exact ⟨_, rfl, State.descComplete_kept (.refl s) ..⟩
  | engineBusError _ _ _ _ _ _ => exact ⟨_, rfl, State.targetError_kept (.refl s) ..⟩
  | portReceiveJob _ _ => exact ⟨_, rfl, State.rxJob_kept (.refl s) ..⟩
  | portTransmitJob _ _ => exact ⟨_, rfl, State.txJob_kept (.refl s) ..⟩
  | dmaCntClr _ => exact ⟨_, rfl, State.regWriteAt_kept (.refl s) _ _ _ _ fun _ h => State.dmaCntClr_kept h ..⟩
  | getInfo _ => exact ⟨_, rfl, State.getInfo_kept (.refl s) ..⟩
  | getNonce _ => exact ⟨_, rfl, State.getNonce_kept (.refl s) ..⟩
  | getIdentity _ => exact ⟨_, rfl, State.getIdentity_kept (.refl s) ..⟩
  | attest _ => exact ⟨_, rfl, State.attest_kept (.refl s) ..⟩
  | auditRead _ => exact ⟨_, rfl, State.auditRead_kept (.refl s) ..⟩
  | stage _ => exact ⟨_, rfl, State.stage_kept (.refl s) ..⟩
  | hwfwUpdate _ => exact ⟨_, rfl, State.hwfwUpdate_kept (.refl s) ..⟩
  | lcChange _ => exact ⟨_, rfl, State.lcChange_kept (.refl s) ..⟩
  | provision _ => exact ⟨_, rfl, State.provision_kept (.refl s) ..⟩
  | keyRotate _ => exact ⟨_, rfl, State.keyRotate_kept (.refl s) ..⟩
  | certInstall _ => exact ⟨_, rfl, State.certInstall_kept (.refl s) ..⟩
  | imageKeyInstall _ => exact ⟨_, rfl, State.imageKeyInstall_kept (.refl s) ..⟩
  | debugOpen _ => exact ⟨_, rfl, State.debugOpen_kept (.refl s) ..⟩
  | debugClose _ => exact ⟨_, rfl, State.debugClosed_kept (.refl s) ..⟩
  | nonceLapse => exact ⟨_, rfl, State.nonceLapse_kept (.refl s) ..⟩
  | lifecycleChangeReset => exact ⟨_, rfl, State.lcReset_kept (.refl s) ..⟩
  | tamperCondition _ => exact ⟨_, rfl, State.tamper_kept (.refl s) ..⟩
  | sensorHoldEnd => exact ⟨_, rfl, State.sensorHoldEnd_kept (.refl s) ..⟩
  | heartwoodRestart => exact ⟨_, rfl, State.heartwoodRestart_kept (.refl s) ..⟩
  | heartwoodClockSync => exact ⟨_, rfl, State.clockSync_kept (.refl s) ..⟩
  | mramRefresh => exact ⟨_, rfl, .refl s⟩
  | tapInstructionLoad _ => exact ⟨_, rfl, State.tapLoad_kept (.refl s) ..⟩
  | dmiAccess _ => exact ⟨_, rfl, State.dmi_kept (.refl s) ..⟩
  | publicationBoundary => exact ⟨_, rfl, State.boundary_kept (.refl s) ..⟩
  | integrationIntervalEnd _ => exact ⟨_, rfl, State.intervalEnd_kept (.refl s) ..⟩
  | pulseEdge _ => exact ⟨_, rfl, State.pulseEdge_kept (.refl s) ..⟩
  | enclavePowerFail => exact ⟨_, rfl, State.metPowerFail_kept (.refl s) ..⟩
  | enclavePowerRecovered => exact ⟨_, rfl, State.metRecovered_kept (.refl s) ..⟩
  | enclaveConverterStart _ => exact ⟨_, rfl, State.converterStart_kept (.refl s) ..⟩
  | enclaveWatchdog _ => exact ⟨_, rfl, State.metWatchdog_kept (.refl s) ..⟩
  | checksumCheck _ => exact ⟨_, rfl, State.metDaily_kept (.refl s) ..⟩
  | converterFault _ => exact ⟨_, rfl, State.converterFault_kept (.refl s) ..⟩
  | converterFaultEnd _ => exact ⟨_, rfl, State.converterFault_kept (.refl s) ..⟩
  | parameterRefresh => exact ⟨_, rfl, .ite (State.modMet_kept (.refl s) _) (.refl s)⟩
  | sealAsserted => exact ⟨_, rfl, State.sealOn_kept (.refl s) ..⟩
  | sealReleased => exact ⟨_, rfl, State.sealOff_kept (.refl s) ..⟩
  | ident => exact ⟨_, rfl, State.calIdent_kept (.refl s) ..⟩
  | paramRead _ => exact ⟨_, rfl, State.calRead_kept (.refl s) ..⟩
  | paramWrite _ _ => exact ⟨_, rfl, State.calWrite_kept (.refl s) ..⟩
  | commit => exact ⟨_, rfl, State.calCommit_kept (.refl s) ..⟩
  | abort => exact ⟨_, rfl, State.calAbort_kept (.refl s) ..⟩
  | logRead _ => exact ⟨_, rfl, State.calLogRead_kept (.refl s) ..⟩
  | measure _ => exact ⟨_, rfl, State.calMeasure_kept (.refl s) ..⟩
  | readSnapshot _ _ _ => exact ⟨_, rfl, State.regWriteAt_kept (.refl s) _ _ _ _ fun _ h => State.metWrite_kept h ..⟩
  | readLog _ _ _ => exact ⟨_, rfl, State.regWriteAt_kept (.refl s) _ _ _ _ fun _ h => State.metWrite_kept h ..⟩
  | timeSet _ _ _ => exact ⟨_, rfl, State.regWriteAt_kept (.refl s) _ _ _ _ fun _ h => State.metWrite_kept h ..⟩
  | tariff _ _ _ => exact ⟨_, rfl, State.regWriteAt_kept (.refl s) _ _ _ _ fun _ h => State.metWrite_kept h ..⟩
  | pcieLinkUp _ _ => exact ⟨_, rfl, State.linkUp_kept (.refl s) ..⟩
  | pcieLinkDown => exact ⟨_, rfl, State.linkDown_kept (.refl s) ..⟩
  | pciPerst => exact ⟨_, rfl, State.perst_kept (.refl s) ..⟩
  | functionLevelReset _ => exact ⟨_, rfl, State.flr_kept (.refl s) ..⟩
  | hostValueWrite _ _ => exact ⟨_, rfl, State.pf1_kept (.refl s) _ fun _ h => State.hostValue_kept h ..⟩
  | hostQualityWrite _ _ => exact ⟨_, rfl, State.pf1_kept (.refl s) _ fun _ h => State.hostQual_kept h ..⟩
  | hostValueQualityWrite _ _ _ => exact ⟨_, rfl, State.pf1_kept (.refl s) _ fun _ h => State.hostQual_kept (State.hostValue_kept h ..) ..⟩
  | hostDoorbell _ => exact ⟨_, rfl, State.hostDoorbell_kept (.refl s) ..⟩
  | snapshotCopy => exact ⟨_, rfl, State.snapshotCopy_kept (.refl s) ..⟩
  | snapshotComplete _ => exact ⟨_, rfl, State.snapshotEnd_kept (.refl s) ..⟩
  | snapshotEnable _ _ _ => exact ⟨_, rfl, State.pciWrite_kept (.refl s) _ _ _ _ fun _ h => State.snapCfg_kept h ..⟩
  | h2dHeadWrite _ _ => exact ⟨_, rfl, State.hostQueue_kept (.refl s) _ _ fun _ h => State.mqH2dHead_kept h ..⟩
  | d2hHeadWrite _ _ _ => exact ⟨_, rfl, State.regWriteAt_kept (.refl s) _ _ _ _ fun _ h => .ite (State.mqD2hHead_kept h ..) h⟩
  | d2hTailWrite _ _ => exact ⟨_, rfl, State.hostQueue_kept (.refl s) _ _ fun _ h => State.mqD2hTail_kept h ..⟩
  | mqEnable _ _ _ => exact ⟨_, rfl, State.pciWrite_kept (.refl s) _ _ _ _ fun _ h => State.mqCfg_kept h ..⟩
  | outboundReadComplete _ _ _ => exact ⟨_, rfl, State.obEnd_kept (.refl s) ..⟩
  | outboundCompletionTimeout _ => exact ⟨_, rfl, State.obEnd_kept (.refl s) ..⟩
  | hostIrq _ => exact ⟨_, rfl, State.pciWrite_kept (.refl s) _ _ _ _ fun _ h => State.pciCtl_kept h ..⟩
  | pciCntClr _ => exact ⟨_, rfl, State.pciWrite_kept (.refl s) _ _ _ _ fun _ h => State.pciCtl_kept h ..⟩
  | lockoutRelease _ _ => exact ⟨_, rfl, State.lockoutRelease_kept (.refl s) ..⟩
  | powerFailWarning => exact ⟨_, rfl, State.powerFailWarning_kept (.refl s) ..⟩
  | powerFailRelease => exact ⟨_, rfl, State.powerFailPorts_kept (.refl s) ..⟩
  | powerFailColdReset => exact ⟨_, rfl, State.powerFailReset_kept (.refl s) ..⟩
  | lockout => exact ⟨_, rfl, State.lockout_kept (.refl s) ..⟩
  | feedLost _ _ => exact ⟨_, rfl, State.feed_kept (.refl s) ..⟩
  | holdUpStoreNotCharged => exact ⟨_, rfl, State.holdLow_kept (.refl s) ..⟩
  | holdUpStoreCharged => exact ⟨_, rfl, State.holdCharged_kept (.refl s) ..⟩
  | coldReset => exact ⟨_, rfl, State.coldReset_kept (.refl s) ..⟩
  | warmRst _ _ => exact ⟨_, rfl, State.regWriteAt_kept (.refl s) _ _ _ _ fun _ h => State.pwrCtl_kept h ..⟩
  | resetRelease => exact ⟨_, rfl, State.resetRelease_kept (.refl s) ..⟩
  | sprintRequest _ _ => exact ⟨_, rfl, State.regWriteAt_kept (.refl s) _ _ _ _ fun _ h => State.sprintRequest_kept h ..⟩
  | sprintLimitExpiry => exact ⟨_, rfl, State.sprintLimit_kept (.refl s) ..⟩
  | cooldownEnd => exact ⟨_, rfl, State.coolEnd_kept (.refl s) ..⟩
  | poweredLedgerUpdate => exact ⟨_, rfl, State.poweredMinute_kept (.refl s) ..⟩
  | retentionWrite _ _ => exact ⟨_, rfl, State.regWriteAt_kept (.refl s) _ _ _ _ fun _ h => State.retention_kept h ..⟩
  | thermalSample _ => exact ⟨_, rfl, State.thermalSample_kept (.refl s) ..⟩
  | maxClr _ => exact ⟨_, rfl, State.regWriteAt_kept (.refl s) _ _ _ _ fun _ h => State.maxClr_kept h ..⟩
  | ppsOut => exact ⟨_, rfl, State.ppsOut_kept (.refl s) ..⟩
  | blockLockTimeout _ => exact ⟨_, rfl, State.blockLockTimeout_kept (.refl s) ..⟩
  | delayResponseTimeout _ => exact ⟨_, rfl, State.delayTimeout_kept (.refl s) ..⟩
  | pdelayRespReceived _ _ => exact ⟨_, rfl, State.pdelayDone_kept (.refl s) ..⟩
  | sensorConditionAbsent _ => exact ⟨_, rfl, State.tamperAbsent_kept (.refl s) ..⟩
  | frameTransmissionEnd _ => exact ⟨_, rfl, State.transmissionEnd_kept (.refl s) ..⟩

theorem Kept.of_exec {c : Instr} {s t : State} (h : exec c s = .next t) :
    Kept (Spared (mayStore c)) (Spared (mayFlash c)) (Spared (mayMeter c)) (Spared (mayLoop c)) (Spared (mayField c))
      (Spared (mayCascade c)) (Spared (mayGroves c)) s t := by
  obtain ⟨u, hu, hk⟩ := exec_kept c s
  obtain rfl : u = t := Host.Outcome.next.inj (hu.symm.trans h)
  exact hk

/-! ### Steps -/

theorem step_of_empty {s : State} (h : s.pending = []) : step s = .next (idle s) := by simp only [step, h]

theorem step_of_cons {s : State} {c : Instr} {rest : List Instr} (h : s.pending = c :: rest) :
    step s = exec c { s with pending := rest } := by simp only [step, h]

/-- Settles O4: a step is an idle step, which touches the time alone, or a command, which keeps the forms whatever it may change. -/
theorem stepKeepsForms : Obligations.StepKeepsForms := by
  unfold Obligations.StepKeepsForms
  intro s t hs h
  cases hp : s.pending with
  | nil =>
    obtain rfl : idle s = t := Host.Outcome.next.inj ((step_of_empty hp).symm.trans h)
    exact hs
  | cons c rest => exact (Kept.of_exec ((step_of_cons hp).symm.trans h)).wf hs

/-- Settles O2: the frame of every command. -/
theorem everyCommandAnswers : Obligations.EveryCommandAnswers := by
  unfold Obligations.EveryCommandAnswers
  intro c s
  obtain ⟨t, ht, hk⟩ := exec_kept c s
  exact ⟨t, ht, hk.pending, hk.mx, hk.size, hk.slow⟩

/-- Settles O55: memory and flash are followed by the frame of every command. -/
theorem frameOfMemory : Obligations.FrameOfMemory := by
  unfold Obligations.FrameOfMemory
  intro c s t h
  have hk := Kept.of_exec h
  refine ⟨fun hc a => ?memory, fun hc a => ?flash⟩
  case memory => rw [State.byte, State.byte, hk.mem (spared_of_eq_false hc)]
  case flash => rw [hk.flash (spared_of_eq_false hc)]

/-- Settles O56: so are the five units. -/
theorem frameOfUnits : Obligations.FrameOfUnits := by
  unfold Obligations.FrameOfUnits
  intro c s t h
  have hk := Kept.of_exec h
  exact ⟨fun hc => hk.met (spared_of_eq_false hc), fun hc => hk.loop (spared_of_eq_false hc), fun hc => hk.field (spared_of_eq_false hc),
    fun hc => hk.cascade (spared_of_eq_false hc), fun hc => hk.groves (spared_of_eq_false hc)⟩

/-- Settles O1: both equations of a step. -/
theorem stepRunsTheFrontCommand : Obligations.StepRunsTheFrontCommand :=
  ⟨fun _ _ _ => step_of_cons, fun _ => step_of_empty⟩

/-- Settles O3: memory and flash are empty, and the reset registers are listed in form. -/
theorem resetIsCanonical : Obligations.ResetIsCanonical := ⟨mapWf_nil 0, mapWf_nil 0xFF, resetRegs_wf⟩

end Sys2Proof.Machine
end

section
/-! The blocks of the Loop Engine (R175, R176): every row is a turn of its lane at the block function of its code, and each function is
the one of its obligation. -/

namespace Sys2Proof.Machine

open Blk

/-! ### A lane's turn at a block -/

/-- A turn at a block that is ready and meets no fault: its reports, its results, its end, and its grove's completion. -/
theorem State.block_of_ready {s : State} {l op b t : Nat} {bs : List Byte} (hready : s.blockReady l op = some (b, bs, t))
    (hfault : s.blockFault b bs = none) (f : BIn → BOut) :
    let u := s.set (Fd.LE_LANE_POS.INSTANCE l) b
    let v := ((u.blockReports b bs).blockResults l b bs (f (u.blockIn l b bs))).blockEnd l b bs (t + blockCost op)
    s.block l op f = match v.groveOfLane l with
      | some g => v.computeCheck g
      | none => v := by
  have hfault' : (s.set (Fd.LE_LANE_POS.INSTANCE l) b).blockFault b bs = none := hfault
  simp only [State.block, State.blockRun, hready, hfault'] <;> rfl

/-- A row of the dispatch runs the block of code `op` when its function is the stated one and its cost the table's. -/
theorem blockRuns_of {c : LaneId → Instr} {op cost : Nat} {blk f : BIn → BOut} (hrow : ∀ l s, exec (c l) s = done (s.block l.val op blk))
    (hcost : blockCost op = cost) (hblk : ∀ i, blk i = f i) : BlockRuns c op cost f := by
  intro l s b t bs hready hfault
  obtain rfl : blk = f := funext hblk
  subst hcost
  rw [hrow, State.block_of_ready hready hfault]
  rfl

/-! ### The obligations -/

/-- Settles O9: a controller holds, tracks or runs its automatic branch, as PV, SP and the tracking input say. -/
theorem controllerBlocks : Obligations.ControllerBlocks := by
  unfold Obligations.ControllerBlocks
  refine ⟨blockRuns_of (fun _ _ => rfl) rfl fun i => ?pidIsa, blockRuns_of (fun _ _ => rfl) rfl fun i => ?pidPar,
    blockRuns_of (fun _ _ => rfl) rfl fun i => ?pidVel, blockRuns_of (fun _ _ => rfl) rfl fun i => ?pidExt,
    blockRuns_of (fun _ _ => rfl) rfl fun i => ?piGap, blockRuns_of (fun _ _ => rfl) rfl fun i => rfl⟩
  case pidIsa => cases hh : i.holds <;> cases ht : t (i.x 3) <;> simp [blkPidIsa, hh, ht] <;> rfl
  case pidPar => cases hh : i.holds <;> cases ht : t (i.x 3) <;> simp [blkPidPar, hh, ht] <;> rfl
  case pidVel => cases hh : i.holds <;> cases ht : t (i.x 3) <;> simp [blkPidVel, hh, ht] <;> rfl
  case pidExt => cases hh : i.holds <;> cases ht : t (i.x 3) <;> simp [blkPidExt, hh, ht] <;> rfl
  case piGap => cases hh : i.holds <;> cases ht : t (i.x 3) <;> simp [blkPiGap, hh, ht] <;> rfl

/-- Settles O10: every block with memory but TOTAL is its function as written; TOTAL holds on X2 before it tests the cut-off. -/
theorem dynamicBlocks : Obligations.DynamicBlocks := by
  unfold Obligations.DynamicBlocks
  refine ⟨blockRuns_of (fun _ _ => rfl) rfl fun i => rfl, blockRuns_of (fun _ _ => rfl) rfl fun i => rfl,
    blockRuns_of (fun _ _ => rfl) rfl fun i => rfl, blockRuns_of (fun _ _ => rfl) rfl fun i => rfl,
    blockRuns_of (fun _ _ => rfl) rfl fun i => rfl, blockRuns_of (fun _ _ => rfl) rfl fun i => rfl,
    blockRuns_of (fun _ _ => rfl) rfl fun i => rfl, blockRuns_of (fun _ _ => rfl) rfl fun i => ?total,
    blockRuns_of (fun _ _ => rfl) rfl fun i => rfl, blockRuns_of (fun _ _ => rfl) rfl fun i => rfl⟩
  case total => cases ht : t (i.x 1) <;> simp [blkTotal, accStep, ht]

/-- Settles O11: the clamped end of CHAR and the empty sum of ADD are the cases. -/
theorem arithmeticBlocks : Obligations.ArithmeticBlocks := by
  unfold Obligations.ArithmeticBlocks
  refine ⟨blockRuns_of (fun _ _ => rfl) rfl fun i => rfl, blockRuns_of (fun _ _ => rfl) rfl fun i => ?char,
    blockRuns_of (fun _ _ => rfl) rfl fun i => rfl, blockRuns_of (fun _ _ => rfl) rfl fun i => rfl,
    blockRuns_of (fun _ _ => rfl) rfl fun i => ?add, blockRuns_of (fun _ _ => rfl) rfl fun i => rfl,
    blockRuns_of (fun _ _ => rfl) rfl fun i => rfl, blockRuns_of (fun _ _ => rfl) rfl fun i => rfl,
    blockRuns_of (fun _ _ => rfl) rfl fun i => rfl, blockRuns_of (fun _ _ => rfl) rfl fun i => rfl,
    blockRuns_of (fun _ _ => rfl) rfl fun i => rfl, blockRuns_of (fun _ _ => rfl) rfl fun i => rfl⟩
  case char =>
    unfold blkChar
    obtain ⟨y, q⟩ := i.curve (i.st 0) (i.x 0)
    cases q <;> rfl
  case add =>
    unfold blkAdd
    cases (List.range 4).filter i.used <;> rfl

/-! ### Selections -/

theorem filter_bne_isEmpty {α : Type} (p : α → Bool) (l : List α) :
    (l.filter fun a => !p a).isEmpty = l.all p := by
  induction l with
  | nil => rfl
  | cons a l ih => cases h : p a <;> simp [h, ← ih]

/-- R176: a bad input is eligible only when all are bad. -/
theorem BIn.eligible_eq (i : BIn) : i.eligible = (let used := (List.range i.nIn).filter i.used
    if used.all fun j => qclass (i.c j) == 0 then used else used.filter fun j => qclass (i.c j) != 0) := by
  unfold BIn.eligible
  extract_lets used kept
  have : kept.isEmpty = used.all fun j => qclass (i.c j) == 0 := filter_bne_isEmpty _ used
  rw [this]

/-- Settles O12: eligibility and the best of a list are equations of their own; the blocks differ from their functions in the order
of their cases alone. -/
theorem selectionAndLogicBlocks : Obligations.SelectionAndLogicBlocks := by
  unfold Obligations.SelectionAndLogicBlocks
  refine ⟨⟨BIn.eligible_eq, fun better j l => ?best, blockRuns_of (fun _ _ => rfl) rfl fun i => rfl,
    blockRuns_of (fun _ _ => rfl) rfl fun i => rfl, blockRuns_of (fun _ _ => rfl) rfl fun i => ?selmid,
    blockRuns_of (fun _ _ => rfl) rfl fun i => rfl, blockRuns_of (fun _ _ => rfl) rfl fun i => ?selavg,
    blockRuns_of (fun _ _ => rfl) rfl fun i => rfl, blockRuns_of (fun _ _ => rfl) rfl fun i => ?sample,
    blockRuns_of (fun _ _ => rfl) rfl fun i => ?mansta⟩, ?logic⟩
  case best => rfl
  case selmid =>
    unfold blkSelmid BIn.anyNaN
    obtain _ | ⟨a, _ | ⟨b, _ | ⟨c, _ | ⟨d, l⟩⟩⟩⟩ := i.eligible <;> rfl
  case selavg =>
    unfold blkSelavg BIn.anyNaN
    cases i.eligible <;> rfl
  case sample => cases ht : t (i.x 1) <;> simp [blkSample, ht]
  case mansta => rfl
  case logic =>
    refine ⟨blockRuns_of (fun _ _ => rfl) rfl fun i => rfl, blockRuns_of (fun _ _ => rfl) rfl fun i => rfl,
      blockRuns_of (fun _ _ => rfl) rfl fun i => rfl, blockRuns_of (fun _ _ => rfl) rfl fun i => rfl,
      blockRuns_of (fun _ _ => rfl) rfl fun i => rfl, blockRuns_of (fun _ _ => rfl) rfl fun i => rfl,
      blockRuns_of (fun _ _ => rfl) rfl fun i => rfl, blockRuns_of (fun _ _ => rfl) rfl fun i => rfl,
      blockRuns_of (fun _ _ => rfl) rfl fun i => rfl, blockRuns_of (fun _ _ => rfl) rfl fun i => ?tpulse,
      blockRuns_of (fun _ _ => rfl) rfl fun i => rfl⟩
    case tpulse =>
      unfold blkTpulse
      dsimp only
      cases t (i.x 0) && !t (i.st 2) && eq (i.st 3) 0 with
      | true => rfl
      | false =>
        cases eq (i.st 3) one with
        | true => cases le (i.st 0) (fmin (add (i.st 1) i.dt) (i.st 0)) <;> rfl
        | false => rfl

end Sys2Proof.Machine
end

section
/-! Bytes in memory (R7): what a little-endian number is made of, and what a read gives after a write. -/

namespace Sys2Proof.Machine

/-! ### Little-endian numbers -/

@[simp] theorem length_leBytes (n v : Nat) : (leBytes n v).length = n := by
  induction n generalizing v with
  | zero => rfl
  | succ n ih => rw [leBytes, List.length_cons, ih]

theorem getElem_leBytes {n i : Nat} (v : Nat) (hi : i < (leBytes n v).length) :
    (leBytes n v)[i] = BitVec.ofNat 8 (v / 256 ^ i) := by
  induction n generalizing v i with
  | zero => exact absurd hi (Nat.not_lt_zero i)
  | succ n ih =>
    cases i with
    | zero => simp [leBytes]
    | succ i => simp only [leBytes, List.getElem_cons_succ, ih, Nat.div_div_eq_div_mul, Nat.pow_succ, Nat.mul_comm]

@[simp] theorem leNat_leBytes (n v : Nat) : leNat (leBytes n v) = v % 256 ^ n := by
  induction n generalizing v with
  | zero => simp [leBytes, leNat, Nat.mod_one]
  | succ n ih => rw [leBytes, leNat, ih, Nat.pow_succ', Nat.mod_mul, BitVec.toNat_ofNat]

/-! ### Reads of several bytes -/

variable {d : Byte} {m m' : List Host.Cell} {a n : Nat}

@[simp] theorem length_memBytes (d : Byte) (m : List Host.Cell) (a n : Nat) : (memBytes d m a n).length = n := by
  induction n generalizing a with
  | zero => rfl
  | succ n ih => rw [memBytes, List.length_cons, ih]

theorem getElem_memBytes {i : Nat} (hi : i < (memBytes d m a n).length) : (memBytes d m a n)[i] = memByte d m (a + i) := by
  induction n generalizing a i with
  | zero => exact absurd hi (Nat.not_lt_zero i)
  | succ n ih =>
    cases i with
    | zero => rfl
    | succ i => simp only [memBytes, List.getElem_cons_succ, ih, Nat.add_assoc, Nat.add_comm 1]

/-- Memories that agree byte by byte on a range read the same there. -/
theorem memBytes_congr (h : ∀ i, i < n → memByte d m (a + i) = memByte d m' (a + i)) : memBytes d m a n = memBytes d m' a n :=
  List.ext_getElem (by simp) fun i hi _ => by
    rw [getElem_memBytes, getElem_memBytes]
    exact h i (by simpa using hi)

theorem memBytes_memPut (bs : List Byte) : memBytes d (memPut d m a bs) a bs.length = bs :=
  List.ext_getElem (by simp) fun i _ hi => by rw [getElem_memBytes, memByte_put_in bs i hi]

/-- A read that meets no byte of a write. -/
theorem memBytes_memPut_of_disjoint {b : Nat} (bs : List Byte) (h : a + n ≤ b ∨ b + bs.length ≤ a) :
    memBytes d (memPut d m b bs) a n = memBytes d m a n :=
  memBytes_congr fun i hi => memByte_put_out d bs m (by omega)

variable (s : State)

theorem State.rd_wr_same (a n v : Nat) : (s.wr a n v).rd a n = v % 256 ^ n := by
  have h : (s.wr a n v).rdB a n = leBytes n v := by
    simpa [State.rdB, State.wr, State.wrB] using memBytes_memPut (d := 0) (m := s.mem) (a := a) (leBytes n v)
  rw [State.rd, h, leNat_leBytes]

theorem State.rd_wr_of_disjoint {a b : Nat} (n k v : Nat) (h : a + n ≤ b ∨ b + k ≤ a) : (s.wr b k v).rd a n = s.rd a n := by
  rw [State.rd, State.rd]
  exact congrArg leNat (memBytes_memPut_of_disjoint (leBytes k v) (by simpa using h))

theorem State.byte_wr_of_not_mem {a n x : Nat} (v : Nat) (h : x < a ∨ a + n ≤ x) : (s.wr a n v).byte x = s.byte x :=
  s.byte_wrB_out (leBytes n v) (by simpa using h)

/-- Settles O5: each byte written, each byte outside, and the whole number read back. -/
theorem memoryIsLittleEndian : Obligations.MemoryIsLittleEndian := by
  unfold Obligations.MemoryIsLittleEndian
  intro s a n v
  refine ⟨fun i hi => ?written, fun x => s.byte_wr_of_not_mem v, s.rd_wr_same a n v⟩
  case written =>
    have hi' : i < (leBytes n v).length := by simpa using hi
    exact (s.byte_wrB_in (leBytes n v) a i hi').trans (getElem_leBytes v hi')

end Sys2Proof.Machine
end

section
/-! The context of a core after the operations that write it, retirement with the hardware loop (9.2, 9.8), and trap entry and return (10.3,
10.4). -/

namespace Sys2Proof.Machine

variable (s : State) (c : Nat)

theorem State.core_modCtx_self (f : Ctx → Ctx) : (s.modCtx c f).core c = { s.core c with ctx := f (s.core c).ctx } := by
  unfold State.modCtx; rw [State.core_modCore, if_pos rfl]

theorem State.core_modCtx_of_ne (f : Ctx → Ctx) {d : Nat} (h : d ≠ c) : (s.modCtx c f).core d = s.core d := by
  unfold State.modCtx; rw [State.core_modCore, if_neg h.symm]

theorem State.csr_lt (n : Nat) : s.csr c n < 2 ^ 64 := BitVec.isLt _

theorem State.pc_lt : s.pc c < 2 ^ 64 := BitVec.isLt _

theorem State.pc_setPc (v : Nat) : (s.setPc c v).pc c = v % 2 ^ 64 := by
  unfold State.pc State.setPc; rw [State.core_modCtx_self]; exact BitVec.toNat_ofNat ..

theorem State.csr_setPc (v n : Nat) : (s.setPc c v).csr c n = s.csr c n := by
  unfold State.csr State.setPc; rw [State.core_modCtx_self]

theorem State.x_setPc (v i : Nat) : (s.setPc c v).x c i = s.x c i := by
  unfold State.x State.setPc; rw [State.core_modCtx_self]

theorem State.level_setPc (v : Nat) : (s.setPc c v).level c = s.level c := by
  unfold State.level State.setPc; rw [State.core_modCtx_self]

theorem State.level_setLevel (l : Level) : (s.setLevel c l).level c = l := by
  unfold State.level State.setLevel; rw [State.core_modCtx_self]

theorem State.csr_setLevel (l : Level) (n : Nat) : (s.setLevel c l).csr c n = s.csr c n := by
  unfold State.csr State.setLevel; rw [State.core_modCtx_self]

theorem State.x_setLevel (l : Level) (i : Nat) : (s.setLevel c l).x c i = s.x c i := by
  unfold State.x State.setLevel; rw [State.core_modCtx_self]

variable {s c} {t u : State}

/-! ### Reads of a core with the same context -/

theorem State.pc_of_ctx (h : (t.core c).ctx = (s.core c).ctx) : t.pc c = s.pc c := by unfold State.pc; rw [h]

theorem State.csr_of_ctx (h : (t.core c).ctx = (s.core c).ctx) (n : Nat) : t.csr c n = s.csr c n := by unfold State.csr; rw [h]

theorem State.x_of_ctx (h : (t.core c).ctx = (s.core c).ctx) (i : Nat) : t.x c i = s.x c i := by unfold State.x; rw [h]

theorem State.level_of_ctx (h : (t.core c).ctx = (s.core c).ctx) : t.level c = s.level c := by unfold State.level; rw [h]

theorem State.ctx_modCore (f : CoreSt → CoreSt) (hf : (f (s.core c)).ctx = (s.core c).ctx) :
    ((s.modCore c f).core c).ctx = (s.core c).ctx := by
  rw [State.core_modCore, if_pos rfl, hf]

theorem State.event_counts (s : State) (c ev : Nat) : Counts c s (s.event c ev) := s.eventAt_counts c _ ev

/-! ### Retirement -/

/-- `t` is `u` but for the PC, the loop's own registers and the event counters of core `c`. -/
structure LoopStep (c : Nat) (u t : State) : Prop where
  csr    : ∀ i, i ≠ csrLoopCount → i ≠ csrLoopCfg → t.csr c i = u.csr c i
  x      : ∀ i, t.x c i = u.x c i
  fr     : ∀ i, t.fr c i = u.fr c i
  level  : t.level c = u.level c
  count  : (t.core c).instret = (u.core c).instret
  others : ∀ d, d ≠ c → t.core d = u.core d

theorem LoopStep.trans (h : LoopStep c s u) (k : LoopStep c u t) : LoopStep c s t :=
  ⟨fun i hn hc => (k.csr i hn hc).trans (h.csr i hn hc), fun i => (k.x i).trans (h.x i), fun i => (k.fr i).trans (h.fr i),
    k.level.trans h.level, k.count.trans h.count, fun d hd => (k.others d hd).trans (h.others d hd)⟩

theorem loopStep_setPc (s : State) (c v : Nat) : LoopStep c s (s.setPc c v) where
  csr i _ _ := s.csr_setPc c v i
  x := s.x_setPc c v
  fr i := by unfold State.fr State.setPc; rw [State.core_modCtx_self]
  level := s.level_setPc c v
  count := by unfold State.setPc; rw [State.core_modCtx_self]
  others _ hd := s.core_modCtx_of_ne c _ hd

theorem loopStep_setCsr (s : State) (c v : Nat) {n : Nat} (hn : n = csrLoopCount ∨ n = csrLoopCfg) : LoopStep c s (s.setCsr c n v) where
  csr i hc hf := by rw [State.csr_setCsr, if_neg]; omega
  x i := by unfold State.x State.setCsr; rw [State.core_modCtx_self]
  fr i := by unfold State.fr State.setCsr; rw [State.core_modCtx_self]
  level := by unfold State.level State.setCsr; rw [State.core_modCtx_self]
  count := by unfold State.setCsr; rw [State.core_modCtx_self]
  others _ hd := s.core_modCtx_of_ne c _ hd

theorem loopStep_event (s : State) (c ev : Nat) : LoopStep c s (s.event c ev) where
  csr i _ _ := State.csr_of_ctx (s.event_counts c ev).ctx i
  x := State.x_of_ctx (s.event_counts c ev).ctx
  fr i := by unfold State.fr; rw [(s.event_counts c ev).ctx]
  level := State.level_of_ctx (s.event_counts c ev).ctx
  count := by obtain ⟨p, e⟩ := (s.event_counts c ev).self; rw [e]
  others := (s.event_counts c ev).rest

theorem CoreSt.ctx_of_bare {k l : CoreSt} (h : k.bare = l.bare) : k.ctx = l.ctx := (congrArg CoreSt.ctx h : k.bare.ctx = l.bare.ctx)

theorem CoreSt.instret_of_bare {k l : CoreSt} (h : k.bare = l.bare) : k.instret = l.instret :=
  (congrArg CoreSt.instret h : k.bare.instret = l.bare.instret)

theorem State.counted_ctx (s : State) (c d : Nat) : ((s.counted c).core d).ctx = (s.core d).ctx := by
  rw [CoreSt.ctx_of_bare (s.counted_bare c d), State.core_modCore]
  split
  · subst_vars; rfl
  · rfl

theorem State.counted_instret (s : State) (c : Nat) : ((s.counted c).core c).instret = (s.core c).instret + 1 := by
  rw [CoreSt.instret_of_bare (s.counted_bare c c), State.core_modCore, if_pos rfl]; rfl

theorem State.counted_core_of_ne (s : State) {c d : Nat} (hd : d ≠ c) (hu : (s.core c).used = []) : (s.counted c).core d = s.core d := by
  rw [(s.counted_counts c hu).rest d hd, State.core_modCore, if_neg hd.symm]

/-- Where the hardware loop would go back: it is on, and the next instruction stands at its exit (R313). -/
def State.AtLoopExit (s : State) (c len : Nat) : Prop :=
  bitOf (s.csr c csrLoopCfg) 0 = true ∧ s.csr c csrLoopExit = (s.pc c + len) % 2 ^ 64

theorem State.retire_of_back (h : s.AtLoopExit c len) (hn : 1 < s.csr c csrLoopCount) :
    s.retire c len =
      (((s.counted c).setCsr c csrLoopCount (s.csr c csrLoopCount - 1)).setPc c (s.csr c csrLoopStart)).event c 0x11 := by
  obtain ⟨hon, hex⟩ := h
  unfold State.retire
  simp only [State.csr_of_ctx (s.counted_ctx c c), State.pc_of_ctx (s.counted_ctx c c), hon, hex, beq_self_eq_true, Bool.and_self, if_true,
    gt_iff_lt, hn]

theorem State.retire_of_last (h : s.AtLoopExit c len) (hn : s.csr c csrLoopCount = 1) :
    s.retire c len =
      (((s.counted c).setCsr c csrLoopCount 0).setCsr c csrLoopCfg (setBits (s.csr c csrLoopCfg) 0 0 0)).setPc c
        ((s.pc c + len) % 2 ^ 64) := by
  obtain ⟨hon, hex⟩ := h
  unfold State.retire
  simp only [State.csr_of_ctx (s.counted_ctx c c), State.pc_of_ctx (s.counted_ctx c c), hon, hex, beq_self_eq_true, Bool.and_self, if_true,
    hn, gt_iff_lt, Nat.lt_irrefl, if_false]

theorem State.retire_of_next (h : ¬ s.AtLoopExit c len ∨ s.csr c csrLoopCount = 0) :
    s.retire c len = (s.counted c).setPc c ((s.pc c + len) % 2 ^ 64) := by
  unfold State.retire
  simp only [State.csr_of_ctx (s.counted_ctx c c), State.pc_of_ctx (s.counted_ctx c c), Bool.and_eq_true, beq_iff_eq]
  by_cases hb : s.AtLoopExit c len
  · have h0 := h.resolve_left (not_not_intro hb)
    obtain ⟨hon, hex⟩ := hb
    simp [hon, hex, h0]
  · exact if_neg hb

/-- Whatever the loop does, only its own registers and the PC change beside what retiring counts. -/
theorem State.retire_loopStep (s : State) (c len : Nat) : LoopStep c (s.counted c) (s.retire c len) := by
  by_cases h : ¬ s.AtLoopExit c len ∨ s.csr c csrLoopCount = 0
  · rw [State.retire_of_next h]; exact loopStep_setPc ..
  · have hb : s.AtLoopExit c len := Classical.not_not.mp (mt Or.inl h)
    by_cases hn : s.csr c csrLoopCount = 1
    · rw [State.retire_of_last hb hn]
      exact ((loopStep_setCsr _ _ _ (.inl rfl)).trans (loopStep_setCsr _ _ _ (.inr rfl))).trans (loopStep_setPc ..)
    · rw [State.retire_of_back hb (by omega)]
      exact ((loopStep_setCsr _ _ _ (.inl rfl)).trans (loopStep_setPc ..)).trans (loopStep_event ..)

theorem State.retire_mem (s : State) (c len : Nat) : (s.retire c len).mem = s.mem :=
  (State.retire_kept (K := True) (F := False) (M := False) (L := False) (P := False) (C := False) (G := False) (Kept.refl s) c len).mem trivial

/-- Settles O57: the three ways the loop's count can stand, each with its equation for `retire`, over what counting an instruction
leaves. -/
theorem retirement : Obligations.Retirement := by
  unfold Obligations.Retirement
  intro s c len t next n back
  have hl : LoopStep c (s.counted c) t := s.retire_loopStep c len
  have hc := s.counted_ctx c c
  refine ⟨?back, ?last, ?next, fun i hn hf => (hl.csr i hn hf).trans (State.csr_of_ctx hc i), fun i => (hl.x i).trans (State.x_of_ctx hc i),
    fun i => (hl.fr i).trans (by unfold State.fr; rw [hc]), hl.level.trans (State.level_of_ctx hc), s.retire_mem c len,
    hl.count.trans (s.counted_instret c), fun d hd => by rw [hl.others d hd, s.counted_ctx],
    fun hu d hd => (hl.others d hd).trans (s.counted_core_of_ne hd hu)⟩
  case back =>
    intro ⟨hb, hn⟩
    have ht : t = _ := State.retire_of_back hb hn
    rw [ht]
    have he := ((((s.counted c).setCsr c csrLoopCount (n - 1)).setPc c (s.csr c csrLoopStart)).event_counts c 0x11).ctx
    have hlt : n < 2 ^ 64 := s.csr_lt c csrLoopCount
    refine ⟨(State.pc_of_ctx he).trans ?_, (State.csr_of_ctx he _).trans ?_⟩
    · rw [State.pc_setPc, Nat.mod_eq_of_lt (s.csr_lt c csrLoopStart)]
    · rw [State.csr_setPc, State.csr_setCsr, if_pos rfl, Nat.mod_eq_of_lt (by omega)]
  case last =>
    intro ⟨hb, hn⟩
    have ht : t = _ := State.retire_of_last hb hn
    rw [ht]
    refine ⟨?_, ?_, ?_⟩
    · rw [State.pc_setPc, Nat.mod_mod]
    · rw [State.csr_setPc, State.csr_setCsr, if_neg (by decide), State.csr_setCsr, if_pos rfl] <;> decide
    · rw [State.csr_setPc, State.csr_setCsr, if_pos rfl]
      simp [bitOf, setBits, bits]
      omega
  case next =>
    intro h
    have ht : t = _ := State.retire_of_next h
    rw [ht]
    exact ⟨by rw [State.pc_setPc, Nat.mod_mod], fun i => by rw [State.csr_setPc]; exact State.csr_of_ctx hc i⟩

/-! ### Traps -/

theorem State.pmcSync_ctx (s : State) (c d : Nat) : ((s.pmcSync c).core d).ctx = (s.core d).ctx := by
  have ha : ((s.pmcAccrue c).core d).bare = (s.core d).bare := congrFun (congrArg Prod.snd (s.pmcAccrue_uncached c)) d
  refine CoreSt.ctx_of_bare (Eq.trans ?_ ha)
  unfold State.pmcSync
  extract_lets u
  split
  · exact (Counts.each _ _ (.refl c u) fun v n hv => State.pmcBump_counts hv n 0).bare d
  · rfl

theorem State.core_dropAsked (s : State) (c d : Nat) : (s.dropAsked c).core d = s.core d := by
  unfold State.dropAsked
  extract_lets k
  split <;> rfl

theorem State.ctx_flushIf (s : State) (b : Bool) (c : Nat) : ((s.iff b (·.flushPredictor c)).core c).ctx = (s.core c).ctx := by
  unfold State.iff
  split
  · exact State.ctx_modCore (fun k => { k with pht := [], ghr := 0, btb := [], ras := [] }) rfl
  · rfl

theorem State.rsv_setLevel_setPc (s : State) (c : Nat) (l : Level) (v : Nat) :
    (((s.setLevel c l).setPc c v).core c).rsv = (s.core c).rsv := by
  unfold State.setPc State.setLevel
  rw [State.core_modCtx_self, State.core_modCtx_self]

/-- A core that enters a trap: what was in progress of it and its reservation go. -/
def CoreSt.trapped (k : CoreSt) : CoreSt := { k.discard with rsv := none, halted := k.halted || k.stepping, stepping := false }

/-- A core that returns from one. -/
def CoreSt.untrapped (k : CoreSt) : CoreSt := { k.squash with rsv := none }

theorem State.core_modCore_self (s : State) (c : Nat) (f : CoreSt → CoreSt) : (s.modCore c f).core c = f (s.core c) := by
  rw [State.core_modCore, if_pos rfl]

theorem State.x_setCsr (s : State) (c n v i : Nat) : (s.setCsr c n v).x c i = s.x c i := by
  unfold State.x State.setCsr; rw [State.core_modCtx_self]

/-- HSTATUS after an entry from a level (R348). -/
def entryStatus (st : Nat) (l : Level) : Nat := setBits (setBits (setBits st 1 1 (bits st 0 0)) 0 0 0) 3 2 (levelNo l)

/-- HSTATUS after a return (R349). -/
def returnStatus (st : Nat) : Nat := setBits (setBits (setBits st 0 0 (bits st 1 1)) 1 1 1) 3 2 0

theorem entryStatus_lt {st : Nat} (h : st < 2 ^ 64) (l : Level) : entryStatus st l < 2 ^ 64 :=
  setBits_lt (setBits_lt (setBits_lt h (by decide) (by decide)) (by decide) (by decide)) (by decide) (by decide)

theorem returnStatus_lt {st : Nat} (h : st < 2 ^ 64) : returnStatus st < 2 ^ 64 :=
  setBits_lt (setBits_lt (setBits_lt h (by decide) (by decide)) (by decide) (by decide)) (by decide) (by decide)

theorem bits_entryStatus (st : Nat) (l : Level) :
    bits (entryStatus st l) 0 0 = 0 ∧ bits (entryStatus st l) 1 1 = bits st 0 0 ∧ bits (entryStatus st l) 3 2 = levelNo l := by
  refine ⟨?_, ?_, ?_⟩
  · unfold entryStatus
    rw [bits_setBits_below _ _ _ _ _ _ (by decide) (by decide), bits_setBits] <;> rfl
  · unfold entryStatus
    rw [bits_setBits_below _ _ _ _ _ _ (by decide) (by decide), bits_setBits_above _ _ _ _ _ _ (by decide) (by decide), bits_setBits]
    exact Nat.mod_eq_of_lt (bits_lt st 0 0)
  · unfold entryStatus
    rw [bits_setBits]
    cases l <;> rfl

theorem bits_returnStatus (st : Nat) :
    bits (returnStatus st) 0 0 = bits st 1 1 ∧ bits (returnStatus st) 1 1 = 1 ∧ bits (returnStatus st) 3 2 = 0 := by
  refine ⟨?_, ?_, ?_⟩
  · unfold returnStatus
    rw [bits_setBits_below _ _ _ _ _ _ (by decide) (by decide), bits_setBits_below _ _ _ _ _ _ (by decide) (by decide), bits_setBits]
    exact Nat.mod_eq_of_lt (bits_lt st 1 1)
  · unfold returnStatus
    rw [bits_setBits_below _ _ _ _ _ _ (by decide) (by decide), bits_setBits] <;> rfl
  · unfold returnStatus
    rw [bits_setBits] <;> rfl

/-- The CSRs that an entry writes, in the order of its writes. -/
def State.trapSaved (s : State) (c : Nat) (h : Level) (cause tval : Nat) : State :=
  (((((s.pmcSync c).setCsr c (hEpc h) (s.pc c)).setCsr c (hCause h) cause).setCsr c (hTval h) tval).setCsr c (hStatus h)
    (entryStatus (s.csr c (hStatus h)) (s.level c))).setCsr c csrLoopCfg (2 * bits (s.csr c csrLoopCfg) 0 0)

/-- An entry reads, but for level and PC, as the writes of its CSRs; its reservation is gone. -/
theorem State.trapEntry_eq (s : State) (c : Nat) (h : Level) (cause tval target : Nat) :
    ∃ u : State, s.trapEntry c h cause tval target = (((u.modCore c CoreSt.trapped).dropAsked c).setLevel c h).setPc c target ∧
      (u.core c).ctx = ((s.trapSaved c h cause tval).core c).ctx :=
  ⟨((s.trapSaved c h cause tval).iff (s.isolated c) (·.flushPredictor c)).event c 0x14, rfl,
    (State.event_counts _ c 0x14).ctx.trans (State.ctx_flushIf _ _ c)⟩

/-- The CSRs that a return writes. -/
def State.trapRestored (s : State) (c : Nat) (h : Level) : State :=
  ((s.pmcSync c).setCsr c (hStatus h) (returnStatus (s.csr c (hStatus h)))).setCsr c csrLoopCfg (bits (s.csr c csrLoopCfg) 1 1 * 3)

theorem State.trapReturn_eq (s : State) (c : Nat) (h : Level) :
    ∃ u : State, s.trapReturn c h =
        ((u.modCore c CoreSt.untrapped).setLevel c (levelOf (bits (s.csr c (hStatus h)) 3 2))).setPc c (s.csr c (hEpc h)) ∧
      (u.core c).ctx = ((s.trapRestored c h).core c).ctx :=
  ⟨(s.trapRestored c h).iff (s.isolated c) (·.flushPredictor c), rfl, State.ctx_flushIf _ _ c⟩

/-- The CSRs of a handler level stand apart from each other and from the loop's. -/
theorem hCsrs_apart (h : Level) :
    csrLoopCfg ≠ hEpc h ∧ csrLoopCfg ≠ hCause h ∧ csrLoopCfg ≠ hTval h ∧ csrLoopCfg ≠ hStatus h ∧ hStatus h ≠ hEpc h ∧
      hStatus h ≠ hCause h ∧ hStatus h ≠ hTval h ∧ hTval h ≠ hEpc h ∧ hTval h ≠ hCause h ∧ hCause h ≠ hEpc h := by
  cases h <;> decide

theorem State.trapSaved_csr (s : State) (c : Nat) (h : Level) {cause tval : Nat} (hc : cause < 2 ^ 64) (hv : tval < 2 ^ 64) :
    let t := s.trapSaved c h cause tval
    t.csr c (hEpc h) = s.pc c ∧ t.csr c (hCause h) = cause ∧ t.csr c (hTval h) = tval ∧
      t.csr c (hStatus h) = entryStatus (s.csr c (hStatus h)) (s.level c) := by
  obtain ⟨a1, a2, a3, a4, a5, a6, a7, a8, a9, a10⟩ := hCsrs_apart h
  simp only [State.trapSaved, State.csr_setCsr, a1, a2, a3, a4, a5, a6, a7, a8, a9, a10, if_true, if_false, Nat.mod_eq_of_lt hc,
    Nat.mod_eq_of_lt hv, Nat.mod_eq_of_lt (s.pc_lt c), Nat.mod_eq_of_lt (entryStatus_lt (s.csr_lt c _) _), and_self]

theorem State.trapRestored_csr (s : State) (c : Nat) (h : Level) :
    (s.trapRestored c h).csr c (hStatus h) = returnStatus (s.csr c (hStatus h)) := by
  unfold State.trapRestored
  rw [State.csr_setCsr, if_neg (hCsrs_apart h).2.2.2.1, State.csr_setCsr, if_pos rfl,
    Nat.mod_eq_of_lt (returnStatus_lt (s.csr_lt c _))]

theorem State.trapSaved_x (s : State) (c : Nat) (h : Level) (cause tval r : Nat) : (s.trapSaved c h cause tval).x c r = s.x c r := by
  unfold State.trapSaved
  simp only [State.x_setCsr]
  exact State.x_of_ctx (s.pmcSync_ctx c c) r

theorem State.trapRestored_x (s : State) (c : Nat) (h : Level) (r : Nat) : (s.trapRestored c h).x c r = s.x c r := by
  unfold State.trapRestored
  simp only [State.x_setCsr]
  exact State.x_of_ctx (s.pmcSync_ctx c c) r

theorem State.trapEntry_mem (s : State) (c : Nat) (h : Level) (cause tval target : Nat) : (s.trapEntry c h cause tval target).mem = s.mem :=
  (State.trapEntry_kept (K := True) (F := False) (M := False) (L := False) (P := False) (C := False) (G := False)
    (Kept.refl s) c h cause tval target).mem trivial

theorem State.trapReturn_mem (s : State) (c : Nat) (h : Level) : (s.trapReturn c h).mem = s.mem :=
  (State.trapReturn_kept (K := True) (F := False) (M := False) (L := False) (P := False) (C := False) (G := False)
    (Kept.refl s) c h).mem trivial

/-- Settles O38: both read as their writes of CSRs under a new level and PC. -/
theorem trapEntryAndReturn : Obligations.TrapEntryAndReturn := by
  unfold Obligations.TrapEntryAndReturn
  intro s c cause tval target h _ hc hv ht
  refine ⟨?entry, ?ret⟩
  case entry =>
    intro t
    obtain ⟨u, e, hu⟩ := s.trapEntry_eq c h cause tval target
    have et : t = _ := e
    have hcore : ((u.modCore c CoreSt.trapped).dropAsked c).core c = (u.core c).trapped := by
      rw [State.core_dropAsked, State.core_modCore_self]
    have hctx : (((u.modCore c CoreSt.trapped).dropAsked c).core c).ctx = ((s.trapSaved c h cause tval).core c).ctx := by
      rw [hcore]; exact hu
    have hcsr (n : Nat) : t.csr c n = (s.trapSaved c h cause tval).csr c n := by
      rw [et, State.csr_setPc, State.csr_setLevel]; exact State.csr_of_ctx hctx n
    obtain ⟨epc, cau, val, sta⟩ := s.trapSaved_csr c h hc hv
    obtain ⟨b0, b1, b2⟩ := bits_entryStatus (s.csr c (hStatus h)) (s.level c)
    rw [hcsr, hcsr, hcsr, hcsr, sta]
    refine ⟨epc, cau, val, ?pc, ?level, b0, b1, b2, ?rsv, ?x, s.trapEntry_mem c h cause tval target⟩
    case pc => rw [et, State.pc_setPc, Nat.mod_eq_of_lt ht]
    case level => rw [et, State.level_setPc, State.level_setLevel]
    case rsv => rw [et, State.rsv_setLevel_setPc, hcore]; rfl
    case x =>
      intro r
      rw [et, State.x_setPc, State.x_setLevel, State.x_of_ctx hctx, State.trapSaved_x]
  case ret =>
    intro t
    obtain ⟨u, e, hu⟩ := s.trapReturn_eq c h
    have et : t = _ := e
    have hctx : ((u.modCore c CoreSt.untrapped).core c).ctx = ((s.trapRestored c h).core c).ctx := by
      rw [State.core_modCore_self]; exact hu
    have hcsr : t.csr c (hStatus h) = returnStatus (s.csr c (hStatus h)) := by
      rw [et, State.csr_setPc, State.csr_setLevel, State.csr_of_ctx hctx, State.trapRestored_csr]
    obtain ⟨b0, b1, b2⟩ := bits_returnStatus (s.csr c (hStatus h))
    rw [hcsr]
    refine ⟨?pc, ?level, b0, b1, b2, ?rsv, ?x, s.trapReturn_mem c h⟩
    case pc => rw [et, State.pc_setPc, Nat.mod_eq_of_lt (s.csr_lt c _)]
    case level => rw [et, State.level_setPc, State.level_setLevel]
    case rsv => rw [et, State.rsv_setLevel_setPc, State.core_modCore_self]; rfl
    case x =>
      intro r
      rw [et, State.x_setPc, State.x_setLevel, State.x_of_ctx hctx, State.trapRestored_x]

end Sys2Proof.Machine
end

section
/-! The offers of the interrupt router are one per core and one per source, and what acceptance leaves (12.2, 12.3). -/

namespace Sys2Proof.Machine

/-! ### Sorting and keys -/

theorem insertBy_perm {α : Type} (key : α → Nat) (a : α) (l : List α) : (insertBy key a l).Perm (a :: l) := by
  induction l with
  | nil => exact .refl _
  | cons b l ih =>
    unfold insertBy
    split
    · exact .refl _
    · exact (ih.cons b).trans (.swap a b l)

theorem isort_perm {α : Type} (key : α → Nat) (l : List α) : (isort key l).Perm l := by
  have go (acc : List α) : (l.foldl (fun acc a => insertBy key a acc) acc).Perm (l.reverse ++ acc) := by
    induction l generalizing acc with
    | nil => exact .refl _
    | cons a l ih =>
      refine (ih _).trans ?_
      rw [List.reverse_cons, List.append_assoc]
      exact (insertBy_perm key a acc).append_left _
  simpa [isort] using (go []).trans (by simp)

/-- The keys of a canonical map rise strictly. -/
theorem mapWf_pairwise {α : Type} [DecidableEq α] {d : α} {m : List (Nat × α)} (h : mapWf d m = true) :
    (m.map (·.1)).Pairwise (· < ·) := by
  induction m with
  | nil => exact .nil
  | cons e m ih =>
    obtain ⟨-, hk, hm⟩ := (mapWf_cons d e.1 e.2 m).mp h
    exact List.pairwise_cons.mpr ⟨List.forall_mem_map.mpr hk, ih hm⟩

theorem mapKeys_nodup {α : Type} [DecidableEq α] {d : α} {m : List (Nat × α)} (h : mapWf d m = true) (lo hi : Nat) :
    (mapKeys m lo hi).Nodup :=
  ((mapWf_pairwise h).imp fun h => Nat.ne_of_lt h).sublist (List.filter_sublist.map _)

variable {s : State}

theorem State.candidates_nodup (h : s.wf) : s.candidates.Nodup := by
  obtain ⟨-, -, hr⟩ := h
  unfold State.candidates
  refine (isort_perm _ _).nodup_iff.mpr (List.Nodup.sublist List.filter_sublist (List.pairwise_map.mpr
    (((mapKeys_nodup hr _ _).sublist List.filter_sublist).imp_of_mem ?_)))
  intro x y hx hy hne he
  simp only [List.mem_filter, beq_iff_eq] at hx hy
  have hx' := mapKeys_bounds hx.1
  have hy' := mapKeys_bounds hy.1
  have hb : Rg.IRQ_SRC_CFG 0 = 0x1c010000 := rfl
  omega

theorem State.fresh_of_choose {taken : List (Nat × Nat)} {src c : Nat} (h : s.choose taken src = some c) :
    c < 64 ∧ c ∉ taken.map (·.1) := by
  obtain ⟨hr, hc⟩ := List.mem_filter.mp (mem_of_mem_isort (List.mem_of_mem_head? h))
  obtain ⟨-, ht⟩ := Bool.and_eq_true_iff.mp hc
  refine ⟨List.mem_range.mp hr, fun hm => ?_⟩
  obtain ⟨e, he, rfl⟩ := List.mem_map.mp hm
  exact absurd ht (by simpa using ⟨e.2, he⟩)

/-- The offers after one more source has been looked at. -/
def State.offer (s : State) (acc : List (Nat × Nat)) (src : Nat) : List (Nat × Nat) :=
  match s.choose acc src with
  | some c => (c, src) :: acc
  | none => acc

theorem State.offers_eq (s : State) : s.offers = s.candidates.foldl s.offer [] := rfl

/-- What holds of the offers made so far while the sources `srcs` still wait for one. -/
structure OffersSoFar (s : State) (srcs : List Nat) (acc : List (Nat × Nat)) : Prop where
  cores   : (acc.map (·.1)).Nodup
  sources : (acc.map (·.2) ++ srcs).Nodup
  each    : ∀ e ∈ acc, e.1 < 64 ∧ e.2 ∈ s.candidates

theorem OffersSoFar.offer {src : Nat} {srcs : List Nat} {acc : List (Nat × Nat)} (h : OffersSoFar s (src :: srcs) acc)
    (hsrc : src ∈ s.candidates) : OffersSoFar s srcs (s.offer acc src) := by
  unfold State.offer
  split
  next c hc =>
    obtain ⟨hlt, hnew⟩ := State.fresh_of_choose hc
    exact ⟨List.nodup_cons.mpr ⟨hnew, h.cores⟩, (List.perm_middle.nodup_iff.mp h.sources),
      List.forall_mem_cons.mpr ⟨⟨hlt, hsrc⟩, h.each⟩⟩
  next => exact ⟨h.cores, h.sources.sublist ((List.sublist_cons_self src srcs).append_left _), h.each⟩

theorem OffersSoFar.offers {srcs : List Nat} {acc : List (Nat × Nat)} (h : OffersSoFar s srcs acc) (hs : ∀ src ∈ srcs, src ∈ s.candidates) :
    OffersSoFar s [] (srcs.foldl s.offer acc) := by
  induction srcs generalizing acc with
  | nil => exact h
  | cons src srcs ih =>
    obtain ⟨hsrc, hs⟩ := List.forall_mem_cons.mp hs
    exact ih (h.offer hsrc) hs

theorem State.offers_distinct (h : s.wf) : OffersSoFar s [] s.offers :=
  OffersSoFar.offers ⟨.nil, s.candidates_nodup h, List.forall_mem_nil _⟩ fun _ => id

/-! ### Acceptance -/

theorem State.get_setStack (s : State) (c : Nat) (l : List (Nat × Nat)) (f : Fld) : (s.setStack c l).get f = s.get f := by
  unfold State.get State.reg; rw [State.setStack_regs]

/-- A field of a source that stands below PENDING is not touched by acceptance. -/
theorem State.get_accept_below (s : State) (c src i : Nat) {f : Fld} (hoff : f.off = Rg.IRQ_SRC_CFG i) (hhi : f.hi < 17)
    (hlo : f.lo ≤ f.hi + 1) : (s.accept c src).get f = s.get f := by
  have untouched (t : State) (g : Fld) (v : Nat) (hg : g.off = Rg.IRQ_SRC_CFG src) (hgh : g.hi < 64) (hgl : g.lo ≤ g.hi + 1)
      (hb : 17 ≤ g.lo) : (t.set g v).get f = t.get f := by
    by_cases he : src = i
    · exact t.get_set_below v (by rw [hg, hoff, he]) hgh hgl (by omega) hlo
    · exact t.get_set_ne v (by rw [hg, hoff]; unfold Rg.IRQ_SRC_CFG; omega)
  unfold State.accept State.lower State.raise
  rw [State.get_setStack, untouched _ (Fd.IRQ_SRC_CFG.RR src), untouched _ (Fd.IRQ_SRC_CFG.CORE src),
    untouched _ (Fd.IRQ_SRC_CFG.ACTIVE src), untouched _ (Fd.IRQ_SRC_CFG.PENDING src)] <;>
    simp [Fd.IRQ_SRC_CFG.PENDING, Fd.IRQ_SRC_CFG.ACTIVE, Fd.IRQ_SRC_CFG.CORE, Fd.IRQ_SRC_CFG.RR]

theorem State.prio_accept (s : State) (c src i : Nat) : (s.accept c src).prio i = s.prio i :=
  s.get_accept_below c src i rfl (of_decide_eq_true rfl) (of_decide_eq_true rfl)

theorem State.stack_setStack (s : State) (c : Nat) (l : List (Nat × Nat)) : (s.setStack c l).stack c = l := by
  unfold State.stack State.setStack; exact (mapGet_set c c l).trans (if_pos rfl)

theorem State.stack_accept (s : State) (c src : Nat) : (s.accept c src).stack c = (src, s.prio src) :: s.stack c := by
  unfold State.accept; rw [State.stack_setStack]

theorem State.get_accept (s : State) (c src : Nat) (hc : c < 64) :
    (s.accept c src).get (Fd.IRQ_SRC_CFG.PENDING src) = 0 ∧ (s.accept c src).get (Fd.IRQ_SRC_CFG.ACTIVE src) = 1 ∧
      (s.accept c src).get (Fd.IRQ_SRC_CFG.CORE src) = c := by
  have below (t : State) {f g : Fld} (v : Nat) (hf : f.off = g.off) (hh : f.hi < 64 ∧ f.lo ≤ f.hi + 1) (hg : g.hi < f.lo ∧ g.lo ≤ g.hi + 1) :
      (t.set f v).get g = t.get g := t.get_set_below v hf hh.1 hh.2 hg.1 hg.2
  have written (t : State) (f : Fld) (v : Nat) (hh : f.hi < 64 ∧ f.lo ≤ f.hi + 1) : (t.set f v).get f = v % 2 ^ (f.hi + 1 - f.lo) :=
    t.get_set f v hh.1 hh.2
  unfold State.accept State.lower State.raise
  simp only [State.get_setStack]
  refine ⟨?_, ?_, ?_⟩
  · rw [below, below, below, written] <;>
      simp [Fd.IRQ_SRC_CFG.PENDING, Fd.IRQ_SRC_CFG.ACTIVE, Fd.IRQ_SRC_CFG.CORE, Fd.IRQ_SRC_CFG.RR]
  · rw [below, below, written] <;> simp [Fd.IRQ_SRC_CFG.ACTIVE, Fd.IRQ_SRC_CFG.CORE, Fd.IRQ_SRC_CFG.RR]
  · rw [below, written] <;> simp [Fd.IRQ_SRC_CFG.CORE, Fd.IRQ_SRC_CFG.RR, Nat.mod_eq_of_lt hc]

/-- R415: a core that has accepted a source is eligible for none of its priority or below. -/
theorem State.not_eligible_accept (s : State) {c src i : Nat} (hi : (s.accept c src).prio i ≤ (s.accept c src).prio src) :
    (s.accept c src).eligible i c = false := by
  have hrank : (s.accept c src).rank c = s.prio src + 1 := by unfold State.rank; rw [State.stack_accept]
  have hle : ¬ (s.accept c src).rank c < (s.accept c src).prio i + 1 := by
    rw [State.prio_accept] at hi ⊢
    rw [State.prio_accept] at hi
    omega
  unfold State.eligible
  rw [decide_eq_false hle]
  simp

theorem State.accept_mem (s : State) (c src : Nat) : (s.accept c src).mem = s.mem := by
  unfold State.accept State.lower State.raise
  rw [State.setStack_mem, State.set_mem, State.set_mem, State.set_mem, State.set_mem]

theorem State.accept_cores (s : State) (c src : Nat) : (s.accept c src).cores = s.cores := by
  unfold State.accept State.lower State.raise
  rw [State.setStack_cores, State.set_cores, State.set_cores, State.set_cores, State.set_cores]

/-- Settles O45, by the fold over the candidates: each source is looked at once, and each core taken only while it is free. -/
theorem offersOfTheRouter : Obligations.OffersOfTheRouter := by
  unfold Obligations.OffersOfTheRouter
  refine ⟨fun s hwf => ?offers, fun s c src _ hc => ?accept⟩
  case offers =>
    have ho := State.offers_distinct hwf
    refine ⟨ho.cores, by simpa using ho.sources, fun e he => ?_⟩
    obtain ⟨hlt, hcand⟩ := ho.each e he
    obtain ⟨-, hp, hen, ha⟩ := State.mem_candidates.mp hcand
    exact ⟨hlt, State.eligible_of_mem_offers he, by simpa [State.on] using hp, by simpa [State.on] using hen, by simpa [State.on] using ha⟩
  case accept =>
    obtain ⟨hp, ha, hcore⟩ := s.get_accept c src hc
    exact ⟨hp, ha, hcore, s.stack_accept c src, s.prio_accept c src, fun _ => s.not_eligible_accept,
      s.accept_mem c src, s.accept_cores c src⟩

end Sys2Proof.Machine
end

section
/-! The scan frame: what a tick begins, the ends of the sweep, of compute and of a grove's staging, and the frame controls (chapter 3). -/

namespace Sys2Proof.Machine

variable {s t : State}

/-! ### Registers -/

theorem State.reg_of_regs (h : t.regs = s.regs) (i : Nat) : t.reg i = s.reg i := by unfold State.reg; rw [h]

theorem State.get_of_regs (h : t.regs = s.regs) (f : Fld) : t.get f = s.get f := by unfold State.get; rw [State.reg_of_regs h]

/-- The write of a field leaves every other register as it is. -/
theorem State.reg_set_ne (s : State) {f : Fld} {i : Nat} (v : Nat) (h : f.off ≠ i) : (s.set f v).reg i = s.reg i := s.reg_setReg_ne _ h

theorem State.get_setReg_ne (s : State) {f : Fld} {i : Nat} (v : Nat) (h : i ≠ f.off) : (s.setReg i v).get f = s.get f := by
  unfold State.get; rw [State.reg_setReg_ne s v h]

/-- Of the registers, only the one at `i` is changed by a write to it. -/
theorem State.reg_setReg_lt (s : State) (i : Nat) {v : Nat} (h : v < 2 ^ 64) : (s.setReg i v).reg i = v := by
  rw [State.reg_setReg, Nat.mod_eq_of_lt h]

/-! ### The tick -/

/-- The frame's number at a tick (R78). -/
def State.nextFrame (s : State) : Nat := if s.frameRunning then s.frameNo + 1 else 0

/-- The classes due at a tick index, as DUE shows them (R82). -/
def State.dueBits (s : State) (m : Nat) : Nat := (List.range 4).foldl (fun v k => v + b2n (s.dueAt m k) * 2 ^ k) 0

theorem bitOf_sum (b : Nat → Bool) {k : Nat} (hk : k < 4) :
    bitOf ((List.range 4).foldl (fun v k => v + b2n (b k) * 2 ^ k) 0 % 2 ^ 4) k = b k := by
  have small : ∀ b0 b1 b2 b3 : Bool, ∀ k < 4,
      bitOf ((0 + b2n b0 * 2 ^ 0 + b2n b1 * 2 ^ 1 + b2n b2 * 2 ^ 2 + b2n b3 * 2 ^ 3) % 2 ^ 4) k = [b0, b1, b2, b3].getD k false := by
    decide
  rw [show List.range 4 = [0, 1, 2, 3] from rfl]
  refine (small (b 0) (b 1) (b 2) (b 3) k hk).trans ?_
  match k with
  | 0 | 1 | 2 | 3 => rfl

/-- The registers that a tick writes, on a state. -/
def State.tickWritten (s : State) (n t due : Nat) : State :=
  ((((s.setReg Rg.FRM_NUMBER n).setReg Rg.FRM_TICK_TIME t).set Fd.FRM_STAT.RUNNING 1).set Fd.FRM_STAT.PHASE 1).set Fd.FRM_STAT.DUE due

theorem State.tickStart_regs (s : State) (t : Nat) :
    (s.tickStart t).regs = ((s.atTime t).tickWritten s.nextFrame t (s.dueBits (s.tickIndex t))).regs := rfl

theorem State.tickWritten_frameNo (s : State) {n : Nat} (t due : Nat) (hn : n < 2 ^ 64) : (s.tickWritten n t due).frameNo = n := by
  unfold State.frameNo State.tickWritten
  rw [State.reg_set_ne, State.reg_set_ne, State.reg_set_ne, State.reg_setReg_ne, State.reg_setReg_lt _ _ hn] <;> decide

theorem State.tickWritten_tickTime (s : State) (n : Nat) {t : Nat} (due : Nat) (ht : t < 2 ^ 64) : (s.tickWritten n t due).tickTime = t := by
  unfold State.tickTime State.tickWritten
  rw [State.reg_set_ne, State.reg_set_ne, State.reg_set_ne, State.reg_setReg_lt _ _ ht] <;> decide

theorem State.tickWritten_phase (s : State) (n t due : Nat) : (s.tickWritten n t due).get Fd.FRM_STAT.PHASE = 1 := by
  unfold State.tickWritten
  rw [State.get_set_below, State.get_set] <;> decide

theorem State.tickWritten_running (s : State) (n t due : Nat) : (s.tickWritten n t due).frameRunning = true := by
  unfold State.frameRunning State.on State.tickWritten
  rw [State.get_set_below, State.get_set_below, State.get_set] <;> decide

theorem State.tickWritten_due (s u : State) (n t m : Nat) {k : Nat} (hk : k < 4) : (s.tickWritten n t (u.dueBits m)).due k = u.dueAt m k := by
  unfold State.due State.tickWritten
  rw [State.get_set _ _ _ (by decide) (by decide)]
  exact bitOf_sum (u.dueAt m) hk

theorem State.tick_of_mayTick (hs : s.frame.stopped = false) (hm : s.mayTick = true) :
    s.tick = (s.tickStart s.nextTick).tickRest s.nextTick := by
  unfold State.tick
  rw [hs, hm]
  rfl

/-- Settles O6: each part of a tick in turn, over the groves for the fields that it sets. -/
theorem tickBeginsAFrame : Obligations.TickBeginsAFrame := by
  unfold Obligations.TickBeginsAFrame
  intro s hstop hmay ht hn u
  have hr : u.regs = _ := s.tickStart_regs s.nextTick
  have hnext : s.nextFrame < 2 ^ 64 := by unfold State.nextFrame; split <;> omega
  refine ⟨?number, ?time, rfl, ?phase, ?running, fun k hk => ?due, rfl, fun x => rfl, rfl, rfl, rfl, u.tickRest s.nextTick, ?tick, rfl⟩
  case number => exact (State.reg_of_regs hr _).trans (State.tickWritten_frameNo _ _ _ hnext)
  case time => exact (State.reg_of_regs hr _).trans (State.tickWritten_tickTime _ _ _ ht)
  case phase => rw [State.get_of_regs hr, State.tickWritten_phase]
  case running => unfold State.frameRunning State.on; rw [State.get_of_regs hr]; exact State.tickWritten_running ..
  case due => unfold State.due; rw [State.get_of_regs hr]; exact State.tickWritten_due _ s _ _ _ hk
  case tick => exact congrArg Host.Outcome.next (State.tick_of_mayTick hstop hmay)

/-! ### The ends of the sweep, of compute and of a grove's staging -/

/-- A register after the same value has been written to a list of registers. -/
theorem State.reg_each_setReg {α : Type} (s : State) (l : List α) (a : α → Nat) (v i : Nat) :
    (s.each l fun s x => s.setReg (a x) v).reg i = if i ∈ l.map a then v % 2 ^ 64 else s.reg i := by
  unfold State.each
  induction l generalizing s with
  | nil => rfl
  | cons x l ih =>
    rw [List.foldl_cons, ih, List.map_cons]
    by_cases hl : i ∈ l.map a
    · rw [if_pos hl, if_pos (List.mem_cons_of_mem _ hl)]
    · rw [if_neg hl]
      by_cases hx : i = a x
      · rw [if_pos (hx ▸ List.mem_cons_self), hx, State.reg_setReg]
      · rw [if_neg (by simp [hx, hl]), State.reg_setReg_ne _ _ (Ne.symm hx)]

theorem State.msix_frame (s : State) (f v : Nat) : (s.msix f v).frame = s.frame := by
  unfold State.msix
  extract_lets x
  split <;> rfl

theorem State.mirrorSignal_frame (s : State) : s.mirrorSignal.frame = s.frame := by
  unfold State.mirrorSignal
  split
  · exact State.msix_frame ..
  · rfl

theorem State.each_setReg_frame {α : Type} (s : State) (l : List α) (a : α → Nat) (v : Nat) :
    (s.each l fun s x => s.setReg (a x) v).frame = s.frame := by
  unfold State.each
  induction l generalizing s with
  | nil => rfl
  | cons x l ih => exact ih _

/-- The state at E(n), its time recorded. -/
def State.sweepTime (s : State) : State :=
  ((s.atTime (s.tickTime + clocksNs s.frame.sweepClk)).modFrame fun f =>
    { f with eTime := some (s.tickTime + clocksNs s.frame.sweepClk) }).mirrorSignal

/-- The barrier flags and the sweep's own flag go. -/
def State.sweepCleared (s : State) : State :=
  ((s.each (List.range 8) fun s w => s.setReg (Rg.LE_BARRIER w) 0).modLoop fun x => { x with flagTime := [] }).lower Fd.SE_STAT.SWEEPING

theorem State.sweepRegs_eq (s : State) : s.sweepRegs =
    ((s.sweepTime.sweepCleared.setReg Rg.SE_SWEPT_LAST s.sweepTime.sweepCleared.frame.swept).setMax Fd.FRM_SWEEP_MAX.NS
      (clocksNs s.frame.sweepClk)).set Fd.FRM_STAT.PHASE 2 := rfl

theorem State.sweepTime_frame (s : State) :
    s.sweepTime.frame = { s.frame with eTime := some (s.tickTime + clocksNs s.frame.sweepClk) } := State.mirrorSignal_frame _

theorem State.sweepCleared_frame (s : State) : s.sweepCleared.frame = s.frame := by
  unfold State.sweepCleared State.lower
  rw [State.set_frame, State.modLoop_frame, State.each_setReg_frame]

theorem State.sweepRegs_frame (s : State) :
    s.sweepRegs.frame = { s.frame with eTime := some (s.tickTime + clocksNs s.frame.sweepClk) } := by
  rw [State.sweepRegs_eq, State.set_frame, State.setMax, State.set_frame, State.setReg_frame, State.sweepCleared_frame,
    State.sweepTime_frame]

theorem State.sweepRegs_phase (s : State) : s.sweepRegs.get Fd.FRM_STAT.PHASE = 2 := by
  rw [State.sweepRegs_eq, State.get_set] <;> decide

theorem State.sweepRegs_swept (s : State) (h : s.frame.swept < 2 ^ 64) : s.sweepRegs.reg Rg.SE_SWEPT_LAST = s.frame.swept := by
  have hf : s.sweepTime.sweepCleared.frame.swept = s.frame.swept := by rw [State.sweepCleared_frame, State.sweepTime_frame]
  rw [State.sweepRegs_eq, State.reg_set_ne _ _ (by decide), State.setMax, State.reg_set_ne _ _ (by decide), hf, State.reg_setReg_lt _ _ h]

theorem State.sweepCleared_barrier (s : State) {w : Nat} (hw : w < 8) : s.sweepCleared.reg (Rg.LE_BARRIER w) = 0 := by
  have hne : Fd.SE_STAT.SWEEPING.off ≠ Rg.LE_BARRIER w := by
    simp only [Fd.SE_STAT.SWEEPING, Rg.SE_STAT, Rg.LE_BARRIER]; omega
  have hmem : Rg.LE_BARRIER w ∈ (List.range 8).map Rg.LE_BARRIER := List.mem_map.mpr ⟨w, List.mem_range.mpr hw, rfl⟩
  unfold State.sweepCleared State.lower
  rw [State.reg_set_ne _ _ hne, State.modLoop_reg, State.reg_each_setReg, if_pos hmem] <;> rfl

theorem State.sweepRegs_barrier (s : State) {w : Nat} (hw : w < 8) : s.sweepRegs.reg (Rg.LE_BARRIER w) = 0 := by
  have hne {i : Nat} (hi : i < 0xc000000) : i ≠ Rg.LE_BARRIER w := by unfold Rg.LE_BARRIER; omega
  rw [State.sweepRegs_eq, State.reg_set_ne _ _ (hne (by decide)), State.setMax, State.reg_set_ne _ _ (hne (by decide)),
    State.reg_setReg_ne _ _ (hne (by decide)), State.sweepCleared_barrier _ hw]

theorem State.sweepEnd_of_running (hr : s.frameRunning = true) (he : s.frame.eTime = none) (hd : s.frame.decided = false) :
    s.sweepEnd = s.sweepRegs.beginCompute := by
  unfold State.sweepEnd
  rw [hr, he, hd]
  rfl

theorem State.stagingEnd_of_staging {g : Nat} (h : (s.grv g).staging = true) :
    s.stagingEnd g = ((s.committed g).track g false).freezePoint g := by
  unfold State.stagingEnd
  rw [h]
  rfl

/-- Has a grove neither committed nor reached its freeze point? -/
def State.isLate (s : State) (g : Nat) : Bool := (s.grv g).sTime.isNone && !(s.grv g).freezing

theorem State.isLate_iff {g : Nat} : s.isLate g = true ↔ (s.grv g).sTime = none ∧ (s.grv g).freezing = false := by simp [State.isLate]

/-- The state at D(n), its phase shown. -/
def State.deadlineState (s : State) : State :=
  ((s.atTime s.deadline).set Fd.FRM_STAT.PHASE 3).modFrame fun f => { f with decided := true }

/-- What is decided at D(n) = `d` (R104, R105, R108). -/
def State.deadlineOutcome (u : State) (d : Nat) : State :=
  let late := u.runningGroves.filter u.isLate
  let ends := u.runningGroves.filterMap fun g => (u.grv g).sTime
  let v := u.each u.runningGroves fun s g => if late.contains g then s.overrun g else s.lower (Fd.FRM_GRV_STAT.CONSEC g)
  if !late.isEmpty then v.setReg Rg.FRM_SLACK_MIN 0
  else if ends.isEmpty then v
  else v.setReg Rg.FRM_SLACK_MIN (min (v.reg Rg.FRM_SLACK_MIN) (d - maxL ends))

theorem State.deadlineDecide_of_running (hr : s.frameRunning = true) (he : s.frame.eTime.isSome = true) (hd : s.frame.decided = false) :
    s.deadlineDecide = s.deadlineState.deadlineOutcome s.deadline := by
  have hstart : (!s.frameRunning || s.frame.decided || s.frame.eTime.isNone) = false := by
    rw [hr, hd, ← Option.not_isSome, he]; rfl
  unfold State.deadlineDecide
  rw [hstart]
  rfl

/-- The groves one after another: an overrun, or CONSEC begins again. -/
theorem State.each_overrun_eq (u : State) :
    (u.each u.runningGroves fun s g => if (u.runningGroves.filter u.isLate).contains g then s.overrun g
      else s.lower (Fd.FRM_GRV_STAT.CONSEC g)) =
    u.runningGroves.foldl (fun t g => if (u.grv g).sTime = none ∧ (u.grv g).freezing = false then t.overrun g
      else t.set (Fd.FRM_GRV_STAT.CONSEC g) 0) u := by
  refine foldl_congr_of_mem (fun t g hg => ?_) u
  have hlate : (u.runningGroves.filter u.isLate).contains g = true ↔ (u.grv g).sTime = none ∧ (u.grv g).freezing = false := by
    rw [List.contains_iff_mem, List.mem_filter, State.isLate_iff, and_iff_right hg]
  exact ite_of_iff hlate rfl rfl

theorem State.deadlineOutcome_eq (u : State) (d : Nat) :
    u.deadlineOutcome d =
      let late (g : Nat) : Prop := (u.grv g).sTime = none ∧ (u.grv g).freezing = false
      let v := u.runningGroves.foldl (fun t g => if late g then t.overrun g else t.set (Fd.FRM_GRV_STAT.CONSEC g) 0) u
      let ends := u.runningGroves.filterMap fun g => (u.grv g).sTime
      if ∃ g ∈ u.runningGroves, late g then v.setReg Rg.FRM_SLACK_MIN 0
      else if ends = [] then v else v.setReg Rg.FRM_SLACK_MIN (min (v.reg Rg.FRM_SLACK_MIN) (d - maxL ends)) := by
  have hsome : (!(u.runningGroves.filter u.isLate).isEmpty) = true ↔
      ∃ g ∈ u.runningGroves, (u.grv g).sTime = none ∧ (u.grv g).freezing = false := by
    rw [Bool.not_eq_true', List.isEmpty_eq_false_iff_exists_mem]
    simp only [List.mem_filter, State.isLate_iff]
  unfold State.deadlineOutcome
  dsimp only
  rw [State.each_overrun_eq]
  exact ite_of_iff hsome rfl (ite_of_iff List.isEmpty_iff rfl rfl)

/-- Settles O7: the sweep end, the deadline and the end of a staging, each with the fold over the groves that it makes. -/
theorem framePhasesEnd : Obligations.FramePhasesEnd := by
  unfold Obligations.FramePhasesEnd
  refine ⟨fun s hr he hd hs => ?sweep, fun s hr he hd => ?deadline, fun s g hg => ?staging⟩
  case sweep =>
    exact ⟨s.sweepRegs_phase, s.sweepRegs_swept hs, fun w hw => s.sweepRegs_barrier hw, by rw [s.sweepRegs_frame], _,
      congrArg Host.Outcome.next (State.sweepEnd_of_running hr he hd), rfl⟩
  case deadline =>
    intro u late v ends
    exact congrArg Host.Outcome.next ((State.deadlineDecide_of_running hr he hd).trans (State.deadlineOutcome_eq u s.deadline))
  case staging => exact ⟨_, congrArg Host.Outcome.next (State.stagingEnd_of_staging hg), rfl⟩

end Sys2Proof.Machine
end

section
/-! The budgets of tasks, the release of templates and the control registers of the frame controller (3.1, 3.6, 3.7, 6.4). -/

namespace Sys2Proof.Machine

variable {s : State} {r : Requester}

/-! ### A grove's entry changes -/

theorem State.modGrv_cases (s : State) (g : Nat) (f : GroveSt → GroveSt) : ∃ gs, s.modGrv g f = { s with groves := gs } := by
  unfold State.modGrv
  split
  · exact ⟨_, rfl⟩
  · exact ⟨s.groves, rfl⟩

@[simp] theorem State.modGrv_regs (s : State) (g : Nat) (f : GroveSt → GroveSt) : (s.modGrv g f).regs = s.regs := by
  obtain ⟨gs, e⟩ := s.modGrv_cases g f; rw [e]

@[simp] theorem State.modGrv_mem (s : State) (g : Nat) (f : GroveSt → GroveSt) : (s.modGrv g f).mem = s.mem := by
  obtain ⟨gs, e⟩ := s.modGrv_cases g f; rw [e]

@[simp] theorem State.modGrv_cores (s : State) (g : Nat) (f : GroveSt → GroveSt) : (s.modGrv g f).cores = s.cores := by
  obtain ⟨gs, e⟩ := s.modGrv_cases g f; rw [e]

@[simp] theorem State.modGrv_loop (s : State) (g : Nat) (f : GroveSt → GroveSt) : (s.modGrv g f).loop = s.loop := by
  obtain ⟨gs, e⟩ := s.modGrv_cases g f; rw [e]

@[simp] theorem State.modGrv_get (s : State) (g : Nat) (f : GroveSt → GroveSt) (fd : Fld) : (s.modGrv g f).get fd = s.get fd :=
  State.get_of_regs (s.modGrv_regs g f) fd

theorem State.grv?_modGrv_of_some {g : Nat} {x : GroveSt} (f : GroveSt → GroveSt) (h : s.grv? g = some x) :
    (s.modGrv g f).grv? g = some (f x) := by
  unfold State.modGrv
  rw [h]
  exact (State.grv?_setGrv s g g (f x)).trans (if_pos rfl)

/-! ### Writes that reach their register -/

/-- A command whose meaning is a register write has its effect on the state in which the access is accepted. -/
theorem answers_of_admitted {c : Instr} {off n : Nat} {f : State → State} {P : State → Prop} (ha : Admitted s r off n)
    (hrow : exec c s = .next (s.regWriteAt r off n f)) (hp : P (f (accepted s r))) : Answers c s P :=
  ⟨f (accepted s r), hrow.trans (congrArg Host.Outcome.next (s.regWriteAt_of r f ha.1 ha.2)), hp⟩

theorem accepted_regs (s : State) (r : Requester) : (accepted s r).regs = s.regs := by simp [accepted]

theorem accepted_get (s : State) (r : Requester) (f : Fld) : (accepted s r).get f = s.get f := State.get_of_regs (accepted_regs s r) f

theorem accepted_reg (s : State) (r : Requester) (i : Nat) : (accepted s r).reg i = s.reg i := State.reg_of_regs (accepted_regs s r) i

/-! ### Budgets and releases -/

theorem State.invalidatingWrite_frame (s : State) (a : Nat) (bs : List Byte) : (s.invalidatingWrite a bs).frame = s.frame := by
  unfold State.invalidatingWrite
  extract_lets u
  have hu : u.uncached = s.uncached := State.each_uncached _ _ _ fun v line => by simp
  exact congrArg (fun p => p.1.frame) hu

theorem State.saveTask_frame (s : State) (c : Nat) : (s.saveTask c).frame = s.frame := by
  unfold State.saveTask State.saveCtx
  split
  · exact State.invalidatingWrite_frame ..
  · rfl

theorem State.budgetOut_ranOut {c i : Nat} {t : Task} (h : s.frame.tasks[i]? = some t) :
    ((s.budgetOut c i t).frame.tasks[i]?.map (·.ranOut)) = some true := by
  unfold State.budgetOut State.raise
  rw [State.set_frame]
  show ((State.frame _).tasks.modify i fun t => { t with ranOut := true })[i]?.map (·.ranOut) = some true
  rw [State.saveTask_frame, List.getElem?_modify_eq, State.atTime_frame, h]
  rfl

theorem State.budgetOut_budgetExp (s : State) (c i : Nat) (t : Task) : (s.budgetOut c i t).get (Fd.FRM_GRV_STAT.BUDGET_EXP t.grove) = 1 := by
  unfold State.budgetOut State.raise
  rw [State.get_set] <;> exact of_decide_eq_true rfl

theorem State.budgetExpiry_of_task {c i : Nat} {t : Task} (hc : (s.core c).task = some i) (ht : s.frame.tasks[i]? = some t) :
    s.budgetExpiry c = ((s.budgetOut c i t).pulse ((s.budgetOut c i t).get Fd.FRM_IRQ_SRC.OVR_BASE + 64 + t.grove)).nextWork c := by
  unfold State.budgetExpiry
  simp only [hc, ht]

theorem State.templateRelease_of_due {p : Nat} (h : s.releaseDue p = true) :
    s.templateRelease p =
      let u := (s.atTime (s.releaseFrame.2.1 + s.get (Fd.FP_PORT_OFS.OFS_NS p))).modPort p fun x => { x with released := some s.releaseFrame.1 }
      u.each (u.field.templates.filter fun e => e.2.port == p && u.dueAt s.releaseFrame.2.2 e.2.cls) fun t e =>
        t.releaseTemplate s.releaseFrame.1 e.1 e.2 := by
  unfold State.templateRelease
  rw [h]
  rfl

/-! ### Fail-safe -/

theorem State.releaseArm_of_failsafe {g : Nat} (h : s.failsafe g = true) :
    s.releaseArm g = (s.set (Fd.FRM_GRV_STAT.RELEASE_ARMED g) 1).modGrv g fun x =>
      { x with relTime := if x.relTime.isSome then x.relTime else some s.now } := by
  unfold State.releaseArm
  rw [if_pos h]
  rfl

theorem State.fsAny_of_failsafe {g : Nat} (hg : g < 64) (h : s.failsafe g = true) : s.fsAny = s.set Fd.FRM_STAT.FS_ANY 1 := by
  have hany : ((List.range 64).any fun g => s.failsafe g) = true := List.any_eq_true.mpr ⟨g, List.mem_range.mpr hg, h⟩
  unfold State.fsAny
  rw [hany]
  rfl

/-- The grove's own flags when it enters fail-safe. -/
def State.failsafeFlags (s : State) (g : Nat) : State := (s.set (Fd.FRM_GRV_STAT.FAILSAFE g) 1).set (Fd.FRM_GRV_STAT.RELEASE_ARMED g) 0

theorem State.failsafeFlags_get (s : State) (g : Nat) :
    (s.failsafeFlags g).get (Fd.FRM_GRV_STAT.FAILSAFE g) = 1 ∧ (s.failsafeFlags g).get (Fd.FRM_GRV_STAT.RELEASE_ARMED g) = 0 := by
  unfold State.failsafeFlags
  constructor
  · have hoff : (Fd.FRM_GRV_STAT.RELEASE_ARMED g).off = (Fd.FRM_GRV_STAT.FAILSAFE g).off := rfl
    rw [State.get_set_below _ _ hoff, State.get_set] <;> exact of_decide_eq_true rfl
  · rw [State.get_set] <;> exact of_decide_eq_true rfl

theorem State.failsafe_failsafeFlags (s : State) (g : Nat) : (s.failsafeFlags g).failsafe g = true := by
  unfold State.failsafe State.on
  rw [(s.failsafeFlags_get g).1]
  rfl

theorem State.forceFs_regs (s : State) {g : Nat} (hg : g < 64) :
    (s.forceFs g).regs = ((s.failsafeFlags g).set Fd.FRM_STAT.FS_ANY 1).regs := by
  unfold State.forceFs State.enterFailsafe
  rw [State.modGrv_regs, State.modGrv_regs]
  exact congrArg State.regs (State.fsAny_of_failsafe hg (s.failsafe_failsafeFlags g))

theorem State.forceFs_get (s : State) {g : Nat} (hg : g < 64) :
    (s.forceFs g).failsafe g = true ∧ (s.forceFs g).get (Fd.FRM_GRV_STAT.RELEASE_ARMED g) = 0 ∧ (s.forceFs g).get Fd.FRM_STAT.FS_ANY = 1 := by
  have hne : Rg.FRM_STAT ≠ Rg.FRM_GRV_STAT g := by unfold Rg.FRM_STAT Rg.FRM_GRV_STAT; omega
  have apart {f : Fld} (hf : Rg.FRM_GRV_STAT g = f.off) : (s.forceFs g).get f = (s.failsafeFlags g).get f := by
    rw [State.get_of_regs (s.forceFs_regs hg)]
    exact State.get_set_ne _ _ (hf ▸ hne)
  obtain ⟨hfs, harm⟩ := s.failsafeFlags_get g
  refine ⟨?_, (apart rfl).trans harm, ?_⟩
  · unfold State.failsafe State.on
    rw [apart rfl, hfs]
    rfl
  · rw [State.get_of_regs (s.forceFs_regs hg), State.get_set] <;> decide

theorem State.forceFs_rest (s : State) (g : Nat) :
    (s.forceFs g).mem = s.mem ∧ (s.forceFs g).cores = s.cores ∧ (s.forceFs g).loop = s.loop := by
  simp [State.forceFs, State.enterFailsafe, State.fsAny, State.raise, State.lower]

/-! ### The frame control register -/

theorem State.ovrCntClr_reg (s : State) (i : Nat) :
    s.ovrCntClr.reg i = if i = Rg.FRM_OVR_CNT ∨ i ∈ (List.range 64).map Rg.FRM_GRV_OVR_CNT then 0 else s.reg i := by
  unfold State.ovrCntClr
  by_cases hi : i = Rg.FRM_OVR_CNT
  · rw [if_pos (.inl hi), hi, State.reg_setReg] <;> rfl
  · rw [State.reg_setReg_ne _ _ (Ne.symm hi), State.reg_each_setReg]
    simp [hi]

theorem State.ovrCntClr_rest (s : State) : s.ovrCntClr.mem = s.mem ∧ s.ovrCntClr.groves = s.groves := by
  have each (l : List Nat) (t : State) : ((t.each l fun s g => s.setReg (Rg.FRM_GRV_OVR_CNT g) 0).mem,
      (t.each l fun s g => s.setReg (Rg.FRM_GRV_OVR_CNT g) 0).groves) = (t.mem, t.groves) := by
    unfold State.each
    induction l generalizing t with
    | nil => rfl
    | cons g l ih => exact ih _
  exact Prod.ext_iff.mp (each (List.range 64) s)

/-- Settles O8: each row by what its operation does on the state in which the write is accepted. -/
theorem frameControls : Obligations.FrameControls := by
  unfold Obligations.FrameControls
  refine ⟨⟨fun s c i t hc ht hg => ?budget, fun s p hp => ?release⟩, fun s r g => ⟨fun ha hf => ?arm, fun ha => ?force, fun ha hn => ?snap,
    fun ha => ?ovr, fun ha => ?stats⟩⟩
  case budget =>
    exact ⟨s.budgetOut_budgetExp .., State.budgetOut_ranOut ht, _, congrArg Host.Outcome.next (State.budgetExpiry_of_task hc ht), rfl⟩
  case release => exact ⟨_, congrArg Host.Outcome.next (State.templateRelease_of_due hp), rfl⟩
  case arm =>
    refine answers_of_admitted ha rfl ?_
    have hfs : (accepted s r).failsafe g.val = true := by unfold State.failsafe State.on; rw [accepted_get]; exact hf
    rw [State.releaseArm_of_failsafe hfs]
    refine ⟨?get, fun x hx => ?grv, fun f hne => ?other, ?rest⟩
    case get => rw [State.modGrv_get, State.get_set] <;> exact of_decide_eq_true rfl
    case grv =>
      rw [State.grv?_modGrv_of_some (x := x) _ (by simpa [accepted] using hx)]
      cases x.relTime <;> simp [accepted]
    case other => rw [State.modGrv_get, State.get_set_ne _ _ (Ne.symm hne), accepted_get]
    case rest => simp [accepted]
  case force =>
    refine answers_of_admitted ha rfl ?_
    obtain ⟨hfs, harm, hany⟩ := (accepted s r).forceFs_get g.isLt
    obtain ⟨hmem, hcores, hloop⟩ := (accepted s r).forceFs_rest g.val
    exact ⟨hfs, harm, hany, by simpa [accepted] using hmem, by simpa [accepted] using hcores, by simpa [accepted] using hloop⟩
  case snap =>
    refine answers_of_admitted ha rfl ?_
    have hno : (accepted s r).frameNo = s.frameNo := accepted_reg ..
    have hnow : (accepted s r).now = s.now := by simp [accepted]
    unfold State.frameSnap
    rw [hno, hnow]
    refine ⟨?time, State.reg_setReg_lt _ _ (s.reg_lt _), fun i ht hn => ?other, by simp [accepted], by simp [accepted], by simp [accepted]⟩
    case time => rw [State.reg_setReg_ne _ _ (by decide), State.reg_setReg_lt _ _ hn]
    case other => rw [State.reg_setReg_ne _ _ (Ne.symm hn), State.reg_setReg_ne _ _ (Ne.symm ht), accepted_reg]
  case ovr =>
    refine answers_of_admitted ha rfl ?_
    obtain ⟨hmem, hgrv⟩ := (accepted s r).ovrCntClr_rest
    refine ⟨?cnt, fun k hk => ?grove, fun i hi hg => ?other, by simpa [accepted] using hmem, by simpa [accepted] using hgrv⟩
    case cnt => rw [State.ovrCntClr_reg, if_pos (.inl rfl)]
    case grove => rw [State.ovrCntClr_reg, if_pos (.inr (List.mem_map_of_mem (List.mem_range.mpr hk)))]
    case other =>
      have hno : ¬ (i = Rg.FRM_OVR_CNT ∨ i ∈ (List.range 64).map Rg.FRM_GRV_OVR_CNT) := by
        rintro (h | h)
        · exact hi h
        · obtain ⟨k, hk, rfl⟩ := List.mem_map.mp h
          exact hg k (List.mem_range.mp hk) rfl
      rw [State.ovrCntClr_reg, if_neg hno, accepted_reg]
  case stats =>
    refine answers_of_admitted ha rfl ?_
    unfold State.statsClr
    refine ⟨?sweep, State.reg_setReg_lt _ _ (by decide), fun i hs hm => ?other, by simp [accepted], by simp [accepted]⟩
    case sweep => rw [State.reg_setReg_ne _ _ (by decide), State.reg_setReg] <;> rfl
    case other => rw [State.reg_setReg_ne _ _ (Ne.symm hm), State.reg_setReg_ne _ _ (Ne.symm hs), accepted_reg]

end Sys2Proof.Machine
end

section
/-! A slot that fails, the boot pointer's copies, and the end of a staging (2.2, 2.6-2.9). -/

namespace Sys2Proof.Machine

variable {s : State}

/-! ### A slot that fails -/

theorem State.reg_each_setReg_ne {α : Type} (s : State) (l : List α) (a v : α → Nat) {i : Nat} (h : ∀ x ∈ l, a x ≠ i) :
    (s.each l fun s x => s.setReg (a x) (v x)).reg i = s.reg i := by
  unfold State.each
  induction l generalizing s with
  | nil => rfl
  | cons x l ih =>
    obtain ⟨hx, hl⟩ := List.forall_mem_cons.mp h
    rw [List.foldl_cons, ih _ hl, State.reg_setReg_ne _ _ hx]

/-- A register of a unit that no section is loaded into stands through the clearing of what has been loaded. -/
theorem State.reg_unload (s : State) {i : Nat} (h : notLoaded i = true) : s.unload.reg i = s.reg i := by
  unfold State.unload
  extract_lets u
  have kept : ∀ e ∈ resetRegs.filter fun e => !notLoaded e.1, e.1 ≠ i := fun e he hi => by
    have := (List.mem_filter.mp he).2
    rw [hi, h] at this
    cases this
  have hreset := u.reg_each_setReg_ne (resetRegs.filter fun e => !notLoaded e.1) (fun e => e.1) (fun e => e.2.toNat) kept
  rw [State.modStart_reg, hreset]
  unfold State.reg mapGet
  rw [mapGet?_filter_ne (p := notLoaded) h]

/-- Two fields of a register, the lower one written first. -/
theorem State.get_set_set (s : State) {f g : Fld} (v w : Nat) (ho : g.off = f.off) (hf : f.hi < g.lo ∧ f.lo ≤ f.hi + 1)
    (hg : g.hi < 64 ∧ g.lo ≤ g.hi + 1) :
    ((s.set f v).set g w).get f = v % 2 ^ (f.hi + 1 - f.lo) ∧ ((s.set f v).set g w).get g = w % 2 ^ (g.hi + 1 - g.lo) := by
  refine ⟨?_, State.get_set _ g w hg.1 hg.2⟩
  rw [State.get_set_below _ w ho hg.1 hg.2 hf.1 hf.2, State.get_set s f v (by omega) hf.2]

/-- The cause and the detail of a slot's failure, as `CFG_CAUSE` records them (R66). -/
def State.slotCause (s : State) (slot c d : Nat) : State :=
  if slot == 0 then (s.set Fd.CFG_CAUSE.CAUSE_A c).set Fd.CFG_CAUSE.DETAIL_A d
  else (s.set Fd.CFG_CAUSE.CAUSE_B c).set Fd.CFG_CAUSE.DETAIL_B d

/-- The state in which the device decides what follows a slot's failure. -/
def State.slotRejected (s : State) (c d : Nat) : State :=
  ((s.slotCause s.start.slot c d).audit 0x0002 (s.start.slot + 256 * c) d).unload

theorem State.slotFails_eq (s : State) (c d : Nat) : s.slotFails (c, d) =
    if (s.slotRejected c d).start.tried.contains (1 - s.start.slot) then (s.slotRejected c d).safeHold
    else (s.slotRejected c d).modStart fun x =>
      { x with phase := .reading, slot := 1 - s.start.slot, tried := s.start.slot :: x.tried, readOff := 0, readFails := 0, badReads := [] } :=
  rfl

theorem State.unload_mem (s : State) : s.unload.mem = [] ∧ s.unload.groves = [] := by
  have each (l : Table Word) (t : State) : ((t.each l fun t e => t.setReg e.1 e.2.toNat).mem, (t.each l fun t e => t.setReg e.1 e.2.toNat).groves) =
      (t.mem, t.groves) := by
    unfold State.each
    induction l generalizing t with
    | nil => rfl
    | cons e l ih => exact ih _
  unfold State.unload
  extract_lets u
  exact Prod.ext_iff.mp (each _ u)

theorem State.reg_audit (s : State) (event arg0 arg1 : Nat) (data : List Byte) {i : Nat} (h : Rg.HWD_AUDIT_SEQ ≠ i) :
    (s.audit event arg0 arg1 data).reg i = s.reg i := by
  unfold State.audit
  rw [State.reg_set_ne _ _ h, State.modSec_reg]

theorem State.get_slotRejected (s : State) (c d : Nat) {f : Fld} (hf : f.off = Rg.CFG_CAUSE) :
    (s.slotRejected c d).get f = (s.slotCause s.start.slot c d).get f := by
  have hreg : (s.slotRejected c d).reg Rg.CFG_CAUSE = (s.slotCause s.start.slot c d).reg Rg.CFG_CAUSE :=
    (State.reg_unload _ (by decide)).trans (State.reg_audit _ _ _ _ _ (by decide))
  unfold State.get
  rw [hf, hreg]

theorem State.slotRejected_tried (s : State) (c d : Nat) : (s.slotRejected c d).start.tried = s.start.tried := by
  unfold State.slotRejected State.slotCause
  rw [State.unload_start, State.audit_start]
  split <;> rw [State.set_start, State.set_start]

/-- What `CFG_CAUSE` shows of a slot that has failed. -/
theorem State.slotRejected_cause (s : State) {c d : Nat} (hc : c < 256) (hd : d < 2 ^ 24) :
    (s.start.slot = 0 → (s.slotRejected c d).get Fd.CFG_CAUSE.CAUSE_A = c ∧ (s.slotRejected c d).get Fd.CFG_CAUSE.DETAIL_A = d) ∧
    (s.start.slot = 1 → (s.slotRejected c d).get Fd.CFG_CAUSE.CAUSE_B = c ∧ (s.slotRejected c d).get Fd.CFG_CAUSE.DETAIL_B = d) := by
  rw [s.get_slotRejected c d (f := Fd.CFG_CAUSE.CAUSE_A) rfl, s.get_slotRejected c d (f := Fd.CFG_CAUSE.DETAIL_A) rfl,
    s.get_slotRejected c d (f := Fd.CFG_CAUSE.CAUSE_B) rfl, s.get_slotRejected c d (f := Fd.CFG_CAUSE.DETAIL_B) rfl]
  refine ⟨fun h => ?_, fun h => ?_⟩
  · obtain ⟨h1, h2⟩ := s.get_set_set (f := Fd.CFG_CAUSE.CAUSE_A) (g := Fd.CFG_CAUSE.DETAIL_A) c d rfl (by decide) (by decide)
    have hs : s.slotCause s.start.slot c d = (s.set Fd.CFG_CAUSE.CAUSE_A c).set Fd.CFG_CAUSE.DETAIL_A d := by
      unfold State.slotCause; rw [h]; rfl
    rw [hs]
    exact ⟨h1.trans (Nat.mod_eq_of_lt hc), h2.trans (Nat.mod_eq_of_lt hd)⟩
  · obtain ⟨h1, h2⟩ := s.get_set_set (f := Fd.CFG_CAUSE.CAUSE_B) (g := Fd.CFG_CAUSE.DETAIL_B) c d rfl (by decide) (by decide)
    have hs : s.slotCause s.start.slot c d = (s.set Fd.CFG_CAUSE.CAUSE_B c).set Fd.CFG_CAUSE.DETAIL_B d := by
      unfold State.slotCause; rw [h]; rfl
    rw [hs]
    exact ⟨h1.trans (Nat.mod_eq_of_lt hc), h2.trans (Nat.mod_eq_of_lt hd)⟩

/-- Settles O30: by whether the other slot has been tried. -/
theorem slotFallback : Obligations.SlotFallback := by
  unfold Obligations.SlotFallback
  intro s c d hc hd _
  obtain ⟨ha, hb⟩ := s.slotRejected_cause hc hd
  obtain ⟨hmem, hgrv⟩ := ((s.slotCause s.start.slot c d).audit 0x0002 (s.start.slot + 256 * c) d).unload_mem
  refine ⟨fun hn => ?untried, fun ht => ?tried⟩
  case untried =>
    have hcond : ¬ (s.slotRejected c d).start.tried.contains (1 - s.start.slot) = true := by
      rw [State.slotRejected_tried, List.contains_iff_mem]; exact hn
    rw [State.slotFails_eq, if_neg hcond]
    exact ⟨rfl, rfl, hmem, hgrv, ha, hb⟩
  case tried =>
    have hcond : (s.slotRejected c d).start.tried.contains (1 - s.start.slot) = true := by
      rw [State.slotRejected_tried, List.contains_iff_mem]; exact ht
    exact ⟨s.slotRejected c d, by rw [State.slotFails_eq, if_pos hcond], hmem, hgrv, ha, hb⟩

/-! ### The boot pointer's copies -/

theorem fieldB_append (x y z : List Byte) {off n : Nat} (hx : x.length = off) (hy : y.length = n) :
    fieldB (x ++ (y ++ z)) off n = leNat y := by
  subst hx hy
  simp [fieldB, sliceB]

theorem crcBit_lt {c : Nat} (h : c < 2 ^ 32) : crcBit c < 2 ^ 32 := by
  unfold crcBit
  split
  · exact Nat.xor_lt_two_pow (by omega) (by decide)
  · omega

theorem crcByte_lt {c : Nat} (b : Byte) (h : c < 2 ^ 32) : crcByte c b < 2 ^ 32 := by
  have hb : b.toNat < 2 ^ 32 := Nat.lt_of_lt_of_le b.isLt (by decide)
  unfold crcByte
  repeat apply crcBit_lt
  exact Nat.xor_lt_two_pow h hb

theorem crc32c_lt (bs : List Byte) : crc32c bs < 2 ^ 32 := by
  have fold (c : Nat) (h : c < 2 ^ 32) : bs.foldl crcByte c < 2 ^ 32 := by
    induction bs generalizing c with
    | nil => exact h
    | cons b bs ih => exact ih _ (crcByte_lt b h)
  exact Nat.xor_lt_two_pow (fold _ (by decide)) (by decide)

/-- The part of a boot pointer record that its checksum covers (R49). -/
def bootBody (seq slot : Nat) : List Byte := leBytes 4 0x50424A53 ++ leBytes 4 seq ++ leBytes 1 slot ++ List.replicate 19 0

theorem bootRecord_eq (seq slot : Nat) : bootRecord seq slot = bootBody seq slot ++ leBytes 4 (crc32c (bootBody seq slot)) := rfl

theorem length_bootBody (seq slot : Nat) : (bootBody seq slot).length = 28 := by simp [bootBody]

theorem length_bootRecord (seq slot : Nat) : (bootRecord seq slot).length = 32 := by simp [bootRecord_eq, length_bootBody]

/-- The record, word by word. -/
theorem bootRecord_words (seq slot : Nat) : bootRecord seq slot = leBytes 4 0x50424A53 ++ (leBytes 4 seq ++ (leBytes 1 slot ++
    (List.replicate 19 0 ++ leBytes 4 (crc32c (bootBody seq slot))))) := by
  rw [bootRecord_eq]
  generalize crc32c (bootBody seq slot) = crc
  rw [bootBody, List.append_assoc, List.append_assoc, List.append_assoc]

theorem bootRecord_magic (seq slot : Nat) : fieldB (bootRecord seq slot) 0 4 = 0x50424A53 := by
  rw [bootRecord_words, ← List.nil_append (leBytes 4 0x50424A53 ++ _), fieldB_append _ _ _ List.length_nil (length_leBytes ..)]
  exact (leNat_leBytes 4 _).trans (by decide)

theorem bootRecord_seq {seq : Nat} (slot : Nat) (h : seq < 2 ^ 32) : fieldB (bootRecord seq slot) 4 4 = seq := by
  rw [bootRecord_words, fieldB_append _ _ _ (length_leBytes ..) (length_leBytes ..)]
  exact (leNat_leBytes 4 _).trans (Nat.mod_eq_of_lt (lt_of_lt_of_eq h (by decide)))

theorem bootRecord_slot (seq : Nat) {slot : Nat} (h : slot < 2) : fieldB (bootRecord seq slot) 8 1 = slot := by
  have hlen : (leBytes 4 0x50424A53 ++ leBytes 4 seq).length = 8 := by rw [List.length_append, length_leBytes, length_leBytes]
  rw [bootRecord_words, ← List.append_assoc, fieldB_append _ _ _ hlen (length_leBytes ..)]
  exact (leNat_leBytes 1 _).trans (Nat.mod_eq_of_lt (by omega))

theorem bootRecord_crc (seq slot : Nat) : fieldB (bootRecord seq slot) 0x1C 4 = crc32c ((bootRecord seq slot).take 28) := by
  have ht : (bootRecord seq slot).take 28 = bootBody seq slot := by
    rw [bootRecord_eq, ← length_bootBody seq slot, List.take_left]
  have he : bootRecord seq slot = bootBody seq slot ++ (leBytes 4 (crc32c (bootBody seq slot)) ++ []) := by
    rw [bootRecord_eq, List.append_nil]
  rw [ht, he, fieldB_append _ _ _ (length_bootBody ..) (length_leBytes ..)]
  exact (leNat_leBytes 4 _).trans (Nat.mod_eq_of_lt (lt_of_lt_of_eq (crc32c_lt _) (by decide)))

/-- A copy that reads as a boot pointer record names what the record does. -/
theorem State.bootPtr_of_record {c seq slot : Nat} (hr : s.flashB (0x1_0000 * c) 32 = bootRecord seq slot) (hbad : s.start.badReads = [])
    (hseq : seq < 2 ^ 32) (hslot : slot < 2) : s.bootPtr c = some (seq, slot) := by
  unfold State.bootPtr
  rw [hr, hbad]
  dsimp only
  rw [bootRecord_magic, bootRecord_seq slot hseq, bootRecord_slot seq hslot, bootRecord_crc]
  simp [hslot]

/-- A copy reads the same where flash and the reads that failed are the same. -/
theorem State.bootPtr_congr {t : State} {c : Nat} (hf : t.flashB (0x1_0000 * c) 32 = s.flashB (0x1_0000 * c) 32)
    (hbad : t.start.badReads = s.start.badReads) : t.bootPtr c = s.bootPtr c := by
  unfold State.bootPtr
  rw [hf, hbad]

theorem State.writeBootPtr_of_copy {c q l : Nat} (slot : Nat) (hc : s.start.bpCopy = some c) (hb : s.bootPtr c = some (q, l)) :
    (s.writeBootPtr slot).flash = memPut 0xFF (mapClear s.flash (0x1_0000 * (1 - c)) (0x1_0000 * (1 - c) + 0x1_0000)) (0x1_0000 * (1 - c))
        (bootRecord (q + 1) slot) ∧
      (s.writeBootPtr slot).start = { s.start with bpCopy := some (1 - c), named := slot, bpWrite := none } := by
  unfold State.writeBootPtr
  simp only [hc, hb]
  exact ⟨rfl, rfl⟩

/-- R51: the copy not in use is written, the other stands. -/
theorem State.bootPtr_writeBootPtr {c q l slot : Nat} (hc : s.start.bpCopy = some c) (hlt : c < 2) (hb : s.bootPtr c = some (q, l))
    (hq : q + 1 < 2 ^ 32) (hslot : slot < 2) (hbad : s.start.badReads = []) :
    (s.writeBootPtr slot).bootPtr (1 - c) = some (q + 1, slot) ∧ (s.writeBootPtr slot).bootPtr c = some (q, l) ∧
      (s.writeBootPtr slot).start.bpCopy = some (1 - c) := by
  obtain ⟨hflash, hstart⟩ := State.writeBootPtr_of_copy slot hc hb
  have hbad' : (s.writeBootPtr slot).start.badReads = s.start.badReads := by rw [hstart]
  refine ⟨State.bootPtr_of_record ?_ (hbad'.trans hbad) hq hslot, (State.bootPtr_congr ?_ hbad').trans hb, by rw [hstart]⟩
  · unfold State.flashB
    rw [hflash, ← length_bootRecord (q + 1) slot]
    exact memBytes_memPut _
  · unfold State.flashB
    rw [hflash, memBytes_memPut_of_disjoint _ (by rw [length_bootRecord]; omega)]
    exact memBytes_congr fun i hi => mapGet_clear_out _ _ (by omega)

/-! ### The end of a staging -/

/-- The verdict on a staged image (R73). -/
def State.stagingFail (s : State) (slot : Nat) : Option SlotFail :=
  match s.check10 true slot s.start.badReads.getLast? with
  | .error f => some f
  | .ok b => check12 b

/-- A staging's image stands in its slot. -/
def State.staged (s : State) (g : Staging) : State := (s.flashPut (s.slotBase g.slot) g.image).set Fd.CFG_STAGE.BUSY 0

/-- Its end is recorded, with the cause, and the boot pointer written when there is none. -/
def State.stagingOutcome (s : State) (g : Staging) (fail : Option SlotFail) : State :=
  let id := imgId (s.storedImage g.slot)
  match fail with
  | none => ((((s.audit 0x0006 0 id).set Fd.CFG_STAGE.RESULT 0).writeBootPtr g.slot).set Fd.CFG_STAGE.PENDING 1).mbxEnd g.mailbox 0 0 0
  | some (c, d) => ((s.audit 0x0006 c id).set Fd.CFG_STAGE.RESULT c).mbxEnd g.mailbox (if c = 1 then 0x08 else 0x09) (if c = 1 then d else c) 0

/-- The same, as the model's row goes about it. -/
def State.stagingReport (s : State) (g : Staging) (fail : Option SlotFail) : State :=
  let cause := (fail.map (·.1)).getD 0
  let u := (s.audit 0x0006 cause (imgId (s.storedImage g.slot))).set Fd.CFG_STAGE.RESULT cause
  match fail with
  | none => ((u.writeBootPtr g.slot).raise Fd.CFG_STAGE.PENDING).mbxEnd g.mailbox 0 0 0
  | some (0x01, d) => u.mbxEnd g.mailbox 0x08 d 0
  | some (c, _) => u.mbxEnd g.mailbox 0x09 c 0

theorem State.stagingReport_eq (s : State) (g : Staging) (fail : Option SlotFail) : s.stagingReport g fail = s.stagingOutcome g fail := by
  rcases fail with _ | ⟨c, d⟩
  · rfl
  · by_cases hc : c = 1
    · subst hc; rfl
    · unfold State.stagingReport State.stagingOutcome
      dsimp only
      rw [if_neg hc, if_neg hc]
      split
      next h => exact absurd h (by simp)
      next h =>
        simp only [Option.some.injEq, Prod.mk.injEq] at h
        exact absurd h.1 hc
      next h =>
        simp only [Option.some.injEq, Prod.mk.injEq] at h
        rw [h.1]; rfl

theorem State.stagingEnds_of_staging {g : Staging} (h : s.start.staging = some g) :
    s.stagingEnds = ((s.staged g).modStart fun x => { x with staging := none }).stagingOutcome g ((s.staged g).stagingFail g.slot) := by
  rw [← State.stagingReport_eq]
  unfold State.stagingEnds
  rw [h]
  rfl

/-- Settles O29: the copy that is written by the pointer in use, and the three ends of a staging. -/
theorem bootPointerAndStaging : Obligations.BootPointerAndStaging := by
  unfold Obligations.BootPointerAndStaging
  refine ⟨fun s c q l slot hc hlt hb hq hslot hbad => State.bootPtr_writeBootPtr hc hlt hb hq hslot hbad, fun s g hg => ?_⟩
  exact congrArg Host.Outcome.next (State.stagingEnds_of_staging hg)

end Sys2Proof.Machine
end

section
/-! The sweep of a due tag takes its slot (4.7). -/

namespace Sys2Proof.Machine

theorem leNat_lt (bs : List Byte) : leNat bs < 256 ^ bs.length := by
  induction bs with
  | nil => exact Nat.one_pos
  | cons b bs ih =>
    have hb := b.isLt
    rw [List.length_cons, Nat.pow_succ, leNat]
    omega

@[simp] theorem length_sliceB (bs : List Byte) (off n : Nat) : (sliceB bs off n).length = n := by
  simp only [sliceB, List.length_append, List.length_take, List.length_drop, List.length_replicate]
  omega

theorem fieldB_lt (bs : List Byte) (off n : Nat) : fieldB bs off n < 256 ^ n := by
  simpa [fieldB] using leNat_lt (sliceB bs off n)

theorem Tag.value_lt (bs : List Byte) : (Tag.of bs).value < 2 ^ 64 := by
  refine Nat.lt_of_lt_of_le (fieldB_lt bs 0 _) ?_
  unfold valueSize
  split <;> decide

theorem Tag.ts_lt (bs : List Byte) : (Tag.of bs).ts < 2 ^ 64 := lt_of_lt_of_eq (fieldB_lt bs 8 8) (by decide)

theorem Tag.slot_lt (t : Tag) : t.slot < 32768 := bits_lt t.gslot 14 0

variable (s : State)

/-! ### A slot is cleared -/

theorem State.poisonedIn_of_subset {t : State} (h : ∀ w ∈ t.coh.poisoned, w ∈ s.coh.poisoned) {a n : Nat} (hn : s.poisonedIn a n = false) :
    t.poisonedIn a n = false := by
  unfold State.poisonedIn at hn ⊢
  rw [List.any_eq_false] at hn ⊢
  exact fun w hw => hn w (h w hw)

/-- An aligned write of whole words is performed and leaves no word poisoned that was not (R374). -/
theorem State.wordPut_aligned {a : Nat} {bs : List Byte} (ha : a % 8 = 0) (hb : bs.length % 8 = 0) :
    (s.wordPut a bs).mem = memPut 0 s.mem a bs ∧ ∀ w ∈ (s.wordPut a bs).coh.poisoned, w ∈ s.coh.poisoned := by
  unfold State.wordPut State.wordWrite
  rw [ha, hb]
  cases s.poisonedIn a bs.length
  · exact ⟨rfl, fun _ => id⟩
  · exact ⟨rfl, fun _ hw => (List.mem_filter.mp hw).1⟩

theorem State.wordPut_unpoisoned {a : Nat} {bs : List Byte} (h : s.poisonedIn a bs.length = false) :
    (s.wordPut a bs) = s.wrB a bs := by
  unfold State.wordPut State.wordWrite
  rw [h]
  rfl

theorem State.clearSlot_mem {half i : Nat} (h : s.poisonedIn (statusAddr half i) 4 = false) :
    (s.clearSlot half i).mem =
      memPut 0 (memPut 0 s.mem (slotAddr half i) (List.replicate 16 0)) (statusAddr half i) (List.replicate 4 0) := by
  have ha : slotAddr half i % 8 = 0 := by unfold slotAddr sramBase; omega
  obtain ⟨hm, hp⟩ := s.wordPut_aligned (bs := List.replicate 16 0) ha (by simp)
  unfold State.clearSlot
  rw [State.wordPut_unpoisoned _ (s.poisonedIn_of_subset hp (by simpa using h)), State.wrB, hm]

/-! ### The parts of a sweep -/

/-- Value and time that a sweep stores: those taken, unless there are none or the deadband keeps the old ones (R140). -/
def sweptValue (t : Tag) (tk : Taken) (q : Nat) : Nat × Nat :=
  match tk.v with
  | some v => if inDeadband t v q then (t.value, t.ts) else (v, tk.ts)
  | none => (t.value, t.ts)

theorem sweptValue_of_taken {t : Tag} {tk : Taken} {q v : Nat} (hv : tk.v = some v) (hdb : inDeadband t v q = false) :
    sweptValue t tk q = (v, tk.ts) := by
  simp [sweptValue, hv, hdb]

theorem sweptValue_of_kept {t : Tag} {tk : Taken} {q : Nat} (h : tk.v = none ∨ ∃ v, tk.v = some v ∧ inDeadband t v q = true) :
    sweptValue t tk q = (t.value, t.ts) := by
  rcases h with hv | ⟨v, hv, hdb⟩
  · simp [sweptValue, hv]
  · simp [sweptValue, hv, hdb]

/-- The alarms of a sweep. -/
def State.sweepAlarms (s : State) (i : Nat) (t : Tag) (rt : TagRt) (av : Option Nat) (value ts q : Nat) : Nat × State :=
  (List.range 8).foldl (fun (p : Nat × State) k => p.2.sweepAlarm i t rt av value ts q p.1 k) (0, s)

/-- The bytes of its record that a sweep writes. -/
def State.sweepStore (s : State) (a value ts raw q st : Nat) : State :=
  ((((s.wr a 8 value).wr (a + 8) 8 ts).wr (a + 0x10) 4 raw).wr (a + 0x18) 1 q).wr (a + 0x1B) 1 st

theorem State.sweepAlarms_mem (i : Nat) (t : Tag) (rt : TagRt) (av : Option Nat) (value ts q : Nat) :
    (s.sweepAlarms i t rt av value ts q).2.mem = s.mem := by
  have fold (l : List Nat) (p : Nat × State) :
      (l.foldl (fun (p : Nat × State) k => p.2.sweepAlarm i t rt av value ts q p.1 k) p).2.mem = p.2.mem := by
    induction l generalizing p with
    | nil => rfl
    | cons k l ih =>
      exact (ih _).trans ((State.sweepAlarm_kept (Kept.refl p.2 : Kept True True True True True True True p.2 p.2) ..).mem trivial)
  exact fold _ _

theorem State.sweepTag_eq {i : Nat} (h : (s.tag i).slotEn = true) :
    let t := s.tag i
    let tk := s.takeSlot t (s.rt i).miss (s.frameNo % 2)
    let q := combineQual tk.qin tk.qd
    let c := (s.count Fd.SE_SUPERSEDE_CNT.COUNT tk.extra).clearSlot (s.frameNo % 2) t.slot
    let p := c.sweepAlarms i t (s.rt i) tk.v (sweptValue t tk q).1 (sweptValue t tk q).2 q
    let u := p.2.sweepStore (tagAddr i) (sweptValue t tk q).1 (sweptValue t tk q).2 (tk.raw.getD t.raw) q p.1
    s.sweepTag i = u.setRt i { u.rt i with
      miss := tk.miss, changed := false, swept := true
      prev := if tk.v.isSome then BitVec.ofNat 64 (sweptValue t tk q).1 else (s.rt i).prev
      prevValid := tk.v.isSome || (s.rt i).prevValid } := by
  unfold State.sweepTag sweptValue
  simp only [h, if_true]
  rcases hv : (s.takeSlot (s.tag i) (s.rt i).miss (s.frameNo % 2)).v with _ | v <;> rfl

/-- A sweep of a tag with a slot: the slot is cleared, the alarms tested, the record written, the tag's runtime state brought up to date. -/
theorem State.sweepTag_of_slot {i : Nat} (h : (s.tag i).slotEn = true) {tk : Taken} {q : Nat}
    (htk : s.takeSlot (s.tag i) (s.rt i).miss (s.frameNo % 2) = tk) (hq : combineQual tk.qin tk.qd = q) :
    ∃ (u : State) (st : Nat) (x : TagRt),
      s.sweepTag i = (u.sweepStore (tagAddr i) (sweptValue (s.tag i) tk q).1 (sweptValue (s.tag i) tk q).2 (tk.raw.getD (s.tag i).raw) q
        st).setRt i x ∧
      u.mem = ((s.count Fd.SE_SUPERSEDE_CNT.COUNT tk.extra).clearSlot (s.frameNo % 2) (s.tag i).slot).mem ∧
      x.miss = tk.miss ∧ x.swept = true := by
  have he := s.sweepTag_eq h
  dsimp only at he
  rw [htk, hq] at he
  exact ⟨_, _, _, he, State.sweepAlarms_mem .., rfl, rfl⟩

/-! ### What the stores of a sweep read back as -/

theorem State.byte_sweepStore (a value ts raw q st : Nat) {x : Nat}
    (h : x < a ∨ a + 0x1C ≤ x ∨ (a + 0x14 ≤ x ∧ x < a + 0x18) ∨ x = a + 0x19 ∨ x = a + 0x1A) :
    (s.sweepStore a value ts raw q st).byte x = s.byte x := by
  unfold State.sweepStore
  rw [State.byte_wr_of_not_mem _ _ (by omega), State.byte_wr_of_not_mem _ _ (by omega), State.byte_wr_of_not_mem _ _ (by omega),
    State.byte_wr_of_not_mem _ _ (by omega), State.byte_wr_of_not_mem _ _ (by omega)]

theorem State.rd_sweepStore (a value ts raw q st : Nat) :
    let u := s.sweepStore a value ts raw q st
    u.rd a 8 = value % 2 ^ 64 ∧ u.rd (a + 8) 8 = ts % 2 ^ 64 ∧ u.rd (a + 0x10) 4 = raw % 2 ^ 32 ∧ u.rd (a + 0x18) 1 = q % 256 := by
  intro u
  have same (t : State) (a n v k : Nat) (hk : 256 ^ n = k) : (t.wr a n v).rd a n = v % k := by rw [State.rd_wr_same, hk]
  unfold u State.sweepStore
  refine ⟨?_, ?_, ?_, ?_⟩
  · rw [State.rd_wr_of_disjoint _ _ _ _ (by omega), State.rd_wr_of_disjoint _ _ _ _ (by omega), State.rd_wr_of_disjoint _ _ _ _ (by omega),
      State.rd_wr_of_disjoint _ _ _ _ (by omega), same _ _ _ _ (2 ^ 64) (by decide)]
  · rw [State.rd_wr_of_disjoint _ _ _ _ (by omega), State.rd_wr_of_disjoint _ _ _ _ (by omega), State.rd_wr_of_disjoint _ _ _ _ (by omega),
      same _ _ _ _ (2 ^ 64) (by decide)]
  · rw [State.rd_wr_of_disjoint _ _ _ _ (by omega), State.rd_wr_of_disjoint _ _ _ _ (by omega), same _ _ _ _ (2 ^ 32) (by decide)]
  · rw [State.rd_wr_of_disjoint _ _ _ _ (by omega), same _ _ _ _ 256 (by decide)]

theorem State.rd_sweepStore_below (a value ts raw q st : Nat) {b n : Nat} (h : b + n ≤ a) :
    (s.sweepStore a value ts raw q st).rd b n = s.rd b n := by
  unfold State.sweepStore
  rw [State.rd_wr_of_disjoint _ _ _ _ (by omega), State.rd_wr_of_disjoint _ _ _ _ (by omega), State.rd_wr_of_disjoint _ _ _ _ (by omega),
    State.rd_wr_of_disjoint _ _ _ _ (by omega), State.rd_wr_of_disjoint _ _ _ _ (by omega)]

theorem State.rd_of_mem {t : State} (h : t.mem = s.mem) (a n : Nat) : t.rd a n = s.rd a n := by
  unfold State.rd State.rdB; rw [h]

theorem State.byte_of_mem {t : State} (h : t.mem = s.mem) (a : Nat) : t.byte a = s.byte a := by unfold State.byte; rw [h]

/-- A cleared slot: its status reads 0, and no byte outside slot and status changes. -/
theorem State.clearSlot_reads {half i : Nat} (h : s.poisonedIn (statusAddr half i) 4 = false) :
    (s.clearSlot half i).rd (statusAddr half i) 4 = 0 ∧
      ∀ x, (x < slotAddr half i ∨ slotAddr half i + 16 ≤ x) → (x < statusAddr half i ∨ statusAddr half i + 4 ≤ x) →
        (s.clearSlot half i).byte x = s.byte x := by
  have hm := s.clearSlot_mem h
  refine ⟨?_, fun x hslot hstat => ?_⟩
  · have hb : memBytes 0 (s.clearSlot half i).mem (statusAddr half i) 4 = List.replicate 4 0 := by
      rw [hm]; exact memBytes_memPut (List.replicate 4 0)
    unfold State.rd State.rdB
    rw [hb]
    rfl
  · unfold State.byte
    rw [hm, memByte_put_out _ _ _ (by simpa using hstat), memByte_put_out _ _ _ (by simpa using hslot)]

theorem State.rt_setRt (i : Nat) (x : TagRt) : (s.setRt i x).rt i = x := by
  unfold State.rt State.setRt
  exact (mapGet_set i i x).trans (if_pos rfl)

/-- Settles O17: the record's bytes, the cleared slot, and the bytes that neither covers. -/
theorem sweepTakesTheSlot : Obligations.SweepTakesTheSlot := by
  unfold Obligations.SweepTakesTheSlot
  intro s i _ hslot hstat t h tk q u a
  obtain ⟨w, st, rt, hu, hw, hmiss, hswept⟩ := s.sweepTag_of_slot hslot (tk := tk) (q := q) rfl rfl
  obtain ⟨hzero, hkept⟩ := (s.count Fd.SE_SUPERSEDE_CNT.COUNT tk.extra).clearSlot_reads (half := h) (i := t.slot)
    (s.poisonedIn_of_subset (by rw [State.count, State.set_coh]; exact fun _ => id) hstat)
  obtain ⟨hv, hts, hraw, hq⟩ := w.rd_sweepStore a (sweptValue t tk q).1 (sweptValue t tk q).2 (tk.raw.getD t.raw) q st
  have hbelow : statusAddr h t.slot + 4 ≤ a := by
    have := t.slot_lt
    have : h < 2 := Nat.mod_lt _ (by decide)
    unfold a tagAddr tagBase statusAddr sramBase
    omega
  have hut : u = _ := hu
  have hmem : u.mem = _ := congrArg State.mem hut
  rw [State.setRt, State.modSignal_mem] at hmem
  have hrt : u.rt i = rt := by rw [hut, State.rt_setRt]
  rw [State.rd_of_mem _ hmem, State.rd_of_mem _ hmem, State.rd_of_mem _ hmem, State.rd_of_mem _ hmem, State.rd_of_mem _ hmem, hrt]
  refine ⟨hq, hraw, fun v htk hdb => ?taken, fun hkeep => ?kept, ?status, hmiss, hswept, fun x hx hs hst => ?frame⟩
  case taken =>
    rw [sweptValue_of_taken htk hdb] at hv hts ⊢
    exact ⟨hv, hts⟩
  case kept =>
    rw [sweptValue_of_kept hkeep] at hv hts ⊢
    exact ⟨hv.trans (Nat.mod_eq_of_lt (Tag.value_lt _)), hts.trans (Nat.mod_eq_of_lt (Tag.ts_lt _))⟩
  case status => exact (w.rd_sweepStore_below _ _ _ _ _ _ hbelow).trans ((State.rd_of_mem _ hw _ _).trans hzero)
  case frame =>
    rw [State.byte_of_mem _ hmem, w.byte_sweepStore _ _ _ _ _ _ hx, State.byte_of_mem _ hw, hkept x hs hst]
    exact State.byte_of_mem _ (State.set_mem ..) x

end Sys2Proof.Machine
end

section
/-! Calls, barrier flags and tuning writes of the Loop Engine (5.5, 5.7, 5.8). -/

namespace Sys2Proof.Machine

variable {s : State} {r : Requester}

/-- A command whose meaning is a register write, once it is admitted. -/
theorem exec_of_admitted {c : Instr} {off n : Nat} {f : State → State} (ha : Admitted s r off n)
    (hrow : exec c s = .next (s.regWriteAt r off n f)) : exec c s = .next (f (accepted s r)) :=
  hrow.trans (congrArg Host.Outcome.next (s.regWriteAt_of r f ha.1 ha.2))

/-! ### Calls -/

theorem State.callDone_of_notOwner {n q : Nat} (h : s.ownsSlot r n = false) : s.callDone r n q = s.leDrop := by
  unfold State.callDone; rw [h]; rfl

theorem State.callDone_of_late {n q : Nat} (ho : s.ownsSlot r n = true) (hq : q ≠ 3) (hp : s.get (Fd.LE_CALL_STAT.PENDING n) = 0) :
    s.callDone r n q = s.callLate n := by
  unfold State.callDone State.on
  rw [ho, hp, beq_false_of_ne hq]
  rfl

theorem State.callDone_of_pending {n q : Nat} (ho : s.ownsSlot r n = true) (hq : q ≠ 3) (hp : s.get (Fd.LE_CALL_STAT.PENDING n) ≠ 0) :
    s.callDone r n q = s.callFinish n q := by
  unfold State.callDone State.on
  rw [ho, beq_false_of_ne hq, bne_iff_ne.mpr hp]
  rfl

theorem State.callFinish_of_lane {n q l b : Nat} (h : s.callLane n = some (l, b)) :
    s.callFinish n q =
      let bs := s.rdB (instrAddr b) 32
      let ret := s.reg (Rg.LE_CALL_RET n)
      let t := max (s.lane l).t (nsClocks (s.now - s.frame.eTime.getD s.now)) + 20
      let v := (s.callClear n).modLane l fun x => { x with calling := false }
      (v.blockResults l b bs { y := some (ret % 2 ^ 32, q), z := some (ret / 2 ^ 32, q) }).blockEnd l b bs t := by
  unfold State.callFinish
  rw [h]

theorem State.callTimeout_of_pending {n t0 l b : Nat} {c : CallSlot} (hc : s.loop.slots[n]? = some c) (ht : c.since = some t0)
    (hl : s.callLane n = some (l, b)) :
    s.callTimeout n =
      let u := (s.atTime (t0 + c.budget)).callClear n
      (u.modLane l fun x => { x with t := max x.t (nsClocks (t0 + c.budget - s.frame.eTime.getD (max s.now (t0 + c.budget)))) }).strandFault
        l b 1 := by
  unfold State.callTimeout
  simp only [hc, ht, hl] <;> rfl

/-! ### Barrier flags -/

theorem bitOf_eq_testBit (v i : Nat) : bitOf v i = v.testBit i := by
  rw [bitOf, Nat.testBit_eq_decide_div_mod_eq]
  exact Bool.beq_eq_decide_eq ..

theorem State.laneShow_eq (s : State) (l : Nat) : ∃ busy waits calls active, s.laneShow l =
    (((s.set (Fd.LE_LANE_STAT.BUSY l) busy).set (Fd.LE_LANE_STAT.WAITING l) waits).set (Fd.LE_LANE_STAT.CALLING l) calls).set
      Fd.LE_STAT.ACTIVE active := ⟨_, _, _, _, rfl⟩

theorem State.laneShow_barrier (s : State) (l : Nat) {w : Nat} (hw : w < 8) :
    (s.laneShow l).reg (Rg.LE_BARRIER w) = s.reg (Rg.LE_BARRIER w) := by
  have hlane : Rg.LE_LANE_STAT l ≠ Rg.LE_BARRIER w := by unfold Rg.LE_LANE_STAT Rg.LE_BARRIER; omega
  have hstat : Rg.LE_STAT ≠ Rg.LE_BARRIER w := by unfold Rg.LE_STAT Rg.LE_BARRIER; omega
  obtain ⟨busy, waits, calls, active, e⟩ := s.laneShow_eq l
  rw [e, State.reg_set_ne _ _ hstat, State.reg_set_ne _ _ hlane, State.reg_set_ne _ _ hlane, State.reg_set_ne _ _ hlane]

/-- What showing the lanes' status leaves: everything but registers, and of them the barrier flags. -/
structure FlagsOnly (s t : State) : Prop where
  flags  : ∀ w, w < 8 → t.reg (Rg.LE_BARRIER w) = s.reg (Rg.LE_BARRIER w)
  now    : t.now = s.now
  mem    : t.mem = s.mem
  groves : t.groves = s.groves
  cores  : t.cores = s.cores

theorem State.laneShow_flagsOnly (s : State) (l : Nat) : FlagsOnly s (s.laneShow l) := by
  obtain ⟨busy, waits, calls, active, e⟩ := s.laneShow_eq l
  refine ⟨fun w hw => s.laneShow_barrier l hw, ?_, ?_, ?_, ?_⟩ <;> simp [e]

theorem FlagsOnly.each (s : State) (l : List Nat) (p : State → Nat → Bool) :
    FlagsOnly s (s.each l fun s x => if p s x then s.laneShow x else s) := by
  unfold State.each
  induction l generalizing s with
  | nil => exact ⟨fun _ _ => rfl, rfl, rfl, rfl, rfl⟩
  | cons x l ih =>
    have hx : FlagsOnly s (if p s x then s.laneShow x else s) := by
      split
      · exact s.laneShow_flagsOnly x
      · exact ⟨fun _ _ => rfl, rfl, rfl, rfl, rfl⟩
    have hl := ih (if p s x then s.laneShow x else s)
    exact ⟨fun w hw => (hl.flags w hw).trans (hx.flags w hw), hl.now.trans hx.now, hl.mem.trans hx.mem, hl.groves.trans hx.groves,
      hl.cores.trans hx.cores⟩

/-- The flag written before the lanes show it. -/
def State.flagRaised (s : State) (f t : Nat) : State :=
  (s.atTime (s.laneTime t)).setReg (Rg.LE_BARRIER (f / 32)) (s.reg (Rg.LE_BARRIER (f / 32)) ||| 2 ^ (f % 32))

theorem State.setFlag_of_due {f t : Nat} (h : mapGet? s.loop.flagTime f = some t) : FlagsOnly (s.flagRaised f t) (s.setFlag f) := by
  unfold State.setFlag
  rw [h]
  exact FlagsOnly.each (s.flagRaised f t) (List.range 32) fun s l => (s.lane l).block.isSome

theorem State.flagSet_of_flagsOnly {t : State} (h : FlagsOnly s t) {k : Nat} (hk : k < 256) : t.flagSet k = s.flagSet k := by
  unfold State.flagSet
  rw [h.flags _ (by omega)]

theorem State.flagSet_flagRaised (s : State) {f k : Nat} (t : Nat) : (s.flagRaised f t).flagSet k = (decide (k = f) || s.flagSet k) := by
  unfold State.flagSet State.flagRaised
  have hlt : s.reg (Rg.LE_BARRIER (f / 32)) ||| 2 ^ (f % 32) < 2 ^ 64 :=
    Nat.or_lt_two_pow (s.reg_lt _) (Nat.pow_lt_pow_right (by decide) (by omega))
  by_cases hw : k / 32 = f / 32
  · rw [hw, State.reg_setReg_lt _ _ hlt, bitOf_eq_testBit, bitOf_eq_testBit, Nat.testBit_or, Nat.testBit_two_pow, Bool.or_comm]
    congr 1
    exact decide_eq_decide.mpr (by omega)
  · rw [State.reg_setReg_ne _ _ (by unfold Rg.LE_BARRIER; omega), decide_eq_false (by rintro rfl; exact hw rfl), Bool.false_or]
    rfl

/-! ### Tuning writes -/

theorem accepted_cases (s : State) (r : Requester) : accepted s r = s.answer .ok ∨ accepted s r = s.drawn.answer .ok := by
  unfold accepted
  rcases s.fwUsed_cases r with e | e
  · exact .inl (by rw [e])
  · exact .inr (by rw [e])

theorem accepted_leWriteOk (s : State) (r : Requester) (a n : Nat) : (accepted s r).leWriteOk r a n = s.leWriteOk r a n := by
  rcases accepted_cases s r with e | e <;> rw [e] <;> rfl

theorem accepted_groveOfInst (s : State) (r : Requester) (b : Nat) : (accepted s r).groveOfInst b = s.groveOfInst b := by
  rcases accepted_cases s r with e | e <;> rw [e] <;> rfl

theorem accepted_leHeld (s : State) (r : Requester) (a n : Nat) : (accepted s r).leHeld r a n = s.leHeld r a n := by
  rcases accepted_cases s r with e | e <;> rw [e] <;> rfl

/-- The block that an address of the Loop Engine's banks belongs to. -/
def instOf (a : Nat) : Nat := (a - leBase) % 0x80_0000 / 32

theorem State.leHeld_iff {a n : Nat} : s.leHeld r a n = true ↔ s.leWriteOk r a n = true ∧
    ∃ g, s.groveOfInst (instOf a) = some g ∧ (s.grv g).computing = true ∧ 64 ≤ (mapGet [] s.loop.tuneBuf g).length := by
  unfold State.leHeld
  rw [Bool.and_eq_true]
  refine and_congr_right fun _ => ?_
  show (match s.groveOfInst (instOf a) with | none => _ | some g => _) = true ↔ _
  cases s.groveOfInst (instOf a) <;> simp

theorem exec_leTuningWrite_of_free {a : PAddr} {n : Nat} {v : Word} (hlo : leBase ≤ a.toNat) (hhi : a.toNat + n ≤ leEnd)
    (hp : s.present r = true) (hr : s.reaches r .write a.toNat n = true) (hfree : s.leHeld r a.toNat n = false) :
    exec (.leTuningWrite r a n v) s = .next ((accepted s r).leWrite r a.toNat n (v.toNat % 2 ^ (8 * n))) := by
  show done (if !(leBase ≤ a.toNat && a.toNat + n ≤ leEnd) || (s.reaches r .write a.toNat n && s.leHeld r a.toNat n) then s
    else s.writeAt r a.toNat n fun s => s.leWrite r a.toNat n (v.toNat % 2 ^ (8 * n))) = _
  rw [if_neg (by simp [hlo, hhi, hfree]), s.writeAt_of r _ hp hr]
  rfl

theorem exec_leTuningWrite_of_held {a : PAddr} {n : Nat} {v : Word} (hr : s.reaches r .write a.toNat n = true)
    (hheld : s.leHeld r a.toNat n = true) : exec (.leTuningWrite r a n v) s = .next s := by
  show done (if !(leBase ≤ a.toNat && a.toNat + n ≤ leEnd) || (s.reaches r .write a.toNat n && s.leHeld r a.toNat n) then s
    else s.writeAt r a.toNat n fun s => s.leWrite r a.toNat n (v.toNat % 2 ^ (8 * n))) = _
  rw [if_pos (by simp [hr, hheld])]
  rfl

theorem State.leWrite_of_refused {a n v : Nat} (h : s.leWriteOk r a n = false) : s.leWrite r a n v = s.leDrop := by
  unfold State.leWrite
  rw [h]
  rfl

theorem State.leWrite_of_idle {a n v : Nat} (h : s.leWriteOk r a n = true)
    (hg : ∀ k, s.groveOfInst (instOf a) = some k → (s.grv k).computing = false) : s.leWrite r a n v = s.wordPut a (leBytes n v) := by
  unfold State.leWrite State.leApply
  rw [if_pos h]
  show (match s.groveOfInst (instOf a) with | none => _ | some g => _) = _
  cases hk : s.groveOfInst (instOf a) with
  | none => rfl
  | some k => exact if_pos (by rw [hg k hk]; rfl)

theorem State.leWrite_of_computing {a n v k : Nat} (h : s.leWriteOk r a n = true) (hg : s.groveOfInst (instOf a) = some k)
    (hc : (s.grv k).computing = true) :
    s.leWrite r a n v = (s.modLoop fun x => { x with
      tuneBuf := mapSet [] x.tuneBuf k (mapGet [] x.tuneBuf k ++ [{ who := reqNo r, addr := a, size := n, v := BitVec.ofNat 64 v }]) }).tuneShow := by
  unfold State.leWrite State.leApply
  rw [if_pos h]
  show (match s.groveOfInst (instOf a) with | none => _ | some g => _) = _
  rw [hg]
  exact if_neg (by rw [hc]; decide)

/-- A call that begins (R178), as the row's meaning. -/
theorem State.callBegin_of_ready {l b t : Nat} {bs : List Byte} (hready : s.blockReady l 0x2E = some (b, bs, t))
    (hfault : s.blockFault b bs = none) :
    s.callBegin l =
      let u := s.set (Fd.LE_LANE_POS.INSTANCE l) b
      let n := u.rd (stateAddr b) 4
      let i := u.blockIn l b bs
      let v := (((u.blockReports b bs).setReg (Rg.LE_CALL_ARGLO n) (i.x 0 + i.x 1 * 2 ^ 32)).setReg (Rg.LE_CALL_ARGHI n) (i.x 2 + i.x 3 * 2 ^ 32)).set
        (Fd.LE_CALL_STAT.QIN n) (i.c 0 + i.c 1 * 4 + i.c 2 * 16 + i.c 3 * 64)
      let v := v.set (Fd.LE_CALL_STAT.PENDING n) 1
      let w := v.atTime (v.laneTime (t + 20))
      let z := w.modLoop fun x => { x with slots := x.slots.modify n fun c => { c with since := some w.now } }
      let z := (z.modLane l fun x => { x with calling := true, t := t + 20 }).laneShow l
      z.pulse (z.get Fd.LE_IRQ_SRC.CALL_BASE + n) := by
  have hfault' : (s.set (Fd.LE_LANE_POS.INSTANCE l) b).blockFault b bs = none := hfault
  unfold State.callBegin
  simp only [hready, hfault'] <;> rfl

/-- Settles O13: each row by the case of its operation that the hypotheses name. -/
theorem callsFlagsAndTuning : Obligations.CallsFlagsAndTuning := by
  unfold Obligations.CallsFlagsAndTuning
  refine ⟨⟨fun l s b t bs hready hfault => ?call, fun r n q s ha => ⟨fun ho => ?notOwner, fun ho hq hp => ?late, fun l b ho hq hp hl => ?done⟩,
    fun r n v s ha => ?ret, fun n s c t0 l b hc ht hl => ?timeout⟩, ⟨fun f s t h => ?flag, fun r a n v s hlo hhi hp hr =>
    ⟨fun hok => ?refused, fun hok hg => ?idle, fun k hok hg hc hlen => ?buffered, fun k hok hg hc hlen => ?held⟩, fun r s ha => ?clear⟩⟩
  case call => exact congrArg Host.Outcome.next (State.callBegin_of_ready hready hfault)
  case notOwner => exact (exec_of_admitted ha rfl).trans (by rw [State.callDone_of_notOwner ho]; rfl)
  case late => exact (exec_of_admitted ha rfl).trans (by rw [State.callDone_of_late ho hq hp]; rfl)
  case done => exact (exec_of_admitted ha rfl).trans (by rw [State.callDone_of_pending ho hq hp, State.callFinish_of_lane hl]; rfl)
  case ret => exact (exec_of_admitted ha rfl).trans (by rfl)
  case timeout => exact congrArg Host.Outcome.next (State.callTimeout_of_pending hc ht hl)
  case flag =>
    have hs := State.setFlag_of_due h
    refine ⟨s.setFlag f.val, rfl, ?_, hs.now, hs.mem, hs.groves, hs.cores, fun k hk hne => ?_⟩
    · rw [State.flagSet_of_flagsOnly hs f.isLt, State.flagSet_flagRaised, decide_eq_true rfl, Bool.true_or]
    · rw [State.flagSet_of_flagsOnly hs hk, State.flagSet_flagRaised, decide_eq_false hne, Bool.false_or]
  case refused =>
    have hfree : s.leHeld r a.toNat n = false :=
      Bool.eq_false_iff.mpr fun h => absurd (State.leHeld_iff.mp h).1 (by rw [← accepted_leWriteOk s r, hok]; decide)
    rw [exec_leTuningWrite_of_free hlo hhi hp hr hfree, State.leWrite_of_refused hok]
    rfl
  case idle =>
    have hfree : s.leHeld r a.toNat n = false := by
      rw [← accepted_leHeld]
      refine Bool.eq_false_iff.mpr fun h => ?_
      obtain ⟨-, g, hgrv, hcomp, -⟩ := State.leHeld_iff.mp h
      exact absurd hcomp (by rw [hg g hgrv]; decide)
    rw [exec_leTuningWrite_of_free hlo hhi hp hr hfree, State.leWrite_of_idle hok hg]
    rfl
  case buffered =>
    have hfree : s.leHeld r a.toNat n = false := by
      rw [← accepted_leHeld]
      refine Bool.eq_false_iff.mpr fun h => ?_
      obtain ⟨-, g, hgrv, -, hfull⟩ := State.leHeld_iff.mp h
      obtain rfl : k = g := Option.some.inj (hg.symm.trans hgrv)
      omega
    rw [exec_leTuningWrite_of_free hlo hhi hp hr hfree, State.leWrite_of_computing hok hg hc]
  case held =>
    refine exec_leTuningWrite_of_held hr (State.leHeld_iff.mpr ⟨hok, k, ?_, hc, hlen⟩)
    rw [← accepted_groveOfInst s r]
    exact hg
  case clear => exact (exec_of_admitted ha rfl).trans (by rfl)

end Sys2Proof.Machine
end

section
/-! Gather writes and the alarm queues (3.4, 4.5, 4.8). -/

namespace Sys2Proof.Machine

variable {s : State} {r : Requester}

/-! ### Gather writes -/

theorem gwOwns_iff (b : GatherWriter) (t : Tag) : gwOwns b t = true ↔ bindNames t b := by
  cases b <;> simp [gwOwns, bindNames, gwKind, gwIndex]

/-- A branch on a flag, as the statements write it. -/
theorem State.ite_on {α : Type} (s : State) (f : Fld) (a b : α) : (if s.on f = true then a else b) = if s.get f = 0 then b else a := by
  unfold State.on
  by_cases h : s.get f = 0
  · rw [if_pos h, if_neg (by simp [h])]
  · rw [if_neg h, if_pos (by simp [h])]

theorem State.tagConflict_eq (s : State) (tag kind reason index : Nat) : s.tagConflict tag kind reason index = conflicted s tag kind reason index :=
  s.ite_on Fd.SE_STAT.CONFLICT _ _

theorem State.gatherDrop_eq (s : State) : s.gatherDrop =
    let u := (s.inc Fd.SE_GATHER_DROP_CNT.COUNT).set Fd.SE_STAT.GATHER_DROP 1
    if s.get Fd.SE_STAT.GATHER_DROP = 0 then u.pulse (u.get Fd.SE_IRQ_SRC.CONFLICT_SRC) else u :=
  s.ite_on Fd.SE_STAT.GATHER_DROP _ _

theorem State.gather_of_slot {b : GatherWriter} {i : Nat} (op : GatherOp) (hb : bindNames (s.tag i) b) (hp : s.tagPoisoned i = false)
    (hslot : (s.tag i).slotEn = true) :
    s.gather b i op = match op with
      | .value data ts q => s.slotValue s.gatherHalf (s.tag i).slot data.toNat ts.toNat q.toNat
      | .quality q => s.slotQual s.gatherHalf (s.tag i).slot q.toNat := by
  unfold State.gather
  dsimp only
  rw [(gwOwns_iff b _).mpr hb, hp, hslot]
  cases op <;> rfl

theorem State.gather_of_refused {b : GatherWriter} {i : Nat} (op : GatherOp) (h : ¬ bindNames (s.tag i) b ∨ s.tagPoisoned i = true) :
    s.gather b i op = conflicted s i (gwKind b) 0 (gwIndex b) := by
  rw [← State.tagConflict_eq]
  unfold State.gather
  refine if_pos ?_
  rw [Bool.or_eq_true, Bool.not_eq_true', ← Bool.not_eq_true, gwOwns_iff]
  exact h

theorem State.gather_of_slotless {b : GatherWriter} {i : Nat} (op : GatherOp) (hb : bindNames (s.tag i) b) (hp : s.tagPoisoned i = false)
    (hslot : (s.tag i).slotEn = false) : s.gather b i op = s.gatherDrop := by
  unfold State.gather
  dsimp only
  rw [(gwOwns_iff b _).mpr hb, hp, hslot]
  rfl

theorem statusWord_set (count q : Nat) : statusWord count q true = count + q * 256 + 65536 := rfl

/-- Settles O14: the three outcomes of a Gather write, each through the half of the slot that it fills. -/
theorem gatherWrites : Obligations.GatherWrites := by
  unfold Obligations.GatherWrites
  intro s b i t h w put
  refine ⟨fun hb hp hslot => ⟨fun data ts q => ?value, fun q => ?quality⟩, fun op hr => ?refused, fun op hb hp hslot => ?slotless⟩
  case value =>
    have hsat : satAdd 8 (bits w 7 0) 1 = min 255 (bits w 7 0 + 1) := Nat.min_comm ..
    refine congrArg Host.Outcome.next ((State.gather_of_slot _ hb hp hslot).trans ?_)
    rw [← hsat, ← statusWord_set]
    rfl
  case quality =>
    refine congrArg Host.Outcome.next ((State.gather_of_slot _ hb hp hslot).trans ?_)
    rw [← statusWord_set]
    rfl
  case refused => exact congrArg Host.Outcome.next (State.gather_of_refused op hr)
  case slotless => exact congrArg Host.Outcome.next ((State.gather_of_slotless op hb hp hslot).trans s.gatherDrop_eq)

/-! ### Alarm queues -/

theorem State.linesFree_iff {a n : Nat} : s.linesFree a n = true ↔ ∀ line ∈ linesOf a n, s.blocked line = false := by
  simp [State.linesFree, List.all_eq_true]

/-- The entry drains unless a line that it would write is blocked. -/
theorem State.alarmDrain_of_free {e : AlarmItem} {rest : List AlarmItem} (h : s.signal.alarmBuf = e :: rest)
    (h0 : s.linesFree (s.aqAddr e.grove (s.get (Fd.SE_AQ_HEAD.HEAD e.grove))) 64 = true)
    (h1 : s.linesFree (s.aqAddr e.grove ((s.get (Fd.SE_AQ_HEAD.HEAD e.grove) + 1) % 2 ^ 32)) 64 = true) :
    s.alarmDrain = (((((s.modSignal fun x => { x with alarmBuf := rest }).fwDrawn e.grove).aqWrite e.grove e.bytes).aqTest e.grove
      e.frame).aqFull e.grove).mirrorSignal := by
  unfold State.alarmDrain
  rw [h]
  exact if_neg (by rw [h0, h1]; decide)

theorem State.alarmDrain_of_blocked {e : AlarmItem} {rest : List AlarmItem} (h : s.signal.alarmBuf = e :: rest)
    (hb : ¬ (s.linesFree (s.aqAddr e.grove (s.get (Fd.SE_AQ_HEAD.HEAD e.grove))) 64 = true ∧
      s.linesFree (s.aqAddr e.grove ((s.get (Fd.SE_AQ_HEAD.HEAD e.grove) + 1) % 2 ^ 32)) 64 = true)) : s.alarmDrain = s := by
  unfold State.alarmDrain
  rw [h]
  exact if_pos (by rw [Bool.not_eq_true', ← Bool.not_eq_true, Bool.and_eq_true]; exact hb)

/-- The words that an entry of the queue needs: its own, and its loss marker's when one is due. -/
def State.aqNeed (s : State) (g : Nat) : Nat := if mapGet 0 s.signal.markers g = 0 then 1 else 2

theorem State.aqWrite_of_disabled {g : Nat} (bs : List Byte) (h : s.get (Fd.SE_AQ_CFG.EN g) = 0) : s.aqWrite g bs = s := by
  unfold State.aqWrite State.on
  exact if_pos (by rw [h]; rfl)

theorem State.aqWrite_of_full {g : Nat} (bs : List Byte) (h : s.get (Fd.SE_AQ_CFG.EN g) ≠ 0) (hf : s.aqSize g < s.aqUsed g + s.aqNeed g) :
    s.aqWrite g bs = s.aqLose g := by
  unfold State.aqWrite State.on
  dsimp only
  rw [if_neg (by simp [h]), if_pos (by simpa [State.aqNeed] using hf)]

/-- The three ends of an entry for which its ring has room. -/
theorem State.aqWrite_of_room {g : Nat} (bs : List Byte) (h : s.get (Fd.SE_AQ_CFG.EN g) ≠ 0) (hf : s.aqUsed g + s.aqNeed g ≤ s.aqSize g) :
    let head := s.get (Fd.SE_AQ_HEAD.HEAD g)
    let lost := mapGet 0 s.signal.markers g
    let marked := (s.aqPut g (alarmBytes 0 (fieldB bs 8 8) 0 0xFF 3 0 g 0 lost 0 0 0)).modSignal fun x => { x with markers := mapSet 0 x.markers g 0 }
    (s.aqReach g head = false → s.aqWrite g bs = s.aqRefuse g (s.aqAddr g head)) ∧
    (s.aqReach g head = true → lost = 0 → s.aqWrite g bs = s.aqPut g bs) ∧
    (s.aqReach g head = true → lost ≠ 0 → s.aqWrite g bs =
      if marked.aqReach g ((head + 1) % 2 ^ 32) then marked.aqPut g bs else marked.aqRefuse g (marked.aqAddr g ((head + 1) % 2 ^ 32))) := by
  intro head lost marked
  have hen : ¬ (!s.on (Fd.SE_AQ_CFG.EN g)) = true := by simp [State.on, h]
  have hroom : ¬ s.aqUsed g + (if (mapGet 0 s.signal.markers g == 0) = true then 1 else 2) > s.aqSize g := by
    simpa [State.aqNeed] using hf
  unfold State.aqWrite
  dsimp only
  rw [if_neg hen, if_neg hroom]
  refine ⟨fun hr => if_pos (by rw [hr]; rfl), fun hr hl => ?_, fun hr hl => ?_⟩
  · rw [if_neg (by rw [hr]; decide), if_pos (by rw [show mapGet 0 s.signal.markers g = 0 from hl]; rfl)]
  · rw [if_neg (by rw [hr]; decide), if_neg (by rw [beq_false_of_ne (show mapGet 0 s.signal.markers g ≠ 0 from hl)]; decide)]

/-- An entry written at an index of the ring, which becomes the one before HEAD. -/
def State.aqPutAt (s : State) (g i : Nat) (bs : List Byte) : State :=
  let w := ((s.unitWrite (s.aqAddr g i) (sealAlarm bs i) true).2).set (Fd.SE_AQ_HEAD.HEAD g) (i + 1)
  if bitOf (w.get Fd.PCI_AQ_MIRROR.GROVES) g then w.modSignal fun x => { x with mirrored := true } else w

theorem State.aqPut_eq (s : State) (g : Nat) (bs : List Byte) : s.aqPut g bs = s.aqPutAt g (s.get (Fd.SE_AQ_HEAD.HEAD g)) bs := rfl

theorem State.head_aqPutAt (s : State) (g i : Nat) (bs : List Byte) : (s.aqPutAt g i bs).get (Fd.SE_AQ_HEAD.HEAD g) = (i + 1) % 2 ^ 32 := by
  unfold State.aqPutAt
  extract_lets w
  have hw : w.get (Fd.SE_AQ_HEAD.HEAD g) = (i + 1) % 2 ^ 32 := State.get_set _ _ _ (of_decide_eq_true rfl) (of_decide_eq_true rfl)
  clear_value w
  split
  · rw [State.modSignal_get, hw]
  · exact hw

theorem State.aqConfig_refused_iff (s : State) (g v : Nat) :
    ((s.get (Fd.SE_AQ_CFG.EN g) ≠ 0 ∧ bits v 12 8 ≠ s.get (Fd.SE_AQ_CFG.LOG2 g)) ∨
      (bitOf v 0 = true ∧ (bits v 12 8 < 6 ∨ 20 < bits v 12 8 ∨ s.get (Fd.SE_AQ_BASE.BASE g) * 64 % (64 * 2 ^ bits v 12 8) ≠ 0 ∨
        gddrSize < s.get (Fd.SE_AQ_BASE.BASE g) * 64 + 64 * 2 ^ bits v 12 8))) ↔
    (s.on (Fd.SE_AQ_CFG.EN g) && bits v 12 8 != s.get (Fd.SE_AQ_CFG.LOG2 g)) = true ∨
      (bitOf v 0 && (bits v 12 8 < 6 || 20 < bits v 12 8 || s.get (Fd.SE_AQ_BASE.BASE g) * 64 % (64 * 2 ^ bits v 12 8) != 0 ||
        gddrSize < s.get (Fd.SE_AQ_BASE.BASE g) * 64 + 64 * 2 ^ bits v 12 8)) = true := by
  simp [State.on, or_assoc]

theorem State.aqConfig_eq (s : State) (g v : Nat) : s.aqConfig g v =
    if (s.on (Fd.SE_AQ_CFG.EN g) && bits v 12 8 != s.get (Fd.SE_AQ_CFG.LOG2 g)) = true then s
    else if (bitOf v 0 && (bits v 12 8 < 6 || 20 < bits v 12 8 || s.get (Fd.SE_AQ_BASE.BASE g) * 64 % (64 * 2 ^ bits v 12 8) != 0 ||
        gddrSize < s.get (Fd.SE_AQ_BASE.BASE g) * 64 + 64 * 2 ^ bits v 12 8)) = true then s
    else (((s.set (Fd.SE_AQ_CFG.EN g) (bits v 0 0)).set (Fd.SE_AQ_CFG.LOG2 g) (bits v 12 8)).set (Fd.SE_AQ_CFG.THRESH g) (bits v 31 16)).aqFull g :=
  rfl

/-- Settles O16: the entry's ends by the room, the reach and the markers of its ring; the writes of the ring's registers. -/
theorem alarmQueues : Obligations.AlarmQueues := by
  unfold Obligations.AlarmQueues
  refine ⟨fun s e rest hbuf => ?drain, fun s hbuf => ?empty, fun r g v s ha => ?tail, fun r g v s ha => ?config, fun r g s ha => ?loss,
    fun r s ha => ?clear⟩
  case drain =>
    intro g addr free u h h' put shown lost need marked
    have hfree (i : Nat) : free i ↔ s.linesFree (s.aqAddr g i) 64 = true := State.linesFree_iff.symm
    refine ⟨fun h0 h1 => ?write, fun hb => ?wait⟩
    case wait =>
      refine congrArg Host.Outcome.next (State.alarmDrain_of_blocked hbuf fun ⟨h0, h1⟩ => ?_)
      rw [hfree, hfree] at hb
      exact hb.elim (· h0) (· h1)
    case write =>
      have hdrain : exec .alarmEntryDrain s = .next (shown (u.aqWrite g e.bytes)) :=
        congrArg Host.Outcome.next (State.alarmDrain_of_free hbuf ((hfree _).mp h0) ((hfree _).mp h1))
      refine ⟨fun hen => ?disabled, fun hen hfull => ?full, fun hen hroom => ?room⟩
      case disabled => rw [hdrain, State.aqWrite_of_disabled _ hen]
      case full => rw [hdrain, State.aqWrite_of_full _ hen hfull]; rfl
      case room =>
        obtain ⟨hrefuse, hplain, hmark⟩ := State.aqWrite_of_room e.bytes hen hroom
        refine ⟨fun hr => ?_, fun hr hl => ?_, fun hr hl => ?_⟩
        · rw [hdrain, hrefuse hr]; rfl
        · rw [hdrain, hplain hr hl]; rfl
        · have hhead : marked.get (Fd.SE_AQ_HEAD.HEAD g) = h' := State.head_aqPutAt u g h _
          have hput : put marked h' e.bytes = marked.aqPut g e.bytes := by rw [State.aqPut_eq, hhead]; rfl
          rw [hdrain, hmark hr hl, hput]
          rfl
  case empty => 
    refine congrArg Host.Outcome.next ?_
    unfold State.alarmDrain
    rw [hbuf]
  case tail =>
    refine (exec_of_admitted ha rfl).trans (congrArg Host.Outcome.next ?_)
    unfold State.aqTail
    rw [Nat.mod_eq_of_lt v.isLt]
    rfl
  case config =>
    intro u log2 base refused
    have hexec : exec (.aqEnable r g v) s = .next (u.aqConfig g.val v.toNat) := (exec_of_admitted ha rfl).trans (by rfl)
    refine ⟨fun hr => ?_, fun hr => ?_⟩
    · rw [hexec, State.aqConfig_eq]
      rcases (u.aqConfig_refused_iff g.val v.toNat).mp hr with h | h
      · rw [if_pos h]
      · rw [if_pos h, ite_self]
    · obtain ⟨h1, h2⟩ := not_or.mp (mt (u.aqConfig_refused_iff g.val v.toNat).mpr hr)
      rw [hexec, State.aqConfig_eq, if_neg h1, if_neg h2]
  case loss => exact (exec_of_admitted ha rfl).trans (by rfl)
  case clear => exact (exec_of_admitted ha rfl).trans (by rfl)

end Sys2Proof.Machine
end

section
/-! Frames received at a field port (6.1, 6.3, 6.6, 6.8). -/

namespace Sys2Proof.Machine

variable {s : State}

/-! ### Gather writes leave the field ports' registers alone -/

/-- A register of the field ports. -/
def fpReg (i : Nat) : Prop := Rg.FP_CTL ≤ i ∧ i < Rg.IRQ_CTL

theorem State.reg_pulse (s : State) {f : Fld} {i : Nat} (hf : f.hi + 1 - f.lo ≤ 12) (hi : i < Rg.IRQ_CTL) :
    (s.pulse (s.get f)).reg i = s.reg i :=
  (State.pulse_irqOnly s (Nat.lt_of_lt_of_le (bits_lt ..) (Nat.pow_le_pow_right (by decide) hf))).regs i (.inl hi)

theorem State.memErr_regs (s : State) (a kind dev src : Nat) (maint : Bool) : ∃ v, s.memErr a kind dev src maint = s.setReg Rg.HWD_MEM_ERR_LAST v :=
  ⟨_, rfl⟩

theorem State.reg_memBell (s : State) {i : Nat} (hi : i < Rg.IRQ_CTL) : s.memBell.reg i = s.reg i := by
  unfold State.memBell
  split
  · exact s.reg_pulse (by decide) hi
  · rfl

theorem State.reg_memRaise (s : State) {f : Fld} {i : Nat} (hf : f.off ≠ i) (hi : i < Rg.IRQ_CTL) : (s.memRaise f).reg i = s.reg i := by
  unfold State.memRaise State.iff State.raise
  extract_lets was
  split
  · rw [State.reg_memBell _ hi, State.reg_set_ne _ _ hf]
  · rw [State.reg_set_ne _ _ hf]

theorem State.reg_meetPoison (s : State) (a : Nat) {i : Nat} (hi : fpReg i) : (s.meetPoison a).reg i = s.reg i := by
  obtain ⟨-, hhi⟩ := hi
  have apart {j : Nat} (hj : Rg.IRQ_CTL ≤ j) : j ≠ i := by omega
  unfold State.meetPoison State.inc State.count
  obtain ⟨v, e⟩ := (s.set Fd.HWD_MEM_SRAM_UE_CNT.COUNT (satAdd (Fd.HWD_MEM_SRAM_UE_CNT.COUNT.hi + 1 - Fd.HWD_MEM_SRAM_UE_CNT.COUNT.lo)
    (s.get Fd.HWD_MEM_SRAM_UE_CNT.COUNT) 1)).memErr_regs a 2 0xF (if a < tagBase then 7 else 8) false
  rw [State.reg_memRaise _ (apart (by decide)) hhi, e, State.reg_setReg_ne _ _ (apart (by decide)), State.reg_set_ne _ _ (apart (by decide))]

theorem State.reg_wordPut (s : State) (a : Nat) (bs : List Byte) {i : Nat} (hi : fpReg i) : (s.wordPut a bs).reg i = s.reg i := by
  unfold State.wordPut State.wordWrite
  split
  · rfl
  · split
    · rfl
    · exact s.reg_meetPoison a hi

theorem State.reg_gatherDrop (s : State) {i : Nat} (hi : fpReg i) : s.gatherDrop.reg i = s.reg i := by
  obtain ⟨hlo, hhi⟩ := hi
  have apart {j : Nat} (hj : j < Rg.FP_CTL) : j ≠ i := by omega
  rw [State.gatherDrop_eq]
  extract_lets u
  have hu : u.reg i = s.reg i := by
    unfold u State.inc State.count
    rw [State.reg_set_ne _ _ (apart (by decide)), State.reg_set_ne _ _ (apart (by decide))]
  clear_value u
  split
  · rw [State.reg_pulse u (by decide) hhi, hu]
  · exact hu

theorem State.reg_conflicted (s : State) (tag kind reason index : Nat) {i : Nat} (hi : fpReg i) :
    (conflicted s tag kind reason index).reg i = s.reg i := by
  obtain ⟨hlo, hhi⟩ := hi
  have apart {j : Nat} (hj : j < Rg.FP_CTL) : j ≠ i := by omega
  unfold conflicted
  extract_lets u
  have hu : u.reg i = s.reg i := by
    unfold u State.inc State.count
    rw [State.reg_set_ne _ _ (apart (by decide)), State.reg_setReg_ne _ _ (apart (by decide)), State.reg_set_ne _ _ (apart (by decide))]
  clear_value u
  split
  · rw [State.reg_pulse u (by decide) hhi, hu]
  · exact hu

theorem State.reg_gather (s : State) (w : GatherWriter) (tag : Nat) (op : GatherOp) {i : Nat} (hi : fpReg i) :
    (s.gather w tag op).reg i = s.reg i := by
  by_cases hr : ¬ bindNames (s.tag tag) w ∨ s.tagPoisoned tag = true
  · rw [State.gather_of_refused op hr, State.reg_conflicted _ _ _ _ _ hi]
  · obtain ⟨hb, hp⟩ := not_or.mp hr
    cases hslot : (s.tag tag).slotEn with
    | false => rw [State.gather_of_slotless op (Classical.not_not.mp hb) (Bool.eq_false_iff.mpr hp) hslot, State.reg_gatherDrop _ hi]
    | true =>
      rw [State.gather_of_slot op (Classical.not_not.mp hb) (Bool.eq_false_iff.mpr hp) hslot]
      cases op with
      | value data ts q =>
        show (State.slotValue ..).reg i = _
        unfold State.slotValue
        rw [State.reg_wordPut _ _ _ hi, State.reg_wordPut _ _ _ hi, State.reg_wordPut _ _ _ hi]
      | quality q =>
        show (State.slotQual ..).reg i = _
        unfold State.slotQual
        rw [State.reg_wordPut _ _ _ hi]

/-! ### A frame received -/

theorem State.mirror_shortCount (s : State) {p : Nat} : (s.shortCount p).get (Fd.FP_PORT_CFG.MIRROR p) = s.get (Fd.FP_PORT_CFG.MIRROR p) := by
  have hcnt : Rg.FP_PORT_SHORT_CNT p ≠ Rg.FP_PORT_CFG p := by unfold Rg.FP_PORT_SHORT_CNT Rg.FP_PORT_CFG; omega
  have hstat : Rg.FP_STAT ≠ Rg.FP_PORT_CFG p := by unfold Rg.FP_STAT Rg.FP_PORT_CFG; omega
  unfold State.shortCount State.raise State.inc State.count
  rw [State.get_set_ne _ _ hstat, State.get_set_ne _ _ hcnt]

theorem State.mirror_applyMap (s : State) {p : Nat} (hp : p < 72) (h : FrameHead) (stamp : Nat) (e : List Byte) (i : Nat) :
    (s.applyMap p h stamp e i).get (Fd.FP_PORT_CFG.MIRROR p) = s.get (Fd.FP_PORT_CFG.MIRROR p) := by
  have hreg : fpReg (Rg.FP_PORT_CFG p) := by
    unfold fpReg Rg.FP_CTL Rg.FP_PORT_CFG Rg.IRQ_CTL; omega
  unfold State.applyMap
  split
  · exact s.mirror_shortCount
  · exact congrArg (fun v => bits v 5 5) (s.reg_gather _ _ _ hreg)

theorem State.mirror_applyMaps (s : State) {p : Nat} (hp : p < 72) (h : FrameHead) (stamp : Nat) (es : List (List Byte × Nat)) :
    (s.applyMaps p h stamp es).get (Fd.FP_PORT_CFG.MIRROR p) = s.get (Fd.FP_PORT_CFG.MIRROR p) := by
  have each (l : List (List Byte × Nat)) (t : State) :
      (t.each l fun t e => t.applyMap p h stamp e.1 e.2).get (Fd.FP_PORT_CFG.MIRROR p) = t.get (Fd.FP_PORT_CFG.MIRROR p) := by
    unfold State.each
    induction l generalizing t with
    | nil => rfl
    | cons e l ih => exact (ih _).trans (t.mirror_applyMap hp h stamp e.1 e.2)
  unfold State.applyMaps
  extract_lets u
  have hu : u.get (Fd.FP_PORT_CFG.MIRROR p) = s.get (Fd.FP_PORT_CFG.MIRROR p) := each _ s
  clear_value u
  split
  · rw [State.mirror_shortCount, hu]
  · exact hu

/-- The entries of a passed frame are applied and the frame is queued as the statement has it. -/
theorem State.delivered_eq (u : State) {p : Nat} (hp : p < 72) (f : RxFrame) (stamp : Nat) (es : List (List Byte × Nat)) :
    (if (es.isEmpty || (u.applyMaps p (parseFrame f.bytes) stamp es).on (Fd.FP_PORT_CFG.MIRROR p)) = true
      then (u.applyMaps p (parseFrame f.bytes) stamp es).nrtQueue p (parseFrame f.bytes) { f with capture := BitVec.ofNat 64 stamp }
      else u.applyMaps p (parseFrame f.bytes) stamp es) = delivered u p f stamp es := by
  have hcond : (es.isEmpty || (u.applyMaps p (parseFrame f.bytes) stamp es).on (Fd.FP_PORT_CFG.MIRROR p)) = true ↔
      es = [] ∨ u.get (Fd.FP_PORT_CFG.MIRROR p) ≠ 0 := by
    unfold State.on
    rw [State.mirror_applyMaps _ hp]
    simp
  exact ite_of_iff hcond rfl rfl

theorem State.rxError_iff {p : Nat} {f : RxFrame} : s.rxError p f = true ↔
    (f.fcsOk = false ∨ f.codeError = true ∨ s.get (Fd.FP_PORT_CFG.MAXLEN p) < f.bytes.length + 4 ∨ f.bytes.length + 4 < 64) := by
  simp [State.rxError, or_assoc]

theorem isPause_iff {h : FrameHead} : isPause h = true ↔
    (h.etype = 0x8808 ∧ h.vid = none ∧ h.rtag = none ∧ (beNat (h.payload.take 2) = 0x0001 ∨ beNat (h.payload.take 2) = 0x0101)) := by
  simp [isPause, and_assoc]

/-- Is a frame for the port: an entry matches it, or it is sent to the port's address or a group (R191, R215)? -/
def State.forPort (s : State) (p : Nat) (h : FrameHead) : Prop :=
  s.matching p h ≠ [] ∨ h.dmac = s.get Fd.FP_MAC_BASE.MAC + p ∨ bitOf h.dmac 40 = true

/-- What a port does with a frame it takes (R190, R194, R209, R215). -/
def State.takeFrame (s : State) (p : Nat) (f : RxFrame) : State :=
  let h := parseFrame f.bytes
  let stamp := s.captureStamp p f.capture.toNat
  let e := (s.drawn.inc (Fd.FP_PORT_RX_CNT.COUNT p)).eliminate p h f.tie
  if e.1 then delivered e.2 p f stamp (s.matching p h) else e.2

theorem State.receiveFrame_of_link {p : Nat} (hp : p < 72) (f : RxFrame) (hm : s.get (Fd.FP_PORT_CFG.MODE p) ≠ 0)
    (hl : s.get (Fd.FP_PORT_STAT.LINK p) ≠ 0) :
    (s.rxError p f = true → s.receiveFrame p f = (s.inc (Fd.FP_PORT_RXERR_CNT.COUNT p)).set Fd.FP_STAT.RX_ERR 1) ∧
    (¬ s.rxError p f = true → isPause (parseFrame f.bytes) = true → s.receiveFrame p f = s.inc (Fd.FP_PORT_NRT_DROP_CNT.COUNT p)) ∧
    (¬ s.rxError p f = true → ¬ isPause (parseFrame f.bytes) = true → ¬ s.forPort p (parseFrame f.bytes) → s.receiveFrame p f = s) ∧
    (¬ s.rxError p f = true → ¬ isPause (parseFrame f.bytes) = true → s.forPort p (parseFrame f.bytes) →
      s.receiveFrame p f = s.takeFrame p f) := by
  have hon : ¬ (s.portMode p == 0 || !s.portUp p) = true := by simp [State.portMode, State.portUp, State.on, hm, hl]
  have hmine : ((s.matching p (parseFrame f.bytes)).isEmpty &&
      !((parseFrame f.bytes).dmac == s.portMac p || isGroup (parseFrame f.bytes).dmac)) = true ↔ ¬ s.forPort p (parseFrame f.bytes) := by
    simp [State.forPort, State.portMac, isGroup, not_or]
  unfold State.receiveFrame
  dsimp only
  rw [if_neg hon]
  refine ⟨fun he => ?_, fun he hq => ?_, fun he hq hn => ?_, fun he hq hn => ?_⟩
  · rw [if_pos he]; rfl
  · rw [if_neg he, if_pos hq]; rfl
  · rw [if_neg he, if_neg hq, if_pos (hmine.mpr hn)]
  · rw [if_neg he, if_neg hq, if_neg (fun h => hmine.mp h hn)]
    unfold State.takeFrame
    dsimp only
    rcases h : (s.drawn.inc (Fd.FP_PORT_RX_CNT.COUNT p)).eliminate p (parseFrame f.bytes) f.tie with ⟨pass, u⟩
    cases pass with
    | false => rfl
    | true => exact u.delivered_eq hp f _ _

/-! ### Elimination -/

theorem State.eliminate_of_plain {p : Nat} {h : FrameHead} (tie : Bool) (hn : h.rtag = none ∨ s.portCb p = false ∨ s.streamOf p h = none) :
    s.eliminate p h tie = (true, s) := by
  unfold State.eliminate
  cases ht : h.rtag with
  | none => rfl
  | some seq =>
    have hstream : (if s.portCb p then s.streamOf p h else none) = none := by
      rcases hn with h' | h' | h'
      · rw [h'] at ht; cases ht
      · rw [h']; rfl
      · rw [h', ite_self]
    dsimp only
    rw [hstream]

/-- A copy of a stream of a pair (R209, R210): the odd one of a tie never passes; another passes when the recovery has not seen its number. -/
theorem State.eliminate_of_stream {p seq smac vid : Nat} {h : FrameHead} (tie : Bool) (ht : h.rtag = some seq) (hcb : s.portCb p = true)
    (hs : s.streamOf p h = some (smac, vid)) :
    let same (x : CbStream) : Bool := x.pair == p / 2 && x.smac == smac && x.vid == vid
    let old := (s.field.streams.find? same).getD { pair := p / 2, smac := smac, vid := vid }
    let st := { (recover old seq).2 with last := s.now }
    let v := s.modField fun x =>
      { x with streams := if x.streams.any same then x.streams.map (fun x => if same x then st else x) else x.streams ++ [st] }
    s.eliminate p h tie =
      if tie = true ∧ p % 2 = 1 then (false, s.inc (Fd.FP_PORT_CB_ELIM_CNT.COUNT p))
      else if (recover old seq).1 = true then (true, v) else (false, v.inc (Fd.FP_PORT_CB_ELIM_CNT.COUNT p)) := by
  intro same old st v
  unfold State.eliminate
  rw [ht]
  dsimp only
  rw [if_pos hcb, hs]
  dsimp only
  refine ite_of_iff (by simp) rfl ?_
  show ((recover old seq).1, if (recover old seq).1 = true then v else v.inc (Fd.FP_PORT_CB_ELIM_CNT.COUNT p)) = _
  clear_value v
  cases (recover old seq).1 <;> rfl

theorem State.takeFrame_of_passed {p : Nat} {f : RxFrame} {v : State}
    (h : (s.drawn.inc (Fd.FP_PORT_RX_CNT.COUNT p)).eliminate p (parseFrame f.bytes) f.tie = (true, v)) :
    s.takeFrame p f = delivered v p f (s.captureStamp p f.capture.toNat) (s.matching p (parseFrame f.bytes)) := by
  unfold State.takeFrame
  dsimp only
  rw [h]
  rfl

theorem State.takeFrame_of_heldBack {p : Nat} {f : RxFrame} {v : State}
    (h : (s.drawn.inc (Fd.FP_PORT_RX_CNT.COUNT p)).eliminate p (parseFrame f.bytes) f.tie = (false, v)) : s.takeFrame p f = v := by
  unfold State.takeFrame
  dsimp only
  rw [h]
  rfl

/-- What a frame that has come to a receive queue meets there. -/
def State.settledAt (s u : State) (p : Nat) : State :=
  if (u.port p).rxQueue.length = (s.port p).rxQueue.length then u else u.rxArrive p

theorem exec_frameReceived (s : State) (p : FieldPort) (f : RxFrame) :
    exec (.frameReceived p f) s = .next (s.settledAt (s.receiveFrame p.val f) p.val) :=
  congrArg Host.Outcome.next (ite_of_iff beq_iff_eq rfl rfl)

theorem State.cbReset_of_stream {i : Nat} {st : CbStream} (h : s.field.streams[i]? = some st) :
    s.cbReset i = (s.atTime (st.last + 4 * s.period)).modField fun x =>
      { x with streams := x.streams.set i { st with next := none, history := 0 } } := by
  unfold State.cbReset
  rw [h]

/-- Settles O18: the frame's fate by its errors, its kind and its addressee; then elimination. -/
theorem framesReceived : Obligations.FramesReceived := by
  unfold Obligations.FramesReceived
  refine ⟨fun p f s hm hl => ?frame, fun i s st h => congrArg Host.Outcome.next (State.cbReset_of_stream h)⟩
  intro settled h es error mine pause stamp u
  have hexec {t : State} (ht : s.receiveFrame p.val f = t) : exec (.frameReceived p f) s = .next (settled t) :=
    (exec_frameReceived s p f).trans (by rw [ht]; rfl)
  have he : error ↔ s.rxError p.val f = true := State.rxError_iff.symm
  have hq : pause ↔ isPause h = true := isPause_iff.symm
  obtain ⟨herr, hpause, hother, htake⟩ := State.receiveFrame_of_link p.isLt f hm hl
  refine ⟨fun e => hexec (herr (he.mp e)), fun e q => hexec (hpause (mt he.mpr e) (hq.mp q)),
    fun e q n => hexec (hother (mt he.mpr e) (mt hq.mpr q) n), fun e q n hn => hexec ?plain, fun seq smac vid e q n ht hcb hs => ?stream⟩
  case plain => exact (htake (mt he.mpr e) (mt hq.mpr q) n).trans (State.takeFrame_of_passed (State.eliminate_of_plain f.tie hn))
  case stream =>
    intro same old st put v
    have hel : u.eliminate p.val h f.tie = if f.tie = true ∧ p.val % 2 = 1 then (false, u.inc (Fd.FP_PORT_CB_ELIM_CNT.COUNT p.val))
        else if (recover old seq).1 = true then (true, v) else (false, v.inc (Fd.FP_PORT_CB_ELIM_CNT.COUNT p.val)) :=
      State.eliminate_of_stream f.tie ht hcb hs
    refine hexec ((htake (mt he.mpr e) (mt hq.mpr q) n).trans ?_)
    clear_value v
    by_cases htie : f.tie = true ∧ p.val % 2 = 1
    · rw [if_pos htie] at hel ⊢
      exact State.takeFrame_of_heldBack hel
    rw [if_neg htie] at hel ⊢
    by_cases hr : (recover old seq).1 = true
    · rw [if_pos hr] at hel ⊢
      exact State.takeFrame_of_passed hel
    · rw [if_neg hr] at hel ⊢
      exact State.takeFrame_of_heldBack hel

end Sys2Proof.Machine
end

section
/-! Transmission of the field ports, and the time they keep (6.4, 6.7). -/

namespace Sys2Proof.Machine

variable {s : State} {p : Nat}

/-! ### Flags as conditions -/

@[simp] theorem State.on_eq_true_iff (s : State) (f : Fld) : s.on f = true ↔ s.get f ≠ 0 := by simp [State.on]
@[simp] theorem State.on_eq_false_iff (s : State) (f : Fld) : s.on f = false ↔ s.get f = 0 := by simp [State.on]

/-! ### Gates and queues -/

theorem State.gateChange_of_running (hn : s.get (Fd.FP_PORT_GATE.GCL_COUNT p) ≠ 0) (hr : s.frameRunning = true) :
    s.gateChange p = match (s.port p).gateAt with
      | none => ((s.set (Fd.FP_PORT_GATE.ENTRY p) 0).modPort p fun x =>
          { x with gateAt := some (s.tickTime + s.get (Fd.FP_PORT_OFS.OFS_NS p)) }).atTime (s.tickTime + s.get (Fd.FP_PORT_OFS.OFS_NS p))
      | some t0 => ((s.set (Fd.FP_PORT_GATE.ENTRY p) ((s.gateEntry p + 1) % s.get (Fd.FP_PORT_GATE.GCL_COUNT p))).modPort p fun x =>
          { x with gateAt := some (t0 + s.gateNs p (s.gateEntry p)) }).atTime (t0 + s.gateNs p (s.gateEntry p)) :=
  if_neg (by simp [hn, hr])

theorem State.queueTransmit_of_ready {tc : Nat} {f : TxFrame} {rest : List TxFrame} (hq : mapGet [] (s.port p).queues tc = f :: rest)
    (hw : (s.port p).wire = none) (hl : s.get (Fd.FP_PORT_STAT.LINK p) ≠ 0) (hm : s.mayStart p tc f = true) :
    s.queueTransmit p tc =
      let stamp := s.near (s.now + s.wireNs p 8 + s.get (Fd.FP_PORT_LAT.TX_EXT p)) (s.stampError p)
      (s.drawn.modPort p fun y => { y with queues := mapSet [] y.queues tc rest, wire := some f, wireAt := stamp }).ptpSent p f stamp := by
  unfold State.queueTransmit
  dsimp only
  rw [hq, hw]
  exact if_pos (by simp [State.portUp, hl, hm])

/-! ### Links -/

theorem State.fieldUp_of_held (hl : s.get (Fd.FP_PORT_STAT.LINK p) = 0) (hm : s.get (Fd.FP_PORT_CFG.MODE p) ≠ 0)
    (hg : (s.groveOfPort p).isSome = true) (hd : s.get Fd.CFG_STAT.DONE ≠ 0) (hs : s.get Fd.CFG_STAT.SAFE_HOLD = 0) :
    s.fieldUp p = (s.set (Fd.FP_PORT_STAT.AN_DONE p) (b2n (s.portMode p == 5 ||
      ((s.portMode p == 1 || s.portMode p == 2) && s.on (Fd.FP_PORT_CFG.AN p))))).linkChange p true :=
  if_neg (by simp [State.portUp, State.portMode, hl, hm, Option.isSome_iff_ne_none.mp hg, hd, hs])

theorem State.autoNegotiates_iff (s : State) (p : Nat) :
    (s.portMode p == 5 || ((s.portMode p == 1 || s.portMode p == 2) && s.on (Fd.FP_PORT_CFG.AN p))) = true ↔
      s.get (Fd.FP_PORT_CFG.MODE p) = 5 ∨
        (s.get (Fd.FP_PORT_CFG.MODE p) = 1 ∨ s.get (Fd.FP_PORT_CFG.MODE p) = 2) ∧ s.get (Fd.FP_PORT_CFG.AN p) ≠ 0 := by
  simp [State.portMode]

theorem b2n_of_iff {b : Bool} {P : Prop} [Decidable P] (h : b = true ↔ P) : b2n b = if P then 1 else 0 := ite_of_iff h rfl rfl

/-- A frame of software's transmit channels. -/
def isSoftware (f : TxFrame) : Bool :=
  match f.kind with
  | .software .. => true
  | _ => false

theorem State.fieldLinkDown_of_up (hl : s.get (Fd.FP_PORT_STAT.LINK p) ≠ 0) :
    s.fieldLinkDown p = ((((s.port p).wire.toList ++ (s.port p).queues.flatMap (·.2)).filter isSoftware).foldl (fun w f => w.txDone? f.kind 3 0)
      (s.modPort p fun y => { y with queues := (y.queues.map fun e => (e.1, e.2.filter fun f => !isSoftware f)).filter fun e => !e.2.isEmpty })).fieldDown p := by
  unfold State.fieldLinkDown
  extract_lets x wire soft lost u
  have hwire : wire = x.wire.toList := by
    show (match x.wire with | some f => [f] | none => []) = _
    cases x.wire <;> rfl
  rw [if_neg (by simp [State.portUp, hl])]
  simp only [lost, hwire]
  rfl

theorem State.linkChange_eq (s : State) (p : Nat) (up : Bool) :
    s.linkChange p up =
      let u := (s.set (Fd.FP_PORT_STAT.LINK p) (if up then 1 else 0)).set (Fd.FP_PORT_STAT.LINK_CHG p) 1
      let v := u.setReg (Rg.FP_LINK (p / 32)) (setBits (u.reg (Rg.FP_LINK (p / 32))) (p % 32) (p % 32) (if up then 1 else 0))
      (v.set Fd.FP_STAT.LINK_CHG 1).pulse (v.get Fd.FP_IRQ_SRC.LINK_SRC) := rfl

/-- The template frames that wait in the queues of a port. -/
theorem sum_templates (q : List (Nat × List TxFrame)) (n : Nat) :
    q.foldl (fun acc e => acc + (e.2.filter isTemplateFrame).length) n = n + (q.map fun e => (e.2.filter isTemplateFrame).length).sum := by
  induction q generalizing n with
  | nil => rfl
  | cons e t ih => rw [List.foldl_cons, ih, List.map_cons, List.sum_cons, Nat.add_assoc]

theorem cutTemplates (o : Option TxFrame) :
    (match o with | some f => b2n (isTemplateFrame f) | none => 0) = (o.toList.filter isTemplateFrame).length := by
  cases o with
  | none => rfl
  | some f =>
    show b2n (isTemplateFrame f) = ([f].filter isTemplateFrame).length
    cases h : isTemplateFrame f <;> simp [h, b2n]

theorem State.tplDrop_eq (s : State) (p n : Nat) :
    s.tplDrop p n = if n = 0 then s else (s.count (Fd.FP_PORT_TPL_DROP_CNT.COUNT p) n).set Fd.FP_STAT.TPL_DROP 1 :=
  ite_of_iff beq_iff_eq rfl rfl

/-- The template frames that a port loses with its link: those that wait, and one cut off on the wire (R204). -/
def State.templatesLost (s : State) (p : Nat) : Nat :=
  (((s.port p).queues.map fun e => (e.2.filter isTemplateFrame).length).sum) + ((s.port p).wire.toList.filter isTemplateFrame).length

theorem State.fieldDown_of_up (hl : s.get (Fd.FP_PORT_STAT.LINK p) ≠ 0) :
    s.fieldDown p = (((s.modPort p fun y => { y with
      queues := (y.queues.map fun e => (e.1, e.2.filter fun f => !isTemplateFrame f)).filter (fun e => !e.2.isEmpty)
      wire := none }).set (Fd.FP_PORT_STAT.AN_DONE p) 0).tplDrop p (s.templatesLost p)).linkChange p false := by
  have hn : (s.port p).queues.foldl (fun acc e => acc + (e.2.filter isTemplateFrame).length) 0 +
      (match (s.port p).wire with | some f => b2n (isTemplateFrame f) | none => 0) = s.templatesLost p := by
    rw [sum_templates, cutTemplates, Nat.zero_add]; rfl
  rw [← hn]
  exact if_neg (by simp [State.portUp, hl])

theorem State.transmissionEnd_of_wire {f : TxFrame} (h : (s.port p).wire = some f) :
    s.transmissionEnd p = ((s.modPort p fun x => { x with wire := none }).modField fun x =>
      { x with sent := (p, f) :: x.sent }).txDone? f.kind 1 (s.port p).wireAt := by
  unfold State.transmissionEnd
  dsimp only
  rw [h]

theorem State.txDone_of_unstamped {k : TxKind} (status stamp : Nat) (h : ∀ e c n, k ≠ .software e c n true) : s.txDone? k status stamp = s := by
  cases k with
  | software e c n ts =>
    cases ts with
    | true => exact absurd rfl (h e c n)
    | false => rfl
  | _ => rfl

theorem State.txDone_of_job {e c n : Nat} {j : DmaJob} {d : List Byte} (status stamp : Nat) (hj : (s.eng e).job = some j) (hd : j.desc = some d) :
    s.txDone? (.software e c n true) status stamp =
      if j.sent = some n then s.descEnd e { j with sent := none } d status 0 (if status = 1 then j.moved else 0) stamp else s := by
  unfold State.txDone?
  dsimp only
  rw [hj]
  dsimp only
  rw [hd]
  exact ite_of_iff beq_iff_eq (by simp) rfl

/-! ### The counters of the ports -/

/-- The offsets that `FP_CTL.CNT_CLR` clears, as the model tests them. -/
def isPortCounter (i : Nat) : Bool :=
  Rg.FP_PORT_RX_CNT 0 ≤ i && i < Rg.FP_PORT_RX_CNT 72 && 0x14 ≤ i % 128 && i % 128 < 0x2C

theorem isPortCounter_iff {i : Nat} (h4 : i % 4 = 0) : isPortCounter i = true ↔ ∃ p k, p < 72 ∧ k < 6 ∧ i = Rg.FP_PORT_RX_CNT p + 4 * k := by
  simp only [isPortCounter, Bool.and_eq_true, decide_eq_true_eq]
  unfold Rg.FP_PORT_RX_CNT
  constructor
  · intro h
    exact ⟨(i - 0x10001014) / 128, (i - 0x10001014) % 128 / 4, by omega, by omega, by omega⟩
  · rintro ⟨p, k, hp, hk, rfl⟩
    omega

theorem State.fpCntClr_reg (s : State) (i : Nat) : s.fpCntClr.reg i = if isPortCounter i = true then 0 else s.reg i := by
  have hregs : s.fpCntClr.regs = s.regs.filter fun e => !isPortCounter e.1 := rfl
  unfold State.reg mapGet
  rw [hregs]
  split
  · next h => rw [mapGet?_filter_out (p := fun i => !isPortCounter i) (by rw [h]; rfl)]; rfl
  · next h => rw [mapGet?_filter_ne (p := fun i => !isPortCounter i) (by simpa using h)]

/-! ### Messages -/

@[simp] theorem length_beBytes (n v : Nat) : (beBytes n v).length = n := by simp [beBytes]

@[simp] theorem length_ptpTime (t : Nat) : (ptpTime t).length = 10 := by simp [ptpTime]

theorem sliceB_append (x y z : List Byte) {off n : Nat} (hx : x.length = off) (hy : y.length = n) : sliceB (x ++ (y ++ z)) off n = y := by
  subst hx hy
  simp [sliceB]

/-- A message is a header of 48 bytes, its body and the padding of its frame. -/
theorem State.ptpFrame_eq (s : State) (p msg seq logInt flags : Nat) (body : List Byte) :
    ∃ head pad : List Byte, head.length = 48 ∧ s.ptpFrame p msg seq logInt flags body = head ++ (body ++ pad) := by
  unfold State.ptpFrame
  extract_lets mac clock control b
  refine ⟨_, _, ?_, List.append_assoc ..⟩
  simp [clock]

theorem State.sliceB_ptpFrame (s : State) (p msg seq logInt flags : Nat) {x y z : List Byte} {off n : Nat} (hx : 48 + x.length = off)
    (hy : y.length = n) : sliceB (s.ptpFrame p msg seq logInt flags (x ++ (y ++ z))) off n = y := by
  obtain ⟨head, pad, hh, he⟩ := s.ptpFrame_eq p msg seq logInt flags (x ++ (y ++ z))
  rw [he, show head ++ (x ++ (y ++ z) ++ pad) = (head ++ x) ++ (y ++ (z ++ pad)) by simp only [List.append_assoc]]
  exact sliceB_append _ _ _ (by rw [List.length_append, hh, hx]) hy

theorem State.ptpFrame_time (s : State) (p msg seq logInt flags t : Nat) (z : List Byte) :
    sliceB (s.ptpFrame p msg seq logInt flags (ptpTime t ++ z)) 48 10 = ptpTime t := by
  rw [← List.nil_append (ptpTime t ++ z)]
  exact s.sliceB_ptpFrame p msg seq logInt flags rfl (length_ptpTime t)

theorem State.isMaster_of (hr : s.get (Fd.FP_PORT_CFG.PTP p) = 1) (hl : s.get (Fd.FP_PORT_STAT.LINK p) ≠ 0) : s.isMaster p = true := by
  simp [State.isMaster, State.ptpRole, State.portUp, hr, hl]

theorem State.syncTransmit_of_master (h : s.isMaster p = true) :
    s.syncTransmit p = (s.ptpSend p 0 (s.ptpFrame p 0 (s.port p).syncSeq s.logSync 0x0208 (List.replicate 10 0))).modPort p fun x =>
      { x with syncSeq := ((s.port p).syncSeq + 1) % 2 ^ 16 } := if_neg (by simp [h])

theorem State.announceTransmit_of_master (h : s.isMaster p = true) :
    ∃ announce : List Byte, s.announceTransmit p = (s.ptpSend p 11 announce).modPort p fun x =>
      { x with annSeq := ((s.port p).annSeq + 1) % 2 ^ 16 } := ⟨_, if_neg (by simp [h])⟩

theorem State.pdelayAnswer_of_master (seq rx clock num : Nat) (h : s.isMaster p = true) :
    s.pdelayAnswer p seq rx clock num = s.ptpSend p 3 (s.ptpFrame p 3 seq 0x7F 0x0208 (ptpTime rx ++ beBytes 8 clock ++ beBytes 2 num)) :=
  if_neg (by simp [h])

theorem State.pdelayReq_of_slave (hr : s.get (Fd.FP_PORT_CFG.PTP p) = 2) (hl : s.get (Fd.FP_PORT_STAT.LINK p) ≠ 0) :
    ∃ req : List Byte, s.pdelayReq p = (s.ptpSend p 2 req).modPort p fun x =>
      { x with pdSeq := ((s.port p).pdSeq + 1) % 2 ^ 16, pdT1 := none } :=
  ⟨_, if_neg (by simp [State.ptpRole, State.portUp, hr, hl])⟩

theorem State.pdelayDone_of_slave (m : PdelayMsg) {t1 : Nat} (hr : s.get (Fd.FP_PORT_CFG.PTP p) = 2) (h1 : (s.port p).pdT1 = some t1) :
    s.pdelayDone p m = s.modPort p fun x => { x with
      pdT1 := none, pdelay := (quotFree (((m.t4.toNat : Int) - t1) - ((m.t3.toNat : Int) - m.t2.toNat)) 2).toNat } := by
  unfold State.pdelayDone
  rw [h1]
  exact if_neg (by simp [State.ptpRole, hr])

theorem State.ptpSent_of_kind (f : TxFrame) (stamp : Nat) (h : ∀ k, f.kind ≠ .ptp k) : s.ptpSent p f stamp = s := by
  obtain ⟨kind, bytes⟩ := f
  cases kind with
  | ptp k => exact absurd rfl (h k)
  | _ => rfl

/-! ### The discipline of the counter -/

/-- The offset that a Sync measures. -/
def State.syncOffset (s : State) (p : Nat) (m : SyncMsg) : Int := (m.rx.toNat : Int) - (m.origin.toNat + (s.port p).pdelay : Nat)

theorem State.syncReceived_of_source (m : SyncMsg) (hr : s.get (Fd.FP_PORT_CFG.PTP p) = 2) (ha : s.get Fd.FP_TIME_CFG.AS_SOURCE ≠ 0)
    (hl : s.get (Fd.FP_PORT_STAT.LINK p) ≠ 0) (hc : s.get Fd.CAS_TIME_STAT.ROLE = 1) :
    s.syncReceived p m =
      let o := s.syncOffset p m
      let u := s.set Fd.TIME_STAT.SOURCE 2
      let n := if o.natAbs ≤ 100 then u.field.goodSyncs + 1 else 0
      let v := (((u.set Fd.FP_TIME_OFS.OFS_NS (satInt 32 o)).set Fd.TIME_RATE.PPB (ofInt 32 (clampRate (quotFree (8 * m.freq - o) 8)))).lower
        Fd.TIME_STAT.HOLDOVER)
      let w := v.modField fun f => { f with goodSyncs := min n 8, lastSync := some v.now }
      if (!u.field.stepped) = true then (u.stepSync o).modField fun f => { f with stepped := true, lastSync := some (u.stepSync o).now }
      else if 8 ≤ n then w.raise Fd.TIME_STAT.ACQUIRED else w :=
  (if_neg (by simp [State.ptpRole, State.portUp, hr, ha, hl, hc])).trans (by rfl)

theorem State.fieldTimeLost_of_acquired {t : Nat} (hs : s.field.lastSync = some t) (ha : s.get Fd.FP_TIME_CFG.AS_SOURCE ≠ 0)
    (hq : s.get Fd.TIME_STAT.ACQUIRED ≠ 0) (hh : s.get Fd.TIME_STAT.HOLDOVER = 0) :
    s.fieldTimeLost =
      let u := (s.atTime (t + 3 * s.syncNs)).set Fd.TIME_STAT.HOLDOVER 1
      (u.set Fd.FP_STAT.TIME_LOSS 1).pulse (u.get Fd.FP_IRQ_SRC.TIME_SRC) := by
  unfold State.fieldTimeLost
  rw [hs]
  exact if_neg (by simp [ha, hq, hh])

/-- Settles O19: each event of a port by the lemma of its case, and the clear of the counters by the fold over their fields. -/
theorem portTransmissionAndTime : Obligations.PortTransmissionAndTime := by
  unfold Obligations.PortTransmissionAndTime
  refine ⟨⟨fun p s hn hr => ⟨fun hg => ?first, fun t0 hg => ?next⟩, fun p tc s f rest hq hw hl hm => ?queue, fun p s hl hm hg hd hs => ?up,
    fun p s hl => ?down, fun w p hl => ?lost, fun p s f h => ?ended, fun u k status stamp h => ?unstamped,
    fun u e c n j d status stamp hj hd => ?stamped, fun s p up => s.linkChange_eq p up, fun r s ha => ?clear⟩,
    fun p s hr hl => ⟨?sync, ?announce, fun q rx clock num => ?answer⟩, fun s p f stamp => ⟨fun hk => ?follow, fun hk => ?respFollow, fun hk => ?start, ?none⟩,
    fun p s hr => ⟨fun hl => ?req, fun m t1 h1 => ?resp, fun m ha hl hc => ⟨fun hst => ?step, fun hst => ?steer⟩⟩, fun s t hs ha hq hh => ?loss⟩
  case first => exact congrArg Host.Outcome.next ((State.gateChange_of_running hn hr).trans (by rw [hg]))
  case next => exact congrArg Host.Outcome.next ((State.gateChange_of_running hn hr).trans (by rw [hg]; simp only [State.gateNs, Nat.mul_comm 8]; rfl))
  case queue => exact congrArg Host.Outcome.next (State.queueTransmit_of_ready hq hw hl hm)
  case up => exact congrArg Host.Outcome.next ((State.fieldUp_of_held hl hm hg hd hs).trans (by rw [b2n_of_iff (s.autoNegotiates_iff p.val)]))
  case down => exact congrArg Host.Outcome.next (State.fieldLinkDown_of_up hl)
  case lost => rw [State.fieldDown_of_up hl, State.tplDrop_eq]; rfl
  case ended => exact congrArg Host.Outcome.next (State.transmissionEnd_of_wire h)
  case unstamped => exact State.txDone_of_unstamped status stamp h
  case stamped => exact State.txDone_of_job status stamp hj hd
  case clear =>
    refine answers_of_admitted ha rfl ⟨fun p k hp hk => ?cleared, fun i h4 hi => ?other, by simp [State.fpCntClr, accepted], by simp [State.fpCntClr, accepted],
      by simp [State.fpCntClr, accepted]⟩
    case cleared => rw [State.fpCntClr_reg, if_pos ((isPortCounter_iff (by simp [Rg.FP_PORT_RX_CNT]; omega)).mpr ⟨p, k, hp, hk, rfl⟩)]
    case other =>
      rw [State.fpCntClr_reg, if_neg, accepted_reg]
      rw [isPortCounter_iff h4]
      rintro ⟨p, k, hp, hk, rfl⟩
      exact hi p k hp hk rfl
  case sync => exact ⟨_, congrArg Host.Outcome.next (State.syncTransmit_of_master (State.isMaster_of hr hl))⟩
  case announce =>
    obtain ⟨announce, h⟩ := State.announceTransmit_of_master (State.isMaster_of hr hl)
    exact ⟨announce, congrArg Host.Outcome.next h⟩
  case answer =>
    refine ⟨_, congrArg Host.Outcome.next (State.pdelayAnswer_of_master _ _ _ _ (State.isMaster_of hr hl)), ?time, ?port⟩
    case time => rw [List.append_assoc]; exact s.ptpFrame_time ..
    case port =>
      rw [List.append_assoc, ← List.append_nil (beBytes 8 clock.toNat ++ beBytes 2 num.toNat)]
      exact s.sliceB_ptpFrame _ _ _ _ _ (by rw [length_ptpTime]) (by simp)
  case follow =>
    obtain ⟨kind, bytes⟩ := f
    subst hk
    exact ⟨_, rfl, s.ptpFrame_time ..⟩
  case respFollow =>
    obtain ⟨kind, bytes⟩ := f
    subst hk
    exact ⟨_, rfl, s.ptpFrame_time ..⟩
  case start =>
    obtain ⟨kind, bytes⟩ := f
    subst hk
    rfl
  case none => exact State.ptpSent_of_kind f stamp
  case req =>
    obtain ⟨req, h⟩ := State.pdelayReq_of_slave hr hl
    exact ⟨req, congrArg Host.Outcome.next h⟩
  case resp => exact congrArg Host.Outcome.next (State.pdelayDone_of_slave m hr h1)
  case step =>
    have hst' : (s.set Fd.TIME_STAT.SOURCE 2).field.stepped = false := by simpa using hst
    refine congrArg Host.Outcome.next ((State.syncReceived_of_source m hr ha hl hc).trans ((if_pos (by rw [hst']; rfl)).trans ?_))
    simp [State.stepSync, State.syncOffset]
  case steer =>
    have hst' : (s.set Fd.TIME_STAT.SOURCE 2).field.stepped = true := by simpa using hst
    refine congrArg Host.Outcome.next ((State.syncReceived_of_source m hr ha hl hc).trans ((if_neg (by rw [hst']; decide)).trans ?_))
    rfl
  case loss => exact congrArg Host.Outcome.next (State.fieldTimeLost_of_acquired hs ha hq hh)

end Sys2Proof.Machine
end

section
/-! The DMA engines: control writes and bus errors, jobs, packet channels (chapter 13). -/

namespace Sys2Proof.Machine

variable {s : State} {e c : Nat} {j : DmaJob} {d : List Byte}

/-- A row that refuses on a condition and acts otherwise. -/
theorem ite_refused {α : Type} {b : Bool} {P : Prop} [Decidable P] (h : b = true ↔ ¬ P) (x y : α) :
    (if b = true then x else y) = if P then y else x := by
  by_cases hp : P
  · rw [if_pos hp, if_neg (fun hb => h.mp hb hp)]
  · rw [if_neg hp, if_pos (h.mpr hp)]

/-! ### Control writes -/

theorem State.dmaHead_eq (s : State) (r : Requester) (e c v : Nat) :
    s.dmaHead r e c v = if s.mayWriteEngine r e = true ∧
        (v + 2 ^ 32 - s.get (Fd.DMA_CH_DONE.DONE e c)) % 2 ^ 32 ≤ 2 ^ s.get (Fd.DMA_CH_CFG.LOG2 e c)
      then s.set (Fd.DMA_CH_HEAD.HEAD e c) v else s := by
  unfold State.dmaHead State.chDone
  refine ite_refused ?_ _ _
  rw [Bool.or_eq_true, Bool.not_eq_true', decide_eq_true_eq, Classical.not_and_iff_not_or_not, Bool.not_eq_true, Nat.not_le]

theorem State.dmaStart_eq (s : State) (r : Requester) (e c : Nat) :
    s.dmaStart r e c = if s.mayWriteEngine r e = true ∧ s.get (Fd.DMA_ENG_STAT.ERR e) = 0 ∧ s.get (Fd.DMA_CH_STAT.RUN e c) = 0
      then s.set (Fd.DMA_CH_STAT.RUN e c) 1 else s := by
  unfold State.dmaStart State.chRun
  refine ite_refused ?_ _ _
  rw [Bool.or_eq_true, Bool.or_eq_true, Bool.not_eq_true', State.on_eq_true_iff, State.on_eq_true_iff, Classical.not_and_iff_not_or_not, Classical.not_and_iff_not_or_not, Bool.not_eq_true,
    or_assoc]

theorem State.dmaStop_of_writer {r : Requester} (hm : s.mayWriteEngine r e = true) (hr : s.get (Fd.DMA_CH_STAT.RUN e c) ≠ 0) :
    s.dmaStop r e c = match (s.eng e).job with
      | some j => if j.ch == c then s.setChan e c { s.chan e c with stop := true } else s.chHalt e c
      | none => s.chHalt e c :=
  (if_pos hm).trans (if_neg (by simp [State.chRun, hr]))

/-! ### Bus errors -/

/-- An offset apart from the router's registers. -/
def apartFromRouter (i : Nat) : Prop := i < Rg.IRQ_CTL ∨ Rg.IRQ_SRC_CFG 4096 ≤ i

theorem State.pulse_field_irqOnly (s u : State) {f : Fld} (hf : f.hi + 1 - f.lo ≤ 12) : IrqOnly u (u.pulse (s.get f)) :=
  u.pulse_irqOnly (Nat.lt_of_lt_of_le (bits_lt ..) (Nat.pow_le_pow_right (by decide) hf))

/-- A channel stops with ERR_STOP and its event (R438). -/
def State.chStopErr (s : State) (e c : Nat) : State := (s.chHalt e c).chEvent e c (Fd.DMA_CH_STAT.ERR_STOP e c) true

theorem State.chStopErr_irqOnly (s : State) (e c : Nat) :
    IrqOnly ((s.chHalt e c).set (Fd.DMA_CH_STAT.ERR_STOP e c) 1) (s.chStopErr e c) :=
  State.pulse_field_irqOnly _ _ (f := Fd.DMA_CH_CFG.IRQ_SRC e c) (of_decide_eq_true rfl)

theorem dmaStat_apart (e c : Nat) : apartFromRouter (Rg.DMA_CH_STAT e c) := .inr (by unfold Rg.IRQ_SRC_CFG Rg.DMA_CH_STAT; omega)

theorem State.chStopErr_stopped (s : State) (e c : Nat) :
    (s.chStopErr e c).get (Fd.DMA_CH_STAT.RUN e c) = 0 ∧ (s.chStopErr e c).get (Fd.DMA_CH_STAT.ERR_STOP e c) = 1 := by
  rw [(s.chStopErr_irqOnly e c).get (Fd.DMA_CH_STAT.RUN e c) (dmaStat_apart e c),
    (s.chStopErr_irqOnly e c).get (Fd.DMA_CH_STAT.ERR_STOP e c) (dmaStat_apart e c)]
  refine ⟨?run, State.get_set _ _ _ (of_decide_eq_true rfl) (of_decide_eq_true rfl)⟩
  have hoff : (Fd.DMA_CH_STAT.ERR_STOP e c).off = (Fd.DMA_CH_STAT.RUN e c).off := rfl
  rw [State.get_set_below _ _ hoff (of_decide_eq_true rfl) (of_decide_eq_true rfl) (of_decide_eq_true rfl) (of_decide_eq_true rfl)]
  unfold State.chHalt State.lower State.setChan
  rw [State.modDma_get, State.get_set] <;> exact of_decide_eq_true rfl

theorem State.chStopErr_reg (s : State) {i : Nat} (hi : apartFromRouter i) (hne : Rg.DMA_CH_STAT e c ≠ i) : (s.chStopErr e c).reg i = s.reg i := by
  rw [(s.chStopErr_irqOnly e c).regs i hi, State.reg_set_ne _ _ hne]
  unfold State.chHalt State.lower State.setChan
  rw [State.modDma_reg, State.reg_set_ne _ _ hne]

theorem IrqOnly.dma {s t : State} (h : IrqOnly s t) : t.dma = s.dma := by have e := congrArg State.dma h.rest; exact e

theorem State.chStopErr_eng (s : State) (e c k : Nat) : (s.chStopErr e c).eng k = s.eng k := by
  unfold State.eng
  rw [(s.chStopErr_irqOnly e c).dma, State.set_dma]
  unfold State.chHalt State.lower State.setChan
  rw [State.modDma_dma, State.set_dma]

/-- Every channel of a list stops; what is apart from them and the router stands. -/
theorem State.each_chStopErr (s : State) (e : Nat) (l : List Nat) :
    let t := s.each l fun s c => s.chStopErr e c
    (∀ c ∈ l, t.get (Fd.DMA_CH_STAT.RUN e c) = 0 ∧ t.get (Fd.DMA_CH_STAT.ERR_STOP e c) = 1) ∧
    (∀ i, apartFromRouter i → (∀ c ∈ l, Rg.DMA_CH_STAT e c ≠ i) → t.reg i = s.reg i) ∧ ∀ k, t.eng k = s.eng k := by
  unfold State.each
  induction l generalizing s with
  | nil => exact ⟨nofun, fun _ _ _ => rfl, fun _ => rfl⟩
  | cons c l ih =>
    obtain ⟨hstop, hreg, heng⟩ := ih (s.chStopErr e c)
    rw [List.foldl_cons]
    refine ⟨fun k hk => ?stopped, fun i hi hne => ?reg, fun k => (heng k).trans (s.chStopErr_eng e c k)⟩
    case reg => rw [hreg i hi fun k hk => hne k (List.mem_cons_of_mem _ hk), State.chStopErr_reg _ hi (hne c List.mem_cons_self)]
    case stopped =>
      by_cases hl : k ∈ l
      · exact hstop k hl
      · obtain rfl : k = c := (List.mem_cons.mp hk).resolve_right hl
        have hk : (List.foldl (fun s c => s.chStopErr e c) (s.chStopErr e k) l).reg (Rg.DMA_CH_STAT e k) = (s.chStopErr e k).reg (Rg.DMA_CH_STAT e k) :=
          hreg _ (dmaStat_apart e k) fun x hx h => hl (by
            have : x = k := by unfold Rg.DMA_CH_STAT at h; omega
            exact this ▸ hx)
        unfold State.get
        dsimp only [Fd.DMA_CH_STAT.RUN, Fd.DMA_CH_STAT.ERR_STOP]
        rw [hk]
        exact s.chStopErr_stopped e k

theorem State.jobEnd_eng (s : State) (e : Nat) : ((s.jobEnd e).eng e).job = none := by
  unfold State.jobEnd
  split
  · unfold State.setEng State.eng
    rw [State.modDma_dma, mapGet_set, if_pos rfl]
  · next h => exact h

/-- The error record of an engine (R438). -/
def engErrWord (a : Nat) (wr desc : Bool) (kind ch : Nat) : Nat :=
  a % 2 ^ 40 + b2n wr * 2 ^ 40 + b2n desc * 2 ^ 41 + kind * 2 ^ 42 + (if wr then ch else 0x1F) * 2 ^ 45

theorem b2n_le (b : Bool) : b2n b ≤ 1 := by cases b <;> decide

theorem engErrWord_lt {a kind ch : Nat} (wr desc : Bool) (hk : kind < 8) (hc : ch < 32) : engErrWord a wr desc kind ch < 2 ^ 64 := by
  have ha : a % 2 ^ 40 < 2 ^ 40 := Nat.mod_lt _ (by decide)
  have hw := b2n_le wr
  have hd := b2n_le desc
  have hch : (if wr then ch else 0x1F) ≤ 31 := by split <;> omega
  unfold engErrWord
  omega

/-- The state of an engine that has met a bus error, before its doorbell. -/
def State.engStopped (s : State) (e a : Nat) (wr desc : Bool) (kind ch : Nat) : State :=
  ((((s.jobEnd e).each (List.range 16) fun s c => s.chStopErr e c).setReg (Rg.DMA_ENG_ERR e) (engErrWord a wr desc kind ch)).inc
    (Fd.DMA_ENG_ERR_CNT.COUNT e)).set (Fd.DMA_ENG_STAT.ERR e) 1

theorem State.engError_irqOnly (s : State) (e a : Nat) (wr desc : Bool) (kind ch : Nat) :
    IrqOnly (s.engStopped e a wr desc kind ch) (s.engError e a wr desc kind ch) :=
  State.pulse_field_irqOnly _ _ (f := Fd.DMA_ENG_CFG.ERR_SRC e) (of_decide_eq_true rfl)

theorem State.inc_dma (s : State) (f : Fld) : (s.inc f).dma = s.dma := rfl

theorem State.inc_reg_ne (s : State) {f : Fld} {i : Nat} (h : f.off ≠ i) : (s.inc f).reg i = s.reg i := s.reg_set_ne _ h

/-- What a bus error leaves of its engine (R438). -/
theorem State.engError_after (s : State) {a kind ch : Nat} (e : Nat) (wr desc : Bool) (hk : kind < 8) (hc : ch < 32) :
    let t := s.engError e a wr desc kind ch
    (t.eng e).job = none ∧ (∀ c, c < 16 → t.get (Fd.DMA_CH_STAT.RUN e c) = 0 ∧ t.get (Fd.DMA_CH_STAT.ERR_STOP e c) = 1) ∧
    t.get (Fd.DMA_ENG_STAT.ERR e) = 1 ∧ t.reg (Rg.DMA_ENG_ERR e) = engErrWord a wr desc kind ch := by
  have hirq := s.engError_irqOnly e a wr desc kind ch
  obtain ⟨hstop, -, heng⟩ := (s.jobEnd e).each_chStopErr e (List.range 16)
  have apart {i : Nat} (hi : 0x20000000 ≤ i) : apartFromRouter i := .inr (by unfold Rg.IRQ_SRC_CFG; omega)
  refine ⟨?job, fun c hc => ?channels, ?err, ?word⟩
  case job =>
    unfold State.eng at heng ⊢
    rw [hirq.dma]
    unfold State.engStopped
    rw [State.set_dma, State.inc_dma, State.setReg_dma, heng]
    exact s.jobEnd_eng e
  case channels =>
    have hreg : (s.engStopped e a wr desc kind ch).reg (Rg.DMA_CH_STAT e c) =
        ((s.jobEnd e).each (List.range 16) fun s c => s.chStopErr e c).reg (Rg.DMA_CH_STAT e c) := by
      unfold State.engStopped
      rw [State.reg_set_ne, State.inc_reg_ne, State.reg_setReg_ne] <;>
        simp only [Fd.DMA_ENG_STAT.ERR, Fd.DMA_ENG_ERR_CNT.COUNT, Rg.DMA_ENG_STAT, Rg.DMA_ENG_ERR_CNT, Rg.DMA_ENG_ERR, Rg.DMA_CH_STAT] <;> omega
    rw [hirq.get (Fd.DMA_CH_STAT.RUN e c) (dmaStat_apart e c), hirq.get (Fd.DMA_CH_STAT.ERR_STOP e c) (dmaStat_apart e c)]
    unfold State.get at hstop ⊢
    dsimp only [Fd.DMA_CH_STAT.RUN, Fd.DMA_CH_STAT.ERR_STOP] at hstop ⊢
    rw [hreg]
    exact hstop c (List.mem_range.mpr hc)
  case err =>
    rw [hirq.get _ (apart (by simp only [Fd.DMA_ENG_STAT.ERR, Rg.DMA_ENG_STAT]; omega))]
    exact State.get_set _ _ _ (of_decide_eq_true rfl) (of_decide_eq_true rfl)
  case word =>
    rw [hirq.regs _ (apart (by simp only [Rg.DMA_ENG_ERR]; omega))]
    unfold State.engStopped
    rw [State.reg_set_ne, State.inc_reg_ne, State.reg_setReg_lt _ _ (engErrWord_lt wr desc hk hc)] <;>
      simp only [Fd.DMA_ENG_STAT.ERR, Fd.DMA_ENG_ERR_CNT.COUNT, Rg.DMA_ENG_STAT, Rg.DMA_ENG_ERR_CNT, Rg.DMA_ENG_ERR] <;> omega

theorem State.targetError_of_work {a : Nat} (wr desc failed : Bool) (ch : Option Nat)
    (h : (s.eng e).job.isSome = true ∨ ∃ c, c < 16 ∧ s.get (Fd.DMA_CH_STAT.RUN e c) ≠ 0) :
    s.targetError e a wr desc failed ch =
      s.engError e a wr desc (if failed = true ∧ wr = false ∧ a < gddrSize then 4 else 3) (ch.getD 0x1F) := by
  have hw : ((s.eng e).job.isSome || (List.range 16).any (s.chRun e)) = true := by
    simpa [State.chRun] using h
  have hk : (failed && !wr && decide (a < gddrSize)) = true ↔ failed = true ∧ wr = false ∧ a < gddrSize := by simp [and_assoc]
  unfold State.targetError
  rw [if_pos hw, ite_of_iff hk rfl rfl]

/-- Settles O20: each control write by its lemma, and a bus error by the fold that stops the channels. -/
theorem dmaControlAndErrors : Obligations.DmaControlAndErrors := by
  unfold Obligations.DmaControlAndErrors
  refine ⟨fun r e c s => ⟨fun v ha => ?head, fun ha => ?start, fun ha hm hr => ⟨fun j hj hc => ?boundary, fun hj => ?now⟩, fun ha => ?clear⟩,
    fun e a wr desc failed ch s h => ?bus, fun s e a wr desc kind ch he ha hk hc => ?after⟩
  case head => exact (exec_of_admitted ha rfl).trans (congrArg Host.Outcome.next (State.dmaHead_eq ..))
  case start => exact (exec_of_admitted ha rfl).trans (congrArg Host.Outcome.next (State.dmaStart_eq ..))
  case boundary =>
    refine (exec_of_admitted ha rfl).trans (congrArg Host.Outcome.next ((State.dmaStop_of_writer hm hr).trans ?_))
    rw [hj]
    exact if_pos (beq_iff_eq.mpr hc)
  case now =>
    refine (exec_of_admitted ha rfl).trans (congrArg Host.Outcome.next ((State.dmaStop_of_writer hm hr).trans ?_))
    split
    · next j hjob => exact if_neg (by simpa using hj j hjob)
    · rfl
  case clear => exact exec_of_admitted ha rfl
  case bus => exact congrArg Host.Outcome.next (State.targetError_of_work wr desc failed _ h)
  case after =>
    obtain ⟨hjob, hch, herr, hword⟩ := s.engError_after (a := a) e wr desc hk hc
    exact ⟨hjob, hch, herr, hword.trans (by unfold engErrWord b2n; rw [Nat.mod_eq_of_lt ha])⟩

/-! ### Jobs in memory -/

theorem State.jobStart_of_idle (hj : (s.eng e).job = none) (hc : s.nextChannel e = some c) :
    s.jobStart e = (s.jobBegin e c).descRead e 4096 := by
  unfold State.jobStart
  rw [hj, hc]
  rfl

/-- The bytes of the element in turn: those read before, or those at its source. -/
def State.elemBytes (s : State) (e : Nat) (j : DmaJob) (d : List Byte) : DmaRes × State :=
  if j.buf = none then s.dmaRead e j.ch (dSrc d + j.elem * dSstride d) (dElem d) (dRt d) else (.ok (j.buf.getD []), s)

theorem State.elemAddr_of_linear (s : State) (e c i : Nat) (h : dCirc d = 0) :
    s.elemAddr e c d i = (dSrc d + i * dSstride d, dDst d + i * dDstride d) := by
  unfold State.elemAddr
  rw [h]
  rfl

theorem State.elemRun_of_written {u w : State} {bs x : List Byte} (hj : (s.eng e).job = some j) (hd : j.desc = some d)
    (hm : s.get (Fd.DMA_CH_CFG.MODE e j.ch) = 0) (hi : j.elem < dCount d) (hc : dCirc d = 0) (hn : j.ended = none)
    (hr : s.elemBytes e j d = (.ok bs, u)) (hw : u.dmaWrite e j.ch (dDst d + j.elem * dDstride d) bs (dRt d) = (.ok x, w)) :
    s.elemRun e = w.setEng e { w.eng e with job := some { j with elem := j.elem + 1, moved := j.moved + dElem d, buf := none } } := by
  unfold State.elemRun
  rw [hj]
  dsimp only
  rw [hd]
  dsimp only
  rw [if_neg (by simp [State.chMode, hm, hi, hn]), State.elemAddr_of_linear s _ _ _ hc]
  dsimp only
  unfold State.elemBytes at hr
  cases hb : j.buf with
  | none =>
    rw [if_pos hb] at hr
    dsimp only
    rw [hr]
    dsimp only
    rw [hw]
    exact if_pos (beq_iff_eq.mpr hc)
  | some b =>
    rw [if_neg (by simp [hb]), hb] at hr
    obtain ⟨hbs, rfl⟩ := Prod.mk.inj hr
    obtain rfl : b = bs := DmaRes.ok.inj hbs
    dsimp only
    rw [hw]
    exact if_pos (beq_iff_eq.mpr hc)

theorem State.descComplete_of_done (hj : (s.eng e).job = some j) (hd : j.desc = some d) (hm : s.get (Fd.DMA_CH_CFG.MODE e j.ch) = 0)
    (hi : dCount d ≤ j.elem) (hn : j.ended = none) : s.descComplete e = (s.descEnd e j d 1 0 j.moved 0).descRead e 4096 := by
  have hw : s.descWaits e = false := by unfold State.descWaits; rw [hj]; simp [hn]
  unfold State.descComplete
  rw [if_neg (by rw [hw]; decide), hj]
  dsimp only
  rw [hd]
  exact if_neg (by simp [State.chMode, hm, hi])

/-- The end of a descriptor that raises no event and stops nothing: DONE advances, and the job goes on or ends (R428). -/
theorem State.descEnd_of_written {w : State} {x : List Byte} {status queue xlen stamp : Nat}
    (hw : s.dmaWrite e j.ch (s.descAddr e j.ch (s.chDone e j.ch) + 0x20)
      (leBytes 1 status ++ leBytes 1 queue ++ leBytes 2 0 ++ leBytes 4 xlen ++ leBytes 8 stamp) (dRt d) = (.ok x, w))
    (hc : dCirc d = 0) (hi : dIrq d = false) (hh : dHalt d = false) (hs : status ≠ 4)
    (hstop : ((w.set (Fd.DMA_CH_DONE.DONE e j.ch) (s.chDone e j.ch + 1)).chan e j.ch).stop = false) :
    s.descEnd e j d status queue xlen stamp =
      let v := w.set (Fd.DMA_CH_DONE.DONE e j.ch) (s.chDone e j.ch + 1)
      if (v.chMode e j.ch == 0 && v.chRun e j.ch && v.chDone e j.ch != j.latch) = true
      then v.setEng e { v.eng e with job := some { ch := j.ch, latch := j.latch } } else v.jobEnd e := by
  unfold State.descEnd
  dsimp only
  rw [hw]
  dsimp only
  generalize w.set (Fd.DMA_CH_DONE.DONE e j.ch) (s.chDone e j.ch + 1) = v at hstop ⊢
  have hs' : (status == 4) = false := beq_false_of_ne hs
  have hc' : (status != 4 && dCirc d != 0 && v.chMode e j.ch == 0) = false := by simp [hc]
  simp only [State.iff, hi, hh, hs', hc', hstop, Bool.false_and, if_neg Bool.false_ne_true]

theorem State.jobGoesOn_iff (s : State) (e c latch : Nat) :
    (s.chMode e c == 0 && s.chRun e c && s.chDone e c != latch) = true ↔
      s.get (Fd.DMA_CH_CFG.MODE e c) = 0 ∧ s.get (Fd.DMA_CH_STAT.RUN e c) ≠ 0 ∧ s.get (Fd.DMA_CH_DONE.DONE e c) ≠ latch := by
  simp [State.chMode, State.chRun, State.chDone, and_assoc]

/-- Settles O21: the begin of a job, its element and its completion, each by the lemma of its case. -/
theorem dmaJobs : Obligations.DmaJobs := by
  unfold Obligations.DmaJobs
  refine ⟨fun e s c hj hc => congrArg Host.Outcome.next (State.jobStart_of_idle hj hc),
    fun e s u w j d bs x hj hd hm hi hc hn hr hw => congrArg Host.Outcome.next (State.elemRun_of_written hj hd hm hi hc hn hr hw),
    fun e s j d hj hd hm hi hn => congrArg Host.Outcome.next (State.descComplete_of_done hj hd hm hi hn),
    fun s w e j d x status queue xlen stamp => ?ended⟩
  intro i hw hc hi hh hs v hstop
  exact (State.descEnd_of_written hw hc hi hh hs hstop).trans (ite_of_iff (v.jobGoesOn_iff e j.ch j.latch) rfl rfl)

/-! ### Packet channels -/

/-- A packet channel's turn, as the statement has it (R424). -/
def State.turnOf (s : State) (e c : Nat) : Prop :=
  match (s.eng e).job with
  | some j => j.ch = c ∧ j.sent = none
  | none => s.nextChannel e = some c

theorem State.packetTurn_of_turn (h : s.turnOf e c) : s.packetTurn e c = true := by
  unfold State.turnOf at h
  unfold State.packetTurn
  cases hj : (s.eng e).job with
  | none => rw [hj] at h; simpa using h
  | some j => rw [hj] at h; simpa using h

theorem State.packetJob_eq (s : State) (e c : Nat) :
    s.packetJob e c = (if (s.eng e).job = none then s.jobBegin e c else s).descRead e 1 := by
  unfold State.packetJob
  cases (s.eng e).job <;> rfl

theorem State.rxJob_of_written {u w : State} {x : List Byte} {p q : Nat} {f : RxFrame} (ht : s.turnOf e c)
    (hm : s.get (Fd.DMA_CH_CFG.MODE e c) = 1) (hn : s.descWaits e = false) (hu : s.packetJob e c = u) (hj : (u.eng e).job = some j)
    (hd : j.desc = some d) (hp : u.chPort e c = some p) (hf : (u.port p).nextRx = some (q, f))
    (hw : u.dmaWrite e c (dDst d) (f.bytes.take (dCount d)) (dRt d) = (.ok x, w)) :
    s.rxJob e c = ((w.modPort p fun y => { y with rxQueue := dropRx q y.rxQueue }).descEnd e j d
      (if dCount d < f.bytes.length then 2 else 1) q f.bytes.length f.capture.toNat).rxSettle p q := by
  unfold State.rxJob
  rw [if_neg (by simp [State.packetTurn_of_turn ht, State.chMode, hm]), if_neg (by simp [hn])]
  dsimp only
  rw [hu, hj, hp]
  dsimp only
  rw [hd, hf]
  dsimp only
  rw [hw]

theorem State.txJob_of_read {u w : State} {bs : List Byte} {p : Nat} (ht : s.turnOf e c)
    (hm : s.get (Fd.DMA_CH_CFG.MODE e c) = 2) (hn : s.descWaits e = false) (hu : s.packetJob e c = u) (hj : (u.eng e).job = some j)
    (hd : j.desc = some d) (hp : u.chPort e c = some p) (hr : u.dmaRead e c (dSrc d) (dCount d) (dRt d) = (.ok bs, w)) :
    s.txJob e c =
      let k := (w.eng e).frames
      let x := w.enqueue p (dTc d) { kind := .software e c k (dTsReq d), bytes := bs ++ List.replicate (60 - bs.length) 0 }
      let v := x.setEng e { w.eng e with frames := k + 1 }
      if dTsReq d = true then v.setEng e { v.eng e with job := some { j with sent := some k, moved := dCount d } }
      else v.descEnd e j d 1 0 (dCount d) 0 := by
  unfold State.txJob
  rw [if_neg (by simp [State.packetTurn_of_turn ht, State.chMode, hm]), if_neg (by simp [hn])]
  dsimp only
  rw [hu, hj, hp]
  dsimp only
  rw [hd]
  dsimp only
  rw [hr]

/-- Settles O22: whose turn it is, then the receive and the transmit job by the lemmas of their cases. -/
theorem dmaPackets : Obligations.DmaPackets := by
  unfold Obligations.DmaPackets
  intro turn
  refine ⟨fun e c s u w j d x p q f ht hm hn hu hj hd hp hf hw => ?receive, fun e c s u w j d bs p ht hm hn hu hj hd hp hr => ?transmit⟩
  case receive => exact congrArg Host.Outcome.next (State.rxJob_of_written ht hm hn ((s.packetJob_eq ..).trans hu) hj hd hp hf hw)
  case transmit =>
    have hrun := State.txJob_of_read ht hm hn ((s.packetJob_eq ..).trans hu) hj hd hp hr
    exact ⟨fun hts => congrArg Host.Outcome.next (hrun.trans (if_neg (by rw [hts]; decide))),
      fun hts => congrArg Host.Outcome.next (hrun.trans (if_pos hts))⟩

end Sys2Proof.Machine
end

section
/-! The Hawser links: bring-up, upkeep, end, and the frames that cross (7.2 to 7.6). -/

namespace Sys2Proof.Machine

variable {s : State} {p : Nat}

/-! ### Bring-up -/

theorem State.blockLock_of_training (h : s.get (Fd.CAS_PORT_STAT.STATE p) = 1) (hr : (s.hawser p).retry = none) :
    s.blockLock p = (s.setHw p 2).sendHello p := if_pos (by simp [State.hwState, h, hr])

theorem State.blockLockTimeout_of_training (h : s.get (Fd.CAS_PORT_STAT.STATE p) = 1) (hr : (s.hawser p).retry = none) :
    s.blockLockTimeout p = (s.atTime ((s.hawser p).began + 1000000)).hwFailCause p 0x01 := if_pos (by simp [State.hwState, h, hr])

theorem State.bringUpRetry_of_due {t : Nat} (h : (s.hawser p).retry = some t) : s.bringUpRetry p = (s.atTime t).bringUp p := by
  unfold State.bringUpRetry; rw [h]

/-- The neighbour's fields lie beside STATE. -/
theorem State.hwState_setNeighbour (s : State) (p dev port : Nat) :
    ((s.set (Fd.CAS_PORT_STAT.NBR_DEV p) dev).set (Fd.CAS_PORT_STAT.NBR_PORT p) port).hwState p = s.hwState p := by
  have hp : (Fd.CAS_PORT_STAT.NBR_PORT p).off = (Fd.CAS_PORT_STAT.STATE p).off := rfl
  have hd : (Fd.CAS_PORT_STAT.NBR_DEV p).off = (Fd.CAS_PORT_STAT.STATE p).off := rfl
  unfold State.hwState
  rw [State.get_set_below _ _ hp, State.get_set_below _ _ hd] <;> exact of_decide_eq_true rfl

theorem State.helloIn_of_locked (c : List Byte) (h : s.get (Fd.CAS_PORT_STAT.STATE p) = 2) :
    let m := sliceB c 16 48
    let u := (s.set (Fd.CAS_PORT_STAT.NBR_DEV p) (fieldB m 0 2)).set (Fd.CAS_PORT_STAT.NBR_PORT p) (fieldB m 5 1)
    let v := u.modHawser p fun x => { x with helloRx := some m, mgmtRx := x.mgmtRx ++ c }
    s.helloIn p c = if u.helloCause p m = 0 then (v.setHw p 3).sendKeying p else v.hwHold p (u.helloCause p m) := by
  intro m u v
  have hu : u.hwState p = 2 := (s.hwState_setNeighbour ..).trans h
  unfold State.helloIn
  rw [if_neg (by simp [State.hwState, h])]
  exact (if_pos (beq_iff_eq.mpr hu)).trans (ite_of_iff beq_iff_eq rfl rfl)

theorem State.chunkIn_of_keying (keyx : Bool) (c : List Byte) (h : s.get (Fd.CAS_PORT_STAT.STATE p) = 3) :
    s.chunkIn p keyx c = s.modHawser p fun x =>
      let x := { x with mgmtRx := x.mgmtRx ++ c }
      if keyx then { x with keyxRx := mapPut x.keyxRx (bits (cellField c) 15 0) (sliceB c 16 48) }
      else { x with certRx := mapPut x.certRx (bits (cellField c) 15 0) (sliceB c 16 48) } :=
  if_neg (by simp [State.hwState, h])

theorem State.keysDerived_of_joined {cert keyx : List Byte} (hc : joinChunks (s.hawser p).certRx 6 = some cert)
    (hk : joinChunks (s.hawser p).keyxRx 5 = some keyx) (h : s.get (Fd.CAS_PORT_STAT.STATE p) = 3) (hn : (s.hawser p).keys = none) :
    s.keysDerived p = if (s.certOk cert && Config.signatureValid (sliceB cert 0x20 97)
        (keyxMessage keyx ((s.hawser p).hellos p).1 ((s.hawser p).hellos p).2) (sliceB keyx 129 96)) = true then
        (s.modHawser p fun y => { y with keys := some (s.linkKeys p (s.hawser p).keyxTx keyx), txSeq := 0, rxSeq := 0 }).sendMgmt p 4 0
          ((s.hawser p).confirm p)
      else s.hwHold p 0x08 := by
  unfold State.keysDerived
  dsimp only
  rw [hc, hk]
  dsimp only
  exact if_neg (by simp [State.hwState, h, hn])

theorem State.confirmIn_of_keyed (c : List Byte) (h : s.get (Fd.CAS_PORT_STAT.STATE p) = 3) (hk : (s.hawser p).keys.isSome = true) :
    s.confirmIn p c = if sliceB c 16 48 = (s.hawser p).confirm p then s.setHw p 4 else s.confirmFail p := by
  unfold State.confirmIn
  dsimp only
  rw [if_neg (by simp [State.hwState, h, Option.isSome_iff_ne_none.mp hk])]
  exact ite_of_iff beq_iff_eq rfl rfl

/-! ### Upkeep and end -/

theorem State.hawserDown_of_up (h : s.get (Fd.CAS_PORT_STAT.STATE p) = 5) (hr : (s.hawser p).retry = none) : s.hawserDown p = s.hwFail p := by
  unfold State.hawserDown
  dsimp only
  rw [if_neg (by simp [State.hwState, h, hr]), if_neg (by simp [State.hwState, h]), if_pos (by simp [State.hwState, h])]

theorem State.closeIn_of_locked (h : 2 ≤ s.get (Fd.CAS_PORT_STAT.STATE p)) :
    s.closeIn p = if s.get (Fd.CAS_PORT_STAT.STATE p) = 6 ∧ s.get Fd.CFG_STAT.SAFE_HOLD ≠ 0 then s else s.hwFailCause p 0x0D := by
  have h' : ¬ s.get (Fd.CAS_PORT_STAT.STATE p) < 2 := Nat.not_lt.mpr h
  exact ite_of_iff (by simp [State.hwState, h']) rfl rfl

theorem State.diagReqIn_of_locked (c : List Byte) (h : 2 ≤ s.get (Fd.CAS_PORT_STAT.STATE p)) :
    s.diagReqIn p c = s.sendMgmt p 6 (bits (cellField c) 15 0) (sliceB c 16 48) := if_neg (Nat.not_lt.mpr h)

theorem State.diagRspIn_of_locked (c : List Byte) (h : 2 ≤ s.get (Fd.CAS_PORT_STAT.STATE p)) :
    s.diagRspIn p c = s.modHawser p fun x => { x with diag := some (sliceB c 16 48) } := if_neg (Nat.not_lt.mpr h)

theorem State.dreqOut_of_measuring (h : s.get (Fd.CAS_PORT_STAT.STATE p) = 4 ∨ s.get (Fd.CAS_PORT_STAT.STATE p) = 5) :
    let q := ((s.hawser p).dreqSeq + 1) % 2 ^ 16
    s.dreqOut p = (s.queueCell p { bytes := mkCell (mkHdr 0 1 true 0 s.device) q [] }).modHawser p fun x => { x with dreqSeq := q, dreqT1 := none } :=
  if_neg (by rcases h with h | h <;> simp [State.hwState, h])

theorem State.dreqIn_of_measuring (c : List Byte) (rx : Nat)
    (h : s.get (Fd.CAS_PORT_STAT.STATE p) = 4 ∨ s.get (Fd.CAS_PORT_STAT.STATE p) = 5) :
    let body := leBytes 8 (rx / 65536) ++ leBytes 8 0 ++ leBytes 2 (rx % 65536) ++ leBytes 2 0
    s.dreqIn p c rx = s.queueCell p { bytes := mkCell (mkHdr 0 2 true 0 s.device) (bits (cellField c) 15 0) body, rxT := some rx } :=
  if_neg (by rcases h with h | h <;> simp [State.hwState, h])

/-- The delay sample that a DRSP gives (R247). -/
def drspSample (c : List Byte) (rx t1 : Nat) : Int :=
  let t2 : Int := (fieldB c 0x10 8 * 65536 + fieldB c 0x20 2 : Nat)
  let t3 : Int := (fieldB c 0x18 8 * 65536 + fieldB c 0x22 2 : Nat)
  quotFree (((rx : Int) - t1) - (t3 - t2)) 2

theorem State.drspIn_of_open {c : List Byte} {rx t1 : Nat} (h1 : (s.hawser p).dreqT1 = some t1)
    (hq : bits (cellField c) 15 0 = (s.hawser p).dreqSeq) :
    let m := drspSample c rx t1
    let l := (s.hawser p).samples ++ [m]
    s.drspIn p c rx =
      if (s.hwState p == 5) = true then
        (s.modHawser p fun x => { x with dreqT1 := none, mean := x.mean + quotFree (m - x.mean) 16 }).showDelay p
      else if (s.hwState p == 4) = true then
        if l.length < 16 then s.modHawser p fun x => { x with dreqT1 := none, samples := l }
        else (s.modHawser p fun x =>
          { x with dreqT1 := none, samples := [], mean := quotFree (l.foldl (· + ·) 0) 16, ready := true }).showDelay p
      else s := by
  unfold State.drspIn
  dsimp only
  rw [h1]
  dsimp only
  rw [if_neg (by simp [hq])]
  rfl

theorem State.delayTimeout_of_open {t1 : Nat} (h1 : (s.hawser p).dreqT1 = some t1) (h : s.get (Fd.CAS_PORT_STAT.STATE p) = 4) :
    s.delayTimeout p = (s.atTime (t1 / 65536 + 10000000)).hwFailCause p 0x0C := by
  unfold State.delayTimeout
  rw [h1]
  exact if_pos (beq_iff_eq.mpr h)

theorem State.noRoute_eq (s : State) (n : Nat) : s.noRoute n = if n = 0 then s else s.count Fd.CAS_NOROUTE_CNT.COUNT n :=
  ite_of_iff beq_iff_eq rfl rfl

theorem State.hwFail_eq (s : State) (p : Nat) :
    s.hwFail p = (((s.releaseHeld ((s.hawser p).queues.flatMap (·.2))).noRoute (s.hawser p).waiting).modHawser p fun x =>
      { x with queues := [], keys := none, ready := false, dreqT1 := none, retry := some (s.now + 100000000) }).setHw p 1 := rfl

/-- Settles O23: the states of a port in order, each message and end by the lemma of its case. -/
theorem linkStates : Obligations.LinkStates := by
  unfold Obligations.LinkStates
  refine ⟨fun p s => ⟨fun h hr => ?lock, fun h hr => ?noLock, fun t hr => ?retry, fun h => ?held, fun c => ?hello, fun h c => ⟨?cert, ?keyx⟩,
    fun cert keyx hc hk h hn => ?derived, fun h hk c => ?confirm⟩, fun p s => ⟨fun h hr => ?down, fun h => ?close, fun h c => ?diagReq, fun h c => ?diagRsp,
    fun h => ?dreqOut, fun h c rx => ?dreqIn, fun c rx t1 h1 hq => ?drsp, fun t1 h1 h => ?timeout, fun n hn => ?fail⟩⟩
  case lock => exact congrArg Host.Outcome.next (State.blockLock_of_training h hr)
  case noLock => exact congrArg Host.Outcome.next (State.blockLockTimeout_of_training h hr)
  case retry => exact congrArg Host.Outcome.next (State.bringUpRetry_of_due hr)
  case held => exact congrArg Host.Outcome.next (if_pos (beq_iff_eq.mpr h))
  case hello => intro m u h v; exact congrArg Host.Outcome.next (State.helloIn_of_locked c h)
  case cert => exact congrArg Host.Outcome.next (State.chunkIn_of_keying false c h)
  case keyx => exact congrArg Host.Outcome.next (State.chunkIn_of_keying true c h)
  case derived => exact congrArg Host.Outcome.next (State.keysDerived_of_joined hc hk h hn)
  case confirm => exact congrArg Host.Outcome.next (State.confirmIn_of_keyed c h hk)
  case down => exact congrArg Host.Outcome.next (State.hawserDown_of_up h hr)
  case close => exact congrArg Host.Outcome.next (State.closeIn_of_locked h)
  case diagReq => exact congrArg Host.Outcome.next (State.diagReqIn_of_locked c h)
  case diagRsp => exact congrArg Host.Outcome.next (State.diagRspIn_of_locked c h)
  case dreqOut => exact congrArg Host.Outcome.next (State.dreqOut_of_measuring h)
  case dreqIn => exact congrArg Host.Outcome.next (State.dreqIn_of_measuring c rx h)
  case drsp =>
    have hrun := State.drspIn_of_open (rx := rx) h1 hq
    refine ⟨fun h => ?steady, fun h hl => ?early, fun h hl => ?last⟩
    case steady => exact congrArg Host.Outcome.next (hrun.trans (if_pos (beq_iff_eq.mpr h)))
    case early =>
      exact congrArg Host.Outcome.next (hrun.trans ((if_neg (by simp [State.hwState, h])).trans ((if_pos (beq_iff_eq.mpr h)).trans (if_pos hl))))
    case last =>
      exact congrArg Host.Outcome.next (hrun.trans ((if_neg (by simp [State.hwState, h])).trans ((if_pos (beq_iff_eq.mpr h)).trans
        (if_neg (Nat.not_lt.mpr hl)))))
  case timeout => exact congrArg Host.Outcome.next (State.delayTimeout_of_open h1 h)
  case fail =>
    subst hn
    rw [State.hwFail_eq, State.noRoute_eq]

end Sys2Proof.Machine
end

section
/-! Link frames of the cascade: what a transmitter sends, and what becomes of a received frame (7.2, 7.4, 7.5). -/

namespace Sys2Proof.Machine

variable {s : State} {p : Nat}

/-! ### Transmission -/

theorem State.mayTx_iff (s : State) (p q : Nat) :
    s.mayTx p q = true ↔ classCrosses (s.get (Fd.CAS_PORT_STAT.STATE p)) (q / 3) = true ∧ mapGet [] (s.hawser p).queues q ≠ [] ∧
      mapGet 0 (s.hawser p).spent q < 32 := by
  simp [State.mayTx, State.hwState, and_assoc]

/-- The queue that sends next may send. -/
theorem State.mayTx_of_nextQueue {q : Nat} (h : s.nextQueue p = some q) : s.mayTx p q = true := by
  unfold State.nextQueue at h
  extract_lets x inClass at h
  have hclass {k : Nat} (hk : inClass k = some q) : s.mayTx p q = true := List.find?_some hk
  split at h
  · exact hclass h
  · obtain ⟨k, -, hk⟩ := Option.bind_eq_some_iff.mp h
    exact hclass hk

theorem State.linkTransmit_of_next {q : Nat} {c : TxCell} {rest : List TxCell} (hst : 2 ≤ s.get (Fd.CAS_PORT_STAT.STATE p))
    (hq : s.nextQueue p = some q) (hc : mapGet [] (s.hawser p).queues q = c :: rest) :
    let x := s.hawser p
    let u := s.setHawser p { x with
      queues := mapSet [] x.queues q rest, spent := mapSet 0 x.spent q (mapGet 0 x.spent q + 1)
      turn := mapSet 0 x.turn (q / 3) ((q % 3 + 1) % 3) }
    s.linkTransmit p = (u.emitFrame p (s.creditOut p).1 (s.creditOut p).2 (some c)).releaseHeld [c] := by
  unfold State.linkTransmit
  dsimp only
  rw [if_neg (show ¬ s.hwState p < 2 from Nat.not_lt.mpr hst), hq]
  dsimp only
  rw [hc]

/-! ### Reception -/

theorem State.linkReceive_of_rejected {f : LinkFrame} {u : State} (h : s.linkAccept p f = (none, u)) : s.linkReceive p f = u := by
  unfold State.linkReceive; rw [h]

theorem State.linkAccept_of_codeError {f : LinkFrame} (hst : s.get (Fd.CAS_PORT_STAT.STATE p) ≠ 0) (hc : f.codeError = true) :
    s.linkAccept p f = (none, s.count (Fd.CAS_PORT_GAP_CNT.COUNT p) 1) := by
  unfold State.linkAccept
  dsimp only
  rw [if_neg (by simp [State.hwState, hst]), if_pos hc]
  rfl

theorem State.linkAccept_of_cell {f : LinkFrame} (hst : s.get (Fd.CAS_PORT_STAT.STATE p) ≠ 0) (hc : f.codeError = false)
    (hl : f.bytes.length ≠ 8) :
    (∀ t, (s.hawser p).keys = none → sliceB f.bytes 72 16 ≠ leBytes 4 (crc32c (sliceB f.bytes 0 72)) ++ List.replicate 12 0 →
      s.gap p 1 = t → s.linkAccept p f = (none, t)) ∧
    ∀ ks, (s.hawser p).keys = some ks →
      Config.gcmOpen (linkKey ks (p % 2 == 1)) (linkSalt ks (p % 2 == 1) ++
        leBytes 8 (extendSeq (s.hawser p).rxSeq (bits (fieldB f.bytes 1 7) 47 0))) (sliceB f.bytes 0 8) (sliceB f.bytes 8 64)
        (sliceB f.bytes 72 16) = none →
      s.linkAccept p f = (none, ((s.gap p 1).authFail p).iff (((s.gap p 1).authFail p).hwState p == 3) (·.confirmFail p)) := by
  unfold State.linkAccept
  dsimp only
  rw [if_neg (by simp [State.hwState, hst]), if_neg (by simp [hc]), if_neg (by simp [hl])]
  refine ⟨fun t hk hcrc ht => ?crc, fun ks hk ho => ?auth⟩
  case crc =>
    rw [hk]
    dsimp only
    rw [if_neg (by simpa using hcrc), ht]
  case auth =>
    rw [hk]
    dsimp only
    rw [ho]

/-- The fate of a cell that the link layer has accepted (R235 to R241, R261). -/
theorem State.linkReceive_of_accepted {f : LinkFrame} {c : List Byte} {u : State} (h : s.linkAccept p f = (some c, u)) :
    s.linkReceive p f =
      if (!cellLegal c) = true then (u.gap p 1).cellTaken p c
      else if (!classCrosses (u.hwState p) (hClass (cellHdr c))) = true then u.cellTaken p c
      else if (hClass (cellHdr c) == 1) = true then u.forward p c
      else if (hClass (cellHdr c) == 2) = true then
        if u.msgExpired c = true then (u.inc Fd.CAS_MSG_EXPIRED_CNT.COUNT).cellTaken p c else u.forward p c
      else (u.cellTaken p c).linkCell p c f.rx := by
  unfold State.linkReceive; rw [h]

theorem State.linkReceive_of_crossing {f : LinkFrame} {c : List Byte} {u : State} (h : s.linkAccept p f = (some c, u))
    (hl : cellLegal c = true) (hx : classCrosses (u.get (Fd.CAS_PORT_STAT.STATE p)) (hClass (cellHdr c)) = true) :
    s.linkReceive p f =
      if (hClass (cellHdr c) == 1) = true then u.forward p c
      else if (hClass (cellHdr c) == 2) = true then
        if u.msgExpired c = true then (u.inc Fd.CAS_MSG_EXPIRED_CNT.COUNT).cellTaken p c else u.forward p c
      else (u.cellTaken p c).linkCell p c f.rx :=
  (State.linkReceive_of_accepted h).trans ((if_neg (by simp [hl])).trans (if_neg (by simp [State.hwState, hx])))

theorem State.linkReceive_of_forwarded {f : LinkFrame} {c : List Byte} {u : State} (h : s.linkAccept p f = (some c, u))
    (hl : cellLegal c = true) (hx : classCrosses (u.get (Fd.CAS_PORT_STAT.STATE p)) (hClass (cellHdr c)) = true)
    (hk : hClass (cellHdr c) = 1 ∨ hClass (cellHdr c) = 2 ∧ u.msgExpired c = false) : s.linkReceive p f = u.forward p c := by
  rw [State.linkReceive_of_crossing h hl hx]
  rcases hk with h1 | ⟨h2, he⟩
  · exact if_pos (beq_iff_eq.mpr h1)
  · rw [if_neg (by simp [h2]), if_pos (beq_iff_eq.mpr h2), if_neg (by simp [he])]

theorem State.forward_of_out {c : List Byte} {q h : Nat} (hr : s.route (cellHdr c) (some (p / 2)) = .out q h) :
    s.forward p c = s.queueCell q { bytes := setHdr c h, held := some (p, 3 * hClass (cellHdr c) + hVc (cellHdr c)) } := by
  unfold State.forward; rw [hr]; rfl

theorem State.forward_of_noRoute {c : List Byte} (hr : s.route (cellHdr c) (some (p / 2)) = .noRoute) :
    s.forward p c = (s.count Fd.CAS_NOROUTE_CNT.COUNT 1).cellTaken p c := by
  unfold State.forward; rw [hr]; rfl

theorem State.deliver_eq (s : State) (c : List Byte) :
    s.deliver c = if hClass (cellHdr c) = 1 then (List.range 3).foldl (fun w k => w.dataSlot c k) s
      else if hKind (cellHdr c) = 0 then s.reqIn c else s.rspTake c :=
  ite_of_iff beq_iff_eq rfl (ite_of_iff beq_iff_eq rfl rfl)

theorem State.forward_of_here {c : List Byte} (hr : s.route (cellHdr c) (some (p / 2)) = .here) :
    s.forward p c = (s.deliver c).cellTaken p c := by
  unfold State.forward; rw [hr]

theorem State.dataSlot_of_record {c r : List Byte} {k i : Nat} (hr : s.cascade.subscribe[i]? = some r)
    (hf : s.cascade.subscribe.findIdx? (fun r => recDev r == hSrc (cellHdr c) && recSplice r == bits (cellField c) 11 0 &&
      recPos r == 3 * bits (cellField c) 23 12 + k) = some i) (ht : s.tickIndex s.now % 2 ^ 16 = bits (cellField c) 39 24) :
    s.dataSlot c k = s.gather (.subscription (Fin.ofNat _ i)) (recTag r) (.value (BitVec.ofNat 64 (fieldB c (16 + 16 * k) 8))
      (BitVec.ofNat 64 (fieldB c (24 + 16 * k) 8)) (BitVec.ofNat 8 (bits (cellField c) (47 + 8 * k) (40 + 8 * k)))) := by
  unfold State.dataSlot
  dsimp only
  rw [hf]
  dsimp only
  rw [if_neg (by rw [ht, bne_self_eq_false]; decide), hr]
  rfl

/-- Settles O24: the sender by its queue and credit, the receiver by the class of the cell. -/
theorem linkFrames : Obligations.LinkFrames := by
  unfold Obligations.LinkFrames
  refine ⟨fun p s q c rest hst hq hc => ?transmit, fun p s q hq => (State.mayTx_iff s p.val q).mp (State.mayTx_of_nextQueue hq),
    fun p f s hst hc => ?codeError, fun p f s hst hc hl => ⟨fun hk hcrc => ?crc, fun ks hk ho => ?auth⟩,
    fun p f s u c h => ⟨fun hl => ?illegal, fun hl hx => ⟨fun h2 he => ?expired, fun hk => ⟨fun q hdr hr => ?out, fun hr => ?noRoute, fun hr => ?here⟩,
      fun h0 hk => ?beat, fun h3 hk => ?hello⟩⟩, fun c s => rfl, fun c s k i r hr hf ht => State.dataSlot_of_record hr hf ht⟩
  case transmit => exact congrArg Host.Outcome.next (State.linkTransmit_of_next hst hq hc)
  case codeError => exact congrArg Host.Outcome.next (State.linkReceive_of_rejected (State.linkAccept_of_codeError hst hc))
  case crc => exact congrArg Host.Outcome.next (State.linkReceive_of_rejected ((State.linkAccept_of_cell hst hc hl).1 _ hk hcrc rfl))
  case auth =>
    refine congrArg Host.Outcome.next ((State.linkReceive_of_rejected ((State.linkAccept_of_cell hst hc hl).2 ks hk ho)).trans ?_)
    exact ite_of_iff beq_iff_eq rfl rfl
  case illegal => exact congrArg Host.Outcome.next ((State.linkReceive_of_accepted h).trans (if_pos (by simp [hl])))
  case expired =>
    refine congrArg Host.Outcome.next ((State.linkReceive_of_crossing h hl hx).trans ?_)
    rw [if_neg (by simp [h2]), if_pos (beq_iff_eq.mpr h2), if_pos he]
  case out => exact congrArg Host.Outcome.next ((State.linkReceive_of_forwarded h hl hx hk).trans (State.forward_of_out hr))
  case noRoute => exact congrArg Host.Outcome.next ((State.linkReceive_of_forwarded h hl hx hk).trans (State.forward_of_noRoute hr))
  case here =>
    refine congrArg Host.Outcome.next ((State.linkReceive_of_forwarded h hl hx hk).trans ((State.forward_of_here hr).trans ?_))
    rw [State.deliver_eq]
  case beat =>
    refine congrArg Host.Outcome.next ((State.linkReceive_of_crossing h hl hx).trans ?_)
    rw [if_neg (by simp [h0]), if_neg (by simp [h0])]
    unfold State.linkCell
    dsimp only
    rw [h0, hk]
    rfl
  case hello =>
    refine congrArg Host.Outcome.next ((State.linkReceive_of_crossing h hl hx).trans ?_)
    rw [if_neg (by simp [h3]), if_neg (by simp [h3])]
    unfold State.linkCell
    dsimp only
    rw [h3, hk]
    rfl

end Sys2Proof.Machine
end

section
/-! The system time of the cascade, and its messages (7.6, 7.8). -/

namespace Sys2Proof.Machine

variable {s : State} {p g : Nat}

/-! ### System time -/

theorem State.beatIn_of_stale {c : List Byte} (rx : Nat)
    (h : s.beatFresh (s.beatIndex (fieldB c 0x10 8) (bits (cellField c) 31 0)) (bits (cellField c) 32 32) = false) : s.beatIn p c rx = s :=
  if_pos (by rw [h, Bool.not_false, Bool.or_true])

@[simp] theorem State.queueCell_regs (s : State) (p : Nat) (c : TxCell) : (s.queueCell p c).regs = s.regs := rfl
@[simp] theorem State.queueCell_sending (s : State) (p : Nat) (c : TxCell) : (s.queueCell p c).cascade.sending = s.cascade.sending := rfl

/-- A flooded BEAT enters the queues of ports, or is counted as without a route. -/
theorem State.floodBeat_cases (s : State) (from? : Option Nat) (c : List Byte) (rx : Nat) :
    s.floodBeat from? c rx = s.count Fd.CAS_NOROUTE_CNT.COUNT 1 ∨
      ∃ (l : List Nat) (x : TxCell), s.floodBeat from? c rx = s.each l fun s q => s.queueCell q x := by
  unfold State.floodBeat
  split
  · exact .inl rfl
  · exact .inr ⟨_, _, rfl⟩

theorem State.each_queueCell_regs (s : State) (l : List Nat) (x : TxCell) : (s.each l fun s q => s.queueCell q x).regs = s.regs := by
  unfold State.each
  induction l generalizing s with
  | nil => rfl
  | cons q l ih => rw [List.foldl_cons, ih, State.queueCell_regs]

theorem State.each_queueCell_sending (s : State) (l : List Nat) (x : TxCell) :
    (s.each l fun s q => s.queueCell q x).cascade.sending = s.cascade.sending := by
  unfold State.each
  induction l generalizing s with
  | nil => rfl
  | cons q l ih => rw [List.foldl_cons, ih, State.queueCell_sending]

theorem State.floodBeat_role (s : State) (from? : Option Nat) (c : List Byte) (rx : Nat) :
    (s.floodBeat from? c rx).get Fd.CAS_TIME_STAT.ROLE = s.get Fd.CAS_TIME_STAT.ROLE := by
  rcases s.floodBeat_cases from? c rx with h | ⟨l, x, h⟩
  · rw [h]; exact State.get_set_ne _ _ (by decide)
  · rw [h, State.get_of_regs (s.each_queueCell_regs l x)]

theorem State.floodBeat_sending (s : State) (from? : Option Nat) (c : List Byte) (rx : Nat) :
    (s.floodBeat from? c rx).cascade.sending = s.cascade.sending := by
  rcases s.floodBeat_cases from? c rx with h | ⟨l, x, h⟩
  · rw [h]; rfl
  · rw [h, s.each_queueCell_sending]

/-- A BEAT that a follower accepts (R246, R248). -/
theorem State.beatIn_of_follower {c : List Byte} (rx : Nat) (hup : s.get (Fd.CAS_PORT_STAT.STATE p) = 5)
    (hf : s.beatFresh (s.beatIndex (fieldB c 0x10 8) (bits (cellField c) 31 0)) (bits (cellField c) 32 32) = true)
    (hr : s.get Fd.CAS_TIME_STAT.ROLE = 0) (hs : s.cascade.sending = false) :
    let e := bits (cellField c) 32 32
    let m := s.beatIndex (fieldB c 0x10 8) (bits (cellField c) 31 0)
    let corr := sext 64 (fieldB c 0x18 8) + s.delayIn p
    let c' := overlayB c 0x18 (leBytes 8 (ofInt 64 corr))
    let u := (s.floodBeat (some p) c' rx).modCas fun x => { x with seen := (m, e) :: x.seen, epochSeen := e, missArmed := false }
    let v := (u.set Fd.CAS_TIME_STAT.SOURCE_DEV (hSrc (cellHdr c'))).set Fd.CAS_TIME_STAT.MISSES 0
    s.beatIn p c rx = ((v.set Fd.CAS_TIME_STAT.EPOCH e).set Fd.TIME_STAT.HOLDOVER 0).steer rx (fieldB c' 0x10 8 * 65536 + corr) := by
  intro e m corr c' u v
  have husend : u.cascade.sending = false := (s.floodBeat_sending ..).trans hs
  have hvrole : v.role = 0 := by
    have hd : Fd.CAS_TIME_STAT.MISSES.off = Fd.CAS_TIME_STAT.ROLE.off := rfl
    have hm : Fd.CAS_TIME_STAT.SOURCE_DEV.off = Fd.CAS_TIME_STAT.ROLE.off := rfl
    unfold State.role
    rw [State.get_set_below _ _ hd, State.get_set_below _ _ hm, State.modCas_get, State.floodBeat_role, hr] <;> decide
  have hbeat : s.beatIn p c rx =
      let w := u.iff (u.cascade.sending && u.epoch < e) (·.becomeFollower true)
      let v := (w.set Fd.CAS_TIME_STAT.SOURCE_DEV (hSrc (cellHdr c'))).lower Fd.CAS_TIME_STAT.MISSES
      if (v.role == 1) = true then v
      else ((v.set Fd.CAS_TIME_STAT.EPOCH e).lower Fd.TIME_STAT.HOLDOVER).steer rx (fieldB c' 0x10 8 * 65536 + corr) :=
    if_neg (by rw [hf]; simp [State.hwUp, State.hwState, hup])
  rw [hbeat]
  clear_value u
  dsimp only
  rw [husend]
  exact if_neg (show ¬ (v.role == 1) = true by rw [hvrole]; decide)

theorem State.beatMiss_of_absent (hr : s.get Fd.CAS_TIME_STAT.ROLE ≠ 1) (hs : s.cascade.seen ≠ [])
    (hm : ∀ x, x ∈ s.cascade.seen → x.1 ≠ s.tickIndex s.now) (ht : s.cascade.missTick ≠ some (s.tickIndex s.now)) :
    let m := s.tickIndex s.now
    let u := s.atTime (s.origin + m * s.period + s.get Fd.CAS_TIME_CFG.BEAT_WIN_NS)
    let n := min 3 (s.get Fd.CAS_TIME_STAT.MISSES + 1)
    let v := (u.set Fd.CAS_TIME_STAT.MISSES n).modCas fun x => { x with missTick := some m }
    let w := v.modCas fun x => { x with missArmed := v.role == 2 }
    s.beatMiss = if n < 3 then v
      else if w.on Fd.TIME_STAT.HOLDOVER = true then w
      else ((w.raise Fd.TIME_STAT.HOLDOVER).raise Fd.CAS_STAT.TIME_LOSS).pulse (w.get Fd.CAS_IRQ_SRC.TIME_SRC) := by
  have hseen : s.cascade.seen.any (·.1 == s.tickIndex s.now) = false := by
    rw [List.any_eq_false]
    exact fun x hx => by simpa using hm x hx
  exact if_neg (by rw [hseen]; simp [State.role, hr, hs, ht])

theorem State.startupWait_of_silent (hr : s.get Fd.CAS_TIME_STAT.ROLE = 2) (hs : s.cascade.seen = []) (hd : s.get Fd.CFG_STAT.DONE ≠ 0) :
    s.startupWait = (s.atTime (s.cascade.startedAt + s.get Fd.CAS_TIME_CFG.STARTUP_WAIT_S * 1000000000)).timeTakeover :=
  if_pos (by simp [State.role, hr, hs, hd])

theorem State.timeTakeover_eq (s : State) :
    let u := (s.set Fd.CAS_TIME_STAT.ROLE 1).set Fd.CAS_TIME_STAT.EPOCH 1
    let v := (u.set Fd.TIME_STAT.SOURCE (if u.get Fd.FP_TIME_CFG.AS_SOURCE = 0 then 0 else 2)).set Fd.TIME_STAT.ACQUIRED 1
    s.timeTakeover = (v.modCas fun x => { x with sending := true, epochSeen := 1, missArmed := false }).modField fun x =>
      { x with stepped := true } := by
  unfold State.timeTakeover
  dsimp only
  rw [State.ite_on]
  rfl

theorem State.taprootStart_of_hold (h : s.cascade.startHold = true) :
    let u := (s.atTime (s.cascade.startedAt + 1000000000)).modCas fun x => { x with startHold := false }
    s.taprootStart = if (u.cascade.epochSeen == 1) = true then u.becomeFollower false else u.modCas fun x => { x with sending := true } :=
  if_neg (by simp [h])

/-- Settles O25: BEAT, misses, takeover and start of a Taproot, each by the lemma of its case. -/
theorem systemTime : Obligations.SystemTime := by
  unfold Obligations.SystemTime
  refine ⟨fun p c rx s hup => ⟨fun h => congrArg Host.Outcome.next (State.beatIn_of_stale rx h),
      fun hf hr hs => congrArg Host.Outcome.next (State.beatIn_of_follower rx hup hf hr hs)⟩,
    fun s hr hs hm ht => ?miss,
    fun s hr hs hd => congrArg Host.Outcome.next ((State.startupWait_of_silent hr hs hd).trans (State.timeTakeover_eq _)),
    fun s h => congrArg Host.Outcome.next ((State.taprootStart_of_hold h).trans (ite_of_iff beq_iff_eq rfl rfl))⟩
  case miss =>
    intro u n v
    have hrun := State.beatMiss_of_absent hr hs hm ht
    refine ⟨fun hn => congrArg Host.Outcome.next (hrun.trans (if_pos hn)), fun hn hh => ?lost⟩
    intro w
    have hw : w.get Fd.TIME_STAT.HOLDOVER = 0 := by
      rw [State.modCas_get, State.modCas_get, State.get_set_ne _ _ (by decide), State.atTime_get, hh]
    refine congrArg Host.Outcome.next (hrun.trans ((if_neg (show ¬ n < 3 by omega)).trans (if_neg ?_)))
    exact show ¬ w.on Fd.TIME_STAT.HOLDOVER = true by simp [hw]

/-! ### Messages -/

theorem State.txHeadWrite_eq (s : State) (g v : Nat) :
    s.txHeadWrite g v = if (v + 2 ^ 32 - s.get (Fd.CAS_MQ_TXDONE.DONE g)) % 2 ^ 32 ≤ 2 ^ s.get (Fd.CAS_MQ_CFG.TX_LOG2 g)
      then s.set (Fd.CAS_MQ_TXHEAD.HEAD g) v else s := by
  unfold State.txHeadWrite State.txDone
  by_cases h : 2 ^ s.get (Fd.CAS_MQ_CFG.TX_LOG2 g) < (v + 2 ^ 32 - s.get (Fd.CAS_MQ_TXDONE.DONE g)) % 2 ^ 32
  · rw [if_pos h, if_neg (Nat.not_le.mpr h)]
  · rw [if_neg h, if_pos (Nat.not_lt.mp h)]

theorem State.rxTailWrite_eq (s : State) (g v : Nat) :
    s.rxTailWrite g v = if (s.get (Fd.CAS_MQ_RXHEAD.HEAD g) + 2 ^ 32 - v) % 2 ^ 32 ≤ 2 ^ s.get (Fd.CAS_MQ_CFG.RX_LOG2 g)
      then s.set (Fd.CAS_MQ_RXTAIL.TAIL g) v else s := by
  unfold State.rxTailWrite
  by_cases h : 2 ^ s.get (Fd.CAS_MQ_CFG.RX_LOG2 g) < (s.get (Fd.CAS_MQ_RXHEAD.HEAD g) + 2 ^ 32 - v) % 2 ^ 32
  · rw [if_pos h, if_neg (Nat.not_le.mpr h)]
  · rw [if_neg h, if_pos (Nat.not_lt.mp h)]

/-- A field that is 0 stays 0 while other fields of its register, or of others, become 0. -/
theorem State.get_lower_zero {f h : Fld} (hg : s.get h = 0) (hd : f.off ≠ h.off ∨ f = h) (hf : f.hi < 64) (hl : f.lo ≤ f.hi + 1) :
    (s.lower f).get h = 0 := by
  unfold State.lower
  rcases hd with hne | rfl
  · rw [State.get_set_ne _ _ hne, hg]
  · rw [State.get_set _ _ _ hf hl, Nat.zero_mod]

/-- The counters of a cascade port. -/
def portCounters (p : Nat) : List Fld :=
  [Fd.CAS_PORT_AUTH_FAIL_CNT.COUNT p, Fd.CAS_PORT_GAP_CNT.COUNT p, Fd.CAS_PORT_BRINGUP_CNT.COUNT p]

/-- The counters that `CAS_CTL.CNT_CLR` clears. -/
def casCounters : List Fld :=
  [Fd.CAS_REPL_LATE_CNT.COUNT, Fd.CAS_REPL_UNMATCHED_CNT.COUNT, Fd.CAS_NOROUTE_CNT.COUNT, Fd.CAS_MSG_EXPIRED_CNT.COUNT,
    Fd.CAS_MSG_STALE_CNT.COUNT] ++ (List.range 6).flatMap portCounters

theorem State.casCntClr_eq (s : State) : s.casCntClr = s.each casCounters fun s f => s.lower f := by
  unfold State.casCntClr casCounters State.each
  rw [List.foldl_append, List.foldl_flatMap]
  simp only [portCounters, List.foldl_cons, List.foldl_nil]

/-- Fields of which no two share a register without being the same become 0 together. -/
theorem State.each_lower_get (s : State) (l : List Fld) (hl : ∀ f ∈ l, f.hi < 64 ∧ f.lo ≤ f.hi + 1)
    (hd : ∀ f ∈ l, ∀ h ∈ l, f.off ≠ h.off ∨ f = h) :
    (∀ f ∈ l, (s.each l fun s f => s.lower f).get f = 0) ∧
      ∀ h, (∀ f ∈ l, f.off ≠ h.off ∨ f = h) → s.get h = 0 → (s.each l fun s f => s.lower f).get h = 0 := by
  unfold State.each
  induction l generalizing s with
  | nil => exact ⟨nofun, fun _ _ h => h⟩
  | cons f l ih =>
    obtain ⟨hhi, hlo⟩ := hl f List.mem_cons_self
    obtain ⟨hall, hkeep⟩ := ih (s.lower f) (fun x hx => hl x (List.mem_cons_of_mem _ hx))
      fun x hx y hy => hd x (List.mem_cons_of_mem _ hx) y (List.mem_cons_of_mem _ hy)
    rw [List.foldl_cons]
    refine ⟨fun x hx => ?all, fun x hx h0 => hkeep x (fun y hy => hx y (List.mem_cons_of_mem _ hy)) (State.get_lower_zero h0 (hx f List.mem_cons_self) hhi hlo)⟩
    case all =>
      rcases List.mem_cons.mp hx with rfl | hx
      · refine hkeep x (fun y hy => hd y (List.mem_cons_of_mem _ hy) x List.mem_cons_self) ?_
        unfold State.lower
        rw [State.get_set _ _ _ hhi hlo, Nat.zero_mod]
      · exact hall x hx

theorem State.each_lower_rest (s : State) (l : List Fld) :
    (s.each l fun s f => s.lower f).mem = s.mem ∧ (s.each l fun s f => s.lower f).cascade = s.cascade ∧
      (s.each l fun s f => s.lower f).groves = s.groves := by
  unfold State.each
  induction l generalizing s with
  | nil => exact ⟨rfl, rfl, rfl⟩
  | cons f l ih => exact ih (s.lower f)

theorem State.casCntClr_get (s : State) : ∀ f ∈ casCounters, s.casCntClr.get f = 0 :=
  (State.casCntClr_eq s ▸ s.each_lower_get casCounters (by decide) (by decide)).1

theorem State.casCntClr_rest (s : State) :
    s.casCntClr.mem = s.mem ∧ s.casCntClr.cascade = s.cascade ∧ s.casCntClr.groves = s.groves := by
  rw [State.casCntClr_eq]
  exact s.each_lower_rest casCounters

theorem portCounters_mem {p : Nat} (hp : p < 6) : ∀ f ∈ portCounters p, f ∈ casCounters := fun _ hf =>
  List.mem_append_right _ (List.mem_flatMap.mpr ⟨p, List.mem_range.mpr hp, hf⟩)

/-- A grove's issue of the descriptor at index `i` counts it as issued. -/
def State.issuedPast (s : State) (g i : Nat) : State := s.modCas fun x => { x with issued := mapSet 0 x.issued g ((i + 1) % 2 ^ 32) }

/-- The descriptor that a grove issues next, once its line is free and the ring may be read (R259). -/
theorem State.msgIssue_of_read {i a : Nat} {u0 u : State} {d : List Byte} (hi : mapGet 0 s.cascade.issued g = i) (ha : s.txEntry g i = a)
    (hen : s.get (Fd.CAS_MQ_CFG.TX_EN g) ≠ 0) (hhead : i ≠ s.get (Fd.CAS_MQ_TXHEAD.HEAD g)) (hfz : s.gstate g ≠ stFrozen)
    (hfr : (s.grv g).freezing = false) (hfree : s.linesFree a 64 = true) (hacc : s.ringAccess g .read a 64 = (true, u0))
    (hread : u0.unitRead a 64 false = (some d, u)) :
    let len := fieldB d 3 1
    let dest := fieldB d 0 2
    ((len = 0 ∨ 48 < len ∨ fieldB d 4 1 ≠ 1 ∨ u.cascade.sys.holds dest = false) → s.msgIssue g = (u.issuedPast g i).descDone g i 5) ∧
    (len ≠ 0 → len ≤ 48 → fieldB d 4 1 = 1 → u.cascade.sys.holds dest = true →
      (u.route (mkHdr 2 0 false dest u.device) none = .noRoute →
        s.msgIssue g = ((u.issuedPast g i).count Fd.CAS_NOROUTE_CNT.COUNT 1).descDone g i 3) ∧
      ∀ q h t v w, u.route (mkHdr 2 0 false dest u.device) none = .out q h → u.freeTag g = some t →
        u.transTake hawserReq 1 = (true, v) → v.drawn.ringAccess g .write (a + 6) 2 = (true, w) →
        let gen := (w.mtag t).gen
        let cf := t + gen * 2 ^ 12 + (w.tickIndex w.now + 3) % 2 ^ 16 * 2 ^ 16 + fieldB d 4 1 * 2 ^ 32 + len * 2 ^ 40 + g * 2 ^ 46 +
          fieldB d 2 1 % 64 * 2 ^ 52
        let c := mkCell (mkHdr 2 0 false dest u.device) cf (sliceB d 16 len)
        s.msgIssue g = (((w.ringWrite (a + 6) (leBytes 2 (t + gen * 2 ^ 12))).issuedPast g i).openTag t g (some i)).queueCell q { bytes := setHdr c h }) := by
  intro len dest
  have hgo : (!s.on (Fd.CAS_MQ_CFG.TX_EN g) || i == s.get (Fd.CAS_MQ_TXHEAD.HEAD g) || s.gstate g == stFrozen || (s.grv g).freezing ||
      !s.linesFree a 64) = false := by
    rw [hfree, hfr]; simp [hen, hfz, hhead]
  have hbad : (len == 0 || decide (48 < len) || fieldB d 4 1 != 1 || !u.cascade.sys.holds dest) = true ↔
      (len = 0 ∨ 48 < len ∨ fieldB d 4 1 ≠ 1 ∨ u.cascade.sys.holds dest = false) := by simp [or_assoc]
  generalize hrun : s.msgIssue g = r
  unfold State.msgIssue at hrun
  extract_lets +onlyGivenNames k b at hrun
  obtain rfl : k = i := hi
  obtain rfl : b = a := ha
  clear_value b k
  rw [if_neg (show ¬ _ = true by rw [hgo]; decide)] at hrun
  split at hrun
  next ok u1 hok =>
  obtain ⟨rfl, rfl⟩ := Prod.mk.inj (hacc.symm.trans hok)
  rw [if_neg (by decide)] at hrun
  split at hrun
  · next u2 h2 => exact absurd (hread.symm.trans h2) (by simp)
  next d2 u2 h2 =>
  obtain ⟨hd, rfl⟩ := Prod.mk.inj (hread.symm.trans h2)
  obtain rfl := Option.some.inj hd
  subst hrun
  refine ⟨fun h => if_pos (hbad.mpr h), fun h0 h48 hop hin => ?_⟩
  rw [if_neg (mt hbad.mp (by simp [h0, h48, hop, hin]))]
  refine ⟨fun hr => ?noRoute, fun q h t v w hr ht hv hw => ?out⟩
  case noRoute =>
    extract_lets +onlyGivenNames hdr
    rw [show u.route hdr none = .noRoute from hr]
    generalize u.freeTag g = tag
    generalize u.transTake hawserReq 1 = slot
    rfl
  case out =>
    intro gen cf c
    extract_lets +onlyGivenNames hdr
    rw [show u.route hdr none = .out q h from hr, ht, hv]
    simp -zeta only [hw]
    rfl

theorem State.reqRing_of_room {c : List Byte} {u : State} (h0 : s.gstate g ≠ stAbsent) (h1 : s.gstate g ≠ stDraining)
    (h2 : s.gstate g ≠ stClearing) (hen : s.get (Fd.CAS_MQ_CFG.RX_EN g) ≠ 0)
    (hroom : (s.get (Fd.CAS_MQ_RXHEAD.HEAD g) + 2 ^ 32 - s.get (Fd.CAS_MQ_RXTAIL.TAIL g)) % 2 ^ 32 ≠ 2 ^ s.get (Fd.CAS_MQ_CFG.RX_LOG2 g))
    (hacc : s.ringAccess g .write (s.rxEntry g (s.get (Fd.CAS_MQ_RXHEAD.HEAD g))) 64 = (true, u)) (hg : mDgrove (cellField c) = g) :
    let head := s.get (Fd.CAS_MQ_RXHEAD.HEAD g)
    s.reqRing c = (0, ((u.ringWrite (s.rxEntry g head) (leBytes 2 (hSrc (cellHdr c)) ++ leBytes 1 (mSgrove (cellField c)) ++
      leBytes 1 (mLen (cellField c)) ++ leBytes 4 0 ++ leBytes 8 u.now ++ sliceB c 16 48)).set (Fd.CAS_MQ_RXHEAD.HEAD g) (head + 1)).msgBell g) := by
  unfold State.reqRing
  dsimp only
  rw [hg, if_neg (by simp [h0, h1, h2, hen]), if_neg (mt beq_iff_eq.mp hroom), hacc]
  rfl

theorem State.rspTake_of_stale {c : List Byte}
    (h : (s.mtag (mMtag (cellField c))).isOpen = false ∨ (s.mtag (mMtag (cellField c))).gen ≠ mGen (cellField c) ∨
      (s.mtag (mMtag (cellField c))).squashed = true) : s.rspTake c = s.inc Fd.CAS_MSG_STALE_CNT.COUNT :=
  if_pos (by rcases h with h | h | h <;> simp [h])

theorem State.rspTake_of_open {c : List Byte} {i : Nat} (ho : (s.mtag (mMtag (cellField c))).isOpen = true)
    (hg : (s.mtag (mMtag (cellField c))).gen = mGen (cellField c)) (hq : (s.mtag (mMtag (cellField c))).squashed = false)
    (hd : (s.mtag (mMtag (cellField c))).desc = some i) :
    s.rspTake c = (s.closeTag (mMtag (cellField c))).descDone (s.mtag (mMtag (cellField c))).grove i (mStatus (cellField c)) := by
  unfold State.rspTake
  dsimp only
  rw [if_neg (by simp [ho, hg, hq]), hd]

theorem State.msgExpire_of_open {t i : Nat} (ho : (s.mtag t).isOpen = true) (hd : (s.mtag t).desc = some i) (hq : (s.mtag t).squashed = false) :
    s.msgExpire t = ((s.atTime (s.origin + (s.mtag t).expiry * s.period)).closeTag t).descDone (s.mtag t).grove i 4 := by
  unfold State.msgExpire
  dsimp only
  rw [if_neg (by simp [ho]), hd, hq]

theorem State.msgBellEnd_of_deferred {t : Nat} (hl : (mapGet {} s.cascade.bells g).last = some t)
    (hd : (mapGet {} s.cascade.bells g).deferred = true) :
    let u := s.atTime (t + 10000)
    s.msgBellEnd g = (u.modCas fun x => { x with bells := mapSet {} x.bells g { last := some u.now } }).pulse (u.get Fd.CAS_MQ_SRC.MQ_BASE + g) := by
  unfold State.msgBellEnd
  dsimp only
  rw [hl, hd]

theorem State.unexpired_of_expired {c : List Byte} (f : State → State) (h : s.msgExpired c = true) :
    s.unexpired c f = s.inc Fd.CAS_MSG_EXPIRED_CNT.COUNT := if_pos h

theorem State.unexpired_of_current {c : List Byte} (f : State → State) (h : s.msgExpired c = false) : s.unexpired c f = f s :=
  if_neg (by rw [h]; decide)

/-- Settles O26: the rings, the issue, the answers and the expiry of a tag, and the clear of the counters by the fold over their fields. -/
theorem messages : Obligations.Messages := by
  unfold Obligations.Messages
  refine ⟨fun r g v s => ⟨fun ha => (exec_of_admitted ha rfl).trans (congrArg Host.Outcome.next (State.txHeadWrite_eq ..)),
      fun ha => (exec_of_admitted ha rfl).trans (congrArg Host.Outcome.next (State.rxTailWrite_eq ..)), fun ha => ?clear⟩,
    fun g s u0 u d hen hhead hfz hfr hfree hacc hread => ?issue,
    fun c s => ⟨fun h => ⟨congrArg Host.Outcome.next (State.unexpired_of_expired _ h), congrArg Host.Outcome.next (State.unexpired_of_expired _ h)⟩,
      fun h hop => ?request, fun g u hg h0 h1 h2 hen hroom hacc => ?room, fun h => ⟨fun hst => ?stale,
      fun i ho hg hq hd => ?response⟩⟩,
    fun t s i ho hd hq => ?expiry, fun g s t hl hd => ?bell⟩
  case clear =>
    have hget := (accepted s r).casCntClr_get
    obtain ⟨hmem, hcas, hgrv⟩ := (accepted s r).casCntClr_rest
    refine answers_of_admitted ha rfl ⟨fun f hf => hget f (List.mem_append_left _ hf), fun p hp => ?ports, hmem.trans (by simp [accepted]),
      hcas.trans (by simp [accepted]), hgrv.trans (by simp [accepted])⟩
    exact ⟨hget _ (portCounters_mem hp _ (by simp [portCounters])), hget _ (portCounters_mem hp _ (by simp [portCounters])),
      hget _ (portCounters_mem hp _ (by simp [portCounters]))⟩
  case issue =>
    obtain ⟨hbad, hgood⟩ := State.msgIssue_of_read rfl rfl hen hhead hfz hfr hfree hacc hread
    refine ⟨fun h => congrArg Host.Outcome.next (hbad h), fun h0 h48 hop hin => ?_⟩
    obtain ⟨hno, hout⟩ := hgood h0 h48 hop hin
    refine ⟨fun hr => congrArg Host.Outcome.next (hno hr), fun q h t v w hr ht hv hw => congrArg Host.Outcome.next ((hout q h t v w hr ht hv hw).trans ?_)⟩
    rw [hop]
    rfl
  case request =>
    refine congrArg Host.Outcome.next ((State.unexpired_of_current _ h).trans (if_neg ?_))
    rw [hop]; decide
  case room => exact State.reqRing_of_room h0 h1 h2 hen hroom hacc hg
  case stale => exact congrArg Host.Outcome.next ((State.unexpired_of_current _ h).trans (State.rspTake_of_stale hst))
  case response => exact congrArg Host.Outcome.next ((State.unexpired_of_current _ h).trans (State.rspTake_of_open ho hg hq hd))
  case expiry => exact congrArg Host.Outcome.next (State.msgExpire_of_open ho hd hq)
  case bell =>
    refine congrArg Host.Outcome.next ((State.msgBellEnd_of_deferred hl hd).trans ?_)
    rw [← State.modCas_get]

end Sys2Proof.Machine
end

section
/-! The start sequence row by row (2.4). -/

namespace Sys2Proof.Machine

variable {s : State}

theorem State.phase_bne_of_eq {p : StartPhase} (h : s.start.phase = p) : ¬ (s.phase != p) = true := by simp [State.phase, h]

theorem State.romComplete_of_rom (h : s.start.phase = .rom) (ht : scanHolds s.sec.tapInstr = false) :
    let u := s.startFirmware.modStart fun x => { x with phase := .romDone }
    s.romComplete = if u.start.recovery = true ∧ u.power.rstHeld = [] then u.releaseMain else u := by
  refine (if_neg ?_).trans (ite_of_iff (by simp [State.setPhase]) rfl rfl)
  rw [ht, Bool.or_false]
  exact State.phase_bne_of_eq h

theorem State.mainRelease_of_romDone (h : s.start.phase = .romDone) (hr : s.power.rstHeld = []) : s.mainRelease = s.releaseMain :=
  if_pos (by simp [State.phase, h, hr])

/-- A failed read counts; the third is final (R60). -/
theorem State.flashRead_of_failed (s : State) (o : Nat) :
    let n := (if s.start.readOff = o then s.start.readFails else 0) + 1
    let u := s.modStart fun x => { x with readOff := o, readFails := n }
    s.flashRead o false = if n < 3 then u else u.readFailed o := by
  intro n u
  have hn : (if (s.start.readOff == o) = true then s.start.readFails else 0) + 1 = n := congrArg (· + 1) (ite_of_iff beq_iff_eq rfl rfl)
  have hrun : s.flashRead o false = if 3 ≤ n then u.readFailed o else u := by
    unfold State.flashRead
    rw [if_neg (by decide)]
    dsimp only
    rw [hn]
  rw [hrun]
  by_cases h : n < 3
  · rw [if_pos h, if_neg (Nat.not_le.mpr h)]
  · rw [if_neg h, if_pos (Nat.not_lt.mp h)]

theorem State.slotRead_of_reading (h : s.start.phase = .reading) :
    s.slotRead = match s.check10 false s.start.slot none with
      | .ok b => s.modStart fun x => { x with phase := .checked10, plain := b }
      | .error f => s.slotFails f := if_neg (State.phase_bne_of_eq h)

theorem State.semanticChecks_of_checked10 (h : s.start.phase = .checked10) :
    s.semanticChecks = match s.check13 s.start.plain with
      | none => s.modStart fun x => { x with phase := .checked13 }
      | some f => s.drawn.slotFails f := if_neg (State.phase_bne_of_eq h)

/-- Step 14 (R63): the guard, then the demands. -/
theorem State.admissionChecked_of_loaded (h : s.start.phase = .loaded) :
    let u := s.showAdmission s.admission
    let need := max 5000 (Img.of s.start.plain).maxLat
    s.admissionChecked = if u.get Fd.FRM_PHASE_OFS.GUARD_NS < need then u.slotFails (0x0F, min need 1048575)
      else if s.admission.passes then u.slotPasses else u.slotFails (0x0E, s.admission.detail) := if_neg (State.phase_bne_of_eq h)

/-- Settles O28: a row in its phase. -/
theorem startSequence : Obligations.StartSequence := by
  unfold Obligations.StartSequence
  intro s
  refine ⟨fun h => ?power, fun h ht => ?rom, fun h hr => ?release, fun h => ?wiped, fun o => rfl, fun o => ?failed, fun h => ?slot, fun h => ?semantic,
    fun h => ?loaded, fun h => ?admission, fun slot h => ?pointer⟩
  case power => exact congrArg Host.Outcome.next (if_pos (beq_iff_eq.mpr h))
  case rom => exact congrArg Host.Outcome.next (State.romComplete_of_rom h ht)
  case release => exact congrArg Host.Outcome.next (State.mainRelease_of_romDone h hr)
  case wiped => exact congrArg Host.Outcome.next (if_neg (State.phase_bne_of_eq h))
  case failed => exact congrArg Host.Outcome.next (s.flashRead_of_failed o.toNat)
  case slot => exact congrArg Host.Outcome.next (State.slotRead_of_reading h)
  case semantic => exact congrArg Host.Outcome.next (State.semanticChecks_of_checked10 h)
  case loaded => exact congrArg Host.Outcome.next (if_neg (State.phase_bne_of_eq h))
  case admission => exact congrArg Host.Outcome.next (State.admissionChecked_of_loaded h)
  case pointer =>
    refine congrArg Host.Outcome.next ?_
    unfold State.bootPointerDue
    rw [h]

end Sys2Proof.Machine
end

section
/-! Grove commands: those taken and those refused (8.3, 8.5 to 8.7). -/

namespace Sys2Proof.Machine

variable {s : State} {r : Requester} {op g arg : Nat} {run : State → State}

/-! ### Acceptance -/

theorem State.grvCmd_of_taken (h : GroveCmdTaken s r op g arg) : s.grvCmd r op g arg run = run s := by
  obtain ⟨hE, hpfw, hhold, hbusy, hallow⟩ := h
  unfold State.grvCmd
  dsimp only
  rw [if_neg (by simp [hE, hpfw]), if_neg (by simp [hhold]), if_neg (by simp [hbusy]), if_neg (by simp [hallow]), if_neg (by simp [hbusy])]

theorem State.grvCmd_of_unprivileged (h : s.isE r = false ∨ s.get Fd.PWR_STAT.PFW ≠ 0) : s.grvCmd r op g arg run = s :=
  if_pos (by simpa using h)

theorem State.grvCmd_of_safeHold (hE : s.isE r = true) (hp : s.get Fd.PWR_STAT.PFW = 0) (hs : s.get Fd.CFG_STAT.SAFE_HOLD ≠ 0) :
    s.grvCmd r op g arg run = reported s 9 0 := by
  unfold State.grvCmd
  dsimp only
  rw [if_neg (by simp [hE, hp]), if_pos (by simpa using hs)]
  rfl

/-- Past the first two checks a command meets BUSY, its table row, then runs. -/
theorem State.grvCmd_of_executive (hE : s.isE r = true) (hp : s.get Fd.PWR_STAT.PFW = 0) (hs : s.get Fd.CFG_STAT.SAFE_HOLD = 0) :
    s.grvCmd r op g arg run =
      if (s.on Fd.GRV_CMD_STAT.BUSY && !(op == opReset || op == opDestroy)) = true then reported s 1 0
      else if (!s.cmdAllowed op g arg) = true then reported s 2 (s.gstate g)
      else run (if s.on Fd.GRV_CMD_STAT.BUSY = true then s.abandon op else s) := by
  unfold State.grvCmd
  dsimp only
  rw [if_neg (by simp [hE, hp]), if_neg (by simp [hs])]
  rfl

/-- How a command that others make wait is refused. -/
def RefusesAs (s : State) (r : Requester) (i : Instr) (op g arg : Nat) : Prop :=
  (s.isE r = false ∨ s.get Fd.PWR_STAT.PFW ≠ 0 → exec i s = .next s) ∧
  (s.isE r = true → s.get Fd.PWR_STAT.PFW = 0 →
    (s.get Fd.CFG_STAT.SAFE_HOLD ≠ 0 → exec i s = .next (reported s 9 0)) ∧
    (s.get Fd.CFG_STAT.SAFE_HOLD = 0 → s.get Fd.GRV_CMD_STAT.BUSY ≠ 0 → exec i s = .next (reported s 1 0)) ∧
    (s.get Fd.CFG_STAT.SAFE_HOLD = 0 → s.get Fd.GRV_CMD_STAT.BUSY = 0 → s.cmdAllowed op g arg = false → exec i s = .next (reported s 2 (s.gstate g))))

theorem refusesAs_of_row {i : Instr} (hrow : exec i s = .next (s.grvCmd r op g arg run)) (hop : (op == opReset || op == opDestroy) = false) :
    RefusesAs s r i op g arg := by
  refine ⟨fun h => ?unprivileged, fun hE hp => ⟨fun hs => ?hold, fun hs hb => ?busy, fun hs hb ha => ?state⟩⟩
  case unprivileged => rw [hrow, State.grvCmd_of_unprivileged h]
  case hold => rw [hrow, State.grvCmd_of_safeHold hE hp hs]
  case busy => rw [hrow, State.grvCmd_of_executive hE hp hs, if_pos (by simp [hop, hb])]
  case state => rw [hrow, State.grvCmd_of_executive hE hp hs, if_neg (by simp [hb]), if_pos (by simp [ha])]

/-- RESET and DESTROY: how they are refused, and that they abandon what runs (R281). -/
def PreemptsAs (s : State) (r : Requester) (i : Instr) (op g : Nat) (destroy : Bool) : Prop :=
  (s.isE r = false ∨ s.get Fd.PWR_STAT.PFW ≠ 0 → exec i s = .next s) ∧
  (s.isE r = true → s.get Fd.PWR_STAT.PFW = 0 →
    (s.get Fd.CFG_STAT.SAFE_HOLD ≠ 0 → exec i s = .next (reported s 9 0)) ∧
    (s.get Fd.CFG_STAT.SAFE_HOLD = 0 → s.cmdAllowed op g 0 = false → exec i s = .next (reported s 2 (s.gstate g))) ∧
    (s.get Fd.CFG_STAT.SAFE_HOLD = 0 → s.cmdAllowed op g 0 = true → s.get Fd.GRV_CMD_STAT.BUSY ≠ 0 →
      exec i s = .next ((begun (s.abandon op) op g 0 0).drain g destroy)))

theorem preemptsAs_of_row {i : Instr} {destroy : Bool}
    (hrow : exec i s = .next (s.grvCmd r op g 0 fun s => (s.cmdBegin { op := op, grove := g, arg := 0, addr := 0 }).drain g destroy))
    (hop : (op == opReset || op == opDestroy) = true) : PreemptsAs s r i op g destroy := by
  refine ⟨fun h => ?unprivileged, fun hE hp => ⟨fun hs => ?hold, fun hs ha => ?state, fun hs ha hb => ?runs⟩⟩
  case unprivileged => rw [hrow, State.grvCmd_of_unprivileged h]
  case hold => rw [hrow, State.grvCmd_of_safeHold hE hp hs]
  case state => rw [hrow, State.grvCmd_of_executive hE hp hs, if_neg (by simp [hop]), if_pos (by simp [ha])]
  case runs => rw [hrow, State.grvCmd_of_executive hE hp hs, if_neg (by simp [hop]), if_neg (by simp [ha]), if_pos (by simpa using hb)]; rfl

/-! ### The work of the commands -/

theorem State.saveAccept_of_buffer (hok : s.cmdAddrOk r g (s.get Fd.GRV_CMD_ADDR.ADDR * 64) (s.fullBytes g) = true)
    (hown : ∀ m, m ∈ (s.grv g).cfg.memory → overlaps (s.get Fd.GRV_CMD_ADDR.ADDR * 64) (s.fullBytes g) m.1 (m.2 - m.1) = false) :
    s.saveAccept r g 0 = begun s opSave g 0 (s.get Fd.GRV_CMD_ADDR.ADDR * 64) := by
  have hany : (s.grv g).cfg.memory.any (fun m => overlaps (s.get Fd.GRV_CMD_ADDR.ADDR * 64) (s.fullBytes g) m.1 (m.2 - m.1)) = false := by
    rw [List.any_eq_false]
    exact fun m hm => by rw [hown m hm]; decide
  unfold State.saveAccept
  dsimp only
  rw [hany, hok]
  rfl

theorem State.saveAccept_of_partner (h : s.get (Fd.GRV_STAT.PARTNER_LOST g) = 0) :
    s.saveAccept r g 1 = begun s opSave g 1 (s.get Fd.GRV_CMD_ADDR.ADDR * 64) := by
  unfold State.saveAccept
  dsimp only
  rw [if_neg (by simp), if_neg (by simp [h])]
  rfl

theorem State.each_rtTouch_bulk (s : State) (l : List Nat) : (s.each l fun s l => s.rtTouch l false) = s := by
  unfold State.each
  induction l generalizing s with
  | nil => rfl
  | cons a l ih => exact ih s

theorem State.unitRead_bulk (s : State) (a n : Nat) :
    s.unitRead a n false = match s.unitFails a n with
      | some l => (none, s.meetFailed l false)
      | none => (some (s.rdB a n), s) := by
  unfold State.unitRead
  rw [State.each_rtTouch_bulk] <;> rfl

theorem State.unitFails_of_read {a n : Nat} {b : List Byte} {u : State} (h : s.unitRead a n false = (some b, u)) : s.unitFails a n = none := by
  rw [State.unitRead_bulk] at h
  cases hf : s.unitFails a n with
  | none => rfl
  | some l => rw [hf] at h; cases h

theorem State.unitFails_of_unread {a n : Nat} {u : State} (h : s.unitRead a n false = (none, u)) : ∃ l, s.unitFails a n = some l := by
  rw [State.unitRead_bulk] at h
  cases hf : s.unitFails a n with
  | none => rw [hf] at h; cases h
  | some l => exact ⟨l, rfl⟩

theorem State.restore_of_read {b : List Byte} {u : State} (hok : s.cmdAddrOk r g (s.get Fd.GRV_CMD_ADDR.ADDR * 64) (s.fullBytes g) = true)
    (h : s.unitRead (s.get Fd.GRV_CMD_ADDR.ADDR * 64) (s.fullBytes g) false = (some b, u)) :
    s.restore r g = match u.imgFail g true b with
      | none => reported ((u.loadFull g b).set (Fd.GRV_STAT.STATE g) stFrozen) 0 0
      | some k => reported u 7 k := by
  unfold State.restore
  dsimp only
  rw [if_neg (by simp [hok]), State.unitFails_of_read h, h]
  dsimp only [Option.getD_some]
  cases u.imgFail g true b <;> rfl

theorem State.restore_of_unread {u : State} (hok : s.cmdAddrOk r g (s.get Fd.GRV_CMD_ADDR.ADDR * 64) (s.fullBytes g) = true)
    (h : s.unitRead (s.get Fd.GRV_CMD_ADDR.ADDR * 64) (s.fullBytes g) false = (none, u)) :
    s.restore r g = reported u 7 1 ∨ s.restore r g = reported u 7 2 := by
  obtain ⟨l, hl⟩ := State.unitFails_of_unread h
  have hrun : s.restore r g = reported u 7 (if 64 * l < s.get Fd.GRV_CMD_ADDR.ADDR * 64 + 64 then 1 else 2) := by
    unfold State.restore
    dsimp only
    rw [if_neg (by simp [hok]), hl, h]
    rfl
  rw [hrun]
  split
  · exact .inl rfl
  · exact .inr rfl

theorem State.switchAccept_of_heard (hl : s.get (Fd.GRV_STAT.PARTNER_LOST g) = 0) (ha : (s.grv g).acked = true) :
    s.switchAccept g = (begun s opSwitch g 0 0).modGrv g fun x => { x with handover := true } := if_neg (by simp [hl, ha])

theorem State.create_of_passed (hok : s.cmdAddrOk r g (s.get Fd.GRV_CMD_ADDR.ADDR * 64) (512 + 64 *
      (s.readNew (s.get Fd.GRV_CMD_ADDR.ADDR * 64)).tasks.length + 32 * (s.readNew (s.get Fd.GRV_CMD_ADDR.ADDR * 64)).strands.length) = true)
    {n : NewGrove} (hn : s.readNew (s.get Fd.GRV_CMD_ADDR.ADDR * 64) = n) (hf : n.failed = none) (hp : s.poolFail n.cfg = none)
    (hc : s.createFail g n = none) (ha : (s.install g n).admission.passes = true) :
    s.create r g = reported (s.install g n).showFree 0 0 := by
  unfold State.create
  extract_lets +onlyGivenNames a m size
  obtain rfl : m = n := hn
  rw [if_neg (by rw [show s.cmdAddrOk r g a size = true from hok]; decide), hf, hp, hc]
  exact if_pos ha

/-- Settles O32: what each command does once taken, then the refusals in the order of their checks. -/
theorem groveCommands : Obligations.GroveCommands := by
  unfold Obligations.GroveCommands
  refine ⟨fun r g s => ⟨fun h => ?start, fun h => ?thaw, fun h => ?promote, fun h => ?reset, fun h => ?destroy, fun arg h => ?freeze,
    fun h hok hown => ?save, fun h hl => ?send, fun h hok => ⟨fun b u hu => ?load, fun u hu => ?unread⟩, fun h hl ha => ?switch,
    fun h hok hf hp hc ha => ?create⟩, fun r g s arg => ⟨?refused, ?preempts⟩⟩
  case start => exact congrArg Host.Outcome.next (State.grvCmd_of_taken h)
  case thaw => exact congrArg Host.Outcome.next (State.grvCmd_of_taken h)
  case promote => exact congrArg Host.Outcome.next (State.grvCmd_of_taken h)
  case reset => exact congrArg Host.Outcome.next (State.grvCmd_of_taken h)
  case destroy => exact congrArg Host.Outcome.next (State.grvCmd_of_taken h)
  case freeze => exact congrArg Host.Outcome.next (State.grvCmd_of_taken h)
  case save => exact congrArg Host.Outcome.next ((State.grvCmd_of_taken h).trans (State.saveAccept_of_buffer hok hown))
  case send => exact congrArg Host.Outcome.next ((State.grvCmd_of_taken h).trans (State.saveAccept_of_partner hl))
  case load => exact congrArg Host.Outcome.next ((State.grvCmd_of_taken h).trans (State.restore_of_read hok hu))
  case unread =>
    exact (State.restore_of_unread hok hu).imp (fun he => congrArg Host.Outcome.next ((State.grvCmd_of_taken h).trans he))
      fun he => congrArg Host.Outcome.next ((State.grvCmd_of_taken h).trans he)
  case switch => exact congrArg Host.Outcome.next ((State.grvCmd_of_taken h).trans (State.switchAccept_of_heard hl ha))
  case create => exact congrArg Host.Outcome.next ((State.grvCmd_of_taken h).trans (State.create_of_passed hok rfl hf hp hc ha))
  case refused =>
    simp only [List.forall_mem_cons]
    exact ⟨refusesAs_of_row rfl rfl, refusesAs_of_row rfl rfl, refusesAs_of_row rfl rfl, refusesAs_of_row rfl rfl, refusesAs_of_row rfl rfl,
      refusesAs_of_row rfl rfl, refusesAs_of_row rfl rfl, refusesAs_of_row rfl rfl, nofun⟩
  case preempts =>
    simp only [List.forall_mem_cons]
    exact ⟨preemptsAs_of_row rfl rfl, preemptsAs_of_row rfl rfl, nofun⟩

end Sys2Proof.Machine
end

section
/-! The ends of what grove commands begin, the transfers of a pair, and the firewall entries (8.4 to 8.7). -/

namespace Sys2Proof.Machine

variable {s : State} {g : Nat}

/-! ### Draining and clearing -/

theorem State.drainComplete_of_draining (h : s.gstate g = stDraining) :
    s.drainComplete g = if ∀ c, c ∈ bitsSet 64 (s.grv g).cfg.cores → (s.core c).far = none ∧ (s.core c).sb = [] then
      (s.set (Fd.GRV_STAT.STATE g) stClearing).cmdOk g [opReset, opDestroy] else s :=
  ite_of_iff (by simp [h, State.coreDrained]) rfl rfl

/-- The registers after a grove enters fail-safe. -/
theorem State.enterFailsafe_get (s : State) {g : Nat} (hg : g < 64) :
    (s.enterFailsafe g).failsafe g = true ∧ (s.enterFailsafe g).get (Fd.FRM_GRV_STAT.CONSEC g) = s.get (Fd.FRM_GRV_STAT.CONSEC g) := by
  have hne : Rg.FRM_STAT ≠ Rg.FRM_GRV_STAT g := by unfold Rg.FRM_STAT Rg.FRM_GRV_STAT; omega
  have hregs : (s.enterFailsafe g).regs = ((s.failsafeFlags g).set Fd.FRM_STAT.FS_ANY 1).regs := by
    unfold State.enterFailsafe
    rw [State.modGrv_regs]
    exact congrArg State.regs (State.fsAny_of_failsafe hg (s.failsafe_failsafeFlags g))
  have apart {f : Fld} (hf : Rg.FRM_GRV_STAT g = f.off) : (s.enterFailsafe g).get f = (s.failsafeFlags g).get f := by
    rw [State.get_of_regs hregs]
    exact State.get_set_ne _ _ (hf ▸ hne)
  refine ⟨?failsafe, (apart rfl).trans ?consec⟩
  case failsafe =>
    unfold State.failsafe State.on
    rw [apart rfl, (s.failsafeFlags_get g).1]
    rfl
  case consec =>
    have ha : (Fd.FRM_GRV_STAT.RELEASE_ARMED g).off = (Fd.FRM_GRV_STAT.CONSEC g).off := rfl
    have hf : (Fd.FRM_GRV_STAT.FAILSAFE g).off = (Fd.FRM_GRV_STAT.CONSEC g).off := rfl
    unfold State.failsafeFlags
    rw [State.get_set_below _ _ ha, State.get_set_below _ _ hf] <;> exact of_decide_eq_true rfl

/-- What a reset grove's last step leaves (R289, R290). -/
def State.heldAfter (s : State) (g : Nat) : State :=
  (((((s.set (Fd.FRM_GRV_STAT.CONSEC g) 0).enterFailsafe g).lower (Fd.HWD_MEM_RT_OVER.COUNT g)).lower (Fd.GRV_STAT.TAKEN g)).setReg
    (Rg.GRV_TRACK_LOST_CNT g) 0).setGstate g stHeld

theorem State.heldAfter_get (s : State) {g : Nat} (hg : g < 64) :
    let t := s.heldAfter g
    t.gstate g = stHeld ∧ t.failsafe g = true ∧ t.get (Fd.FRM_GRV_STAT.CONSEC g) = 0 ∧ t.reg (Rg.GRV_TRACK_LOST_CNT g) = 0 ∧
      t.get (Fd.GRV_STAT.TAKEN g) = 0 := by
  obtain ⟨hfs, hconsec⟩ := (s.set (Fd.FRM_GRV_STAT.CONSEC g) 0).enterFailsafe_get hg
  have frame {f : Fld} (hf : f.off = Rg.FRM_GRV_STAT g) :
      (s.heldAfter g).get f = ((s.set (Fd.FRM_GRV_STAT.CONSEC g) 0).enterFailsafe g).get f := by
    unfold State.heldAfter State.setGstate State.lower
    rw [State.get_set_ne, State.get_setReg_ne, State.get_set_ne, State.get_set_ne] <;> rw [hf] <;>
      simp only [Fd.GRV_STAT.STATE, Fd.GRV_STAT.TAKEN, Fd.HWD_MEM_RT_OVER.COUNT, Rg.GRV_STAT, Rg.GRV_TRACK_LOST_CNT, Rg.HWD_MEM_RT_OVER,
        Rg.FRM_GRV_STAT] <;> omega
  refine ⟨?state, ?failsafe, ?consec, ?lost, ?taken⟩
  case state =>
    unfold State.gstate State.heldAfter State.setGstate
    rw [State.get_set] <;> exact of_decide_eq_true rfl
  case failsafe =>
    unfold State.failsafe State.on at hfs ⊢
    rw [frame rfl]
    exact hfs
  case consec => rw [frame rfl, hconsec, State.get_set] <;> exact of_decide_eq_true rfl
  case lost =>
    unfold State.heldAfter State.setGstate
    have hne : Rg.GRV_STAT g ≠ Rg.GRV_TRACK_LOST_CNT g := by unfold Rg.GRV_TRACK_LOST_CNT Rg.GRV_STAT; omega
    rw [State.reg_set_ne _ _ hne, State.reg_setReg_lt _ _ (by decide)]
  case taken =>
    have hoff : (Fd.GRV_STAT.STATE g).off = (Fd.GRV_STAT.TAKEN g).off := rfl
    have hne : Rg.GRV_TRACK_LOST_CNT g ≠ Rg.GRV_STAT g := by unfold Rg.GRV_TRACK_LOST_CNT Rg.GRV_STAT; omega
    unfold State.heldAfter State.setGstate
    rw [State.get_set_above _ _ hoff (of_decide_eq_true rfl) (of_decide_eq_true rfl) (of_decide_eq_true rfl), State.get_setReg_ne _ _ hne]
    exact State.get_set _ _ _ (of_decide_eq_true rfl) (of_decide_eq_true rfl)

/-- The clearing of a grove's memory, tags, instances and sources. -/
def State.clearedBefore (s : State) (g : Nat) : State :=
  let x := s.grv g
  let s := s.zeroMemory x.cfg.memory
  ((s.each (List.range x.cfg.tagCount) fun s k => s.resetTag (x.cfg.tagFirst + k)).resetInstances g).resetSources g

theorem State.clearingComplete_of_reset (h : s.gstate g = stClearing) (hd : (s.grv g).destroying = false) :
    s.clearingComplete g = ((s.clearedBefore g).heldAfter g).modFrame fun f =>
      { f with tasks := f.tasks.map fun t => if t.grove == g then { t with waited := false, ranOut := false, fresh := true } else t } := by
  unfold State.clearingComplete
  rw [if_neg (by simp [h])]
  dsimp only
  rw [if_neg (by simp [hd])]
  rfl

theorem State.showFree_groves (s : State) : s.showFree.groves = s.groves :=
  (State.showFree_kept (Kept.refl s : Kept False False False False False False True s s)).groves trivial

theorem State.release_grv? (s : State) (g : Nat) : (s.release g).grv? g = none := by
  unfold State.grv? State.release
  rw [State.showFree_groves]
  exact (mapGet?_del ..).trans (if_pos rfl)

theorem State.clearingComplete_of_destroy (h : s.gstate g = stClearing) (hd : (s.grv g).destroying = true) :
    (s.clearingComplete g).grv? g = none := by
  unfold State.clearingComplete
  rw [if_neg (by simp [h])]
  dsimp only
  rw [if_pos hd]
  exact State.release_grv? ..

/-! ### Freezing and saving -/

theorem State.freezeComplete_of_rest (hf : (s.grv g).freezing = true) (hq : s.dmaQuiet g = true) (ho : s.get (Fd.CAS_MQ_STAT.OPEN g) = 0) :
    let x := s.grv g
    let u := s.each (bitsSet 64 x.cfg.cores) fun s c => s.saveCtx c true
    let v := (u.set (Fd.GRV_STAT.STATE g) stFrozen).modGrv g fun y => { y with freezing := false, freezeArg := none }
    s.freezeComplete g = (v.set (Fd.GRV_STAT.FROZEN_FS g) (b2n (x.freezeArg == some 1))).cmdOk g [opFreeze] :=
  if_neg (by simp [hf, hq, ho])

/-- The save in progress ends. -/
def State.saveEnded (s : State) : State := { s.set Fd.GRV_CMD_STAT.BUSY 0 with gcmd := none }

theorem State.saveComplete_of_running {arg a fail : Nat} (h : s.gcmd = some { op := opSave, grove := g, arg := arg, addr := a }) :
    let u := s.wakeImage g
    s.saveComplete g fail =
      if (fail == 5 || s.imgUnreadable g) = true then reported u.saveEnded 7 5
      else if (arg == 0) = true then reported (u.imgWrite a (u.fullImage g)).saveEnded 0 0
      else
        let v := u.xferSend g 3 (4 * u.get (Fd.GRV_STAT.TAKEN g)) (some (u.fullImage g))
        if [1, 2, 4].contains fail = true then reported v.saveEnded 7 fail else reported v.saveEnded 0 0 := by
  unfold State.saveComplete
  rw [h]
  dsimp only
  rw [if_neg (by simp)]
  rfl

/-! ### Pairs -/

theorem State.applyComplete_of_due (h : (s.grv g).xApply = true) :
    let u := s.modGrv g fun x => { x with xApply := false }
    s.applyComplete g = if u.get (Fd.GRV_STAT.MISMATCH g) = 0 then u.set (Fd.GRV_STAT.SYNCED g) 1 else u := by
  intro u
  have hm : s.on (Fd.GRV_STAT.MISMATCH g) = u.on (Fd.GRV_STAT.MISMATCH g) := by
    unfold State.on
    rw [s.modGrv_get]
  have hset : u.setIf (!s.on (Fd.GRV_STAT.MISMATCH g)) (Fd.GRV_STAT.SYNCED g) 1 =
      if (!u.on (Fd.GRV_STAT.MISMATCH g)) = true then u.set (Fd.GRV_STAT.SYNCED g) 1 else u := by
    rw [hm]; rfl
  exact (if_pos h).trans (hset.trans (ite_of_iff (by simp) rfl rfl))

theorem State.partnerLost_of_missed (hm : 3 ≤ (s.grv g).acksMissed) (hl : s.get (Fd.GRV_STAT.PARTNER_LOST g) = 0) :
    s.partnerLost g = (s.set (Fd.GRV_STAT.PARTNER_LOST g) 1).pairBell g := if_pos (by simp [hm, hl])

theorem State.xferIn_of_frameData {c : List Byte} (hg : mDgrove (cellField c) = g) (hp : s.fromPartner g c = true)
    (hc : s.xferCurrent c = true) (hst : s.gstate g = stStandby) (hsub : fieldB (sliceB c 16 48) 0 1 = 1) :
    s.xferIn c = s.xferFrame g (fieldB (sliceB c 16 48) 4 4) ((sliceB c 16 48).drop 8) := by
  unfold State.xferIn
  dsimp only
  rw [hg, hp, hsub, hc, hst]
  rfl

/-! ### Firewall entries -/

theorem State.fwWrite_of_core {r : Requester} (i v : Nat) (hE : s.isE r = true) (hst : s.gstate g ≠ stAbsent)
    (hw : fwWordOk (setBits (v % 2 ^ 64) 11 4 0) = true) :
    let u := s.modGrv g fun x => { x with fwPending := (i, BitVec.ofNat 64 (s.reg (Rg.GRV_FW g i)), s.coh.fwSeq) :: x.fwPending }
    s.fwWrite r g i v = (u.modCoh fun c => { c with fwSeq := c.fwSeq + 1 }).setReg (Rg.GRV_FW g i) (setBits (v % 2 ^ 64) 11 4 0) :=
  if_neg (by rw [hw]; simp [hE, hst])

/-- A save that a partner takes in fails for the partner's reasons alone. -/
theorem transferFails_iff (fail : Fin 6) : [1, 2, 4].contains fail.val = true ↔ fail = 1 ∨ fail = 2 ∨ fail = 4 := by
  revert fail
  decide

/-- Settles O33: the end of each command by the lemma of its case. -/
theorem groveEvents : Obligations.GroveEvents := by
  unfold Obligations.GroveEvents
  intro g s
  refine ⟨fun h => ?drained, fun h hd _ _ => ?cleared, fun h hd => ?destroyed, fun hf hq ho => ?frozen, fun arg a fail h => ?saved, fun h => ?applied,
    fun hm hl => ?lost, fun r i v => ⟨fun hE hst hw => ?fwWrite, fun hE => ?fwRefused⟩, fun c h => ?expired, fun c h hg hp hc hst hsub => ?frame,
    fun off body => ?xferFrame⟩
  case drained => exact congrArg Host.Outcome.next (State.drainComplete_of_draining h)
  case cleared =>
    obtain ⟨hst, hfs, hconsec, hlost, htaken⟩ := (s.clearedBefore g.val).heldAfter_get g.isLt
    refine ⟨_, congrArg Host.Outcome.next (State.clearingComplete_of_reset h hd), ?_⟩
    unfold State.gstate State.failsafe State.on at *
    dsimp only
    rw [State.modFrame_get, State.modFrame_get, State.modFrame_get, State.modFrame_reg, State.modFrame_get]
    exact ⟨hst, hfs, hconsec, hlost, htaken⟩
  case destroyed => exact ⟨_, rfl, State.clearingComplete_of_destroy h hd⟩
  case frozen => exact congrArg Host.Outcome.next ((State.freezeComplete_of_rest hf hq ho).trans (by simp only [b2n, beq_iff_eq]; rfl))
  case saved =>
    intro ended u
    have hrun := State.saveComplete_of_running (fail := fail.val) h
    have h5 : (fail.val == 5) = true ↔ fail = 5 := by rw [beq_iff_eq, Fin.ext_iff]; rfl
    refine ⟨fun hf => ?failed, fun hf hu h0 => ?written, fun hf hu h1 => ?sent⟩
    case failed =>
      refine congrArg Host.Outcome.next (hrun.trans (if_pos ?_))
      rw [Bool.or_eq_true, h5]
      exact hf
    case written =>
      refine congrArg Host.Outcome.next (hrun.trans ((if_neg ?_).trans (if_pos (beq_iff_eq.mpr h0))))
      rw [Bool.or_eq_true, h5, hu]
      simpa using hf
    case sent =>
      refine congrArg Host.Outcome.next (hrun.trans ((if_neg ?_).trans ((if_neg (by simp [h1])).trans (ite_of_iff ?_ rfl rfl))))
      · rw [Bool.or_eq_true, h5, hu]
        simpa using hf
      · exact transferFails_iff fail
  case applied => exact congrArg Host.Outcome.next (State.applyComplete_of_due h)
  case lost => exact congrArg Host.Outcome.next (State.partnerLost_of_missed hm hl)
  case fwWrite => exact congrArg Host.Outcome.next (State.fwWrite_of_core i.val v.toNat hE hst hw)
  case fwRefused => exact congrArg Host.Outcome.next (if_pos (by simp [hE]))
  case expired => exact congrArg Host.Outcome.next (if_pos h)
  case frame => exact congrArg Host.Outcome.next ((if_neg (by simp [h])).trans (State.xferIn_of_frameData hg hp hc hst hsub))
  case xferFrame => exact fun hf => if_neg (Nat.not_le.mpr hf)

end Sys2Proof.Machine
end

section
/-! The instructions of the cores (chapters 9 and 10): what the fetch gives each row's function, and what the function leaves of the cases
that the statements name. -/

namespace Sys2Proof.Machine

variable {s u v w y : State} {c : CoreId} {insn : Word32} {row : RvRow} {i : Insn}

/-! ### Presentation of an instruction -/

theorem State.except_eq_excepted (s : State) (c : CoreId) (t : State) (code synd tval : Nat) :
    s.except c.val t code synd tval = excepted s t c code synd tval := by
  unfold State.except excepted
  cases s.offerOf c.val <;> rfl

/-- How an instruction presented at `s` ends, by what came of it. -/
def State.ended (s : State) (c : CoreId) : Ran → State
  | .done t => t.settle
  | .wait t => t
  | .trap t code synd tval => s.except c.val t code synd tval

theorem State.coreInsn_of_fetched (h : Fetches s c insn row i u) (f : State → Insn → Ran) :
    s.coreInsn c insn.toNat row f = s.ended c (f u i) := by
  obtain ⟨hready, rfl, hrow, hfetch⟩ := h
  unfold State.coreInsn
  dsimp only at hrow hfetch ⊢
  rw [hready, hrow, hfetch]
  simp only [Bool.not_true, Bool.false_eq_true, if_false, bne_self_eq_false]
  rfl

variable {f : State → Insn → Ran} {t : State} {code synd tval : Nat}

theorem coreInsn_done (h : Fetches s c insn row i u) (hf : f u i = .done t) : done (s.coreInsn c insn.toNat row f) = .next t.settle :=
  congrArg Host.Outcome.next (by rw [State.coreInsn_of_fetched h, hf]; rfl)

theorem coreInsn_wait (h : Fetches s c insn row i u) (hf : f u i = .wait t) : done (s.coreInsn c insn.toNat row f) = .next t :=
  congrArg Host.Outcome.next (by rw [State.coreInsn_of_fetched h, hf]; rfl)

theorem coreInsn_trap (h : Fetches s c insn row i u) (hf : f u i = .trap t code synd tval) :
    done (s.coreInsn c insn.toNat row f) = .next (excepted s t c code synd tval) :=
  congrArg Host.Outcome.next (by rw [State.coreInsn_of_fetched h, hf]; exact s.except_eq_excepted c t code synd tval)

/-! ### Loads and stores -/

variable {ps : List (Phys × Nat)}

theorem State.load_of_read {f : MemFault} {bs : List Byte} {evs : List Nat}
    (hc : u.checkAll c .load (addOfs (u.x c.val (rvRs1 i.word)) (immI i.word)) (2 ^ (rvF3 i.word % 4)) = (.ok ps, v))
    (hb : v.loadBytes c f ps = (.ok bs evs, w)) :
    let x := loadValue (rvOp i.word) (rvF3 i.word) (leNat bs)
    let own := 0x05 :: onceEach evs ++ (if (w.core c.val).partialWait then [0x0C] else []) ++ (if 1 < ps.length then [0x0D] else []) ++
      (w.core c.val).replayed
    let y := w.modCore c.val fun k => { k with prefetch := ps.foldl (fun t e => Config.prefetchTrain t (e.1.pa / 64)) k.prefetch }
    let z := if rvOp i.word = 0x07 then y.setFr c.val (rvRd i.word) x else y.setX c.val (rvRd i.word) x
    u.load c f i = .done ((z.retire c.val i.len).events c.val (w.level c.val) own) := by
  extract_lets x own y z
  unfold State.load
  dsimp only
  rw [hc]
  dsimp only
  rw [hb]
  dsimp only
  simp only [beq_iff_eq]
  rfl

theorem State.load_of_trap {f : MemFault}
    (hc : u.checkAll c .load (addOfs (u.x c.val (rvRs1 i.word)) (immI i.word)) (2 ^ (rvF3 i.word % 4)) = (.trap code synd tval, v)) :
    u.load c f i = .trap v code synd tval := by
  unfold State.load
  dsimp only
  rw [hc]

theorem State.storeInsn_of_trap
    (hc : u.checkAll c .store (addOfs (u.x c.val (rvRs1 i.word)) (immS i.word)) (2 ^ (rvF3 i.word % 4)) = (.trap code synd tval, v)) :
    u.storeInsn c i = .trap v code synd tval := by
  unfold State.storeInsn
  dsimp only
  rw [hc]

theorem State.storeInsn_of_room
    (hc : u.checkAll c .store (addOfs (u.x c.val (rvRs1 i.word)) (immS i.word)) (2 ^ (rvF3 i.word % 4)) = (.ok ps, v)) :
    let es := storeEntries ps (if rvOp i.word = 0x27 then u.fr c.val (rvRs2 i.word) else u.x c.val (rvRs2 i.word))
    (v.core c.val).sb.length + es.length ≤ 48 → (∀ e, e ∈ es → e.dev = false) →
    let miss := (ps.filter fun e => !e.1.nc).flatMap fun e => v.missEvents c.val (e.1.pa / 64) false
    u.storeInsn c i = .done ((((v.replayOver c.val ps).modCore c.val fun k => { k with sb := k.sb ++ es }).retire c.val i.len).events c.val
      (v.level c.val) (0x06 :: onceEach miss ++ (if 1 < ps.length then [0x0D] else []))) := by
  intro es hroom hdev miss
  unfold State.storeInsn
  dsimp only
  rw [hc]
  dsimp only
  simp only [beq_iff_eq]
  rw [if_neg (Nat.not_lt.mpr hroom), if_neg]
  rw [List.any_eq_true]
  exact fun ⟨e, he, hd⟩ => Bool.false_ne_true ((hdev e he).symm.trans hd)

/-! #### The early access of a load -/

/-- `t` differs from `s` at most in what the firewall's free choice draws. -/
structure DrewOnly (s t : State) : Prop where
  mem   : t.mem = s.mem
  regs  : t.regs = s.regs
  cores : t.cores = s.cores

theorem DrewOnly.refl (s : State) : DrewOnly s s := ⟨rfl, rfl, rfl⟩

theorem DrewOnly.trans (h : DrewOnly s t) (k : DrewOnly t u) : DrewOnly s u :=
  ⟨k.mem.trans h.mem, k.regs.trans h.regs, k.cores.trans h.cores⟩

theorem drewOnly_fwDrawn (s : State) (g : Nat) : DrewOnly s (s.fwDrawn g) := by
  unfold State.fwDrawn
  split
  · exact .refl s
  · exact ⟨rfl, rfl, rfl⟩

theorem State.fwCheck_of_pass {g : Nat} {k : FwKind} {req a n : Nat} (h : s.fwCheck g k req a n = (true, t)) : DrewOnly s t := by
  unfold State.fwCheck at h
  split at h
  · exact (Prod.mk.inj h).2 ▸ drewOnly_fwDrawn s g
  · exact absurd (Prod.mk.inj h).1 Bool.false_ne_true

theorem State.checkPhys_of_ok {k : AccKind} {va n va0 : Nat} {mis : Bool} {pa type : Nat} {rt : Bool} {p : Phys}
    (h : s.checkPhys c k va n va0 mis pa type rt = (.ok p, t)) : DrewOnly s t := by
  have same {r : Chk} {x y : State} (e : (r, x) = (Chk.ok p, y)) : DrewOnly x y := (Prod.mk.inj e).2 ▸ .refl x
  have no {a b d : Nat} {x : State} {G : Prop} (e : (Chk.trap a b d, x) = (Chk.ok p, t)) : G := nomatch (Prod.mk.inj e).1
  unfold State.checkPhys at h
  dsimp only at h
  split at h
  · exact no h
  split at h
  · exact no h
  split at h
  · exact no h
  split at h
  · exact same h
  split at h
  · exact same h
  · next g hg =>
    generalize hw : s.fwCheck g k.fw reqCore pa n = r at h
    obtain ⟨pass, x⟩ := r
    dsimp only at h
    cases pass
    · exact no h
    · exact (Prod.mk.inj h).2 ▸ State.fwCheck_of_pass hw

theorem State.check_of_ok {k : AccKind} {va n va0 : Nat} {mis : Bool} {p : Phys} (h : s.check c k va n va0 mis = (.ok p, t)) : DrewOnly s t := by
  have no {a b d : Nat} {x : State} {G : Prop} (e : (Chk.trap a b d, x) = (Chk.ok p, t)) : G := nomatch (Prod.mk.inj e).1
  unfold State.check at h
  split at h
  · split at h
    · exact no h
    · exact State.checkPhys_of_ok h
  split at h
  · exact no h
  split at h
  · exact no h
  · exact nomatch (Prod.mk.inj h).1
  · generalize (if (s.level c.val == .u) = true then 4 else 5) = b at h
    split at h
    · exact no h
    split at h
    · exact no h
    split at h
    · exact no h
    · exact State.checkPhys_of_ok h

theorem State.checkParts_of_ok {k : AccKind} {va : Nat} {mis : Bool} (parts : List (Nat × Nat)) :
    ∀ {s t : State} {ps : List (Phys × Nat)}, State.checkParts c k va mis parts s = (.ok ps, t) → DrewOnly s t := by
  induction parts with
  | nil => exact fun h => (Prod.mk.inj h).2 ▸ .refl _
  | cons part parts ih =>
    intro s t ps h
    unfold State.checkParts at h
    split at h
    · exact nomatch (Prod.mk.inj h).1
    · exact nomatch (Prod.mk.inj h).1
    · next p x hx =>
      split at h
      · next ps' y hy => exact (Prod.mk.inj h).2 ▸ (State.check_of_ok hx).trans (ih hy)
      · next r y hne hy => exact absurd (Prod.mk.inj h).1 (hne ps)

/-- A load ahead of its turn changes no memory, no register, no context and no store buffer (R322, R328). -/
theorem State.earlyLoad_frame (s : State) (c : CoreId) (insn : Nat) (a : EarlyAccess) :
    let t := s.earlyLoad c insn a
    t.mem = s.mem ∧ t.regs = s.regs ∧ (t.core c.val).ctx = (s.core c.val).ctx ∧ (t.core c.val).sb = (s.core c.val).sb := by
  intro t
  have ht : t = s.earlyLoad c insn a := rfl
  clear_value t
  unfold State.earlyLoad at ht
  dsimp only at ht
  split at ht
  · subst ht; exact ⟨rfl, rfl, rfl, rfl⟩
  split at ht
  · next ps x hx =>
    obtain ⟨hm, hr, hk⟩ := State.checkParts_of_ok _ hx
    have hcore : x.core c.val = s.core c.val := by unfold State.core; rw [hk]
    split at ht
    · subst ht; exact ⟨rfl, rfl, rfl, rfl⟩
    · subst ht
      refine ⟨hm, hr, ?_, ?_⟩
      · rw [State.core_modCore_self]; dsimp only; rw [hcore]
      · rw [State.core_modCore_self]; dsimp only; rw [hcore]
  · subst ht; exact ⟨rfl, rfl, rfl, rfl⟩

/-! #### The store buffer's drain and the misses -/

theorem State.storeDrain_of_line {f : MemFault} {e : StoreEntry} {rest : List StoreEntry} (hsb : (s.core c.val).sb = e :: rest)
    (hd : e.dev = false) (hn : e.nc = false) (ho : s.obtain c.val (e.addr / 64) e.rt true = (true, v))
    (hf : ((v.rtTouch (e.addr / 64) e.rt).memFault (some c.val) e.addr f).fails (e.addr / 64) = false) :
    s.storeDrain c f = ((((v.rtTouch (e.addr / 64) e.rt).memFault (some c.val) e.addr f).takeLine c.val (e.addr / 64) e.rt .m).wr e.addr e.size
      e.v.toNat).modCore c.val fun k => { k with sb := k.sb.drop 1 } := by
  unfold State.storeDrain
  rw [hsb]
  dsimp only
  rw [hd, hn, ho]
  dsimp only
  rw [hf]
  rfl

theorem State.missFill_of_spec {f : MemFault} {m : Miss} (hm : (s.core c.val).misses.find? (s.canFill c.val) = some m)
    (hk : m.kind = .spec) :
    s.missFill c f = (s.missDone c m).modCore c.val fun k => { k with shadow := m.line :: k.shadow.filter (· != m.line) } := by
  unfold State.missFill
  rw [hm]
  dsimp only
  rw [hk]

theorem State.missFill_of_line {f : MemFault} {m : Miss} (hm : (s.core c.val).misses.find? (s.canFill c.val) = some m)
    (hk : m.kind = .data ∨ m.kind = .fetch) (ho : s.obtain c.val m.line m.rt false = (true, v)) :
    let w := v.missDone c m
    let u := if m.kind = .fetch then (w.rtTouch m.line m.rt).memFault (some c.val) (64 * m.line) f else w
    u.fails m.line = false → s.missFill c f = u.shareLine c.val m.line m.rt (m.kind == .fetch) := by
  intro w u hf
  unfold State.missFill
  rw [hm]
  dsimp only
  rcases hk with hk | hk
  all_goals
    have hu : u = _ := ite_of_iff (by rw [hk]) rfl rfl
    rw [hk, ho]
    dsimp only
    rw [hu] at hf ⊢
    exact if_neg (Bool.not_eq_true _ ▸ hf)

/-! ### Atomics -/

variable {p : Phys} {m : Nat}

/-- Nothing older of the core stands in an atomic's way: no store that overlaps it, and with `aq` none at all (R305). -/
def AtomicFree (v : State) (c : CoreId) (w pa n : Nat) : Prop :=
  v.sbOver c.val pa n = [] ∧ (bitOf w 25 = true → (v.core c.val).sb = [])

theorem State.atomicPlace_of_free {k : AccKind} {g : State → Phys → Nat → Ran} {n : Nat} (hn : n = if rvF3 i.word = 2 then 4 else 8)
    (hc : u.checkAll c k (u.x c.val (rvRs1 i.word)) n = (.ok [(p, m)], v)) (hfree : AtomicFree v c i.word p.pa n) :
    u.atomicPlace c k i g = g v p n := by
  obtain ⟨hover, hall⟩ := hfree
  unfold State.atomicPlace
  dsimp only
  simp only [beq_iff_eq, ← hn]
  rw [hc]
  dsimp only
  rw [hover, if_neg]
  cases hb : bitOf i.word 25
  · simp
  · rw [hall hb]; simp

theorem State.nearLine_of_line {f : MemFault} {code va : Nat} {g : State → Ran} (ho : v.obtain c.val (p.pa / 64) p.rt true = (true, y))
    (hf : ((y.rtTouch (p.pa / 64) p.rt).memFault (some c.val) p.pa f).fails (p.pa / 64) = false) :
    v.nearLine c p f code va g = g ((y.rtTouch (p.pa / 64) p.rt).memFault (some c.val) p.pa f) := by
  unfold State.nearLine
  dsimp only
  rw [ho]
  exact if_neg (Bool.not_eq_true _ ▸ hf)

/-- Settles O35: the row's function at the fetched instruction, one lemma per instruction and case. -/
theorem loadsStoresAndAtomics : Obligations.LoadsStoresAndAtomics := by
  unfold Obligations.LoadsStoresAndAtomics
  refine ⟨⟨?load, ?store, ?fault, ?early, ?drain, ?fill, ?spec⟩, ?atomic⟩
  case load => exact fun c insn f s u v w i ps bs evs h hc hb => coreInsn_done h (State.load_of_read hc hb)
  case store => exact fun c insn s u v i ps h hc hroom hdev => coreInsn_done h (State.storeInsn_of_room hc hroom hdev)
  case fault =>
    exact fun c insn f s u v i code synd tval =>
      ⟨fun h hc => coreInsn_trap h (State.load_of_trap hc), fun h hc => coreInsn_trap h (State.storeInsn_of_trap hc)⟩
  case early => exact fun c insn f a s => ⟨s.earlyLoad c insn.toNat a, rfl, s.earlyLoad_frame c insn.toNat a⟩
  case drain =>
    exact fun c f s v e rest hsb hd hn ho hf => congrArg Host.Outcome.next (State.storeDrain_of_line hsb hd hn ho hf)
  case fill => exact fun c f s v m hm hk ho hf => congrArg Host.Outcome.next (State.missFill_of_line hm hk ho hf)
  case spec => exact fun c f s m hm hk => congrArg Host.Outcome.next (State.missFill_of_spec hm hk)
  case atomic =>
    intro c insn s u v y i p m n va line free lv
    refine ⟨?lr, ?sc, ?amo⟩
    case lr =>
      exact fun f h hc hfree ho hf => coreInsn_done h ((State.atomicPlace_of_free rfl hc hfree).trans (State.nearLine_of_line ho hf))
    case sc =>
      refine fun h hc hfree => ⟨fun hr ho => coreInsn_done h ((State.atomicPlace_of_free rfl hc hfree).trans ?held),
        fun hr => coreInsn_done h ((State.atomicPlace_of_free rfl hc hfree).trans ?lost)⟩
      case held => exact (if_pos (beq_iff_eq.mpr hr)).trans (by rw [ho])
      case lost => exact if_neg (mt beq_iff_eq.mp hr)
    case amo =>
      refine fun f h hc hfree => ⟨fun hn ho hf => coreInsn_done h ((State.atomicPlace_of_free rfl hc hfree).trans ?near),
        fun hn => coreInsn_wait h ((State.atomicPlace_of_free rfl hc hfree).trans (if_pos hn))⟩
      case near => exact (if_neg (Nat.not_le.mpr hn)).trans (State.nearLine_of_line ho hf)

end Sys2Proof.Machine
end

section
/-! The calls, returns, CSR and custom instructions, the ordinary instructions, and the events of a core (chapters 9 and 10). -/

namespace Sys2Proof.Machine

variable {s u v w : State} {c : CoreId} {insn : Word32} {i : Insn}

/-! ### Returns, context switches and CSR instructions -/

theorem State.retInsn_of_ok (h : u.csrOk c.val (rvCsr i.word) true = true) (l : Level) :
    u.retInsn c l i = .done (((u.setX c.val (rvRd i.word) 0).counted c.val).trapReturn c.val l) := if_neg (by rw [h]; decide)

section
variable (hok : u.csrOk c.val (rvCsr i.word) true = true)
include hok

theorem State.ctxSwitch_of_same (h : (u.core c.val).ctxId = some (u.csrValue c.val i.word 0 % 2 ^ 14)) :
    u.ctxSwitch c i = .done ((u.setX c.val (rvRd i.word) 0).retire c.val i.len) :=
  (if_neg (by rw [hok]; decide)).trans (if_pos (beq_iff_eq.mpr h))

theorem State.ctxSwitch_of_other (h : (u.core c.val).ctxId ≠ some (u.csrValue c.val i.word 0 % 2 ^ 14))
    (hr : u.switchRefused c.val (u.csrValue c.val i.word 0 % 2 ^ 14) = none) :
    u.ctxSwitch c i = .done ((((u.setX c.val (rvRd i.word) 0).retire c.val i.len).saveCtx c.val false).loadCtx c.val
      (u.csrValue c.val i.word 0 % 2 ^ 14) (u.isolated c.val)) :=
  (if_neg (by rw [hok]; decide)).trans ((if_neg (mt beq_iff_eq.mp h)).trans (by rw [hr]))

theorem State.ctxSwitch_of_refused {synd : Nat} (h : (u.core c.val).ctxId ≠ some (u.csrValue c.val i.word 0 % 2 ^ 14))
    (hr : u.switchRefused c.val (u.csrValue c.val i.word 0 % 2 ^ 14) = some synd) :
    u.ctxSwitch c i = .trap u 0x10 synd (u.csrValue c.val i.word 0) :=
  (if_neg (by rw [hok]; decide)).trans ((if_neg (mt beq_iff_eq.mp h)).trans (by rw [hr]))

end

theorem State.csrInsn_of_write {x : Nat} (hx : u.csrRead c.val (rvCsr i.word) = (x, w))
    (hok : u.csrOk c.val (rvCsr i.word) (csrWrites i.word) = true) (hw : csrWrites i.word = true) :
    let v := w.csrValue c.val i.word x
    let y := w.setX c.val (rvRd i.word) x
    let z := if csrAfter (rvCsr i.word) then (y.retire c.val i.len).csrWrite c.val (rvCsr i.word) v
      else (y.csrWrite c.val (rvCsr i.word) v).retire c.val i.len
    u.csrInsn c i = .done (if csrRegion (rvCsr i.word) then z.modCore c.val (·.squash) else z) := by
  intro v y z
  unfold State.csrInsn
  dsimp only
  rw [hok, hx]
  dsimp only
  rw [hw]
  rfl

theorem State.csrInsn_of_refused (hok : u.csrOk c.val (rvCsr i.word) (csrWrites i.word) = false) : u.csrInsn c i = illegal u i :=
  if_pos (by rw [hok]; rfl)

theorem State.other_csr (hop : rvOp i.word = 0x73) (h3 : rvF3 i.word % 4 ≠ 0) : u.other c i = u.csrInsn c i := by
  unfold State.other
  dsimp only
  rw [hop]
  exact if_neg (mt beq_iff_eq.mp h3)

/-! ### Fences and the custom instructions -/

theorem State.drained_iff (s : State) (c : Nat) : s.drained c = true ↔ (s.core c).sb = [] := List.isEmpty_iff

theorem not_drained_false (h : (u.core c.val).sb = []) : ¬ (!u.drained c.val) = true := by rw [(u.drained_iff c.val).mpr h]; decide

theorem State.fenceInsn_of_ready (h : fenceWaits i.word = false ∨ (u.core c.val).sb = []) :
    u.fenceInsn c i = .done (u.retire c.val i.len) :=
  if_neg fun hw => by
    obtain ⟨hf, hd⟩ := (Bool.and_eq_true_iff.mp hw : _ ∧ _)
    exact h.elim (fun h => Bool.false_ne_true (h.symm.trans hf)) fun h => not_drained_false h hd

theorem State.frameWait_of_task (hd : (u.core c.val).sb = []) (ht : (u.core c.val).task.isSome = true) :
    u.frameWait c i = .done (u.taskWait c.val (rvRd i.word)) := (if_neg (not_drained_false hd)).trans (if_pos ht)

theorem State.frameWait_of_none (hd : (u.core c.val).sb = []) (ht : (u.core c.val).task = none) :
    u.frameWait c i = .wait ((((u.pmcSync c.val).modCore c.val fun k => { k with fwait := some (rvRd i.word) }).condEdge c.val 0x24).settle) :=
  (if_neg (not_drained_false hd)).trans (if_neg (by rw [ht]; decide))

theorem State.regionInv_of_drained (hl : u.level c.val ≠ .u) (hd : (u.core c.val).sb = []) :
    let lo := u.x c.val (rvRs1 i.word) % 2 ^ 48
    let n := u.x c.val (rvRs2 i.word)
    u.regionInv c i = .done ((u.retire c.val i.len).modCore c.val fun k => { k with
      rlb := if n = 0 then [] else k.rlb.filter fun e => !(e.vbase < lo + n && lo < e.vbase + 4096 * e.pages) }) := by
  refine (if_neg (mt beq_iff_eq.mp hl)).trans ((if_neg (not_drained_false hd)).trans ?_)
  simp only [beq_iff_eq]

theorem State.fenceGrove_of_e (hl : u.level c.val = .e) :
    u.fenceGrove c i = .wait (u.modCore c.val fun k => { k with fence := some u.coh.fwSeq }) := if_neg (by rw [hl]; decide)

theorem State.fenceGroveEnd_of_passed {c n : Nat} (hf : (s.core c).fence = some n) (hr : s.runs c = true)
    (hg : ∀ g, g ∈ s.groveList → (∀ e, e ∈ (s.grv g).fwPending → n ≤ e.2.2) ∨ s.oldAdmitted g = false) :
    s.fenceGroveEnd c =
      (((s.groveList.foldl (fun v g => v.modGrv g fun x => { x with fwPending := x.fwPending.filter fun e => n ≤ e.2.2 }) s).modCore c
        fun k => { k with fence := none }).retire c 4).settle := by
  unfold State.fenceGroveEnd
  rw [hf]
  dsimp only
  refine if_neg ?_
  rw [hr, Bool.not_true, Bool.false_or, List.any_eq_true]
  rintro ⟨g, hmem, hlate⟩
  obtain ⟨hold, hadm⟩ := Bool.and_eq_true_iff.mp hlate
  obtain ⟨e, he, hlt⟩ := List.any_eq_true.mp hold
  have hlt := of_decide_eq_true hlt
  rcases hg g hmem with hnew | hnone
  · exact absurd (hnew e he) (Nat.not_le.mpr hlt)
  · exact Bool.false_ne_true (hnone.symm.trans hadm)

theorem b2n_bne_zero (n : Nat) : b2n (n != 0) = if n = 0 then 0 else 1 := by
  split
  · next h => rw [h]; rfl
  · next h => rw [bne_iff_ne.mpr h]; rfl

theorem State.loopSet_eq (u : State) (c : CoreId) (i : Insn) :
    let a := u.pc c.val
    let n := u.x c.val (rvRs1 i.word) % 2 ^ 32
    let exit := (a + 4 + 2 * bits i.word 31 20) % 2 ^ 64
    let v := (((u.setCsr c.val csrLoopStart ((a + 4) % 2 ^ 64)).setCsr c.val csrLoopExit exit).setCsr c.val csrLoopCount n).setCsr c.val csrLoopCfg
      (setBits (u.csr c.val csrLoopCfg) 0 0 (if n = 0 then 0 else 1))
    u.loopSet c i = .done (v.retireTo c.val (if n = 0 then exit else (a + 4) % 2 ^ 64)) := by
  intro a n exit v
  unfold State.loopSet
  dsimp only
  simp only [b2n_bne_zero, beq_iff_eq]
  rfl

/-- Settles O36: the row's function at the fetched instruction, one lemma per instruction and case. -/
theorem systemInstructions : Obligations.SystemInstructions := by
  unfold Obligations.SystemInstructions
  refine ⟨?calls, ?custom, fun c s n hf hr hg => congrArg Host.Outcome.next (State.fenceGroveEnd_of_passed hf hr hg)⟩
  case calls =>
    intro c insn s u i
    refine ⟨fun h => coreInsn_trap h rfl, fun h => coreInsn_trap h rfl, fun h hok => coreInsn_done h (State.retInsn_of_ok hok .s),
      fun h hok => coreInsn_done h (State.retInsn_of_ok hok .e), ?switch, ?write, ?refused⟩
    case switch =>
      exact fun h hok => ⟨fun hs => coreInsn_done h (State.ctxSwitch_of_same hok hs),
        fun hs hr => coreInsn_done h (State.ctxSwitch_of_other hok hs hr),
        fun synd hs hr => coreInsn_trap h (State.ctxSwitch_of_refused hok hs hr)⟩
    case write =>
      intro x w hx hok hw v y z t
      have ht : u.csrInsn c i = .done t := State.csrInsn_of_write hx hok hw
      exact ⟨fun h => coreInsn_done h ht, fun h => coreInsn_done h ht,
        fun h hop h3 => coreInsn_done h ((State.other_csr hop h3).trans ht)⟩
    case refused =>
      exact fun h hop h3 hok => coreInsn_trap h ((State.other_csr hop h3).trans (State.csrInsn_of_refused hok))
  case custom =>
    intro c insn s u i
    refine ⟨fun h hd => coreInsn_done h (State.fenceInsn_of_ready hd), fun h hd => coreInsn_done h (if_neg (not_drained_false hd)),
      fun h hd => ⟨fun ht => coreInsn_done h (State.frameWait_of_task hd ht), fun ht => coreInsn_wait h (State.frameWait_of_none hd ht)⟩,
      fun h hl hd => coreInsn_done h (State.regionInv_of_drained hl hd), fun h hl => coreInsn_wait h (State.fenceGrove_of_e hl),
      fun h => coreInsn_done h (u.loopSet_eq c i)⟩

/-! ### Integer, branch and floating-point instructions -/

/-- What an opcode gives, for every opcode that the statement names. -/
theorem State.other_of_op (u : State) (c : CoreId) (i : Insn) :
    let w := i.word
    let k := c.val
    let a := u.x k (rvRs1 w)
    let b := u.x k (rvRs2 w)
    let next := (u.pc k + i.len) % 2 ^ 64
    (rvOp w = 0x37 → u.other c i = u.intDone k i (some (ofInt 64 (immU w)))) ∧
    (rvOp w = 0x17 → u.other c i = u.intDone k i (some (addOfs (u.pc k) (immU w)))) ∧
    (rvOp w = 0x13 → u.other c i = u.intDone k i (aluImm w (rvF3 w) a)) ∧
    (rvOp w = 0x1B → u.other c i = u.intDone k i (aluImmW w (rvF3 w) a)) ∧
    (rvOp w = 0x33 → u.other c i = u.intDone k i (aluReg (rvF7 w) (rvF3 w) a b)) ∧
    (rvOp w = 0x3B → u.other c i = u.intDone k i (aluRegW (rvF7 w) (rvF3 w) (rvRs2 w) a b)) ∧
    (rvOp w = 0x63 → ∀ t, brTaken (rvF3 w) a b = some t → u.other c i = .done (u.branch k i t (addOfs (u.pc k) (immB w)))) ∧
    (rvOp w = 0x6F → u.other c i = .done ((u.setX k (rvRd w) next).branch k i true (addOfs (u.pc k) (immJ w)))) ∧
    (rvOp w = 0x67 → rvF3 w = 0 →
      u.other c i = .done ((u.setX k (rvRd w) next).branch k i true (addOfs a (immI w) / 2 * 2))) ∧
    (rvOp w = 0x53 → u.other c i = u.fpDone k i (fpOp w a (u.fr k (rvRs1 w)) (u.fr k (rvRs2 w)) (u.rounding k w))) := by
  intro w k a b next
  unfold State.other
  dsimp only
  refine ⟨fun h => by rw [h]; rfl, fun h => by rw [h]; rfl, fun h => by rw [h]; rfl, fun h => by rw [h]; rfl, fun h => by rw [h]; rfl,
    fun h => by rw [h]; rfl, fun h t ht => by rw [h]; simp only [b, a, k, w] at ht; simp only [ht]; rfl, fun h => by rw [h]; rfl,
    fun h h3 => by rw [h]; exact if_neg (by rw [h3]; decide), fun h => by rw [h]; rfl⟩

/-- Settles O37: the opcode's row of `State.other`, then its result. -/
theorem ordinaryInstructions : Obligations.OrdinaryInstructions := by
  unfold Obligations.OrdinaryInstructions
  intro c insn s u i h w a b next writes
  obtain ⟨hlui, hauipc, himm, himmW, hreg, hregW, hbr, hjal, hjalr, hfp⟩ := u.other_of_op c i
  have result {v : Nat} {r : Option Nat} (hr : r = some v) (e : u.other c i = u.intDone c.val i r) : writes v :=
    coreInsn_done h (by rw [e, hr]; rfl)
  exact ⟨fun ho => result rfl (hlui ho), fun ho => result rfl (hauipc ho), fun ho v hv => result hv (himm ho),
    fun ho v hv => result hv (himmW ho), fun ho v hv => result hv (hreg ho), fun ho v hv => result hv (hregW ho),
    fun ho t ht => coreInsn_done h (hbr ho t ht), fun ho => coreInsn_done h (hjal ho), fun ho h3 => coreInsn_done h (hjalr ho h3),
    fun ho f r hr => coreInsn_done h ((hfp ho).trans (by rw [hr]; rfl))⟩

/-! ### Events of a core -/

theorem State.interrupt_of_offer {c src : Nat} (hr : s.runs c = true) (hi : (s.core c).issued = false)
    (hp : ∀ e, e ∈ s.pci.reads → e.2.req ≠ c) (ho : s.offerOf c = some src) :
    s.interrupt c = ((s.endWait c).takeInterrupt c src).settle := by
  unfold State.interrupt
  rw [if_neg, ho]
  rw [hr, hi, Bool.not_true, Bool.false_or, Bool.false_or, List.any_eq_true]
  exact fun ⟨e, he, h⟩ => hp e he (beq_iff_eq.mp h)

theorem State.takeInterrupt_of_own {c src : Nat} (h : s.compatSource src = false) :
    s.takeInterrupt c src =
      ((s.accept c src).event c 0x15).trapEntry c (s.intLevel c) (2 ^ 63 + src * 2 ^ 16) 0 (s.vector (s.intLevel c) src) := by
  unfold State.takeInterrupt
  rw [h]
  rfl

/-- A walk after a probe that gave a line: on beyond it where the line does not lie above the address, with half the step. -/
def Walk.after (w : Walk) (step : Nat) (line : List Byte) : Walk :=
  if fieldB line 0 8 ≤ w.va then { w with b := w.b + step, line := line, step := step / 2 } else { w with step := step / 2 }

theorem State.probeReturn_of_line {f : MemFault} {rt : Bool} {w : Walk} {step : Nat} {line : List Byte} (hw : (s.core c.val).walk = some w)
    (hs : nextStep (ceilDiv (s.csr c.val csrRotCnt) 2) w.b 13 w.step = some step)
    (hp : s.probeCheck c (s.csr c.val csrRotBase + 64 * (w.b + step - 1)) f rt = (.line line, u)) :
    s.probeReturn c f rt =
      if (nextStep (ceilDiv (s.csr c.val csrRotCnt) 2) (w.after step line).b 13 (w.after step line).step).isSome
      then u.modCore c.val fun x => { x with walk := some (w.after step line) } else u.walkEnd c.val (w.after step line) := by
  unfold State.probeReturn
  rw [hw]
  dsimp only
  rw [hs]
  dsimp only
  rw [hp]
  dsimp only
  unfold Walk.after
  by_cases hb : fieldB line 0 8 ≤ w.va
  · simp only [if_pos hb]
    cases nextStep (ceilDiv (s.csr c.val csrRotCnt) 2) (w.b + step) 13 (step / 2) <;> rfl
  · simp only [if_neg hb]
    cases nextStep (ceilDiv (s.csr c.val csrRotCnt) 2) w.b 13 (step / 2) <;> rfl

/-- Settles O39: each event at the case that the statement names. -/
theorem coreEvents : Obligations.CoreEvents := by
  unfold Obligations.CoreEvents
  refine ⟨fun c s src hr hi hp ho => congrArg Host.Outcome.next (State.interrupt_of_offer hr hi hp ho),
    fun s c src h => State.takeInterrupt_of_own h, fun s c src => rfl, ?walk,
    fun c n s h => congrArg Host.Outcome.next (if_pos h)⟩
  case walk =>
    intro c f s u w step line hw lines hs k hp w'
    exact congrArg (fun t => Host.Outcome.next (State.settle t)) (State.probeReturn_of_line (s := s.drawn) hw hs hp)

end Sys2Proof.Machine
end

section
/-! The caches when a line moves (11.5): what only removes copies, what fills an L2, and the ownership of a line. -/

namespace Sys2Proof.Machine

variable {s t u : State}

/-! ### What removes copies -/

/-- A core has no copy of a line, nor its reservation. -/
structure CoreSt.Without (k : CoreSt) (line : Nat) : Prop where
  l1d    : mapGet? k.l1d line = none
  l1i    : line ∉ k.l1i
  shadow : line ∉ k.shadow
  rsv    : k.rsv ≠ some line

/-- `t` holds no copy that `s` has not. -/
structure Sheds (s t : State) : Prop where
  l2   : ∀ cl line, s.l2State cl line = none → t.l2State cl line = none
  core : ∀ d line, (s.core d).Without line → (t.core d).Without line

theorem Sheds.refl (s : State) : Sheds s s := ⟨fun _ _ h => h, fun _ _ h => h⟩

theorem Sheds.trans (h : Sheds s t) (k : Sheds t u) : Sheds s u :=
  ⟨fun cl line x => k.l2 cl line (h.l2 cl line x), fun d line x => k.core d line (h.core d line x)⟩

theorem CoreSt.without_default (line : Nat) : ({} : CoreSt).Without line := ⟨rfl, List.not_mem_nil, List.not_mem_nil, nofun⟩

theorem not_mem_filter_bne (l : List Nat) (a : Nat) : a ∉ l.filter (· != a) := by simp

theorem CoreSt.dropL1_without (k : CoreSt) (line a : Nat) (h : a = line ∨ k.Without a) :
    mapGet? (k.dropL1 line).l1d a = none ∧ a ∉ (k.dropL1 line).l1i ∧ (k.dropL1 line).rsv ≠ some a := by
  unfold CoreSt.dropL1
  rcases Decidable.em (a = line) with rfl | hne
  · refine ⟨mapGet?_filter_out (p := fun e => e != a) (bne_self_eq_false a), not_mem_filter_bne _ _, ?_⟩
    dsimp only
    split
    · nofun
    · next h => exact mt beq_iff_eq.mpr h
  · obtain ⟨hd, hi, _, hr⟩ := h.resolve_left hne
    refine ⟨(mapGet?_filter_ne (p := fun e => e != line) (bne_iff_ne.mpr hne)).trans hd, fun h => hi ((List.mem_filter.mp h).1), ?_⟩
    dsimp only
    split
    · nofun
    · exact hr

/-- What `dropShadow` leaves of a core: everything but the shadow buffer and the loads in progress. -/
theorem CoreSt.dropShadow_l1 (k : CoreSt) (line : Nat) :
    (k.dropShadow line).l1d = k.l1d ∧ (k.dropShadow line).l1i = k.l1i ∧ (k.dropShadow line).rsv = k.rsv ∧
      (k.dropShadow line).shadow = k.shadow.filter (· != line) := by
  unfold CoreSt.dropShadow
  split
  · next h =>
    have hno : line ∉ k.shadow := by simpa using h
    exact ⟨rfl, rfl, rfl, (List.filter_eq_self.mpr fun a ha => bne_iff_ne.mpr (ne_of_mem_of_not_mem ha hno)).symm⟩
  · dsimp only
    split <;> exact ⟨rfl, rfl, rfl, rfl⟩

theorem CoreSt.dropLine_without (k : CoreSt) (line a : Nat) (h : a = line ∨ k.Without a) : (k.dropLine line).Without a := by
  obtain ⟨hd, hi, hr⟩ := k.dropL1_without line a h
  obtain ⟨ed, ei, er, es⟩ := (k.dropL1 line).dropShadow_l1 line
  unfold CoreSt.dropLine
  refine ⟨by rw [ed]; exact hd, by rw [ei]; exact hi, ?_, by rw [er]; exact hr⟩
  rw [es]
  rcases h with rfl | h
  · exact not_mem_filter_bne _ _
  · exact fun hm => h.shadow ((List.mem_filter.mp hm).1)

theorem State.core_of_not_listed {d : Nat} (h : d ∉ s.coreList) : s.core d = {} := by
  have hnone : mapGet? s.cores d = none := by
    have hd : ∀ e ∈ s.cores, e.1 ≠ d := fun e he hed => h (List.mem_map.mpr ⟨e, he, hed⟩)
    generalize s.cores = m at hd
    induction m with
    | nil => rfl
    | cons e m ih =>
      obtain ⟨i, x⟩ := e
      unfold mapGet?
      rw [if_neg (mt beq_iff_eq.mp (hd _ List.mem_cons_self))]
      exact ih fun e he => hd e (List.mem_cons_of_mem _ he)
  unfold State.core mapGet
  rw [hnone]
  rfl

/-- Cores that all take one change which makes a line absent: the line is absent from each of them, and where it was. -/
theorem State.each_modCore_without {f : CoreSt → CoreSt} {line : Nat} (hf : ∀ k : CoreSt, (f k).Without line) (l : List Nat) (s : State) (d : Nat)
    (h : d ∈ l ∨ (s.core d).Without line) : ((s.each l fun s d => s.modCore d f).core d).Without line := by
  induction l generalizing s with
  | nil => exact h.resolve_left List.not_mem_nil
  | cons c l ih =>
    refine ih (s.modCore c f) ?_
    rw [State.core_modCore]
    split
    · exact .inr (hf _)
    · next hne => exact h.imp_left fun hm => (List.mem_cons.mp hm).resolve_left fun e => hne e.symm

theorem State.each_modCore_sheds {f : CoreSt → CoreSt} (hf : ∀ (k : CoreSt) (line : Nat), k.Without line → (f k).Without line) (l : List Nat)
    (s : State) : Sheds s (s.each l fun s d => s.modCore d f) := by
  unfold State.each
  induction l generalizing s with
  | nil => exact .refl s
  | cons c l ih =>
    refine Sheds.trans (t := s.modCore c f) ⟨fun _ _ h => h, fun d line h => ?_⟩ (ih _)
    rw [State.core_modCore]
    split
    · next e => exact hf _ _ (e ▸ h)
    · exact h

theorem State.each_modCore_coh {α : Type} (l : List α) (g : α → Nat) (f : CoreSt → CoreSt) (s : State) :
    (s.each l fun s a => s.modCore (g a) f).coh = s.coh := by
  unfold State.each
  induction l generalizing s with
  | nil => rfl
  | cons a l ih => exact ih (s.modCore (g a) f)

/-- A state whose L2s and cores stand as they did. -/
theorem sheds_of_same (h2 : t.coh.l2 = s.coh.l2) (hc : t.cores = s.cores) : Sheds s t := by
  refine ⟨fun cl line h => ?_, fun d line h => ?_⟩
  · unfold State.l2State State.l2; rw [h2]; exact h
  · unfold State.core; rw [hc]; exact h

theorem State.modCoh_sheds (s : State) (f : CohSt → CohSt) (h : (f s.coh).l2 = s.coh.l2) : Sheds s (s.modCoh f) := sheds_of_same h rfl

/-- A core that loses a line, as a cluster's invalidation has it. -/
def CoreSt.invalidated (line : Nat) (k : CoreSt) : CoreSt :=
  { k.dropLine line with misses := (k.dropLine line).misses.filter fun m => !(m.line == line && m.kind == .spec) }

theorem CoreSt.invalidated_without (k : CoreSt) (line a : Nat) (h : a = line ∨ k.Without a) : (k.invalidated line).Without a := by
  obtain ⟨hd, hi, hs, hr⟩ := k.dropLine_without line a h
  exact ⟨hd, hi, hs, hr⟩

theorem State.dropAt_eq (s : State) (cl line : Nat) :
    s.dropAt cl line = (s.l2Drop cl line).each (s.coresOf cl) fun s d => s.modCore d (CoreSt.invalidated line) := rfl

theorem State.l2State_l2Drop (s : State) (cl line cl' a : Nat) :
    (s.l2Drop cl line).l2State cl' a = if cl = cl' ∧ a = line then none else s.l2State cl' a := by
  unfold State.l2State State.l2 State.l2Drop State.modCoh
  dsimp only
  rw [mapGet_set]
  by_cases hcl : cl = cl'
  · subst hcl
    rw [if_pos rfl]
    by_cases ha : a = line
    · subst ha
      rw [if_pos ⟨rfl, rfl⟩]
      exact mapGet?_filter_out (p := fun e => e != a) (bne_self_eq_false a)
    · rw [if_neg fun h => ha h.2]
      exact mapGet?_filter_ne (p := fun e => e != line) (bne_iff_ne.mpr ha)
  · rw [if_neg hcl, if_neg fun h => hcl h.1]

theorem State.l2State_dropAt (s : State) (cl line cl' a : Nat) :
    (s.dropAt cl line).l2State cl' a = if cl = cl' ∧ a = line then none else s.l2State cl' a := by
  rw [← State.l2State_l2Drop]
  unfold State.l2State State.l2
  rw [State.dropAt_eq, State.each_modCore_coh _ (fun d => d)]

theorem State.dropAt_sheds (s : State) (cl line : Nat) : Sheds s (s.dropAt cl line) := by
  refine ⟨fun cl' a h => ?_, ?_⟩
  · rw [State.l2State_dropAt]; split
    · rfl
    · exact h
  · exact (State.each_modCore_sheds (fun k a h => k.invalidated_without line a (.inr h)) (s.coresOf cl) (s.l2Drop cl line)).core

/-- The cores of a cluster that invalidates a line have no copy of it. -/
theorem State.dropAt_without (s : State) (line : Nat) (d : Nat) : ((s.dropAt (clusterOf d) line).core d).Without line := by
  refine State.each_modCore_without (fun k => k.invalidated_without line line (.inl rfl)) _ (s.l2Drop (clusterOf d) line) d ?_
  by_cases h : d ∈ s.coreList
  · exact .inl (List.mem_filter.mpr ⟨h, beq_self_eq_true _⟩)
  · right
    show (s.core d).Without line
    rw [State.core_of_not_listed h]
    exact CoreSt.without_default line

theorem State.each_dropAt_sheds (line : Nat) (l : List Nat) (s : State) : Sheds s (s.each l fun s cl => s.dropAt cl line) := by
  unfold State.each
  induction l generalizing s with
  | nil => exact .refl s
  | cons cl l ih => exact (s.dropAt_sheds cl line).trans (ih _)

theorem State.each_dropAt_gone (line : Nat) (l : List Nat) (s : State) {cl : Nat} (h : cl ∈ l) :
    (s.each l fun s cl => s.dropAt cl line).l2State cl line = none ∧
      ∀ d, clusterOf d = cl → ((s.each l fun s cl => s.dropAt cl line).core d).Without line := by
  induction l generalizing s with
  | nil => exact absurd h List.not_mem_nil
  | cons c l ih =>
    rcases List.mem_cons.mp h with rfl | h
    · have hs := State.each_dropAt_sheds line l (s.dropAt cl line)
      exact ⟨hs.l2 _ _ (by rw [State.l2State_dropAt, if_pos ⟨rfl, rfl⟩]), fun d hd => hs.core _ _ (hd ▸ s.dropAt_without line d)⟩
    · exact ih (s.dropAt c line) h

theorem State.dirMod_same (s : State) (line : Nat) (f : DirEntry → DirEntry) :
    (s.dirMod line f).coh.l2 = s.coh.l2 ∧ (s.dirMod line f).cores = s.cores := by
  unfold State.dirMod
  split
  · exact ⟨rfl, rfl⟩
  · dsimp only; split <;> exact ⟨rfl, rfl⟩

theorem State.mendLine_same (s : State) (line : Nat) : (s.mendLine line).coh.l2 = s.coh.l2 ∧ (s.mendLine line).cores = s.cores := by
  unfold State.mendLine
  split <;> exact ⟨rfl, rfl⟩

theorem State.toL3_same (s : State) (line : Nat) (d : Bool) : (s.toL3 line d).coh.l2 = s.coh.l2 ∧ (s.toL3 line d).cores = s.cores := by
  unfold State.toL3
  dsimp only
  split
  · exact State.mendLine_same _ _
  · exact ⟨rfl, rfl⟩

theorem State.toL3_sheds (s : State) (line : Nat) (d : Bool) : Sheds s (s.toL3 line d) :=
  sheds_of_same (s.toL3_same line d).1 (s.toL3_same line d).2

theorem State.dirMod_sheds (s : State) (line : Nat) (f : DirEntry → DirEntry) : Sheds s (s.dirMod line f) :=
  sheds_of_same (s.dirMod_same line f).1 (s.dirMod_same line f).2

theorem State.iff_sheds (b : Bool) {f : State → State} (hf : Sheds s (f s)) : Sheds s (s.iff b f) := by
  unfold State.iff
  split
  · exact hf
  · exact .refl s

theorem State.dropOthers_sheds (s : State) (line : Nat) (keep : Option Nat) :
    Sheds (s.each ((List.range 4).filter fun cl => keep != some cl) fun s cl => s.dropAt cl line) (s.dropOthers line keep) := by
  unfold State.dropOthers
  dsimp only
  split
  · exact State.dirMod_sheds ..
  · refine sheds_of_same ?_ rfl
    unfold State.modCoh
    dsimp only
    split <;> rfl

theorem State.dropOthers_gone (s : State) (line cl : Nat) (keep : Option Nat) (h4 : cl < 4) (hk : keep ≠ some cl) :
    (s.dropOthers line keep).l2State cl line = none ∧ ∀ d, clusterOf d = cl → ((s.dropOthers line keep).core d).Without line := by
  have hs := s.dropOthers_sheds line keep
  obtain ⟨h2, hd⟩ := State.each_dropAt_gone line _ s
    (List.mem_filter.mpr ⟨List.mem_range.mpr h4, bne_iff_ne.mpr hk⟩ : cl ∈ (List.range 4).filter fun cl => keep != some cl)
  exact ⟨hs.l2 _ _ h2, fun d e => hs.core _ _ (hd d e)⟩

theorem State.dropOthers_keeps (s : State) (line : Nat) (keep : Option Nat) : Sheds s (s.dropOthers line keep) :=
  (State.each_dropAt_sheds line _ s).trans (s.dropOthers_sheds line keep)

theorem State.dirPut_sheds (s : State) (line : Nat) (rt : Bool) (own : Option Nat) (unique : Bool) (presence : Nat) :
    Sheds s (s.dirPut line rt own unique presence) := by
  unfold State.dirPut
  dsimp only
  split
  · refine s.modCoh_sheds _ ?_
    split <;> rfl
  · exact s.modCoh_sheds _ rfl
  · next v _ =>
    have h := (State.iff_sheds (f := (·.toL3 v true)) (s.dirty v) (s.toL3_sheds v true)).trans (State.dropOthers_keeps _ v none)
    generalize (s.iff (s.dirty v) (·.toL3 v true)).dropOthers v none = u at h ⊢
    exact h.trans (u.modCoh_sheds _ rfl)
  · exact .refl s

/-! ### A line that comes to an L2 -/

theorem mapGet?_cons_self {α : Type} (i : Nat) (x : α) (l : List (Nat × α)) : mapGet? ((i, x) :: l) i = some x := by
  unfold mapGet?; rw [beq_self_eq_true]; rfl

theorem mapGet?_cons_ne {α : Type} {i j : Nat} (x : α) (l : List (Nat × α)) (h : i ≠ j) : mapGet? ((i, x) :: l) j = mapGet? l j := by
  conv => lhs; unfold mapGet?
  exact if_neg (mt beq_iff_eq.mp h)

/-- The line stands first; of the others only one may have given way, and it is another line. -/
theorem lruPut_spec {α : Type} (ways : Nat) (set : Nat → Nat) (line : Nat) (x : α) (l : List (Nat × α)) :
    mapGet? (lruPut ways set line x l).1 line = some x ∧
      (∀ a, a ≠ line → mapGet? l a = none → mapGet? (lruPut ways set line x l).1 a = none) ∧
      ∀ e, (lruPut ways set line x l).2 = some e → e.1 ≠ line := by
  have hrest (a : Nat) (ha : mapGet? l a = none) (hne : a ≠ line) : mapGet? (l.filter fun e => e.1 != line) a = none :=
    (mapGet?_filter_ne (p := fun e => e != line) (bne_iff_ne.mpr hne)).trans ha
  have hcons (a : Nat) (hne : a ≠ line) (l' : List (Nat × α)) (ha : mapGet? l' a = none) : mapGet? ((line, x) :: l') a = none :=
    (mapGet?_cons_ne x l' hne.symm).trans ha
  unfold lruPut
  dsimp only
  split
  · exact ⟨mapGet?_cons_self .., fun a hne ha => (mapGet?_cons_ne _ _ hne.symm).trans (hrest a ha hne), nofun⟩
  split
  · exact ⟨mapGet?_cons_self .., fun a hne ha => (mapGet?_cons_ne _ _ hne.symm).trans (hrest a ha hne), nofun⟩
  split
  · next v hv =>
    refine ⟨mapGet?_cons_self .., fun a hne ha => (mapGet?_cons_ne _ _ hne.symm).trans ?_, ?_⟩
    · by_cases hv : a = v.1
      · exact mapGet?_filter_out (p := fun e => e != v.1) (by rw [hv]; exact bne_self_eq_false _)
      · exact (mapGet?_filter_ne (p := fun e => e != v.1) (bne_iff_ne.mpr hv)).trans (hrest a ha hne)
    · rintro e ⟨⟩
      exact bne_iff_ne.mp (List.mem_filter.mp ((List.mem_filter.mp (List.mem_of_getLast? hv)).1)).2
  · exact ⟨mapGet?_cons_self .., fun a hne ha => (mapGet?_cons_ne _ _ hne.symm).trans (hrest a ha hne), nofun⟩

/-- An eviction changes L2s and cores by its invalidation only. -/
theorem State.evictL2_same (s : State) (cl v : Nat) (st : LineState) :
    (s.evictL2 cl v st).coh.l2 = (s.dropAt cl v).coh.l2 ∧ (s.evictL2 cl v st).cores = (s.dropAt cl v).cores := by
  have hwb (u : State) (b : Bool) : (u.iff b (·.setWb cl v true)).coh.l2 = u.coh.l2 ∧ (u.iff b (·.setWb cl v true)).cores = u.cores := by
    unfold State.iff
    split <;> exact ⟨rfl, rfl⟩
  unfold State.evictL2
  dsimp only
  split
  · split <;> split <;> exact hwb _ _
  · exact ⟨((State.dirMod_same ..).1).trans (State.toL3_same ..).1, ((State.dirMod_same ..).2).trans (State.toL3_same ..).2⟩

/-- The eviction of a line leaves the L2 states of every other line. -/
theorem State.l2State_evictL2_ne (s : State) (cl v cl' a : Nat) (st : LineState) (h : a ≠ v) :
    (s.evictL2 cl v st).l2State cl' a = s.l2State cl' a := by
  have hd : (s.dropAt cl v).l2State cl' a = s.l2State cl' a := by rw [State.l2State_dropAt, if_neg fun e => h e.2]
  rw [← hd]
  unfold State.l2State State.l2
  rw [(s.evictL2_same cl v st).1]

theorem State.evictL2_sheds (s : State) (cl v : Nat) (st : LineState) : Sheds s (s.evictL2 cl v st) :=
  (s.dropAt_sheds cl v).trans (sheds_of_same (s.evictL2_same cl v st).1 (s.evictL2_same cl v st).2)

theorem State.l2State_fillL2_same (s : State) (cl line : Nat) (st : LineState) : (s.fillL2 cl line st).l2State cl line = some st := by
  obtain ⟨hsame, -, hout⟩ := lruPut_spec 16 l2Set line st (s.l2 cl)
  have hput : (s.modCoh fun c => { c with l2 := mapSet [] c.l2 cl (lruPut 16 l2Set line st (s.l2 cl)).1 }).l2State cl line = some st := by
    unfold State.l2State State.l2 State.modCoh
    dsimp only
    rw [mapGet_set, if_pos rfl]
    exact hsame
  unfold State.fillL2
  dsimp only
  split
  · next v vst hv =>
    rw [State.l2State_evictL2_ne _ _ _ _ _ _ (hout _ hv).symm]
    exact hput
  · exact hput

theorem State.l2State_fillL2_other (s : State) (cl line : Nat) (st : LineState) {cl' : Nat} (hcl : cl' ≠ cl) (a : Nat)
    (h : s.l2State cl' a = none) : (s.fillL2 cl line st).l2State cl' a = none := by
  have hput : (s.modCoh fun c => { c with l2 := mapSet [] c.l2 cl (lruPut 16 l2Set line st (s.l2 cl)).1 }).l2State cl' a = none := by
    unfold State.l2State State.l2 State.modCoh
    dsimp only
    rw [mapGet_set, if_neg hcl.symm]
    exact h
  unfold State.fillL2
  dsimp only
  split
  · exact (State.evictL2_sheds ..).l2 _ _ hput
  · exact hput

theorem State.fillL2_without (s : State) (cl line : Nat) (st : LineState) (d a : Nat) (h : (s.core d).Without a) :
    ((s.fillL2 cl line st).core d).Without a := by
  unfold State.fillL2
  dsimp only
  split
  · exact (State.evictL2_sheds ..).core _ _ h
  · exact h

/-- The state that a read gives the line in the reader's L2 (R370, R382). -/
theorem State.l2State_shareL2 (s : State) (line cl : Nat) (rt fetch : Bool) (h : s.l2State cl line = none) :
    (s.shareL2 cl line rt fetch none).l2State cl line = some (if s.otherHolders cl line = 0 ∧ fetch = false then .e else .s) := by
  unfold State.shareL2
  rw [h]
  dsimp only
  rw [State.l2State_fillL2_same]
  refine congrArg some (ite_of_iff ?_ rfl rfl)
  simp

/-! ### Ownership -/

/-- The copies of the core's own cluster, and the core's fetched and speculative ones, go before a line is owned. -/
def State.ownStart (s : State) (c line : Nat) : State :=
  let u := s.each ((s.coresOf (clusterOf c)).filter (· != c)) fun s d => s.modCore d (·.dropLine line)
  u.modCore c fun k => { k with l1i := k.l1i.filter (· != line), shadow := k.shadow.filter (· != line) }

theorem State.ownStart_without (s : State) (c line d : Nat) (hd : d ≠ c) (hcl : clusterOf d = clusterOf c) :
    ((s.ownStart c line).core d).Without line := by
  unfold State.ownStart
  dsimp only
  rw [State.core_modCore, if_neg hd.symm]
  refine State.each_modCore_without (fun k => k.dropLine_without line line (.inl rfl)) _ s d ?_
  by_cases h : d ∈ s.coreList
  · exact .inl (List.mem_filter.mpr ⟨List.mem_filter.mpr ⟨h, beq_iff_eq.mpr hcl⟩, bne_iff_ne.mpr hd⟩)
  · rw [State.core_of_not_listed h]
    exact .inr (CoreSt.without_default line)

/-- Ownership once the own cluster's copies have gone: the line's data at its home, the other clusters, the entry. -/
def State.ownTake (s : State) (q : HomeReq) (cl : Nat) : State :=
  ((((s.iff (!s.cached q.line) (·.toL3 q.line false)).iff (s.dirty q.line) (·.toL3 q.line true)).dropOthers q.line (some cl)).dirPut q.line
    q.rt q.way true (2 ^ cl))

theorem State.ownTake_sheds (s : State) (q : HomeReq) (cl : Nat) : Sheds s (s.ownTake q cl) :=
  (((State.iff_sheds _ (s.toL3_sheds q.line false)).trans (State.iff_sheds _ (State.toL3_sheds _ q.line true))).trans
    (State.dropOthers_keeps _ q.line (some cl))).trans (State.dirPut_sheds ..)

theorem State.ownTake_gone (s : State) (q : HomeReq) (cl : Nat) {cl' : Nat} (h4 : cl' < 4) (hne : cl' ≠ cl) :
    (s.ownTake q cl).l2State cl' q.line = none ∧ ∀ d, clusterOf d = cl' → ((s.ownTake q cl).core d).Without q.line := by
  obtain ⟨h2, hd⟩ := State.dropOthers_gone
    ((s.iff (!s.cached q.line) (·.toL3 q.line false)).iff (s.dirty q.line) (·.toL3 q.line true)) q.line cl' (some cl) h4
    (fun e => hne (Option.some.inj e).symm)
  have hs := State.dirPut_sheds
    (((s.iff (!s.cached q.line) (·.toL3 q.line false)).iff (s.dirty q.line) (·.toL3 q.line true)).dropOthers q.line (some cl)) q.line q.rt q.way
    true (2 ^ cl)
  exact ⟨hs.l2 _ _ h2, fun d e => hs.core _ _ (hd d e)⟩

/-- What each step of `grantOwn` leaves of the line (R382): the owner's L2 alone holds it, and of the other cores none. -/
theorem State.grantOwn_alone (s : State) (c : CoreId) (line : Nat) (rt : Bool) (k : ReqKind) :
    let t := s.grantOwn (coreReq k c.val line rt) (clusterOf c.val)
    t.l2State (clusterOf c.val) line = some .m ∧ (∀ cl, cl < 4 → cl ≠ clusterOf c.val → t.l2State cl line = none) ∧
      ∀ d, d < 64 → d ≠ c.val → (t.core d).Without line := by
  intro t
  have ht : t = ((s.ownStart c.val line).ownTake (coreReq k c.val line rt) (clusterOf c.val)).fillL2 (clusterOf c.val) line .m := rfl
  rw [ht]
  clear_value t
  refine ⟨State.l2State_fillL2_same .., fun cl h4 hne => State.l2State_fillL2_other _ _ _ _ hne _ (State.ownTake_gone _ _ _ h4 hne).1,
    fun d h64 hd => State.fillL2_without _ _ _ _ _ _ ?_⟩
  by_cases hcl : clusterOf d = clusterOf c.val
  · exact (State.ownTake_sheds _ _ _).core _ _ (s.ownStart_without c.val line d hd hcl)
  · exact (State.ownTake_gone _ (coreReq k c.val line rt) _ (by unfold clusterOf; omega : clusterOf d < 4) hcl).2 d rfl

end Sys2Proof.Machine
end

section
/-! Requests at a home (11.5): how one is sent, accepted, served, retried or put to wait, and what closes it. -/

namespace Sys2Proof.Machine

variable {s t u v : State} {q : HomeReq} {f : MemFault} {line : Nat}

/-! ### The queue of a line -/

theorem State.serveQueue_of_blocked (h : s.blocked line = true) : s.serveQueue line = s := by
  unfold State.serveQueue State.homeDrain
  rw [if_pos h]

theorem State.serveQueue_of_none (h : ∀ w, w ∈ s.coh.waiting → w.line ≠ line) : s.serveQueue line = s := by
  have hnone : s.coh.waiting.find? (·.line == line) = none :=
    List.find?_eq_none.mpr fun w hw => mt beq_iff_eq.mp (h w hw)
  unfold State.serveQueue State.homeDrain
  rw [hnone]
  exact ite_self _

theorem State.opened_setTx (s : State) (line : Nat) (t : OpenTx) : mapGet? (s.setTx line (some t)).coh.opened line = some t := by
  unfold State.setTx State.modCoh
  dsimp only
  rw [mapGet?_put, if_pos rfl]

theorem State.blocked_setTx (s : State) (line : Nat) (t : OpenTx) : (s.setTx line (some t)).blocked line = true := by
  unfold State.blocked
  rw [State.opened_setTx]
  rfl

theorem State.not_opened (h : s.blocked line = false) : mapGet? s.coh.opened line = none := Option.isSome_eq_false_iff.mp h |> Option.isNone_iff_eq_none.mp

/-! ### Arrival and acceptance -/

theorem State.homeSend_of_held (h : s.transTake q.requester 1 = (false, v)) : s.homeSend q f = v := by
  unfold State.homeSend
  rw [h]

/-- A request that is no atomic of a queue is its own record at its arrival. -/
theorem HomeReq.arrived_eq (hq : q.queued = false) {b : Bool} (hb : (q.kind.isAtomic && b) = false) :
    { q with queued := q.kind.isAtomic && b } = q := by
  rw [hb, ← hq]

theorem State.homeArrive_of_free (hd : targetOf (64 * q.line) = .gddr) (hb : v.blocked q.line = false) (hq : q.queued = false)
    (ha : q.kind.isAtomic = false ∨ v.coh.waiting = []) : v.homeArrive q f = (v.homeAccept q f).serveQueue q.line := by
  have hany : (q.kind.isAtomic && v.coh.waiting.any fun o => o.line == q.line && o.kind.isAtomic) = false := by
    rcases ha with ha | ha <;> rw [ha]
    · rfl
    · exact Bool.and_false _
  unfold State.homeArrive
  rw [hd, if_neg (by decide)]
  dsimp only
  simp only [HomeReq.arrived_eq hq hany]
  exact if_neg (Bool.not_eq_true _ ▸ hb)

theorem State.homeSend_of_sent (h : Sent s q v) (hq : q.queued = false) (ha : q.kind.isAtomic = false ∨ v.coh.waiting = []) :
    s.homeSend q f = (v.homeAccept q f).serveQueue q.line := by
  obtain ⟨htake, hd, hb⟩ := h
  unfold State.homeSend
  rw [htake]
  exact State.homeArrive_of_free hd hb hq ha

theorem State.homeSend_of_blocked (ht : s.transTake q.requester 1 = (true, v)) (hd : targetOf (64 * q.line) = .gddr)
    (hb : v.blocked q.line = true) (hq : q.queued = false) (ha : q.kind.isAtomic = false) :
    s.homeSend q f = v.modCoh fun x => { x with waiting := x.waiting ++ [q] } := by
  have hany : (q.kind.isAtomic && v.coh.waiting.any fun o => o.line == q.line && o.kind.isAtomic) = false := by rw [ha]; rfl
  unfold State.homeSend
  rw [ht]
  dsimp only
  unfold State.homeArrive
  rw [hd, if_neg (by decide)]
  dsimp only
  simp only [HomeReq.arrived_eq hq hany]
  exact if_pos hb

/-- Is a request of a kind that the home turns away without an answer (R370)? -/
def State.unserved (s : State) (q : HomeReq) : Prop := q.kind = .readSpec ∧ s.ownedElsewhere q = true

/-- Has the home an entry for a request, or room for one, if it needs one (R385)? -/
def State.hasRoom (s : State) (q : HomeReq) : Prop := q.kind.needsEntry = true → s.dirRoom q.line q.rt q.way ≠ .full

/-- The state in which an accepted request's transaction opens: its entry stands. -/
def State.withEntry (s : State) (q : HomeReq) : State :=
  if q.kind.needsEntry = true ∧ mapGet? s.coh.dir q.line = none then s.dirPut q.line q.rt q.way false 0 else s

theorem State.homeAccept_of_room (hs : ¬ v.unserved q) (hr : v.hasRoom q) :
    v.homeAccept q f = ((v.withEntry q).setTx q.line
      (some { req := q, snoops := v.snoopsFor q, snooped := v.snoopsFor q != 0, way := wayAt (v.withEntry q) q.line })).txFinish q.line f := by
  have hentry : (if (q.kind.needsEntry && (mapGet? v.coh.dir q.line).isNone) = true then v.dirPut q.line q.rt q.way false 0 else v) =
      v.withEntry q := ite_of_iff (by rw [Bool.and_eq_true, Option.isNone_iff_eq_none]) rfl rfl
  unfold State.homeAccept
  rw [if_neg fun h => hs (by simpa only [State.unserved, Bool.and_eq_true, beq_iff_eq] using h), if_neg]
  · dsimp only
    rw [hentry]
    rfl
  · exact fun h => by
      obtain ⟨hn, hf⟩ := Bool.and_eq_true_iff.mp h
      exact hr hn (beq_iff_eq.mp hf)

theorem State.homeAccept_of_full (hs : ¬ v.unserved q) (hn : q.kind.needsEntry = true) (hr : v.dirRoom q.line q.rt q.way = .full) :
    v.homeAccept q f = v.answerRetry q := by
  unfold State.homeAccept
  rw [if_neg fun h => hs (by simpa only [State.unserved, Bool.and_eq_true, beq_iff_eq] using h), if_pos]
  rw [hn, hr]
  rfl

/-! ### The work of an open transaction -/

theorem State.txFinish_of_snoops {w : OpenTx} (ht : mapGet? s.coh.opened line = some w) (hn : w.snoops ≠ 0) : s.txFinish line f = s := by
  unfold State.txFinish
  rw [ht]
  dsimp only
  rw [if_pos]
  rw [bne_iff_ne.mpr hn, Bool.or_true, Bool.true_or]

/-- An accepted request with no snoop to await: its work is done at once. -/
theorem State.txFinish_openedFor (v : State) (q : HomeReq) (f : MemFault) :
    (openedFor v q).txFinish q.line f =
      if q.kind.closesItself = true then ((openedFor v q).homeWork q false f).txClose q.line
      else finishedFor v ((openedFor v q).homeWork q false f) q := by
  have ht : mapGet? (openedFor v q).coh.opened q.line = some { req := q, way := wayAt (v.withEntry q) q.line } := State.opened_setTx ..
  unfold State.txFinish
  rw [ht]
  rfl

theorem State.homeAccept_of_quiet (hs : ¬ v.unserved q) (hr : v.hasRoom q) (h0 : v.snoopsFor q = 0) :
    v.homeAccept q f = (openedFor v q).txFinish q.line f := by
  rw [State.homeAccept_of_room hs hr, h0]
  rfl

theorem blocked_finishedFor (v t : State) (q : HomeReq) : (finishedFor v t q).blocked q.line = true := t.blocked_setTx ..

/-- A request that is served and awaits its acknowledgement. -/
theorem State.homeSend_finished (h : Sent s q v) (hq : q.queued = false) (ha : q.kind.isAtomic = false ∨ v.coh.waiting = [])
    (hs : ¬ v.unserved q) (hr : v.hasRoom q) (h0 : v.snoopsFor q = 0) (hc : q.kind.closesItself = false)
    (hw : (openedFor v q).homeWork q false f = t) : s.homeSend q f = finishedFor v t q := by
  rw [State.homeSend_of_sent h hq ha, State.homeAccept_of_quiet hs hr h0, State.txFinish_openedFor, if_neg (by rw [hc]; decide), hw,
    State.serveQueue_of_blocked (blocked_finishedFor ..)]

theorem State.homeRead_of_good (h : (readBy s q f).fails q.line = false) : s.homeRead q f = readBy s q f := if_neg (Bool.not_eq_true _ ▸ h)

theorem State.homeServe_of_good {g : State → State} (h : (readBy s q f).fails q.line = false) : s.homeServe q f g = g (readBy s q f) := by
  unfold State.homeServe
  rw [State.homeRead_of_good h]
  exact if_neg (Bool.not_eq_true _ ▸ h)

/-! ### The kinds of the statements -/

theorem State.not_unserved (h : q.kind ≠ .readSpec) : ¬ v.unserved q := fun e => h e.1

theorem State.hasRoom_of_ne (h : v.dirRoom q.line q.rt q.way ≠ .full) : v.hasRoom q := fun _ => h

theorem State.grantSpec_of_core (u : State) (c : CoreId) (rt : Bool) :
    let e := (mapGet? u.coh.dir line).getD ⟨false, 0, 0, 0⟩
    let m : Miss := { line := line, kind := .spec, rt := rt }
    u.grantSpec (coreReq .readSpec c.val line rt) (clusterOf c.val) =
      (u.dirPut line rt none e.unique (setBits e.presence (clusterOf c.val) (clusterOf c.val) 1)).modCore c.val fun k => { k with
        misses := if k.misses.contains m then k.misses else k.misses ++ [m] } := if_neg (Nat.not_le.mpr c.isLt)

/-- Is a pair a row of the statement on requests that wait or are retried: the command, and the request that it sends? -/
def HomeRow (cl : Fin 4) (c : CoreId) (addr : PAddr) (rt : Bool) (f : MemFault) (i : Instr) (q : HomeReq) : Prop :=
  (i, q) ∈ [(Instr.readShared cl addr true rt f, clusterReq (.readShared true) cl.val (addr.toNat / 64) rt),
    (.readShared cl addr false rt f, clusterReq (.readShared false) cl.val (addr.toNat / 64) rt),
    (.readUnique c addr rt f, coreReq .readUnique c.val (addr.toNat / 64) rt), (.upgrade c addr rt f, coreReq .upgrade c.val (addr.toNat / 64) rt)]

/-- What the four rows have in common. -/
structure PlainReq (q : HomeReq) (line : Nat) (rt : Bool) : Prop where
  at_     : q.line = line
  cls     : q.rt = rt
  queued  : q.queued = false
  atomic  : q.kind.isAtomic = false
  spec    : q.kind ≠ .readSpec
  entry   : q.kind.needsEntry = true
  way     : q.way = none
  retried : { q.retried with way := none } = { q with retries := 1, reserved := rt }

theorem plainReq_row {cl : Fin 4} {c : CoreId} {addr : PAddr} {rt : Bool} {i : Instr} (h : HomeRow cl c addr rt f i q) (s : State) :
    exec i s = .next (s.homeSend q f) ∧ PlainReq q (addr.toNat / 64) rt := by
  unfold HomeRow at h
  simp only [List.mem_cons, Prod.mk.injEq, List.not_mem_nil, or_false] at h
  rcases h with ⟨rfl, rfl⟩ | ⟨rfl, rfl⟩ | ⟨rfl, rfl⟩ | ⟨rfl, rfl⟩ <;>
    exact ⟨rfl, rfl, rfl, rfl, rfl, nofun, rfl, rfl, by cases rt <;> rfl⟩

/-- Settles O40: a served request opens its transaction, has its work done and awaits the acknowledgement; the copies that a grant leaves; and
the four ways in which a request is not served. -/
theorem homeRequests : Obligations.HomeRequests := by
  unfold Obligations.HomeRequests
  refine ⟨⟨?served, fun s line cl rt fetch _ h => s.l2State_shareL2 line cl rt fetch h, ?own⟩, ?other⟩
  case served =>
    intro s v addr rt f line
    refine ⟨?shared, ?unique, ?upgrade, ?spec⟩
    case shared =>
      intro cl fetch q h hr h0 u hf
      have hw : (openedFor v q).homeServe q f (fun s => s.shareL2 cl.val line rt fetch none) = _ := State.homeServe_of_good hf
      exact congrArg Host.Outcome.next
        (State.homeSend_finished h rfl (.inl rfl) (State.not_unserved nofun) (State.hasRoom_of_ne hr) h0 rfl hw)
    case unique =>
      intro c q h hr h0 u hf
      have hw : (openedFor v q).homeServe q f (fun s => s.grantOwn q (clusterOf c.val)) = _ := State.homeServe_of_good hf
      exact congrArg Host.Outcome.next
        (State.homeSend_finished h rfl (.inl rfl) (State.not_unserved nofun) (State.hasRoom_of_ne hr) h0 rfl hw)
    case upgrade =>
      intro c q h hr h0 u hl
      exact congrArg Host.Outcome.next (State.homeSend_finished h rfl (.inl rfl) (State.not_unserved nofun)
        (State.hasRoom_of_ne hr) h0 rfl (if_pos hl))
    case spec =>
      intro c q h
      refine ⟨fun ho hn => congrArg Host.Outcome.next ?elsewhere, ?here⟩
      case elsewhere =>
        rw [State.homeSend_of_sent (f := f) h rfl (.inl rfl)]
        have hu : v.homeAccept q f = v := if_pos (by rw [ho]; rfl)
        rw [hu]
        exact State.serveQueue_of_none hn
      case here =>
        intro ho hr u hf e w m
        have h0 : v.snoopsFor q = 0 := by
          unfold State.snoopsFor
          cases mapGet? v.coh.dir q.line <;> rfl
        have hw : (openedFor v q).homeServe q f (fun s => s.grantSpec q (clusterOf c.val)) = _ := State.homeServe_of_good hf
        exact congrArg Host.Outcome.next (State.homeSend_finished h rfl (.inl rfl) (fun e => Bool.false_ne_true (ho.symm.trans e.2))
          (State.hasRoom_of_ne hr) h0 rfl (hw.trans (State.grantSpec_of_core ..)))
  case own =>
    intro s c line rt k t
    obtain ⟨hm, h2, hd⟩ := s.grantOwn_alone c line rt k
    refine ⟨hm, h2, fun d h64 hne => ?_⟩
    obtain ⟨hd1, hi1, hs1, hr1⟩ := hd d h64 hne
    exact ⟨hd1, by simpa using hi1, by simpa using hs1, hr1⟩
  case other =>
    intro s v cl c addr rt f i q line hrow
    obtain ⟨hexec, hline, hrt, hqueued, hatomic, hspec, hentry, hway, hretried⟩ := plainReq_row (q := q) hrow s
    rw [hexec]
    refine ⟨fun h => congrArg Host.Outcome.next (State.homeSend_of_held h), fun ht hd hb => congrArg Host.Outcome.next ?wait,
      fun h hn hr => congrArg Host.Outcome.next ?retry, fun h hr hn => congrArg Host.Outcome.next ?snoop⟩
    case wait => exact State.homeSend_of_blocked ht (by rw [hline]; exact hd) (by rw [hline]; exact hb) hqueued hatomic
    case retry =>
      rw [State.homeSend_of_sent h hqueued (.inl hatomic),
        State.homeAccept_of_full (State.not_unserved hspec) hentry (by rw [hline, hrt, hway]; exact hr)]
      refine (State.serveQueue_of_none (s := v.answerRetry q) (by rw [hline]; exact hn)).trans ?_
      unfold State.answerRetry
      rw [hretried]
    case snoop =>
      rw [State.homeSend_of_sent h hqueued (.inl hatomic),
        State.homeAccept_of_room (State.not_unserved hspec) (State.hasRoom_of_ne (by rw [hline, hrt, hway]; exact hr)),
        State.txFinish_of_snoops (State.opened_setTx ..) hn, State.serveQueue_of_blocked (State.blocked_setTx ..)]
      have hu : v.withEntry q = if mapGet? v.coh.dir line = none then v.dirPut line rt none false 0 else v := by
        unfold State.withEntry
        rw [hentry, hline, hrt, hway]
        exact ite_of_iff ⟨And.right, And.intro rfl⟩ rfl rfl
      rw [hu, hline, bne_iff_ne.mpr hn]

end Sys2Proof.Machine
end

section
/-! The further steps of home transactions (11.5-11.7): what a closing transaction leaves of the queues, write-backs and evictions, the
answers to snoops, and the agents without a cache. -/

namespace Sys2Proof.Machine

variable {s t u v : State} {q : HomeReq} {f : MemFault} {cl line : Nat}

/-! ### What leaves the queues of the homes alone -/

/-- The open transactions and the waiting requests are those of `s`. -/
structure QueuesKept (s t : State) : Prop where
  opened  : t.coh.opened = s.coh.opened
  waiting : t.coh.waiting = s.coh.waiting

theorem State.dropAt_coh (s : State) (cl line : Nat) : (s.dropAt cl line).coh = (s.l2Drop cl line).coh :=
  State.each_modCore_coh _ (fun d => d) _ _

theorem State.dropAt_queues (s : State) (cl line : Nat) : QueuesKept s (s.dropAt cl line) := ⟨by rw [State.dropAt_coh]; rfl, by
  rw [State.dropAt_coh]; rfl⟩

theorem State.dirMod_queues (s : State) (line : Nat) (f : DirEntry → DirEntry) : QueuesKept s (s.dirMod line f) := by
  unfold State.dirMod
  split
  · exact ⟨rfl, rfl⟩
  · dsimp only; split <;> exact ⟨rfl, rfl⟩

theorem State.mendLine_queues (s : State) (line : Nat) : QueuesKept s (s.mendLine line) := by
  unfold State.mendLine
  split <;> exact ⟨rfl, rfl⟩

theorem State.toL3_queues (s : State) (line : Nat) (d : Bool) : QueuesKept s (s.toL3 line d) := by
  unfold State.toL3
  dsimp only
  split
  · exact ⟨(State.mendLine_queues _ _).opened, (State.mendLine_queues _ _).waiting⟩
  · exact ⟨rfl, rfl⟩

theorem State.transDone_coh (s : State) (r : Nat) : (s.transDone r).coh = s.coh := by
  unfold State.transDone
  split <;> rfl

/-- A transaction that closes leaves the waiting requests. -/
theorem State.txClose_waiting (s : State) (line : Nat) : (s.txClose line).coh.waiting = s.coh.waiting := by
  unfold State.txClose
  split
  · rfl
  · next t _ =>
    have h : (((s.setTx line none).dirMod line id).transDone t.req.requester).coh.waiting = s.coh.waiting := by
      rw [State.transDone_coh, (State.dirMod_queues _ _ _).waiting]
      rfl
    dsimp only
    split
    · exact h
    · split <;> exact h

theorem State.transTake_coh {r n : Nat} {b : Bool} (h : s.transTake r n = (b, v)) : v.coh = s.coh := by
  have hcoh : (s.transTake r n).2.coh = s.coh := by
    unfold State.transTake
    split
    · rfl
    split
    · rfl
    split <;> rfl
  rw [h] at hcoh
  exact hcoh

theorem State.blocked_of_opened (h : t.coh.opened = s.coh.opened) (line : Nat) : t.blocked line = s.blocked line := by
  unfold State.blocked; rw [h]

/-! ### Write-backs and evictions -/

theorem State.snoopsFor_of_kind (v : State) (h : q.kind = .writeBack ∨ q.kind = .evict ∨ q.kind = .readSpec) : v.snoopsFor q = 0 := by
  unfold State.snoopsFor
  cases mapGet? v.coh.dir q.line with
  | none => rfl
  | some e => rcases h with h | h | h <;> rw [h]

/-- A request that arrives at a home, closes of itself and leaves the queues: its work, and the end of its transaction. -/
theorem State.homeArrive_closed (hd : targetOf (64 * q.line) = .gddr) (hb : v.blocked q.line = false) (hq : q.queued = false)
    (ha : q.kind.isAtomic = false) (hs : q.kind ≠ .readSpec) (hn : q.kind.needsEntry = false) (h0 : v.snoopsFor q = 0)
    (hc : q.kind.closesItself = true) (hw : (openedFor v q).homeWork q false f = t) :
    v.homeArrive q f = (t.txClose q.line).serveQueue q.line := by
  rw [State.homeArrive_of_free hd hb hq (.inl ha), State.homeAccept_of_quiet (State.not_unserved hs)
    (fun h => absurd (hn.symm.trans h) Bool.false_ne_true) h0, State.txFinish_openedFor, if_pos hc, hw]

theorem openedFor_of_none (v : State) (h : q.kind.needsEntry = false) :
    openedFor v q = v.setTx q.line (some { req := q, way := wayAt v q.line }) := by
  unfold openedFor
  rw [if_neg fun e => Bool.false_ne_true (h.symm.trans e.1)]

/-- Once its work is done and the queue of its line is empty, nothing follows the end of a transaction. -/
theorem State.txClose_serveQueue (hw : t.coh.waiting = v.coh.waiting) (hn : ∀ w, w ∈ v.coh.waiting → w.line ≠ line) :
    (t.txClose line).serveQueue line = t.txClose line :=
  State.serveQueue_of_none (by rw [State.txClose_waiting, hw]; exact hn)

theorem State.writeBack_of_dirty {addr : Nat} (ht : s.transTake (clusterReqNo cl) 1 = (true, v)) (hd : targetOf (64 * (addr / 64)) = .gddr)
    (hb : v.blocked (addr / 64) = false) (hn : ∀ w, w ∈ v.coh.waiting → w.line ≠ addr / 64) (hwb : s.wbPendingAt cl (addr / 64) = false)
    (hst : s.l2State cl (addr / 64) = some .m) :
    let line := addr / 64
    let u := (v.dropAt cl line).setWb cl line true
    let w := u.setTx line (some { req := clusterReq .writeBack cl line false, way := wayAt u line })
    s.writeBack cl addr = (((w.setWb cl line false).toL3 line true).clearPresence cl line).txClose line := by
  intro line u w
  have hu : QueuesKept v u := ⟨(v.dropAt_queues cl line).opened, (v.dropAt_queues cl line).waiting⟩
  have hopen : mapGet? u.coh.opened line = none := by rw [hu.opened]; exact State.not_opened hb
  have hwait : (((w.setWb cl line false).toL3 line true).clearPresence cl line).coh.waiting = v.coh.waiting :=
    ((State.dirMod_queues _ _ _).waiting.trans (State.toL3_queues _ _ _).waiting).trans hu.waiting
  have harr : u.homeArrive (clusterReq .writeBack cl line false) .none =
      ((((w.setWb cl line false).toL3 line true).clearPresence cl line).txClose line).serveQueue line :=
    State.homeArrive_closed hd ((State.blocked_of_opened hu.opened line).trans hb) rfl rfl nofun rfl (State.snoopsFor_of_kind _ (.inl rfl)) rfl
      (by rw [openedFor_of_none _ rfl]; rfl)
  unfold State.writeBack
  dsimp only
  rw [hwb, if_neg (by decide), hst, if_neg (by decide), ht]
  dsimp only
  rw [hopen]
  exact harr.trans (State.txClose_serveQueue hwait hn)

theorem State.evictLine_of_clean {addr : Nat} (ht : s.transTake (clusterReqNo cl) 1 = (true, v)) (hd : targetOf (64 * (addr / 64)) = .gddr)
    (hb : v.blocked (addr / 64) = false) (hn : ∀ w, w ∈ v.coh.waiting → w.line ≠ addr / 64)
    (hst : s.l2State cl (addr / 64) = some .e ∨ s.l2State cl (addr / 64) = some .s) :
    let line := addr / 64
    let u := v.dropAt cl line
    let w := u.setTx line (some { req := clusterReq .evict cl line false, way := wayAt u line })
    s.evictLine cl addr = ((w.toL3 line false).clearPresence cl line).txClose line := by
  intro line u w
  have hu : QueuesKept v u := v.dropAt_queues cl line
  have hwait : ((w.toL3 line false).clearPresence cl line).coh.waiting = v.coh.waiting :=
    ((State.dirMod_queues _ _ _).waiting.trans (State.toL3_queues _ _ _).waiting).trans hu.waiting
  have harr : u.homeArrive (clusterReq .evict cl line false) .none =
      (((w.toL3 line false).clearPresence cl line).txClose line).serveQueue line :=
    State.homeArrive_closed hd ((State.blocked_of_opened hu.opened line).trans hb) rfl rfl nofun rfl
      (State.snoopsFor_of_kind _ (.inr (.inl rfl))) rfl (by rw [openedFor_of_none _ rfl]; rfl)
  have hgo := harr.trans (State.txClose_serveQueue hwait hn)
  unfold State.evictLine
  dsimp only
  rw [ht]
  rcases hst with hst | hst <;> rw [hst] <;> exact hgo

/-! ### Snoops, acknowledgements and retries -/

/-- A snooped cluster that holds the line's data gives it to L3 (R382). -/
def State.snoopData (s : State) (cl line : Nat) : State := if s.l2State cl line = some .m then s.toL3 line true else s

/-- What a cluster does with its copies for a snoop of a request, once its data is in L3 as `u` has it. -/
def State.snoopKept (s u : State) (cl line : Nat) : ReqKind → State
  | .readCurrent => u
  | .readShared _ =>
    if (s.l2State cl line).isSome || u.specHeld cl line then (u.setL2 cl line .s).dirMod line fun e => { e with unique := false }
    else u.clearPresence cl line
  | _ => (u.dropAt cl line).clearPresence cl line

section
variable {addr : Nat} {x : OpenTx} (ho : mapGet? s.coh.opened (addr / 64) = some x) (hbit : bitOf x.snoops cl = true)
  (hwb : s.wbPendingAt cl (addr / 64) = false)
include ho hbit hwb

/-- The answer of a cluster is counted, and the last one lets the home do its work. -/
theorem State.snoop_eq : s.snoop cl addr false =
    (((s.snoopKept (s.snoopData cl (addr / 64)) cl (addr / 64) x.req.kind).setTx (addr / 64)
      (some { x with snoops := setBits x.snoops cl cl 0 })).txFinish (addr / 64) .none).serveQueue (addr / 64) := by
  have hdata : s.iff (s.l2State cl (addr / 64) == some .m) (·.toL3 (addr / 64) true) = s.snoopData cl (addr / 64) :=
    ite_of_iff beq_iff_eq rfl rfl
  unfold State.snoop
  dsimp only
  rw [ho]
  dsimp only
  rw [hbit, hwb, hdata]
  rfl

theorem State.snoop_of_evicting (hst : s.l2State cl (addr / 64) = some .m) : s.snoop cl addr true =
    ((s.dropAt cl (addr / 64)).setWb cl (addr / 64) true).setTx (addr / 64)
      (some { x with snoops := setBits x.snoops cl cl 0, dif := some cl }) := by
  unfold State.snoop
  dsimp only
  rw [ho]
  dsimp only
  rw [hbit, hwb, hst]
  rfl

end

/-- The kinds of request whose snoops take the line away (R382, R388, R391). -/
theorem State.snoopKept_of_invalidating (s u : State) (cl line : Nat) {k : ReqKind}
    (h : k = .readUnique ∨ k = .upgrade ∨ k = .writeInv ∨ k = .atomicFar) :
    s.snoopKept u cl line k = (u.dropAt cl line).clearPresence cl line := by
  rcases h with rfl | rfl | rfl | rfl <;> rfl

theorem State.snoopKept_of_shared (u : State) (h : (s.l2State cl line).isSome = true) (fetch : Bool) :
    s.snoopKept u cl line (.readShared fetch) = (u.setL2 cl line .s).dirMod line fun e => { e with unique := false } :=
  if_pos (by rw [h]; rfl)

theorem State.completionAck_of_opened {addr : Nat} {x : OpenTx} (ho : mapGet? s.coh.opened (addr / 64) = some x) :
    s.completionAck addr = if x.finished then (s.txClose (addr / 64)).serveQueue (addr / 64) else s := by
  unfold State.completionAck
  dsimp only
  rw [ho]

section
variable {addr : Nat} (hq : s.coh.retry.find? (fun q => !q.own && q.line == addr / 64 && q.cluster == some cl) = some q)
include hq

theorem State.reissue_of_room (hr : q.reserved = false ∨ q.way.isSome = true ∨ s.dirRoom q.line q.rt none ≠ .full)
    (ht : s.transTake q.requester 1 = (true, v)) :
    s.reissue cl addr = (v.modCoh fun x => { x with retry := x.retry.erase q }).homeArrive q .none := by
  unfold State.reissue
  rw [hq]
  dsimp only
  rw [if_neg, ht]
  simp only [Bool.and_eq_true, beq_iff_eq, not_and]
  rintro ⟨hres, hway⟩ hfull
  rcases hr with h | h | h
  · exact Bool.false_ne_true (h.symm.trans hres)
  · rw [Option.isNone_iff_eq_none.mp hway] at h
    exact Bool.false_ne_true h
  · exact h hfull

theorem State.reissue_of_full (hres : q.reserved = true) (hway : q.way = none) (hr : s.dirRoom q.line q.rt none = .full) :
    s.reissue cl addr = s := by
  unfold State.reissue
  rw [hq]
  dsimp only
  rw [if_pos]
  rw [hres, hway, hr]
  rfl

end

/-! ### Agents without a cache -/

theorem reqNo_lt (r : Requester) : reqNo r < hawserReq := by
  unfold hawserReq
  cases r with
  | core c => exact Nat.lt_trans c.isLt (by decide)
  | dma e ch =>
    show 64 + 16 * e.val + ch.val < 1000
    omega
  | host => decide
  | heartwood => decide

theorem State.answerTo_unit (s : State) (r : Response) (h : q.who < hawserReq) : s.answerTo q r = s.answer r := if_pos h

theorem linesOf_within {a n : Nat} (hn : n ≠ 0) (h : a % 64 + n ≤ 64) : linesOf a n = [a / 64] := by
  have hlast : (a + n - 1) / 64 - a / 64 + 1 = 1 := by omega
  unfold linesOf
  rw [if_neg (by simpa using hn), hlast]
  rfl

theorem covers_within {a n : Nat} (h : a % 64 + n ≤ 64) : covers a n (a / 64) = decide (n = 64) := by
  unfold covers
  rw [← Bool.decide_and]
  exact decide_eq_decide.mpr (by omega)

theorem State.homeWork_readCurrent (hk : q.kind = .readCurrent) (hwho : q.who < hawserReq) (hf : (readBy s q f).fails q.line = false) :
    s.homeWork q false f = (readBy s q f).answer
      (if q.size ≤ 8 then .data (BitVec.ofNat 64 (leNat ((readBy s q f).rdB q.addr q.size))) else .bytes ((readBy s q f).rdB q.addr q.size)) := by
  unfold State.homeWork
  rw [hk]
  dsimp only
  rw [State.homeRead_of_good hf, State.answerTo_unit _ _ hwho, if_neg (Bool.not_eq_true _ ▸ hf)]

/-- The line that an invalidating write meets: read and checked, unless it is written whole. -/
def State.writeRead (s : State) (line n : Nat) (f : MemFault) : State := if n = 64 then s else s.memFault none (64 * line) f

theorem State.unitWrite_within {a : Nat} {bs : List Byte} (rt : Bool) (hn : bs ≠ []) (hl : a % 64 + bs.length ≤ 64)
    (hf : bs.length = 64 ∨ s.fails (a / 64) = false) :
    s.unitWrite a bs rt = (true, ((linesOf a bs.length).foldl (fun w l => w.rtWrite l rt) s).invalidatingWrite a bs) := by
  have hnone : ((linesOf a bs.length).find? fun l => s.fails l && !covers a bs.length l) = none := by
    rw [linesOf_within (mt List.length_eq_zero_iff.mp hn) hl, List.find?_eq_none]
    intro l hmem
    rw [List.mem_singleton.mp hmem, covers_within hl]
    rcases hf with h | h <;> rw [h]
    · simp
    · exact Bool.false_ne_true
  unfold State.unitWrite
  rw [hnone]
  rfl

theorem State.homeWork_writeInv (hk : q.kind = .writeInv) (hwho : q.who < hawserReq) (hline : q.line = q.addr / 64) (hn : q.bytes ≠ [])
    (hl : q.addr % 64 + q.bytes.length ≤ 64) (hf : q.bytes.length = 64 ∨ (s.writeRead q.line q.bytes.length f).fails q.line = false) :
    s.homeWork q false f = (((linesOf q.addr q.bytes.length).foldl (fun w l => w.rtWrite l q.rt) (s.writeRead q.line q.bytes.length
      f)).invalidatingWrite q.addr q.bytes).answer .ok := by
  have hread : s.iff (!covers q.addr q.bytes.length q.line) (·.memFault none (64 * q.line) f) = s.writeRead q.line q.bytes.length f := by
    unfold State.iff State.writeRead
    rw [hline, covers_within hl]
    by_cases h : q.bytes.length = 64 <;> simp [h]
  unfold State.homeWork
  rw [hk]
  dsimp only
  rw [hread, State.unitWrite_within q.rt hn hl (by rw [← hline]; exact hf)]
  exact State.answerTo_unit _ _ hwho

/-! ### Far atomics -/

theorem find?_of_unique {α : Type} {p : α → Bool} {l : List α} {x : α} (hx : x ∈ l) (hp : p x = true) (hu : ∀ y, p y = true → y = x) :
    l.find? p = some x := by
  cases h : l.find? p with
  | none => exact absurd hp (List.find?_eq_none.mp h x hx)
  | some y => exact congrArg some (hu y (List.find?_some h))

section
variable {c : CoreId} {a : FarAtomic}

theorem State.atomicFar_of_alone {addr : Nat} (hfar : (s.core c.val).far = some a) (ha : a.addr / 64 = addr / 64)
    (hlist : c.val ∈ s.coreList) (halone : ∀ d, d ≠ c.val → (s.core d).far = none) (hw : s.coh.waiting = []) (hr : s.coh.retry = [])
    (ho : s.coh.opened = []) (hcl : cl = clusterOf c.val) :
    s.atomicFar cl addr f = s.homeSend (coreReq .atomicFar c.val (addr / 64) a.rt) f := by
  unfold State.atomicFar
  dsimp only
  rw [hw, hr, ho, find?_of_unique hlist]
  · dsimp only
    rw [hfar]
  · rw [hfar, hcl]
    simp [ha]
  · intro d hd
    refine Classical.byContradiction fun hne => ?_
    rw [halone d hne] at hd
    simp at hd

theorem State.farPerform_of_running (hcore : q.core = c.val) (hline : a.addr / 64 = q.line) (hq : q.queued = false)
    (hfar : (s.core c.val).far = some a) (hid : (s.core c.val).ctxId.isSome = true) (hruns : s.runs c.val = true) :
    s.farPerform q false = (((((s.dropOthers q.line none).toL3 q.line true).modCore c.val fun k => { k with far := none }).contendStep c.val a.addr
      false).amoPerform c.val a.addr (if rvF3 a.insn = 2 then 4 else 8) a.insn a.len [0x10]).settle := by
  have hof : s.farOf q = some a := by
    unfold State.farOf
    rw [hcore, hfar]
    exact if_pos (beq_iff_eq.mpr hline)
  unfold State.farPerform
  rw [hof]
  dsimp only
  rw [hcore, hruns, hq, if_neg, if_neg]
  · simp only [beq_iff_eq]
    rfl
  · decide
  · rw [Option.isSome_iff_ne_none] at hid
    simpa using hid

end

/-- Settles O41: each step of a transaction at the case that the statement names, and the accesses of the agents without a cache as requests
that are served at once. -/
theorem transactionSteps : Obligations.TransactionSteps := by
  unfold Obligations.TransactionSteps
  refine ⟨⟨?leave, ?snoop, ?ack, ?reissue⟩, ?read, ?write, ?far⟩
  case leave =>
    exact fun s v cl addr ht hd hb hn hwb =>
      ⟨fun hst => congrArg Host.Outcome.next (State.writeBack_of_dirty ht hd hb hn hwb hst),
        fun hst => congrArg Host.Outcome.next (State.evictLine_of_clean ht hd hb hn hst)⟩
  case snoop =>
    intro s cl addr x line ho hbit hwb st u t'
    have hgo {w : State} (hw : s.snoopKept u cl.val line x.req.kind = w) :
        exec (.snoopReceived cl addr false) s = .next (((w.setTx line (some t')).txFinish line .none).serveQueue line) :=
      congrArg Host.Outcome.next ((State.snoop_eq ho hbit hwb).trans (by rw [← hw]; rfl))
    exact ⟨fun hk => hgo (State.snoopKept_of_invalidating _ _ _ _ hk),
      fun fetch hk hst => hgo (by rw [hk]; exact State.snoopKept_of_shared u hst fetch), fun hk => hgo (by rw [hk]; rfl),
      fun hst => congrArg Host.Outcome.next (State.snoop_of_evicting ho hbit hwb hst)⟩
  case ack =>
    exact fun s addr x ho => ⟨fun hf => congrArg Host.Outcome.next ((State.completionAck_of_opened ho).trans (if_pos hf)),
      fun hf => congrArg Host.Outcome.next ((State.completionAck_of_opened ho).trans (if_neg (Bool.not_eq_true _ ▸ hf)))⟩
  case reissue =>
    exact fun s v cl addr q hq => ⟨fun hr ht => congrArg Host.Outcome.next (State.reissue_of_room hq hr ht),
      fun hres hway hr => congrArg Host.Outcome.next (State.reissue_of_full hq hres hway hr)⟩
  case read =>
    intro s v r addr n rt f line hn hl hreach q h h0 u hf bs
    have hsend := State.homeSend_finished h rfl (.inl rfl) (State.not_unserved nofun) nofun h0 rfl
      (State.homeWork_readCurrent (q := q) rfl (reqNo_lt r) hf)
    refine congrArg Host.Outcome.next (Eq.trans ?_ hsend)
    unfold State.readCurrent
    rw [if_neg, if_neg]
    · rw [hreach]; decide
    · simpa using ⟨hn, hl⟩
  case write =>
    intro s v r addr bs rt f line hn hl hreach q h h0 u hf
    have hwork := State.homeWork_writeInv (s := openedFor v q) (q := q) (f := f) rfl (reqNo_lt r) rfl hn hl
      (hf.elim .inl fun h => .inr h)
    have hsend : (s.fwUsed r).homeSend q f = ((((((linesOf addr.toNat bs.length).foldl (fun w l => w.rtWrite l rt) u).invalidatingWrite
        addr.toNat bs).answer .ok).txClose line).serveQueue line) := by
      have hserved : ¬ v.unserved q := State.not_unserved (q := q) (nofun : ReqKind.writeInv ≠ .readSpec)
      have hroom : v.hasRoom q := (nofun : false = true → _)
      have hcloses : q.kind.closesItself = true := rfl
      rw [State.homeSend_of_sent h rfl (.inl rfl), State.homeAccept_of_quiet hserved hroom h0, State.txFinish_openedFor, if_pos hcloses, hwork]
      rfl
    refine congrArg Host.Outcome.next (Eq.trans ?_ hsend)
    unfold State.writeInv
    rw [if_neg, if_neg]
    · rw [hreach]; decide
    · simpa using ⟨hn, hl⟩
  case far =>
    intro s v c addr f a line hfar ha hlist halone hw hr ho q h hroom h0 u hf hfar' hid hruns w cl hcl
    have hwait : v.coh.waiting = [] := by rw [State.transTake_coh h.1]; exact hw
    have hwork : (openedFor v q).homeWork q false f = _ :=
      (congrArg (fun z : State => if z.fails q.line then z.farFail q else z.farPerform q false) (State.homeRead_of_good (q := q) hf)).trans
        ((if_neg (Bool.not_eq_true _ ▸ hf)).trans (State.farPerform_of_running (q := q) rfl ha rfl hfar' hid hruns))
    exact congrArg Host.Outcome.next ((State.atomicFar_of_alone hfar ha hlist halone hw hr ho hcl).trans
      (State.homeSend_finished h rfl (.inr hwait) (State.not_unserved nofun) (State.hasRoom_of_ne hroom) h0 rfl hwork))

end Sys2Proof.Machine
end

section
/-! The service of the memories (11.3, 11.8, 11.9). -/

namespace Sys2Proof.Machine

variable {s : State}

theorem State.patrolEnd_of_clean (h : s.coh.failed = []) :
    s.patrolEnd [] = ((List.range 9).foldl (fun u d => u.set (Fd.HWD_MEM_DEV_CE.COUNT d) 0) s).inc Fd.HWD_MEM_PATROL.PASSES := by
  unfold State.patrolEnd State.each
  dsimp only [List.foldl_nil]
  rw [h]
  rfl

theorem State.memBell_eq (u : State) : u.memBell = if u.get Fd.HWD_MEM_CFG.IRQ_EN = 0 then u else u.pulse (u.get Fd.HWD_MEM_CFG.IRQ_SRC) :=
  u.ite_on ..

theorem State.rebuildEnd_of_some {dev : Nat} (h : s.coh.rebuild = some dev) :
    s.rebuildEnd = ((((s.set Fd.HWD_MEM_STAT.SPARING 0).set Fd.HWD_MEM_STAT.SPARED 1).set Fd.HWD_MEM_STAT.SPARED_DEV dev).modCoh fun c =>
      { c with rebuild := none }).memBell := by
  unfold State.rebuildEnd
  rw [h]
  rfl

theorem State.bankAwake_of_waking (b : Nat) (h : s.coh.waking.contains (36 + b) = true) :
    s.bankAwake (36 + b) = (s.set Fd.PWR_RET.BANKS (setBits (s.get Fd.PWR_RET.BANKS) b b 0)).modCoh fun c => { c with
      waking := c.waking.filter (· != 36 + b) } := by
  unfold State.bankAwake
  rw [h, Nat.add_sub_cancel_left]
  rfl

/-- The wipe of the sealed bank takes its bytes and no other. -/
theorem State.sealedWiped_after (h : s.coh.wiping = true) :
    (∀ a, s.sealedWiped.byte a = if sealedBase ≤ a ∧ a < sramBase + sramSize then 0 else s.byte a) ∧ s.sealedWiped.coh.wiping = false ∧
      s.sealedWiped.cores = s.cores ∧ s.sealedWiped.groves = s.groves := by
  have hmem : s.sealedWiped.mem = (s.clearMem sealedBase (sramBase + sramSize)).mem ∧ s.sealedWiped.coh.wiping = false ∧
      s.sealedWiped.cores = s.cores ∧ s.sealedWiped.groves = s.groves := by
    unfold State.sealedWiped
    rw [h, if_neg (by decide)]
    dsimp only
    exact ⟨(State.modCoh_mem ..).trans (State.set_mem ..), rfl, (State.modCoh_cores ..).trans ((State.set_cores ..).trans (State.clearMem_cores ..)),
      (State.modCoh_groves ..).trans ((State.set_groves ..).trans (State.clearMem_groves ..))⟩
  obtain ⟨hmem, hrest⟩ := hmem
  refine ⟨fun a => ?_, hrest⟩
  rw [State.byte_of_mem _ hmem]
  split
  · next ha => exact s.byte_clearMem_in ha.1 ha.2
  · next ha => exact s.byte_clearMem_out (by omega)

/-! ### The clear of the counters -/

/-- The counters of whole registers that `HWD_MEM_CTL.CNT_CLR` clears. -/
def memCounterRegs : List Nat :=
  [Rg.HWD_MEM_CE_CNT, Rg.HWD_MEM_UE_CNT, Rg.HWD_MEM_MAC_CNT, Rg.HWD_MEM_SRAM_CE_CNT, Rg.HWD_MEM_SRAM_UE_CNT, Rg.HWD_MEM_STORE_LOST_CNT]

/-- The counters per device and per grove that it clears with them. -/
def memCounters : List Fld := (List.range 9).map Fd.HWD_MEM_DEV_CE.COUNT ++ (List.range 64).map Fd.HWD_MEM_RT_OVER.COUNT

theorem State.memCntClr_eq (s : State) :
    s.memCntClr = (s.each memCounterRegs fun s a => s.setReg a 0).each memCounters fun s f => s.lower f := by
  unfold State.memCntClr memCounters State.each
  rw [List.foldl_append, List.foldl_map, List.foldl_map]
  rfl

theorem mem_memCounters {f : Fld} : f ∈ memCounters ↔
    (∃ k, k < 9 ∧ Fd.HWD_MEM_DEV_CE.COUNT k = f) ∨ ∃ g, g < 64 ∧ Fd.HWD_MEM_RT_OVER.COUNT g = f := by
  simp [memCounters]

theorem memCounters_apart : ∀ f ∈ memCounters, ∀ h ∈ memCounters, f.off ≠ h.off ∨ f = h := by
  intro f hf h hh
  rcases mem_memCounters.mp hf with ⟨k, hk, rfl⟩ | ⟨k, hk, rfl⟩ <;> rcases mem_memCounters.mp hh with ⟨j, hj, rfl⟩ | ⟨j, hj, rfl⟩ <;>
    by_cases e : k = j <;>
    simp only [e, or_true, Fd.HWD_MEM_DEV_CE.COUNT, Fd.HWD_MEM_RT_OVER.COUNT, Rg.HWD_MEM_DEV_CE, Rg.HWD_MEM_RT_OVER] <;> left <;> omega

theorem memCounters_off {f : Fld} (hf : f ∈ memCounters) {i : Nat} (hi : i ∈ memCounterRegs) : f.off ≠ i := by
  have hlow : i ≤ Rg.HWD_MEM_STORE_LOST_CNT := (by decide : ∀ i ∈ memCounterRegs, i ≤ Rg.HWD_MEM_STORE_LOST_CNT) i hi
  unfold Rg.HWD_MEM_STORE_LOST_CNT at hlow
  rcases mem_memCounters.mp hf with ⟨k, hk, rfl⟩ | ⟨k, hk, rfl⟩
  · simp only [Fd.HWD_MEM_DEV_CE.COUNT, Rg.HWD_MEM_DEV_CE]; omega
  · simp only [Fd.HWD_MEM_RT_OVER.COUNT, Rg.HWD_MEM_RT_OVER]; omega

theorem State.reg_each_lower_ne (s : State) (l : List Fld) {i : Nat} (h : ∀ f ∈ l, f.off ≠ i) :
    (s.each l fun s f => s.lower f).reg i = s.reg i := by
  unfold State.each
  induction l generalizing s with
  | nil => rfl
  | cons f l ih =>
    obtain ⟨hf, hl⟩ := List.forall_mem_cons.mp h
    exact (ih (s.lower f) hl).trans (s.reg_set_ne 0 hf)

theorem State.each_lower_cores (s : State) (l : List Fld) : (s.each l fun s f => s.lower f).cores = s.cores := by
  unfold State.each
  induction l generalizing s with
  | nil => rfl
  | cons f l ih => exact ih (s.lower f)

theorem State.each_setReg_rest (s : State) (l : List Nat) (v : Nat) :
    (s.each l fun s a => s.setReg a v).mem = s.mem ∧ (s.each l fun s a => s.setReg a v).cores = s.cores := by
  unfold State.each
  induction l generalizing s with
  | nil => exact ⟨rfl, rfl⟩
  | cons a l ih => exact ih (s.setReg a v)

theorem State.memCntClr_after (s : State) :
    (∀ i ∈ memCounterRegs, s.memCntClr.reg i = 0) ∧ (∀ f ∈ memCounters, s.memCntClr.get f = 0) ∧ s.memCntClr.mem = s.mem ∧
      s.memCntClr.cores = s.cores := by
  have hrange : ∀ f ∈ memCounters, f.hi < 64 ∧ f.lo ≤ f.hi + 1 := by
    intro f hf
    rcases mem_memCounters.mp hf with ⟨k, _, rfl⟩ | ⟨k, _, rfl⟩ <;> exact ⟨of_decide_eq_true rfl, of_decide_eq_true rfl⟩
  obtain ⟨hmem, hcores⟩ := s.each_setReg_rest memCounterRegs 0
  have hzero (i : Nat) (hi : i ∈ memCounterRegs) : (s.each memCounterRegs fun s a => s.setReg a 0).reg i = 0 := by
    have e := s.reg_each_setReg memCounterRegs (fun a => a) 0 i
    rw [List.map_id', if_pos hi] at e
    exact e
  rw [State.memCntClr_eq]
  refine ⟨fun i hi => (State.reg_each_lower_ne _ _ fun f hf => memCounters_off hf hi).trans (hzero i hi),
    (State.each_lower_get _ memCounters hrange memCounters_apart).1, ((State.each_lower_rest _ _).1).trans hmem,
    (State.each_lower_cores _ _).trans hcores⟩

/-- Settles O42: each event at the case that the statement names; the wipe and the clear by what they leave of every byte and counter. -/
theorem memoryService : Obligations.MemoryService := by
  unfold Obligations.MemoryService
  intro s
  refine ⟨rfl, fun h => congrArg Host.Outcome.next (State.patrolEnd_of_clean h),
    fun dev h => congrArg Host.Outcome.next ((State.rebuildEnd_of_some h).trans (State.memBell_eq _)),
    fun b h => congrArg Host.Outcome.next (State.bankAwake_of_waking b.val h), fun h => ⟨s.sealedWiped, rfl, State.sealedWiped_after h⟩,
    fun r ha hE => answers_of_admitted ha rfl ?clear⟩
  case clear =>
    have hclr : (accepted s r).iff ((accepted s r).isE r) (·.memCntClr) = (accepted s r).memCntClr := if_pos hE
    obtain ⟨hregs, hflds, hmem, hcores⟩ := (accepted s r).memCntClr_after
    rw [hclr]
    refine ⟨hregs, fun k hk => hflds _ (mem_memCounters.mpr (.inl ⟨k, hk, rfl⟩)), fun g hg => hflds _ (mem_memCounters.mpr (.inr ⟨g, hg, rfl⟩)),
      hmem.trans (by simp [accepted]), hcores.trans (by simp [accepted])⟩

end Sys2Proof.Machine
end

section
/-! The Interrupt Router's writes (12.1, 12.3, 12.4): doorbells, banks, claims, ends of interrupt and delivery mode. -/

namespace Sys2Proof.Machine

variable {s u : State} {w : Writer} {src op why : Nat}

/-! ### Doorbells -/

theorem State.ring_of_admitted (hop : op ≠ 3) (h : s.dropReason w src op = none) : s.ring w src op = s.signalSource src op := by
  unfold State.ring
  rw [if_neg (mt beq_iff_eq.mp hop), h]

theorem State.ring_of_known_drop (hop : op ≠ 3) (h : s.dropReason w src op = some why) (hd : s.get Fd.IRQ_STAT.DROP = 1) :
    s.ring w src op = s.recordDrop w src op why := by
  unfold State.ring
  rw [if_neg (mt beq_iff_eq.mp hop), h]
  dsimp only
  rw [if_pos]
  rw [(s.on_eq_true_iff Fd.IRQ_STAT.DROP).mpr (by rw [hd]; decide), Bool.true_or]

theorem State.dropReason_lt (h : s.dropReason w src op = some why) : why < 2 := by
  unfold State.dropReason at h
  split at h
  · cases h; decide
  split at h
  · cases h; decide
  · cases h

/-! #### The fields of a source under ASSERT and DEASSERT -/

theorem State.get_lvl_setIf (s : State) (b : Bool) (v : Nat) :
    (s.setIf b (Fd.IRQ_SRC_CFG.PENDING src) v).get (Fd.IRQ_SRC_CFG.LVL src) = s.get (Fd.IRQ_SRC_CFG.LVL src) := by
  unfold State.setIf
  split
  · exact s.get_set_above v rfl (of_decide_eq_true rfl) (of_decide_eq_true rfl) (of_decide_eq_true rfl)
  · rfl

theorem State.get_lvl_set (s : State) (v : Nat) : (s.set (Fd.IRQ_SRC_CFG.LVL src) v).get (Fd.IRQ_SRC_CFG.LVL src) = v % 2 :=
  s.get_set (Fd.IRQ_SRC_CFG.LVL src) v (of_decide_eq_true rfl) (of_decide_eq_true rfl)

theorem State.get_pending_of_lvl (s : State) (v : Nat) :
    (s.set (Fd.IRQ_SRC_CFG.LVL src) v).get (Fd.IRQ_SRC_CFG.PENDING src) = s.get (Fd.IRQ_SRC_CFG.PENDING src) :=
  s.get_set_below v rfl (of_decide_eq_true rfl) (of_decide_eq_true rfl) (of_decide_eq_true rfl) (of_decide_eq_true rfl)

theorem State.get_pending_setIf (s : State) (b : Bool) {v : Nat} (hv : v < 2) :
    (s.setIf b (Fd.IRQ_SRC_CFG.PENDING src) v).get (Fd.IRQ_SRC_CFG.PENDING src) = if b then v else s.get (Fd.IRQ_SRC_CFG.PENDING src) := by
  unfold State.setIf
  split
  · exact (s.get_set (Fd.IRQ_SRC_CFG.PENDING src) v (of_decide_eq_true rfl) (of_decide_eq_true rfl)).trans (Nat.mod_eq_of_lt hv)
  · rfl

theorem State.signalSource_assert (s : State) (src : Nat) :
    (s.signalSource src 1).get (Fd.IRQ_SRC_CFG.LVL src) = 1 ∧ (s.signalSource src 1).get (Fd.IRQ_SRC_CFG.PENDING src) =
      if s.get (Fd.IRQ_SRC_CFG.LVL src) = 0 ∧ s.get (Fd.IRQ_SRC_CFG.ACTIVE src) = 0 then 1 else s.get (Fd.IRQ_SRC_CFG.PENDING src) := by
  have hs : s.signalSource src 1 = (s.set (Fd.IRQ_SRC_CFG.LVL src) 1).setIf
      (!s.on (Fd.IRQ_SRC_CFG.LVL src) && !s.on (Fd.IRQ_SRC_CFG.ACTIVE src)) (Fd.IRQ_SRC_CFG.PENDING src) 1 := rfl
  rw [hs, State.get_lvl_setIf, State.get_lvl_set, State.get_pending_setIf _ _ (by decide), State.get_pending_of_lvl]
  exact ⟨rfl, ite_of_iff (by simp) rfl rfl⟩

theorem State.signalSource_deassert (s : State) (src : Nat) :
    (s.signalSource src 2).get (Fd.IRQ_SRC_CFG.LVL src) = 0 ∧ (s.signalSource src 2).get (Fd.IRQ_SRC_CFG.PENDING src) =
      if s.get (Fd.IRQ_SRC_CFG.ACTIVE src) = 0 then 0 else s.get (Fd.IRQ_SRC_CFG.PENDING src) := by
  have hs : s.signalSource src 2 = (s.set (Fd.IRQ_SRC_CFG.LVL src) 0).setIf (!s.on (Fd.IRQ_SRC_CFG.ACTIVE src))
      (Fd.IRQ_SRC_CFG.PENDING src) 0 := rfl
  rw [hs, State.get_lvl_setIf, State.get_lvl_set, State.get_pending_setIf _ _ (by decide), State.get_pending_of_lvl]
  exact ⟨rfl, ite_of_iff (by simp) rfl rfl⟩

/-! #### The record of a drop -/

/-- The grove that the record of a drop names: that of a core, else 0. -/
def State.dropGrove (s : State) : Writer → Nat
  | .core c => (s.groveOfCore c).getD 0
  | _ => 0

/-- The word that records a dropped doorbell write. -/
def State.dropWord (s : State) (w : Writer) (src op why : Nat) : Nat :=
  src + op * 2 ^ 12 + why * 2 ^ 14 + b2n (w == .hw) * 2 ^ 15 + b2n (w == .host) * 2 ^ 16 + s.dropGrove w * 2 ^ 17

theorem State.recordDrop_eq (s : State) (w : Writer) (src op why : Nat) : s.recordDrop w src op why =
    ((s.inc Fd.IRQ_DROP_CNT.COUNT).setReg Rg.IRQ_DROP_LAST (s.dropWord w src op why)).raise Fd.IRQ_STAT.DROP := rfl

theorem State.reg_recordDrop_last (s : State) (w : Writer) (src op why : Nat) :
    (s.recordDrop w src op why).reg Rg.IRQ_DROP_LAST = s.dropWord w src op why % 2 ^ 64 := by
  rw [State.recordDrop_eq]
  exact (State.reg_set_ne _ 1 (by decide)).trans (State.reg_setReg ..)

theorem State.get_recordDrop_count (s : State) (w : Writer) (src op why : Nat) :
    (s.recordDrop w src op why).get Fd.IRQ_DROP_CNT.COUNT = satAdd 32 (s.get Fd.IRQ_DROP_CNT.COUNT) 1 := by
  have hlt : satAdd 32 (s.get Fd.IRQ_DROP_CNT.COUNT) 1 < 2 ^ 32 := by unfold satAdd; omega
  rw [State.recordDrop_eq]
  exact (State.get_set_ne _ 1 (by decide)).trans ((State.get_setReg_ne _ _ (by decide)).trans
    ((s.get_set Fd.IRQ_DROP_CNT.COUNT _ (by decide) (by decide)).trans (Nat.mod_eq_of_lt hlt)))

/-- The parts of the word are where the register has them. -/
theorem State.dropWord_bits (s : State) (w : Writer) (hsrc : src < 4096) (hop : op < 3) (hwhy : why < 2) :
    bits (s.dropWord w src op why % 2 ^ 64) 11 0 = src ∧ bits (s.dropWord w src op why % 2 ^ 64) 13 12 = op ∧
      bits (s.dropWord w src op why % 2 ^ 64) 14 14 = why := by
  obtain ⟨k, hk⟩ : ∃ k, s.dropWord w src op why = src + op * 2 ^ 12 + why * 2 ^ 14 + k * 2 ^ 15 :=
    ⟨b2n (w == .hw) + b2n (w == .host) * 2 + s.dropGrove w * 4, by unfold State.dropWord; omega⟩
  rw [hk]
  unfold bits
  refine ⟨?_, ?_, ?_⟩ <;> omega

/-- Settles O43: the doorbell register's writers, and an admitted or dropped write by the fields that it leaves. The clause of a requester that
is neither core nor Heartwood follows from its own admission. -/
theorem doorbells : Obligations.Doorbells := by
  unfold Obligations.Doorbells
  refine ⟨?writers, fun v s ha => (exec_of_admitted ha rfl).trans rfl, ?sources⟩
  case writers =>
    refine fun r src s => ⟨?core, rfl, rfl, rfl, ?rest⟩
    case core =>
      rintro c rfl ha
      exact ⟨(exec_of_admitted ha rfl).trans rfl, (exec_of_admitted ha rfl).trans rfl, (exec_of_admitted ha rfl).trans rfl⟩
    case rest =>
      intro hc hh ha i hi
      simp only [List.mem_cons, List.not_mem_nil, or_false] at hi
      cases r with
      | core c => exact absurd rfl (hc c)
      | heartwood => exact absurd rfl hh
      | dma e ch => rcases hi with rfl | rfl | rfl <;> exact exec_of_admitted (f := id) ha rfl
      | host => rcases hi with rfl | rfl | rfl <;> exact exec_of_admitted (f := id) ha rfl
  case sources =>
    intro s w src hsrc f
    refine ⟨fun op hop => if_pos (beq_iff_eq.mpr hop), fun h => State.ring_of_admitted (by decide) h, ?assert, ?deassert, ?drop⟩
    case assert =>
      intro h t
      have ht : t = s.signalSource src 1 := State.ring_of_admitted (by decide) h
      rw [ht]
      exact s.signalSource_assert src
    case deassert =>
      intro h t
      have ht : t = s.signalSource src 2 := State.ring_of_admitted (by decide) h
      rw [ht]
      exact s.signalSource_deassert src
    case drop =>
      intro op why hop h hd t
      have ht : t = s.recordDrop w src op why := State.ring_of_known_drop (by omega) h hd
      rw [ht]
      obtain ⟨h0, h1, h2⟩ := s.dropWord_bits w hsrc hop (State.dropReason_lt h)
      refine ⟨s.get_recordDrop_count w src op why, ?_, ?_, ?_, fun i => ?_⟩
      · rw [State.reg_recordDrop_last, h0]
      · rw [State.reg_recordDrop_last, h1]
      · rw [State.reg_recordDrop_last, h2]
      · exact State.get_recordDrop (Nat.lt_of_lt_of_le (of_decide_eq_true rfl : _ < Rg.IRQ_SRC_CFG 0) (Nat.le_add_right _ _)) why

/-! ### Claims, ends of interrupt and delivery mode -/

variable {c : Nat}

theorem State.claim_of_compat (hl : u.level c ≠ .u) (ho : u.offerOf c = some src) (hc : u.compatSource src = true) :
    u.claim c = (src + u.prio src * 2 ^ 12, u.accept c src) := by
  unfold State.claim
  rw [if_neg (mt beq_iff_eq.mp hl), ho]
  exact if_pos hc

theorem State.claim_of_none (h : u.level c = .u ∨ u.offerOf c = none ∨ ∃ src, u.offerOf c = some src ∧ u.compatSource src = false) :
    u.claim c = (2 ^ 31, u) := by
  unfold State.claim
  split
  · rfl
  · next hl =>
    rcases h with h | h | ⟨src, ho, hc⟩
    · exact absurd (beq_iff_eq.mpr h) hl
    · rw [h]
    · rw [ho]; exact if_neg (Bool.not_eq_true _ ▸ hc)

/-- A source that ends is pended again while its level is high (R408, R419). -/
theorem State.endActive_eq (u : State) (src : Nat) :
    u.endActive src = (let t := u.set (Fd.IRQ_SRC_CFG.ACTIVE src) 0
      if t.get (Fd.IRQ_SRC_CFG.LEVEL src) ≠ 0 ∧ t.get (Fd.IRQ_SRC_CFG.LVL src) ≠ 0 then t.set (Fd.IRQ_SRC_CFG.PENDING src) 1 else t) := by
  have hlevel : (u.set (Fd.IRQ_SRC_CFG.ACTIVE src) 0).get (Fd.IRQ_SRC_CFG.LEVEL src) = u.get (Fd.IRQ_SRC_CFG.LEVEL src) :=
    u.get_set_below 0 rfl (of_decide_eq_true rfl) (of_decide_eq_true rfl) (of_decide_eq_true rfl) (of_decide_eq_true rfl)
  have hlvl : (u.set (Fd.IRQ_SRC_CFG.ACTIVE src) 0).get (Fd.IRQ_SRC_CFG.LVL src) = u.get (Fd.IRQ_SRC_CFG.LVL src) :=
    u.get_set_above 0 rfl (of_decide_eq_true rfl) (of_decide_eq_true rfl) (of_decide_eq_true rfl)
  dsimp only
  rw [hlevel, hlvl]
  exact ite_of_iff (by simp) rfl rfl

theorem State.eoi_of_top {p : Nat} {rest : List (Nat × Nat)} (h : u.stack c = (src, p) :: rest) (hl : u.level c ≠ .u) :
    u.eoi c src = ((u.endActive src).setStack c rest).settle := by
  unfold State.eoi
  rw [h]
  refine if_pos ?_
  rw [beq_self_eq_true, bne_iff_ne.mpr hl]
  rfl

theorem State.eoi_of_other (h : (∀ p rest, u.stack c ≠ (src, p) :: rest) ∨ u.level c = .u) :
    u.eoi c src = u.set (Fd.IRQ_CORE_STAT.EOI_ERR c) 1 := by
  unfold State.eoi
  split
  · next top rest hs =>
    refine if_neg fun hb => ?_
    obtain ⟨ht, hl⟩ := Bool.and_eq_true_iff.mp hb
    rcases h with h | h
    · exact h top.2 rest (by rw [hs, ← beq_iff_eq.mp ht])
    · exact bne_iff_ne.mp hl h
  · rfl

theorem State.compatWrite_of_idle {r : Requester} {g v : Nat} (hm : u.mayConfigGrove r g = true)
    (hi : ∀ c, c ∈ bitsSet 64 (u.grv g).cfg.cores → u.stack c = []) :
    u.compatWrite r g v = (u.set (Fd.IRQ_GRV_CFG.COMPAT g) (bits v 0 0)).settle := by
  refine if_pos ?_
  rw [hm, Bool.true_and, List.all_eq_true]
  exact fun c hc => List.isEmpty_iff.mpr (hi c hc)

theorem State.compatWrite_of_refused {r : Requester} {g v : Nat}
    (h : u.mayConfigGrove r g = false ∨ ∃ c, c ∈ bitsSet 64 (u.grv g).cfg.cores ∧ u.stack c ≠ []) : u.compatWrite r g v = u := by
  refine if_neg fun hb => ?_
  obtain ⟨hm, hall⟩ := Bool.and_eq_true_iff.mp hb
  rcases h with h | ⟨c, hc, hs⟩
  · exact Bool.false_ne_true (h.symm.trans hm)
  · exact hs (List.isEmpty_iff.mp (List.all_eq_true.mp hall c hc))

/-- Settles O44: each access at the register that it names, one lemma per outcome. -/
theorem routerAccess : Obligations.RouterAccess := by
  unfold Obligations.RouterAccess
  refine ⟨?banks, ?claim, ?eoi, ?compat, ?clear⟩
  case banks =>
    exact fun c w v s => ⟨fun ha => (exec_of_admitted ha rfl).trans rfl, fun ha => (exec_of_admitted ha rfl).trans rfl,
      fun ha => (exec_of_admitted ha rfl).trans rfl, fun ha => (exec_of_admitted ha rfl).trans rfl⟩
  case claim =>
    intro c s hreach u
    have hexec : exec (.irqClaim c) s = .next (u.claimRead c.val) := congrArg Host.Outcome.next (if_pos hreach)
    rw [hexec]
    unfold State.claimRead
    exact ⟨fun src hl ho hc => by rw [State.claim_of_compat hl ho hc], fun h => by rw [State.claim_of_none h]⟩
  case eoi =>
    intro c v s ha u src
    exact ⟨fun p rest hs hl => (exec_of_admitted ha rfl).trans (congrArg Host.Outcome.next ((State.eoi_of_top hs hl).trans (by rw [State.endActive_eq]))),
      fun h => (exec_of_admitted ha rfl).trans (congrArg Host.Outcome.next (State.eoi_of_other h))⟩
  case compat =>
    exact fun r g v s ha =>
      ⟨fun hm hi => (exec_of_admitted ha rfl).trans (congrArg Host.Outcome.next (State.compatWrite_of_idle hm hi)),
        fun h => (exec_of_admitted ha rfl).trans (congrArg Host.Outcome.next (State.compatWrite_of_refused h))⟩
  case clear => exact fun r s ha => exec_of_admitted ha rfl

end Sys2Proof.Machine
end

section
/-! The mailbox of Heartwood (14.5, 14.9): the checks common to every command, the buffer of a command, and the commands that need no owner. -/

namespace Sys2Proof.Machine

variable {s u : State} {m : Fin 2} {code len : Nat} {permitted block : Bool} {f : State → List Byte → State}

/-! ### The checks common to every command -/

theorem State.inProgress_of_served (h : Served s m code len) : s.inProgress m.val code = true := by
  obtain ⟨hruns, hhead, hcode, -⟩ := h
  unfold State.inProgress
  rw [hruns, hhead, hcode]
  simp

/-- The commands that a device in recovery serves (R452). -/
def inRecovery (code : Nat) : Bool := [0x01, 0x02, 0x03, 0x05, 0x11].contains code

theorem State.mbxRow_of_served (h : Served s m code len) (hp : permitted = true)
    (hr : s.start.recovery = false ∨ inRecovery code = true) :
    s.mbxRow m.val code len permitted block f = f s (s.mbxBytes m.val (min 2048 (s.get (Fd.HWD_MBX_CMD.LEN m.val)))) := by
  have hrec : (s.start.recovery && !inRecovery code) = false := by rcases hr with h | h <;> simp [h]
  unfold State.mbxRow
  rw [State.inProgress_of_served h, if_neg (by decide), if_neg, if_neg]
  · rfl
  · rw [hp]
    exact Bool.not_eq_true _ ▸ hrec
  · simpa using h.2.2.2

theorem State.mbxRow_of_length {n : Nat} (h : Served s m code n) (hn : n ≠ len) :
    s.mbxRow m.val code len permitted block f =
      (if block then s.setBox m.val { s.box m.val with nonce := none } else s).mbxEnd m.val 0x03 len 0 := by
  unfold State.mbxRow
  rw [State.inProgress_of_served h, if_neg (by decide), if_pos]
  · rfl
  · simpa [h.2.2.2] using hn

theorem State.mbxRow_of_refused (h : Served s m code len) (hp : permitted = false) :
    s.mbxRow m.val code len permitted block f =
      (if block then s.setBox m.val { s.box m.val with nonce := none } else s).mbxEnd m.val 0x04 (s.get Fd.HWD_STAT.LC) 0 := by
  unfold State.mbxRow
  rw [State.inProgress_of_served h, if_neg (by decide), if_neg, if_pos]
  · rfl
  · rw [hp]; rfl
  · simpa using h.2.2.2

/-! ### The buffer of a command -/

theorem bufferAt_eq (m : Fin 2) (addr : Nat) : (if (m.val == 0) = true then addr else 0x7_F000_0000 + addr) = bufferAt m.val addr :=
  ite_of_iff beq_iff_eq rfl rfl

theorem bufferFits_iff (m : Fin 2) (addr n : Nat) :
    (if (m.val == 0) = true then decide (addr + n ≤ gddrSize) else decide (addr + n ≤ 0x1000_0000)) = true ↔ bufferFits m.val addr n := by
  unfold bufferFits
  by_cases h : m.val = 0
  · rw [if_pos (beq_iff_eq.mpr h), if_pos h, decide_eq_true_iff]
  · rw [if_neg (mt beq_iff_eq.mp h), if_neg h, decide_eq_true_iff]

theorem State.mbxBuffer_of_read {addr n : Nat} {b : List Byte} (hfit : bufferFits m.val addr n)
    (hfree : s.linesFree (bufferAt m.val addr) n = true) (hread : s.unitRead (bufferAt m.val addr) n false = (some b, u)) :
    s.mbxBuffer m.val addr n f = f u b := by
  unfold State.mbxBuffer
  simp only [bufferAt_eq]
  rw [if_neg, hfree, hread]
  · rfl
  · rw [Bool.not_eq_true', Bool.not_eq_false]
    exact (bufferFits_iff m addr n).mpr hfit

theorem State.mbxBuffer_of_outside {addr n : Nat} (hfit : ¬ bufferFits m.val addr n) : s.mbxBuffer m.val addr n f = s.mbxEnd m.val 0x0B 0 0 := by
  unfold State.mbxBuffer
  rw [if_pos]
  · rfl
  · rw [Bool.not_eq_true']
    exact Bool.eq_false_iff.mpr fun h => hfit ((bufferFits_iff m addr n).mp h)

/-! ### Staging and firmware -/

theorem State.stage_of_none (h : s.start.staging = none) : s.stage m.val = s.mbxRow m.val 0x10 12 s.lcRuns false fun s req =>
    s.mbxBuffer m.val (fieldB req 0 8) (fieldB req 8 4) fun s b =>
      if s.slotSize < fieldB req 8 4 then s.mbxEnd m.val 0x09 0x04 0 else s.stagingBegin m.val b := by
  unfold State.stage
  rw [h]
  rfl

theorem State.hwfwUpdate_of_none (h : s.sec.fwWriting = none) (w : FwWrite) :
    s.hwfwUpdate m.val w = s.mbxRow m.val 0x11 12 (s.lc < 5) false fun s req =>
      s.mbxBuffer m.val (fieldB req 0 8) (fieldB req 8 4) fun s b =>
        if fieldB b 8 4 != fieldB req 8 4 || !s.firmwareOk b then s.mbxEnd m.val 0x09 0 0
        else (s.audit 0x0015 (s.reg Rg.HWD_FW) (fieldB b 0x0C 4)).firmwareStore m.val b w := by
  unfold State.hwfwUpdate
  rw [h]
  rfl

theorem State.hwfwUpdate_of_some {b : List Byte} (h : s.sec.fwWriting = some (m.val, b)) (hp : s.inProgress m.val 0x11 = true) (w : FwWrite) :
    s.hwfwUpdate m.val w = s.firmwareStore m.val b w := by
  unfold State.hwfwUpdate
  rw [h]
  refine if_pos ?_
  rw [hp, beq_self_eq_true]
  rfl

/-! ### Certificates -/

/-- A certificate for a key that is in force or pending, which verifies. -/
theorem State.certInstall_of_ok {pend : Bool} (h : Served s m 0x23 256) (hl : s.lcRuns = true) (hr : s.start.recovery = false) :
    let req := s.mbxBytes m.val (min 2048 (s.get (Fd.HWD_MBX_CMD.LEN m.val)))
    let k := fieldB req 6 1
    s.ownCertOk req k (s.ownerDigest k) = true →
    (s.on Fd.HWD_STAT.KEY_PENDING && s.get Fd.HWD_CNT.PENDING_INDEX == k) = pend → s.ownerIndex = some k ∨ pend = true →
    s.certInstall m.val = ((s.audit 0x0013 k 0).modSec fun x => if pend then { x with certPend := req } else { x with cert := req }).mbxReply
      m.val [] := by
  intro req k hok hpend hkey
  refine (State.mbxRow_of_served h hl (.inl hr)).trans ?_
  have hkeep : (!(s.ownerIndex == some k || pend) || !s.ownCertOk req k (s.ownerDigest k)) = false := by
    rw [hok]
    rcases hkey with h | h <;> simp [h]
  dsimp only
  rw [hpend]
  exact if_neg (Bool.not_eq_true _ ▸ hkeep)

/-! ### The refusals -/

/-- A command is a row of its code, length and block. -/
def MbxRow (s : State) (m : Fin 2) (c : Instr × Nat × Nat × Bool) : Prop :=
  ∃ (p : Bool) (f : State → List Byte → State), exec c.1 s = .next (s.mbxRow m.val c.2.1 c.2.2.1 p c.2.2.2 f) ∧
    (c.2.1 = 0x04 ∨ c.2.1 = 0x22 ∨ c.2.1 = 0x23 ∨ c.2.1 = 0x24 → s.lcRuns = false → p = false)

theorem State.changeRow_of_none {e : ChangeEnd} {g : State → State} (h : s.sec.change = none) : s.changeRow m.val code e g = g s := by
  unfold State.changeRow
  rw [h]

theorem mbxRow_exec (hc : s.sec.change = none) (hf : s.sec.fwWriting = none) (w : FwWrite) (e : ChangeEnd) (c : Instr × Nat × Nat × Bool)
    (h : c ∈ [(Instr.getInfo m, 0x01, 0, false), (.getNonce m, 0x02, 0, false), (.getIdentity m, 0x03, 0, false), (.attest m, 0x04, 32, false),
      (.auditRead m, 0x05, 9, false), (.hwfwUpdate ⟨m, w⟩, 0x11, 12, false), (.provision ⟨m, e⟩, 0x21, 356, false),
      (.keyRotate ⟨m, e⟩, 0x22, 484, true), (.certInstall m, 0x23, 256, false), (.imageKeyInstall m, 0x24, 288, true),
      (.debugOpen m, 0x30, 128, true), (.debugClose m, 0x31, 0, false)]) : MbxRow s m c := by
  simp only [List.mem_cons, List.not_mem_nil, or_false] at h
  rcases h with rfl | rfl | rfl | rfl | rfl | rfl | rfl | rfl | rfl | rfl | rfl | rfl
  · exact ⟨_, _, rfl, by simp⟩
  · exact ⟨_, _, rfl, by simp⟩
  · exact ⟨_, _, rfl, by simp⟩
  · exact ⟨s.lcRuns, _, rfl, fun _ h => h⟩
  · exact ⟨_, _, rfl, by simp⟩
  · exact ⟨_, _, congrArg Host.Outcome.next (State.hwfwUpdate_of_none hf w), by simp⟩
  · exact ⟨_, _, congrArg Host.Outcome.next (State.changeRow_of_none hc), by simp⟩
  · exact ⟨s.lcRuns && !s.on Fd.HWD_STAT.KEY_PENDING, _, congrArg Host.Outcome.next (State.changeRow_of_none hc), fun _ h => by rw [h]; rfl⟩
  · exact ⟨s.lcRuns, _, rfl, fun _ h => h⟩
  · exact ⟨s.lcRuns, _, rfl, fun _ h => h⟩
  · exact ⟨_, _, rfl, by simp⟩
  · exact ⟨_, _, rfl, by simp⟩

/-- Settles O46: each command through the checks common to all, then its own work; the refusals by the row that every command is. -/
theorem mailboxCommands : Obligations.MailboxCommands := by
  unfold Obligations.MailboxCommands
  intro s m req addr len
  refine ⟨fun h => congrArg Host.Outcome.next (State.mbxRow_of_served h rfl (.inr rfl)),
    fun h => congrArg Host.Outcome.next (State.mbxRow_of_served h rfl (.inr rfl)),
    fun h => congrArg Host.Outcome.next (State.mbxRow_of_served h rfl (.inr rfl)),
    fun h hl hr => congrArg Host.Outcome.next (State.mbxRow_of_served h hl (.inl hr)), ?audit, ?stage, ?firmware,
    fun b w h hp => congrArg Host.Outcome.next (State.hwfwUpdate_of_some h hp w), ?cert,
    fun h hr => congrArg Host.Outcome.next (State.mbxRow_of_served h rfl (.inl hr)), ?refused⟩
  case audit =>
    intro h hlo hhi
    refine congrArg Host.Outcome.next ((State.mbxRow_of_served h rfl (.inr rfl)).trans (if_neg ?_))
    simp only [Bool.or_eq_true, beq_iff_eq, decide_eq_true_eq, not_or]
    exact ⟨Nat.ne_of_gt hlo, Nat.not_lt.mpr hhi⟩
  case stage =>
    intro h hl hr hs
    have hrow := (State.stage_of_none hs).trans (State.mbxRow_of_served h hl (.inl hr))
    refine ⟨fun b u hfit hfree hread => ?_, fun hfit => congrArg Host.Outcome.next (hrow.trans (State.mbxBuffer_of_outside hfit))⟩
    have hbuf := hrow.trans (State.mbxBuffer_of_read hfit hfree hread)
    exact ⟨fun hle => congrArg Host.Outcome.next (hbuf.trans (if_neg (Nat.not_lt.mpr hle))),
      fun hlt => congrArg Host.Outcome.next (hbuf.trans (if_pos hlt))⟩
  case firmware =>
    intro h hlc hf hfit hfree b u hread
    have hbuf (w : FwWrite) : s.hwfwUpdate m.val w = if (fieldB b 8 4 != len || !u.firmwareOk b) = true then u.mbxEnd m.val 0x09 0 0
        else (u.audit 0x0015 (u.reg Rg.HWD_FW) (fieldB b 0x0C 4)).firmwareStore m.val b w := (State.hwfwUpdate_of_none hf w).trans ((State.mbxRow_of_served h (decide_eq_true hlc) (.inr rfl)).trans
      (State.mbxBuffer_of_read hfit hfree hread))
    refine ⟨fun hbad w => congrArg Host.Outcome.next ((hbuf w).trans (if_pos ?bad)), fun hlen hok => ?good⟩
    case bad => rcases hbad with h | h <;> simp [h]
    case good =>
      have hgo (w : FwWrite) := (hbuf w).trans (if_neg (by simp [hlen, hok]))
      exact ⟨congrArg Host.Outcome.next (hgo .done), congrArg Host.Outcome.next (hgo .cut), fun k => congrArg Host.Outcome.next (hgo (.failed k))⟩
  case cert =>
    intro h hl hr k hok
    refine ⟨fun hp hi => congrArg Host.Outcome.next (State.certInstall_of_ok (pend := true) h hl hr hok ?pend (.inr rfl)),
      fun hp hk => congrArg Host.Outcome.next (State.certInstall_of_ok (pend := false) h hl hr hok ?force (.inl hk))⟩
    case pend => rw [(s.on_eq_true_iff Fd.HWD_STAT.KEY_PENDING).mpr hp, Bool.true_and]; exact beq_iff_eq.mpr hi
    case force => rw [(s.on_eq_false_iff Fd.HWD_STAT.KEY_PENDING).mpr hp]; rfl
  case refused =>
    intro hc hf c w e hmem u
    obtain ⟨p, f, hexec, hperm⟩ := mbxRow_exec hc hf w e c hmem
    refine ⟨fun n h hn => hexec.trans (congrArg Host.Outcome.next (State.mbxRow_of_length h hn)), fun hcode h hl =>
      hexec.trans (congrArg Host.Outcome.next ((State.mbxRow_of_refused h (hperm hcode hl)).trans ?_))⟩
    have hlc : u.get Fd.HWD_STAT.LC = s.get Fd.HWD_STAT.LC := by
      unfold u
      split <;> rfl
    rw [← hlc]

end Sys2Proof.Machine
end

section
/-! The commands of the owner (14.2-14.4, 14.8, 14.9): authorisation, accepted changes, and the changes that a start finds interrupted. -/

namespace Sys2Proof.Machine

variable {s u : State} {m : Fin 2} {code : Nat} {f : State → List Byte → State}

/-! ### Authorisation -/

theorem length_flatMap_const {α β : Type} {g : α → List β} {k : Nat} (h : ∀ a, (g a).length = k) (l : List α) :
    (l.flatMap g).length = l.length * k := by
  induction l with
  | nil => simp
  | cons a l ih => rw [List.flatMap_cons, List.length_append, h, ih, List.length_cons, Nat.succ_mul, Nat.add_comm]

theorem State.length_mbxBytes (s : State) (m n : Nat) : (s.mbxBytes m n).length = n := by
  unfold State.mbxBytes
  rw [List.length_take, length_flatMap_const (k := 8) (fun j => length_leBytes ..), List.length_range]
  unfold ceilDiv
  omega

/-- The request of a served command has the length of its row. -/
theorem State.length_served {len : Nat} (h : Served s m code len) (hl : len ≤ 2048) :
    (s.mbxBytes m.val (min 2048 (s.get (Fd.HWD_MBX_CMD.LEN m.val)))).length = len := by
  rw [State.length_mbxBytes, h.2.2.2, Nat.min_eq_right hl]

theorem State.authorised_of_allowed {req : List Byte} (h : OwnerAllows s m.val code req) :
    s.authorised m.val code req f = f (ownerUsed s m.val) (req.take (req.length - 128)) := by
  obtain ⟨hlocked, ⟨t, hnonce, htime⟩, hsig⟩ := h
  have hon : s.on (Fd.HWD_MBX_STAT.LOCKED m.val) = false := (s.on_eq_false_iff _).mpr hlocked
  have htime' : (s.dropNonce m.val).hwTime < t + 600000000000 := htime
  unfold State.authorised
  dsimp only
  rw [hon, if_neg (by decide), hnonce]
  dsimp only
  rw [if_neg, if_neg]
  · rfl
  · rw [Bool.not_eq_true', Bool.not_eq_false]
    exact hsig
  · rw [beq_self_eq_true, decide_eq_true htime']
    decide

theorem State.authorised_of_none {req : List Byte} {k : Nat} (hl : s.get (Fd.HWD_MBX_STAT.LOCKED k) = 0) (hn : (s.box k).nonce = none) :
    s.authorised k code req f = (s.setBox k { s.box k with nonce := none }).authFails k code 0x06 := by
  unfold State.authorised
  dsimp only
  rw [(s.on_eq_false_iff _).mpr hl, if_neg (by decide), hn]
  rfl

/-! ### Changes that are accepted -/

theorem State.changeGoes_eq (s : State) (c : Change) (e : ChangeEnd) : s.changeGoes c e = changed s c e := by
  cases e <;> rfl

theorem State.changeRow_of_some {c : Change} {e : ChangeEnd} {g : State → State} (h : s.sec.change = some c) (hm : c.mailbox = m.val)
    (hp : s.inProgress m.val code = true) : s.changeRow m.val code e g = changed s c e := by
  unfold State.changeRow
  rw [h]
  dsimp only
  rw [if_pos, State.changeGoes_eq]
  rw [hp, hm, beq_self_eq_true]
  rfl

theorem State.lcAccept_of_full {m new : Nat} {e : ChangeEnd} (h3 : s.lc = 3) (h4 : new = 4) (hf : 16 ≤ s.get Fd.HWD_CNT.SERVICE_ENTRIES) :
    s.lcAccept m new e = s.mbxEnd m 0x07 1 0 := if_pos (by simp [h3, h4, hf])

theorem State.lcAccept_of_room {m new : Nat} {e : ChangeEnd} (h : ¬ (s.lc = 3 ∧ new = 4) ∨ s.get Fd.HWD_CNT.SERVICE_ENTRIES < 16) :
    s.lcAccept m new e = changed (s.audit 0x0010 (s.lc + 256 * new) 0) { seq := s.get Fd.HWD_AUDIT_SEQ.SEQ, mailbox := m, lc := some new, counter := if s.lc = 3 ∧ new = 4 then some 1 else none, key := none } e := by
  have hcounter : (if (s.lc == 3 && new == 4) = true then some 1 else none : Option Nat) = if s.lc = 3 ∧ new = 4 then some 1 else none :=
    ite_of_iff (by simp) rfl rfl
  unfold State.lcAccept
  dsimp only
  rw [hcounter, State.changeGoes_eq]
  refine if_neg ?_
  simp only [Bool.and_eq_true, beq_iff_eq, decide_eq_true_eq]
  exact fun ⟨hs, hf⟩ => h.elim (fun h => h hs) fun h => Nat.not_lt.mpr hf h

/-- A key is installed where there is room for it and its point and certificate are good. -/
theorem State.installKey_of_good {b : List Byte} {provision : Bool} {e : ChangeEnd} {m : Nat} :
    let k := s.get Fd.HWD_CNT.OWNER_INSTALLS
    let d := pointDigest (sliceB b 0 97)
    k < 8 → zeroB b 97 3 = true → s.ownCertOk (sliceB b 100 256) k d = true →
    s.installKey m b provision e = changed ((if provision then s.audit 0x0010 (1 + 256 * 2) 0 else s).audit 0x0011 k 0)
      { seq := s.get Fd.HWD_AUDIT_SEQ.SEQ, mailbox := m, lc := if provision then some 2 else none, counter := some 0,
        key := some (k, d, sliceB b 100 256) } e := by
  intro k d hk hz hc
  unfold State.installKey
  dsimp only
  rw [if_neg (Nat.not_le.mpr hk), if_neg, State.changeGoes_eq]
  rw [hz, hc]
  decide

/-! ### The rows of the owner's commands -/

variable {e : ChangeEnd}

/-- The row of a lifecycle change that begins. -/
theorem State.lcChange_of_none (hc : s.sec.change = none) {target : Nat} (ht : target = bits (s.reg (Rg.HWD_MBX_DATA m.val 0)) 7 0) {owner : Bool}
    (ho : (lcTransition s.lc target).getD (s.get (Fd.HWD_MBX_CMD.LEN m.val) == 132) = owner) :
    s.lcChange m.val e = s.mbxRow m.val 0x20 (if owner then 132 else 4) ((lcTransition s.lc target).isSome && s.sec.lcTo.isNone) owner
      fun s req => if !zeroB req 1 3 then (s.iff owner (·.dropNonce m.val)).mbxRefuse m.val 0x09 0
        else if owner then s.authorised m.val 0x20 req fun s _ => s.lcAccept m.val target e else s.lcAccept m.val target e := by
  subst ht ho
  exact State.changeRow_of_none hc

theorem State.lcChange_of_owner (hr : s.start.recovery = false) (hc : s.sec.change = none) {target : Nat}
    (ht : target = bits (s.reg (Rg.HWD_MBX_DATA m.val 0)) 7 0) (hto : s.sec.lcTo = none)
    (hz : zeroB (s.mbxBytes m.val (min 2048 (s.get (Fd.HWD_MBX_CMD.LEN m.val)))) 1 3 = true) (hl : lcTransition s.lc target = some true)
    (h : Served s m 0x20 132) (ha : OwnerAllows s m.val 0x20 (s.mbxBytes m.val (min 2048 (s.get (Fd.HWD_MBX_CMD.LEN m.val))))) :
    s.lcChange m.val e = (ownerUsed s m.val).lcAccept m.val target e := by
  rw [State.lcChange_of_none (owner := true) hc ht (by rw [hl]; rfl), if_pos rfl,
    State.mbxRow_of_served h (by rw [hl, hto]; rfl) (.inl hr), hz, if_neg (by decide), if_pos rfl, State.authorised_of_allowed ha]

theorem State.lcChange_of_free (hr : s.start.recovery = false) (hc : s.sec.change = none) {target : Nat}
    (ht : target = bits (s.reg (Rg.HWD_MBX_DATA m.val 0)) 7 0) (hto : s.sec.lcTo = none)
    (hz : zeroB (s.mbxBytes m.val (min 2048 (s.get (Fd.HWD_MBX_CMD.LEN m.val)))) 1 3 = true) (hl : lcTransition s.lc target = some false)
    (h : Served s m 0x20 4) : s.lcChange m.val e = s.lcAccept m.val target e := by
  rw [State.lcChange_of_none (owner := false) hc ht (by rw [hl]; rfl), if_neg (by decide),
    State.mbxRow_of_served h (by rw [hl, hto]; rfl) (.inl hr), hz, if_neg (by decide), if_neg (by decide)]

/-- A transition that does not exist is refused with STATE (R443). -/
theorem State.lcChange_of_unknown (hc : s.sec.change = none) {target : Nat} (ht : target = bits (s.reg (Rg.HWD_MBX_DATA m.val 0)) 7 0)
    (hl : lcTransition s.lc target = none) :
    (Served s m 0x20 132 → s.lcChange m.val e = (s.setBox m.val { s.box m.val with nonce := none }).mbxEnd m.val 0x04 s.lc 0) ∧
      (Served s m 0x20 4 → s.lcChange m.val e = s.mbxEnd m.val 0x04 s.lc 0) := by
  refine ⟨fun h => ?_, fun h => ?_⟩
  · rw [State.lcChange_of_none (owner := true) hc ht (by rw [hl, h.2.2.2]; rfl), if_pos rfl, State.mbxRow_of_refused h (by rw [hl]; rfl)]
    rfl
  · rw [State.lcChange_of_none (owner := false) hc ht (by rw [hl, h.2.2.2]; rfl), if_neg (by decide), State.mbxRow_of_refused h (by rw [hl]; rfl)]
    rfl

theorem State.imageKeyInstall_of_open (h : Served s m 0x24 288) (hl : s.lcRuns = true) (hr : s.start.recovery = false)
    (ha : OwnerAllows s m.val 0x24 (s.mbxBytes m.val (min 2048 (s.get (Fd.HWD_MBX_CMD.LEN m.val))))) :
    let u := ownerUsed s m.val
    let b := (s.mbxBytes m.val (min 2048 (s.get (Fd.HWD_MBX_CMD.LEN m.val)))).take 160
    let kek := cryptoN 8 32 (sliceB b 0 97 ++ (leBytes 8 (u.reg Rg.HWD_SERIAL_LO) ++ leBytes 8 (u.reg Rg.HWD_SERIAL_HI)) ++
      leBytes 1 (u.get Fd.HWD_CNT.KEY_INDEX))
    zeroB b 97 3 = true → ∀ key, Config.gcmOpen kek (sliceB b 100 12) (sliceB b 0 97) (sliceB b 112 32) (sliceB b 144 16) = some key →
    s.imageKeyInstall m.val = (((u.audit 0x0012 0 0).modSec fun x => { x with imageKey := some (sliceB key 0 32) }).set
      Fd.HWD_STAT.IMAGE_KEY 1).mbxReply m.val [] := by
  intro u b kek hz key hk
  refine (State.mbxRow_of_served h hl (.inl hr)).trans ((State.authorised_of_allowed ha).trans ?_)
  rw [State.length_served h (by decide)]
  refine (if_neg ?_).trans ?_
  · exact Bool.not_eq_true' _ ▸ (by rw [Bool.not_eq_false]; exact hz)
  · show (match Config.gcmOpen kek (sliceB b 100 12) (sliceB b 0 97) (sliceB b 112 32) (sliceB b 144 16) with
      | none => _
      | some key => _) = _
    rw [hk]
    rfl

/-! ### What a change leaves -/

/-- The change is no longer under way; the lifecycle state that it goes to is due. -/
def State.changeOver (s : State) (c : Change) : State :=
  s.modSec fun x => { x with change := none, lcTo := if c.lc.isSome then c.lc else x.lcTo }

/-- The state once a change is no longer under way, before its key is installed. -/
def State.changeClosed (s : State) (c : Change) : State :=
  match c.counter with
  | some k => if c.lc.isSome then s.changeOver c else (s.changeOver c).otpCopy k
  | none => s.changeOver c

theorem State.otpCopy_frame (s : State) (k : Nat) :
    (s.otpCopy k).sec.change = s.sec.change ∧ (s.otpCopy k).sec.margin = s.sec.margin ∧ (s.otpCopy k).sec.lcTo = s.sec.lcTo ∧
      (s.otpCopy k).regs = s.regs ∧ (s.otpCopy k).mem = s.mem := ⟨rfl, rfl, rfl, rfl, rfl⟩

theorem State.changeClosed_frame (s : State) (c : Change) :
    (s.changeClosed c).sec.change = none ∧ (s.changeClosed c).sec.margin = s.sec.margin ∧
      (s.changeClosed c).sec.lcTo = (if c.lc.isSome then c.lc else s.sec.lcTo) ∧ (s.changeClosed c).regs = s.regs ∧
      (s.changeClosed c).mem = s.mem := by
  have hover : (s.changeOver c).sec.change = none ∧ (s.changeOver c).sec.margin = s.sec.margin ∧
      (s.changeOver c).sec.lcTo = (if c.lc.isSome then c.lc else s.sec.lcTo) ∧ (s.changeOver c).regs = s.regs ∧
      (s.changeOver c).mem = s.mem := ⟨rfl, rfl, rfl, rfl, rfl⟩
  unfold State.changeClosed
  generalize s.changeOver c = u at hover ⊢
  generalize (if c.lc.isSome = true then c.lc else s.sec.lcTo) = lc at hover ⊢
  cases c.counter with
  | none => exact hover
  | some k =>
    dsimp only
    split <;> exact hover

/-- A key that is installed: in force with its certificate, or pending. -/
def State.keyStands (s : State) (c : Change) (k : Nat) (d b : List Byte) : State :=
  let u := s.modSec fun x => { x with owners := mapPut x.owners k { digest := d, valid := c.lc.isSome } }
  if c.lc.isSome then (u.modSec fun x => { x with cert := b }).set Fd.HWD_CNT.KEY_INDEX k
  else ((u.modSec fun x => { x with certPend := b }).raise Fd.HWD_STAT.KEY_PENDING).set Fd.HWD_CNT.PENDING_INDEX k

theorem State.changeStands_of_none {c : Change} (h : c.key = none) : s.changeStands c = s.changeClosed c := by
  unfold State.changeStands
  rw [h]
  rfl

theorem State.changeStands_of_key {c : Change} {k : Nat} {d b : List Byte} (h : c.key = some (k, d, b)) :
    s.changeStands c = (s.changeClosed c).keyStands c k d b := by
  unfold State.changeStands
  rw [h]
  rfl

theorem State.keyStands_frame (s : State) (c : Change) (k : Nat) (d b : List Byte) :
    (s.keyStands c k d b).sec.change = s.sec.change ∧ (s.keyStands c k d b).sec.margin = s.sec.margin ∧
      (s.keyStands c k d b).sec.lcTo = s.sec.lcTo ∧ (s.keyStands c k d b).mem = s.mem ∧
      mapGet? (s.keyStands c k d b).sec.owners k = some { digest := d, valid := c.lc.isSome } := by
  have hput : mapGet? (mapPut s.sec.owners k { digest := d, valid := c.lc.isSome }) k = some { digest := d, valid := c.lc.isSome } := by
    rw [mapGet?_put, if_pos rfl]
  have hset (u : State) (f : Fld) (v : Nat) : (u.set f v).sec = u.sec ∧ (u.set f v).mem = u.mem := ⟨rfl, rfl⟩
  unfold State.keyStands State.raise
  dsimp only
  split
  · rw [(hset _ _ _).1, (hset _ _ _).2]
    exact ⟨rfl, rfl, rfl, rfl, hput⟩
  · rw [(hset _ _ _).1, (hset _ _ _).1, (hset _ _ _).2, (hset _ _ _).2]
    exact ⟨rfl, rfl, rfl, rfl, hput⟩

theorem State.keyStands_of_lc {c : Change} {k : Nat} {d b : List Byte} (h : c.lc.isSome = true) :
    (s.keyStands c k d b).sec.cert = b ∧ (s.keyStands c k d b).get Fd.HWD_CNT.KEY_INDEX = k % 8 := by
  unfold State.keyStands
  dsimp only
  rw [if_pos h]
  exact ⟨rfl, State.get_set _ _ _ (by decide) (by decide)⟩

theorem State.keyStands_of_none {c : Change} {k : Nat} {d b : List Byte} (h : c.lc = none) :
    (s.keyStands c k d b).sec.certPend = b ∧ (s.keyStands c k d b).get Fd.HWD_STAT.KEY_PENDING = 1 ∧
      (s.keyStands c k d b).get Fd.HWD_CNT.PENDING_INDEX = k % 8 := by
  unfold State.keyStands
  dsimp only
  rw [h, if_neg (by decide)]
  exact ⟨rfl, (State.get_set_ne _ _ (by decide)).trans (State.get_set _ _ _ (by decide) (by decide)),
    State.get_set _ _ _ (by decide) (by decide)⟩

/-- What stands once a change is made, from any state of the registers. -/
theorem State.changeStands_after (s : State) (c : Change) :
    let t := s.changeStands c
    t.sec.change = none ∧ t.sec.margin = s.sec.margin ∧ t.sec.lcTo = (if c.lc.isSome then c.lc else s.sec.lcTo) ∧
      (∀ k d b, c.key = some (k, d, b) → mapGet? t.sec.owners k = some { digest := d, valid := c.lc.isSome } ∧
        (c.lc.isSome = true → t.sec.cert = b ∧ t.get Fd.HWD_CNT.KEY_INDEX = k % 8) ∧
        (c.lc = none → t.sec.certPend = b ∧ t.get Fd.HWD_STAT.KEY_PENDING = 1 ∧ t.get Fd.HWD_CNT.PENDING_INDEX = k % 8)) ∧
      (c.key = none → t.regs = s.regs) ∧ t.mem = s.mem := by
  intro t
  obtain ⟨hchange, hmargin, hlc, hregs, hmem⟩ := s.changeClosed_frame c
  cases hk : c.key with
  | none =>
    have ht : t = s.changeClosed c := State.changeStands_of_none hk
    rw [ht]
    exact ⟨hchange, hmargin, hlc, nofun, fun _ => hregs, hmem⟩
  | some key =>
    obtain ⟨k, d, b⟩ := key
    have ht : t = (s.changeClosed c).keyStands c k d b := State.changeStands_of_key hk
    obtain ⟨kchange, kmargin, klc, kmem, kowner⟩ := (s.changeClosed c).keyStands_frame c k d b
    rw [ht]
    refine ⟨kchange.trans hchange, kmargin.trans hmargin, klc.trans hlc, ?_, nofun, kmem.trans hmem⟩
    rintro _ _ _ ⟨⟩
    exact ⟨kowner, State.keyStands_of_lc, State.keyStands_of_none⟩

/-- The counter of a change steps. -/
def State.counterStepped (s : State) (c : Change) : State :=
  match c.counter with
  | some k => (s.modSec fun x => { x with margin := x.margin.filter (· != k) }).set (otpCounter k) (s.get (otpCounter k) + 1)
  | none => s

theorem State.changeStep_eq (s : State) (c : Change) : s.changeStep c = (s.counterStepped c).changeStands c := by
  unfold State.changeStep State.counterStepped
  cases c.counter <;> rfl

theorem State.counterStepped_frame (s : State) (c : Change) :
    (s.counterStepped c).sec.lcTo = s.sec.lcTo ∧ (s.counterStepped c).mem = s.mem ∧
      (s.counterStepped c).regs = (match c.counter with
        | some k => s.set (otpCounter k) (s.get (otpCounter k) + 1)
        | none => s).regs := by
  unfold State.counterStepped
  cases c.counter with
  | none => exact ⟨rfl, rfl, rfl⟩
  | some k =>
    generalize s.get (otpCounter k) + 1 = n
    exact ⟨rfl, rfl, rfl⟩

/-! ### A start that finds a change interrupted -/

theorem State.lcApply_of_none (h : s.sec.lcTo = none) : s.lcApply = s := by
  unfold State.lcApply
  rw [h]

/-- The cells that stand with an unclean margin are read as programmed. -/
def State.marginsRead (s : State) : State := (s.each s.sec.margin State.otpUnclean).modSec fun x => { x with margin := [] }

/-- The counters that are ahead of their copies. -/
def State.countersAhead (s : State) : List Nat := (List.range 3).filter fun k => mapGet 0 s.sec.copies k < s.get (otpCounter k)

/-- The copies follow, each with its entry. -/
def State.reconciled (s : State) (ahead : List Nat) : State := s.each ahead fun s k => (s.audit 0x00F1 k (s.get (otpCounter k))).otpCopy k

/-- An interrupted change is made if its counter is ahead, and abandoned otherwise (R445). -/
def State.changeResumed (s : State) (ahead : List Nat) : State :=
  match s.sec.change with
  | none => s
  | some c => if c.counter.any ahead.contains then s.changeStands c else (s.audit 0x00F0 c.seq 0).modSec fun x => { x with change := none }

theorem State.lcResume_eq (s : State) :
    s.lcResume = ((s.marginsRead.reconciled s.marginsRead.countersAhead).changeResumed s.marginsRead.countersAhead).lcApply := rfl

theorem State.marginsRead_of_nil (h : s.sec.margin = []) : s.marginsRead = s := by
  unfold State.marginsRead State.each State.modSec
  rw [h]
  dsimp only [List.foldl_nil]
  rw [← h]

theorem State.countersAhead_of_le (h : ∀ k, k < 3 → s.get (otpCounter k) ≤ mapGet 0 s.sec.copies k) : s.countersAhead = [] := by
  unfold State.countersAhead
  rw [List.filter_eq_nil_iff]
  intro k hk
  simpa using h k (List.mem_range.mp hk)

/-- With no cell unclean and no counter ahead the change is abandoned with its entry. -/
theorem State.lcResume_abandons {c : Change} (hc : s.sec.change = some c) (hl : s.sec.lcTo = none)
    (hk : ∀ k, k < 3 → s.get (otpCounter k) ≤ mapGet 0 s.sec.copies k) (hm : s.sec.margin = []) :
    s.lcResume = (s.audit 0x00F0 c.seq 0).modSec fun x => { x with change := none } := by
  have hresumed : s.changeResumed [] = (s.audit 0x00F0 c.seq 0).modSec fun x => { x with change := none } := by
    unfold State.changeResumed
    rw [hc]
    refine if_neg ?_
    cases c.counter <;> exact Bool.false_ne_true
  rw [State.lcResume_eq, State.marginsRead_of_nil hm, State.countersAhead_of_le hk]
  show (s.changeResumed []).lcApply = _
  rw [hresumed]
  exact State.lcApply_of_none hl

/-- What the copies' reconciliation leaves of Heartwood's state. -/
theorem State.reconciled_frame (s : State) (ahead : List Nat) :
    (s.reconciled ahead).sec.change = s.sec.change ∧ (s.reconciled ahead).sec.margin = s.sec.margin ∧
      (s.reconciled ahead).sec.lcTo = s.sec.lcTo := by
  unfold State.reconciled State.each
  induction ahead generalizing s with
  | nil => exact ⟨rfl, rfl, rfl⟩
  | cons k l ih => exact ih _

/-- The counters can hold one step more than their limit's last. -/
theorem get_otpCounter_step {k : Nat} (hk : k < 3) (h : s.get (otpCounter k) < otpLimit k) :
    (s.set (otpCounter k) (s.get (otpCounter k) + 1)).get (otpCounter k) = s.get (otpCounter k) + 1 := by
  have hw : (otpCounter k).hi < 64 ∧ (otpCounter k).lo ≤ (otpCounter k).hi + 1 ∧
      otpLimit k < 2 ^ ((otpCounter k).hi + 1 - (otpCounter k).lo) := by
    match k, hk with
    | 0, _ => decide
    | 1, _ => decide
    | 2, _ => decide
  rw [State.get_set _ _ _ hw.1 hw.2.1, Nat.mod_eq_of_lt (Nat.lt_of_le_of_lt h hw.2.2)]

/-- An interrupted key install whose cell was left unclean is made: the cell reads as programmed, so its counter is ahead. -/
theorem State.lcResume_makes {c : Change} {k n : Nat} {d b : List Byte} (hc : s.sec.change = some c) (hl : s.sec.lcTo = none) (hk : k < 3)
    (hcount : c.counter = some k) (hlc : c.lc = none) (hkey : c.key = some (n, d, b)) (hm : s.sec.margin = [k])
    (hlim : s.get (otpCounter k) < otpLimit k) (hcopy : mapGet 0 s.sec.copies k = s.get (otpCounter k)) :
    let t := s.lcResume
    t.sec.change = none ∧ t.sec.margin = [] ∧ mapGet? t.sec.owners n = some { digest := d, valid := false } ∧
      t.get Fd.HWD_STAT.KEY_PENDING = 1 ∧ t.get Fd.HWD_CNT.PENDING_INDEX = n % 8 := by
  intro t
  have hread : s.marginsRead = (s.set (otpCounter k) (s.get (otpCounter k) + 1)).modSec fun x => { x with margin := [] } := by
    unfold State.marginsRead State.each
    rw [hm]
    dsimp only [List.foldl_cons, List.foldl_nil]
    unfold State.otpUnclean State.otpProgram
    rw [if_pos hlim]
  generalize hu : s.marginsRead = u at hread
  have hsec : u.sec = { s.sec with margin := [] } := by rw [hread]; rfl
  have hahead : k ∈ u.countersAhead := by
    unfold State.countersAhead
    refine List.mem_filter.mpr ⟨List.mem_range.mpr hk, decide_eq_true ?_⟩
    have hget : u.get (otpCounter k) = s.get (otpCounter k) + 1 := by
      rw [hread, State.modSec_get]
      exact get_otpCounter_step hk hlim
    rw [hget, hsec, hcopy]
    exact Nat.lt_succ_self _
  obtain ⟨rchange, rmargin, rlc⟩ := u.reconciled_frame u.countersAhead
  generalize hv : u.reconciled u.countersAhead = v at rchange rmargin rlc
  have hresumed : v.changeResumed u.countersAhead = v.changeStands c := by
    unfold State.changeResumed
    rw [rchange, hsec, hc]
    refine if_pos ?_
    rw [hcount]
    exact List.contains_iff_mem.mpr hahead
  obtain ⟨achange, amargin, alc, akey, -⟩ := v.changeStands_after c
  have ht : t = v.changeStands c := by
    have e : t = ((u.reconciled u.countersAhead).changeResumed u.countersAhead).lcApply := by rw [← hu]; exact s.lcResume_eq
    rw [e, hv, hresumed]
    refine State.lcApply_of_none ?_
    rw [alc, hlc, rlc, hsec]
    exact hl
  obtain ⟨kowner, -, kpend⟩ := akey n d b hkey
  obtain ⟨-, kp, ki⟩ := kpend hlc
  rw [ht]
  exact ⟨achange, by rw [amargin, rmargin, hsec], by rw [kowner, hlc]; rfl, kp, ki⟩

/-- Settles O47: each row through the checks common to all and the owner's authorisation; what a change leaves, and what a start makes of an
interrupted one. -/
theorem ownerCommands : Obligations.OwnerCommands := by
  unfold Obligations.OwnerCommands
  refine ⟨?rows, ?goes, fun s m new e => ⟨fun h3 h4 hf => State.lcAccept_of_full h3 h4 hf, State.lcAccept_of_room⟩, ?step, ?resume,
    fun s m code req f hl hn => State.authorised_of_none hl hn⟩
  case rows =>
    intro s m e hr req u seq
    refine ⟨fun hc target ht => ⟨fun hto hz => ⟨fun hl h ha => congrArg Host.Outcome.next (State.lcChange_of_owner hr hc ht hto hz hl h ha),
      fun hl h => congrArg Host.Outcome.next (State.lcChange_of_free hr hc ht hto hz hl h)⟩, fun hl => ?unknown⟩, ?provision, ?rotate, ?image, ?debug⟩
    case unknown =>
      obtain ⟨h132, h4⟩ := State.lcChange_of_unknown (e := e) hc ht hl
      exact ⟨fun h => congrArg Host.Outcome.next (h132 h), fun h => congrArg Host.Outcome.next (h4 h)⟩
    case provision =>
      intro h hlc hto hc k d hk hz hcert
      refine congrArg Host.Outcome.next ((State.changeRow_of_none hc).trans ((State.mbxRow_of_served h ?_ (.inl hr)).trans
        (State.installKey_of_good hk hz hcert)))
      rw [hlc, hto]
      rfl
    case rotate =>
      intro h hl hp hc ha k d hk hz hcert
      refine congrArg Host.Outcome.next ((State.changeRow_of_none hc).trans ((State.mbxRow_of_served h ?_ (.inl hr)).trans
        ((State.authorised_of_allowed ha).trans ?_)))
      · rw [hl, (s.on_eq_false_iff _).mpr hp]
        rfl
      · rw [State.length_served h (by decide)]
        exact State.installKey_of_good hk hz hcert
    case image => exact fun h hl ha hz key hk => congrArg Host.Outcome.next (State.imageKeyInstall_of_open h hl hr ha hz key hk)
    case debug =>
      intro h hl ha
      refine congrArg Host.Outcome.next ((State.mbxRow_of_served h ?_ (.inl hr)).trans (State.authorised_of_allowed ha))
      rcases hl with h | h <;> rw [h] <;> rfl
  case goes =>
    exact fun s m c e hc hm => ⟨fun hp => congrArg Host.Outcome.next (State.changeRow_of_some hc hm hp),
      fun hp => congrArg Host.Outcome.next (State.changeRow_of_some hc hm hp),
      fun hp => congrArg Host.Outcome.next (State.changeRow_of_some hc hm hp)⟩
  case step =>
    intro s c u t
    have ht : t = (s.counterStepped c).changeStands c := s.changeStep_eq c
    obtain ⟨flc, fmem, fregs⟩ := s.counterStepped_frame c
    obtain ⟨achange, -, alc, akey, aregs, amem⟩ := (s.counterStepped c).changeStands_after c
    rw [ht]
    refine ⟨achange, fun lc h => by rw [alc, h]; rfl, fun h => by rw [alc, h]; exact flc, akey, fun h => (aregs h).trans (fregs.trans ?_),
      amem.trans fmem⟩
    unfold u
    cases c.counter <;> rfl
  case resume =>
    exact fun s c hc hl hcopies => ⟨fun hm => State.lcResume_abandons hc hl hcopies hm,
      fun k n d b hk hcount hlc hkey hm hlim hcopy => State.lcResume_makes hc hl hk hcount hlc hkey hm hlim hcopy⟩

end Sys2Proof.Machine
end

section
/-! Events of Heartwood (14.2, 14.4, 14.6-14.8, 17.3): nonces that lapse, tamper conditions, the ends of reset causes, the TAP. -/

namespace Sys2Proof.Machine

variable {s : State}

/-! ### Nonces -/

/-- The first of a list has the least key. -/
def HeadLeast {α : Type} (key : α → Nat) (l : List α) : Prop := ∀ a, l.head? = some a → ∀ b ∈ l, key a ≤ key b

theorem headLeast_insertBy {α : Type} {key : α → Nat} (x : α) {l : List α} (h : HeadLeast key l) : HeadLeast key (insertBy key x l) := by
  cases l with
  | nil =>
    rintro a ⟨⟩ b hb
    exact Nat.le_of_eq (congrArg key (List.mem_singleton.mp hb).symm)
  | cons y l =>
    have hy : ∀ b ∈ y :: l, key y ≤ key b := h y rfl
    unfold insertBy
    split
    · next hlt =>
      rintro a ⟨⟩ b hb
      rcases List.mem_cons.mp hb with rfl | hb
      · exact Nat.le_refl _
      · exact Nat.le_trans (Nat.le_of_lt hlt) (hy b hb)
    · next hle =>
      rintro a ⟨⟩ b hb
      rcases List.mem_cons.mp hb with rfl | hb
      · exact Nat.le_refl _
      · rcases List.mem_cons.mp ((insertBy_perm key x l).mem_iff.mp hb) with rfl | hb
        · exact Nat.not_lt.mp hle
        · exact hy b (List.mem_cons_of_mem _ hb)

theorem headLeast_isort {α : Type} (key : α → Nat) (l : List α) : HeadLeast key (isort key l) := by
  have hfold (l acc : List α) (h : HeadLeast key acc) : HeadLeast key (l.foldl (fun acc a => insertBy key a acc) acc) := by
    induction l generalizing acc with
    | nil => exact h
    | cons x l ih => exact ih _ (headLeast_insertBy x h)
  exact hfold l [] nofun

/-- The times of issue of the nonces that are outstanding. -/
def State.nonceTimes (s : State) : List Nat := (s.sec.boxes.filterMap fun e => e.2.nonce).map (·.2)

theorem State.mem_nonceTimes {t : Nat} : t ∈ s.nonceTimes ↔ ∃ e ∈ s.sec.boxes, ∃ n, e.2.nonce = some (n, t) := by
  unfold State.nonceTimes
  rw [List.mem_map]
  refine ⟨?_, fun ⟨e, he, n, hn⟩ => ⟨(n, t), List.mem_filterMap.mpr ⟨e, he, hn⟩, rfl⟩⟩
  rintro ⟨⟨n, t⟩, hmem, rfl⟩
  obtain ⟨e, he, hn⟩ := List.mem_filterMap.mp hmem
  exact ⟨e, he, n, hn⟩

theorem isort_of_least {l : List Nat} {t : Nat} (ht : t ∈ l) (hmin : ∀ x ∈ l, t ≤ x) : ∃ rest, isort id l = t :: rest := by
  cases h : isort id l with
  | nil => exact absurd (h ▸ mem_isort.mpr ht : t ∈ []) List.not_mem_nil
  | cons a rest =>
    have ha : a ∈ l := mem_isort.mp (h ▸ List.mem_cons_self : a ∈ isort id l)
    have hle : a ≤ t := headLeast_isort id l a (by rw [h]; rfl) t (mem_isort.mpr ht)
    exact ⟨rest, by rw [Nat.le_antisymm hle (hmin a ha)]⟩

/-- A mailbox whose nonce of an age lapses. -/
def MailboxSt.lapsed (t : Nat) (b : MailboxSt) : MailboxSt := if b.nonce.any (fun v => v.2 ≤ t) then { b with nonce := none } else b

theorem State.nonceLapse_of_least {t : Nat} (ht : t ∈ s.nonceTimes) (hmin : ∀ x ∈ s.nonceTimes, t ≤ x) :
    s.nonceLapse = (s.atTime (s.now + (t + 600000000000 - s.hwTime))).modSec fun x => { x with
      boxes := (s.sec.boxes.map fun e => (e.1, e.2.lapsed t)).filter fun e => decide (e.2 ≠ {}) } := by
  obtain ⟨rest, h⟩ := isort_of_least ht hmin
  unfold State.nonceTimes at h
  unfold State.nonceLapse
  dsimp only
  rw [h]
  rfl

theorem State.nonceLapse_of_none (h : ∀ e, e ∈ s.sec.boxes → e.2.nonce = none) : s.nonceLapse = s := by
  have hnone : (s.sec.boxes.filterMap fun e => e.2.nonce) = [] := List.filterMap_eq_nil_iff.mpr h
  unfold State.nonceLapse
  dsimp only
  rw [hnone]
  rfl

/-! ### Tamper conditions -/

theorem tamperCode_eq (k : Nat) : tamperCode k = if k < 3 then 3 else if k = 5 then 1 else 2 := by
  unfold tamperCode
  simp only [beq_iff_eq]

/-- The record of a condition that arises: its bits, its count, its audit entry. -/
def State.tamperSeen (s : State) (k : Nat) : State :=
  ((((s.set Fd.HWD_TAMPER.ACTIVE (setBits (s.get Fd.HWD_TAMPER.ACTIVE) k k 1)).set Fd.HWD_TAMPER.SEEN
    (setBits (s.get Fd.HWD_TAMPER.SEEN) k k 1)).inc Fd.HWD_TAMPER_CNT.COUNT).modSec fun x =>
      { x with active := setBits x.active k k 1, absentAt := mapDel x.absentAt k }).audit 0x0020 (2 ^ k) (tamperCode k)

/-- The response of a condition (R453). -/
def State.tamperAnswered (s : State) (k : Nat) : State :=
  if k < 3 then s.zeroise
  else if k = 5 then (if s.get Fd.HWD_IRQ_SRC.ALERT_EN = 0 then s else s.pulse (s.get Fd.HWD_IRQ_SRC.ALERT_SRC))
  else (s.enterReset kindWarm srcSensor 1).modCoh fun x => { x with wiping := true }

theorem State.tamper_of_new {k : Nat} (ha : s.alwaysOn = true) (hn : bitOf s.sec.active k = false) (h7 : k ≠ 7 ∨ s.macTamper = true) :
    s.tamper k = (s.tamperSeen k).tamperAnswered k := by
  have hgo : (!s.alwaysOn || bitOf s.sec.active k || (k == 7 && !s.macTamper)) = false := by
    rw [ha, hn]
    rcases h7 with h | h <;> simp [h]
  unfold State.tamper State.tamperAnswered
  rw [if_neg (Bool.not_eq_true _ ▸ hgo)]
  dsimp only
  rw [tamperCode_eq]
  by_cases h3 : k < 3
  · rw [if_pos h3, if_pos h3]
    unfold State.tamperSeen
    rw [tamperCode_eq, if_pos h3]
    rfl
  · rw [if_neg h3, if_neg h3]
    unfold State.tamperSeen
    rw [tamperCode_eq, if_neg h3]
    by_cases h5 : k = 5
    · rw [if_pos h5, if_pos h5]
      exact State.ite_on ..
    · rw [if_neg h5, if_neg h5]
      rfl

/-! ### The ends of reset causes -/

theorem maxL_map {α : Type} (l : List α) (f : α → Nat) : maxL (l.map f) = l.foldl (fun a k => max a (f k)) 0 := by
  unfold maxL
  rw [List.foldl_map]

theorem State.absentFor_of_absent {code d : Nat} (h : ∀ k ∈ tamperBits code, bitOf s.sec.active k = false) :
    s.absentFor code d = some ((tamperBits code).foldl (fun a k => max a (mapGet 0 s.sec.absentAt k)) 0 + d) := by
  unfold State.absentFor
  rw [if_neg, maxL_map]
  rw [List.any_eq_true]
  exact fun ⟨k, hk, hb⟩ => Bool.false_ne_true ((h k hk).symm.trans hb)

theorem State.absentFor_of_present {code d k : Nat} (hk : k ∈ tamperBits code) (h : bitOf s.sec.active k = true) : s.absentFor code d = none :=
  if_pos (List.any_eq_true.mpr ⟨k, hk, h⟩)

theorem tamperBits_reset : tamperBits 2 = [3, 4, 6, 7] := by decide

theorem tamperBits_zeroise : tamperBits 3 = [0, 1, 2] := by decide

theorem State.sensorHoldEnd_of_absent {t : Nat} (hh : srcSensor ∈ s.power.rstHeld) (ht : s.absentFor 2 100000000 = some t) :
    s.sensorHoldEnd = (((s.atTime t).modPower fun p => { p with rstHeld := p.rstHeld.filter (· != srcSensor) }).releaseIfFree) := by
  unfold State.sensorHoldEnd
  rw [if_neg (by simp [hh]), ht]
  rfl

theorem State.sensorHoldEnd_of_present (ht : s.absentFor 2 100000000 = none) : s.sensorHoldEnd = s := by
  unfold State.sensorHoldEnd
  rw [ht]
  exact ite_self _

theorem State.heartwoodRestart_of_absent {t : Nat} (hh : srcZeroise ∈ s.power.rstHeld) (ht : s.absentFor 3 1000000000 = some t)
    (hp : s.phase ≠ .rising) : s.heartwoodRestart = { ((s.atTime t).modPower fun p => { p with
      rstHeld := p.rstHeld.filter (· != srcZeroise) }) with start := { phase := .rom } } := by
  unfold State.heartwoodRestart
  rw [if_neg (by simp [hh]), ht]
  exact if_neg (mt beq_iff_eq.mp hp)

theorem State.heartwoodRestart_of_present (ht : s.absentFor 3 1000000000 = none) : s.heartwoodRestart = s := by
  unfold State.heartwoodRestart
  rw [ht]
  exact ite_self _

theorem State.resetRelease_eq (s : State) :
    s.resetRelease = (s.modPower fun p => { p with
      rstHeld := p.rstHeld.filter fun c => c != srcRstN && c != srcPowerFail && c != srcPwrCtl && c != srcLifecycle }).releaseIfFree := by
  have hheld : ((s.endCause srcRstN).endCause srcPowerFail |>.endCause srcPwrCtl |>.endCause srcLifecycle) = s.modPower fun p => { p with
      rstHeld := p.rstHeld.filter fun c => c != srcRstN && c != srcPowerFail && c != srcPwrCtl && c != srcLifecycle } := by
    unfold State.endCause State.modPower
    simp only [List.filter_filter]
    refine congrArg (fun l => { s with power := { s.power with rstHeld := l } }) (List.filter_congr fun c _ => ?_)
    cases c != srcRstN <;> cases c != srcPowerFail <;> cases c != srcPwrCtl <;> cases c != srcLifecycle <;> rfl
  unfold State.resetRelease
  rw [hheld]

/-! ### The TAP -/

theorem scanHolds_iff (c : Nat) : scanHolds c = true ↔ c = 0x00 ∨ c = 0x03 ∨ c = 0x04 ∨ c = 0x05 := by
  simp [scanHolds]

theorem State.tapLoad_of_on {code : Nat} (h : s.alwaysOn = true) :
    s.tapLoad code = if s.tapCode code = 0x00 ∨ s.tapCode code = 0x03 ∨ s.tapCode code = 0x04 ∨ s.tapCode code = 0x05
      then ((s.modSec fun x => { x with tapInstr := s.tapCode code }).audit 0x0032 (s.tapCode code) 0).enterReset kindWarm srcScan 1
      else ((s.modSec fun x => { x with tapInstr := s.tapCode code }).endCause srcScan).releaseIfFree := by
  unfold State.tapLoad
  rw [if_neg (by rw [h]; decide)]
  exact ite_of_iff (scanHolds_iff _) rfl rfl

/-- Settles O48: each event at the case that the statement names. -/
theorem heartwoodEvents : Obligations.HeartwoodEvents := by
  unfold Obligations.HeartwoodEvents
  intro s
  refine ⟨?lapse, fun h => congrArg Host.Outcome.next (State.nonceLapse_of_none h), ?lifecycle, ?tamper, ?absent, ?sensor, ?restart,
    fun h => congrArg Host.Outcome.next (if_pos ((s.on_eq_true_iff _).mpr h)),
    fun h => congrArg Host.Outcome.next (if_neg (by rw [(s.on_eq_false_iff _).mpr h]; decide)), rfl,
    fun code h => congrArg Host.Outcome.next (State.tapLoad_of_on h), congrArg Host.Outcome.next s.resetRelease_eq⟩
  case lapse =>
    intro e n t he hn hmin lapsed
    have hl : lapsed = MailboxSt.lapsed t := by
      funext b
      unfold lapsed MailboxSt.lapsed
      rcases b.nonce with _ | ⟨n', t'⟩
      · rfl
      · exact ite_of_iff (by simp) rfl rfl
    rw [hl]
    refine congrArg Host.Outcome.next (State.nonceLapse_of_least (State.mem_nonceTimes.mpr ⟨e, he, n, hn⟩) fun x hx => ?_)
    obtain ⟨o, ho, n', hn'⟩ := State.mem_nonceTimes.mp hx
    exact hmin o n' x ho hn'
  case lifecycle =>
    intro lc h
    exact congrArg Host.Outcome.next (if_neg (by rw [h]; exact Bool.false_ne_true))
  case tamper =>
    intro k ha hn h7
    refine congrArg Host.Outcome.next ((State.tamper_of_new ha hn h7).trans ?_)
    unfold State.tamperSeen
    rw [tamperCode_eq]
    rfl
  case absent => exact fun k h => congrArg Host.Outcome.next (if_neg (by rw [h]; decide))
  case sensor =>
    intro hh last
    refine ⟨fun h3 h4 h6 h7 => congrArg Host.Outcome.next (State.sensorHoldEnd_of_absent hh ?_),
      fun hp => congrArg Host.Outcome.next (State.sensorHoldEnd_of_present ?_)⟩
    · rw [State.absentFor_of_absent, tamperBits_reset]
      rw [tamperBits_reset]
      simp [h3, h4, h6, h7]
    · rcases hp with h | h | h | h <;> exact State.absentFor_of_present (by decide) h
  case restart =>
    intro hh last
    refine ⟨fun h0 h1 h2 hp => congrArg Host.Outcome.next (State.heartwoodRestart_of_absent hh ?_ hp),
      fun hp => congrArg Host.Outcome.next (State.heartwoodRestart_of_present ?_)⟩
    · rw [State.absentFor_of_absent, tamperBits_zeroise]
      rw [tamperBits_zeroise]
      simp [h0, h1, h2]
    · rcases hp with h | h | h <;> exact State.absentFor_of_present (by decide) h

end Sys2Proof.Machine
end

section
/-! The metrology enclave (chapter 15): its own events, the calibration port, and the commands of the main side. -/

namespace Sys2Proof.Machine

variable {s u : State}

/-! ### Events of the enclave -/

theorem State.modMet_congr {f g : MetSt → MetSt} (h : f s.met = g s.met) : s.modMet f = s.modMet g := by
  unfold State.modMet
  rw [h]

theorem State.met_running (h : s.metRuns = true) : s.met.running = true := (Bool.and_eq_true_iff.mp h).2

theorem State.met_mx (h : s.metRuns = true) : s.mx = true := (Bool.and_eq_true_iff.mp h).1

section
variable (hr : s.metRuns = true)
include hr

theorem State.not_metStopped : ¬ (!s.metRuns) = true := by rw [hr]; decide

theorem State.boundary_of_running :
    let u := (s.modMet (·.gateTick)).metStore
    let v := if u.get Fd.CFG_STAT.DONE = 0 then u else u.publish
    s.boundary = if v.metCommand.inReset then v.metCommand else v.metCommand.metWindow := by
  intro u v
  have hv : (if u.on Fd.CFG_STAT.DONE = true then u.publish else u) = v := State.ite_on ..
  unfold State.boundary
  rw [if_neg (State.not_metStopped hr), ← hv]

theorem State.pulseEdge_of_metering (p : Nat) (hm : s.met.metering = true) :
    s.pulseEdge p = s.modMet fun x => { x with
      acc := { x.acc with pulses := mapSet 0 x.acc.pulses p (mapGet 0 x.acc.pulses p + 1) }
      gateCnt := mapSet 0 x.gateCnt p (mapGet 0 x.gateCnt p + 1) } := if_neg (by rw [hr, hm]; decide)

theorem State.metPowerFail_of_warning (hp : s.met.pfStored = false) (hw : s.sec.pfHeld = true ∨ s.power.disarmed = true) :
    let u := s.modMet fun x => { x with stored := x.acc, storedAt := s.metClock, pfStored := true }
    s.metPowerFail = u.metLog u.met.events 0x02 0 (mapGet 0 u.met.stored.energy 0) := by
  refine if_neg ?_
  rw [hr, hp]
  rcases hw with h | h <;> simp [h]

theorem State.converterFault_of_change {c : Nat} {bad : Bool} (h : bitOf s.met.faults c = !bad) :
    s.converterFault c bad = (s.metLog s.met.events (if bad then 0x31 else 0x32) (2 ^ c) 0).modMet fun x =>
      { x with faults := setBits x.faults c c (b2n bad) } := by
  refine if_neg ?_
  rw [hr, h]
  cases bad <;> decide

end

theorem State.metCheck_of_equal {crc : Nat} (h : crc = s.met.expected) : s.metCheck crc = s.modMet fun x => { x with checksum := crc } :=
  if_pos (beq_iff_eq.mpr h)

theorem State.metCheck_of_other {crc : Nat} (h : crc ≠ s.met.expected) :
    let u := s.modMet fun x => { x with checksum := crc }
    s.metCheck crc = (u.metLog u.met.events 0x30 crc s.met.expected).modMet fun x => { x with checkErr := true } :=
  if_neg (mt beq_iff_eq.mp h)

/-! #### The start -/

/-- What a check of the code area, a pick of the parameters and a log entry leave of the enclave. -/
structure MetSt.Kept (x y : MetSt) : Prop where
  acc     : y.acc = x.acc
  running : y.running = x.running
  slots   : y.slots = x.slots
  cmd     : y.cmd = x.cmd
  pfreq   : y.pfreq = x.pfreq

theorem MetSt.Kept.trans {x y z : MetSt} (h : x.Kept y) (k : y.Kept z) : x.Kept z :=
  ⟨k.acc.trans h.acc, k.running.trans h.running, k.slots.trans h.slots, k.cmd.trans h.cmd, k.pfreq.trans h.pfreq⟩

theorem MetSt.pickParams_kept (x : MetSt) : x.Kept x.pickParams := by
  unfold MetSt.pickParams
  dsimp only
  split
  · exact ⟨rfl, rfl, rfl, rfl, rfl⟩
  split
  · exact ⟨rfl, rfl, rfl, rfl, rfl⟩
  split <;> exact ⟨rfl, rfl, rfl, rfl, rfl⟩

theorem State.metLog_kept_met (s : State) (n code arg data : Nat) : s.met.Kept (s.metLog n code arg data).met := ⟨rfl, rfl, rfl, rfl, rfl⟩

theorem State.metCheck_kept_met (s : State) (crc : Nat) : s.met.Kept (s.metCheck crc).met ∧ (s.metCheck crc).met.checksum = crc := by
  unfold State.metCheck
  dsimp only
  split <;> exact ⟨⟨rfl, rfl, rfl, rfl, rfl⟩, rfl⟩

/-- The enclave as its start sets it, before the log entry. -/
def State.metFresh (s : State) (watchdog : Bool) : State :=
  s.modMet fun x => { x with
    running := true, acc := x.stored, useTariff := x.stored.tariff, checkErr := false, pfStored := false, inst := [], second := [], overs := []
    gateN := 0, gateCnt := [], pfreq := [], pendSet := none, written := 0, cmd := none
    lastCmd := { op := 0, tag := 0, arg := 0 }, lastResult := 0, snapSeq := 0, snapTime := 0, snap := [], logOut := []
    clockOfs := if x.backup || watchdog then x.clockOfs else (x.storedAt : Int) - s.now
    clockValid := x.clockValid && (x.backup || watchdog) }

/-- The log entry of a start and the parameters that it picks. -/
def State.metLogged (s : State) (watchdog : Bool) : State :=
  let u := s.metFresh watchdog
  (u.metLog u.met.events 0x01 (b2n watchdog) u.met.storedAt).modMet (·.pickParams)

theorem State.metStart_eq (s : State) (watchdog : Bool) (crc : Nat) :
    s.metStart watchdog crc =
      ((s.metLogged watchdog).metCheck crc).modMet fun x => if x.sealed then { x with pendSet := some x.params } else x := rfl

theorem State.metStart_after (s : State) (watchdog : Bool) (crc : Nat) :
    let t := (s.metStart watchdog crc).met
    t.acc = s.met.stored ∧ t.running = true ∧ t.slots = s.met.slots ∧ t.cmd = none ∧ t.pfreq = [] ∧ t.checksum = crc := by
  have hlog : (s.metFresh watchdog).met.Kept (s.metLogged watchdog).met :=
    (State.metLog_kept_met ..).trans (MetSt.pickParams_kept _)
  obtain ⟨hcheck, hsum⟩ := (s.metLogged watchdog).metCheck_kept_met crc
  obtain ⟨hacc, hrun, hslots, hcmd, hpf⟩ := hlog.trans hcheck
  have hseal (v : State) : v.met.Kept (v.modMet fun x => if x.sealed then { x with pendSet := some x.params } else x).met ∧
      (v.modMet fun x => if x.sealed then { x with pendSet := some x.params } else x).met.checksum = v.met.checksum := by
    unfold State.modMet
    dsimp only
    split <;> exact ⟨⟨rfl, rfl, rfl, rfl, rfl⟩, rfl⟩
  rw [State.metStart_eq]
  obtain ⟨⟨tacc, trun, tslots, tcmd, tpf⟩, tsum⟩ := hseal ((s.metLogged watchdog).metCheck crc)
  exact ⟨tacc.trans hacc, trun.trans hrun, tslots.trans hslots, tcmd.trans hcmd, tpf.trans hpf, tsum.trans hsum⟩

/-- Settles O49: each event while the enclave runs, what a start leaves, and nothing while it does not run. -/
theorem enclaveEvents : Obligations.EnclaveEvents := by
  unfold Obligations.EnclaveEvents
  intro s
  refine ⟨fun hr => ⟨congrArg Host.Outcome.next (State.boundary_of_running hr), fun a b c d => congrArg Host.Outcome.next (if_neg (State.not_metStopped hr)),
    fun p hm => congrArg Host.Outcome.next (State.pulseEdge_of_metering hr p.val hm),
    fun hp hw => congrArg Host.Outcome.next (State.metPowerFail_of_warning hr hp hw), fun hp => congrArg Host.Outcome.next (if_neg ?recovered),
    fun crc => congrArg Host.Outcome.next (if_pos hr), ?check, fun ch h => congrArg Host.Outcome.next (State.converterFault_of_change hr h),
    fun ch h => congrArg Host.Outcome.next (State.converterFault_of_change hr h), congrArg Host.Outcome.next (if_pos hr)⟩, ?start,
    fun w crc => s.metStart_after w crc, ?stopped⟩
  case recovered => rw [hr, hp]; decide
  case check =>
    intro crc u
    have hexec : exec (.checksumCheck crc) s = .next (s.metCheck crc.toNat) := congrArg Host.Outcome.next (if_pos hr)
    exact ⟨fun h => hexec.trans (congrArg Host.Outcome.next (State.metCheck_of_equal h)),
      fun h => hexec.trans (congrArg Host.Outcome.next (State.metCheck_of_other h))⟩
  case start =>
    intro crc hmx hrun hfeed
    refine congrArg Host.Outcome.next (if_neg ?_)
    rw [hmx, hrun]
    rcases hfeed with h | h <;> simp [h]
  case stopped =>
    intro hr
    have hstop : (!s.metRuns) = true := by rw [hr]; rfl
    exact ⟨congrArg Host.Outcome.next (if_pos hstop), congrArg Host.Outcome.next (if_pos (by rw [hstop]; rfl)),
      fun fs p => ⟨congrArg Host.Outcome.next (if_pos hstop), congrArg Host.Outcome.next (if_pos (by rw [hstop]; rfl))⟩⟩

end Sys2Proof.Machine
end

section
/-! The calibration port of the enclave and the commands of the main side (R481-R487). -/

namespace Sys2Proof.Machine

variable {s u : State}

/-! ### The seal -/

theorem State.sealOn_of_open (hr : s.metRuns = true) (ho : s.met.sealed = false) :
    s.sealOn = (s.metLog s.met.events 0x20 0 0).modMet fun x => { x with sealed := true, pendSet := some x.params, written := 0 } := by
  have hrun : (s.metLog s.met.events 0x20 0 0).met.running = true := State.met_running hr
  unfold State.sealOn
  rw [if_neg (by rw [State.met_mx hr, ho]; decide), if_pos (State.met_running hr)]
  exact State.modMet_congr (by rw [if_pos hrun])

theorem State.dropPending_of_none (hw : s.met.written = 0) :
    s.dropPending = s.modMet fun x => { x with pendSet := if x.sealed then some x.params else none, written := 0 } := by
  unfold State.dropPending
  rw [if_pos (beq_iff_eq.mpr hw)]

theorem State.dropPending_of_some (hw : s.met.written ≠ 0) (hs : s.met.sealed = true) :
    s.dropPending = (s.metLog s.met.events 0x23 s.met.written 0).modMet fun x => { x with pendSet := some x.params, written := 0 } := by
  have hlog : (s.metLog s.met.events 0x23 s.met.written 0).met.sealed = true := hs
  unfold State.dropPending
  rw [if_neg (mt beq_iff_eq.mp hw)]
  exact State.modMet_congr (by rw [if_pos hlog])

theorem State.sealOff_of_unwritten (hr : s.metRuns = true) (hs : s.met.sealed = true) (hw : s.met.written = 0) :
    s.sealOff = (s.metLog s.met.events 0x21 0 0).modMet fun x => { x with sealed := false, pendSet := none, written := 0 } := by
  have hopen : ((s.metLog s.met.events 0x21 0 0).modMet fun x => { x with sealed := false }).met.written = 0 := hw
  unfold State.sealOff
  rw [if_neg (by rw [State.met_mx hr, hs]; decide), if_neg (by rw [State.met_running hr]; decide)]
  exact State.dropPending_of_none hopen

/-! ### The frames of the calibration port -/

section
variable (hr : s.metRuns = true)
include hr

theorem State.calIdent_of_running :
    s.calIdent = s.calReply 1 0 (leBytes 2 s.met.version ++ leBytes 4 s.met.checksum ++ leBytes 1 s.met.events ++
      leBytes 8 (s.reg Rg.HWD_SERIAL_LO) ++ leBytes 8 (s.reg Rg.HWD_SERIAL_HI)) := by
  unfold State.calIdent State.serial
  rw [if_neg (State.not_metStopped hr), ← List.append_assoc]

theorem State.calRead_of_reserved {i : Nat} (h : paramRange i = none) : s.calRead i = s.calReply 2 2 [] := by
  unfold State.calRead
  rw [if_neg (State.not_metStopped hr), if_pos (Option.isNone_iff_eq_none.mpr h)]

theorem State.calRead_of_range {i : Nat} (h : paramRange i ≠ none) : s.calRead i = s.calReply 2 0 (leBytes 4 (mapGet 0 s.met.params i)) := by
  unfold State.calRead
  rw [if_neg (State.not_metStopped hr), if_neg (mt Option.isNone_iff_eq_none.mp h)]
  rfl

theorem State.calWrite_of_open (i v : Nat) (h : s.met.sealed = false) : s.calWrite i v = s.calReply 3 1 [] := by
  unfold State.calWrite
  rw [if_neg (State.not_metStopped hr), if_pos (by rw [h]; rfl)]

theorem State.calWrite_of_reserved {i : Nat} (v : Nat) (hs : s.met.sealed = true) (h : paramRange i = none) :
    s.calWrite i v = s.calReply 3 2 [] := by
  unfold State.calWrite
  rw [if_neg (State.not_metStopped hr), if_neg (by rw [hs]; decide)]
  simp only [h]

theorem State.calWrite_of_range {i lo hi : Nat} (v : Nat) (hs : s.met.sealed = true) (h : paramRange i = some (lo, hi)) :
    s.calWrite i v = if !(fLe f32 lo v && fLe f32 v hi) then s.calReply 3 2 [] else
      (s.modMet fun x => { x with
        pendSet := some (mapSet 0 (x.pendSet.getD x.params) i v), written := x.written + 1 }).calReply 3 0 [] := by
  unfold State.calWrite
  rw [if_neg (State.not_metStopped hr), if_neg (by rw [hs]; decide)]
  simp only [h]

theorem State.calWrite_of_inside {i lo hi v : Nat} (hs : s.met.sealed = true) (h : paramRange i = some (lo, hi))
    (hlo : fLe f32 lo v = true) (hhi : fLe f32 v hi = true) :
    s.calWrite i v = (s.modMet fun x => { x with
      pendSet := some (mapSet 0 (x.pendSet.getD x.params) i v), written := x.written + 1 }).calReply 3 0 [] := by
  rw [State.calWrite_of_range hr v hs h, if_neg (by rw [hlo, hhi]; decide)]

theorem State.calWrite_of_outside {i lo hi v : Nat} (hs : s.met.sealed = true) (h : paramRange i = some (lo, hi))
    (hout : fLe f32 lo v = false ∨ fLe f32 v hi = false) : s.calWrite i v = s.calReply 3 2 [] := by
  rw [State.calWrite_of_range hr v hs h, if_pos]
  rcases hout with h | h <;> simp [h]

theorem State.calCommit_of_open (h : s.met.sealed = false) : s.calCommit = s.calReply 4 1 [] := by
  unfold State.calCommit
  rw [if_neg (State.not_metStopped hr), if_pos (by rw [h]; rfl)]

theorem State.calAbort_of_open (h : s.met.sealed = false) : s.calAbort = s.calReply 5 1 [] := by
  unfold State.calAbort
  rw [if_neg (State.not_metStopped hr), if_pos (by rw [h]; rfl)]

theorem State.calAbort_of_written (hs : s.met.sealed = true) (hw : s.met.written ≠ 0) :
    s.calAbort = ((s.metLog s.met.events 0x23 s.met.written 0).modMet fun x =>
      { x with pendSet := some x.params, written := 0 }).calReply 5 0 [] := by
  unfold State.calAbort
  rw [if_neg (State.not_metStopped hr), if_neg (by rw [hs]; decide), State.dropPending_of_some hw hs]

theorem State.calCommit_of_exhausted (hs : s.met.sealed = true) (hn : s.met.slots.length = 32) :
    s.calCommit = (s.metLog 32 0x24 0 0).calReply 4 3 [] := by
  have hev : s.met.events = 32 := hn
  unfold State.calCommit
  rw [if_neg (State.not_metStopped hr), if_neg (by rw [hs]; decide), if_pos (Nat.le_of_eq hev.symm), hev]

end

/-- The pending set becomes the copy that is not in use, and that copy is used (R484). -/
def State.calCopied (s : State) (t : Table Nat) : State :=
  s.modMet fun x => if x.useB then { x with copyA := t, useB := false } else { x with copyB := t, useB := true }

/-- The slot of a commit is consumed, with the log entry before it. -/
def State.calConsumed (s : State) (k : Nat) (t : Table Nat) : State :=
  let u := s.metLog (k + 1) 0x22 k (paramCrc t)
  u.modMet fun x => { x with slots := x.slots ++ [(u.metClock, paramCrc t)], params := t, pendSet := some t, written := 0 }

theorem State.calCommit_of_pending {p : Table Nat} (hr : s.metRuns = true) (hs : s.met.sealed = true) (hp : s.met.pendSet = some p)
    (hn : s.met.slots.length < 32) :
    s.calCommit = ((s.calCopied p).calConsumed s.met.events p).calReply 4 0 (leBytes 1 s.met.events) := by
  have hroom : ¬ 32 ≤ s.met.events := Nat.not_le.mpr hn
  unfold State.calCommit
  rw [if_neg (State.not_metStopped hr), if_neg (by rw [hs]; decide), if_neg hroom]
  simp only [hp, Option.getD_some]
  rfl

theorem State.calCopied_after (s : State) (p : Table Nat) :
    let t := s.calCopied p
    t.met.slots = s.met.slots ∧ t.met.acc = s.met.acc ∧ t.met.active = s.met.active ∧ t.metClock = s.metClock ∧
      if s.met.useB = true then t.met.copyA = p ∧ t.met.copyB = s.met.copyB else t.met.copyB = p ∧ t.met.copyA = s.met.copyA := by
  unfold State.calCopied State.modMet State.metClock
  cases hb : s.met.useB <;> simp [hb]

theorem State.calConsumed_after (s : State) (k : Nat) (p : Table Nat) :
    let t := (s.calConsumed k p).met
    t.params = p ∧ t.slots = s.met.slots ++ [(s.metClock, paramCrc p)] ∧ t.written = 0 ∧ t.acc = s.met.acc ∧ t.active = s.met.active ∧
      t.copyA = s.met.copyA ∧ t.copyB = s.met.copyB := ⟨rfl, rfl, rfl, rfl, rfl, rfl, rfl⟩

theorem State.calLogRead_of_running (hr : s.metRuns = true) (q : Nat) :
    s.calLogRead q = s.calReply 6 0 (((s.met.log.reverse.filter fun e => q ≤ fieldB e 0 4).take 4).flatten) :=
  if_neg (State.not_metStopped hr)

theorem State.calMeasure_of_running (hr : s.metRuns = true) (f : Nat) :
    s.calMeasure f = if f < 4 then s.calReply 7 0 ((List.range 7).flatMap fun j => leBytes 4 (mapGet 0 s.met.second (7 * f + j)))
      else s.calReply 7 2 [] := by
  unfold State.calMeasure
  rw [if_neg (State.not_metStopped hr)]
  by_cases hf : f < 4
  · rw [if_neg (Nat.not_le.mpr hf), if_pos hf]
  · rw [if_pos (Nat.le_of_not_lt hf), if_neg hf]

/-! ### The commands of the main side -/

theorem accepted_mx (s : State) (r : Requester) : (accepted s r).mx = s.mx := by
  rcases accepted_cases s r with e | e <;> rw [e] <;> rfl

theorem State.metWrite_of_mx (r : Requester) (op tag arg : Nat) (hmx : s.mx = true) (he : s.isE r = true) :
    s.metWrite r op tag arg = if s.get Fd.MET_CMD_STAT.BUSY = 0 then
      (s.set Fd.MET_CMD_STAT.BUSY 1).modMet fun x => { x with cmd := some { op := op, tag := tag, arg := arg } } else s := by
  unfold State.metWrite
  rw [hmx, he]
  exact State.ite_on ..

theorem exec_of_admitted_metWrite {c : Instr} {r : Requester} {op tag arg : Nat} (ha : Admitted s r Rg.MET_CMD 8) (hmx : s.mx = true)
    (he : (accepted s r).isE r = true) (hrow : exec c s = .next (s.regWriteAt r Rg.MET_CMD 8 fun s => s.metWrite r op tag arg)) :
    exec c s = .next (if (accepted s r).get Fd.MET_CMD_STAT.BUSY = 0 then
      ((accepted s r).set Fd.MET_CMD_STAT.BUSY 1).modMet fun x => { x with cmd := some { op := op, tag := tag, arg := arg } }
      else accepted s r) :=
  (exec_of_admitted ha hrow).trans
    (congrArg Host.Outcome.next (State.metWrite_of_mx r op tag arg ((accepted_mx s r).trans hmx) he))

section
variable (ho : s.met.sealed = false) (arg : Nat)
include ho

theorem State.metServe_snapshot :
    s.metServe { op := 1, tag := 0, arg := 0 } = (0, s.modMet fun x => { x with
      snap := x.acc.energy, snapSeq := (x.snapSeq + 1) % 2 ^ 32, snapTime := s.metClock }) := by
  unfold State.metServe
  rw [ho] <;> rfl

theorem State.metServe_log :
    s.metServe { op := 2, tag := 0, arg := arg } = (0, s.modMet fun x => { x with logOut := x.entries arg 16 }) := by
  unfold State.metServe
  rw [ho] <;> rfl

theorem State.metServe_time : s.metServe { op := 3, tag := 0, arg := arg } = s.timeSet arg := by
  unfold State.metServe
  rw [ho] <;> rfl

theorem State.metServe_tariff :
    s.metServe { op := 4, tag := 0, arg := arg } = if 3 < arg then (2, s) else if arg == s.met.acc.tariff then (0, s)
      else (0, (s.metLog s.met.events 0x12 (s.met.acc.tariff + 256 * arg) 0).modMet fun x => { x with acc := { x.acc with tariff := arg } }) := by
  unfold State.metServe
  rw [ho] <;> rfl

end

/-- Settles O50: the seal and each frame of the port while the enclave runs, a command of the main side waiting, and its service. -/
theorem calibrationPort : Obligations.CalibrationPort := by
  unfold Obligations.CalibrationPort
  refine ⟨fun s hr => ⟨fun ho => congrArg Host.Outcome.next (State.sealOn_of_open hr ho),
    fun hs hw => congrArg Host.Outcome.next (State.sealOff_of_unwritten hr hs hw), congrArg Host.Outcome.next (State.calIdent_of_running hr),
    fun i => ⟨fun h => congrArg Host.Outcome.next (State.calRead_of_reserved hr h),
      fun h => congrArg Host.Outcome.next (State.calRead_of_range hr h)⟩,
    ?write, fun ho => ⟨congrArg Host.Outcome.next (State.calCommit_of_open hr ho), congrArg Host.Outcome.next (State.calAbort_of_open hr ho)⟩,
    fun hs hn => congrArg Host.Outcome.next (State.calCommit_of_exhausted hr hs hn), ?commit,
    fun hs hw => congrArg Host.Outcome.next (State.calAbort_of_written hr hs hw),
    fun q => congrArg Host.Outcome.next (State.calLogRead_of_running hr q.toNat),
    fun f => congrArg Host.Outcome.next (State.calMeasure_of_running hr f.toNat)⟩, ?waits, ?served⟩
  case write =>
    intro i v
    exact ⟨fun ho => congrArg Host.Outcome.next (State.calWrite_of_open hr _ _ ho),
      fun hs h => congrArg Host.Outcome.next (State.calWrite_of_reserved hr _ hs h), fun lo hi hs h =>
      ⟨fun hlo hhi => congrArg Host.Outcome.next (State.calWrite_of_inside hr hs h hlo hhi),
        fun hout => congrArg Host.Outcome.next (State.calWrite_of_outside hr hs h hout)⟩⟩
  case commit =>
    intro p hs hp hn
    obtain ⟨hslots, hacc, hact, hclock, hcopies⟩ := s.calCopied_after p
    obtain ⟨cparams, cslots, cwritten, cacc, cact, cA, cB⟩ := (s.calCopied p).calConsumed_after s.met.events p
    refine ⟨_, congrArg Host.Outcome.next (State.calCommit_of_pending hr hs hp hn), cparams, cslots.trans (by rw [hslots, hclock]),
      cwritten, cacc.trans hacc, cact.trans hact, ?_⟩
    by_cases hb : s.met.useB = true
    · rw [if_pos hb] at hcopies ⊢
      exact ⟨cA.trans hcopies.1, cB.trans hcopies.2⟩
    · rw [if_neg hb] at hcopies ⊢
      exact ⟨cB.trans hcopies.1, cA.trans hcopies.2⟩
  case waits =>
    intro s r tag arg ha hmx he
    exact ⟨exec_of_admitted_metWrite ha hmx he rfl, exec_of_admitted_metWrite ha hmx he rfl, exec_of_admitted_metWrite ha hmx he rfl,
      exec_of_admitted_metWrite ha hmx he rfl⟩
  case served =>
    intro s arg ho
    refine ⟨State.metServe_snapshot ho, State.metServe_log ho arg, State.metServe_time ho arg,
      fun h => (State.metServe_tariff ho arg).trans (if_pos h), fun hle hne => (State.metServe_tariff ho arg).trans ?_⟩
    exact (if_neg (Nat.not_lt.mpr hle)).trans (if_neg (mt beq_iff_eq.mp hne))

end Sys2Proof.Machine
end

section
/-! The host interface (chapter 16): link and function resets, host writes, snapshots, and what cores at E level configure. -/

namespace Sys2Proof.Machine

variable {s u : State}

/-! ### The link -/

theorem State.linkUp_of_speed {speed : Nat} (x8 : Bool) (hres : s.inReset = false) (hsp : speed ≠ 0) :
    let u := ((s.set Fd.PCI_LINK.UP 1).set Fd.PCI_LINK.SPEED speed).set Fd.PCI_LINK.WIDTH (if x8 then 8 else 4)
    s.linkUp speed x8 = if s.get Fd.PCI_LINK.UP = 0 then u.linkChanged else u := by
  refine (if_neg ?_).trans (State.ite_on ..)
  rw [hres, beq_false_of_ne hsp]
  decide

/-- A tag of the host takes quality 0x08 (R500). -/
def State.hostLost (s : State) (i : Nat) : State := (s.tagStore .host (tagAddr i + 0x18) 1 0x08).2

theorem State.linkDown_of_up (hup : s.get Fd.PCI_LINK.UP ≠ 0) (hreads : s.pci.reads = []) :
    let u := s.setReg Rg.PCI_LINK 0
    s.linkDown = if u.get Fd.PCI_HOST_STAT.STATE = 1 then
      ((u.usedTags.filter fun i => (u.tag i).wKind == 6).foldl State.hostLost u).linkChanged else u.linkChanged := by
  intro u
  have hnone : u.each (u.pci.reads.map (·.1)) (fun s id => s.obEnd id none) = u := by
    have h : u.pci.reads = [] := hreads
    rw [h]
    rfl
  unfold State.linkDown
  rw [if_neg (by rw [(s.on_eq_true_iff _).mpr hup]; decide)]
  dsimp only
  rw [hnone]
  by_cases hst : u.get Fd.PCI_HOST_STAT.STATE = 1
  · rw [if_pos (beq_iff_eq.mpr hst), if_pos hst]
    rfl
  · rw [if_neg (mt beq_iff_eq.mp hst), if_neg hst]

theorem State.linkDown_of_down (hup : s.get Fd.PCI_LINK.UP = 0) : s.linkDown = s :=
  if_pos (by rw [(s.on_eq_false_iff _).mpr hup]; rfl)

theorem State.obEnd_of_open {id : Nat} {x : ObRead} (v : Option Nat) (hx : mapGet? s.pci.reads id = some x) (hopen : x.result = none)
    (hreq : x.req ≠ reqNone) :
    s.obEnd id v = (if v.isNone then s.obFail else s).modPci fun p => { p with reads := mapPut p.reads id { x with result := some v } } := by
  unfold State.obEnd
  simp only [hx]
  rw [if_neg (by rw [hopen]; decide)]
  simp only [if_neg (mt beq_iff_eq.mp hreq)]

/-! ### Host writes -/

section
variable (hup : s.get Fd.PCI_LINK.UP ≠ 0)
include hup

theorem State.pf1_of_safeHold (hs : s.get Fd.CFG_STAT.SAFE_HOLD ≠ 0) (f : State → State) : s.pf1 f = s.hostDrop := by
  unfold State.pf1
  rw [if_neg (by rw [(s.on_eq_true_iff _).mpr hup]; decide), if_pos ((s.on_eq_true_iff _).mpr hs)]

variable (hs : s.get Fd.CFG_STAT.SAFE_HOLD = 0)
include hs

theorem State.pf1_of_up (f : State → State) : s.pf1 f = f s := by
  unfold State.pf1
  rw [if_neg (by rw [(s.on_eq_true_iff _).mpr hup]; decide), if_neg (by rw [(s.on_eq_false_iff _).mpr hs]; decide)]

theorem State.hostQueue_of_up (q : Nat) (f : State → State) :
    s.hostQueue q f = if s.get (Fd.PCI_MQ_CFG.EN q) = 0 then s.hostDrop else f s :=
  (State.pf1_of_up hup hs _).trans (State.ite_on ..)

end

theorem idxOk_iff (head tail size : Nat) : idxOk head tail size = true ↔ (head + 2 ^ 16 - tail) % 2 ^ 16 ≤ size := decide_eq_true_iff

theorem State.mqH2dHead_of_advance {q v : Nat} (hroom : idxOk v (s.get (Fd.PCI_MQ_IDX.H2D_TAIL q)) (s.h2dSize q) = true)
    (hne : v ≠ s.get (Fd.PCI_MQ_IDX.H2D_HEAD q)) :
    s.mqH2dHead q v = (s.set (Fd.PCI_MQ_IDX.H2D_HEAD q) v).pulse (s.get (Fd.PCI_MQ_CFG.SRC q)) := by
  refine if_neg ?_
  rw [hroom, beq_false_of_ne hne]
  decide

theorem State.mqH2dHead_of_full {q v : Nat} (hfull : idxOk v (s.get (Fd.PCI_MQ_IDX.H2D_TAIL q)) (s.h2dSize q) = false) :
    s.mqH2dHead q v = s := if_pos (by rw [hfull]; rfl)

theorem State.mqD2hTail_eq (s : State) (q v : Nat) :
    s.mqD2hTail q v = if (s.get (Fd.PCI_MQ_IDX.D2H_HEAD q) + 2 ^ 16 - v) % 2 ^ 16 ≤ 2 ^ s.get (Fd.PCI_MQ_CFG.D2H_LOG2 q)
      then s.set (Fd.PCI_MQ_IDX.D2H_TAIL q) v else s := ite_of_iff (idxOk_iff ..) rfl rfl

theorem State.mqD2hHead_of_advance {q v : Nat} (hroom : idxOk v (s.get (Fd.PCI_MQ_IDX.D2H_TAIL q)) (s.d2hSize q) = true)
    (hne : v ≠ s.get (Fd.PCI_MQ_IDX.D2H_HEAD q)) :
    s.mqD2hHead q v = (s.set (Fd.PCI_MQ_IDX.D2H_HEAD q) v).msix 1 (2 + q) := by
  refine if_neg ?_
  rw [hroom, beq_false_of_ne hne]
  decide

/-! ### Snapshots -/

theorem State.snapshotCopy_of_decided (hrun : s.frameRunning = true) (hdec : s.frame.decided = true) (hc : s.pci.copied ≠ some s.frameNo) :
    let u := (s.atTime (s.deadline + 100)).modPci fun p => { p with copied := some s.frameNo }
    s.snapshotCopy = ((List.range 4).filter fun w => u.on (Fd.PCI_SNAP_CFG.EN w) && u.due (u.get (Fd.PCI_SNAP_CFG.CLASS w))).foldl
      (fun v w => v.snapBegin w) u :=
  if_neg (by rw [hrun, hdec, beq_false_of_ne hc]; decide)

theorem State.snapshotEnd_of_idle {w : Nat} (hw : (s.snap w).writing = false) : s.snapshotEnd w = s := if_pos (by rw [hw]; rfl)

/-- SEQ is written behind the entries, and the window's status shows it (R502). -/
def State.snapWritten (s : State) (w k : Nat) : State :=
  let u := (s.homeWrite snapWho (s.snapAddr w k) (leBytes 8 (k + 1))).setSnap w { k := k + 1, writing := false }
  (u.set (Fd.PCI_SNAP_STAT.LAST w) (k % 2)).set (Fd.PCI_SNAP_STAT.SEQ w) (k + 1)

theorem State.snapshotEnd_of_writing {w : Nat} (hw : (s.snap w).writing = true) :
    s.snapshotEnd w = if (s.snapWritten w (s.snap w).k).get (Fd.PCI_SNAP_CFG.INT w) = 0 then s.snapWritten w (s.snap w).k
      else (s.snapWritten w (s.snap w).k).msix 1 0 :=
  (if_neg (by rw [hw]; decide)).trans (State.ite_on ..)

/-- Settles O51: the link and the function resets, the host's tag and index writes, the snapshots, and what cores at E level write. -/
theorem hostInterface : Obligations.HostInterface := by
  unfold Obligations.HostInterface
  refine ⟨?link, ?writes, ?safeHold, fun s => ⟨?copy, fun w hw => congrArg Host.Outcome.next (State.snapshotEnd_of_idle hw),
    fun w hw => congrArg Host.Outcome.next (State.snapshotEnd_of_writing hw)⟩, ?cores⟩
  case link =>
    intro s
    refine ⟨fun speed x8 hres hsp => congrArg Host.Outcome.next (State.linkUp_of_speed x8 hres hsp),
      fun hup hreads => congrArg Host.Outcome.next (State.linkDown_of_up hup hreads),
      fun hup => congrArg Host.Outcome.next (State.linkDown_of_down hup), fun hres => congrArg Host.Outcome.next (if_neg ?_), rfl, rfl,
      fun id x v hx hopen hreq => ⟨congrArg Host.Outcome.next (State.obEnd_of_open _ hx hopen hreq),
        congrArg Host.Outcome.next (State.obEnd_of_open none hx hopen hreq)⟩⟩
    rw [hres]
    exact Bool.false_ne_true
  case writes =>
    intro s hup hs
    refine ⟨fun t v q => ⟨congrArg Host.Outcome.next (State.pf1_of_up hup hs _), congrArg Host.Outcome.next (State.pf1_of_up hup hs _),
      congrArg Host.Outcome.next (State.pf1_of_up hup hs _)⟩, fun q v hen => ?disabled, fun q v hen => ?enabled⟩
    case disabled =>
      exact ⟨congrArg Host.Outcome.next ((State.hostQueue_of_up hup hs _ _).trans (if_pos hen)),
        congrArg Host.Outcome.next ((State.hostQueue_of_up hup hs _ _).trans (if_pos hen))⟩
    case enabled =>
      have hqueue (f : State → State) : s.hostQueue q.val f = f s := (State.hostQueue_of_up hup hs _ f).trans (if_neg hen)
      refine ⟨fun hroom hne => congrArg Host.Outcome.next ((hqueue _).trans (State.mqH2dHead_of_advance ((idxOk_iff ..).mpr hroom) hne)),
        fun hfull => congrArg Host.Outcome.next ((hqueue _).trans (State.mqH2dHead_of_full ?_)),
        congrArg Host.Outcome.next ((hqueue _).trans (State.mqD2hTail_eq ..))⟩
      exact Bool.eq_false_iff.mpr (mt (idxOk_iff ..).mp (Nat.not_le.mpr hfull))
  case safeHold =>
    intro s hup hs t v q h
    exact ⟨congrArg Host.Outcome.next (State.pf1_of_safeHold hup hs _), congrArg Host.Outcome.next (State.pf1_of_safeHold hup hs _)⟩
  case copy => exact fun hrun hdec hc => congrArg Host.Outcome.next (State.snapshotCopy_of_decided hrun hdec hc)
  case cores =>
    intro s r u
    refine ⟨fun w v ha => exec_of_admitted ha rfl, fun q v ha => exec_of_admitted ha rfl, fun q v ha hmay hne hroom => ?_,
      fun ha => exec_of_admitted ha rfl, fun ha => exec_of_admitted ha rfl⟩
    exact (exec_of_admitted ha rfl).trans (congrArg Host.Outcome.next ((if_pos hmay).trans
      (State.mqD2hHead_of_advance ((idxOk_iff ..).mpr hroom) hne)))

end Sys2Proof.Machine
end

section
/-! Supply, resets, retention and the time outputs (chapters 17 and 18). -/

namespace Sys2Proof.Machine

variable {s u : State}

/-! ### The facts of the always-on domain -/

/-- Two fields share no bit of one register. -/
def fieldsApart (f g : Fld) : Bool :=
  f.off ≠ g.off ∨ (f.off = g.off ∧ f.hi < 64 ∧ f.lo ≤ f.hi + 1 ∧ (f.hi < g.lo ∨ g.hi < f.lo ∧ g.lo ≤ g.hi + 1))

theorem State.get_set_apart {f g : Fld} (v : Nat) (h : fieldsApart f g = true) : (s.set f v).get g = s.get g := by
  obtain hne | ⟨hoff, hhi, hlo, habove | ⟨hbelow, hg⟩⟩ := of_decide_eq_true h
  · exact State.get_set_ne s v hne
  · exact State.get_set_above s v hoff hhi hlo habove
  · exact State.get_set_below s v hoff hhi hlo hbelow hg

theorem State.get_set_flag {f : Fld} (b : Bool) (h : f.hi < 64) (hw : f.hi = f.lo) : (s.set f (b2n b)).get f = b2n b := by
  have hone : f.hi + 1 - f.lo = 1 := by omega
  rw [State.get_set _ _ _ h (by omega), hone]
  cases b <;> rfl

section
variable (s)

theorem State.showFacts_feedA : s.showFacts.get Fd.PWR_STAT.FEED_A = b2n s.power.feedA := by
  unfold State.showFacts
  rw [State.get_set_apart _ (by decide), State.get_set_apart _ (by decide), State.get_set_apart _ (by decide),
    State.get_set_apart _ (by decide), State.get_set_apart _ (by decide), State.get_set_flag _ (by decide) rfl]

theorem State.showFacts_feedB : s.showFacts.get Fd.PWR_STAT.FEED_B = b2n s.power.feedB := by
  unfold State.showFacts
  rw [State.get_set_apart _ (by decide), State.get_set_apart _ (by decide), State.get_set_apart _ (by decide),
    State.get_set_apart _ (by decide), State.get_set_flag _ (by decide) rfl]

theorem State.showFacts_holdOk : s.showFacts.get Fd.PWR_STAT.HOLD_OK = b2n s.power.holdOk := by
  unfold State.showFacts
  rw [State.get_set_apart _ (by decide), State.get_set_apart _ (by decide), State.get_set_apart _ (by decide),
    State.get_set_flag _ (by decide) rfl]
  rfl

theorem State.showFacts_holdFault : s.showFacts.get Fd.PWR_STAT.HOLD_FAULT = b2n s.power.holdFault := by
  unfold State.showFacts
  rw [State.get_set_apart _ (by decide), State.get_set_apart _ (by decide), State.get_set_flag _ (by decide) rfl]
  rfl

theorem State.showFacts_pfw : s.showFacts.get Fd.PWR_STAT.PFW = b2n s.sec.pfHeld := by
  unfold State.showFacts
  rw [State.get_set_flag _ (by decide) rfl]
  rfl

end

/-! ### Supply -/

theorem State.lockoutRelease_of_off (a b : Bool) (h : s.alwaysOn = false) :
    s.lockoutRelease a b =
      let u := (s.modStart fun x => { x with phase := .rising }).modSec fun x => { x with
        hwClock := ((Config.freeWord s.freeCnt).toNat : Int) - s.now }
      let u : State := { u with freeCnt := u.freeCnt + 1, pins := { u.pins with xspiReset := some s.now } }
      (((u.set Fd.PWR_RST_CAUSE.KIND 1).set Fd.PWR_RST_CAUSE.SRC 0).modPower fun p =>
        { p with feedA := a, feedB := b, disarmed := false }).showFacts := by
  unfold State.lockoutRelease
  rw [if_neg (by rw [h]; exact Bool.false_ne_true)]
  rfl

theorem State.feed_of_on (b good : Bool) (h : s.alwaysOn = true) :
    let u := s.modPower fun p =>
      { p with feedA := if b then p.feedA else good, feedB := if b then good else p.feedB, disarmed := p.disarmed && !good }
    s.feed b good = if (if b then s.power.feedB else s.power.feedA) = good then s
      else (u.showFacts.set Fd.PWR_STAT.FEED_CHG 1).pulse (s.get Fd.PWR_IRQ_SRC.FEED_SRC) := by
  unfold State.feed
  rw [h]
  cases b <;> exact ite_of_iff beq_iff_eq rfl rfl

/-- A feed's level is noted. -/
def State.feedNoted (s : State) (b good : Bool) : State :=
  s.modPower fun p => if b then { p with feedB := good, disarmed := p.disarmed && !good } else { p with
    feedA := good, disarmed := p.disarmed && !good }

theorem State.feed_eq (s : State) (b good : Bool) :
    s.feed b good = if !s.alwaysOn || (if b then s.power.feedB else s.power.feedA) == good then s else
      ((s.feedNoted b good).showFacts.raise Fd.PWR_STAT.FEED_CHG).pulse ((s.feedNoted b good).get Fd.PWR_IRQ_SRC.FEED_SRC) := rfl

theorem State.feedShown_keeps (u : State) :
    (u.showFacts.raise Fd.PWR_STAT.FEED_CHG).start = u.start ∧ (u.showFacts.raise Fd.PWR_STAT.FEED_CHG).sec = u.sec := by
  constructor
  · rw [State.raise_start, State.showFacts_start]
  · unfold State.raise State.showFacts
    simp only [State.set_sec]

theorem State.feed_keeps (s : State) (b good : Bool) : (s.feed b good).start = s.start ∧ (s.feed b good).sec = s.sec := by
  have hrouter := State.pulse_field_irqOnly (s.feedNoted b good) ((s.feedNoted b good).showFacts.raise Fd.PWR_STAT.FEED_CHG)
    (f := Fd.PWR_IRQ_SRC.FEED_SRC) (by decide)
  by_cases h : (!s.alwaysOn || (if b then s.power.feedB else s.power.feedA) == good) = true
  · rw [State.feed_eq, if_pos h]
    exact ⟨rfl, rfl⟩
  · rw [State.feed_eq, if_neg h]
    obtain ⟨hstart, hsec⟩ := (s.feedNoted b good).feedShown_keeps
    exact ⟨hrouter.start.trans hstart, hrouter.sec.trans hsec⟩

/-- The registers of the main side in reset keep everything but the registers. -/
theorem State.resetRegisters_rest (s : State) (kept : List Fld) :
    (s.resetRegisters kept).sec = s.sec ∧ (s.resetRegisters kept).met = s.met := by
  have hset (t : State) : (t.each kept fun t f => t.set f (s.get f)).sec = t.sec ∧ (t.each kept fun t f => t.set f (s.get f)).met = t.met := by
    unfold State.each
    induction kept generalizing t with
    | nil => exact ⟨rfl, rfl⟩
    | cons f l ih => exact ih (t.set f (s.get f))
  unfold State.resetRegisters
  generalize resetRegs = regs
  exact hset { s with regs := regs }

theorem State.stagingCut_keeps (s : State) : s.stagingCut.sec = s.sec ∧ s.stagingCut.met = s.met := by
  unfold State.stagingCut
  split <;> exact ⟨rfl, rfl⟩

/-- The units of the main side as a loss of supply leaves them. -/
def State.mainLost (s : State) : State := (s.stagingCut.sprintCut.resetRegisters nvFields).resetUnits

theorem State.resetUnits_keeps (u : State) :
    u.resetUnits.sec = u.sec ∧ u.resetUnits.met = u.met ∧ u.resetUnits.groves = [] ∧ u.resetUnits.cores = [] := ⟨rfl, rfl, rfl, rfl⟩

theorem State.mainLost_keeps (s : State) : s.mainLost.sec = s.sec ∧ s.mainLost.met = s.met ∧ s.mainLost.groves = [] ∧ s.mainLost.cores = [] := by
  obtain ⟨rsec, rmet⟩ := s.stagingCut.sprintCut.resetRegisters_rest nvFields
  obtain ⟨csec, cmet⟩ := s.stagingCut_keeps
  obtain ⟨usec, umet, ugroves, ucores⟩ := (s.stagingCut.sprintCut.resetRegisters nvFields).resetUnits_keeps
  exact ⟨usec.trans (rsec.trans csec), umet.trans (rmet.trans cmet), ugroves, ucores⟩

/-- Without supply, what neither flash nor MRAM nor OTP holds is gone. -/
def State.unpowered (u : State) : State :=
  { u with
    mem := [], start := {}, pins := {}
    power := { clkAdj := u.power.clkAdj }
    met := { u.met with running := false, pfStored := false, cmd := none }
    sec := { u.sec with queue := [], boxes := [], active := 0, absentAt := [], pfHeld := false, fwWriting := none, tapInstr := 0x01, hwClock := 0 } }

theorem State.lockout_of_on (h : s.alwaysOn = true) : s.lockout = s.mainLost.unpowered := if_neg (by rw [h]; exact Bool.false_ne_true)

theorem State.unpowered_after (u : State) :
    let t := u.unpowered
    t.mem = [] ∧ t.groves = u.groves ∧ t.cores = u.cores ∧ t.start.phase = .unpowered ∧ t.met.running = false ∧ t.sec.owners = u.sec.owners ∧
      t.met.stored = u.met.stored ∧ t.met.slots = u.met.slots := ⟨rfl, rfl, rfl, rfl, rfl, rfl, rfl, rfl⟩

theorem State.lockout_after (h : s.alwaysOn = true) :
    let t := s.lockout
    t.mem = [] ∧ t.groves = [] ∧ t.cores = [] ∧ t.start.phase = .unpowered ∧ t.met.running = false ∧ t.sec.owners = s.sec.owners ∧
      t.met.stored = s.met.stored ∧ t.met.slots = s.met.slots := by
  obtain ⟨hsec, hmet, hgroves, hcores⟩ := s.mainLost_keeps
  have hafter := s.mainLost.unpowered_after
  rwa [hgroves, hcores, hsec, hmet, ← State.lockout_of_on h] at hafter

/-! ### The power-fail sequence -/

/-- Both feeds are known to be lost, and the warning is disarmed (R510). -/
def State.feedsLost (s : State) : State := ((s.feed false false).feed true false).modPower fun p => { p with disarmed := true }

/-- The warning stands from now on. -/
def State.warned (s : State) : State :=
  ((s.set Fd.PWR_STAT.PFW 1).modPower fun p => { p with warnedAt := s.now }).modSec fun x => { x with pfHeld := true }

/-- Heartwood's commands that write flash or OTP end. -/
def State.writesCut (s : State) : State :=
  s.each (s.sec.queue.filter s.mbxWrites) fun s m =>
    (if s.get (Fd.HWD_MBX_CMD.CODE m) == 0x10 then s.stagingCut.lower Fd.CFG_STAGE.BUSY else s).mbxEnd m 0x0A 0 0

theorem State.writesCut_of_idle (h : s.sec.queue = []) : s.writesCut = s := by
  unfold State.writesCut
  rw [h]
  rfl

theorem State.inReset_of_done (h : s.phase = .done) : s.inReset = false := by
  unfold State.inReset
  rw [h]

theorem State.warned_rest (s : State) : s.warned.start = s.start ∧ s.warned.sec.queue = s.sec.queue := ⟨rfl, rfl⟩

theorem State.feedsLost_keeps (s : State) : s.feedsLost.start = s.start ∧ s.feedsLost.sec = s.sec := by
  obtain ⟨hstartA, hsecA⟩ := s.feed_keeps false false
  obtain ⟨hstartB, hsecB⟩ := (s.feed false false).feed_keeps true false
  exact ⟨hstartB.trans hstartA, hsecB.trans hsecA⟩

theorem State.powerFailWarning_of_done (ha : s.alwaysOn = true) (hp : s.sec.pfHeld = false) (hd : s.power.disarmed = false)
    (hq : s.sec.queue = []) (hphase : s.phase = .done) : s.powerFailWarning = s.feedsLost.warned.framesStop := by
  obtain ⟨hstart, hsec⟩ := s.feedsLost_keeps
  obtain ⟨wstart, wqueue⟩ := s.feedsLost.warned_rest
  have hw : s.feedsLost.warned.phase = .done := (congrArg StartSt.phase (wstart.trans hstart)).trans hphase
  have hstep : s.powerFailWarning = if s.feedsLost.warned.writesCut.inReset then
      s.feedsLost.warned.writesCut.modPower fun p => { p with rstHeld := addOnce p.rstHeld srcPowerFail }
      else if s.feedsLost.warned.writesCut.phase != .done then s.feedsLost.warned.writesCut.setPhase .abandoned
      else s.feedsLost.warned.writesCut.framesStop := if_neg (by rw [ha, hp, hd]; decide)
  rw [hstep, State.writesCut_of_idle (wqueue.trans ((congrArg SecSt.queue hsec).trans hq)), if_neg (by rw [State.inReset_of_done hw]; decide), if_neg (by rw [hw]; decide)]

theorem State.powerFailWarning_of_held (h : s.sec.pfHeld = true ∨ s.power.disarmed = true) : s.powerFailWarning = s := by
  refine if_pos ?_
  rcases h with h | h <;> simp [h]

theorem State.powerFailReset_of_held (h : s.sec.pfHeld = true) :
    s.powerFailReset = (((s.atTime (s.power.warnedAt + 4500000)).enterReset kindCold srcPowerFail 1).set Fd.PWR_STAT.PFW 0).modSec fun x =>
      { x with pfHeld := false } := if_neg (by rw [h]; decide)

theorem State.powerFailPorts_of_warning (hw : s.get Fd.PWR_STAT.PFW ≠ 0) (hphase : s.phase = .done) :
    s.powerFailPorts = (List.range 72).foldl (fun v p => v.powerFailRelease p) (s.atTime (s.power.warnedAt + 100000)) :=
  if_neg (by rw [(s.on_eq_true_iff _).mpr hw, hphase]; decide)

/-! ### Resets -/

theorem State.resetCause_start (s : State) (kind src : Nat) : (s.resetCause kind src).start = s.start := by
  unfold State.resetCause
  dsimp only
  split <;> rfl

theorem State.mbxResult_start (u : State) (m result detail len : Nat) : (u.mbxResult m result detail len).start = u.start := by
  unfold State.mbxResult
  simp only [State.set_start, State.raise_start, State.lower_start]

theorem State.mbxAbort_start (u : State) (ms : List Nat) : (u.mbxAbort ms).start = u.start :=
  State.each_start _ _ _ fun _ _ => State.mbxResult_start ..

/-- The units of the main side as a reset of it leaves them. -/
def State.mainReset (s : State) (debugCause : Nat) : State :=
  let u := ((((s.debugClose debugCause).stagingCut).sprintCut).resetRegisters keptFields).resetUnits
  let u := u.modSec fun x => { x with queue := [], boxes := [], fwWriting := none }
  { u with met := { u.met with cmd := none } }

theorem State.enterMain_eq (s : State) (debugCause : Nat) :
    s.enterMain debugCause =
      ((s.mainReset debugCause).modStart fun x => { recovery := x.recovery, phase := .heldReset }).mbxAbort s.sec.queue := rfl

theorem State.enterMain_phase (s : State) (debugCause : Nat) : (s.enterMain debugCause).phase = .heldReset := by
  rw [State.enterMain_eq]
  generalize s.mainReset debugCause = u
  exact congrArg StartSt.phase (State.mbxAbort_start ..)

theorem State.enterReset_alwaysOn (kind src debugCause : Nat) (h : s.alwaysOn = true) : (s.enterReset kind src debugCause).alwaysOn = true := by
  have hphase : s.phase ≠ .unpowered := bne_iff_ne.mp h
  unfold State.enterReset
  rw [if_neg (by rw [h]; decide)]
  refine bne_iff_ne.mpr ?_
  dsimp only
  by_cases hres : s.inReset = true
  · rw [if_pos hres]
    exact fun he => hphase ((congrArg StartSt.phase (s.resetCause_start kind src)).symm.trans he)
  · rw [if_neg hres]
    exact fun he => absurd ((State.enterMain_phase _ _).symm.trans he) (by decide)

theorem State.coldReset_of_on (h : s.alwaysOn = true) :
    s.coldReset = ((s.enterReset kindCold srcRstN 1).set Fd.PWR_STAT.PFW 0).modSec fun x => { x with pfHeld := false } :=
  if_pos (State.enterReset_alwaysOn _ _ _ h)

theorem State.pwrCtl_warm (r : Requester) (key : Byte) :
    s.pwrCtl r 1 key.toNat = if s.mayPower r = true ∧ key = 0xA5 then s.enterReset kindWarm srcPwrCtl 1 else s := by
  refine ite_of_iff ?_ rfl rfl
  simp [← BitVec.toNat_inj]

/-! ### Retention, sprint and the time outputs -/

theorem State.retention_eq (s : State) (r : Requester) (v : Nat) :
    s.retention r v = if s.mayPower r = true ∧ (∀ b, b ∈ bitsSet 28 v → s.bankInUse b = false) then s.set Fd.PWR_RET.BANKS v else s := by
  refine ite_refused ?_ _ _
  simp only [Bool.or_eq_true, Bool.not_eq_true', List.any_eq_true, Classical.not_and_iff_not_or_not, Classical.not_forall, Bool.not_eq_false, Bool.not_eq_true, exists_prop]

theorem State.coolEnd_of_cooling (h : s.get Fd.PWR_SPRINT.COOL ≠ 0) :
    s.coolEnd = (s.atTime (s.get Fd.PWR_COOL_END.NS)).set Fd.PWR_SPRINT.COOL 0 := if_pos ((s.on_eq_true_iff _).mpr h)

theorem State.sprintLimit_of_due {t0 : Nat} (h : s.power.sprintSince = some t0)
    (hdue : s.frameRunning = false ∨ t0 + 30000000000 < s.tickTime + s.period) : s.sprintLimit = s.sprintEnd t0 := by
  unfold State.sprintLimit
  rw [h]
  refine if_pos ?_
  rcases hdue with h | h <;> simp [h]

theorem State.ppsOut_of_acquired (hres : s.inReset = false) (ha : s.get Fd.TIME_STAT.ACQUIRED ≠ 0)
    (hp : s.pins.ppsOut ≠ some (roundUp s.now 1000000000)) :
    s.ppsOut = { s.atTime (roundUp s.now 1000000000) with pins := { s.pins with ppsOut := some (roundUp s.now 1000000000) } } := by
  unfold State.ppsOut
  rw [if_neg (by rw [hres, (s.on_eq_true_iff _).mpr ha]; decide)]
  dsimp only
  rw [if_neg (mt beq_iff_eq.mp hp)]

/-- Settles O52: the supply and what it starts and stops, the power-fail sequence, resets, retention, sprint and `PPS_OUT`. -/
theorem powerAndResets : Obligations.PowerAndResets := by
  unfold Obligations.PowerAndResets
  refine ⟨fun s => ⟨fun a b h => congrArg Host.Outcome.next (State.lockoutRelease_of_off a b h),
    ⟨s.showFacts_feedA, s.showFacts_feedB, s.showFacts_holdOk, s.showFacts_holdFault, s.showFacts_pfw⟩,
    fun h => congrArg Host.Outcome.next (if_pos (by rw [h]; rfl)), fun h => ⟨_, rfl, State.lockout_after h⟩,
    fun ha hp hd hq hphase => congrArg Host.Outcome.next (State.powerFailWarning_of_done ha hp hd hq hphase),
    fun h => congrArg Host.Outcome.next (State.powerFailWarning_of_held h),
    fun h => congrArg Host.Outcome.next (State.powerFailReset_of_held h),
    fun hw hphase => congrArg Host.Outcome.next (State.powerFailPorts_of_warning hw hphase),
    fun b good h => congrArg Host.Outcome.next (State.feed_of_on b good h), ?holdUp,
    fun h => congrArg Host.Outcome.next (State.coldReset_of_on h), fun h => congrArg Host.Outcome.next (if_pos h),
    fun h => congrArg Host.Outcome.next (State.coolEnd_of_cooling h),
    fun t0 h hdue => congrArg Host.Outcome.next (State.sprintLimit_of_due h hdue),
    fun hres ha hp => congrArg Host.Outcome.next (State.ppsOut_of_acquired hres ha hp)⟩, ?writes⟩
  case holdUp =>
    intro h
    have hon : ¬ (!s.alwaysOn) = true := by rw [h]; decide
    exact ⟨congrArg Host.Outcome.next (if_neg hon), congrArg Host.Outcome.next (if_neg hon)⟩
  case writes =>
    intro s r
    exact ⟨fun key ha => (exec_of_admitted ha rfl).trans (congrArg Host.Outcome.next (State.pwrCtl_warm r key)),
      fun on ha => (exec_of_admitted ha rfl).trans rfl,
      fun v ha => (exec_of_admitted ha rfl).trans (congrArg Host.Outcome.next (State.retention_eq ..)),
      fun ha => (exec_of_admitted ha rfl).trans rfl⟩

end Sys2Proof.Machine
end

section
/-! Core debug through DMI (14.8, 18.7). -/

namespace Sys2Proof.Machine

variable {s : State} {c : CoreId}

theorem State.dmi_of_closed (op : DmiOp) (h : s.dmiOpen = false) : s.dmi op = s := if_pos (by rw [h]; rfl)

theorem State.dmiOpen_iff (s : State) : s.dmiOpen = true ↔ s.sec.tapInstr = 0x11 ∧ s.coreDebug = true := by
  simp [State.dmiOpen]

/-- The number of an x register among the abstract registers. -/
theorem abstractX_toNat {i : Nat} (hi : i < 32) : (BitVec.ofNat 16 (0x1000 + i)).toNat = 0x1000 + i :=
  Nat.mod_eq_of_lt (by omega)

theorem State.dbgReg_x (s : State) (c : Nat) {i : Nat} (hi : i < 32) : s.dbgReg c (0x1000 + i) = (some (s.x c i), s) := by
  have hdpc : ¬ (0x1000 + i == csrDpc) = true := mt beq_iff_eq.mp (by unfold csrDpc; omega)
  unfold State.dbgReg
  rw [if_neg hdpc, if_neg (by omega), if_pos (by omega), Nat.add_sub_cancel_left]

theorem State.dbgSetReg_x (s : State) (c v : Nat) {i : Nat} (hi : i < 32) : s.dbgSetReg c (0x1000 + i) v = some (s.setX c i v) := by
  have hdpc : ¬ (0x1000 + i == csrDpc) = true := mt beq_iff_eq.mp (by unfold csrDpc; omega)
  unfold State.dbgSetReg
  rw [if_neg hdpc, if_neg (by omega), if_pos (by omega), Nat.add_sub_cancel_left]

theorem State.dbgReg_pc (s : State) (c : Nat) : s.dbgReg c 0x7B1 = (some (s.pc c), s) := rfl

section
variable (hopen : s.dmiOpen = true)
include hopen

theorem State.dmi_halt : s.dmi (.halt c) = s.modCore c.val fun k => { k.discard with halted := true, stepping := false } :=
  if_neg (by rw [hopen]; decide)

theorem State.dmi_resume (hh : (s.core c.val).halted = true) :
    s.dmi (.resume c) = s.modCore c.val fun k => { k with halted := false, stepping := false } :=
  (if_neg (by rw [hopen]; decide)).trans (if_pos hh)

theorem State.dmi_step (hh : (s.core c.val).halted = true) :
    s.dmi (.step c) = s.modCore c.val fun k => { k with halted := false, stepping := true } :=
  (if_neg (by rw [hopen]; decide)).trans (if_pos hh)

theorem State.dmi_readReg {n : Half} {v : Nat} (hh : (s.core c.val).halted = true) (hr : s.dbgReg c.val n.toNat = (some v, s)) :
    s.dmi (.readReg c n) = s.answer (.data (BitVec.ofNat 64 v)) := by
  unfold State.dmi
  rw [if_neg (by rw [hopen]; decide)]
  dsimp only
  rw [if_neg (by rw [hh]; decide), hr]

theorem State.dmi_writeReg {n : Half} {v : Word} {t : State} (hh : (s.core c.val).halted = true)
    (hw : s.dbgSetReg c.val n.toNat v.toNat = some t) : s.dmi (.writeReg c n v) = t.answer .ok := by
  unfold State.dmi
  rw [if_neg (by rw [hopen]; decide)]
  dsimp only
  rw [if_neg (by rw [hh]; decide), hw]

theorem State.dmi_readReg_of_running (n : Half) (hh : (s.core c.val).halted = false) : s.dmi (.readReg c n) = s.answer .busError :=
  (if_neg (by rw [hopen]; decide)).trans (if_pos (by rw [hh]; rfl))

theorem State.dmi_writeReg_of_running (n : Half) (v : Word) (hh : (s.core c.val).halted = false) :
    s.dmi (.writeReg c n v) = s.answer .busError :=
  (if_neg (by rw [hopen]; decide)).trans (if_pos (by rw [hh]; rfl))

theorem State.dmi_busRead (a : PAddr) (n : Nat) :
    s.dmi (.busRead c a n) = s.dbgBus c a.toNat n fun s => s.busRead (.core c) a.toNat n := if_neg (by rw [hopen]; decide)

theorem State.dmi_busWrite (a : PAddr) (n : Nat) (v : Word) :
    s.dmi (.busWrite c a n v) = s.dbgBus c a.toNat n fun s => s.busWrite (.core c) a.toNat n v.toNat := if_neg (by rw [hopen]; decide)

end

theorem State.dbgBus_of_sealed {a : Nat} (n : Nat) (f : State → State) (h : targetOf a = .sealed) : s.dbgBus c a n f = s.answer .busError :=
  if_pos (by rw [h]; rfl)

theorem State.dbgBus_of_open {a n : Nat} (f : State → State) (hfirst : targetOf a ≠ .sealed) (hlast : targetOf (a + n - 1) ≠ .sealed) :
    s.dbgBus c a n f = (f (s.setLevel c.val .e)).setLevel c.val (s.level c.val) :=
  if_neg (by rw [beq_false_of_ne hfirst, beq_false_of_ne hlast]; decide)

/-- Settles O54: nothing while it is closed, and each access of the debug module while it is open. -/
theorem coreDebug : Obligations.CoreDebug := by
  unfold Obligations.CoreDebug
  refine ⟨fun op s h => congrArg Host.Outcome.next (State.dmi_of_closed op ?closed), fun s htap hdbg c => ?_⟩
  case closed =>
    refine Bool.eq_false_iff.mpr fun ho => ?_
    obtain ⟨htap, hdbg⟩ := s.dmiOpen_iff.mp ho
    exact h.elim (fun hn => hn htap) fun hc => Bool.false_ne_true (hc.symm.trans hdbg)
  have hopen : s.dmiOpen = true := s.dmiOpen_iff.mpr ⟨htap, hdbg⟩
  refine ⟨congrArg Host.Outcome.next (State.dmi_halt hopen), fun hh => ?halted, fun hh n v =>
    ⟨congrArg Host.Outcome.next (State.dmi_readReg_of_running hopen n hh), congrArg Host.Outcome.next (State.dmi_writeReg_of_running hopen n v hh)⟩,
    fun a n v hfirst hlast => ?bus, fun a n v hs => ?sealed⟩
  case halted =>
    refine ⟨congrArg Host.Outcome.next (State.dmi_resume hopen hh), congrArg Host.Outcome.next (State.dmi_step hopen hh), fun i hi => ?_,
      fun i v hi => ?_, congrArg Host.Outcome.next (State.dmi_readReg hopen hh (State.dbgReg_pc s c.val))⟩
    · exact congrArg Host.Outcome.next (State.dmi_readReg hopen hh ((congrArg (s.dbgReg c.val) (abstractX_toNat hi)).trans (s.dbgReg_x c.val hi)))
    · refine congrArg Host.Outcome.next (State.dmi_writeReg hopen hh ?_)
      rw [abstractX_toNat hi]
      exact s.dbgSetReg_x c.val v.toNat hi
  case bus =>
    exact ⟨congrArg Host.Outcome.next ((State.dmi_busRead hopen a n).trans (State.dbgBus_of_open _ hfirst hlast)),
      congrArg Host.Outcome.next ((State.dmi_busWrite hopen a n v).trans (State.dbgBus_of_open _ hfirst hlast))⟩
  case sealed =>
    exact ⟨congrArg Host.Outcome.next ((State.dmi_busRead hopen a n).trans (State.dbgBus_of_sealed _ _ hs)),
      congrArg Host.Outcome.next ((State.dmi_busWrite hopen a n v).trans (State.dbgBus_of_sealed _ _ hs))⟩

end Sys2Proof.Machine
end
